-- ==== Sys2Proof/Word.lean ====
section
/-! DEFINITION. Sys2Proof/Word.lean: the word types of the block and nothing else. -/

namespace Sys2Proof

/-- One byte of memory, of a packet or of host memory. -/
abbrev Byte := BitVec 8

/-- One register of a register page: 32-bit registers keep their upper half zero. -/
abbrev Word := BitVec 64

/-- A sparse table: keys strictly rising, and no entry equal to the table's default.
Equal contents are then equal data. -/
abbrev Tbl (α : Type) := List (Nat × α)

end Sys2Proof
end

