-- ==== Sys2Proof/Syntax.lean ====
section
/-! DEFINITION. Sys2Proof/Syntax.lean: the commands of the block, one constructor per row of spec/opcode_table.json,
and the plain data their operands are made of. -/

namespace Sys2Proof

/-- Status codes, Table 15-19 (R384). -/
inductive Status where
  | ok | noCapacity | guaranteeUnavailable | guaranteeShortfall | tableStoreFull | reservationInUse
  | paceShortfall | envelopeExceeded | thermalWarn | claimDenied
  | recipeShape | recipeSram | recipeBandwidth | recipeSlots | recipePace | recipeTable | recipePeer
  | recipeSignature | recipeImage | recipeLimit | recipeMode | recipeStream | recipeBusy
  | runFaulted | runAborted | runPeerLost
  | poisoned | checkMismatch | checkRepaired | decodeFault
  | accessDenied | sealedNoCompress | windowOverlap | windowLimit | slabMapped | tableUnavailable
  | moveSuperseded | moveBusy | hintNotHonoured | moveAbandoned
  | stopped | unexpectedCpl | fabricRateLimited | fabricUnreachable | dmaTimeout | dmaError | deviceNotReady
  deriving DecidableEq, Repr, Inhabited

/-- The code of a status, Table 15-19. -/
def Status.code : Status → Nat
  | .ok => 0x0000 | .noCapacity => 0x0101 | .guaranteeUnavailable => 0x0102 | .guaranteeShortfall => 0x0103
  | .tableStoreFull => 0x0104 | .reservationInUse => 0x0105 | .paceShortfall => 0x0106
  | .envelopeExceeded => 0x0107 | .thermalWarn => 0x0108 | .claimDenied => 0x0201
  | .recipeShape => 0x0301 | .recipeSram => 0x0302 | .recipeBandwidth => 0x0303 | .recipeSlots => 0x0304
  | .recipePace => 0x0305 | .recipeTable => 0x0306 | .recipePeer => 0x0307 | .recipeSignature => 0x0308
  | .recipeImage => 0x0309 | .recipeLimit => 0x030A | .recipeMode => 0x030B | .recipeStream => 0x030C
  | .recipeBusy => 0x030D | .runFaulted => 0x030E | .runAborted => 0x030F | .runPeerLost => 0x0310
  | .poisoned => 0x0401 | .checkMismatch => 0x0402 | .checkRepaired => 0x0403 | .decodeFault => 0x0404
  | .accessDenied => 0x0501 | .sealedNoCompress => 0x0502 | .windowOverlap => 0x0503 | .windowLimit => 0x0504
  | .slabMapped => 0x0505 | .tableUnavailable => 0x0506
  | .moveSuperseded => 0x0601 | .moveBusy => 0x0602 | .hintNotHonoured => 0x0603 | .moveAbandoned => 0x0604
  | .stopped => 0x0701 | .unexpectedCpl => 0x0702 | .fabricRateLimited => 0x0703
  | .fabricUnreachable => 0x0704 | .dmaTimeout => 0x0705 | .dmaError => 0x0706 | .deviceNotReady => 0x0707

/-- The memory tiers (chapter Placement and Migration). -/
inductive Tier where
  | t1 | t2 | t3
  deriving DecidableEq, Repr

/-- Error severity classes, in the code order of Table 15-11. -/
inductive Sev where
  | corrected | deferred | contained | fatal
  deriving DecidableEq, Repr

/-- A command in progress on a ring pair: function number (port·2048 + index, the index 0 being the PF), ring pair
and command identifier. -/
structure RingCmd where
  fn : Nat
  ring : Nat
  cid : Nat
  deriving DecidableEq, Repr

/-- What the outside world answers to reads of host memory that the device issued (R376). -/
inductive Dma where
  | bytes (b : List Byte)
  | timeout
  | error
  deriving DecidableEq, Repr

/-- Who writes a register of the TMX page: a function, or the test access port after TMX_ACCESS (R442). -/
inductive Writer where
  | fn (n : Nat)
  | tap
  deriving DecidableEq, Repr

/-- What discovery finds at one CE_N of an ONFI channel (Tables 06-1 and 06-2): whether the target answers READ ID, has the
interface, gives a parameter page with a matching CRC; what that page states: page and spare size in bytes, tR in µs, suspend
and its latency in µs, geometry, endurance; its family's index in the retry tables of the installed firmware, none when it is
not listed; whether training passed and its result; the unique ID; and the erase blocks with factory bad-block markers, numbered
within the target. -/
structure FlashTarget where
  answers : Bool
  interface : Bool
  paramOk : Bool
  pageBytes : Nat
  spareBytes : Nat
  trUs : Nat
  suspend : Bool
  suspendUs : Nat
  family : Option Nat
  pagesPerBlock : Nat
  blocksPerLun : Nat
  lunsPerTarget : Nat
  endurance : Nat
  trained : Bool
  training : Nat
  uid : Nat
  badBlocks : List Nat
  deriving DecidableEq, Repr

/-- What flash discovery finds (steps 1 to 3 of Table 06-2): the targets of each of the 32 channels by CE_N. -/
structure FlashReport where
  chans : List (List FlashTarget)
  deriving DecidableEq, Repr

/-- What the erase blocks of a die have shown (R146): the channel, the die on it, and whether it has stopped responding. -/
structure DieLoss where
  channel : Nat
  die : Nat
  dead : Bool
  deriving DecidableEq, Repr

/-- A read of the patrol of a tier: `again` says that the read-back of a write-back corrected again, or in T3 that the hard decode of
the page corrected more than 60 bits. -/
structure IcingRead where
  tier : Tier
  again : Bool
  deriving DecidableEq, Repr

/-- A request that waits at a channel (R169): number, direction, block and crumb, bank and row, real-time port,
icing, acceptance time, and whether it has passed AGE_CAP_NS. -/
structure DramReq where
  id : Nat
  write : Bool
  crumb : Nat
  bank : Nat
  row : Nat
  realTime : Bool
  icing : Bool
  time : Nat
  seq : Nat
  aged : Bool
  deriving DecidableEq, Repr

/-- What one PPM sample of all pace sensors shows (R248), in Mbeat/s. -/
structure PaceReading where
  least : Nat
  sensor : Nat
  mean : Nat
  deriving DecidableEq, Repr

/-- What one 10 µs reading of VDD_CORE and its current shows (R251): sensed millivolts, device power in watts, and
whether the AVSBus transaction was answered. -/
structure PowerReading where
  senseMv : Nat
  watts : Nat
  answered : Bool
  deriving DecidableEq, Repr

/-- What one regulator window measured at an admission controller (R241 – R243): queue level in percent of its depth, and
by master the bytes accepted and whether requests waited. -/
structure Traffic where
  ctrl : Nat
  queuePct : Nat
  moved : List Nat
  waited : List Bool
  deriving DecidableEq, Repr

/-- Where a step reads an operand: a stream, from a block offset on, or the receive buffer of a fabric port with the format
and MX encoding of what arrives there. -/
inductive Src where
  | stream (i off : Nat)
  | buffer (fport format mxEnc : Nat)
  deriving DecidableEq, Repr

/-- Where a step's results go. -/
inductive Dst where
  | stream (i off : Nat)
  | send (fport : Nat)
  deriving DecidableEq, Repr

/-- Result formats (Table 12-4). -/
inductive OutFmt where
  | fp32 | bf16 | fp16 | e5m2 | e4m3 | int32 | xacc
  deriving DecidableEq, Repr

/-- Rules of UPDATE (R288). -/
inductive Rule where
  | adamw | sgdm | scaleAdd
  deriving DecidableEq, Repr

/-- Operations of Table 12-9 with the parameters a step declares. Counts: GEMM C is m × n over k; BDOT and TOPK score
`keys` rows against `queries` over d; SWSUM sums `keys` values of width d; REDUCE folds `vectors` of `len` elements;
UPDATE and ENCODE run over `len` elements or blocks. -/
inductive StepOp where
  | gemm (m n k : Nat) (addend : Bool) (out : OutFmt)
  | bdot (queries keys d : Nat) (exp2Plus64 : Nat) (out : OutFmt) (streamOut : Bool)
  | swsum (queries keys d : Nat) (normalize : Bool) (out : OutFmt)
  | topk (queries keys d k base : Nat)
  | reduce (vectors len : Nat) (maximum : Bool) (out : OutFmt)
  | update (rule : Rule) (len : Nat) (scalars : List Nat) (out : OutFmt)
  | encode (len table : Nat)
  deriving DecidableEq, Repr

/-- The code of an operation (Table 12-9). -/
def StepOp.code : StepOp → Nat
  | .gemm .. => 1 | .bdot .. => 2 | .swsum .. => 3 | .topk .. => 4 | .reduce .. => 5 | .update .. => 6
  | .encode .. => 7

/-- A stream record of a recipe image (Table 13-2). -/
structure StreamRec where
  write : Bool
  format : Nat
  mxEnc : Nat
  length : Nat
  bw : Nat
  firstStep : Nat
  lastStep : Nat
  bytesPerStep : Nat
  deriving DecidableEq, Repr

/-- A peer record: device and the ports on which it is the direct partner. -/
structure PeerRec where
  dev : Nat
  ports : Nat
  deriving DecidableEq, Repr

/-- A slot range of one port. -/
structure SlotRange where
  fport : Nat
  first : Nat
  count : Nat
  token : Bool
  deriving DecidableEq, Repr

/-- Blocks of a stream that a step sends to the partner on a port. -/
structure SendRec where
  fport : Nat
  stream : Nat
  off : Nat
  blocks : Nat
  deriving DecidableEq, Repr

/-- A step record: what runs, when, its declared beats and the byte counts behind them, the streams and tile-store
regions (one bit per 1,472 bytes) it reads and writes, and the fabric bytes it sends per port. -/
structure StepRec where
  op : StepOp
  rtz : Bool
  restart : Bool
  start : Nat
  window : Nat
  declared : Nat
  statBytes : Nat
  computeBeats : Nat
  inBytes : Nat
  outBytes : Nat
  mergeElems : Nat
  ins : List Src
  outs : List Dst
  sends : List SendRec
  regionsRead : Nat
  regionsWritten : Nat
  fabricBytes : List Nat
  deriving DecidableEq, Repr

/-- A recipe image as read (Tables 13-1, 13-2). `clean` says that every reserved byte is zero; `tables` pairs an ID with
132 bytes; `sig` is the 96-byte signature. -/
structure Image where
  magic : Nat
  layout : Nat
  clean : Bool
  elastic : Bool
  shapeFlex : Bool
  lead : Bool
  imageBytes : Nat
  rows : Nat
  cols : Nat
  minCols : Nat
  paceFloor : Nat
  self : Nat
  leadId : Nat
  keyId : Nat
  tileBytes : Nat
  group : Nat
  rcpBytes : Nat
  startLeadNs : Nat
  stepBufBytes : Nat
  tables : List (Nat × List Byte)
  streams : List StreamRec
  peers : List PeerRec
  slots : List SlotRange
  steps : List StepRec
  sig : List Byte
  deriving DecidableEq, Repr

/-- How the reads of a recipe image and its binding table ended. -/
inductive RecipeData where
  | image (img : Image) (bind : List Nat)
  | timeout
  | error
  deriving DecidableEq, Repr

/-- The header fields of a fabric packet (R328). -/
structure Pkt where
  type : Nat
  flags : Nat
  dst : Nat
  src : Nat
  dstCtx : Nat
  srcCtx : Nat
  tag : Nat
  length : Nat
  hops : Nat
  addr : Nat
  spec : Nat
  deriving DecidableEq, Repr

/-- Messages of SPDM on a link (R324, R327): a certificate chain with the root it ends at (0 the Fenavaud device root,
1–4 integrator peer roots), what it names, and whether it verifies; session upkeep. -/
inductive SpdmMsg where
  | negotiate (ok : Bool)
  | finish (root : Nat) (namesHjx : Bool) (cert : Nat) (verified : Bool)
  | getMeasurements (nonce : Nat)
  | keyUpdate
  | heartbeatAck
  | endSession
  | failed
  deriving DecidableEq, Repr

/-- LINK packets (R330, R331). -/
inductive LinkMsg where
  | ack (seq : Nat)
  | nak (seq : Nat)
  | credit (cls vl units : Nat)
  deriving DecidableEq, Repr

/-- What is wrong with a received packet (Table 14-5). -/
inductive BadPkt where
  | malformed
  | tag
  deriving DecidableEq, Repr

/-- The header of a submission entry as fetched (Table 15-4). -/
structure SubEntry where
  opcode : Nat
  flags : Nat
  cid : Nat
  reservedZero : Bool
  deriving DecidableEq, Repr

/-- How a fetch of one submission entry ended. -/
inductive FetchResult where
  | entry (e : SubEntry)
  | timeout
  | error
  deriving DecidableEq, Repr

/-- Items of configuration space that a host reads (Table 15-2, R355). -/
inductive CfgItem where
  | vendorId | deviceId | classCode | totalVfs | initialVfs | numVfs | firstVfOffset | vfStride | bme | cto
  deriving DecidableEq, Repr

/-- Configuration requests. FLR and the clearing of Bus Master Enable and VF Enable are rows of their own. -/
inductive CfgReq where
  | read (item : CfgItem)
  | setBme
  | setVfEnable
  | numVfs (n : Nat)
  | msixEnable (on : Bool)
  | msixMask (vector : Nat) (on : Bool)
  | msiEnable (on : Bool) (log2 : Nat)
  | completionTimeout (us : Nat)
  | bar (i : Nat) (value : Word)
  | hdmDecoder (i base size : Nat) (commit : Bool)
  | d3hot (on : Bool)
  deriving DecidableEq, Repr

/-- How a non-posted request of the device was answered. -/
inductive CplKind where
  | data | ur | ca | poisoned
  deriving DecidableEq, Repr

/-- TDISP requests for one TDI (R382). -/
inductive TdispReq where
  | lock | start | stop
  deriving DecidableEq, Repr

/-- Mailbox commands (Table 15-14); `other` stands for every command outside the table. -/
inductive Mailbox where
  | identify | partitionInfo | getEvents (log : Nat) | clearEvents (log count : Nat)
  | getIntPolicy | setIntPolicy (v : Nat)
  | poisonList (dpa len : Nat) | healthInfo | alertConfig | supportedLogs | effectsLog
  | fwInfo | getTimestamp | setTimestamp (v : Nat) | other (opcode : Nat)
  deriving DecidableEq, Repr

/-- Requests in the DOE mailbox of a function. -/
inductive DoeReq where
  | discovery
  | getMeasurements (nonce : Nat)
  | challenge (nonce : Nat)
  | ideKeyProg (stream : Nat)
  | ideStop (stream : Nat)
  | cdat
  | other (protocol : Nat)
  deriving DecidableEq, Repr

/-- A firmware image as read and authenticated (R397, R411): version, security version, key index, the lower key it
revokes, whether its signature verifies, and whether the write to the slot succeeded. -/
structure FwImage where
  version : Nat
  svn : Nat
  keyIndex : Nat
  revokes : Option Nat
  authentic : Bool
  written : Bool
  deriving DecidableEq, Repr

/-- How a STAGE ended: the image, or a failed read of it. -/
inductive FwData where
  | image (i : FwImage)
  | timeout
  | error
  deriving DecidableEq, Repr

/-- A boot partition (R373). -/
structure BootPart where
  port : Nat
  tmask : Nat
  count : Nat
  deriving DecidableEq, Repr

/-- The configuration record of the boot flash (Table 18-6). -/
structure BootCfg where
  subVendor : Nat
  subId : Nat
  pfApt0 : Nat
  pfApt1 : Nat
  vfApt0 : Nat
  vfApt1 : Nat
  perstBoth : Bool
  deviceIdValid : Bool
  rootEligible : Bool
  smbAddr : Nat
  electrical : Nat
  deviceId : Nat
  parts : List BootPart
  deriving DecidableEq, Repr

/-- Outcome of the start-up self-test (Table 08-7): one bit per failed row (of rows that have one instance, or whose instances
all count as one), expanders removed, tiles (row, physical column) that failed, channels (keys as in `Chan`) and flash channels
whose checker failed, DDR5 channels whose descriptor or copy-B path failed, and whether such a path of a stack did. -/
structure SelfTest where
  failed : Nat
  expandersRemoved : Nat
  stackPath : Bool
  tiles : List (Nat × Nat)
  chans : List Nat
  flash : List Nat
  paths : List Nat
  deriving DecidableEq, Repr

/-- The populations of a DDR5 channel that the device supports (Table 07-5): one MRDIMM-8800, one DDR5-6400 RDIMM, two
DDR5-6400 RDIMMs, two DDR5-6400 MRDIMMs. -/
inductive DimmKind where
  | mrdimm8800 | rdimm6400 | twoRdimm6400 | twoMrdimm6400
  deriving DecidableEq, Repr

/-- The DIMMs of a DDR5 channel, as the SPD hub tells them: whether their SPD is readable, ranks, capacity in frames, and the
serial number of the DIMM that holds each rank. -/
structure Dimm where
  chan : Nat
  kind : DimmKind
  spdOk : Bool
  ranks : Nat
  frames : Nat
  serials : List Nat
  deriving DecidableEq, Repr

/-- A channel that trained (keys as in `Chan`), with its row-refresh time and the longest that a request waits for its DRAM to leave
self-refresh. -/
structure Trained where
  chan : Nat
  trfcNs : Nat
  srBoundNs : Nat
  deriving DecidableEq, Repr

/-- What the device finds when it starts: SSS self-test, boot-flash configuration record (none when absent or torn),
the images that the firmware slots hold, cores that fail, self-test outcome, tiles failed in the fuse map, channels
trained, DIMMs, whether the DRAM supports hard post-package repair, serial numbers of the stacks (stack, serial), part and serial
number of the device. -/
structure Fitted where
  sssOk : Bool
  cfg : Option BootCfg
  fwA : Option FwImage
  fwB : Option FwImage
  coresFailed : List Nat
  selfTest : SelfTest
  fuseTiles : List (Nat × Nat)
  trained : List Trained
  dimms : List Dimm
  hppr : Bool
  serials : List (Nat × Nat)
  part : Nat
  serial : Nat
  deriving DecidableEq, Repr

/-- What starts a cold reset (R424). -/
inductive ColdCause where
  | sssRequest
  | tap
  | trialTakeover
  | ioxWrite (w code : Nat)
  | bothPerst
  deriving DecidableEq, Repr

/-- What starts a port reset (Table 18-2). -/
inductive PortResetKind where
  | perst | hotReset | linkDown
  deriving DecidableEq, Repr

/-- JTAG instructions (R438). -/
inductive JtagInstr where
  | bypass | idcode | samplePreload | extest | clamp | highz | extestPulse | extestTrain
  | tmxAccess (owner : Nat)
  deriving DecidableEq, Repr

/-- The commands of the block, in the order of spec/opcode_table.json. -/
inductive Instr where
  /- Register pages (chapters Register Pages, Architecture) -/
  | registerWrite (w page off : Nat) (wide : Bool) (value : Word)
  | expertUnlock (w page key : Nat)
  | relock (w page : Nat)
  | unitReset (w page : Nat)
  | unitResetDone (page : Nat)
  | unitEnable (w page : Nat) (on : Bool)
  | presetWrite (w page : Nat) (value : Word)
  | expertWrite (w page off : Nat) (wide : Bool) (value : Word)
  | claimWrite (w page value : Nat)
  | snap (w page : Nat)
  | evtPendClear (w page value : Nat)
  | profileWrite (w : Nat) (value : Word)
  | profileApplied
  /- Reservations, contexts, share groups, windows and partitions -/
  | reserve (r : RingCmd) (ctx slabs tmask f1 f2 f3 b1 b2 b3 : Nat)
  | release (r : RingCmd) (ctx dest count f1 f2 f3 b1 b2 b3 : Nat)
  | ctxCreate (w fn key : Nat)
  | ctxDestroy (w ctx : Nat)
  | shareCreate (r : RingCmd) (ctx : Nat)
  | shareAddSlabs (r : RingCmd) (ctx group dest count : Nat)
  | shareAddMember (r : RingCmd) (ctx group member right : Nat)
  | shareRemoveMember (r : RingCmd) (ctx group member : Nat)
  | shareDestroy (r : RingCmd) (ctx group : Nat)
  | shareLeave (r : RingCmd) (ctx group : Nat)
  | mapWindow (r : RingCmd) (ctx rights aptBase firstSlab length : Nat)
  | unmapWindow (r : RingCmd) (ctx window : Nat)
  | windowDrainEnd (window : Nat)
  | ldBaseWrite (w n : Nat) (value : Word)
  | sealSlabs (r : RingCmd) (ctx dest count : Nat)
  /- Accesses and the tray cache -/
  | cxlMemRead (port dpa : Nat)
  | cxlMemWrite (port dpa : Nat) (data : List Byte)
  | barRead (fn off len : Nat) (secure : Bool)
  | barWrite (fn off : Nat) (data : List Byte) (secure : Bool)
  | trayFlush (w : Nat)
  | trayFlushDone
  /- Proof pass and code tables -/
  | compressIn (r : RingCmd) (ctx dest src len fmt mode table scope : Nat) (data : Dma)
  | recode (r : RingCmd) (ctx dest len fmt mode table scope : Nat)
  | passStart
  | passHistogramDone
  | tableBuildDone
  | passComplete
  | retire (w id : Nat)
  | tableRetireAck (fport id epoch : Nat)
  | peerAckTimeout (fport : Nat)
  | bgRecodeWalk
  /- Placement and migration -/
  | decayTick
  | touchMapSwap
  | policyPeriod
  | hint (r : RingCmd) (ctx dest count action target : Nat)
  | hintTmask (r : RingCmd) (ctx dest count tmask : Nat)
  | moveStart (slab : Nat)
  | copyPassDone (slab : Nat)
  | moveFlip (slab : Nat)
  | holdTimeout (slab : Nat)
  | oldFrameRelease (slab : Nat)
  | poolDwellExpiry (slab : Nat)
  | mgeGuaranteeWrite (w : Nat) (value : Word)
  /- The flash tier -/
  | flashMountDone (report : FlashReport)
  | flashProgramDone (slab : Nat)
  | programFailure (slab channel sb : Nat)
  | eraseFailure (group channel block : Nat)
  | gcRelocate (group : Nat)
  | dieRetire (loss : DieLoss)
  | retryStepDone (slab block : Nat) (ok : Bool)
  | rebuildDone (slab block : Nat) (ok : Bool)
  | cxlFlashDeadline (port dpa : Nat)
  /- Stack and board DRAM controllers; channel keys as in `Chan` (512 + s: the whole stack s), controllers 0–23 -/
  | controllerIssue (chan : Nat) (arrivals : List DramReq)
  | agePromote (chan id : Nat)
  | panicRaise (ctrl fill : Nat)
  | panicClear (ctrl fill : Nat)
  | refreshInterval (chan rank : Nat)
  | refreshIssue (chan rank : Nat)
  | rangeReading (ctrl : Nat) (readings : List Nat)
  | srEntry (chan : Nat)
  | srExit (chan : Nat)
  | hashMaskWrite (w page off : Nat) (value : Word)
  | channelLost (chan : Nat)
  /- Integrity, icing and repair -/
  | icingBlock (read : IcingRead)
  | iceDeferExpiry (chan id : Nat)
  | toffeeRewrite (word : Nat) (again sppr remap : Bool)
  | toffeeExpire (word : Nat)
  | iceInject (w : Nat) (value : Word)
  | refsRecountDone
  /- Check-value units -/
  | cvuJobStart (w n : Nat) (value : Word)
  | cvuDataWrite (w n : Nat) (data : Word)
  | cvuJobFinish (w n : Nat) (value : Word)
  | cvuJobDone (n : Nat)
  | check (r : RingCmd) (ctx preset mode flags width addr result length : Nat) (poly init : Word)
  /- Regulator, pace and power; the event comparators -/
  | bwrWindow (traffic : Traffic)
  | paceSample (r : PaceReading)
  | paceShortfall
  | voltageStep
  | powerSample (r : PowerReading)
  | thermalCheck (tj sensor stackMax : Nat)
  | ceilingStep
  | thermalTrip
  | comparatorFire (n : Nat)
  /- The sheet -/
  | gemm
  | bdot
  | swsum
  | topk
  | reduce
  | update
  | encode
  | stepComplete
  | stepDeadline (held : Nat)
  | handshakeTimeout (row col : Nat)
  | stepFault (cause row col : Nat)
  | rowRemap
  | tileStoreZeroDone
  | tileTest (w : Nat) (value : Word)
  /- Recipes; `mode` of ABORT carries reserved values too -/
  | loadRecipe (r : RingCmd) (ctx notify imageAddr imageBytes bindAddr tag : Nat) (data : RecipeData)
  | run (r : RingCmd) (ctx handle fromStep startNs : Nat)
  | abortStop (r : RingCmd) (ctx handle mode : Nat)
  | abortUnload (r : RingCmd) (ctx handle : Nat)
  | arm (fport src group leadId fromStep : Nat)
  | ready (fport src group : Nat)
  | refuse (fport src group status : Nat)
  | groupCancel (fport src group : Nat)
  | go (fport src group t0 : Nat)
  | readyTimeout
  | barrier (fport src group step delta : Nat)
  | abortToken (fport src group step outcome : Nat)
  | peerTimeout (dev : Nat)
  | rcpData (fport src group step delta : Nat) (data : List Byte)
  /- The Amvan fabric -/
  | linkTrain (fport lanes : Nat)
  | hello (fport nonce : Nat)
  | spdm (fport : Nat) (msg : SpdmMsg)
  | ident (fport dev : Nat) (accelerator decode rootEligible : Bool) (slots : Nat)
  | timeSync (fport t1 t2 t3 t4 rootId hops : Nat)
  | timeSyncSend (fport : Nat)
  | holdoverExpiry
  | authBackoffExpiry (fport : Nat)
  | trainingRetry (fport : Nat)
  | keyUpdate (fport : Nat) (receive : Bool)
  | heartbeatTimeout (fport : Nat)
  | laneFault (fport lane : Nat)
  | retrain (w fport : Nat)
  | codewordRx (fport seq : Nat) (good fill : Bool)
  | link (fport : Nat) (msg : LinkMsg)
  | creditStall (fport cls vl : Nat)
  | packetRelay (fport : Nat) (p : Pkt) (data : List Byte)
  | read (fport : Nat) (p : Pkt)
  | write (fport : Nat) (p : Pkt) (data : List Byte)
  | tableSlots (fport slots : Nat)
  | probe (fport : Nat) (p : Pkt)
  | probeReply (fport : Nat) (p : Pkt)
  | probeSend (dev : Nat)
  | grantCreate (w index : Nat)
  | grantDestroy (w index : Nat)
  | ftbIdentityWrite (w : Nat) (value : Word)
  | grantDrainEnd (index : Nat)
  | linkBringupTimeout (fport step : Nat)
  | fabricSignalLoss (fport : Nat)
  | malformedPacket (fport : Nat) (kind : BadPkt)
  /- Host interface -/
  | configRequest (fn : Nat) (req : CfgReq)
  | doorbell (fn ring tail : Nat)
  | commandFetch (fn ring : Nat) (res : FetchResult)
  | cqHeadWrite (fn ring head : Nat)
  | ringEnable (fn ring : Nat) (cfg : Word)
  | ringDisable (fn ring : Nat) (cfg : Word)
  | evtRingEnable (fn : Nat) (cfg : Word)
  | query (r : RingCmd) (ctx kind addr result : Nat)
  | intDelayExpiry (fn ring : Nat)
  | dmaCompletion (port tag : Nat) (kind : CplKind)
  | completionTimeout (port tag : Nat)
  | tagQuarantineEnd (port tag : Nat)
  | bmeClear (fn : Nat)
  | vfEnableClear (port : Nat)
  | flr (fn : Nat)
  | ideFailure (port stream : Nat)
  | tdispRequest (fn : Nat) (req : TdispReq)
  | cxlMailboxCommand (port : Nat) (cmd : Mailbox)
  | spdmDoe (fn : Nat) (req : DoeReq)
  /- Control complex and recovery -/
  | eventRoute
  | unitHang (page : Nat) (recovered : Bool)
  | coreWatchdog (core cause : Nat)
  | coreRestartDone (core reissued : Nat)
  | fatalTrigger (cause : Nat)
  | sssResetReq (w code : Nat)
  | sssForce (w value : Nat)
  | fwStage (w : Nat)
  | fwStageDone (data : FwData)
  | fwSelect (w : Nat)
  | fwCommit (w : Nat)
  | fwTrialTimeout
  /- Lifecycle, security and wipe -/
  | lccSubmit (w : Nat)
  | lccTokenChecked (tokens : Dma)
  | lccCancel (w : Nat)
  | lifecycleWipeDone (bad1 bad2 : List Nat)
  | keyAlloc (w : Nat)
  | keyImport (w slot : Nat) (blob : Dma)
  | keyDestroy (w slot : Nat)
  | keyDestroyDone (slot : Nat)
  | trustStage (w : Nat) (image : Dma)
  | trustCommit (w : Nat)
  | grantNonceRead (w : Nat)
  | debugGrantSubmit (w addr : Nat) (grant : Dma)
  | debugGrantRevoke (w : Nat)
  | debugGrantExpiry
  /- Start-up and reset -/
  | powerOnReset (f : Fitted)
  | pwrOkFall
  | brownOut (sram : Bool)
  | coldReset (cause : ColdCause) (f : Fitted)
  | portReset (port : Nat) (kind : PortResetKind)
  | perstDeassert (port : Nat)
  | functionReady (fn : Nat)
  | memActiveSet (port : Nat)
  | frameZeroed (tier : Tier) (frame : Nat)
  /- Claims, test multiplexer and debug -/
  | claimTake (w : Writer) (owner resource : Nat)
  | claimRelease (w : Writer) (owner resource : Nat)
  | muxSelWrite (w : Writer) (value : Word)
  | traceStart (w : Writer) (value : Word)
  | traceStop (w : Writer) (value : Word)
  | traceDataRead (w : Writer)
  | jtagInstruction (i : JtagInstr)
  | tapReset
  deriving DecidableEq, Repr

end Sys2Proof
end

