-- ==== Sys2Proof/Decode.lean ====
section
/-! DEFINITION. Sys2Proof/Decode.lean: the command that a word spells by the table's bits. No row of spec/opcode_table.json
gives bits (every row's "fields" is empty), so no word spells a command. -/

namespace Sys2Proof

/-- The command that the `nbits` bits of `w` spell: none. -/
def decodeTableWord (_nbits _w : Nat) : Option Instr := none

end Sys2Proof
end

