-- ==== Sys2Proof/Config.lean ====
section
/-! DEFINITION. Sys2Proof/Config.lean: what the spec leaves to the device or to the world: free values (notes/assumptions
names each). None has a body, so nothing can be proved of their values. -/

namespace Sys2Proof.Config

/-- Byte `i` of the media key that draw `n` gave (R159). (DESIGN CHOICE: notes/assumptions/8.md) -/
opaque mediaKeyByte : Nat → Nat → Byte

/-- The value by which an injected wrong check value differs from the right one (R215). (DESIGN CHOICE: notes/assumptions/41.md) -/
opaque wrongCrc : Nat → BitVec 32

/-- CODE of the CORRECTED events of sparing and retirement (Table 08-5). (DESIGN CHOICE: notes/assumptions/10.md) -/
opaque correctedCode : Status

/-- CODE of the CORRECTED event of a link that comes up (step 8 of Table 14-2). (DESIGN CHOICE: notes/assumptions/10.md) -/
opaque linkUpCode : Status

/-- CODE of the CONTAINED event of a failed unit to which Table 01-8 gives that severity and Table 15-20 no event of its own:
a tile, a fabric lane, a data-path buffer; by the page of the unit. (DESIGN CHOICE: notes/assumptions/10.md) -/
opaque containedCode : Nat → Status

/-- CODE of the CONTAINED event of a unit that hangs (level 2 of Table 16-3), by page. (DESIGN CHOICE: notes/assumptions/10.md) -/
opaque hangCode : Nat → Status

/-- CODE of the FATAL record of a takeover, by cause of Table 16-2. (DESIGN CHOICE: notes/assumptions/10.md) -/
opaque fatalCode : Nat → Status

/-- ROW of a word, from its tier address without the base bits of the hash: which of these bits are the row (R164). (PRESUMED: notes/assumptions/37.md) -/
opaque rowOf : Nat → Nat

/-- UNIT of TFL_LAST for a word of an on-die array: the array index, whose numbering the spec does not give. (DESIGN CHOICE: notes/assumptions/89.md) -/
opaque sramUnit : Nat → Nat

/-- ROW of TFL_LAST for a word of an on-die array. (DESIGN CHOICE: notes/assumptions/89.md) -/
opaque sramRow : Nat → Nat

/-- The channel, within its stack, that holds copy B of a T2 home block: the T1 hash of an address of the shadow array,
whose layout the spec does not give (R75). (DESIGN CHOICE: notes/assumptions/87.md) -/
opaque shadowChannel : Nat → Nat

/-- Byte of a part of a T3 page whose contents the spec does not give: padding pages, and spare areas of pages that hold no block;
by frame, page and byte (R137). (DESIGN CHOICE: notes/assumptions/90.md) -/
opaque padding : Nat → Nat → Nat → Byte

/-- The voltage in mV at which pace reaches a floor target at a junction temperature (R257). (DESIGN CHOICE: notes/assumptions/43.md) -/
opaque floorVoltage : Nat → Nat → Nat

/-- A choice of the device among candidates that the spec does not rank: IDs, indices (R36). (DESIGN CHOICE: notes/assumptions/9.md) -/
opaque choice : Nat → Nat

/-- A 64-bit random number of the device (HELLO and debug-grant nonces). (DESIGN CHOICE: notes/assumptions/8.md) -/
opaque random : Nat → Nat

/-- Whether a signature verifies over some bytes under the public key with the given SHA-384 hash or value. (DESIGN CHOICE: notes/assumptions/8.md) -/
opaque verifies : List Byte → List Byte → List Byte → Bool

/-- Whether a signature verifies over some bytes under the Fenavaud lifecycle key. (DESIGN CHOICE: notes/assumptions/8.md) -/
opaque verifiesFenavaud : List Byte → List Byte → Bool

/-- Whether the signature of a recipe image verifies under a recipe-signing key (R299). (DESIGN CHOICE: notes/assumptions/8.md) -/
opaque recipeVerifies : List Byte → Image → Bool

/-- The tenant key that a blob wraps for one import key, device serial number and slot (R410); none for a bad blob. (DESIGN CHOICE: notes/assumptions/8.md) -/
opaque unwrap : Nat → Nat → Nat → List Byte → Option (List Byte)

/-- Byte `i` of a SHA-384 measurement digest or public key numbered as Table 17-5 numbers it. (DESIGN CHOICE: notes/assumptions/8.md) -/
opaque measurementByte : Nat → Nat → Byte

/-- The SHA-384 hash of bytes, as bytes. (DESIGN CHOICE: notes/assumptions/8.md) -/
opaque sha384 : List Byte → List Byte

/-- Fields of DEVICE, health and log records whose values the spec does not give. (DESIGN CHOICE: notes/assumptions/11.md) -/
opaque unstated : Nat → Nat

/-- Bits of a result of the sheet for which the spec states none, numbered by a draw. (DESIGN CHOICE: notes/assumptions/48.md) -/
opaque unstatedResult : Nat → Nat

/-- Byte of an output block past its last element (R272 states it for exact partials only). (DESIGN CHOICE: notes/assumptions/51.md) -/
opaque padByte : Nat → Byte

/-- Whether the addend of a GEMM enters an ELASTIC running sum first or last (R275 orders the products only). (DEDUCED: notes/assumptions/50.md) -/
opaque addendFirst : Bool

/-- Logical row that keys, values or vectors with an index stream through, among a count (R275 orders rows only). (DEDUCED: notes/assumptions/50.md) -/
opaque elasticRow : Nat → Nat → Nat

/-- Fenavaud's PCI-SIG vendor ID. (DESIGN CHOICE: notes/assumptions/12.md) -/
opaque vendorId : Nat

/-- IOX_RESET_CAUSE.CAUSE after a cold reset through the test access port (R424, R441). (DESIGN CHOICE: notes/assumptions/71.md) -/
opaque tapCause : Nat

end Sys2Proof.Config
end

