-- ==== Sys2Proof/Machine/Bits.lean ====
section
/-! DEFINITION. Sys2Proof/Machine/Bits.lean: bit fields of register words, byte orders, rounding divisions. -/

namespace Sys2Proof.Machine

/-- Bits `hi` down to `lo` of a register word, as a number. -/
def bits (w : Word) (hi lo : Nat) : Nat := (w.toNat >>> lo) % 2 ^ (hi + 1 - lo)

/-- Bit `i` of a register word. -/
def bitOf (w : Word) (i : Nat) : Bool := w.toNat.testBit i

/-- `w` with bits `hi` down to `lo` replaced by `v`. -/
def setBits (w : Word) (hi lo v : Nat) : Word :=
  let m := (2 ^ (hi + 1 - lo) - 1) <<< lo
  BitVec.ofNat 64 ((w.toNat - (w.toNat &&& m)) + ((v <<< lo) &&& m))

/-- A field placed at `lo` in a word being put together from disjoint fields. -/
def place (v lo width : Nat) : Nat := (v % 2 ^ width) <<< lo

def boolNat (b : Bool) : Nat := if b then 1 else 0

/-- The quotient rounded up; 0 for a zero divisor. -/
def ceilDiv (a b : Nat) : Nat := if b = 0 then 0 else (a + b - 1) / b

/-- The `n` low bytes of a number, least significant first. -/
def leBytes : Nat → Nat → List Byte
  | 0, _ => []
  | n + 1, v => BitVec.ofNat 8 v :: leBytes n (v / 256)

/-- The number that a list of bytes spells, least significant byte first. -/
def leNat : List Byte → Nat
  | [] => 0
  | b :: bs => b.toNat + 256 * leNat bs

/-- Number of one bits among the low `n` bits. -/
def popcount : Nat → Nat → Nat
  | 0, _ => 0
  | n + 1, v => v % 2 + popcount n (v / 2)

/-- `2 ^ k` if `n` is that power for some `k ≤ 64`, the exponent `k`. -/
def bitLen (n : Nat) : Nat := if n = 0 then 0 else Nat.log2 n + 1

def satAdd (bound a b : Nat) : Nat := min bound (a + b)

/-- Items `0 … n-1` for which `p` holds. -/
def countBelow (n : Nat) (p : Nat → Bool) : Nat := (List.range n).countP p

def listSum (l : List Nat) : Nat := l.foldl (· + ·) 0

def listMax (l : List Nat) : Nat := l.foldl max 0

/-- Entry `i` of a list, replaced by `f` of it. -/
def modifyAt {α : Type} (l : List α) (i : Nat) (f : α → α) : List α := l.modify i f

end Sys2Proof.Machine
end

