-- ==== Sys2Proof/Machine/Codec.lean ====
section
/-! DEFINITION. Sys2Proof/Machine/Codec.lean: element formats, canonical code tables, the coded-block layout, the checks
C1 to C6, and the cyclic check values (chapter Block Format and Exponent Coding). -/

namespace Sys2Proof.Machine

/-- One step of a reflected CRC over the low bit of `c`. -/
def crcStepR (poly c : Nat) : Nat := if c % 2 = 1 then (c / 2) ^^^ poly else c / 2

/-- Eight steps of a reflected CRC. -/
def crcByteR (poly c : Nat) (b : Byte) : Nat :=
  (List.range 8).foldl (fun a _ => crcStepR poly a) (c ^^^ b.toNat)

/-- CRC-32C (Castagnoli, reflected, initial and final value 0xFFFFFFFF; Table 03-3). -/
def crc32c (data : List Byte) : BitVec 32 :=
  BitVec.ofNat 32 (0xFFFFFFFF ^^^ data.foldl (crcByteR 0x82F63B78) 0xFFFFFFFF)

/-- One step of a CRC of `width` bits, most significant bit first. -/
def crcStepM (width poly c bit : Nat) : Nat :=
  let top := (c >>> (width - 1)) % 2
  let sh := (c <<< 1) % 2 ^ width
  if (top + bit) % 2 = 1 then sh ^^^ poly else sh

/-- A byte fed most significant bit first. -/
def crcByteM (width poly c : Nat) (b : Byte) : Nat :=
  (List.range 8).foldl (fun a i => crcStepM width poly a ((b.toNat >>> (7 - i)) % 2)) c

/-- TABLE_CHECK: CRC-16, polynomial 0x1021, initial value 0xFFFF (R64). -/
def crc16 (data : List Byte) : Nat := data.foldl (crcByteM 16 0x1021) 0xFFFF

/-- Symbol width of a format (Table 03-1); 0 for the opaque and reserved codes. -/
def symWidth : Nat → Nat
  | 1 => 8 | 2 => 8 | 3 => 5 | 4 => 4 | 5 => 5 | 6 => 8 | 7 => 8 | 8 => 8 | _ => 0

/-- Symbols per sub-stream (Table 03-1). -/
def symCount : Nat → Nat
  | 1 => 128 | 2 => 256 | 3 => 256 | 4 => 512 | 5 => 512 | 6 => 15 | 7 => 20 | 8 => 30 | _ => 0

/-- Rest-plane bytes per sub-stream (Table 03-1). -/
def restBytes : Nat → Nat
  | 1 => 384 | 2 => 256 | 3 => 352 | 4 => 256 | 5 => 192 | 6 => 497 | 7 => 492 | 8 => 482 | _ => 0

/-- Rest bits of one element: the sign bit and the mantissa bits. -/
def restBits : Nat → Nat
  | 1 => 24 | 2 => 8 | 3 => 11 | 4 => 4 | 5 => 3 | _ => 0

/-- Bytes of one element of a format that codes element exponents. -/
def elemBytes : Nat → Nat
  | 1 => 4 | 2 => 2 | 3 => 2 | 4 => 1 | 5 => 1 | _ => 0

def isMx (f : Nat) : Bool := decide (6 ≤ f) && decide (f ≤ 8)

/-- Cut a list into `n` pieces of `k`. -/
def chunks {α : Type} : Nat → Nat → List α → List (List α)
  | 0, _, _ => []
  | n + 1, k, l => l.take k :: chunks n k (l.drop k)

/-- The bits of a number, most significant first. -/
def msbBits : Nat → Nat → List Bool
  | 0, _ => []
  | n + 1, v => ((v >>> n) % 2 == 1) :: msbBits n v

def bitsNat (l : List Bool) : Nat := l.foldl (fun a b => 2 * a + (if b then 1 else 0)) 0

/-- Bits packed into bytes, most significant first; the last byte is filled with zeros (R62). -/
def packBits : Nat → List Bool → List Byte
  | 0, _ => []
  | n + 1, l =>
    if l.isEmpty then []
    else BitVec.ofNat 8 (bitsNat (l.take 8 ++ List.replicate (8 - (l.take 8).length) false)) :: packBits n (l.drop 8)

def unpackBits (l : List Byte) : List Bool := l.flatMap (fun b => msbBits 8 b.toNat)

/-- Exponent and rest of one element whose stored value is `v` (R60). -/
def splitElem (f v : Nat) : Nat × Nat :=
  let w := symWidth f
  let m := restBits f - 1
  ((v >>> m) % 2 ^ w, (v >>> (m + w)) * 2 ^ m + v % 2 ^ m)

/-- The element with exponent `e` and rest `r`. -/
def joinElem (f e r : Nat) : Nat :=
  let w := symWidth f
  let m := restBits f - 1
  (r >>> m) <<< (m + w) ||| (e <<< m) ||| r % 2 ^ m

/-- The symbols and the rest plane of one 512-byte sub-stream of raw data. -/
def splitSub (f : Nat) (raw : List Byte) : List Nat × List Byte :=
  if isMx f then ((raw.take (symCount f)).map (·.toNat), raw.drop (symCount f))
  else
    let es := (chunks (symCount f) (elemBytes f) raw).map (fun b => splitElem f (leNat b))
    (es.map (·.1), packBits (restBytes f) (es.flatMap (fun p => msbBits (restBits f) p.2)))

/-- Raw bytes of one sub-stream from its symbols and rest plane. -/
def joinSub (f : Nat) (syms : List Nat) (rest : List Byte) : List Byte :=
  if isMx f then syms.map (BitVec.ofNat 8) ++ rest
  else
    let rs := (chunks (symCount f) (restBits f) (unpackBits rest)).map bitsNat
    (List.zipWith (fun e r => leBytes (elemBytes f) (joinElem f e r)) syms rs).flatten

/-- Code length of symbol `s` in a code table; symbol 256 is the escape (R64). -/
def tableLen (t : List Byte) (s : Nat) : Nat :=
  if s = 256 then (t.getD 128 0).toNat % 16
  else if s % 2 = 0 then (t.getD (s / 2) 0).toNat % 16 else (t.getD (s / 2) 0).toNat / 16

def tableFormat (t : List Byte) : Nat := (t.getD 128 0).toNat / 16

/-- TABLE_CHECK of the stored copy matches (R64). -/
def tableCheckOk (t : List Byte) : Bool :=
  decide (t.length = 132) && decide (crc16 (t.take 130) = leNat (t.drop 130))

/-- The sum of 2^(12−L) over the nonzero lengths. -/
def kraft (lens : List Nat) : Nat := listSum (lens.map (fun l => if l = 0 then 0 else 2 ^ (12 - l)))

/-- The code lengths of symbols 0 to 256. -/
def tableLens (t : List Byte) : List Nat := (List.range 257).map (tableLen t)

/-- A valid code table (R65). -/
def tableValid (t : List Byte) : Bool :=
  let f := tableFormat t
  let lens := tableLens t
  let w := 2 ^ symWidth f
  decide (1 ≤ f) && decide (f ≤ 8) && lens.all (fun l => decide (l ≤ 12)) &&
    ((List.range 256).all (fun s => decide (s < w) || decide (tableLen t s = 0))) &&
    (((List.range w).all (fun s => decide (tableLen t s ≠ 0))) || decide (tableLen t 256 ≠ 0)) &&
    decide (kraft lens = 2 ^ 12) && decide (t.getD 129 0 = 0) && tableCheckOk t

/-- The first code of each length 1 to 12, by R66. -/
def firstCodes (lens : List Nat) : List Nat :=
  ((List.range 12).foldl
    (fun (acc : List Nat × Nat × Nat) i =>
      let c := 2 * (acc.2.1 + acc.2.2)
      (acc.1 ++ [c], c, lens.countP (fun l => decide (l = i + 1)))) ([0], 0, 0)).1

/-- The canonical code of symbol `s`, if it has one (R66). -/
def codeOf (lens : List Nat) (s : Nat) : Option (Nat × Nat) :=
  let l := lens.getD s 0
  if l = 0 then none
  else some (l, (firstCodes lens).getD l 0 + (lens.take s).countP (fun x => decide (x = l)))

/-- The list of (length, code, symbol) of a table. -/
def codeList (t : List Byte) : List (Nat × Nat × Nat) :=
  let lens := tableLens t
  (List.range 257).filterMap (fun s => (codeOf lens s).map (fun p => (p.1, p.2, s)))

/-- The bits that send symbol `s`: its code, or the escape followed by the raw symbol (R67). -/
def sendSym (codes : List (Nat × Nat × Nat)) (f s : Nat) : Option (List Bool) :=
  match codes.find? (fun c => decide (c.2.2 = s)) with
  | some c => some (msbBits c.1 c.2.1)
  | none =>
    match codes.find? (fun c => decide (c.2.2 = 256)) with
    | some c => some (msbBits c.1 c.2.1 ++ msbBits (symWidth f) s)
    | none => none

/-- The bits of a run of symbols; none when a symbol can be sent neither way. -/
def sendSyms (codes : List (Nat × Nat × Nat)) (f : Nat) : List Nat → Option (List Bool)
  | [] => some []
  | s :: ss =>
    match sendSym codes f s, sendSyms codes f ss with
    | some a, some b => some (a ++ b)
    | _, _ => none

/-- One coded sub-stream: exponent plane, then rest plane. -/
def encodeSub (codes : List (Nat × Nat × Nat)) (f : Nat) (raw : List Byte) : Option (List Byte) :=
  let p := splitSub f raw
  (sendSyms codes f p.1).map (fun b => packBits (b.length / 8 + 1) b ++ p.2)

def encodeSubs (codes : List (Nat × Nat × Nat)) (f : Nat) : List (List Byte) → Option (List (List Byte))
  | [] => some []
  | r :: rs =>
    match encodeSub codes f r, encodeSubs codes f rs with
    | some a, some b => some (a :: b)
    | _, _ => none

/-- Running end offsets of the sub-streams, from byte 16 (R61). -/
def endsOf : Nat → List Nat → List Nat
  | _, [] => []
  | p, l :: ls => (p + l) :: endsOf (p + l) ls

/-- The header of a coded block (Table 03-2): FLAGS bit 0 RECODED, bit 1 SCOPE_TABLE. -/
def headerNat (f id flags : Nat) (ends : List Nat) : Nat :=
  place f 124 4 + place id 112 12 + place flags 104 8 +
    listSum ((List.range 8).map (fun k => place (ends.getD k 0) (84 - 12 * k) 12))

/-- The coded form of 4,096 bytes under a table (R62, R67), if every sub-stream can be sent and TOTAL is at most
4,032 (R68): the crumbs, padded with zeros, and their count. -/
def encodeBlock (t : List Byte) (id flags : Nat) (raw : List Byte) : Option (List Byte × Nat) :=
  let f := tableFormat t
  match encodeSubs (codeList t) f (chunks 8 512 raw) with
  | none => none
  | some subs =>
    let ends := endsOf 16 (subs.map List.length)
    let total := ends.getD 7 0
    if total ≤ 4032 then
      let n := ceilDiv total 64
      some (leBytes 16 (headerNat f id flags ends) ++ subs.flatten ++ List.replicate (64 * n - total) 0, n)
    else none

/-- Why a block failed to decode: the failing check 1 to 5 and the sub-stream. -/
structure DecErr where
  check : Nat
  sub : Nat
  deriving DecidableEq, Repr

/-- The code at the head of a bit list, with the bits left; none when no code matches. -/
def matchCode (codes : List (Nat × Nat × Nat)) (l : List Bool) : Option (Nat × List Bool) :=
  match codes.find? (fun c => decide (c.1 ≤ l.length) && decide (l.take c.1 = msbBits c.1 c.2.1)) with
  | some c => some (c.2.2, l.drop c.1)
  | none => none

/-- Read `n` symbols from an exponent plane (R78): too few bits fail C5; an escape of a coded symbol, or a symbol
beyond the format's width, fails C4; the bits left over must be fewer than 8 (C5) and zero (C3). -/
def readSyms (codes : List (Nat × Nat × Nat)) (lens : List Nat) (f k : Nat) :
    Nat → List Bool → Except DecErr (List Nat)
  | 0, l =>
    if 8 ≤ l.length then .error ⟨5, k⟩ else if l.any id then .error ⟨3, k⟩ else .ok []
  | n + 1, l =>
    match matchCode codes l with
    | none => .error ⟨5, k⟩
    | some (s, l') =>
      if s = 256 then
        if l'.length < symWidth f then .error ⟨5, k⟩
        else
          let v := bitsNat (l'.take (symWidth f))
          if lens.getD v 0 ≠ 0 then .error ⟨4, k⟩
          else (readSyms codes lens f k n (l'.drop (symWidth f))).map (v :: ·)
      else if 2 ^ symWidth f ≤ s then .error ⟨4, k⟩
      else (readSyms codes lens f k n l').map (s :: ·)

/-- Decode the sub-streams whose end offsets are given, from offset `start`. -/
def decodeSubs (codes : List (Nat × Nat × Nat)) (lens : List Nat) (f : Nat) (home : List Byte) :
    Nat → Nat → List Nat → Except DecErr (List Byte)
  | _, _, [] => .ok []
  | k, start, stop :: stops =>
    if stop < restBytes f + start then .error ⟨2, 0⟩
    else
      let e := stop - restBytes f
      match readSyms codes lens f k (symCount f) (unpackBits ((home.drop start).take (e - start))) with
      | .error x => .error x
      | .ok syms =>
        match decodeSubs codes lens f home (k + 1) stop stops with
        | .error x => .error x
        | .ok rest => .ok (joinSub f syms ((home.drop e).take (restBytes f)) ++ rest)

/-- Ends in order and within TOTAL (R62). -/
def endsOk : Nat → Nat → List Nat → Bool
  | _, _, [] => true
  | prev, total, e :: es => decide (prev ≤ e) && decide (e ≤ total) && endsOk e total es

/-- Decode a coded home of `crumbs` crumbs whose descriptor names table `id` and format `f`, with the checks C1 to C5
of R78 in their order; `t` is the copy of the table that the expander holds. (DEDUCED: notes/assumptions/28.md) -/
def decodeCoded (t : List Byte) (id f crumbs : Nat) (home : List Byte) : Except DecErr (List Byte) :=
  let h := leNat (home.take 16)
  let total := h % 2 ^ 12
  let ends := (List.range 7).map (fun k => (h >>> (84 - 12 * k)) % 2 ^ 12)
  if (h >>> 112) % 2 ^ 12 ≠ id ∨ h >>> 124 ≠ f then .error ⟨1, 0⟩
  else if (h >>> 106) % 2 ^ 6 ≠ 0 ∨ (h >>> 96) % 2 ^ 8 ≠ 0 then .error ⟨2, 0⟩
  else if 4032 < total ∨ ceilDiv total 64 ≠ crumbs then .error ⟨2, 0⟩
  else if !endsOk 0 total ends then .error ⟨2, 0⟩
  else if !tableCheckOk t then .error ⟨4, 0⟩
  else
    match decodeSubs (codeList t) (tableLens t) f home 0 16 (ends ++ [total]) with
    | .error e => .error e
    | .ok out => if ((home.take (64 * crumbs)).drop total).any (fun b => decide (b ≠ 0)) then .error ⟨3, 7⟩ else .ok out

/-- The exponent symbols of a block in one format, for the histogram of a proof pass (R89). -/
def blockSymbols (f : Nat) (raw : List Byte) : List Nat := (chunks 8 512 raw).flatMap (fun r => (splitSub f r).1)

end Sys2Proof.Machine
end

