-- ==== Sys2Proof/Machine/RegMap.lean ====
section
/-! DEFINITION. Sys2Proof/Machine/RegMap.lean: the register pages (Table 20-1) and the fields that software writes, with
their access kinds, reset values and the range of values that the field accepts. Fields of writes that start an action
(write-only and write-one-to-set fields) are not listed: the commands of those actions carry them. -/

namespace Sys2Proof.Machine

/-- Access kinds of the listed fields (Table 00-4): RW, RWX (expert) and RWS. -/
inductive Acc where
  | rw | rwx | rws
  deriving DecidableEq, Repr

/-- A writable field: its bits, access, reset value, and the least and greatest value it accepts (R6). -/
structure Fld where
  hi : Nat
  lo : Nat
  acc : Acc
  reset : Nat
  min : Nat
  max : Nat
  deriving DecidableEq, Repr

/-- A register of a page type: `count` copies `stride` bytes apart from `off`; `wide` when it has 64 bits. -/
structure RegDef where
  off : Nat
  wide : Bool
  stride : Nat
  count : Nat
  flds : List Fld
  deriving DecidableEq, Repr

/-- The page types, with the second kind of page of a type that has two register sets. -/
inductive PageType where
  | dev | hiu | fpt | ftb | ftbs | ple | mge | cdc | ppu | smc | sch | dmc | fmg | flc | ice | tfl | cvu | rlg | rlg1
  | bwr | sht | row | rcp | ccx | ccx1 | sss | ppm | lcc | lcc1 | sec | tmx | iox | bare (code : Nat)
  deriving DecidableEq, Repr

/-- The TYPE code of PAGE_ID (Table 20-1). -/
def PageType.code : PageType → Nat
  | .dev => 0x01 | .hiu => 0x02 | .fpt => 0x03 | .ftb => 0x04 | .ftbs => 0x04 | .ple => 0x05 | .mge => 0x06
  | .cdc => 0x07 | .ppu => 0x08 | .smc => 0x09 | .sch => 0x0A | .dmc => 0x0B | .fmg => 0x0C | .flc => 0x0D
  | .ice => 0x0E | .tfl => 0x0F | .cvu => 0x10 | .rlg => 0x11 | .rlg1 => 0x11 | .bwr => 0x12 | .sht => 0x13
  | .row => 0x14 | .rcp => 0x15 | .ccx => 0x16 | .ccx1 => 0x16 | .sss => 0x17 | .ppm => 0x18 | .lcc => 0x19
  | .lcc1 => 0x19 | .sec => 0x1A | .tmx => 0x1B | .iox => 0x1C | .bare c => c

/-- Page type and number within the type of a page index (R443, Table 20-1). `bare` pages carry the header alone. -/
def pageOf (p : Nat) : Option (PageType × Nat) :=
  if p = 0x000 then some (.dev, 0)
  else if p = 0x001 then some (.lcc, 0)
  else if p = 0x002 then some (.lcc1, 1)
  else if p = 0x003 then some (.sec, 0)
  else if p = 0x004 then some (.ccx, 0)
  else if p = 0x005 then some (.ccx1, 1)
  else if p = 0x006 ∨ p = 0x007 then some (.bare 0x16, p - 4)
  else if p = 0x008 then some (.sss, 0)
  else if p = 0x009 then some (.ppm, 0)
  else if p = 0x00A then some (.tmx, 0)
  else if p = 0x00B then some (.iox, 0)
  else if 0x010 ≤ p ∧ p ≤ 0x011 then some (.hiu, p - 0x010)
  else if 0x018 ≤ p ∧ p ≤ 0x01F then some (.fpt, p - 0x018)
  else if p = 0x020 then some (.ftb, 0)
  else if 0x021 ≤ p ∧ p ≤ 0x028 then some (.ftbs, p - 0x020)
  else if p = 0x030 then some (.ple, 0)
  else if 0x031 ≤ p ∧ p ≤ 0x033 then some (.bare 0x05, p - 0x030)
  else if p = 0x034 then some (.mge, 0)
  else if p = 0x035 then some (.rlg, 0)
  else if p = 0x036 then some (.rlg1, 1)
  else if p = 0x037 then some (.bwr, 0)
  else if p = 0x038 then some (.cdc, 0)
  else if p = 0x039 then some (.bare 0x07, 1)
  else if p = 0x03A then some (.ppu, 0)
  else if p = 0x03B then some (.ice, 0)
  else if p = 0x03C then some (.tfl, 0)
  else if p = 0x03D then some (.fmg, 0)
  else if 0x040 ≤ p ∧ p ≤ 0x043 then some (.cvu, p - 0x040)
  else if p = 0x048 then some (.sht, 0)
  else if p = 0x049 then some (.rcp, 0)
  else if 0x080 ≤ p ∧ p ≤ 0x087 then some (.smc, p - 0x080)
  else if 0x090 ≤ p ∧ p ≤ 0x09F then some (.dmc, p - 0x090)
  else if 0x0A0 ≤ p ∧ p ≤ 0x0BF then some (.flc, p - 0x0A0)
  else if 0x100 ≤ p ∧ p ≤ 0x1FF then some (.sch, p - 0x100)
  else if 0x200 ≤ p ∧ p ≤ 0x263 then some (.row, p - 0x200)
  else none

/-! Page indices of the units -/
namespace Pg
def dev := 0x000
def lcc := 0x001
def sec := 0x003
def ccx := 0x004
def ccx1 := 0x005
def sss := 0x008
def ppm := 0x009
def tmx := 0x00A
def iox := 0x00B
def hiu := 0x010
def fpt := 0x018
def ftb := 0x020
def ple := 0x030
def mge := 0x034
def rlg := 0x035
def bwr := 0x037
def cdc := 0x038
def ppu := 0x03A
def ice := 0x03B
def tfl := 0x03C
def fmg := 0x03D
def cvu := 0x040
def sht := 0x048
def rcp := 0x049
def smc := 0x080
def dmc := 0x090
def flc := 0x0A0
def sch := 0x100
def row := 0x200
end Pg

/-- The page that holds the claim of a page's group (R446). -/
def claimPage (p : Nat) : Nat :=
  if 0x030 ≤ p ∧ p ≤ 0x033 then 0x030
  else if p = 0x039 then 0x038
  else if p = 0x036 then 0x035
  else if p = 0x002 then 0x001
  else if 0x004 ≤ p ∧ p ≤ 0x007 then 0x004
  else p

/-- Registers of the DEV page (offset order). -/
def devRegs : List RegDef :=
  [ /- DEV_IDENTITY -/ ⟨0x40, true, 0, 1, []⟩,
    /- DEV_SERIAL -/ ⟨0x48, true, 0, 1, []⟩,
    /- DEV_INVENTORY -/ ⟨0x50, false, 0, 1, []⟩,
    /- DEV_EVT_SUMMARY -/ ⟨0x58, false, 0, 1, []⟩,
    /- DEV_OPERATING_PROFILE -/ ⟨0x80, false, 0, 1, []⟩,
    /- DEV_PROFILE_STATUS -/ ⟨0x84, false, 0, 1, []⟩ ]

/-- Registers of the HIU page (offset order). -/
def hiuRegs : List RegDef :=
  [ /- HIU_LINK -/ ⟨0x40, false, 0, 1, []⟩,
    /- HIU_VF_SEL: VF -/ ⟨0x48, false, 0, 1, [⟨10, 0, .rw, 0, 1, 2047⟩]⟩,
    /- HIU_VF_STATE -/ ⟨0x50, true, 0, 1, []⟩,
    /- HIU_EVT_BASE -/ ⟨0x60, true, 0, 1, []⟩,
    /- HIU_EVT_CFG -/ ⟨0x68, false, 0, 1, []⟩,
    /- HIU_EVT_HEAD -/ ⟨0x70, false, 0, 1, []⟩,
    /- HIU_TAGS -/ ⟨0x78, false, 0, 1, []⟩,
    /- HIU_SQ_BASEn -/ ⟨0x200, true, 32, 16, []⟩,
    /- HIU_CQ_BASEn -/ ⟨0x208, true, 32, 16, []⟩,
    /- HIU_RING_CFGn -/ ⟨0x210, false, 32, 16, []⟩,
    /- HIU_SQ_TAILn -/ ⟨0x214, false, 32, 16, []⟩,
    /- HIU_CQ_HEADn -/ ⟨0x218, false, 32, 16, []⟩,
    /- HIU_RING_STATUSn -/ ⟨0x21C, false, 32, 16, []⟩ ]

/-- Registers of the FPT page (offset order). -/
def fptRegs : List RegDef :=
  [ /- FPT_CTRL: EXPECT_VALID EXPECT_DEV PEER_ROOTS DATELINE ENABLE -/ ⟨0x40, true, 0, 1, [⟨63, 63, .rw, 0, 0, 1⟩, ⟨62, 46, .rw, 0, 0, 131071⟩, ⟨11, 8, .rw, 0, 0, 15⟩, ⟨2, 2, .rw, 0, 0, 1⟩, ⟨0, 0, .rw, 1, 0, 1⟩]⟩,
    /- FPT_STATUS -/ ⟨0x48, false, 0, 1, []⟩,
    /- FPT_PARTNER -/ ⟨0x50, true, 0, 1, []⟩,
    /- FPT_LIMITS: CREDIT_STALL_US ERR_PER_MS AUTH_BACKOFF_MAX_S BAD_PKT_LIMIT -/ ⟨0x400, true, 0, 1, [⟨63, 48, .rwx, 1000, 100, 10000⟩, ⟨47, 32, .rwx, 1000, 10, 10000⟩, ⟨31, 24, .rwx, 64, 1, 255⟩, ⟨23, 16, .rwx, 16, 1, 255⟩]⟩ ]

/-- Registers of the FTB page (offset order). -/
def ftbRegs : List RegDef :=
  [ /- FTB_IDENTITY: VALID DEVICE_ID -/ ⟨0x40, false, 0, 1, [⟨31, 31, .rw, 0, 0, 1⟩, ⟨16, 0, .rw, 0, 0, 131071⟩]⟩,
    /- FTB_TIME -/ ⟨0x48, true, 0, 1, []⟩,
    /- FTB_SYNC -/ ⟨0x50, true, 0, 1, []⟩,
    /- FTB_CTRL: ROOT_ELIGIBLE -/ ⟨0x58, false, 0, 1, [⟨0, 0, .rw, 0, 0, 1⟩]⟩,
    /- FTB_CMP_STATUS -/ ⟨0x60, false, 0, 1, []⟩,
    /- FTB_ROUTE_SEL: KIND INDEX -/ ⟨0x68, false, 0, 1, [⟨16, 16, .rw, 0, 0, 1⟩, ⟨10, 0, .rw, 0, 0, 2047⟩]⟩,
    /- FTB_ROUTE -/ ⟨0x70, false, 0, 1, []⟩,
    /- FTB_GRANT_SEL: INDEX -/ ⟨0x78, false, 0, 1, [⟨13, 0, .rw, 0, 0, 16383⟩]⟩,
    /- FTB_GRANT_A: RD WR REMOTE_DEV REMOTE_CTX LOCAL_CTX -/ ⟨0x80, true, 0, 1, [⟨62, 62, .rw, 0, 0, 1⟩, ⟨61, 61, .rw, 0, 0, 1⟩, ⟨56, 40, .rw, 0, 0, 131071⟩, ⟨39, 20, .rw, 0, 0, 1048575⟩, ⟨19, 0, .rw, 0, 0, 1048575⟩]⟩,
    /- FTB_GRANT_B: LENGTH_M1 FIRST_SLAB -/ ⟨0x88, true, 0, 1, [⟨47, 24, .rw, 0, 0, 16777215⟩, ⟨23, 0, .rw, 0, 0, 16777215⟩]⟩,
    /- FTB_GRANT_BW: BW_T3 BW_T2 BW_T1 -/ ⟨0x90, true, 0, 1, [⟨59, 40, .rw, 0, 0, 1048575⟩, ⟨39, 20, .rw, 0, 0, 1048575⟩, ⟨19, 0, .rw, 0, 0, 1048575⟩]⟩,
    /- FTB_PARAMS: HOLDOVER_MS SYNC_US -/ ⟨0x400, false, 0, 1, [⟨31, 16, .rwx, 10, 1, 1000⟩, ⟨15, 0, .rwx, 64, 16, 1024⟩]⟩ ]

/-- Registers of the FTBS page (offset order). -/
def ftbsRegs : List RegDef :=
  [ /- FTBS_SEL: SLOT -/ ⟨0x40, false, 0, 1, [⟨11, 0, .rw, 0, 0, 4095⟩]⟩,
    /- FTBS_SLOT -/ ⟨0x48, false, 0, 1, []⟩,
    /- FTBS_SUMMARY -/ ⟨0x50, false, 0, 1, []⟩ ]

/-- Registers of the PLE page (offset order). -/
def pleRegs : List RegDef :=
  [ /- PLE_RANGE -/ ⟨0x40, false, 0, 1, []⟩,
    /- PLE_CTX_CMD -/ ⟨0x48, true, 0, 1, []⟩,
    /- PLE_CTX_RESULT -/ ⟨0x50, true, 0, 1, []⟩,
    /- PLE_LD_BASEn -/ ⟨0x80, true, 16, 16, []⟩,
    /- PLE_LD_SIZEn -/ ⟨0x88, true, 16, 16, []⟩,
    /- PLE_DENY_INFO -/ ⟨0x180, true, 0, 1, []⟩ ]

/-- Registers of the MGE page (offset order). -/
def mgeRegs : List RegDef :=
  [ /- MGE_PRESET: PRESET -/ ⟨0x40, false, 0, 1, [⟨1, 0, .rw, 0, 0, 2⟩]⟩,
    /- MGE_STATUS -/ ⟨0x48, true, 0, 1, []⟩,
    /- MGE_STALL_LAST -/ ⟨0x50, true, 0, 1, []⟩,
    /- MGE_SWAP_POOL -/ ⟨0x58, false, 0, 1, []⟩,
    /- MGE_HEAT_CTRL: WINDOW_MS TICK_MS SAMPLE_LOG2 -/ ⟨0x400, false, 0, 1, [⟨26, 16, .rwx, 200, 20, 2000⟩, ⟨15, 6, .rwx, 100, 10, 1000⟩, ⟨4, 0, .rwx, 14, 0, 16⟩]⟩,
    /- MGE_POLICY: T2_LOW MIN_DWELL_MS PERIOD_MS HYSTERESIS -/ ⟨0x408, true, 0, 1, [⟨63, 48, .rwx, 64, 0, 65535⟩, ⟨47, 32, .rwx, 1000, 0, 65535⟩, ⟨31, 16, .rwx, 10, 1, 1000⟩, ⟨7, 0, .rwx, 16, 1, 255⟩]⟩,
    /- MGE_MOVE_PARAMS: MAX_ACTIVE HOLD_MAX_US FINAL_DIRTY MAX_PASSES -/ ⟨0x410, false, 0, 1, [⟨31, 26, .rwx, 32, 1, 32⟩, ⟨23, 16, .rwx, 50, 10, 200⟩, ⟨15, 4, .rwx, 64, 1, 4095⟩, ⟨2, 0, .rwx, 4, 1, 7⟩]⟩,
    /- MGE_GUARANTEE: T3_PCT T2_PCT T1_PCT -/ ⟨0x418, false, 0, 1, [⟨21, 16, .rwx, 30, 0, 50⟩, ⟨13, 8, .rwx, 5, 0, 50⟩, ⟨5, 0, .rwx, 1, 0, 50⟩]⟩ ]

/-- Registers of the CDC page (offset order). -/
def cdcRegs : List RegDef :=
  [ /- CDC_CODEC_CTRL: ZERO_DETECT TRAY_ENABLE -/ ⟨0x40, false, 0, 1, [⟨1, 1, .rw, 1, 0, 1⟩, ⟨0, 0, .rw, 1, 0, 1⟩]⟩,
    /- CDC_DECODE_FAULT -/ ⟨0x48, true, 0, 1, []⟩,
    /- CDC_TRAY_STATUS -/ ⟨0x50, false, 0, 1, []⟩ ]

/-- Registers of the PPU page (offset order). -/
def ppuRegs : List RegDef :=
  [ /- PPU_CTRL: PEER_PUSH BG_RECODE -/ ⟨0x40, false, 0, 1, [⟨1, 1, .rw, 1, 0, 1⟩, ⟨0, 0, .rw, 1, 0, 1⟩]⟩,
    /- PPU_STATUS -/ ⟨0x48, false, 0, 1, []⟩,
    /- PPU_TABLE_EPOCH -/ ⟨0x50, true, 0, 1, []⟩,
    /- PPU_TABLE_SEL: ID -/ ⟨0x58, false, 0, 1, [⟨11, 0, .rw, 0, 0, 4095⟩]⟩,
    /- PPU_TABLE_INFO -/ ⟨0x60, true, 0, 1, []⟩,
    /- PPU_TABLE_REFS -/ ⟨0x68, true, 0, 1, []⟩,
    /- PPU_TABLE_CMD -/ ⟨0x70, false, 0, 1, []⟩,
    /- PPU_PEER_ACK_TIMEOUT: MS -/ ⟨0x400, false, 0, 1, [⟨9, 0, .rwx, 100, 10, 1000⟩]⟩,
    /- PPU_BG_PARAMS: BG_RAW_MIN BG_LIMIT -/ ⟨0x408, false, 0, 1, [⟨27, 16, .rwx, 512, 1, 4095⟩, ⟨15, 0, .rwx, 200, 0, 65535⟩]⟩ ]

/-- Registers of the SMC page (offset order). -/
def smcRegs : List RegDef :=
  [ /- SMC_PRESET: SCHED_PRESET HASH_PRESET -/ ⟨0x40, false, 0, 1, [⟨5, 4, .rw, 0, 0, 3⟩, ⟨2, 0, .rw, 0, 0, 7⟩]⟩,
    /- SMC_RT_STATUS -/ ⟨0x48, false, 0, 1, []⟩,
    /- SMC_FLOOR -/ ⟨0x50, true, 0, 1, []⟩,
    /- SMC_TEMP -/ ⟨0x58, false, 0, 1, []⟩,
    /- SMC_REF_DEBT -/ ⟨0x140, false, 0, 1, []⟩,
    /- SMC_HASH_MASKn: MASK -/ ⟨0x400, true, 8, 13, [⟨47, 0, .rwx, 0, 0, 281474976710655⟩]⟩,
    /- SMC_SCHED: WR_HI WR_LO CLOSE_MAX_HITS AGE_CAP_NS -/ ⟨0x480, true, 0, 1, [⟨47, 40, .rwx, 48, 1, 64⟩, ⟨39, 32, .rwx, 16, 0, 63⟩, ⟨18, 16, .rwx, 1, 0, 4⟩, ⟨15, 0, .rwx, 2000, 100, 10000⟩]⟩,
    /- SMC_REF_CTRL: TEMP_POLL_US REF_POSTPONE_MAX -/ ⟨0x488, false, 0, 1, [⟨23, 8, .rwx, 1000, 100, 10000⟩, ⟨3, 0, .rwx, 4, 0, 8⟩]⟩,
    /- SMC_SR_CTRL: SR_IDLE_US SR_ENABLE -/ ⟨0x490, false, 0, 1, [⟨31, 16, .rwx, 100, 10, 65535⟩, ⟨0, 0, .rwx, 1, 0, 1⟩]⟩,
    /- SMC_RT_CTRL: PANIC_HI PANIC_LO -/ ⟨0x498, false, 0, 1, [⟨15, 8, .rwx, 50, 2, 100⟩, ⟨7, 0, .rwx, 25, 1, 99⟩]⟩ ]

/-- Registers of the SCH page (offset order). -/
def schRegs : List RegDef :=
  [ /- SCH_STATUS -/ ⟨0x40, false, 0, 1, []⟩,
    /- SCH_SR_BOUND -/ ⟨0x48, false, 0, 1, []⟩ ]

/-- Registers of the DMC page (offset order). -/
def dmcRegs : List RegDef :=
  [ /- DMC_PRESET: SCHED_PRESET HASH_PRESET -/ ⟨0x40, false, 0, 1, [⟨5, 4, .rw, 0, 0, 3⟩, ⟨2, 0, .rw, 4, 0, 7⟩]⟩,
    /- DMC_RT_STATUS -/ ⟨0x48, false, 0, 1, []⟩,
    /- DMC_FLOOR -/ ⟨0x50, true, 0, 1, []⟩,
    /- DMC_TEMP -/ ⟨0x58, false, 0, 1, []⟩,
    /- DMC_STATUS -/ ⟨0x60, false, 0, 1, []⟩,
    /- DMC_SR_BOUND -/ ⟨0x68, false, 0, 1, []⟩,
    /- DMC_REF_DEBT -/ ⟨0x140, false, 0, 1, []⟩,
    /- DMC_HASH_MASKn: MASK -/ ⟨0x400, true, 8, 12, [⟨47, 0, .rwx, 0, 0, 281474976710655⟩]⟩,
    /- DMC_SCHED: WR_HI WR_LO CLOSE_MAX_HITS AGE_CAP_NS -/ ⟨0x480, true, 0, 1, [⟨47, 40, .rwx, 48, 1, 64⟩, ⟨39, 32, .rwx, 16, 0, 63⟩, ⟨18, 16, .rwx, 1, 0, 4⟩, ⟨15, 0, .rwx, 2000, 100, 10000⟩]⟩,
    /- DMC_REF_CTRL: TEMP_POLL_US REF_POSTPONE_MAX -/ ⟨0x488, false, 0, 1, [⟨23, 8, .rwx, 1000, 100, 10000⟩, ⟨3, 0, .rwx, 4, 0, 4⟩]⟩,
    /- DMC_SR_CTRL: SR_IDLE_US SR_ENABLE -/ ⟨0x490, false, 0, 1, [⟨31, 16, .rwx, 100, 10, 65535⟩, ⟨0, 0, .rwx, 1, 0, 1⟩]⟩,
    /- DMC_RT_CTRL: PANIC_HI PANIC_LO -/ ⟨0x498, false, 0, 1, [⟨15, 8, .rwx, 50, 2, 100⟩, ⟨7, 0, .rwx, 25, 1, 99⟩]⟩ ]

/-- Registers of the FMG page (offset order). -/
def fmgRegs : List RegDef :=
  [ /- FMG_PRESET: PRESET -/ ⟨0x40, false, 0, 1, [⟨1, 0, .rw, 0, 0, 2⟩]⟩,
    /- FMG_STATUS -/ ⟨0x48, false, 0, 1, []⟩,
    /- FMG_CAPACITY -/ ⟨0x50, true, 0, 1, []⟩,
    /- FMG_POISON_LAST -/ ⟨0x58, true, 0, 1, []⟩,
    /- FMG_GC: START URGENT -/ ⟨0x400, false, 0, 1, [⟨15, 8, .rwx, 8, 4, 64⟩, ⟨7, 0, .rwx, 3, 1, 255⟩]⟩,
    /- FMG_WEAR: DIE_FAULTS DELTA -/ ⟨0x408, false, 0, 1, [⟨31, 24, .rwx, 16, 4, 64⟩, ⟨15, 0, .rwx, 500, 50, 10000⟩]⟩,
    /- FMG_RECOVERY: SOFT_FROM RETRY_MAX -/ ⟨0x410, false, 0, 1, [⟨7, 4, .rwx, 3, 1, 15⟩, ⟨3, 0, .rwx, 8, 1, 15⟩]⟩ ]

/-- Registers of the FLC page (offset order). -/
def flcRegs : List RegDef :=
  [ /- FLC_STATUS -/ ⟨0x40, false, 0, 1, []⟩,
    /- FLC_GEOMETRY -/ ⟨0x48, true, 0, 1, []⟩ ]

/-- Registers of the ICE page (offset order). -/
def iceRegs : List RegDef :=
  [ /- ICE_PRESET: PRESET -/ ⟨0x40, false, 0, 1, [⟨1, 0, .rw, 0, 0, 2⟩]⟩,
    /- ICE_STATUS -/ ⟨0x48, false, 0, 1, []⟩,
    /- ICE_PROGRESSn -/ ⟨0x50, true, 8, 3, []⟩,
    /- ICE_LAST_UE -/ ⟨0x68, true, 0, 1, []⟩,
    /- ICE_SELFTEST -/ ⟨0x70, false, 0, 1, []⟩,
    /- ICE_PERIOD: T3_HOURS T2_HOURS T1_HOURS -/ ⟨0x400, false, 0, 1, [⟨29, 20, .rwx, 168, 1, 1000⟩, ⟨19, 10, .rwx, 24, 1, 1000⟩, ⟨9, 0, .rwx, 24, 1, 1000⟩]⟩,
    /- ICE_CATCHUP: DEFER_MAX_US RATE_PERMILLE LAG_PERMILLE -/ ⟨0x408, false, 0, 1, [⟨31, 16, .rwx, 200, 20, 2000⟩, ⟨15, 12, .rwx, 1, 1, 10⟩, ⟨9, 0, .rwx, 50, 10, 500⟩]⟩,
    /- ICE_INJECT: KIND CRUMB BLOCK -/ ⟨0x410, true, 0, 1, [⟨62, 60, .rwx, 0, 0, 4⟩, ⟨41, 36, .rwx, 0, 0, 63⟩, ⟨35, 0, .rwx, 0, 0, 68719476735⟩]⟩ ]

/-- Registers of the TFL page (offset order). -/
def tflRegs : List RegDef :=
  [ /- TFL_STATUS -/ ⟨0x40, false, 0, 1, []⟩,
    /- TFL_REMAP -/ ⟨0x48, false, 0, 1, []⟩,
    /- TFL_LAST -/ ⟨0x50, true, 0, 1, []⟩,
    /- TFL_REPAIR_LOG -/ ⟨0x58, false, 0, 1, []⟩,
    /- TFL_PARAMS: HPPR_AT_RESET SPPR_ENABLE WINDOW_H THRESH -/ ⟨0x400, false, 0, 1, [⟨17, 17, .rwx, 1, 0, 1⟩, ⟨16, 16, .rwx, 1, 0, 1⟩, ⟨15, 8, .rwx, 24, 1, 168⟩, ⟨3, 0, .rwx, 3, 2, 15⟩]⟩ ]

/-- Registers of the CVU page (offset order). -/
def cvuRegs : List RegDef :=
  [ /- CVU_PRESET: PRESET -/ ⟨0x40, false, 0, 1, [⟨2, 0, .rw, 0, 0, 7⟩]⟩,
    /- CVU_JOB_CTRL: CONTINUE SOURCE BYTES CONTEXT -/ ⟨0x48, true, 0, 1, [⟨61, 61, .rw, 0, 0, 1⟩, ⟨60, 60, .rw, 0, 0, 1⟩, ⟨23, 20, .rw, 8, 1, 8⟩, ⟨19, 0, .rw, 0, 0, 1048575⟩]⟩,
    /- CVU_JOB_ADDR: ADDR -/ ⟨0x50, true, 0, 1, [⟨47, 0, .rw, 0, 0, 281474976710655⟩]⟩,
    /- CVU_JOB_LEN: LEN -/ ⟨0x58, true, 0, 1, [⟨40, 0, .rw, 0, 1, 1099511627776⟩]⟩,
    /- CVU_RESULT -/ ⟨0x60, true, 0, 1, []⟩,
    /- CVU_STATUS -/ ⟨0x68, true, 0, 1, []⟩,
    /- CVU_DATA -/ ⟨0x70, true, 0, 1, []⟩,
    /- CVU_POLY: POLY -/ ⟨0x400, true, 0, 1, [⟨63, 0, .rwx, 517762881, 0, 18446744073709551615⟩]⟩,
    /- CVU_INIT: INIT -/ ⟨0x408, true, 0, 1, [⟨63, 0, .rwx, 4294967295, 0, 18446744073709551615⟩]⟩,
    /- CVU_XOROUT: XOROUT -/ ⟨0x410, true, 0, 1, [⟨63, 0, .rwx, 4294967295, 0, 18446744073709551615⟩]⟩,
    /- CVU_PARAMS: REFOUT REFIN WIDTH -/ ⟨0x418, false, 0, 1, [⟨9, 9, .rwx, 1, 0, 1⟩, ⟨8, 8, .rwx, 1, 0, 1⟩, ⟨6, 0, .rwx, 32, 8, 64⟩]⟩ ]

/-- Registers of the RLG page (offset order). -/
def rlgRegs : List RegDef :=
  [ /- RLG_TIERn -/ ⟨0x40, true, 8, 3, []⟩,
    /- RLG_CTX_SEL: CONTEXT -/ ⟨0x58, false, 0, 1, [⟨19, 0, .rw, 0, 0, 1048575⟩]⟩,
    /- RLG_CTX_FRAMES -/ ⟨0x60, true, 0, 1, []⟩,
    /- RLG_CTX_BW -/ ⟨0x68, true, 0, 1, []⟩,
    /- RLG_CTX_SLABS -/ ⟨0x70, true, 0, 1, []⟩,
    /- RLG_LAST_REFUSAL -/ ⟨0x78, true, 0, 1, []⟩ ]

/-- Registers of the RLG1 page (offset order). -/
def rlg1Regs : List RegDef :=
  [ /- RLG_CTRL_SEL: CTRL -/ ⟨0x40, false, 0, 1, [⟨4, 0, .rw, 0, 0, 24⟩]⟩,
    /- RLG_CTRL_LEDGER -/ ⟨0x48, true, 0, 1, []⟩,
    /- RLG_CTRL_SCALE -/ ⟨0x50, false, 0, 1, []⟩ ]

/-- Registers of the BWR page (offset order). -/
def bwrRegs : List RegDef :=
  [ /- BWR_PRESET: PRESET -/ ⟨0x40, false, 0, 1, [⟨1, 0, .rw, 0, 0, 2⟩]⟩,
    /- BWR_MASTER_SEL: CTRL MASTER -/ ⟨0x48, false, 0, 1, [⟨12, 8, .rw, 0, 0, 24⟩, ⟨4, 0, .rw, 0, 0, 16⟩]⟩,
    /- BWR_MASTER_RATE -/ ⟨0x50, true, 0, 1, []⟩,
    /- BWR_FEEDBACK: HIGH_PCT WINDOW_NS -/ ⟨0x400, false, 0, 1, [⟨23, 16, .rwx, 75, 50, 95⟩, ⟨15, 0, .rwx, 1000, 250, 4000⟩]⟩ ]

/-- Registers of the SHT page (offset order). -/
def shtRegs : List RegDef :=
  [ /- SHT_PRESET: PRESET -/ ⟨0x40, false, 0, 1, [⟨0, 0, .rw, 0, 0, 1⟩]⟩,
    /- SHT_SHAPE -/ ⟨0x48, false, 0, 1, []⟩,
    /- SHT_STATUS -/ ⟨0x50, false, 0, 1, []⟩,
    /- SHT_FAULT_LAST -/ ⟨0x58, true, 0, 1, []⟩,
    /- SHT_PARAMS: HANDSHAKE_TIMEOUT_US TRANSIT_LIMIT -/ ⟨0x400, false, 0, 1, [⟨23, 16, .rwx, 10, 5, 100⟩, ⟨3, 0, .rwx, 2, 1, 15⟩]⟩,
    /- SHT_TILE_TEST: PHYS_COL ROW -/ ⟨0x408, false, 0, 1, [⟨14, 8, .rwx, 0, 0, 101⟩, ⟨6, 0, .rwx, 0, 0, 99⟩]⟩ ]

/-- Registers of the ROW page (offset order). -/
def rowRegs : List RegDef :=
  [ /- ROW_FAILED_LO -/ ⟨0x40, true, 0, 1, []⟩,
    /- ROW_FAILED_HI -/ ⟨0x48, true, 0, 1, []⟩,
    /- ROW_STATUS -/ ⟨0x50, false, 0, 1, []⟩,
    /- ROW_TILE_SEL: PHYS_COL -/ ⟨0x58, false, 0, 1, [⟨6, 0, .rw, 0, 0, 101⟩]⟩,
    /- ROW_TILE_INFO -/ ⟨0x60, true, 0, 1, []⟩ ]

/-- Registers of the RCP page (offset order). -/
def rcpRegs : List RegDef :=
  [ /- RCP_PRESET: PRESET -/ ⟨0x40, false, 0, 1, [⟨1, 0, .rw, 0, 0, 2⟩]⟩,
    /- RCP_STATUS -/ ⟨0x48, true, 0, 1, []⟩,
    /- RCP_LOADED -/ ⟨0x50, true, 0, 1, []⟩,
    /- RCP_LOAD_LAST -/ ⟨0x58, true, 0, 1, []⟩,
    /- RCP_RUN_LAST -/ ⟨0x60, true, 0, 1, []⟩,
    /- RCP_SEL: HANDLE -/ ⟨0x68, false, 0, 1, [⟨3, 0, .rw, 0, 0, 15⟩]⟩,
    /- RCP_RECIPE_INFO -/ ⟨0x70, true, 0, 1, []⟩,
    /- RCP_RECIPE_GROUP -/ ⟨0x78, true, 0, 1, []⟩,
    /- RCP_PARAMS: READY_TIMEOUT_MS SLOT_LIMIT PEER_TIMEOUT_MS -/ ⟨0x400, true, 0, 1, [⟨47, 32, .rwx, 1000, 100, 10000⟩, ⟨27, 16, .rwx, 3584, 0, 4032⟩, ⟨15, 0, .rwx, 100, 10, 10000⟩]⟩ ]

/-- Registers of the CCX page (offset order). -/
def ccxRegs : List RegDef :=
  [ /- CCX_STATUS -/ ⟨0x40, false, 0, 1, []⟩,
    /- CCX_CORE_SEL: CORE -/ ⟨0x48, false, 0, 1, [⟨3, 0, .rw, 0, 0, 15⟩]⟩,
    /- CCX_CORE_INFO -/ ⟨0x50, true, 0, 1, []⟩,
    /- CCX_FW_STATUS -/ ⟨0x58, false, 0, 1, []⟩,
    /- CCX_FW_CTRL -/ ⟨0x60, false, 0, 1, []⟩,
    /- CCX_FW_ADDR: ADDR -/ ⟨0x68, true, 0, 1, [⟨63, 6, .rw, 0, 0, 288230376151711743⟩]⟩,
    /- CCX_FW_LEN: BYTES -/ ⟨0x70, false, 0, 1, [⟨25, 0, .rw, 0, 4096, 33554432⟩]⟩,
    /- CCX_WDOG: MIN_CORES SUP_WDOG_MS RESTART_MAX UNIT_HANG_MS CORE_WDOG_MS -/ ⟨0x400, false, 0, 1, [⟨31, 28, .rwx, 12, 8, 15⟩, ⟨24, 16, .rwx, 50, 10, 500⟩, ⟨15, 12, .rwx, 3, 1, 8⟩, ⟨11, 8, .rwx, 5, 1, 15⟩, ⟨7, 0, .rwx, 10, 2, 100⟩]⟩ ]

/-- Registers of the CCX1 page (offset order). -/
def ccx1Regs : List RegDef :=
  [ /- CCX_LOG_INFO -/ ⟨0x40, false, 0, 1, []⟩,
    /- CCX_SLOTn -/ ⟨0x48, true, 8, 2, []⟩ ]

/-- Registers of the SSS page (offset order). -/
def sssRegs : List RegDef :=
  [ /- SSS_STATUS -/ ⟨0x40, false, 0, 1, []⟩,
    /- SSS_CAUSE -/ ⟨0x48, true, 0, 1, []⟩,
    /- SSS_RESET_REQ -/ ⟨0x50, false, 0, 1, []⟩,
    /- SSS_TEST: FORCE -/ ⟨0x400, false, 0, 1, [⟨0, 0, .rwx, 0, 0, 1⟩]⟩ ]

/-- Registers of the PPM page (offset order). -/
def ppmRegs : List RegDef :=
  [ /- PPM_PRESET: PRESET -/ ⟨0x40, false, 0, 1, [⟨1, 0, .rw, 1, 0, 2⟩]⟩,
    /- PPM_STATUS -/ ⟨0x48, false, 0, 1, []⟩,
    /- PPM_PACE -/ ⟨0x50, true, 0, 1, []⟩,
    /- PPM_POWER -/ ⟨0x58, true, 0, 1, []⟩,
    /- PPM_TEMP -/ ⟨0x60, false, 0, 1, []⟩,
    /- PPM_VCTRL: IDLE_DROP VMAX_MV VMIN_MV MARGIN_MBEAT ENV_MARGIN_PERMILLE GUARD_PERMILLE STEP_MV TARGET_MBEAT -/ ⟨0x400, true, 0, 1, [⟨63, 63, .rwx, 0, 0, 1⟩, ⟨62, 52, .rwx, 780, 680, 780⟩, ⟨51, 41, .rwx, 680, 620, 780⟩, ⟨40, 33, .rwx, 60, 20, 200⟩, ⟨32, 25, .rwx, 50, 10, 200⟩, ⟨24, 17, .rwx, 30, 25, 100⟩, ⟨16, 12, .rwx, 10, 5, 20⟩, ⟨11, 0, .rwx, 1100, 0, 1400⟩]⟩,
    /- PPM_THERMAL: STOP_C WARN_C STEP_US -/ ⟨0x408, false, 0, 1, [⟨31, 24, .rwx, 110, 106, 112⟩, ⟨23, 16, .rwx, 100, 85, 104⟩, ⟨6, 0, .rwx, 10, 10, 100⟩]⟩ ]

/-- Registers of the LCC page (offset order). -/
def lccRegs : List RegDef :=
  [ /- LCC_STATE -/ ⟨0x40, false, 0, 1, []⟩,
    /- LCC_TOKEN_ADDR: ADDR TWO -/ ⟨0x48, true, 0, 1, [⟨63, 6, .rw, 0, 0, 288230376151711743⟩, ⟨0, 0, .rw, 0, 0, 1⟩]⟩,
    /- LCC_REQUEST -/ ⟨0x50, false, 0, 1, []⟩,
    /- LCC_STATUS -/ ⟨0x58, false, 0, 1, []⟩ ]

/-- Registers of the LCC1 page (offset order). -/
def lcc1Regs : List RegDef :=
  [ /- LCC_WIPE_STATUS -/ ⟨0x40, false, 0, 1, []⟩ ]

/-- Registers of the SEC page (offset order). -/
def secRegs : List RegDef :=
  [ /- SEC_KEY_CMD -/ ⟨0x40, true, 0, 1, []⟩,
    /- SEC_KEY_BLOB: ADDR -/ ⟨0x48, true, 0, 1, [⟨63, 3, .rw, 0, 0, 2305843009213693951⟩]⟩,
    /- SEC_KEY_RESULT -/ ⟨0x50, true, 0, 1, []⟩,
    /- SEC_TRUST_ADDR: ADDR -/ ⟨0x58, true, 0, 1, [⟨63, 6, .rw, 0, 0, 288230376151711743⟩]⟩,
    /- SEC_TRUST_CTRL -/ ⟨0x60, false, 0, 1, []⟩,
    /- SEC_GRANT_NONCE -/ ⟨0x68, true, 0, 1, []⟩,
    /- SEC_GRANT_CTRL: ADDR -/ ⟨0x70, true, 0, 1, [⟨60, 17, .rw, 0, 0, 17592186044415⟩]⟩ ]

/-- Registers of the TMX page (offset order). -/
def tmxRegs : List RegDef :=
  [ /- TMX_CLAIM_CMD -/ ⟨0x40, false, 0, 1, []⟩,
    /- TMX_CLAIM_RESULT -/ ⟨0x48, false, 0, 1, []⟩,
    /- TMX_MUX_SEL: ARG SEL -/ ⟨0x50, false, 0, 1, [⟨15, 8, .rw, 0, 0, 255⟩, ⟨7, 0, .rw, 0, 0, 255⟩]⟩,
    /- TMX_TRACE_CTRL: MODE WRAP TRIG_EN -/ ⟨0x58, false, 0, 1, [⟨29, 28, .rw, 0, 0, 1⟩, ⟨27, 27, .rw, 0, 0, 1⟩, ⟨23, 23, .rw, 0, 0, 1⟩]⟩,
    /- TMX_TRACE_STATUS -/ ⟨0x60, false, 0, 1, []⟩,
    /- TMX_TRACE_DATA -/ ⟨0x68, true, 0, 1, []⟩,
    /- TMX_CLAIM_TABLEn -/ ⟨0x80, false, 4, 19, []⟩ ]

/-- Registers of the IOX page (offset order). (DESIGN CHOICE: notes/assumptions/22.md) -/
def ioxRegs : List RegDef :=
  [ /- IOX_GPIO: OE OUT -/ ⟨0x40, true, 0, 1, [⟨31, 16, .rw, 0, 0, 65535⟩, ⟨15, 0, .rw, 0, 0, 65535⟩]⟩,
    /- IOX_BAR_STRAP: VF_APT_LOG2_HP1 VF_APT_LOG2_HP0 PF_APT_LOG2_HP1 PF_APT_LOG2_HP0 -/ ⟨0x60, false, 0, 1, [⟨23, 18, .rws, 30, 30, 40⟩, ⟨17, 12, .rws, 30, 30, 40⟩, ⟨11, 6, .rws, 36, 32, 46⟩, ⟨5, 0, .rws, 36, 32, 46⟩]⟩,
    /- IOX_RESET_CTRL: PERST_BOTH -/ ⟨0x68, false, 0, 1, [⟨1, 1, .rws, 0, 0, 1⟩]⟩,
    /- IOX_RESET_CAUSE -/ ⟨0x70, false, 0, 1, []⟩ ]

/-- The registers that a page type defines beside the common header and the counters. -/
def regsOf : PageType → List RegDef
  | .dev => devRegs
  | .ple => pleRegs
  | .cdc => cdcRegs
  | .ppu => ppuRegs
  | .mge => mgeRegs
  | .fmg => fmgRegs
  | .flc => flcRegs
  | .smc => smcRegs
  | .sch => schRegs
  | .ice => iceRegs
  | .tfl => tflRegs
  | .cvu => cvuRegs
  | .rlg => rlgRegs
  | .rlg1 => rlg1Regs
  | .bwr => bwrRegs
  | .ppm => ppmRegs
  | .sht => shtRegs
  | .row => rowRegs
  | .rcp => rcpRegs
  | .fpt => fptRegs
  | .ftb => ftbRegs
  | .ftbs => ftbsRegs
  | .iox => ioxRegs
  | .hiu => hiuRegs
  | .ccx => ccxRegs
  | .ccx1 => ccx1Regs
  | .sss => sssRegs
  | .lcc => lccRegs
  | .lcc1 => lcc1Regs
  | .sec => secRegs
  | .tmx => tmxRegs
  | .dmc => dmcRegs
  | .bare _ => []

/-- The register of a page that holds offset `off` (its low half or only word), with its own offset. -/
def regAt (p off : Nat) : Option (RegDef × Nat) :=
  match pageOf p with
  | none => none
  | some (t, _) =>
    (regsOf t).findSome? (fun d =>
      (List.range d.count).findSome? (fun n =>
        let o := d.off + n * d.stride
        if off = o ∨ (d.wide ∧ off = o + 4) then some (d, o) else none))

/-- The reset value that a register's fields put together. -/
def resetWord (d : RegDef) : Word :=
  BitVec.ofNat 64 (listSum (d.flds.map (fun f => place f.reset f.lo (f.hi + 1 - f.lo))))

/-- The reset value of the register at an offset of a page. (DESIGN CHOICE: notes/assumptions/1.md) -/
def regReset (p off : Nat) : Word :=
  match regAt p off with
  | some (d, _) => resetWord d
  | none => 0

/-- Key of a register in the register table. -/
def regKey (p off : Nat) : Nat := 4096 * p + off

end Sys2Proof.Machine
end

