-- ==== Sys2Proof/Machine/State.lean ====
section
/-! DEFINITION. Sys2Proof/Machine/State.lean: every piece of state the spec gives the block, as plain data, and the block
right after reset. -/

namespace Sys2Proof.Machine

/-- Why the block stops with a fault. No command of this model raises one: every effect the spec gives ends in a
next state (safe: nothing is cut off). The constructor stands for a command queue that the block cannot hold,
which no step produces. -/
inductive Fault where
  /-- Raised by nobody; safe. -/
  | unreachable
  deriving DecidableEq, Repr

/-- Why a command is refused by the model. -/
inductive Refusal where
  /-- Raised by `exec` for a command whose meaning is not written, under its mnemonic; safe: nothing is claimed of it. -/
  | notModelled (mnemonic : String)
  deriving DecidableEq, Repr

/-- Owner codes of a page or shared resource (R430). -/
inductive Owner where
  | free | firmware | pf | debug | test | sss
  deriving DecidableEq, Repr

/-- LAST_ERR_INFO (R448): status code, KIND, register offset and writing function. -/
structure LastErr where
  status : Nat
  kind : Nat
  off : Nat
  fn : Nat
  deriving DecidableEq, Repr

/-- A register write held for later: the low half of a 64-bit register (R444), or a write that meets a unit reset
(Table 20-2). -/
structure HeldWrite where
  fn : Nat
  off : Nat
  wide : Bool
  value : Word
  deriving DecidableEq, Repr

/-- The common header of a register page (chapter Register Pages). The claim stands in a group's first page (R446). -/
structure Page where
  owner : Owner
  port : Nat
  unlocked : Bool
  resetting : Bool
  enable : Bool
  evtRaw : BitVec 6
  evtMask : BitVec 6
  evtPend : BitVec 6
  errCorr : Nat
  errUncorr : Nat
  lastErr : LastErr
  ignored : Nat
  seq : Nat
  halves : List HeldWrite
  latched : List HeldWrite
  held : List HeldWrite
  deriving DecidableEq, Repr

/-- A page header at its reset values. -/
def Page.reset : Page :=
  { owner := .free, port := 0, unlocked := false, resetting := false, enable := true, evtRaw := 0, evtMask := 0,
    evtPend := 0, errCorr := 0, errUncorr := 0, lastErr := ⟨0, 0, 0, 0⟩, ignored := 0, seq := 0, halves := [],
    latched := [], held := [] }

/-- An event on its way through the router (R387): the fields of Table 15-11, the page that raised it and the
functions it is addressed to. -/
structure Evt where
  code : Status
  sev : Sev
  cause : Nat
  ctx : Nat
  block : Nat
  time : Nat
  page : Nat
  detail : Nat
  dests : List Nat
  integrity : Bool
  deriving DecidableEq, Repr

/-- A completion entry (Table 15-5): `notice` 0 none, 1 and 2 the two entries of a run notice (R365). -/
structure Cpl where
  cid : Nat
  status : Status
  sqHead : Nat
  phase : Bool
  notice : Nat
  op : Nat
  result : Nat
  deriving DecidableEq, Repr

/-- How an aperture or configuration request is answered. -/
inductive Resp where
  | ok | ur | ca | poison | crs
  deriving DecidableEq, Repr

/-- Interrupt mechanisms (R360). -/
inductive IntKind where
  | msix | msi | intx
  deriving DecidableEq, Repr

/-- Slab states (Table 02-1). -/
inductive SlabState where
  | free | zeroed | resident | moving | sealed | retired
  deriving DecidableEq, Repr

/-- A placement-map entry (R27). -/
structure MapEntry where
  state : SlabState
  tier : Option Tier
  tmask : Nat
  heat : Nat
  shared : Bool
  owner : Nat
  sealBit : Bool
  releasing : Bool
  pool : Bool
  frame : Nat
  deriving DecidableEq, Repr

def MapEntry.free : MapEntry :=
  { state := .free, tier := none, tmask := 0, heat := 0, shared := false, owner := 0, sealBit := false,
    releasing := false, pool := false, frame := 0 }

def MapEntry.retired : MapEntry := { MapEntry.free with state := .retired }

/-- Context states (R35). -/
inductive CtxState where
  | free | active | draining
  deriving DecidableEq, Repr

/-- A context-table entry (R35): key slot 0xFFFF for none. -/
structure Ctx where
  fn : Nat
  state : CtxState
  key : Nat
  deriving DecidableEq, Repr

def Ctx.reset : Ctx := { fn := 0, state := .free, key := 0xFFFF }

/-- A member entry of the pooled member table (R38). -/
structure Member where
  group : Nat
  ctx : Nat
  write : Bool
  deriving DecidableEq, Repr

/-- A window entry (Table 02-3). -/
structure Window where
  rd : Bool
  wr : Bool
  stale : Bool
  fn : Nat
  ctx : Nat
  aptBase : Nat
  length : Nat
  first : Nat
  deriving DecidableEq, Repr

/-- A CXL.mem partition: PLE_LD_BASEn and PLE_LD_SIZEn (R46). -/
structure Part where
  valid : Bool
  port : Nat
  ctx : Nat
  first : Nat
  count : Nat
  deriving DecidableEq, Repr

def Part.reset : Part := { valid := false, port := 0, ctx := 0, first := 0, count := 0 }

/-- How a write came in, for its completion once it is no longer held. -/
inductive WriteSrc where
  | cxl (port dpa : Nat)
  | bar (fn off : Nat)
  | fabric (fport src srcCtx tag : Nat)
  deriving DecidableEq, Repr

/-- A write to one block that waits for a flip (R118, R122), for a pool frame or for T3 (R113). -/
structure HeldStore where
  src : WriteSrc
  ctx : Nat
  block : Nat
  off : Nat
  data : List Byte
  since : Nat
  deriving DecidableEq, Repr

/-- Who waits for the data of a block; an aperture read with the parts it resolved to: block index, offset and length. -/
inductive ReadSrc where
  | cxl (port dpa : Nat)
  | bar (fn off : Nat) (parts : List (Nat × Nat × Nat))
  | fabric (fport : Nat) (p : Pkt)
  deriving DecidableEq, Repr

/-- A drain of R45 in progress: the windows whose accesses are still to end, whether the entries then return to the
pool, the ring command that completes at its end, and the writes and reads of a revoked context that had passed the
check. -/
structure Drain where
  wins : List Nat
  free : Bool
  cmd : Option (RingCmd × Nat)
  writes : List HeldStore
  reads : List ReadSrc
  deriving DecidableEq, Repr

/-- PLE_DENY_INFO. -/
structure Deny where
  path : Nat
  step : Nat
  fn : Nat
  ctx : Nat
  slab : Nat
  deriving DecidableEq, Repr

/-- The placement engine: placement map (unlisted below `presented` is FREE, at or above it RETIRED), context,
share-group, member and window tables, partitions, and the slabs whose release waits for reads that had passed the check
(R51). -/
structure Ple where
  presented : Nat
  map : Tbl MapEntry
  ctxs : Tbl Ctx
  groups : Tbl (Option Nat)
  members : Tbl (Option Member)
  windows : Tbl (Option Window)
  parts : Tbl Part
  drains : List Drain
  leaving : List Nat
  ctxCmd : Word
  ctxStatus : Nat
  ctxDone : Bool
  ctxResult : Nat
  deny : Deny
  deriving DecidableEq, Repr

def Ple.reset : Ple :=
  { presented := 0, map := [], ctxs := [], groups := [], members := [], windows := [], parts := [], drains := [], leaving := [],
    ctxCmd := 0xFFFF00000000, ctxStatus := 0, ctxDone := true, ctxResult := 0, deny := ⟨0, 0, 0, 0, 0⟩ }

/-- Block states (Table 03-3). -/
inductive BlockState where
  | normal | zero | poisoned | checkSuspect
  deriving DecidableEq, Repr

/-- A block descriptor (R74) and the block's CRC copy B (R75). -/
structure Desc where
  state : BlockState
  crumbs : Nat
  table : Nat
  format : Nat
  crcA : BitVec 32
  copyB : BitVec 32
  deriving DecidableEq, Repr

/-- A ZERO block's descriptor (Table 03-4). (DESIGN CHOICE: notes/assumptions/5.md) -/
def Desc.zero : Desc := { state := .zero, crumbs := 0, table := 0xFFF, format := 0, crcA := 0, copyB := 0 }

/-- Errors that sit in the stored copy of a block until a reader or icing finds them: crumbs with a correctable or an
uncorrectable error, an uncorrectable descriptor, an uncorrectable copy B (R195, R194, R215). -/
structure Plant where
  corr : List Nat
  ue : List Nat
  descUe : Bool
  copyBUe : Bool
  deriving DecidableEq, Repr

def Plant.none : Plant := { corr := [], ue := [], descUe := false, copyBUe := false }

/-- CDC_DECODE_FAULT. -/
structure DecFault where
  check : Nat
  path : Nat
  sub : Nat
  table : Nat
  block : Nat
  deriving DecidableEq, Repr

/-- The codec unit: its control register, the tray cache (decoded blocks by presented block index), the fill-path
expanders removed by the self-test, and whether the self-test took the cache or the table path out. -/
structure Cdc where
  flushing : Bool
  tray : Tbl (List Byte)
  fault : DecFault
  trayOff : Bool
  codecOff : Bool
  deriving DecidableEq, Repr

def Cdc.reset : Cdc :=
  { flushing := false, tray := [], fault := ⟨0, 0, 0, 0, 0⟩,
    trayOff := false, codecOff := false }

/-- Table states (Table 04-1). -/
inductive TableState where
  | free | building | live | retiring | quarantine
  deriving DecidableEq, Repr

/-- A table-store entry (R86): peers are fabric ports holding a pushed copy; `scope` is the run of blocks of the proof pass
that built the table (first and number). -/
structure TableEnt where
  state : TableState
  data : List Byte
  owner : Nat
  refs : Nat
  pins : Nat
  retireEpoch : Nat
  peers : List Nat
  pending : Bool
  scope : Option (Nat × Nat)
  deriving DecidableEq, Repr

def TableEnt.free : TableEnt :=
  { state := .free, data := [], owner := 0, refs := 0, pins := 0, retireEpoch := 0, peers := [], pending := false,
    scope := none }

/-- What a pass codes in its scope: every block of its format. -/
inductive PassPhase where
  | queued | histogram | build | encode
  deriving DecidableEq, Repr

/-- A proof pass (R89): the command it serves (none for background recode), context, format, the scope as a run of
blocks, FLAGS bit RECODED of the blocks it codes, the table it takes. -/
structure Pass where
  cmd : Option (RingCmd × Nat)
  ctx : Nat
  format : Nat
  first : Nat
  count : Nat
  recode : Bool
  phase : PassPhase
  table : Option Nat
  hist : List Nat
  deriving DecidableEq, Repr

/-- A COMPRESS_IN or RECODE that waits for its passes: passes left and the outcome so far. -/
structure PassCmd where
  r : RingCmd
  op : Nat
  left : Nat
  status : Status
  result : Nat
  deriving DecidableEq, Repr

/-- The proof-pass unit and the table store; `line` holds the commands that wait for room in the pass queue, in order of
acceptance (R92); `bgTimes` the times of the background recodes of the last second (R98). -/
structure Ppu where
  tables : Tbl TableEnt
  passes : List Pass
  waiting : List Pass
  line : List (RingCmd × Nat)
  cmds : List PassCmd
  current : BitVec 32
  walk : Nat
  bgTimes : List Nat
  deriving DecidableEq, Repr

def Ppu.reset : Ppu := { tables := [], passes := [], waiting := [], line := [], cmds := [], current := 0, walk := 0, bgTimes := [] }

/-- Where a move stands (Table 05-3): queued, in copy pass (step 2), holding writes (step 5). -/
inductive MovePhase where
  | queued | copying | holding
  deriving DecidableEq, Repr

/-- A move of one slab: class of Table 05-2, target tier, G and whether G is a pool frame, passes made, dirty
blocks, abandonments in succession at step 4, whether a write waits for it, and MGE_GUARANTEE as it stood when the copy started
(R131). -/
structure Move where
  slab : Nat
  cls : Nat
  target : Tier
  phase : MovePhase
  frame : Option Nat
  toPool : Bool
  passes : Nat
  dirty : List Nat
  copied : List Nat
  aborts : Nat
  holdSince : Nat
  programmed : Bool
  rewrite : List Nat
  onWrite : Bool
  guar : Word
  deriving DecidableEq, Repr

/-- A vote (R127): the wished tier, the hint it is pending for, and whether it already stood at the last swap of the
touch maps. -/
structure Vote where
  want : Tier
  hint : Option Nat
  stoodAtSwap : Bool
  deriving DecidableEq, Repr

/-- A HINT in progress: its slabs still to resolve, its outcomes so far by slab, slabs that reached TARGET; for
ACTION TMASK the slabs still to move. -/
structure Hint where
  id : Nat
  r : RingCmd
  tmask : Bool
  target : Option Tier
  waiting : List Nat
  outcomes : List (Nat × Status)
  reached : Nat
  deriving DecidableEq, Repr

/-- An old home that waits for the reads which resolved to it (step 7 of Table 05-3). -/
structure OldFrame where
  slab : Nat
  tier : Tier
  frame : Nat
  deriving DecidableEq, Repr

/-- The migration engine: moves in queue order, held writes, votes (key slab·2^20 + context), hints, heat sampling,
touch maps, flips and writes per slab, last stall; `swaps` pairs the slab that a swap moved down with the slab it makes
room for. `sweepDue` says that a decay tick fell due and its sweep is to come, `lastTick` when the last one was; `noHeat` holds when a
slab was given up (times plus one); `lastSwap` and `lastPolicy` are the times of the last swap of the touch maps and of the last
policy period. -/
structure Mge where
  moves : List Move
  held : List HeldStore
  oldFrames : List OldFrame
  zeroing : List (Tier × Nat)
  swaps : List (Nat × Nat)
  votes : Tbl (Option Vote)
  hints : List Hint
  nextHint : Nat
  sampleCtr : Nat
  sampled : Nat
  sweepDue : Bool
  lastTick : Nat
  noHeat : Tbl Nat
  touchA : List Nat
  touchB : List Nat
  currentB : Bool
  lastFlip : Tbl Nat
  lastWrite : Tbl Nat
  lastSwap : Nat
  lastPolicy : Nat
  stallCause : Nat
  stallCtx : Nat
  stallSlab : Nat
  deriving DecidableEq, Repr

def Mge.reset : Mge :=
  { moves := [], held := [], oldFrames := [], zeroing := [], swaps := [], votes := [], hints := [], nextHint := 0, sampleCtr := 0,
    sampled := 0, sweepDue := false, lastTick := 0, noHeat := [], touchA := [], touchB := [], currentB := false,
    lastFlip := [], lastWrite := [], lastSwap := 0, lastPolicy := 0, stallCause := 0, stallCtx := 0, stallSlab := 0 }

/-- Group states (FMG_STATUS). -/
inductive GroupState where
  | absent | mounting | online | failed
  deriving DecidableEq, Repr

/-- Erase-block states: free, part of a superblock, out of use, part of the system area (R160). -/
inductive BlkState where
  | free | used | bad | system
  deriving DecidableEq, Repr

/-- An erase block of a channel: its state, whether it is erased and not programmed since, and its erase count (R145, R160). -/
structure EraseBlock where
  state : BlkState
  erased : Bool
  erases : Nat
  deriving DecidableEq, Repr

def EraseBlock.reset : EraseBlock := { state := .free, erased := false, erases := 0 }

/-- Superblock states: not formed, formed and erased, open, full. -/
inductive SbState where
  | none | erased | opened | closed
  deriving DecidableEq, Repr

/-- A superblock: its state and its 16 erase blocks by channel position. -/
structure Superblock where
  state : SbState
  blocks : List Nat
  deriving DecidableEq, Repr

def Superblock.reset : Superblock := { state := .none, blocks := [] }

/-- Consecutive rows of one superblock. -/
structure Extent where
  sb : Nat
  row : Nat
  rows : Nat
  deriving DecidableEq, Repr

/-- A flash slab slot: the slab it holds, its generation (R140), group and location. -/
structure Slot where
  slab : Nat
  gen : Nat
  group : Nat
  where_ : List Extent
  deriving DecidableEq, Repr

/-- One channel group: superblocks by number, the open superblock and its next row, rows in a superblock, and the pages of its
usable targets at mount. -/
structure Group where
  state : GroupState
  sbs : Tbl Superblock
  rowsPerSb : Nat
  openSb : Option Nat
  nextRow : Nat
  rawPages : Nat
  deriving DecidableEq, Repr

def Group.reset : Group :=
  { state := .absent, sbs := [], rowsPerSb := 0, openSb := none, nextRow := 0, rawPages := 0 }

/-- One ONFI channel: FLC_STATUS, FLC_GEOMETRY and the endurance of its packages; what the system area holds of it (R160): its
erase blocks by number, retired dies, and by CE_N the unique ID and the training result of its package; and the times at which
erase blocks failed (R146). Erase block `n` lies on die `n / blocksPerLun`, die `d` in target `d / lunsPerTarget`. -/
structure Flc where
  present : Nat
  usable : Nat
  trained : Bool
  family : Nat
  pagesPerBlock : Nat
  blocksPerLun : Nat
  lunsPerTarget : Nat
  endurance : Nat
  blocks : Tbl EraseBlock
  retired : List Nat
  known : Tbl (Option (Nat × Nat))
  faults : List (Nat × Nat)
  deriving DecidableEq, Repr

def Flc.reset : Flc :=
  { present := 0, usable := 0, trained := false, family := 0, pagesPerBlock := 0, blocksPerLun := 0,
    lunsPerTarget := 0, endurance := 0, blocks := [], retired := [], known := [], faults := [] }

/-- A request that waits for a flash recovery, with the table epoch it was stamped with (R99) and the time it arrived. -/
structure FlashWaiter where
  src : ReadSrc
  stamp : Nat
  since : Nat
  deriving DecidableEq, Repr

/-- Recovery of one codeword (R150): the steps of the ladder that have ended, whether the running one decodes soft, or rebuild
once the ladder has ended; who met the failure (DETECTOR of ICE_LAST_UE). -/
structure Recovery where
  block : Nat
  step : Nat
  soft : Bool
  rebuild : Bool
  det : Nat
  waiters : List FlashWaiter
  deriving DecidableEq, Repr

/-- The flash manager; `barred` lists the channels that the self-test made unusable, `unentered` the blocks whose poison found the
record full (R153), and `sysKey` is the persistent key of the system area (R160). -/
structure Fmg where
  g0 : Group
  g1 : Group
  flcs : Tbl Flc
  reason : Nat
  scanned : Bool
  spareExhausted : Bool
  usableFrames : Nat
  slots : Tbl (Option Slot)
  nextGen : Nat
  mediaKey : Nat
  poisonRec : List Nat
  unentered : List Nat
  recoveries : List Recovery
  relocating : List Nat
  poisonLast : Nat × Nat × Nat × Nat × Nat
  mounting : Bool
  barred : List Nat
  sysKey : Nat
  deriving DecidableEq, Repr

/-- The flash manager at its reset values. (DESIGN CHOICE: notes/assumptions/1.md) -/
def Fmg.reset : Fmg :=
  { g0 := Group.reset, g1 := Group.reset, flcs := [], reason := 0, scanned := false, spareExhausted := false,
    usableFrames := 0, slots := [], nextGen := 0, mediaKey := 0, poisonRec := [], unentered := [], recoveries := [], relocating := [],
    poisonLast := (0, 0, 0, 0, 0), mounting := false, barred := [], sysKey := 0 }

/-- Self-refresh states (SCH_STATUS.SR_STATE). -/
inductive SrState where
  | active | entering | inSr | exiting
  deriving DecidableEq, Repr

/-- A bank of a channel: its open row and whether each of its last four accesses was a row hit (R173). -/
structure Bank where
  row : Option Nat
  hits : List Bool
  deriving DecidableEq, Repr

def Bank.reset : Bank := { row := none, hits := [false, false, false, false] }

/-- A channel: SMC s channel c under key 32·s + c, DMC n under key 256 + n. DEBT is kept per rank; a stack channel
has one; `refAt` is the time of a rank's last refresh interval. `accepted` numbers its requests in order of acceptance, `lastReq` is the time of the last one; the row-refresh time and
the bound of a wait for self-refresh come from training. -/
structure Chan where
  online : Bool
  reason : Nat
  queue : List DramReq
  wbuf : List DramReq
  draining : Bool
  banks : Tbl Bank
  debt : List Nat
  refAt : Tbl Nat
  sr : SrState
  accepted : Nat
  lastReq : Nat
  trfcNs : Nat
  srBoundNs : Nat
  deriving DecidableEq, Repr

def Chan.reset : Chan :=
  { online := false, reason := 0, queue := [], wbuf := [], draining := false, banks := [], debt := [0], refAt := [],
    sr := .active, accepted := 0, lastReq := 0, trfcNs := 0, srBoundNs := 0 }

/-- A controller: SMC 0–7, DMC 8–23. RANGE is 0, 1 or 2; `lower` counts readings in succession that show a lower
range, `readAt` is the time of the last reading plus one. -/
structure Ctrl where
  fill : Nat
  panic : Bool
  tempC : Nat
  range : Nat
  lower : Nat
  readAt : Nat
  deriving DecidableEq, Repr

/-- The DRAM controller at its reset values. (DESIGN CHOICE: notes/assumptions/1.md) -/
def Ctrl.reset : Ctrl :=
  { fill := 100, panic := false, tempC := 0, range := 0, lower := 0, readAt := 0 }

/-- The DRAM side: channels, controllers, the DIMM population and its ranks per channel, frames of T1 and T2, retired frames, serial
numbers of the stacks (key 0–7) and of the DIMM of each rank (key 8 + 4·channel + rank). -/
structure Dram where
  chans : Tbl Chan
  ctrls : Tbl Ctrl
  population : Option DimmKind
  ranks : Nat
  frames1 : Nat
  frames2 : Nat
  capFrames2 : Nat
  retired1 : List Nat
  retired2 : List Nat
  serials : Tbl Nat
  deriving DecidableEq, Repr

/-- The DRAM side at its reset values. (DESIGN CHOICE: notes/assumptions/1.md) -/
def Dram.reset : Dram :=
  { chans := [], ctrls := [], population := none, ranks := 1, frames1 := 0, frames2 := 0, capFrames2 := 0,
    retired1 := [], retired2 := [], serials := [] }

/-- States of a toffee-list entry (R206). -/
inductive ToffeeState where
  | counting | rewritten | hard
  deriving DecidableEq, Repr

/-- A toffee-list entry: the word is a crumb of a home (64·home block + crumb); `spared` once R209 has acted on it. -/
structure Toffee where
  word : Nat
  count : Nat
  time : Nat
  state : ToffeeState
  spared : Bool
  deriving DecidableEq, Repr

/-- What a repair-log entry records (R210). -/
inductive RepairKind where
  | softRow | remapRow | frame | sramRow | tile
  deriving DecidableEq, Repr

/-- An entry of the repair log, which lies in the boot flash: keyed by stack or by DIMM serial number. -/
structure Repair where
  kind : RepairKind
  tier : Tier
  unit : Nat
  serial : Nat
  bank : Nat
  row : Nat
  frame : Nat
  deriving DecidableEq, Repr

/-- TFL_LAST. -/
structure TflLast where
  action : Nat
  tier : Nat
  unit : Nat
  bank : Nat
  row : Nat
  frame : Nat
  deriving DecidableEq, Repr

/-- The patrol of one tier: next home block to read, passes done, when the pass began, lag and catch-up. -/
structure Patrol where
  active : Bool
  pos : Nat
  passes : Nat
  began : Nat
  lag : Nat
  catchup : Bool
  deriving DecidableEq, Repr

def Patrol.reset : Patrol := { active := false, pos := 0, passes := 0, began := 0, lag := 0, catchup := false }

/-- ICE_LAST_UE. -/
structure LastUe where
  cause : Nat
  tier : Nat
  detector : Nat
  owner : Nat
  block : Nat
  deriving DecidableEq, Repr

/-- Icing: patrols, self-test result, requests that panic defers (channel, request), recount in progress. -/
structure Ice where
  p1 : Patrol
  p2 : Patrol
  p3 : Patrol
  lastUe : LastUe
  testPass : Bool
  testDone : Bool
  expandersRemoved : Nat
  testFailed : Nat
  deferred : List (Nat × Nat)
  recount : Bool
  deriving DecidableEq, Repr

def Ice.reset : Ice :=
  { p1 := Patrol.reset, p2 := Patrol.reset, p3 := Patrol.reset, lastUe := ⟨0, 0, 0, 0, 0⟩, testPass := false,
    testDone := false, expandersRemoved := 0, testFailed := 0, deferred := [],
    recount := false }

/-- The toffee list, the row-remap tables (rows in use, numbered unit·2^23 + bank·2^18 + row) and the last sparing action. -/
structure Tfl where
  entries : List Toffee
  remap1 : List Nat
  remap2 : List Nat
  last : TflLast
  deriving DecidableEq, Repr

def Tfl.reset : Tfl := { entries := [], remap1 := [], remap2 := [], last := ⟨0, 0, 0, 0, 0, 0⟩ }

/-- The on-die arrays of Table 08-1 (R190): the placement map, the table store, the five control tables, the tray cache, the
tile stores and the data-path buffers. -/
inductive SramKind where
  | map | tables | contexts | groups | members | windows | votes | tray | tile | buffer
  deriving DecidableEq, Repr

/-- An error that sits in a word of an on-die array until it is read: whether it is uncorrectable, and whether the copy in T1
is so too (R192). Words are numbered as `sramWord` numbers them. -/
structure Upset where
  word : Nat
  ue : Bool
  copyUe : Bool
  deriving DecidableEq, Repr

/-- The on-die arrays: errors in them, spare rows in use of the map and of each control table (R211), words served from
their T1 copy since no spare row is left, tray-cache entries disabled, and whether the map or a control table has lost an
entry together with its copy. -/
structure Sram where
  upsets : List Upset
  spares : Tbl Nat
  fromCopy : List Nat
  trayDisabled : Nat
  lost : Bool
  deriving DecidableEq, Repr

def Sram.reset : Sram := { upsets := [], spares := [], fromCopy := [], trayDisabled := 0, lost := false }

/-- CVU_STATUS.STATE. -/
inductive CvuState where
  | idle | running | done | fault
  deriving DecidableEq, Repr

/-- A check-value unit: the check register that its last job left (before REFOUT and XOROUT), whether the running job
reads memory, what it still reads, CVU_STATUS and CVU_RESULT, and whether a parameter changed since the last job
(R220). -/
structure Cvu where
  state : CvuState
  reg : Nat
  memory : Bool
  ctx : Nat
  next : Nat
  left : Nat
  off : Nat
  reason : Nat
  result : Nat
  changed : Bool
  deriving DecidableEq, Repr

def Cvu.reset : Cvu :=
  { state := .idle, reg := 0, memory := false, ctx := 0, next := 0, left := 0, off := 0, reason := 0, result := 0,
    changed := false }

/-- What the ledger holds for a context (R225). -/
structure Resv where
  f1 : Nat
  f2 : Nat
  f3 : Nat
  b1 : Nat
  b2 : Nat
  b3 : Nat
  deriving DecidableEq, Repr

def Resv.zero : Resv := ⟨0, 0, 0, 0, 0, 0⟩

/-- RLG_LAST_REFUSAL (R470). -/
structure Refused where
  status : Nat
  ctrl : Nat
  requested : Nat
  headroom : Nat
  deriving DecidableEq, Repr

/-- Demand of one recipe stream (R235): its bandwidth, and the admission controller that each of its slabs counts
on; a slab's share moves with the slab (R237). -/
structure StreamDemand where
  handle : Nat
  stream : Nat
  bw : Nat
  homes : List (Nat × Nat)
  deriving DecidableEq, Repr

/-- The reservation ledger: reservations per context, demand of recipe streams, admission controllers found
over-admitted, and the scales reported last (controller, held, feedback). -/
structure Rlg where
  resv : Tbl Resv
  streams : List StreamDemand
  overCtrls : List Nat
  scales : Tbl (Nat × Nat)
  refusal : Refused
  deriving DecidableEq, Repr

def Rlg.reset : Rlg := { resv := [], streams := [], overCtrls := [], scales := [], refusal := ⟨0, 0, 0, 0⟩ }

/-- What the regulator knows of one master on one admission controller: throttle of R241 or empty bucket of R242, its
grant in the window (MB/s), bytes in its bucket, and the bytes delivered in each of the last 16 windows, newest first. -/
structure MasterWin where
  throttled : Bool
  grant : Nat
  tokens : Nat
  last16 : List Nat
  deriving DecidableEq, Repr

def MasterWin.reset : MasterWin := { throttled := false, grant := 0, tokens := 0, last16 := [] }

/-- The bandwidth regulator, keyed by 32·controller + master. -/
structure Bwr where
  wins : Tbl MasterWin
  deriving DecidableEq, Repr

def Bwr.reset : Bwr := { wins := [] }

/-- The power, pace and thermal unit: last pace and power samples, the voltage request, power of the last 10 ms (one
entry each 10 µs, newest first), runs of unanswered AVSBus transactions and of samples off the request, thermal actions
in force and the ceiling, the envelope in force, and the comparator claimed for its change (R255): the target, whether
its event has come, and samples since; the times at which pace last crossed the floor (R259), of the last voltage request (R250) and
of the last fall of the ceiling (R257). -/
structure Ppm where
  floorMbeat : Nat
  paceMin : Nat
  paceMean : Nat
  minSensor : Nat
  vreq : Nat
  senseMv : Nat
  watts : Nat
  window : List Nat
  unanswered : Nat
  offRun : Nat
  avsFault : Bool
  envExceeded : Bool
  shortfall : Bool
  warn : Bool
  hot : Bool
  stop : Bool
  ceil : Nat
  tj : Nat
  sensor : Nat
  stackMax : Nat
  envelope : Nat
  envCmp : Option Nat
  envNext : Nat
  envFired : Bool
  envSamples : Nat
  paceSince : Nat
  lastStep : Nat
  lastCeil : Nat
  deriving DecidableEq, Repr

def Ppm.reset : Ppm :=
  { floorMbeat := 0, paceMin := 0, paceMean := 0, minSensor := 0, vreq := 0, senseMv := 0, watts := 0, window := [],
    unanswered := 0, offRun := 0, avsFault := false, envExceeded := false, shortfall := false, warn := false, hot := false,
    stop := false, ceil := 780, tj := 0, sensor := 0, stackMax := 0, envelope := 1, envCmp := none, envNext := 1,
    envFired := false, envSamples := 0, paceSince := 0, lastStep := 0, lastCeil := 0 }

/-- SHT_STATUS.STATE. -/
inductive ShtState where
  | idle | loading | streaming | merging | draining | remapping | unavailable | frozen
  deriving DecidableEq, Repr

/-- A tile: failed cause (0 good), spare rows of its store, times of its transit faults and uncorrectable words,
corrected words. -/
structure Tile where
  cause : Nat
  spares : Nat
  transit : List Nat
  storeUe : List Nat
  corrected : Nat
  deriving DecidableEq, Repr

def Tile.reset : Tile := { cause := 0, spares := 4, transit := [], storeUe := [], corrected := 0 }

/-- SHT_FAULT_LAST. -/
structure SheetFault where
  cause : Nat
  row : Nat
  physCol : Nat
  logicalCol : Nat
  op : Nat
  ctx : Nat
  deriving DecidableEq, Repr

/-- The sheet: tiles (key 128·row + physical column), logical columns, scores that a BDOT left in the tile stores, with their format
(key 2^32·query + key index), the tables in the tiles' code caches (R102), tile stores still to be zeroed, a rebuild that
waits. -/
structure Sht where
  state : ShtState
  op : Nat
  elastic : Bool
  rtz : Bool
  ctx : Nat
  tiles : Tbl Tile
  tested : Bool
  edgeOk : Bool
  cols : Nat
  scores : Tbl Nat
  scoreFmt : OutFmt
  codeCache : List (Nat × List Byte)
  zeroing : Bool
  remapDue : Bool
  testArmed : Bool
  fault : SheetFault
  deriving DecidableEq, Repr

def Sht.reset : Sht :=
  { state := .unavailable, op := 0, elastic := false, rtz := false, ctx := 0, tiles := [], tested := false,
    edgeOk := false, cols := 0, scores := [], scoreFmt := .fp32, codeCache := [], zeroing := false, remapDue := false, testArmed := false,
    fault := ⟨0, 0, 0, 0, 0, 0⟩ }

/-- A loaded recipe: its image and binding, the context that owns it, the function that loaded it and the ring of its
run notices, its TAG, and whether an over-admitted controller refuses it (R239). -/
structure Recipe where
  img : Image
  bind : List Nat
  ctx : Nat
  fn : Nat
  ring : Nat
  tag : Nat
  refused : Bool
  deriving DecidableEq, Repr

/-- States of a run (Table 13-7). -/
inductive RunState where
  | armed | running | stalled | ending
  deriving DecidableEq, Repr

/-- A transfer in the step buffer. -/
structure Transfer where
  fport : Nat
  step : Nat
  data : List Byte
  deriving DecidableEq, Repr

/-- The one run that is armed, running or ending: its recipe, the RUN command on the lead or the device that leads it,
whether its start time is set, its step, whether its transfers were sent and its results written, the causes of Table 05-5
that its last attempt waited for (one bit each), the blocks that the step has read so far, in order, and how many of them the
current attempt has used, the table epoch of a read that waits for its data (R99), the schedule offset, a stall and its cause, the
comparator it holds, what its peers have answered and sent, and its outcome once it ends. -/
structure Run where
  handle : Nat
  state : RunState
  cmd : Option RingCmd
  lead : Option Nat
  fromStep : Nat
  step : Nat
  t0 : Option Nat
  startNs : Nat
  delta : Nat
  sent : Bool
  computed : Bool
  waiting : Nat
  waitSlab : Nat
  got : List (List Byte)
  pos : Nat
  asked : Option Nat
  stallAt : Nat
  cause : Nat
  cmp : Nat
  readyBy : List Nat
  armedAt : Nat
  heard : Tbl Nat
  adopted : Bool
  lowest : Nat
  buffer : List Transfer
  outcome : Status
  afterUnload : Bool
  waiters : List (RingCmd × Nat)
  deriving DecidableEq, Repr

/-- An ARM held back because the recipe it names is still loading (R307). -/
structure HeldArm where
  fport : Nat
  src : Nat
  group : Nat
  lead : Nat
  fromStep : Nat
  deriving DecidableEq, Repr

/-- RCP_LOAD_LAST. -/
structure LoadLast where
  status : Nat
  check : Nat
  index : Nat
  ctx : Nat
  deriving DecidableEq, Repr

/-- RCP_RUN_LAST. -/
structure RunLast where
  status : Nat
  handle : Nat
  endStep : Nat
  restart : Nat
  delta : Nat
  deriving DecidableEq, Repr

/-- A LOAD_RECIPE that waits for the floor target (R260). -/
structure LoadWait where
  r : RingCmd
  handle : Nat
  deriving DecidableEq, Repr

/-- The recipe unit. -/
structure Rcp where
  recipes : Tbl (Option Recipe)
  run : Option Run
  loads : List LoadWait
  arms : List HeldArm
  loadLast : LoadLast
  runLast : RunLast
  deriving DecidableEq, Repr

def Rcp.reset : Rcp :=
  { recipes := [], run := none, loads := [], arms := [], loadLast := ⟨0, 0, 0, 0⟩, runLast := ⟨0, 0, 0, 0, 0⟩ }

/-- A fabric grant (R345): FTB_GRANT_A, _B and _BW; `stale` once its drain has begun (R348). -/
structure Grant where
  rd : Bool
  wr : Bool
  stale : Bool
  remoteDev : Nat
  remoteCtx : Nat
  localCtx : Nat
  first : Nat
  length : Nat
  b1 : Nat
  b2 : Nat
  b3 : Nat
  deriving DecidableEq, Repr

/-- FPT_STATUS.STATE. -/
inductive FpState where
  | down | training | auth | time | up | authFailed | disabled
  deriving DecidableEq, Repr

/-- What IDENT said of a partner, with the root its certificate ended at (FPT_PARTNER). -/
structure Partner where
  dev : Nat
  accelerator : Bool
  decode : Bool
  rootEligible : Bool
  slots : Nat
  root : Nat
  cert : Nat
  deriving DecidableEq, Repr

def Partner.none : Partner :=
  { dev := 0, accelerator := false, decode := false, rootEligible := false, slots := 0, root := 0, cert := 0 }

/-- A port of the fabric: FPT_STATUS, the half that an x4 port went to, partner, NONCE of this end, failures in succession and the time at which a wait
ends, packets under the link keys and when they were set, codeword sequence numbers and replay, credits left per class
and VL (key 2·class + VL), times of recent tag failures and malformed packets, time exchanges done, the triple the
partner advertises (root, hops), packets queued behind credit, times of ERROR packets sent per source, and the classes
and VLs whose last queued packet to leave was a relayed one; since when a class and VL waits for credit, when bring-up and its present
step began, when the last TIME_SYNC was sent (plus one). -/
structure FPort where
  state : FpState
  reason : Nat
  lanes : Nat
  width : Nat
  half : Nat
  decode : Bool
  responder : Bool
  partner : Partner
  nonce : Option Nat
  spdmDone : Bool
  fails : Nat
  retryAt : Nat
  txPackets : Nat
  rxPackets : Nat
  keyedAt : Nat
  txSeq : Nat
  ackedSeq : Nat
  rxSeq : Nat
  nakOut : Bool
  replays : Nat
  credits : Tbl Nat
  tagFails : List Nat
  badPkts : List Nat
  syncs : Nat
  offer : Option (Nat × Nat)
  lastT2 : Nat
  lastT3 : Nat
  queued : List (Pkt × List Byte)
  errors : List (Nat × Nat)
  acksDue : List (Nat × Nat)
  turn : List Nat
  stalled : Tbl Nat
  trainAt : Nat
  stepAt : Nat
  syncAt : Nat
  deriving DecidableEq, Repr

def FPort.reset : FPort :=
  { state := .down, reason := 0, lanes := 0, width := 0, half := 0, decode := false, responder := false, partner := Partner.none,
    nonce := none, spdmDone := false, fails := 0, retryAt := 0, txPackets := 0, rxPackets := 0, keyedAt := 0,
    txSeq := 0, ackedSeq := 0, rxSeq := 0, nakOut := false, replays := 0, credits := [],
    tagFails := [], badPkts := [], syncs := 0, offer := none, lastT2 := 0, lastT3 := 0, queued := [], errors := [],
    acksDue := [], turn := [], stalled := [], trainAt := 0, stepAt := 0, syncAt := 0 }

/-- A route entry (FTB_ROUTE). -/
structure Route where
  valid : Bool
  altValid : Bool
  alt : Nat
  primary : Nat
  deriving DecidableEq, Repr

def Route.reset : Route := { valid := false, altValid := false, alt := 0, primary := 0 }

/-- The fabric time base beside the count itself (`State.now`): the time parent and what it advertises, lock and
holdover, the signed offset in picoseconds, the 8 fraction bits of the count and what it is still
to make up (both in 1/256 ns), event comparators with their set times, routes (pod entries 0–2,047, local entries from 4,096),
members by PROBE with the time of their answer, devices that PROBE goes to and when (plus one), status of the last grant
operation, and the requests that each port refused for each context (Table 02-4; key port times 2^20 plus context). -/
structure Ftb where
  parent : Option Nat
  rootId : Nat
  hops : Nat
  isRoot : Bool
  locked : Bool
  everLocked : Bool
  holdover : Option Nat
  offsetPs : Int
  frac : Nat
  owed : Nat
  good : Nat
  rejected : Nat
  cmps : Tbl (Option Nat)
  routes : Tbl Route
  members : Tbl Nat
  probes : List Nat
  probedAt : Tbl Nat
  grantStatus : Nat
  refused : Tbl Nat
  deriving DecidableEq, Repr

def Ftb.reset : Ftb :=
  { parent := none, rootId := 0, hops := 0, isRoot := false, locked := false, everLocked := false, holdover := none,
    offsetPs := 0, frac := 0, owed := 0, good := 0, rejected := 0, cmps := [], routes := [], members := [], probes := [], probedAt := [],
    grantStatus := 0, refused := [] }

/-- HIU_RING_STATUSn.STATE. -/
inductive RingState where
  | disabled | active | stopped | error
  deriving DecidableEq, Repr

/-- A command that a ring has started and not completed: its tag of a host read in flight, and its outcome when it
ended while the ring was STOPPED (R379). -/
structure RunCmd where
  cid : Nat
  op : Nat
  tag : Option Nat
  deriving DecidableEq, Repr

/-- One ring pair (R362): configuration, indices, phase, commands in progress, completions kept while STOPPED, and when
the first entry not yet signalled was posted. -/
structure Ring where
  state : RingState
  err : Nat
  sqBase : Nat
  cqBase : Nat
  sqLog : Nat
  cqLog : Nat
  intDelay : Nat
  vector : Nat
  sqHead : Nat
  sqTail : Nat
  cqHead : Nat
  cqTail : Nat
  phase : Bool
  running : List RunCmd
  kept : List Cpl
  unsignalled : Nat
  firstAt : Nat
  fetchTag : Option Nat
  enableWaits : Bool
  deriving DecidableEq, Repr

def Ring.reset : Ring :=
  { state := .disabled, err := 0, sqBase := 0, cqBase := 0, sqLog := 4, cqLog := 4, intDelay := 0, vector := 0,
    sqHead := 0, sqTail := 0, cqHead := 0, cqTail := 0, phase := true, running := [], kept := [], unsignalled := 0, firstAt := 0,
    fetchTag := none, enableWaits := false }

/-- How far a function is from answering (R356, R380). -/
inductive FnPhase where
  | retry | ready | inFlr
  deriving DecidableEq, Repr

/-- TDI states of a VF (R382). -/
inductive Tdi where
  | unlocked | locked | run | error
  deriving DecidableEq, Repr

/-- One function: configuration space, interrupts, event ring, TDI. -/
structure Func where
  phase : FnPhase
  bme : Bool
  d3hot : Bool
  numVfs : Nat
  vfEnable : Bool
  msix : Bool
  msi : Bool
  msiLog2 : Nat
  masked : List Nat
  pendingVec : List Nat
  intx : Bool
  ctoUs : Nat
  bars : Tbl Word
  tdi : Tdi
  aer : List Nat
  evtBase : Nat
  evtOn : Bool
  evtOverflow : Bool
  evtVector : Nat
  evtLog : Nat
  evtHead : Nat
  evtIdx : Nat
  evtPhase : Bool
  ctxGen : Nat
  ctxIndex : Nat
  deriving DecidableEq, Repr

/-- The function at its reset values. (DESIGN CHOICE: notes/assumptions/1.md) -/
def Func.reset : Func :=
  { phase := .retry, bme := false, d3hot := false, numVfs := 0, vfEnable := false, msix := false, msi := false,
    msiLog2 := 0, masked := [], pendingVec := [], intx := false, ctoUs := 50000, bars := [], tdi := .unlocked,
    aer := [], evtBase := 0, evtOn := false, evtOverflow := false, evtVector := 0, evtLog := 7,
    evtHead := 0, evtIdx := 0, evtPhase := true, ctxGen := 0, ctxIndex := 0 }

/-- What a tag of a port stands for: a ring fetch, the data of a command, a request of a function since reset
(R381), or quarantine (R376). -/
inductive TagUse where
  | fetch (fn ring : Nat)
  | cmd (r : RingCmd)
  | orphan (fn : Nat)
  | quarantine
  deriving DecidableEq, Repr

/-- HIU_LINK.STATE. -/
inductive LinkState where
  | detect | training | l0 | l0p | recovery | disabled | inReset | failed
  deriving DecidableEq, Repr

/-- One record of the CXL event log (Table 15-13): the log (0 informational, 1 warning, 2 failure, 3 fatal) and the
DPA when the block lies in a partition of the port. -/
structure CxlRec where
  log : Nat
  dpa : Option Nat
  time : Nat
  deriving DecidableEq, Repr

/-- One host port; each tag has the time at which its read was issued, or its quarantine began. -/
structure HPort where
  link : LinkState
  width : Nat
  speed : Nat
  flit : Bool
  cxl : Bool
  memActive : Bool
  perst : Bool
  tags : Tbl TagUse
  tagAt : Tbl Nat
  ide : List Nat
  aptPf : Nat
  aptVf : Nat
  evLog : List CxlRec
  evPolicy : Nat
  timestamp : Nat
  hdm : List (Nat × Nat × Nat × Bool)
  memTimeoutS : Nat
  deviceFatal : Bool
  deriving DecidableEq, Repr

def HPort.reset : HPort :=
  { link := .detect, width := 0, speed := 0, flit := false, cxl := false, memActive := false, perst := true,
    tags := [], tagAt := [], ide := [], aptPf := 36, aptVf := 30, evLog := [], evPolicy := 0, timestamp := 0, hdm := [],
    memTimeoutS := 16, deviceFatal := false }

/-- The host interface: functions and rings (ring n of function f under key 16·f + n) and the two ports. -/
structure Hiu where
  fns : Tbl Func
  rings : Tbl Ring
  p0 : HPort
  p1 : HPort
  deriving DecidableEq, Repr

def Hiu.reset : Hiu := { fns := [], rings := [], p0 := HPort.reset, p1 := HPort.reset }

/-- States of a control core (CCX_CORE_INFO). -/
inductive CoreState where
  | online | restarting | retired
  deriving DecidableEq, Repr

/-- A control core: times of its restarts, last cause, restarts since device reset. -/
structure Core where
  state : CoreState
  recent : List Nat
  lastCause : Nat
  restarts : Nat
  deriving DecidableEq, Repr

def Core.reset : Core := { state := .online, recent := [], lastCause := 0, restarts := 0 }

/-- States of a firmware slot (CCX_SLOTn). -/
inductive SlotState where
  | empty | valid | active | staged | trial | failed
  deriving DecidableEq, Repr

/-- A firmware slot: its image's version, security version, key and revocation, failed trials. -/
structure FwSlot where
  state : SlotState
  version : Nat
  svn : Nat
  keyIndex : Nat
  revokes : Option Nat
  trials : Nat
  deriving DecidableEq, Repr

def FwSlot.reset : FwSlot := { state := .empty, version := 0, svn := 0, keyIndex := 0, revokes := none, trials := 0 }

/-- The control complex: cores, error log (oldest first, at most 220 records), firmware slots and staging. -/
structure Ccx where
  cores : Tbl Core
  supState : Nat
  log : List Evt
  logNext : Nat
  wrapped : Bool
  fromCrash : Nat
  slotA : FwSlot
  slotB : FwSlot
  activeB : Bool
  nextB : Bool
  result : Nat
  busy : Bool
  stager : Nat
  fallback : Bool
  trial : Bool
  uart : List Byte
  deriving DecidableEq, Repr

/-- The control complex at its reset values. (DESIGN CHOICE: notes/assumptions/1.md) -/
def Ccx.reset : Ccx :=
  { cores := [], supState := 0, log := [], logNext := 0, wrapped := false, fromCrash := 0, slotA := FwSlot.reset,
    slotB := FwSlot.reset, activeB := false, nextB := false, result := 0, busy := false, stager := 0,
    fallback := false, trial := false, uart := [] }

/-- States of the safe-state sequencer. -/
inductive SssState where
  | watch | takingOver | safe
  deriving DecidableEq, Repr

/-- The safe-state sequencer. -/
structure Sss where
  state : SssState
  cause : Nat
  second : Nat
  time : Nat
  crashSaved : Bool
  fault : Bool
  trialReset : Bool
  resetAsked : Bool
  deriving DecidableEq, Repr

def Sss.reset : Sss :=
  { state := .watch, cause := 0, second := 0, time := 0, crashSaved := false, fault := false, trialReset := false,
    resetAsked := false }

/-- Key-slot states (SEC_KEY_RESULT.SLOT_STATE). -/
inductive KeyState where
  | free | empty | loaded | bound
  deriving DecidableEq, Repr

/-- A key slot: its port, the key (64 bytes once loaded), and a destruction in progress. -/
structure KeySlot where
  state : KeyState
  port : Nat
  key : List Byte
  dying : Bool
  deriving DecidableEq, Repr

def KeySlot.reset : KeySlot := { state := .free, port := 0, key := [], dying := false }

/-- A debug grant in force: whose port, the time it ends, its signer and lifetime. -/
structure DebugGrant where
  port : Nat
  ends : Nat
  signer : Nat
  lifetime : Nat
  deriving DecidableEq, Repr

/-- The security engine: key slots, command result, import key (numbered as a free value), trust store as read, its
result, the nonce last read, the debug grant. -/
structure Sec where
  keys : Tbl KeySlot
  result : Nat
  done : Bool
  slot : Nat
  slotState : Nat
  importKey : Nat
  trust : List Byte
  trustResult : Nat
  nonce : Option Nat
  nonceUsed : Bool
  grant : Option DebugGrant
  grantAddr : Nat
  deriving DecidableEq, Repr

/-- The security engine at its reset values. (DESIGN CHOICE: notes/assumptions/1.md) -/
def Sec.reset : Sec :=
  { keys := [], result := 0, done := true, slot := 0, slotState := 0, importKey := 0, trust := [], trustResult := 0,
    nonce := none, nonceUsed := false, grant := none, grantAddr := 0 }

/-- Lifecycle states (LCC_STATE.STATE). -/
inductive Life where
  | blank | manufactured | provisioned | field | returned | scrapped
  deriving DecidableEq, Repr

/-- What the one-time fuses hold: lifecycle state, transitions made, owner slot and the owner key hashes of slots 1–4,
WIPE_DUE, MIN_SVN, TRUST_MIN, revoked firmware keys, and whether the key seeds exist. -/
structure Otp where
  life : Life
  transitions : Nat
  ownerSlot : Nat
  owners : List (List Byte)
  wipeDue : Bool
  minSvn : Nat
  trustMin : Nat
  revoked : List Nat
  seeds : Bool
  deriving DecidableEq, Repr

/-- The one-time fuses at its reset values. (DESIGN CHOICE: notes/assumptions/1.md) -/
def Otp.reset : Otp :=
  { life := .blank, transitions := 0, ownerSlot := 0, owners := [], wipeDue := false, minSvn := 0, trustMin := 0,
    revoked := [], seeds := false }

/-- The lifecycle controller: a token being checked, the pending transition with the owner hash it writes, progress of
the lifecycle wipe. -/
structure Lcc where
  busy : Bool
  two : Bool
  submitter : Nat
  result : Nat
  pending : Option (Life × List Byte)
  wiping : Bool
  wipe1 : Nat
  wipe2 : Nat
  wipe3 : Nat
  deriving DecidableEq, Repr

/-- The lifecycle controller at its reset values. (DESIGN CHOICE: notes/assumptions/1.md) -/
def Lcc.reset : Lcc :=
  { busy := false, two := false, submitter := 0, result := 0, pending := none, wiping := false, wipe1 := 0, wipe2 := 0,
    wipe3 := 0 }

/-- The configuration record's defaults (Table 18-6). -/
def bootCfgDefault : BootCfg :=
  { subVendor := 0, subId := 0, pfApt0 := 36, pfApt1 := 36, vfApt0 := 30, vfApt1 := 30, perstBoth := false,
    deviceIdValid := false, rootEligible := false, smbAddr := 0x62, electrical := 0x955, deviceId := 0, parts := [] }

/-- What outlives a device reset in the boot flash beside the firmware slots and the trust store (crash record, repair
log, cores retired), the configuration read at this start, the reset cause and count, whether the device stands still
(before PWR_OK rises, after it fell, or at a step of the power-on sequence that failed), and whether an outcome of
Table 08-7 enables no memory. -/
structure Boot where
  cfg : BootCfg
  crash : Option (Nat × List Evt)
  repairs : List Repair
  coresRetired : List Nat
  cause : Nat
  coldCount : Nat
  halted : Bool
  noMemory : Bool
  deriving DecidableEq, Repr

/-- The boot flash and start at its reset values. (DESIGN CHOICE: notes/assumptions/1.md) -/
def Boot.reset : Boot :=
  { cfg := bootCfgDefault, crash := none, repairs := [], coresRetired := [], cause := 0, coldCount := 0,
    halted := true, noMemory := false }

/-- Who uses a shared resource (TMX_CLAIM_TABLEn.USER). -/
inductive User where
  | none | rcpRun | ppmEnvelope | refreshTimer | ppu | cvuScan | traceTrigger | gpio | tmux | traceCapture | sss
  deriving DecidableEq, Repr

/-- An entry of the claim table (Table 19-1): `tap` when the claim was taken through JTAG. -/
structure ClaimRec where
  owner : Owner
  port : Nat
  user : User
  ctx : Nat
  tap : Bool
  deriving DecidableEq, Repr

def ClaimRec.free : ClaimRec := { owner := .free, port := 0, user := .none, ctx := 0, tap := false }

/-- TMX_TRACE_STATUS.STATE. -/
inductive TraceState where
  | idle | armed | capturing | done
  deriving DecidableEq, Repr

/-- Claims, multiplexer, trace buffer and test access port. Resources are keyed 0–18. -/
structure Tmx where
  claims : Tbl ClaimRec
  resultStatus : Nat
  resultResource : Nat
  muxSel : Nat
  muxArg : Nat
  traceState : TraceState
  traceMode : Nat
  traceWrap : Bool
  trigCmp : Option Nat
  wrapped : Bool
  records : List (List Byte)
  readPos : Nat
  tapIr : JtagInstr
  tapOwner : Owner
  testEntered : Bool
  resetDue : Bool
  deriving DecidableEq, Repr

def Tmx.reset : Tmx :=
  { claims := [], resultStatus := 0, resultResource := 0, muxSel := 0, muxArg := 0, traceState := .idle,
    traceMode := 0, traceWrap := false, trigCmp := none, wrapped := false, records := [], readPos := 0,
    tapIr := .idcode, tapOwner := .free, testEntered := false, resetDue := false }

/-- DEV_OPERATING_PROFILE (R16): the fields' codes, and the state of the last write. -/
structure Profile where
  split : Nat
  determinism : Nat
  compression : Nat
  envelope : Nat
  placement : Nat
  flashUse : Nat
  deriving DecidableEq, Repr

/-- The profile's reset values (DEV_OPERATING_PROFILE's field table). -/
def Profile.reset : Profile := ⟨1, 0, 1, 1, 0, 0⟩

/-- DEV_PROFILE_STATUS.STATE. -/
inductive ProfState where
  | applied | inProgress | refused
  deriving DecidableEq, Repr

/-- The DEV unit: profile in force, the profile being applied and its outcome, identity (R2). -/
structure Dev where
  profile : Profile
  target : Profile
  state : ProfState
  refusedField : Nat
  reason : Nat
  vendorId : Nat
  deviceId : Nat
  stepping : Nat
  part : Nat
  serial : Nat
  subsystem : Nat
  memEnabled : Bool
  powered : Bool
  deriving DecidableEq, Repr

/-- The DEV unit at its reset values. (DESIGN CHOICE: notes/assumptions/1.md) -/
def Dev.reset : Dev :=
  { profile := Profile.reset, target := Profile.reset, state := .applied, refusedField := 0, reason := 0,
    vendorId := 0, deviceId := 0x7200, stepping := 2, part := 0, serial := 0, subsystem := 0, memEnabled := false, powered := false }

/-- Text of the firmware console (R441): a boot step, the reset of the unit of a page, a restored crash record with its cause. The
wording is not modelled. (DESIGN CHOICE: notes/assumptions/91.md) -/
inductive Console where
  | bootStep (n : Nat)
  | unitReset (page : Nat)
  | crashRestored (cause : Nat)
  deriving DecidableEq, Repr

/-- What the block has put on its ports, oldest first in `State.sent`: completion entries, event records, interrupts,
answers to accesses, host-memory writes and error reports. -/
inductive Output where
  | completion (fn ring : Nat) (c : Cpl)
  | eventRecord (fn index : Nat) (phase : Bool) (e : Evt)
  | interrupt (fn vector : Nat) (kind : IntKind)
  | cxlData (port dpa : Nat) (data : List Byte)
  | cxlPoison (port dpa : Nat)
  | cxlWriteDone (port dpa : Nat) (stored : Bool)
  | barData (fn off : Nat) (data : List Byte)
  | barResp (fn off : Nat) (resp : Resp)
  | barWriteDone (fn off : Nat)
  | config (fn value : Nat)
  | configResp (fn : Nat) (resp : Resp)
  | hostWrite (fn addr : Nat) (data : List Byte)
  | aer (port : Nat) (sev : Sev)
  | ready (fn : Nat)
  | readData (page off : Nat) (value : Nat)
  | mailbox (port code : Nat) (data : List Nat)
  | doe (fn : Nat) (served : Bool) (data : List Nat)
  | tdisp (fn : Nat) (served : Bool)
  | packet (fport : Nat) (p : Pkt) (data : List Byte)
  | linkCtl (fport : Nat) (msg : LinkMsg)
  | hello (fport : Nat) (nonce : Nat)
  | spdmLink (fport : Nat) (msg : SpdmMsg)
  | voltage (mv : Nat)
  | tdo (value : Nat)
  | pins (faultN thermN : Bool)
  | console (text : Console)
  deriving DecidableEq, Repr

/-- The block: what waits for it, what it has sent, the count that numbers its free values, memory (home bytes by
physical address, unlisted 0; descriptors and planted errors by home block), register pages, counters, and its
units. -/
structure State where
  pending : List Instr
  sent : List Output
  draws : Nat
  mem : List Host.Cell
  descs : Tbl Desc
  plants : Tbl Plant
  regs : Tbl Word
  pages : Tbl Page
  cnts : Tbl Nat
  snaps : Tbl Nat
  now : Nat
  router : List Evt
  dev : Dev
  hiu : Hiu
  ple : Ple
  rlg : Rlg
  bwr : Bwr
  cdc : Cdc
  ppu : Ppu
  mge : Mge
  fmg : Fmg
  dram : Dram
  ice : Ice
  tfl : Tfl
  sram : Sram
  cvus : Tbl Cvu
  checks : List RingCmd
  tmx : Tmx
  grants : Tbl (Option Grant)
  ppm : Ppm
  sht : Sht
  rcp : Rcp
  fports : Tbl FPort
  ftb : Ftb
  ccx : Ccx
  sss : Sss
  sec : Sec
  otp : Otp
  lcc : Lcc
  boot : Boot
  deriving DecidableEq, Repr

/-- The block right after reset. (DESIGN CHOICE: notes/assumptions/1.md, DESIGN CHOICE: notes/assumptions/4.md) -/
def State.reset : State :=
  { pending := [], sent := [], draws := 0, mem := [], descs := [], plants := [], regs := [], pages := [], cnts := [],
    snaps := [], now := 0, router := [], dev := Dev.reset, hiu := Hiu.reset, ple := Ple.reset, rlg := Rlg.reset,
    bwr := Bwr.reset, cdc := Cdc.reset, ppu := Ppu.reset, mge := Mge.reset, fmg := Fmg.reset, dram := Dram.reset,
    ice := Ice.reset, tfl := Tfl.reset, sram := Sram.reset, cvus := [], checks := [], tmx := Tmx.reset, grants := [], ppm := Ppm.reset,
    sht := Sht.reset, rcp := Rcp.reset, fports := [], ftb := Ftb.reset, ccx := Ccx.reset, sss := Sss.reset,
    sec := Sec.reset, otp := Otp.reset, lcc := Lcc.reset, boot := Boot.reset }

end Sys2Proof.Machine
end

