-- ==== Sys2Proof/Machine/Store.lean ====
section
/-! DEFINITION. Sys2Proof/Machine/Store.lean: the one sparse table that memory, registers, counters and every
other large table of the block are kept in, in canonical form. -/

namespace Sys2Proof.Machine

/-- The entry listed for `k`, if one is. -/
def tfind {α : Type} : Tbl α → Nat → Option α
  | [], _ => none
  | (k', v) :: t, k => if k = k' then some v else if k < k' then none else tfind t k

/-- What the table holds for `k`: its listed entry, else the default `d`. -/
def tget {α : Type} (d : α) (t : Tbl α) (k : Nat) : α := (tfind t k).getD d

/-- List `v` for `k`, replacing an entry already there. -/
def tins {α : Type} : Tbl α → Nat → α → Tbl α
  | [], k, v => [(k, v)]
  | (k', v') :: t, k, v =>
    if k < k' then (k, v) :: (k', v') :: t
    else if k = k' then (k, v) :: t
    else (k', v') :: tins t k v

/-- Drop the entry listed for `k`. -/
def tdel {α : Type} : Tbl α → Nat → Tbl α
  | [], _ => []
  | (k', v') :: t, k =>
    if k < k' then (k', v') :: t
    else if k = k' then t
    else (k', v') :: tdel t k

/-- Store `v` for `k`: writing the default removes the entry, so the form stays canonical. -/
def tput {α : Type} [DecidableEq α] (d : α) (t : Tbl α) (k : Nat) (v : α) : Tbl α :=
  if v = d then tdel t k else tins t k v

/-- Every listed key is at least `lo` and keys rise strictly. -/
def trising {α : Type} : Nat → Tbl α → Bool
  | _, [] => true
  | lo, (k, _) :: t => decide (lo ≤ k) && trising (k + 1) t

/-- The canonical form: keys strictly rising and no entry equal to the default. -/
def twf {α : Type} [DecidableEq α] (d : α) (t : Tbl α) : Bool :=
  trising 0 t && t.all (fun p => decide (p.2 ≠ d))

/-- Drop every entry whose key fails `p`. -/
def tkeep {α : Type} (p : Nat → Bool) (t : Tbl α) : Tbl α := t.filter (fun e => p e.1)

/-- Change every listed entry by `f`; an entry that becomes the default is dropped. -/
def tmap {α : Type} [DecidableEq α] (d : α) (f : Nat → α → α) (t : Tbl α) : Tbl α :=
  (t.map (fun e => (e.1, f e.1 e.2))).filter (fun e => decide (e.2 ≠ d))

/-- Values at rising keys from `k`, without those that equal the default. -/
def tcells {α : Type} [DecidableEq α] (d : α) : Nat → List α → Tbl α
  | _, [] => []
  | k, v :: vs => if v = d then tcells d (k + 1) vs else (k, v) :: tcells d (k + 1) vs

/-- Store a run of values at rising keys from `k`. -/
def tputs {α : Type} [DecidableEq α] (d : α) (t : Tbl α) (k : Nat) (vs : List α) : Tbl α :=
  t.filter (fun e => decide (e.1 < k)) ++ (tcells d k vs ++ t.filter (fun e => decide (k + vs.length ≤ e.1)))

/-- The `n` values held from key `k` on, of a table with no key below `k`. -/
def tread {α : Type} (d : α) : Tbl α → Nat → Nat → List α
  | _, _, 0 => []
  | [], k, n + 1 => d :: tread d [] (k + 1) n
  | (k', v) :: t, k, n + 1 => if k = k' then v :: tread d t (k + 1) n else d :: tread d ((k', v) :: t) (k + 1) n

/-- The `n` values held from key `k` on. -/
def tgets {α : Type} (d : α) (t : Tbl α) (k n : Nat) : List α := tread d (tkeep (fun j => decide (k ≤ j) && decide (j < k + n)) t) k n

/-- The keys of the entries that satisfy `p`, in rising order. -/
def tkeys {α : Type} (p : Nat → α → Bool) (t : Tbl α) : List Nat :=
  (t.filter (fun e => p e.1 e.2)).map (·.1)

/-- The lowest key at or above `k`, below `k + fuel`, that is not listed. -/
def tfree {α : Type} (t : Tbl α) (k : Nat) : Nat → Option Nat
  | 0 => none
  | n + 1 => if (tfind t k).isNone then some k else tfree t (k + 1) n

end Sys2Proof.Machine
end

