-- ==== Sys2Proof/Machine/Flags.lean ====
section
/-! DEFINITION. Sys2Proof/Machine/Flags.lean: register pages as state: header, event bits, LAST_ERR_INFO, counters, and
the raising of events (R447, R448, R451, R387). -/

namespace Sys2Proof.Machine

/-- The header of page `p`. -/
def pageHdr (s : State) (p : Nat) : Page := tget Page.reset s.pages p

def setPage (p : Nat) (v : Page) (s : State) : State := { s with pages := tput Page.reset s.pages p v }

def modPage (p : Nat) (f : Page → Page) (s : State) : State := setPage p (f (pageHdr s p)) s

/-- The stored word of the register at offset `off` of page `p`; its reset value until it is written. -/
def reg (s : State) (p off : Nat) : Word := tget (regReset p off) s.regs (regKey p off)

def setReg (p off : Nat) (w : Word) (s : State) : State :=
  { s with regs := tput (regReset p off) s.regs (regKey p off) w }

/-- A field of a stored register. -/
def fld (s : State) (p off hi lo : Nat) : Nat := bits (reg s p off) hi lo

def flag (s : State) (p off i : Nat) : Bool := bitOf (reg s p off) i

/-- The counter at offset `off` of page `p` (64 bits). -/
def counter (s : State) (p off : Nat) : Nat := tget 0 s.cnts (regKey p off)

/-- A counter raised by `n`, modulo 2^64. -/
def countBy (p off n : Nat) (s : State) : State :=
  { s with cnts := tput 0 s.cnts (regKey p off) ((counter s p off + n) % 2 ^ 64) }

def count (p off : Nat) (s : State) : State := countBy p off 1 s

/-- A counter that holds a maximum. -/
def countMax (p off n : Nat) (s : State) : State :=
  { s with cnts := tput 0 s.cnts (regKey p off) (max (counter s p off) n) }

/-- A write ignored under the owner rule is counted in IGNORED_WRITES, saturating (R448). -/
def ignoreWrite (p : Nat) (s : State) : State :=
  modPage p (fun h => { h with ignored := satAdd (2 ^ 32 - 1) h.ignored 1 }) s

/-- Event bit numbers of EVT_RAW, EVT_MASK and EVT_PEND. -/
def sevBit : Sev → Nat
  | .corrected => 0 | .deferred => 1 | .contained => 2 | .fatal => 3

/-- Set bit `i` in EVT_RAW, and in EVT_PEND when it is not masked (R447). -/
def setEvtBit (i : Nat) (h : Page) : Page :=
  let b : BitVec 6 := BitVec.ofNat 6 (2 ^ i)
  { h with evtRaw := h.evtRaw ||| b, evtPend := h.evtPend ||| (b &&& ~~~ h.evtMask) }

/-- KIND codes of LAST_ERR_INFO. -/
def kindRefusedValue : Nat := 1
def kindExpertLocked : Nat := 2
def kindBadUnlock : Nat := 3
def kindRefusedState : Nat := 4
def kindUnitError : Nat := 5

/-- Record a refusal in LAST_ERR_INFO and its event bit (R448). -/
def noteErr (p kind : Nat) (st : Status) (off fn : Nat) (s : State) : State :=
  modPage p (fun h => setEvtBit 4 { h with lastErr := ⟨st.code, kind, off, fn % 4096⟩ }) s

/-- Errors detected in a unit's own memory (ERR_CNT_CORR, ERR_CNT_UNCORR; saturating). -/
def errCorr (p : Nat) (s : State) : State :=
  modPage p (fun h => { h with errCorr := satAdd (2 ^ 32 - 1) h.errCorr 1 }) s

def errUncorr (p : Nat) (s : State) : State :=
  modPage p (fun h => { h with errUncorr := satAdd (2 ^ 32 - 1) h.errUncorr 1 }) s

/-- Context field of an event that concerns none. -/
def noCtx : Nat := 0xFFFFF

/-- Page `p` raises an event: its bit is set and the event goes to the router (R447, R387). -/
def raise (p : Nat) (code : Status) (sev : Sev) (cause ctx block detail : Nat) (dests : List Nat)
    (integrity : Bool) (s : State) : State :=
  let e : Evt :=
    { code := code, sev := sev, cause := cause, ctx := ctx, block := block, time := s.now, page := p,
      detail := detail, dests := dests, integrity := integrity }
  let t := modPage p (setEvtBit (sevBit sev)) s
  { t with router := t.router ++ [e] }

/-- Copy every counter of a page into its snapshot registers (R451). -/
def takeSnapshot (p : Nat) (s : State) : State :=
  let lo := regKey p 0
  let keep := tkeep (fun k => decide (k < lo) || decide (lo + 4096 ≤ k)) s.snaps
  let mine := tkeep (fun k => decide (lo ≤ k) && decide (k < lo + 4096)) s.cnts
  modPage p (fun h => { h with seq := (h.seq + 1) % 65536 })
    { s with snaps := mine.foldl (fun t e => tput 0 t e.1 e.2) keep }

/-- Put something on the block's ports. (DESIGN CHOICE: notes/assumptions/4.md) -/
def emit (o : Output) (s : State) : State := { s with sent := s.sent ++ [o] }

/-- The next number for a free value. (DESIGN CHOICE: notes/assumptions/4.md) -/
def draw (s : State) : Nat × State := (s.draws, { s with draws := s.draws + 1 })

end Sys2Proof.Machine
end

