-- ==== Sys2Proof/Machine/Ops.lean ====
section
/-! DEFINITION. Sys2Proof/Machine/Ops.lean: the shared operations of the meanings: functions and ports, page ownership,
interrupts, ring commands and their completions, shared claims. -/

namespace Sys2Proof.Machine

/-! Functions and ports -/

/-- Host port of a function number (bit 11). -/
def fnPort (f : Nat) : Nat := f / 2048

/-- Bits 10:0 of the number of a PF are 0. -/
def isPf (f : Nat) : Bool := decide (f % 2048 = 0)

/-- The PF of a port. -/
def pfOf (port : Nat) : Nat := 2048 * port

/-- The PFs of both ports. -/
def pfs : List Nat := [pfOf 0, pfOf 1]

def func (s : State) (f : Nat) : Func := tget Func.reset s.hiu.fns f

def setFunc (f : Nat) (v : Func) (s : State) : State :=
  { s with hiu := { s.hiu with fns := tput Func.reset s.hiu.fns f v } }

def modFunc (f : Nat) (g : Func → Func) (s : State) : State := setFunc f (g (func s f)) s

def hport (s : State) (port : Nat) : HPort := if port = 0 then s.hiu.p0 else s.hiu.p1

def setHport (port : Nat) (v : HPort) (s : State) : State :=
  if port = 0 then { s with hiu := { s.hiu with p0 := v } } else { s with hiu := { s.hiu with p1 := v } }

def modHport (port : Nat) (g : HPort → HPort) (s : State) : State := setHport port (g (hport s port)) s

/-- A tag of a port is free again. -/
def dropTag (port t : Nat) (s : State) : State := modHport port (fun h => { h with tags := tdel h.tags t, tagAt := tput 0 h.tagAt t 0 }) s

/-- A tag goes to quarantine. (DEDUCED: notes/assumptions/64.md) -/
def quarantineTag (port t : Nat) (s : State) : State :=
  modHport port (fun h => { h with tags := tins h.tags t .quarantine, tagAt := tput 0 h.tagAt t s.now }) s

/-- The context list of a function changed (VF_CTX_COUNT.GEN). -/
def bumpGen (f : Nat) (s : State) : State := modFunc f (fun u => { u with ctxGen := (u.ctxGen + 1) % 65536 }) s

/-- The device runs: no safe state (R393, R394) and PWR_OK has not fallen (R427). -/
def awake (s : State) : Bool := decide (s.sss.state = .watch) && !s.boot.halted

/-- A happening inside the device takes place only while it runs. -/
def whenAwake (s : State) (f : State → State) : State := if awake s then f s else s

/-- A happening of the hardware that goes on in SAFE state (Table 16-4, step 6) takes place unless PWR_OK has fallen. -/
def whenPowered (s : State) (f : State → State) : State := if s.boot.halted then s else f s

/-- The port's link carries requests. -/
def portUp (s : State) (port : Nat) : Bool :=
  match (hport s port).link with
  | .l0 | .l0p => true
  | _ => false

/-- The function exists: a PF, or a VF from 1 to NumVFs of a port with VF Enable set (R355). -/
def fnExists (s : State) (f : Nat) : Bool :=
  decide (f < 4096) &&
    (isPf f || ((func s (pfOf (fnPort f))).vfEnable && decide (f % 2048 ≤ (func s (pfOf (fnPort f))).numVfs)))

/-- The function takes part in traffic: its port is up and it is not in FLR (step 1 of R49). -/
def fnLive (s : State) (f : Nat) : Bool :=
  fnExists s f && portUp s (fnPort f) && decide ((func s f).phase ≠ .inFlr)

/-! Register pages -/

/-- Writer `w` holds the claim of page `p` (R430, R432, R446). (DEDUCED: notes/assumptions/18.md) -/
def holdsPage (s : State) (w p : Nat) : Bool :=
  let h := pageHdr s (claimPage p)
  isPf w && decide (h.owner = .pf) && decide (h.port = fnPort w)

/-- A register write to page `p` from function `w` reaches the page: a ready PF in D0 on a port that is up. An access of `w`
discards a low half that it left held (R444). -/
def reaches (s : State) (w p : Nat) : Bool :=
  awake s && isPf w && decide (w < 4096) && portUp s (fnPort w) && decide ((func s w).phase = .ready) && !(func s w).d3hot &&
    (pageOf p).isSome

/-- The halves that a writer left held at a page are dropped. (DESIGN CHOICE: notes/assumptions/19.md) -/
def dropHalf (w p : Nat) (s : State) : State :=
  modPage p (fun h => { h with halves := h.halves.filter (fun x => decide (x.fn ≠ w)) }) s

/-- A register command of writer `w` at page `p` under the page's owner rule: unreachable, nothing happens; not the
claim holder, ignored and counted. -/
def ownedWrite (w p : Nat) (body : State → State) (s : State) : State :=
  if reaches s w p then
    let t := dropHalf w p s
    if holdsPage t w p then body t else ignoreWrite p t
  else s

/-- A write of an expert register (R21): ignored and recorded while the page is locked. -/
def expertGate (w p off : Nat) (body : State → State) (s : State) : State :=
  ownedWrite w p (fun s =>
    if (pageHdr s p).unlocked then body s else noteErr p kindExpertLocked .accessDenied off w s) s

/-! Interrupts (R360) -/

def interrupt (f vector : Nat) (s : State) : State :=
  let u := func s f
  if !u.bme then s
  else if u.msix then
    if u.masked.contains vector then
      modFunc f (fun v => { v with pendingVec := if v.pendingVec.contains vector then v.pendingVec
                                                 else vector :: v.pendingVec }) s
    else emit (.interrupt f vector .msix) s
  else if !isPf f then s
  else if u.msi then emit (.interrupt f (vector % 2 ^ u.msiLog2) .msi) s
  else emit (.interrupt f 0 .intx) (modFunc f (fun v => { v with intx := true }) s)

/-! Answers to accesses (Table 15-18) -/

/-- Poisoned MemData. -/
def poisonCxl (port dpa : Nat) (s : State) : State := emit (.cxlPoison port dpa) (count (Pg.hiu + port) 0xE20 s)

/-- An aperture request is answered without data. -/
def answerBar (fn off : Nat) (r : Resp) (s : State) : State :=
  let n := Pg.hiu + fnPort fn
  emit (.barResp fn off r) (match r with
    | .ur => count n 0xE10 s
    | .ca => count n 0xE18 s
    | .poison => count n 0xE20 s
    | _ => s)

/-- Conditions noted in a function's error reporting: a request answered UR, CA or poisoned, Completion Timeout,
Unexpected Completion, Corrected Internal Error, Uncorrectable Internal Error non-fatal and fatal; a refused posted write is
noted by its status code. -/
def aerUr := 1
def aerCa := 2
def aerPoison := 3
def aerTimeout := 4
def aerUnexpected := 5
def aerCorrected := 6
def aerInternal := 7
def aerFatal := 8

def noteAer (fn cond : Nat) (s : State) : State := modFunc fn (fun u => { u with aer := u.aer ++ [cond] }) s

/-! Command rings (R362 – R365, R471) -/

def ringKey (f n : Nat) : Nat := 16 * f + n

def ringOf (s : State) (f n : Nat) : Ring := tget Ring.reset s.hiu.rings (ringKey f n)

def setRing (f n : Nat) (v : Ring) (s : State) : State :=
  { s with hiu := { s.hiu with rings := tput Ring.reset s.hiu.rings (ringKey f n) v } }

def modRing (f n : Nat) (g : Ring → Ring) (s : State) : State := setRing f n (g (ringOf s f n)) s

def sqSize (q : Ring) : Nat := 2 ^ q.sqLog
def cqSize (q : Ring) : Nat := 2 ^ q.cqLog

/-- Completion entries posted and not yet taken by the driver. -/
def cqUsed (q : Ring) : Nat := (q.cqTail + cqSize q - q.cqHead) % cqSize q

/-- Free completion entries; an entry promised to a command in progress counts as used. -/
def cqFree (q : Ring) : Nat := cqSize q - cqUsed q - q.running.length

/-- Vector of a ring's function raised, and the entries count as signalled. -/
def signalRing (f n : Nat) (s : State) : State :=
  interrupt f (ringOf s f n).vector (modRing f n (fun q => { q with unsignalled := 0 }) s)

/-- Write completion entries to the CQ of a ring, in order, with the phase of the pass (R364), and interrupt as R361
gives. -/
def writeCpl (f n : Nat) (c : Cpl) (s : State) : State :=
  let q := ringOf s f n
  let c' := { c with sqHead := q.sqHead, phase := q.phase }
  let wrap := decide (q.cqTail + 1 = cqSize q)
  let q' := { q with cqTail := if wrap then 0 else q.cqTail + 1, phase := if wrap then !q.phase else q.phase,
                     unsignalled := q.unsignalled + 1, firstAt := if q.unsignalled = 0 then s.now else q.firstAt }
  let t := emit (.completion f n c') (setRing f n q' s)
  if q'.intDelay = 0 ∨ 32 ≤ q'.unsignalled then signalRing f n t else t

/-- An enabled ring starts with heads and tails at 0 and phase 1 (R362). -/
def startRing (q : Ring) (st : RingState) : Ring :=
  { q with state := st, err := 0, sqHead := 0, sqTail := 0, cqHead := 0, cqTail := 0, phase := true, unsignalled := 0,
           kept := [], fetchTag := none, enableWaits := false }

/-- A ring whose ENABLE waits for the commands of its former life (R471) starts once none remains. -/
def settleRing (f n : Nat) (s : State) : State :=
  let q := ringOf s f n
  if q.enableWaits && q.running.isEmpty then
    setRing f n (startRing q (if (func s f).bme then .active else .stopped)) s
  else s

/-- The command `r` with opcode `op` is in progress on its ring. -/
def inProgress (s : State) (r : RingCmd) (op : Nat) : Bool :=
  (ringOf s r.fn r.ring).running.any (fun c => decide (c.cid = r.cid) && decide (c.op = op))

/-- Post the completion of a command in progress: written on an ACTIVE ring, kept on a STOPPED one (R379), discarded
otherwise (R471). The tag of a host read still out for it stays held; a command that its ring no longer knows completes
nowhere. -/
def complete (r : RingCmd) (op : Nat) (st : Status) (result : Nat) (s : State) : State :=
  let q := ringOf s r.fn r.ring
  if !inProgress s r op then s else
  let s1 := setRing r.fn r.ring
    { q with running := q.running.eraseP (fun c => decide (c.cid = r.cid) && decide (c.op = op)) } s
  let c : Cpl := { cid := r.cid, status := st, sqHead := 0, phase := false, notice := 0, op := op,
                   result := result % 2 ^ 64 }
  let s2 :=
    match q.state with
    | .active => count (Pg.hiu + fnPort r.fn) 0xE08 (writeCpl r.fn r.ring c s1)
    | .stopped => modRing r.fn r.ring (fun q => { q with kept := q.kept ++ [c] }) s1
    | _ => s1
  settleRing r.fn r.ring s2

/-- The ring can give the device its next entry (R364, R378). -/
def canFetch (s : State) (f n : Nat) : Bool :=
  let q := ringOf s f n
  decide (n < 16) && fnExists s f && decide (q.state = .active) && decide (q.sqHead ≠ q.sqTail) && decide (2 ≤ cqFree q)

/-- Take the entry at the head of a ring as command `cid` with opcode `op`. (DEDUCED: notes/assumptions/63.md) -/
def takeEntry (f n cid op : Nat) (s : State) : State :=
  modRing f n (fun q =>
    { q with sqHead := (q.sqHead + 1) % sqSize q, running := q.running ++ [{ cid := cid, op := op, tag := none }] }) s

/-- The state in which command `r` runs: it is in progress already, or the ring fetches it now. -/
def started (r : RingCmd) (op : Nat) (s : State) : Option State :=
  if !awake s then none
  else if inProgress s r op then some s
  else if canFetch s r.fn r.ring then some (takeEntry r.fn r.ring r.cid op s)
  else none

/-- Freeze a ring STOPPED (R379, R382). -/
def stopRing (f n : Nat) (s : State) : State :=
  modRing f n (fun q => if q.state = .active then { q with state := .stopped } else q) s

/-- A PF action on the contexts, key slots or windows of a VF in TDI state LOCKED or RUN moves its TDI to ERROR (R382). (DEDUCED: notes/assumptions/78.md) -/
def tdiError (f : Nat) (s : State) : State :=
  match (func s f).tdi with
  | .locked | .run =>
    (List.range 16).foldl (fun s n => stopRing f n s) (modFunc f (fun u => { u with tdi := .error }) s)
  | _ => s

/-! Opcodes (Table 15-6) -/
namespace Opc
def reserve := 0x01
def release := 0x02
def mapWindow := 0x03
def unmapWindow := 0x04
def share := 0x05
def hint := 0x06
def compressIn := 0x10
def recode := 0x11
def check := 0x20
def seal_ := 0x30
def loadRecipe := 0x40
def run := 0x41
def abort := 0x42
def query := 0x50
end Opc

/-- Run a ring command: nothing happens when the ring holds no such command; before memory is enabled every opcode but
QUERY completes with DEVICE_NOT_READY (R364). (PRESUMED: notes/assumptions/13.md, DEDUCED: notes/assumptions/63.md) -/
def ringRun (r : RingCmd) (op : Nat) (body : State → State) (s : State) : State :=
  match started r op s with
  | none => s
  | some t => if !t.dev.memEnabled && decide (op ≠ Opc.query) then complete r op .deviceNotReady 0 t else body t

/-- A command whose outcome is a status and a result. -/
def finish (r : RingCmd) (op : Nat) (x : Status × Nat × State) : State := complete r op x.1 x.2.1 x.2.2

/-! Shared claims (R430, R431) -/

def claimOf (s : State) (res : Nat) : ClaimRec := tget ClaimRec.free s.tmx.claims res

def setClaim (res : Nat) (c : ClaimRec) (s : State) : State :=
  { s with tmx := { s.tmx with claims := tput ClaimRec.free s.tmx.claims res c } }

/-- Resource indices of Table 19-1. -/
def resRefresh : Nat := 15
def resScan : Nat := 16
def resTrace : Nat := 17
def resPins : Nat := 18

/-- Take a shared resource: granted when it is free, else denied and counted (R431). -/
def takeClaim (res : Nat) (c : ClaimRec) (s : State) : Option State :=
  if (claimOf s res).owner = .free then some (count Pg.tmx 0xE08 (setClaim res c s)) else none

def denyClaim (s : State) : State := count Pg.tmx 0xE10 s

def freeClaim (res : Nat) (s : State) : State := setClaim res ClaimRec.free s

/-- The lowest free comparator of 0–14 (Table 19-1). -/
def freeComparator (s : State) : Option Nat :=
  (List.range 15).find? (fun i => decide ((claimOf s i).owner = .free))

/-- Comparators 0–14 that owners 2, 3 and 4 hold (R433). -/
def debugComparators (s : State) : Nat :=
  countBelow 15 (fun i => match (claimOf s i).owner with | .pf | .debug | .test => true | _ => false)

/-- The scan buffer for user `u`: held already, or taken. -/
def holdScan (u : User) (s : State) : Option State :=
  if (claimOf s resScan).user = u then some s
  else takeClaim resScan { owner := .firmware, port := 0, user := u, ctx := 0, tap := false } s

end Sys2Proof.Machine
end

