-- ==== Sys2Proof/Machine/Place.lean ====
section
/-! DEFINITION. Sys2Proof/Machine/Place.lean: slabs, owners and frames; the address hash; hot-case floors; the ledger's
arithmetic (chapters Presented Memory, DRAM Controllers, Reservations). -/

namespace Sys2Proof.Machine

/-! Placement map -/

/-- What the placement map holds for a slab that is not listed. -/
def mapDefault (s : State) (slab : Nat) : MapEntry := if slab < s.ple.presented then MapEntry.free else MapEntry.retired

def mapAt (s : State) (slab : Nat) : MapEntry := (tfind s.ple.map slab).getD (mapDefault s slab)

def setMap (slab : Nat) (e : MapEntry) (s : State) : State :=
  { s with ple := { s.ple with map := tput (mapDefault s slab) s.ple.map slab e } }

def modMap (slab : Nat) (f : MapEntry → MapEntry) (s : State) : State := setMap slab (f (mapAt s slab)) s

def ctxAt (s : State) (c : Nat) : Ctx := tget Ctx.reset s.ple.ctxs c

def setCtx (c : Nat) (v : Ctx) (s : State) : State := { s with ple := { s.ple with ctxs := tput Ctx.reset s.ple.ctxs c v } }

def groupOwner (s : State) (g : Nat) : Option Nat := tget none s.ple.groups g

/-- The owner of a slab (R28). -/
def ownerOf (s : State) (e : MapEntry) : Nat := if e.shared then (groupOwner s e.owner).getD 0 else e.owner

/-- A context owns the slab: the slab is held by it and is neither FREE nor RETIRED. -/
def owns (s : State) (c : Nat) (e : MapEntry) : Bool :=
  decide (e.state ≠ .free) && decide (e.state ≠ .retired) && decide (ownerOf s e = c)

/-- Slabs that a context owns, ascending. -/
def slabsOf (s : State) (c : Nat) : List Nat := tkeys (fun _ e => owns s c e) s.ple.map

def memberOf (s : State) (g c : Nat) : Option Member :=
  s.ple.members.findSome? (fun p => match p.2 with
    | some m => if m.group = g ∧ m.ctx = c then some m else none
    | none => none)

/-- A context's right to a slab: none, READ, or READ_WRITE (step 5 of R49). -/
inductive Right where
  | none | read | write
  deriving DecidableEq, Repr

def rightOf (s : State) (c : Nat) (e : MapEntry) : Right :=
  if e.shared then
    if groupOwner s e.owner = some c then .write
    else match memberOf s e.owner c with
      | some m => if m.write then .write else .read
      | none => .none
  else if e.owner = c then .write else .none

/-- Function of a context. -/
def ctxFn (s : State) (c : Nat) : Nat := (ctxAt s c).fn

/-- Partition n. -/
def partAt (s : State) (n : Nat) : Part := tget Part.reset s.ple.parts n

def setPart (n : Nat) (v : Part) (s : State) : State :=
  { s with ple := { s.ple with parts := tput Part.reset s.ple.parts n v } }

/-- A valid partition covers the slab. -/
def inPartition (s : State) (slab : Nat) : Bool :=
  s.ple.parts.any (fun p => p.2.valid && decide (p.2.first ≤ slab) && decide (slab < p.2.first + p.2.count))

/-! Tiers and frames -/

def tierIdx : Tier → Nat
  | .t1 => 1 | .t2 => 2 | .t3 => 3

def tierBit (m : Nat) : Tier → Bool
  | .t1 => m.testBit 0 | .t2 => m.testBit 1 | .t3 => m.testBit 2

def tiers : List Tier := [.t1, .t2, .t3]

/-- T1 is the highest tier. -/
def above (a b : Tier) : Bool := decide (tierIdx a < tierIdx b)

def poolSize : Tier → Nat
  | .t1 => 16 | .t2 => 64 | .t3 => 64

/-- Mask of hash output `n` under a preset (R168): select outputs, then in-channel outputs. -/
def presetMask (t2 : Bool) (preset n : Nat) : Nat :=
  let sel := if t2 then 4 else 8
  let tot := if t2 then 12 else 13
  let g := match preset with
    | 0 => 6 | 1 => 6 | 2 => 6 | 3 => 9 | 4 => 12 | 5 => 12 | 6 => 12 | _ => 14
  let f := match preset with
    | 1 => 2 | 5 => 2 | 2 => 1 | 6 => 1 | _ => 3
  if tot ≤ n then 0
  else if n < sel then 2 ^ (24 + n) + (if 2 ≤ f then 2 ^ (32 + n) else 0) + (if f = 3 then 2 ^ (40 + n) else 0)
  else
    let i := n - sel
    2 ^ (g + i) + (if 2 ≤ f then 2 ^ (24 + i) else 0) + (if f = 3 then 2 ^ (32 + i) else 0)

/-- Output `n` names nothing that the fitted memory has (R166): rank bits beyond the ranks of a DDR5 channel. (PRESUMED: notes/assumptions/37.md) -/
def outputAbsent (s : State) (t2 : Bool) (n : Nat) : Bool :=
  t2 && ((decide (n = 5) && decide (s.dram.ranks < 2)) || (decide (n = 6) && decide (s.dram.ranks < 4)))

/-- The page whose masks govern a tier (R167). (PRESUMED: notes/assumptions/37.md) -/
def maskPage (t2 : Bool) : Nat := if t2 then Pg.dmc else Pg.smc

/-- Mask of output `n` in force: the mask register once it is written or reloaded, else the mask of the reset preset. -/
def hashMask (s : State) (t2 : Bool) (n : Nat) : Nat :=
  match tfind s.regs (regKey (maskPage t2) (0x400 + 8 * n)) with
  | some w => w.toNat
  | none => if outputAbsent s t2 n then 0 else presetMask t2 (if t2 then 4 else 0) n

def parity (v : Nat) : Nat := popcount 48 v % 2

/-- Output bit of a tier address (R163). -/
def hashOut (s : State) (t2 : Bool) (a n : Nat) : Nat := parity (a &&& hashMask s t2 n)

/-- Outputs `lo` to `lo + n - 1` as a number. -/
def hashBits (s : State) (t2 : Bool) (a lo n : Nat) : Nat :=
  listSum ((List.range n).map (fun i => hashOut s t2 a (lo + i) * 2 ^ i))

/-- The channel that a frame lies in (R165): 32·stack + channel, or 256 + DDR5 channel. -/
def frameChan (s : State) (t : Tier) (frame : Nat) : Nat :=
  let a := frame * 2 ^ 24
  match t with
  | .t1 => 32 * hashBits s false a 0 3 + hashBits s false a 3 5
  | _ => 256 + hashBits s true a 0 4

/-- The admission controller of a home: SMC 0–7, DMC 8–23, flash manager 24. -/
def frameCtrl (s : State) (t : Tier) (frame : Nat) : Nat :=
  match t with
  | .t1 => frameChan s t frame / 32
  | .t2 => 8 + (frameChan s t frame - 256)
  | .t3 => 24

/-- Register page of the controller of a home. -/
def ctrlPage (c : Nat) : Nat := if c < 8 then Pg.smc + c else if c < 24 then Pg.dmc + (c - 8) else Pg.fmg

def chanAt (s : State) (k : Nat) : Chan := tget Chan.reset s.dram.chans k

def setChan (k : Nat) (v : Chan) (s : State) : State :=
  { s with dram := { s.dram with chans := tput Chan.reset s.dram.chans k v } }

def ctrlAt (s : State) (c : Nat) : Ctrl := tget Ctrl.reset s.dram.ctrls c

def setCtrl (c : Nat) (v : Ctrl) (s : State) : State :=
  { s with dram := { s.dram with ctrls := tput Ctrl.reset s.dram.ctrls c v } }

/-- The controller of a channel. -/
def chanCtrl (k : Nat) : Nat := if k < 256 then k / 32 else 8 + (k - 256)

/-- The frames numbered last that the hash places on a DDR5 channel hold its descriptors (R76). -/
def isDescFrame (s : State) (frame : Nat) : Bool :=
  let area := s.dram.capFrames2 / 256
  let direct := (List.range 4).all (fun n => (hashMask s true n).testBit (24 + n) &&
    decide (hashMask s true n % 2 ^ (24 + n) = 0))
  if direct then decide (s.dram.capFrames2 ≤ frame / 16 + area)
  else decide (countBelow (s.dram.frames2 - (frame + 1))
    (fun i => decide (frameChan s .t2 (frame + 1 + i) = frameChan s .t2 frame)) < area)

/-- T3 is online (R136). -/
def t3Online (s : State) : Bool :=
  (decide (s.fmg.g0.state = .online) || decide (s.fmg.g1.state = .online)) && decide (s.dev.profile.flashUse ≠ 2)

/-- Frames of a tier by number. -/
def frameCount (s : State) : Tier → Nat
  | .t1 => s.dram.frames1
  | .t2 => s.dram.frames2
  | .t3 => if t3Online s then s.fmg.usableFrames else 0

/-- The frame may be given to a slab: it exists, is not retired, lies in no descriptor area and its channel is online. (DEDUCED: notes/assumptions/33.md) -/
def frameUsable (s : State) (t : Tier) (f : Nat) : Bool :=
  decide (f < frameCount s t) &&
    match t with
    | .t1 => !s.dram.retired1.contains f && (chanAt s (frameChan s .t1 f)).online
    | .t2 => !s.dram.retired2.contains f && !isDescFrame s f && (chanAt s (frameChan s .t2 f)).online
    | .t3 => true

/-- Channels online among keys `lo … lo + n - 1`. -/
def onlineCount (s : State) (lo n : Nat) : Nat := countBelow n (fun i => (chanAt s (lo + i)).online)

/-- Frames that a tier presents (R25): T1 and T2 frames of online channels outside metadata and retirement. -/
def presentedFrames (s : State) : Tier → Nat
  | .t1 => onlineCount s 0 256 * (s.dram.frames1 / 256)
      - (s.dram.retired1.filter (fun f => (chanAt s (frameChan s .t1 f)).online)).length
  | .t2 => onlineCount s 256 16 * (s.dram.capFrames2 - s.dram.capFrames2 / 256)
      - (s.dram.retired2.filter (fun f => (chanAt s (frameChan s .t2 f)).online)).length
  | .t3 => if t3Online s then s.fmg.usableFrames else 0

def framesAll (s : State) : Nat := min 16777216 (listSum (tiers.map (presentedFrames s)))

/-- Frames of a tier that some slab, move or zeroing holds. -/
def busyFrames (s : State) (t : Tier) : List Nat :=
  (s.ple.map.filterMap (fun p => if p.2.tier = some t then some p.2.frame else none)) ++
  (s.mge.moves.filterMap (fun m => if m.target = t then m.frame else none)) ++
  (s.mge.oldFrames.filterMap (fun o => if o.tier = t then some o.frame else none)) ++
  (s.mge.zeroing.filterMap (fun z => if z.1 = t then some z.2 else none))

/-- The first number from `k` on that satisfies `p`. -/
def findFrom (p : Nat → Bool) : Nat → Nat → Option Nat
  | _, 0 => none
  | k, n + 1 => if p k then some k else findFrom p (k + 1) n

/-- The lowest free frame of a tier that satisfies `p`. (DESIGN CHOICE: notes/assumptions/9.md) -/
def freeFrame (s : State) (t : Tier) (p : Nat → Bool) : Option Nat :=
  let busy := busyFrames s t
  findFrom (fun f => !busy.contains f && frameUsable s t f && p f) 0 (frameCount s t)

/-- Frames of a swap pool that are out. -/
def poolUsed (s : State) (t : Tier) : Nat :=
  s.ple.map.countP (fun p => p.2.pool && decide (p.2.tier = some t)) +
  s.mge.moves.countP (fun m => m.toPool && decide (m.target = t) && m.frame.isSome)

def poolFree (s : State) (t : Tier) : Bool := decide (poolUsed s t < poolSize t)

/-! Reservations (R225 – R230) -/

def resvOf (s : State) (c : Nat) : Resv := tget Resv.zero s.rlg.resv c

def setResv (c : Nat) (v : Resv) (s : State) : State :=
  { s with rlg := { s.rlg with resv := tput Resv.zero s.rlg.resv c v } }

def Resv_frames (r : Resv) : Tier → Nat
  | .t1 => r.f1 | .t2 => r.f2 | .t3 => r.f3

def Resv_bw (r : Resv) : Tier → Nat
  | .t1 => r.b1 | .t2 => r.b2 | .t3 => r.b3

/-- Frames of a tier that a context uses (R225): homes outside the swap pool, and move targets. -/
def usedFrames (s : State) (c : Nat) (t : Tier) : Nat :=
  s.ple.map.countP (fun p => owns s c p.2 && decide (p.2.tier = some t) && !p.2.pool) +
  s.mge.moves.countP (fun m => decide (m.target = t) && m.frame.isSome && !m.toPool && owns s c (mapAt s m.slab))

def unusedFrames (s : State) (c : Nat) (t : Tier) : Nat := Resv_frames (resvOf s c) t - usedFrames s c t

/-- AVAILABLE_t (R226). -/
def available (s : State) (t : Tier) : Nat := presentedFrames s t - poolSize t

/-- Sum of FRAMES_t over all contexts. -/
def reservedFrames (s : State) (t : Tier) : Nat := listSum (s.rlg.resv.map (fun p => Resv_frames p.2 t))

/-- Sets of tiers, 1 to 7, in ascending order. -/
def tierSets : List Nat := [1, 2, 3, 4, 5, 6, 7]

/-- Slabs counted for set `m` (R227): neither FREE nor RELEASING, TMASK within `m`. -/
def hallSlabs (s : State) (c m : Nat) : Nat :=
  s.ple.map.countP (fun p => owns s c p.2 && !p.2.releasing && decide (p.2.tmask &&& m = p.2.tmask))

/-- Frames counted for set `m`: reserved there, less those that RELEASING slabs hold there. -/
def hallFrames (s : State) (c m : Nat) : Nat :=
  let r := resvOf s c
  listSum (tiers.map (fun t => if tierBit m t then Resv_frames r t else 0))
    - s.ple.map.countP (fun p => owns s c p.2 && p.2.releasing && !p.2.pool &&
        (match p.2.tier with | some t => tierBit m t | none => false))

/-- The first set for which R227 fails for context `c`, with the two numbers compared. -/
def hallFail (s : State) (c : Nat) : Option (Nat × Nat × Nat) :=
  tierSets.findSome? (fun m =>
    if hallFrames s c m < hallSlabs s c m then some (m, hallSlabs s c m, hallFrames s c m) else none)

/-- Slab indices that are not RETIRED. -/
def liveSlabs (s : State) : Nat :=
  s.ple.presented - s.ple.map.countP (fun p => decide (p.2.state = .retired))

/-- A shortfall of R26 is uncovered. -/
def shortfall (s : State) : Bool := decide (framesAll s < liveSlabs s)

/-- Drop trailing RETIRED indices below the count, at most `n` of them. (DEDUCED: notes/assumptions/24.md) -/
def trimPresented : Nat → State → State
  | 0, s => s
  | n + 1, s =>
    if 0 < s.ple.presented ∧ (mapAt s (s.ple.presented - 1)).state = .retired then
      let k := s.ple.presented - 1
      trimPresented n { s with ple := { s.ple with map := tdel s.ple.map k, presented := k } }
    else s

/-- Walk down from index `k`, retiring FREE slabs until `need` are retired. (DEDUCED: notes/assumptions/24.md) -/
def retireFrom : Nat → Nat → State → State
  | 0, _, s => s
  | _, 0, s => s
  | k + 1, need + 1, s =>
    if (mapAt s k).state = .free then retireFrom k need (setMap k MapEntry.retired s)
    else retireFrom k (need + 1) s

/-- Retire FREE slabs from the highest index downwards while the frames that remain cover too few (R26). (DEDUCED: notes/assumptions/24.md) -/
def retireSlabs (s : State) : State :=
  let need := liveSlabs s - framesAll s
  if need = 0 then s
  else
    let t := retireFrom s.ple.presented need s
    trimPresented (need + s.ple.map.length) t

/-- Recompute PRESENTED_SLABS after training or when T3 comes online (R25, R26): RETIRED indices below the new count
become FREE. -/
def recountSlabs (s : State) : State :=
  let n := max (framesAll s) ((s.ple.map.filter (fun p => decide (p.2.state ≠ .retired))).foldl (fun a p => max a (p.1 + 1)) 0)
  retireSlabs { s with ple := { s.ple with presented := n,
                                           map := s.ple.map.filter (fun p => decide (p.2.state ≠ .retired)) } }

/-! Floors (R188) and demand (R235) -/

/-- Hot-case floor of one channel in MB/s: peak · E · (1 − tRFC / (tREFI / 2)), with tREFI / 2 = 1,950 ns. (DEDUCED: notes/assumptions/24.md) -/
def chanFloor (peak eff trfc : Nat) : Nat := peak * eff * (1950 - trfc) / (100 * 1950)

/-- Peak of a DDR5 channel in MB/s and its conflict factor E in percent (Table 07-5). -/
def dimmPeak : Option DimmKind → Nat × Nat
  | some .mrdimm8800 => (70400, 70)
  | some .rdimm6400 => (51200, 70)
  | some .twoRdimm6400 | some .twoMrdimm6400 => (51200, 66)
  | none => (0, 0)

/-- Online channels of a DRAM controller. -/
def onlineChans (s : State) (c : Nat) : List Chan :=
  ((if c < 8 then (List.range 32).map (fun i => 32 * c + i) else [248 + c]).map (chanAt s)).filter (·.online)

/-- F_c of an admission controller. -/
def floorOf (s : State) (c : Nat) : Nat :=
  if c < 24 then
    let p := if c < 8 then (64000, 78) else dimmPeak s.dram.population
    listSum ((onlineChans s c).map (fun x => chanFloor p.1 p.2 x.trfcNs))
  else if t3Online s then
    3600 * countBelow 32 (fun i =>
      (tget Flc.reset s.fmg.flcs i).trained &&
        decide ((if i < 16 then s.fmg.g0 else s.fmg.g1).state = .online))
  else 0

def ctrlsOf : Tier → List Nat
  | .t1 => List.range 8
  | .t2 => (List.range 16).map (· + 8)
  | .t3 => [24]

def ctrlTier (c : Nat) : Tier := if c < 8 then .t1 else if c < 24 then .t2 else .t3

/-- F_T. -/
def tierFloor (s : State) (t : Tier) : Nat := listSum ((ctrlsOf t).map (floorOf s))

/-- Demand of a tier-level guarantee on controller `c`. -/
def share (s : State) (bw c : Nat) : Nat := ceilDiv (bw * floorOf s c) (tierFloor s (ctrlTier c))

def grantBw (g : Grant) : Tier → Nat
  | .t1 => g.b1 | .t2 => g.b2 | .t3 => g.b3

/-- Demand of context `x` on controller `c`. -/
def ctxDemand (s : State) (x c : Nat) : Nat := share s (Resv_bw (resvOf s x) (ctrlTier c)) c

/-- Demand of host service of a port. -/
def serviceDemand (s : State) (port c : Nat) : Nat :=
  listSum (s.rlg.resv.map (fun p => if fnPort (ctxFn s p.1) = port then ctxDemand s p.1 c else 0))

def grantsDemand (s : State) (c : Nat) : Nat :=
  listSum (s.grants.map (fun p => match p.2 with
    | some g => if g.stale then 0 else share s (grantBw g (ctrlTier c)) c
    | none => 0))

/-- Demand of the loaded recipes' streams on `c`: B · n_c / n for each stream. -/
def streamDemand (s : State) (c : Nat) : Nat :=
  listSum (s.rlg.streams.map (fun d => ceilDiv (d.bw * d.homes.countP (fun h => decide (h.2 = c))) d.homes.length))

/-- The percentage of a tier in a value of MGE_GUARANTEE. -/
def guarPct (w : Word) : Tier → Nat
  | .t1 => bits w 5 0
  | .t2 => bits w 13 8
  | .t3 => bits w 21 16

/-- Percentage that MGE_GUARANTEE sets aside on a tier: a lowered one takes effect for copies started after it (R131). -/
def mgePct (s : State) (t : Tier) : Nat :=
  listMax (guarPct (reg s Pg.mge 0x418) t :: (s.mge.moves.filter (fun m => decide (m.phase ≠ .queued))).map (fun m => guarPct m.guar t))

def mgeDemand (s : State) (c : Nat) : Nat := ceilDiv (mgePct s (ctrlTier c) * floorOf s c) 100

def iceDemand (s : State) (c : Nat) : Nat := ceilDiv (fld s Pg.ice 0x408 15 12 * floorOf s c) 1000

/-- Demand that is held at its own port: recipe streams and icing (Table 10-3). -/
def heldDemand (s : State) (c : Nat) : Nat := streamDemand s c + iceDemand s c

/-- Demand enforced by feedback. -/
def feedbackDemand (s : State) (c : Nat) : Nat :=
  serviceDemand s 0 c + serviceDemand s 1 c + grantsDemand s c + mgeDemand s c

/-- A_c (R236). -/
def demandOf (s : State) (c : Nat) : Nat := heldDemand s c + feedbackDemand s c

def ctrlIndices : List Nat := List.range 25

/-- The first controller on which the admission that leads from `s` to `t` fails (R236): new demand and headroom. -/
def admitFail (s t : State) : Option (Nat × Nat × Nat) :=
  ctrlIndices.findSome? (fun c =>
    let a := demandOf s c
    let b := demandOf t c
    if a < b ∧ floorOf t c < b then some (c, b - a, floorOf t c - a) else none)

/-- RLG_LAST_REFUSAL (Table 10-7); both numbers saturate. -/
def noteRefusal (st : Status) (ctrl requested headroom : Nat) (s : State) : State :=
  { s with rlg := { s.rlg with refusal :=
      ⟨st.code, ctrl, min 2097151 requested, min 2097151 headroom⟩ } }

/-- Count an admission granted or refused. -/
def admitted (s : State) : State := count Pg.rlg 0xE08 s
def refusedAdmission (s : State) : State := count Pg.rlg 0xE10 s

/-- k of a controller × 1,000 (R183): ratio of the floors at 4× and at 2× refresh, rounded to the nearest. (DEDUCED: notes/assumptions/24.md) -/
def kPermille (s : State) (c : Nat) : Nat :=
  let k := ctrlAt s c
  let cold := listSum ((onlineChans s c).map (fun x => 1950 - x.trfcNs))
  let hot := listSum ((onlineChans s c).map (fun x => 975 - x.trfcNs))
  if c < 24 ∧ k.range = 2 ∧ 0 < cold then (2 * 1000 * 2 * hot + cold) / (2 * cold) else 1000

/-- s_c × 1,000 of the held-at-port and of the feedback masters (R238, R239). -/
def scaleOf (s : State) (c : Nat) : Nat × Nat :=
  let k := kPermille s c
  let f := floorOf s c
  if demandOf s c ≤ f then (k, k)
  else if heldDemand s c ≤ f then (k, k * (f - heldDemand s c) / feedbackDemand s c)
  else (k * f / heldDemand s c, 0)

/-- PFs whose port carries a function that holds demand on the controller (R240). -/
def demandPfs (s : State) (c : Nat) : List Nat :=
  [0, 1].filterMap (fun p =>
    if 0 < serviceDemand s p c ∨
        s.grants.any (fun g => match g.2 with
          | some g => decide (fnPort (ctxFn s g.localCtx) = p) && decide (0 < share s (grantBw g (ctrlTier c)) c)
          | none => false) ∨
        s.rlg.streams.any (fun d => d.homes.any (fun h => decide (h.2 = c)) &&
          (match tget none s.rcp.recipes d.handle with
           | some q => decide (fnPort q.fn = p)
           | none => false)) then some (pfOf p) else none)

/-- Bring the scales of every controller up to date: raise GUARANTEE_SHORTFALL for each that fell below 1, changed below
1 or returned to 1, and count controllers that become over-admitted (R239, R240). -/
def updateScales (s : State) : State :=
  ctrlIndices.foldl (fun s c =>
    let now := scaleOf s c
    let was := tget (1000, 1000) s.rlg.scales c
    let isOver := decide (floorOf s c < demandOf s c)
    let s1 :=
      if isOver && !s.rlg.overCtrls.contains c then
        count Pg.rlg 0xE18 { s with rlg := { s.rlg with overCtrls := s.rlg.overCtrls ++ [c] } }
      else if !isOver then { s with rlg := { s.rlg with overCtrls := s.rlg.overCtrls.filter (fun x => decide (x ≠ c)) } }
      else s
    if now = was then s1
    else
      raise Pg.rlg .guaranteeShortfall .corrected 0 noCtx 0 (place c 48 5 + place now.2 16 10 + place now.1 0 10)
        (demandPfs s1 c) false { s1 with rlg := { s1.rlg with scales := tput (1000, 1000) s1.rlg.scales c now } }) s

end Sys2Proof.Machine
end

