-- ==== Sys2Proof/Machine/FlashMap.lean ====
section
/-! DEFINITION. Sys2Proof/Machine/FlashMap.lean: where the flash tier keeps a block: groups, superblocks, erase blocks and dies of
its channels, slots and rows (R137, R140, R145, R146). -/

namespace Sys2Proof.Machine

/-- Channel group 0 or 1. -/
def fgroup (s : State) (g : Nat) : Group := if g = 0 then s.fmg.g0 else s.fmg.g1

def setFgroup (g : Nat) (v : Group) (s : State) : State :=
  if g = 0 then { s with fmg := { s.fmg with g0 := v } } else { s with fmg := { s.fmg with g1 := v } }

def flcAt (s : State) (c : Nat) : Flc := tget Flc.reset s.fmg.flcs c

def setFlc (c : Nat) (f : Flc) (s : State) : State := { s with fmg := { s.fmg with flcs := tput Flc.reset s.fmg.flcs c f } }

def sbAt (g : Group) (k : Nat) : Superblock := tget Superblock.reset g.sbs k

def setSb (k : Nat) (v : Superblock) (g : Group) : Group := { g with sbs := tput Superblock.reset g.sbs k v }

/-! Erase blocks and dies of a channel -/

def blockAt (f : Flc) (n : Nat) : EraseBlock := tget EraseBlock.reset f.blocks n

def setBlock (n : Nat) (b : EraseBlock) (f : Flc) : Flc := { f with blocks := tput EraseBlock.reset f.blocks n b }

/-- Dies in use: those of usable targets that are not retired. -/
def diesOf (f : Flc) : List Nat :=
  (List.range (8 * f.lunsPerTarget)).filter (fun d => f.usable.testBit (d / f.lunsPerTarget) && !f.retired.contains d)

def blockDie (f : Flc) (n : Nat) : Nat := n / f.blocksPerLun

/-- The erase block lies on a die in use. -/
def onDie (f : Flc) (n : Nat) : Bool := decide (0 < f.blocksPerLun) && (diesOf f).contains (blockDie f n)

/-- Erase blocks on dies in use, less those of a kind. -/
def blocksBut (f : Flc) (p : EraseBlock → Bool) : Nat :=
  (diesOf f).length * f.blocksPerLun - f.blocks.countP (fun x => onDie f x.1 && p x.2)

/-- Erase blocks that are not out of use. -/
def goodBlocks (f : Flc) : Nat := blocksBut f (fun b => decide (b.state = .bad) || decide (b.state = .system))

/-- Free erase blocks. -/
def freeBlocks (f : Flc) : Nat := blocksBut f (fun b => decide (b.state ≠ .free))

/-- The free erase block with the lowest erase count, the lowest number among equals (R145). (DEDUCED: notes/assumptions/34.md) -/
def leastWorn (f : Flc) : Option Nat :=
  match (diesOf f).findSome? (fun d => tfree f.blocks (d * f.blocksPerLun) f.blocksPerLun) with
  | some n => some n
  | none =>
    (f.blocks.foldl (fun (a : Option (Nat × Nat)) x =>
      if decide (x.2.state = .free) && onDie f x.1 then
        match a with
        | none => some (x.1, x.2.erases)
        | some y => if x.2.erases < y.2 then some (x.1, x.2.erases) else a
      else a) none).map (·.1)

/-- Blocks in use are free again, and those that satisfy `p` are erased before their next program (R159). -/
def unusedBlocks (p : EraseBlock → Bool) (t : Tbl EraseBlock) : Tbl EraseBlock :=
  tmap EraseBlock.reset (fun _ b => { b with state := if b.state = .used then .free else b.state, erased := b.erased && !p b }) t

/-! Superblocks -/

/-- Superblocks that a number of erase blocks on each channel of a group makes. -/
def perGroup (s : State) (g : Nat) (n : Flc → Nat) : Nat :=
  (List.range 16).foldl (fun a i => min a (n (flcAt s (16 * g + i)))) (n (flcAt s (16 * g)))

/-- Free superblocks of a group: those formed and erased, and those that its free erase blocks make. -/
def freeSbs (s : State) (g : Nat) : Nat :=
  (fgroup s g).sbs.countP (fun x => decide (x.2.state = .erased)) + perGroup s g freeBlocks

/-! Slots, rows and pages (R137) -/

/-- The slot of a T3 frame. -/
def slotAt (s : State) (frame : Nat) : Option Slot := tget none s.fmg.slots frame

def setSlot (frame : Nat) (v : Option Slot) (s : State) : State :=
  { s with fmg := { s.fmg with slots := tput none s.fmg.slots frame v } }

/-- Local rows of a slot with their places. -/
def slotRows (x : Slot) : List (Nat × Nat) :=
  x.where_.flatMap (fun e => (List.range e.rows).map (fun i => (e.sb, e.row + i)))

/-- Page of a slab that holds block `b` (Table 06-3). -/
def pageOfBlock (b : Nat) : Nat := 5 + b / 4

/-- Channel position of page `i` of a slab, and of the parity page of local row `r` (R137). -/
def pagePos (i : Nat) : Nat := (i / 15 + 1 + i % 15) % 16

def parityPos (r : Nat) : Nat := r % 16

/-- Channel and codeword of block `b` of a slab in a group (R137). -/
def codewordPlace (g b : Nat) : Nat × Nat := (16 * g + pagePos (pageOfBlock b), b % 4)

/-- Channel and erase block that hold block `b` of a slot. -/
def blockPlace (s : State) (x : Slot) (b : Nat) : Option (Nat × Nat) :=
  (slotRows x)[pageOfBlock b / 15]?.bind (fun r =>
    (sbAt (fgroup s x.group) r.1).blocks[pagePos (pageOfBlock b)]?.map (fun n => (16 * x.group + pagePos (pageOfBlock b), n)))

/-- The page of block `b` lies on a die out of use: it is read by rebuild (R146). -/
def pageLost (s : State) (frame b : Nat) : Bool :=
  match (slotAt s frame).bind (fun x => blockPlace s x b) with
  | some (c, n) => !onDie (flcAt s c) n
  | none => false

/-- Blocks whose codewords stand in the row of block `b` at its position: a rebuild of it needs them (R150). -/
def rowMates (b : Nat) : List Nat :=
  ((List.range 15).map (fun k => pageOfBlock b / 15 * 15 + k)).filterMap (fun i =>
    if 5 ≤ i ∧ i ≤ 1028 ∧ i ≠ pageOfBlock b then some (4 * (i - 5) + b % 4) else none)

/-- A read, a program or an erase of an erase block failed (R146): a read fails when its codeword fails hard decode. (DEDUCED: notes/assumptions/34.md) -/
def noteFault (channel block : Nat) (s : State) : State :=
  let f := flcAt s channel
  setFlc channel { f with faults := f.faults ++ [(s.now, block)] } s

/-- A mount of the flash starts (R136). -/
def startMount (s : State) : State :=
  { s with fmg := { s.fmg with mounting := true, g0 := { s.fmg.g0 with state := .mounting }, g1 := { s.fmg.g1 with state := .mounting } } }

end Sys2Proof.Machine
end

