-- ==== Sys2Proof/Machine/Xts.lean ====
section
/-! DEFINITION. Sys2Proof/Machine/Xts.lean: AES-256 and the XTS mode of IEEE 1619, by which the blocks of sealed slabs
are stored (R53). -/

namespace Sys2Proof.Machine

/-- Multiplication by x in the AES field. -/
def xtime (a : Nat) : Nat := if 128 ≤ a then ((2 * a) % 256) ^^^ 0x1B else 2 * a

/-- Product in the AES field, over the low `n` bits of `b`. -/
def gmul : Nat → Nat → Nat → Nat
  | 0, _, _ => 0
  | n + 1, a, b => (if b % 2 = 1 then a else 0) ^^^ gmul n (xtime a) (b / 2)

/-- The inverse in the AES field, as the 254th power; 0 for 0. -/
def ginv (a : Nat) : Nat :=
  (List.range 6).foldl (fun p _ => let q := gmul 8 p p; gmul 8 q a) a |> fun p => gmul 8 p p

/-- The AES substitution of one byte. -/
def subByte (a : Nat) : Nat :=
  let b := ginv a
  let r := fun k => ((b <<< k) ||| (b >>> (8 - k))) % 256
  b ^^^ r 1 ^^^ r 2 ^^^ r 3 ^^^ r 4 ^^^ 0x63

def sboxTable : List Nat := (List.range 256).map subByte

def invSboxTable : List Nat := (List.range 256).map (fun b => sboxTable.idxOf b)

def xorList (a b : List Nat) : List Nat := List.zipWith (· ^^^ ·) a b

/-- The 15 round keys of a 32-byte key, 16 bytes each. -/
def expandKey (key : List Nat) : List (List Nat) :=
  let words0 := (List.range 8).map (fun i => (key.drop (4 * i)).take 4)
  let ws := (List.range 52).foldl
    (fun (acc : List (List Nat) × Nat) j =>
      let i := j + 8
      let prev := acc.1.getLastD []
      let back := acc.1.getD (i - 8) []
      if i % 8 = 0 then
        let rot := (prev.drop 1 ++ prev.take 1).map (fun b => sboxTable.getD b 0)
        (acc.1 ++ [xorList back (xorList rot [acc.2, 0, 0, 0])], xtime acc.2)
      else if i % 8 = 4 then (acc.1 ++ [xorList back (prev.map (fun b => sboxTable.getD b 0))], acc.2)
      else (acc.1 ++ [xorList back prev], acc.2)) (words0, 1)
  (List.range 15).map (fun r => ((ws.1.drop (4 * r)).take 4).flatten)

/-- Row shift by `k` columns per row: 1 for encryption, 3 for decryption. -/
def shiftRows (k : Nat) (s : List Nat) : List Nat :=
  (List.range 16).map (fun i => s.getD ((i + 4 * k * (i % 4)) % 16) 0)

/-- Column mixing by the circulant matrix whose first row is `m`. -/
def mixCols (m : List Nat) (s : List Nat) : List Nat :=
  (List.range 16).map (fun i =>
    let c := 4 * (i / 4)
    (List.range 4).foldl (fun a j => a ^^^ gmul 8 (s.getD (c + j) 0) (m.getD ((j + 4 - i % 4) % 4) 0)) 0)

/-- AES-256 encryption of 16 bytes. -/
def aesEnc (rk : List (List Nat)) (p : List Nat) : List Nat :=
  let s := (List.range 13).foldl
    (fun s r =>
      xorList (mixCols [2, 3, 1, 1] (shiftRows 1 (s.map (fun b => sboxTable.getD b 0)))) (rk.getD (r + 1) []))
    (xorList p (rk.getD 0 []))
  xorList (shiftRows 1 (s.map (fun b => sboxTable.getD b 0))) (rk.getD 14 [])

/-- AES-256 decryption of 16 bytes. -/
def aesDec (rk : List (List Nat)) (c : List Nat) : List Nat :=
  let s := (List.range 13).foldl
    (fun s r =>
      mixCols [14, 11, 13, 9]
        (xorList ((shiftRows 3 s).map (fun b => invSboxTable.getD b 0)) (rk.getD (13 - r) [])))
    (xorList c (rk.getD 14 []))
  xorList ((shiftRows 3 s).map (fun b => invSboxTable.getD b 0)) (rk.getD 0 [])

/-- The tweak of the next 16-byte unit: multiplication by the primitive element of the 128-bit field. -/
def nextTweak (t : List Nat) : List Nat :=
  let v := 2 * (leNat (t.map (BitVec.ofNat 8)))
  let w := if 2 ^ 128 ≤ v then (v % 2 ^ 128) ^^^ 0x87 else v
  (leBytes 16 w).map (·.toNat)

/-- XTS over 16-byte units: `unit` is the block cipher's encryption or decryption. -/
def xtsUnits (unit : List Nat → List Nat) : Nat → List Nat → List Nat → List Nat
  | 0, _, _ => []
  | n + 1, t, d => xorList t (unit (xorList t (d.take 16))) ++ xtsUnits unit n (nextTweak t) (d.drop 16)

/-- A 4,096-byte block under a 64-byte key (data key, then tweak key), with a number as tweak. (DEDUCED: notes/assumptions/29.md) -/
def xts (enc : Bool) (key : List Byte) (tweak : Nat) (data : List Byte) : List Byte :=
  let k := key.map (·.toNat)
  let rk := expandKey (k.take 32)
  let t0 := aesEnc (expandKey (k.drop 32)) ((leBytes 16 tweak).map (·.toNat))
  (xtsUnits (if enc then aesEnc rk else aesDec rk) (data.length / 16) t0 (data.map (·.toNat))).map (BitVec.ofNat 8)

end Sys2Proof.Machine
end

