-- ==== Sys2Proof/Machine/Block.lean ====
section
/-! DEFINITION. Sys2Proof/Machine/Block.lean: blocks, their homes, descriptors and checks; the life of a code table; the
access check (chapters Block Format, Code Tables, Integrity, Presented Memory). -/

namespace Sys2Proof.Machine

/-! Homes and descriptors -/

/-- Presented block index of block `b` of a slab. -/
def blockIdx (slab b : Nat) : Nat := slab * 4096 + b

/-- Key of the home of block `b` of a frame. -/
def homeKey (t : Tier) (frame b : Nat) : Nat := tierIdx t * 2 ^ 36 + frame * 4096 + b

/-- The descriptor of a home block. (DESIGN CHOICE: notes/assumptions/5.md) -/
def descAt (s : State) (hb : Nat) : Desc := tget Desc.zero s.descs hb

/-- A block descriptor as its 128 bits (Table 03-3). -/
def descWord (d : Desc) : Nat :=
  place d.crumbs 121 7 + place d.table 109 12 + place d.format 105 4 +
    place (match d.state with | .normal => 0 | .zero => 1 | .poisoned => 2 | .checkSuspect => 3) 103 2 + place d.crcA.toNat 64 32

/-- Store a descriptor together with copy B (R75). -/
def setDesc (hb : Nat) (d : Desc) (s : State) : State := { s with descs := tput Desc.zero s.descs hb d }

/-- The errors planted in the copy of a home block. (DESIGN CHOICE: notes/assumptions/38.md) -/
def plantAt (s : State) (hb : Nat) : Plant := tget Plant.none s.plants hb

def setPlant (hb : Nat) (p : Plant) (s : State) : State := { s with plants := tput Plant.none s.plants hb p }

def mediaKey (s : State) : List Byte := (List.range 64).map (Config.mediaKeyByte s.fmg.mediaKey)

/-- Tweak of the data unit of block `b` in a T3 frame (R158). (DEDUCED: notes/assumptions/29.md) -/
def mediaTweak (s : State) (frame b : Nat) : Nat :=
  (match slotAt s frame with | some x => x.gen | none => 0) * 2 ^ 38 + frame * 2 ^ 14 + b

/-- The 4,096 bytes of a home as a decoder meets them: T3 homes are decrypted under the media key. (DESIGN CHOICE: notes/assumptions/5.md, DEDUCED: notes/assumptions/29.md) -/
def homeBytes (s : State) (t : Tier) (frame b : Nat) : List Byte :=
  let raw := tgets 0 s.mem (homeKey t frame b * 4096) 4096
  if t = .t3 then xts false (mediaKey s) (mediaTweak s frame b) raw else raw

/-- Store bytes at the start of a home. (DEDUCED: notes/assumptions/29.md) -/
def putHome (hb : Nat) (bs : List Byte) (s : State) : State := { s with mem := tputs 0 s.mem (hb * 4096) bs }

/-- Drop the bytes, descriptors and errors of a whole frame. -/
def clearFrame (t : Tier) (frame : Nat) (s : State) : State :=
  let lo := homeKey t frame 0
  let out : Nat → Bool := fun k => decide (k < lo) || decide (lo + 4096 ≤ k)
  { s with mem := tkeep (fun k => out (k / 4096)) s.mem, descs := tkeep out s.descs, plants := tkeep out s.plants,
           tfl := { s.tfl with entries := s.tfl.entries.filter (fun e => out (e.word / 64)) } }

/-- The tenant key of the slab's owner (R53, R54). -/
def tenantKey (s : State) (e : MapEntry) : List Byte :=
  (tget KeySlot.reset s.sec.keys (ctxAt s (ownerOf s e)).key).key

/-- The tweak of a sealed block: its presented address (R53). (DEDUCED: notes/assumptions/29.md) -/
def sealTweak (slab b : Nat) : Nat := blockIdx slab b * 4096

/-! Code tables -/

def tableAt (s : State) (id : Nat) : TableEnt := tget TableEnt.free s.ppu.tables id

def setTable (id : Nat) (e : TableEnt) (s : State) : State :=
  { s with ppu := { s.ppu with tables := tput TableEnt.free s.ppu.tables id e } }

def modTable (id : Nat) (f : TableEnt → TableEnt) (s : State) : State := setTable id (f (tableAt s id)) s

def isDeviceId (id : Nat) : Bool := decide (1 ≤ id) && decide (id ≤ 0xBFF)
def isRecipeId (id : Nat) : Bool := decide (0xC00 ≤ id) && decide (id ≤ 0xFFE)

/-- A table is live (R88). -/
def tableLive (s : State) (id : Nat) : Bool :=
  decide ((tableAt s id).state = .live) && !(tableAt s id).pending

/-- Context `c` may code with the table (R85). -/
def mayCode (s : State) (c id : Nat) : Bool :=
  tableLive s id && (isRecipeId id || decide ((tableAt s id).owner = c))

/-- LOW_WATER: the smallest stamp of a read that waits for its data, or CURRENT (R99). (DEDUCED: notes/assumptions/83.md) -/
def lowWater (s : State) : Nat :=
  (s.fmg.recoveries.flatMap (fun r => r.waiters.map (·.stamp)) ++ (s.rcp.run.bind (·.asked)).toList).foldl min
    s.ppu.current.toNat

/-- Tables in QUARANTINE whose release condition holds return to FREE (R99). (DEDUCED: notes/assumptions/83.md) -/
def releaseTables (s : State) : State :=
  let gone := tkeys (fun _ e => decide (e.state = .quarantine) && decide (e.retireEpoch ≤ lowWater s) && e.peers.isEmpty)
    s.ppu.tables
  countBy Pg.ppu 0xE18 gone.length (gone.foldl (fun s id => setTable id TableEnt.free s) s)

/-- The header of a control packet of this device to a direct partner. (DESIGN CHOICE: notes/assumptions/57.md) -/
def ctrlPkt (s : State) (type dst spec : Nat) : Pkt :=
  { type := type, flags := 0, dst := dst, src := fld s Pg.ftb 0x40 16 0, dstCtx := 0, srcCtx := 0, tag := 0,
    length := 0, hops := 64, addr := 0, spec := spec }

def fportAt (s : State) (p : Nat) : FPort := tget FPort.reset s.fports p

def setFport (p : Nat) (v : FPort) (s : State) : State := { s with fports := tput FPort.reset s.fports p v }

def modFport (p : Nat) (f : FPort → FPort) (s : State) : State := setFport p (f (fportAt s p)) s

/-- Class of a packet type (Table 14-4): 0 REQ, 1 RSP, 2 CTRL, 3 RCP, 4 LINK. -/
def pktClass (type : Nat) : Nat :=
  if type ≤ 0x02 then 0 else if type ≤ 0x06 then 1 else if 0x20 ≤ type ∧ type ≤ 0x22 then 3 else if type < 0x38 then 2 else 4

/-- A packet in 64-byte credit units: header, payload and tag (R330). (DEDUCED: notes/assumptions/59.md) -/
def creditUnits (len : Nat) : Nat := ceilDiv (48 + len) 64

/-- Link data bytes of a packet that travels as one segment: segment header, header and payload, and a tag once the link
keys are in use (R328, R329). (DEDUCED: notes/assumptions/59.md) -/
def linkBytes (keyed : Bool) (len : Nat) : Nat := if keyed then 56 + len else 40 + len

/-- Pool of a class and VL in 64-byte units (R330). -/
def creditPool (cls : Nat) : Nat := if cls = 0 then 1024 else if cls = 1 then 2048 else 256

/-- A packet needs credit on this link while it is UP: one of class REQ, RSP or CTRL, and a recipe transfer, whose pool is the armed
recipe's step buffer. (DEDUCED: notes/assumptions/59.md) -/
def needsCredit (v : FPort) (type : Nat) : Bool := decide (v.state = .up) && (decide (pktClass type ≤ 2) || decide (type = 0x20))

/-- A packet goes onto the line, taking its credit and its codewords (640 bytes of link data each). (DEDUCED: notes/assumptions/59.md) -/
def transmit (port : Nat) (p : Pkt) (data : List Byte) (s : State) : State :=
  let v := fportAt s port
  let n := linkBytes v.spdmDone data.length
  let k := 2 * pktClass p.type + p.flags % 2
  let cr := if needsCredit v p.type then tput 0 v.credits k (tget 0 v.credits k - creditUnits data.length) else v.credits
  emit (.packet port p data) (countBy (Pg.fpt + port) 0xE08 n
    (setFport port { v with txPackets := v.txPackets + (if v.spdmDone then 1 else 0), txSeq := (v.txSeq + ceilDiv n 640) % 4096, credits := cr } s))

/-- A packet of class and VL `k` waits in the port's queue. -/
def queuedFor (v : FPort) (k : Nat) : Bool :=
  v.queued.any (fun x => decide (2 * pktClass x.1.type + x.1.flags % 2 = k))

/-- Credit for a packet is there (R330). -/
def covered (v : FPort) (p : Pkt) (len : Nat) : Bool :=
  !needsCredit v p.type ||
    decide (creditUnits len ≤ tget 0 v.credits (2 * pktClass p.type + p.flags % 2))

/-- Send a packet out of a port: one that its credit does not cover, or that others of its class and VL precede, waits
(R330). -/
def sendPkt (port : Nat) (p : Pkt) (data : List Byte) (s : State) : State :=
  let v := fportAt s port
  if covered v p data.length && !queuedFor v (2 * pktClass p.type + p.flags % 2) then
    transmit port p data s
  else
    let k := 2 * pktClass p.type + p.flags % 2
    setFport port { v with queued := v.queued ++ [(p, data)], stalled := if queuedFor v k then v.stalled else tput 0 v.stalled k s.now } s

/-- A LINK packet: acknowledgement, NAK or credit return; it needs no credit. -/
def sendLink (port : Nat) (m : LinkMsg) (s : State) : State :=
  let v := fportAt s port
  emit (.linkCtl port m) (countBy (Pg.fpt + port) 0xE08 (linkBytes v.spdmDone 0)
    (setFport port { v with txPackets := v.txPackets + (if v.spdmDone then 1 else 0), txSeq := (v.txSeq + 1) % 4096 } s))

/-- A packet of a type and payload length arrived on a port: bytes counted, the packet counter of the direction advanced,
and the credit it used given back to the sender (R328, R330); that of a recipe transfer only once the step buffer is done with it. (DEDUCED: notes/assumptions/59.md) -/
def rxPacket (port type vl len : Nat) (s : State) : State :=
  let v := fportAt s port
  let s1 := countBy (Pg.fpt + port) 0xE10 (linkBytes v.spdmDone len)
    (setFport port { v with rxPackets := v.rxPackets + (if v.spdmDone then 1 else 0) } s)
  if needsCredit v type && decide (type ≠ 0x20) then sendLink port (.credit (pktClass type) vl (creditUnits len)) s1 else s1

/-- A packet of a device arrives on a port that is UP; from an accelerator only under its own ID (R340). -/
def arrive (port type src vl len : Nat) (body : State → State) (s : State) : State :=
  if !(decide (port < 8) && decide ((fportAt s port).state = .up)) then s
  else
    let s1 := rxPacket port type vl len s
    if (fportAt s port).partner.accelerator && decide ((fportAt s port).partner.dev ≠ src) then count (Pg.fpt + port) 0xE48 s1
    else body s1

/-- Send TABLE_RETIRE to each peer that holds the table (R104). (DEDUCED: notes/assumptions/83.md) -/
def sendRetires (id epoch : Nat) (peers : List Nat) (s : State) : State :=
  peers.foldl (fun s p =>
    sendPkt p (ctrlPkt s 0x11 (fportAt s p).partner.dev (id + epoch * 2 ^ 32)) []
      (modFport p (fun v => { v with acksDue := v.acksDue ++ [(id, s.now)] }) s)) s

/-- Apply the transitions of Table 04-1 that need no event: a pending retirement whose pins are gone, and QUARANTINE of
an unused table, which no recount holds back (R195). (DEDUCED: notes/assumptions/83.md) -/
def settleTable (id : Nat) (s : State) : State :=
  let e := tableAt s id
  let e1 := if e.state = .live ∧ e.pending ∧ e.pins = 0 then { e with state := .retiring, pending := false } else e
  let s1 := setTable id e1 s
  if (e1.state = .live ∨ e1.state = .retiring) ∧ e1.refs = 0 ∧ e1.pins = 0 ∧ !s.ice.recount then
    let c := s.ppu.current + 1
    let s2 := { s1 with ppu := { s1.ppu with current := c } }
    releaseTables (sendRetires id c.toNat e1.peers
      (setTable id { e1 with state := .quarantine, pending := false, retireEpoch := c.toNat } s2))
  else s1

/-- REFS of a table, changed with a descriptor (R87). -/
def refTable (id : Nat) (s : State) : State := modTable id (fun e => { e with refs := e.refs + 1 }) s

def unrefTable (id : Nat) (s : State) : State := settleTable id (modTable id (fun e => { e with refs := e.refs - 1 }) s)

def pinTable (id : Nat) (s : State) : State := modTable id (fun e => { e with pins := e.pins + 1 }) s

def unpinTable (id : Nat) (s : State) : State := settleTable id (modTable id (fun e => { e with pins := e.pins - 1 }) s)

/-- The table that a descriptor names, if the block is coded. -/
def codedTable (d : Desc) : Option Nat := if 1 ≤ d.table ∧ d.table ≤ 0xFFE then some d.table else none

/-- Retire a table (R88, Table 04-1). -/
def retireTable (id : Nat) (s : State) : State :=
  let e := tableAt s id
  if e.state = .live then
    if e.pins = 0 then settleTable id (setTable id { e with state := .retiring, pending := false } s)
    else setTable id { e with pending := true } s
  else s

/-! Integrity events (R212, R213) -/

/-- Who detects an error on a block: DETECTOR of ICE_LAST_UE (0 icing, 1 reader, 2 move), the reader's function, and
PATH of CDC_DECODE_FAULT. -/
structure Det where
  kind : Nat
  fn : Nat
  path : Nat
  deriving DecidableEq, Repr

/-- A write that meets an uncorrectable descriptor: it reads the descriptor as a reader does, and its event is DEFERRED
(R195). -/
def Det.writer : Det := ⟨3, 0, 0⟩
def Det.icing : Det := ⟨0, 0, 0⟩
def Det.move : Det := ⟨2, 0, 0⟩
def Det.reader (fn : Nat) : Det := ⟨1, fn, 0⟩

/-- TIER code of ICE_LAST_UE. -/
def tierCode : Option Tier → Nat
  | some t => tierIdx t
  | none => 0

/-- The page that raises an integrity event of a cause. (PRESUMED: notes/assumptions/39.md) -/
def causePage (cause : Nat) : Nat := if cause = 2 then Pg.cdc else if cause = 5 then Pg.fmg else Pg.ice

/-- Raise the event of an uncorrectable finding on a block: DEFERRED to the owner's function from icing or a move,
CONTAINED to the reader's function, the owner's function and the PF of the reader's port (Table 08-5). (PRESUMED: notes/assumptions/39.md) -/
def integrityEvent (d : Det) (cause : Nat) (code : Status) (slab b : Nat) (s : State) : State :=
  let e := mapAt s slab
  let own := ownerOf s e
  let s1 := { s with ice := { s.ice with lastUe := ⟨cause, tierCode e.tier, if d.kind = 3 then 1 else d.kind, own, blockIdx slab b⟩ } }
  if d.kind = 1 then
    raise (causePage cause) code .contained cause own (blockIdx slab b) 0
      [d.fn, ctxFn s own, pfOf (fnPort d.fn)].eraseDups true s1
  else raise (causePage cause) code .deferred cause own (blockIdx slab b) 0 [ctxFn s own] true s1

/-- The event of a sparing or retirement, to the PF of each port (Table 08-5). (DESIGN CHOICE: notes/assumptions/10.md) -/
def sparingEvent (page : Nat) (s : State) : State := raise page Config.correctedCode .corrected 0 noCtx 0 0 pfs true s

/-- The event of a failed unit of severity CONTAINED (Table 01-8), to the PF of each port. (DESIGN CHOICE: notes/assumptions/10.md) -/
def unitEvent (page detail : Nat) (s : State) : State :=
  raise page (Config.containedCode page) .contained 0 noCtx 0 detail pfs false s

/-! Block state changes -/

/-- A change of a block in the home F of a MOVING slab sets its dirty bit (R118, Table 08-4). (DEDUCED: notes/assumptions/32.md) -/
def markDirty (slab b : Nat) (s : State) : State :=
  { s with mge := { s.mge with moves := s.mge.moves.map (fun m =>
      if m.slab = slab ∧ m.phase ≠ .queued ∧ !m.dirty.contains b then { m with dirty := b :: m.dirty } else m) } }

/-- Drop a block from the tray cache. -/
def dropTray (slab b : Nat) (s : State) : State :=
  { s with cdc := { s.cdc with tray := tdel s.cdc.tray (blockIdx slab b) } }

/-- Drop a slab's blocks from the tray cache (R81). -/
def dropTraySlab (slab : Nat) (s : State) : State :=
  { s with cdc := { s.cdc with tray := tkeep (fun k => decide (k / 4096 ≠ slab)) s.cdc.tray } }

/-- Set the state of a block that is at fault. -/
def spoil (slab b hb : Nat) (st : BlockState) (s : State) : State :=
  markDirty slab b (dropTray slab b (setDesc hb { descAt s hb with state := st } s))

/-- Poison a block and raise its event (R197, R213). -/
def poisonBlock (d : Det) (cause slab b hb : Nat) (s : State) : State :=
  integrityEvent d cause .poisoned slab b (spoil slab b hb .poisoned s)

/-- An uncorrectable descriptor (R195): the block reads as poisoned with no table, and the REFS of every table are
recounted. -/
def loseDesc (d : Det) (slab b hb : Nat) (s : State) : State :=
  let s1 := setDesc hb { state := .poisoned, crumbs := 64, table := 0, format := 0, crcA := 0, copyB := 0 }
    (setPlant hb { plantAt s hb with descUe := false } s)
  let s2 := markDirty slab b (dropTray slab b { s1 with ice := { s1.ice with recount := true } })
  integrityEvent d 4 .poisoned slab b (count Pg.ice 0xE48 s2)

/-- CDC_DECODE_FAULT. (DEDUCED: notes/assumptions/28.md) -/
def noteDecodeFault (check path sub table slab b : Nat) (s : State) : State :=
  count Pg.cdc 0xE38 { s with cdc := { s.cdc with fault := ⟨check, path, sub, table, blockIdx slab b⟩ } }

/-! The toffee list (R206, R207) -/

/-- Rank of an entry for replacement: count, then age. -/
def toffeeOlder (a b : Toffee) : Bool := decide (a.count < b.count) || (decide (a.count = b.count) && decide (a.time < b.time))

/-- The COUNTING entry that a new word replaces in a full list. (DEDUCED: notes/assumptions/40.md) -/
def toffeeVictim (l : List Toffee) : Option Toffee :=
  l.foldl (fun v e => if e.state ≠ .counting then v else match v with
    | none => some e
    | some x => if toffeeOlder e x then some e else v) none

/-- A correction of a word is entered in the list. -/
def noteCorrection (word : Nat) (s : State) : State :=
  match s.tfl.entries.find? (fun e => decide (e.word = word)) with
  | some e =>
    let hard := decide (e.state = .rewritten)
    let e' := { e with count := e.count + 1, time := s.now, state := if hard then .hard else e.state }
    let s1 := count Pg.tfl 0xE08
      { s with tfl := { s.tfl with entries := s.tfl.entries.map (fun x => if x.word = word then e' else x) } }
    if hard then count Pg.tfl 0xE18 s1 else s1
  | none =>
    let fresh : Toffee := { word := word, count := 1, time := s.now, state := .counting, spared := false }
    if s.tfl.entries.length < 4096 then
      count Pg.tfl 0xE08 { s with tfl := { s.tfl with entries := s.tfl.entries ++ [fresh] } }
    else
      match toffeeVictim s.tfl.entries with
      | some v => count Pg.tfl 0xE08
          { s with tfl := { s.tfl with entries := s.tfl.entries.filter (fun x => decide (x.word ≠ v.word)) ++ [fresh] } }
      | none => count Pg.tfl 0xE40 s

/-! On-die arrays (R190, R192, R211) -/

/-- Number of an array. -/
def SramKind.code : SramKind → Nat
  | .map => 0 | .tables => 1 | .contexts => 2 | .groups => 3 | .members => 4 | .windows => 5 | .votes => 6
  | .tray => 7 | .tile => 8 | .buffer => 9

/-- The number under which a word of an on-die array stands in the toffee list, beyond every crumb: the array, and the entry,
block, tile or path that the word belongs to. -/
def sramWord (k : SramKind) (idx : Nat) : Nat := 2 ^ 60 + k.code * 2 ^ 48 + idx

def isSramWord (word : Nat) : Bool := decide (2 ^ 60 ≤ word)

/-- The array of a word, by number, and its entry. -/
def sramArray (word : Nat) : Nat := word / 2 ^ 48 % 2 ^ 12

def sramEntry (word : Nat) : Nat := word % 2 ^ 48

/-- The page that counts the errors of an array. (PRESUMED: notes/assumptions/39.md) -/
def sramPage : SramKind → Nat
  | .map | .contexts | .groups | .members | .windows => Pg.ple
  | .tables => Pg.ppu
  | .votes => Pg.mge
  | .tray => Pg.cdc
  | .tile => Pg.sht
  | .buffer => Pg.hiu

def upsetAt (s : State) (word : Nat) : Option Upset := s.sram.upsets.find? (fun u => decide (u.word = word))

def dropUpset (word : Nat) (s : State) : State :=
  { s with sram := { s.sram with upsets := s.sram.upsets.filter (fun u => decide (u.word ≠ word)) } }

/-- The word has an uncorrectable error that no copy repairs. -/
def wordLost (s : State) (word : Nat) : Bool := match upsetAt s word with | some u => u.ue && u.copyUe | none => false

/-- An entry of an array with a copy in T1 is to be used (R190, R192, R86): a single error is corrected and entered in the
toffee list, an uncorrectable entry is reloaded from the copy, and the loss of both is signalled. A word that has no spare row
is served from its copy. (DESIGN CHOICE: notes/assumptions/89.md) -/
def meetSram (k : SramKind) (idx : Nat) (s : State) : State :=
  let w := sramWord k idx
  if s.sram.fromCopy.contains w then s
  else match upsetAt s w with
  | none => s
  | some u =>
    if !u.ue then noteCorrection w (errCorr (sramPage k) s)
    else
      let s1 := errUncorr (sramPage k) s
      if u.copyUe then (if k = .tables then s1 else { s1 with sram := { s1.sram with lost := true } })
      else dropUpset w (if k = .tables then s1 else count Pg.ice 0xE50 s1)

/-- Every entry of an array that is searched is used. (DESIGN CHOICE: notes/assumptions/89.md) -/
def meetArray (k : SramKind) (s : State) : State :=
  ((s.sram.upsets.filter (fun u => decide (sramArray u.word = k.code))).map (fun u => sramEntry u.word)).foldl
    (fun s i => meetSram k i s) s

/-- A data-path buffer holds a transfer of a path of R49: an uncorrectable word ends the transfer with the bus error of its
path, and the event of R190 goes out. (DESIGN CHOICE: notes/assumptions/89.md) -/
def meetBuffer (path : Nat) (s : State) : Bool × State :=
  let w := sramWord .buffer path
  match upsetAt s w with
  | none => (false, s)
  | some u =>
    if u.ue then (true, unitEvent Pg.hiu path (errUncorr Pg.hiu (dropUpset w s)))
    else (false, noteCorrection w (errCorr Pg.hiu s))

/-- Enter a repair in the log, which holds 16,384 (R210). (DEDUCED: notes/assumptions/40.md) -/
def logRepair (k : RepairKind) (t : Tier) (x : TflLast) (serial : Nat) (s : State) : State :=
  if 16384 ≤ s.boot.repairs.length then s
  else { s with boot := { s.boot with repairs := s.boot.repairs ++
    [{ kind := k, tier := t, unit := x.unit, serial := serial, bank := x.bank, row := x.row, frame := x.frame }] } }

/-- The rewrite of a word is due: its count has reached THRESH (R208). -/
def rewriteDue (s : State) (e : Toffee) : Bool := decide (e.state = .counting) && decide (fld s Pg.tfl 0x400 3 0 ≤ e.count)

/-- A write to the crumbs of a home below `n` removes their entries and errors; a rewrite that was due is dropped (R204). -/
def freshCrumbs (hb n : Nat) (s : State) : State :=
  let p := plantAt s hb
  let s0 := countBy Pg.ice 0xE30 (s.tfl.entries.countP (fun e => decide (e.word / 64 = hb) && decide (e.word % 64 < n) && rewriteDue s e)) s
  let s1 := setPlant hb { p with corr := p.corr.filter (fun c => decide (n ≤ c)), ue := p.ue.filter (fun c => decide (n ≤ c)),
                                 copyBUe := false } s0
  { s1 with tfl := { s1.tfl with entries := s1.tfl.entries.filter (fun e =>
      decide (e.word / 64 ≠ hb) || decide (n ≤ e.word % 64)) } }

/-! Reading a block (R78, R190 – R196) -/

/-- Table 03-4 for a NORMAL block. -/
def consistent (d : Desc) : Bool :=
  decide (d.format ≤ 8) &&
    ((decide (d.crumbs = 64) && decide (d.table = 0)) ||
      (decide (1 ≤ d.crumbs) && decide (d.crumbs ≤ 63) && (codedTable d).isSome && decide (1 ≤ d.format)))

/-- The uncompressed bytes of a NORMAL block under checks C1 to C5. -/
def decodeDesc (s : State) (d : Desc) (home : List Byte) : Except DecErr (List Byte) :=
  if !consistent d then .error ⟨2, 0⟩
  else match codedTable d with
    | none => .ok home
    | some id =>
      if wordLost s (sramWord .tables id) then .error ⟨4, 0⟩ else decodeCoded (tableAt s id).data id d.format d.crumbs home

/-- What a reader of a block gets: its bytes (`repaired` when check repair acted), an error status, or a wait for flash
recovery. -/
inductive Got where
  | clean (data : List Byte) (repaired : Bool)
  | bad (st : Status)
  | waits
  deriving DecidableEq, Repr

/-- The block is in the flash poison record (R153). -/
def flashPoison (s : State) (slab b : Nat) : Bool := s.fmg.poisonRec.contains (blockIdx slab b)

/-- Copy B of a block as check repair reads it: none when it is uncorrectable or the channel that holds it is offline (R75, R193). (DESIGN CHOICE: notes/assumptions/87.md) -/
def copyBOf (s : State) (t : Tier) (frame hb : Nat) : Option (BitVec 32) :=
  let ch := frameChan s t frame
  let lost :=
    match t with
    | .t1 => !(chanAt s (32 * ((ch / 32 + 4) % 8) + ch % 32)).online
    | .t2 => !(chanAt s (32 * ((ch - 256) % 8) + Config.shadowChannel hb % 32)).online
    | .t3 => false
  if (plantAt s hb).copyBUe || lost then none else some (descAt s hb).copyB

/-- Corrections met while the crumbs of a block are read (R191). -/
def noteCorrections (t : Tier) (frame hb crumbs : Nat) (s : State) : State :=
  let met := (plantAt s hb).corr.filter (fun c => decide (c < crumbs))
  met.foldl (fun s c =>
    let s1 := errCorr (ctrlPage (frameCtrl s t frame)) s
    if t = .t3 then s1 else noteCorrection (64 * hb + c) s1) s

/-- The end of a read whose bytes passed C1 to C5: check C6, check repair (R193), copy-B repair (R194). In T3 neither copy of a
check value is ever changed (R138): the reader gets its data. (DESIGN CHOICE: notes/assumptions/90.md) -/
def checkSix (d : Det) (t : Tier) (slab b frame hb : Nat) (out : List Byte) (s : State) : Got × State :=
  let c := crc32c out
  let ds := descAt s hb
  if c = ds.crcA then
    let wrongB := (plantAt s hb).copyBUe || (decide (d.kind = 0) && decide (ds.copyB ≠ c))
    if wrongB && decide (t ≠ .t3) then
      (.clean out false,
        markDirty slab b (count Pg.ice 0xE20 (setDesc hb { ds with copyB := c } (setPlant hb { plantAt s hb with copyBUe := false } s))))
    else (.clean out false, s)
  else
    let s1 := noteDecodeFault 6 d.path 0 ds.table slab b s
    if copyBOf s t frame hb = some c then
      (.clean out true, if t = .t3 then s1 else markDirty slab b (count Pg.ice 0xE20 (setDesc hb { ds with crcA := c } s1)))
    else
      (.bad .checkMismatch,
        integrityEvent d 3 .checkMismatch slab b (count Pg.ice 0xE28 (spoil slab b hb .checkSuspect s1)))

/-- Blocks of a T3 slab whose codewords fail and that a rebuild of block `b` needs. -/
def failingMates (s : State) (frame b : Nat) : List Nat :=
  (rowMates b).filter (fun x => !(plantAt s (homeKey .t3 frame x)).ue.isEmpty)

/-- The codeword of a block that can be rebuilt from its row now: every other page of the row can be read. -/
def rowGood (s : State) (frame b : Nat) : Bool :=
  (failingMates s frame b).isEmpty && !(rowMates b).any (fun x => pageLost s frame x)

/-- A recovery of a block's codeword is open. -/
def recovering (s : State) (slab b : Nat) : Bool := s.fmg.recoveries.any (fun r => decide (r.block = blockIdx slab b))

/-- Step `n` of the ladder, counted from 0, decodes soft (SOFT_FROM). -/
def softStep (s : State) (n : Nat) : Bool := decide (fld s Pg.fmg 0x410 7 4 ≤ n + 1)

/-- The recovery of a block's codeword is opened, unless it is open: at the first step of the ladder, or at rebuild. -/
def openRecovery (det : Nat) (rebuild : Bool) (slab b : Nat) (s : State) : State :=
  let r : Recovery := { block := blockIdx slab b, step := 0, soft := softStep s 0, rebuild := rebuild, det := det, waiters := [] }
  if recovering s slab b then s
  else { s with fmg := { s.fmg with unentered := s.fmg.unentered.filter (fun k => decide (k ≠ blockIdx slab b)),
                                    recoveries := s.fmg.recoveries ++ [r] } }

/-- A codeword fails hard decode: its ladder starts (R150), and its erase block has failed (R146). -/
def startLadder (det slab b : Nat) (s : State) : State :=
  if recovering s slab b then s
  else
    let s1 := match (slotAt s (mapAt s slab).frame).bind (fun x => blockPlace s x b) with
      | some (c, n) => noteFault c n s
      | none => s
    openRecovery det false slab b (count Pg.fmg 0xE08 s1)

/-- Codewords of a row that fail go through the ladder before a rebuild, in parallel (R150). -/
def startMates (det slab b : Nat) (s : State) : State :=
  (failingMates s (mapAt s slab).frame b).foldl (fun s x => startLadder det slab x s) s

/-- The recovery of a block's codeword starts, unless it is open: a page on a retired die is read by rebuild at once (R146). -/
def startRecovery (d : Det) (slab b : Nat) (s : State) : State :=
  if recovering s slab b then s
  else if pageLost s (mapAt s slab).frame b then startMates d.kind slab b (openRecovery d.kind true slab b s)
  else startLadder d.kind slab b s

/-- A T3 codeword cannot be read at once: the whole of it is decoded (R147), or its page is to be rebuilt and the row is not
readable. -/
def needsRecovery (s : State) (frame b : Nat) : Bool :=
  if pageLost s frame b then !rowGood s frame b else !(plantAt s (homeKey .t3 frame b)).ue.isEmpty

/-- A rebuild at the read of a page on a retired die is counted (R146). -/
def countRebuild (t : Tier) (frame b : Nat) (s : State) : State :=
  if t = .t3 ∧ pageLost s frame b then count Pg.fmg 0xE18 s else s

/-- Read block `b` of a slab from its home: the bytes that the home stands for, ciphertext for a sealed slab. A read of a T3 block
uses the descriptor in its codeword's metadata, never the descriptor page (R147). -/
def readHome (d : Det) (slab b : Nat) (s : State) : Got × State :=
  let e := mapAt s slab
  match e.tier with
  | none => (.clean (List.replicate 4096 0) false, s)
  | some t =>
    let hb := homeKey t e.frame b
    if decide (t ≠ .t3) && (plantAt s hb).descUe then
      let s1 := loseDesc d slab b hb s
      (.bad .poisoned, if d.kind = 0 then count Pg.ice 0xE18 s1 else s1)
    else
      let ds := descAt s hb
      if flashPoison s slab b then (.bad .poisoned, s)
      else match ds.state with
        | .zero => (.clean (List.replicate 4096 0) false, s)
        | .poisoned => (.bad .poisoned, s)
        | .checkSuspect => (.bad .checkMismatch, s)
        | .normal =>
          if t = .t3 ∧ needsRecovery s e.frame b then (.waits, startRecovery d slab b s)
          else if t ≠ .t3 ∧ (plantAt s hb).ue.any (fun c => decide (c < ds.crumbs)) then
            let s1 := poisonBlock d 1 slab b hb (errUncorr (ctrlPage (frameCtrl s t e.frame)) s)
            (.bad .poisoned, if d.kind = 0 then count Pg.ice 0xE18 s1 else s1)
          else
            let s0 := noteCorrections t e.frame hb ds.crumbs (countRebuild t e.frame b s)
            let s1 := match codedTable ds with | some id => meetSram .tables id s0 | none => s0
            match decodeDesc s1 ds (homeBytes s1 t e.frame b) with
            | .ok out => checkSix d t slab b e.frame hb out s1
            | .error x =>
              let s2 := poisonBlock d 2 slab b hb (noteDecodeFault x.check d.path x.sub ds.table slab b s1)
              (.bad .decodeFault, if d.kind = 0 then count Pg.ice 0xE18 s2 else s2)

/-- Read a block as its users see it: a sealed slab is decrypted (R53). (DESIGN CHOICE: notes/assumptions/38.md) -/
def fetchBlock (d : Det) (slab b : Nat) (s : State) : Got × State :=
  let e := mapAt s slab
  match readHome d slab b s with
  | (.clean out r, s') =>
    let coded := match e.tier with
      | some t => decide ((descAt s (homeKey t e.frame b)).state ≠ .zero)
      | none => false
    (.clean (if e.sealBit && coded then xts false (tenantKey s e) (sealTweak slab b) out else out) r, s')
  | x => x

/-- A slab reads as zeros and touches no tier (R31), or has no frame. -/
def readsZero (e : MapEntry) : Bool := decide (e.state = .zeroed) || e.tier.isNone

/-- TRAY_ENABLE as the codec acts on it (R81, R214). -/
def trayEnabled (s : State) : Bool := flag s Pg.cdc 0x40 0 && !s.cdc.trayOff

/-- Blocks that the tray cache holds; an entry with a HARD word is disabled (R211). -/
def trayRoom (s : State) : Nat := 65536 - s.sram.trayDisabled

/-- Fill the tray cache: when it is full, the entry with the lowest presented address leaves. (DESIGN CHOICE: notes/assumptions/85.md) -/
def trayFill (slab b : Nat) (data : List Byte) (s : State) : State :=
  let t := if s.cdc.tray.length < trayRoom s then s.cdc.tray else s.cdc.tray.drop 1
  { s with cdc := { s.cdc with tray := tins t (blockIdx slab b) data } }

/-- An entry of the tray cache is looked up: a single error is corrected, an entry with an uncorrectable word is dropped, and
the read fills from the home (R190). (DESIGN CHOICE: notes/assumptions/89.md) -/
def meetTray (slab b : Nat) (s : State) : State :=
  let w := sramWord .tray (blockIdx slab b)
  match upsetAt s w with
  | none => s
  | some u =>
    if u.ue then dropTray slab b (errUncorr Pg.cdc (dropUpset w s)) else noteCorrection w (errCorr Pg.cdc s)

/-- A read on the memory-service path: tray cache, then the home. -/
def serviceRead (d : Det) (slab b : Nat) (s : State) : Got × State :=
  let s := meetTray slab b s
  let e := mapAt s slab
  if readsZero e then (.clean (List.replicate 4096 0) false, s)
  else
    match (if e.sealBit || !trayEnabled s then none else tfind s.cdc.tray (blockIdx slab b)) with
    | some data => (.clean data false, count Pg.cdc 0xE28 s)
    | none =>
      match fetchBlock d slab b s with
      | (.clean data r, s') =>
        let s2 := count Pg.cdc 0xE30 s'
        (.clean data r, if e.sealBit || !trayEnabled s' then s2 else trayFill slab b data s2)
      | x => x

/-! Storing a block (R68 – R70) -/

/-- The table that a write other than a command uses for a block (R69). -/
def streamTable (s : State) (slab : Nat) (d : Desc) : Option Nat :=
  if s.dev.profile.compression = 0 || s.cdc.codecOff then none
  else match codedTable d with
    | some id => if mayCode s (ownerOf s (mapAt s slab)) id then some id else none
    | none => none

/-- ZERO_DETECT. -/
def zeroDetect (s : State) : Bool := flag s Pg.cdc 0x40 1

/-- The descriptor of a block of a slab, at its home; of a slab without one, that of a ZERO block. -/
def blockDesc (s : State) (slab b : Nat) : Desc :=
  match (mapAt s slab).tier with
  | some t => descAt s (homeKey t (mapAt s slab).frame b)
  | none => Desc.zero

/-- A write reads its block's descriptor first: an uncorrectable one is replaced by a POISONED one (R195). -/
def meetDesc (slab b : Nat) (s : State) : State :=
  match (mapAt s slab).tier with
  | some t =>
    let hb := homeKey t (mapAt s slab).frame b
    if decide (t ≠ .t3) && (plantAt s hb).descUe then loseDesc Det.writer slab b hb s else s
  | none => s

/-- The form in which a full block is stored (R68): its descriptor without check values, the crumbs to write, and
whether a live table gave up because the block did not fit. -/
def formOf (s : State) (sealBit : Bool) (format : Nat) (table : Option Nat) (flags : Nat) (data : List Byte) :
    Desc × List Byte × Bool :=
  let raw : Desc := { state := .normal, crumbs := 64, table := 0, format := format, crcA := 0, copyB := 0 }
  if !sealBit && zeroDetect s && data.all (fun b => decide (b = 0)) then ({ Desc.zero with format := format }, [], false)
  else match table with
    | none => (raw, data, false)
    | some id =>
      if sealBit || decide (tableFormat (tableAt s id).data ≠ format) then (raw, data, false)
      else match encodeBlock (tableAt s id).data id flags data with
        | some (cs, n) => ({ raw with crumbs := n, table := id }, cs, false)
        | none => (raw, data, true)

/-- Counters of a write (Table 03-8). -/
def countWrite (d : Desc) (fallback : Bool) (s : State) : State :=
  match d.state with
  | .zero => count Pg.cdc 0xE18 s
  | _ =>
    if d.crumbs < 64 then countBy Pg.cdc 0xE20 (64 - d.crumbs) (count Pg.cdc 0xE08 s)
    else if fallback then count Pg.cdc 0xE10 s else s

/-- Store a block in full at the home of its slab, which lies in T1 or T2 (R75): home crumbs, descriptor and copy B in
one update; REFS follow the descriptor (R87), the tray copy is dropped (R11), poison ends (R197). -/
def storeBlock (slab b format : Nat) (table : Option Nat) (flags : Nat) (data : List Byte) (s : State) : State :=
  let e := mapAt s slab
  match e.tier with
  | none => s
  | some t =>
    let hb := homeKey t e.frame b
    let s0 := meetDesc slab b s
    let old := descAt s0 hb
    let (d, cs, fb) := formOf s0 e.sealBit format table flags data
    let cs' := if e.sealBit then xts true (tenantKey s0 e) (sealTweak slab b) cs else cs
    let c := if d.state = .zero then 0 else crc32c (if e.sealBit then cs' else data)
    let d' := { d with crcA := c, copyB := c }
    let s1 := putHome hb cs' (setDesc hb d' s0)
    let s2 := match codedTable d' with | some id => refTable id s1 | none => s1
    let s3 := match codedTable old with | some id => unrefTable id s2 | none => s2
    let s4 := markDirty slab b (dropTray slab b (freshCrumbs hb (if d.state = .zero then 0 else d.crumbs) s3))
    let s5 := { s4 with fmg := { s4.fmg with poisonRec := s4.fmg.poisonRec.filter (fun k => decide (k ≠ blockIdx slab b)) },
                        mge := { s4.mge with lastWrite := tput 0 s4.mge.lastWrite slab s4.now } }
    countWrite d fb s5

/-- Bytes of a write laid over a block. -/
def overlay (base data : List Byte) (off : Nat) : List Byte := base.take off ++ data ++ base.drop (off + data.length)

/-- FLAGS.SCOPE_TABLE of a block coded under a table: a proof pass whose scope includes the block built it (Table 03-2). -/
def scopeFlag (s : State) (slab b : Nat) (table : Option Nat) : Nat :=
  match table.bind (fun id => (tableAt s id).scope) with
  | some (first, n) => if first ≤ blockIdx slab b ∧ blockIdx slab b < first + n then 2 else 0
  | none => 0

/-- Store a full block of a streaming write, under the format and table of its descriptor (R69). -/
def storeWrite (slab b : Nat) (data : List Byte) (s : State) : State :=
  let old := blockDesc s slab b
  let t := streamTable s slab old
  storeBlock slab b old.format t (scopeFlag s slab b t) data s

/-- Store a write that does not come as a command: in full when it covers the block and its path may (R197), else
merged (R70). The status is the refusal of a merged write. -/
def writeInPlace (d : Det) (full : Bool) (slab b off : Nat) (data : List Byte) (s : State) : Status × State :=
  if full && decide (off = 0) && decide (data.length = 4096) then (.ok, storeWrite slab b data (meetDesc slab b s))
  else
    match fetchBlock d slab b s with
    | (.clean base _, s') => (.ok, storeWrite slab b (overlay base data off) s')
    | (.bad st, s') => (st, s')
    | (.waits, s') => (.poisoned, s')

/-! Heat (R110 – R112) -/

/-- An access that passed the check sets the slab's bit in the current touch map (R112). -/
def touchMap (slab : Nat) (s : State) : State :=
  let m := s.mge
  let add (l : List Nat) := if l.contains slab then l else slab :: l
  { s with mge := { m with touchA := if m.currentB then m.touchA else add m.touchA,
                           touchB := if m.currentB then add m.touchB else m.touchB } }

/-- A sampled access: after 65,536 of them a decay tick falls due, and one that falls due before the sweep of the last is merged
into it (R111). (DEDUCED: notes/assumptions/32.md) -/
def sampleTick (s : State) : State :=
  if s.mge.sampled + 1 < 65536 then { s with mge := { s.mge with sampled := s.mge.sampled + 1 } }
  else
    let t := { s with mge := { s.mge with sampled := 0, sweepDue := true } }
    if s.mge.sweepDue then count Pg.mge 0xE38 t else t

/-- A block access that passed the access check: touch map and heat (R110). -/
def touch (slab : Nat) (s : State) : State :=
  let c := s.mge.sampleCtr + 1
  let s1 := touchMap slab { s with mge := { s.mge with sampleCtr := c } }
  if c % 2 ^ fld s Pg.mge 0x400 4 0 = 0 then modMap slab (fun e => { e with heat := min 255 (e.heat + 1) }) (sampleTick s1)
  else s1

/-- The slab was touched within the heat window. -/
def touched (s : State) (slab : Nat) : Bool := s.mge.touchA.contains slab || s.mge.touchB.contains slab

/-! The access check (R49) -/

/-- What reaches the access check: PATH (0 CXL.mem, 1 BAR, 2 command ring, 3 fabric, 4 sheet stream), the function and
context, the window of a BAR access, whether it writes, and whether the operation is COMPRESS. -/
structure Ask where
  path : Nat
  fn : Nat
  ctx : Nat
  win : Option Window
  write : Bool
  compress : Bool
  deriving DecidableEq, Repr

/-- The slab's key slot is being destroyed: no later access is served with the key (R407). (DESIGN CHOICE: notes/assumptions/75.md) -/
def keyDying (s : State) (e : MapEntry) : Bool := (tget KeySlot.reset s.sec.keys (ctxAt s (ownerOf s e)).key).dying

/-- The first failing step of the access check with its status; none when the access passes. Nothing passes once an entry and
its copy are lost. (DESIGN CHOICE: notes/assumptions/75.md, DESIGN CHOICE: notes/assumptions/89.md) -/
def accessCheck (s : State) (a : Ask) (slab : Nat) : Option (Nat × Status) :=
  let c := ctxAt s a.ctx
  let e := mapAt s slab
  let w := a.write || a.compress
  let right := rightOf s a.ctx e
  if !fnLive s a.fn || s.sram.lost then some (1, .stopped)
  else if c.state ≠ .active ∨ c.fn ≠ a.fn then some (2, .accessDenied)
  else if (match a.win with
      | some v => v.stale || (!w && !v.rd) || (w && !v.wr)
      | none => false) then some (3, .accessDenied)
  else if s.ple.presented ≤ slab then some (4, .accessDenied)
  else if right = .none ∨ (w ∧ right = .read) then some (5, .accessDenied)
  else if e.state = .free ∨ e.state = .retired then some (6, .accessDenied)
  else if e.state = .zeroed ∧ e.releasing ∧ w then some (6, .accessDenied)
  else if e.sealBit ∧ (a.path = 0 ∨ a.path = 3 ∨ keyDying s e) then some (7, .accessDenied)
  else if e.sealBit ∧ a.compress then some (7, .sealedNoCompress)
  else if (match e.tier with | some t => !tierBit e.tmask t && !e.pool | none => false) then some (8, .accessDenied)
  else none

/-- PLE_DENY_INFO. -/
def noteDeny (path step fn ctx slab : Nat) (s : State) : State :=
  { s with ple := { s.ple with deny := ⟨path, step, fn, ctx, slab⟩ } }

/-- The entries of the map and the control tables that an access check uses: each is corrected or reloaded before (R192). (DESIGN CHOICE: notes/assumptions/89.md) -/
def meetAccess (a : Ask) (slab : Nat) (s : State) : State :=
  if s.sram.upsets.isEmpty then s
  else
    let s1 := meetSram .map slab (meetSram .contexts a.ctx s)
    let s2 := if a.win.isSome then meetArray .windows s1 else s1
    if (mapAt s2 slab).shared then meetArray .members (meetArray .groups s2) else s2

/-- Check an access to one slab; a refusal is recorded. -/
def checkAccess (a : Ask) (slab : Nat) (s : State) : Option (Nat × Status) × State :=
  let t := meetAccess a slab s
  match accessCheck t a slab with
  | none => (none, t)
  | some (st, code) => (some (st, code), noteDeny a.path st a.fn a.ctx slab t)

/-- The first refusal over a run of slabs. -/
def checkRun (a : Ask) (first : Nat) : Nat → State → Option Status × State
  | 0, s => (none, s)
  | n + 1, s =>
    match checkAccess a first s with
    | (some (_, code), s') => (some code, s')
    | (none, s') => checkRun a (first + 1) n s'

/-- The access of a ring command of function `fn` for context `ctx`. -/
def ringAsk (fn ctx : Nat) (write compress : Bool) : Ask := ⟨2, fn, ctx, none, write, compress⟩

/-- A request in a run of `n` slabs from `first` lies within the presented address space. (DEDUCED: notes/assumptions/31.md) -/
def slabRunOk (first n : Nat) : Bool := decide (1 ≤ n) && decide (first + n ≤ 16777216)

end Sys2Proof.Machine
end

