-- ==== Sys2Proof/Machine/Route.lean ====
section
/-! DEFINITION. Sys2Proof/Machine/Route.lean: routes of the fabric and the answers to requests of other devices (R339, R346,
R347). -/

namespace Sys2Proof.Machine

/-- The device's own ID and whether it is assigned (FTB_IDENTITY). -/
def ownId (s : State) : Nat := fld s Pg.ftb 0x40 16 0
def idValid (s : State) : Bool := flag s Pg.ftb 0x40 31

def fportUp (s : State) (p : Nat) : Bool := decide (p < 8) && decide ((fportAt s p).state = .up)

def routeAt (s : State) (k : Nat) : Route := tget Route.reset s.ftb.routes k

/-- The route entry of a device: a local entry in the own pod, else the pod's entry. -/
def routeOf (s : State) (dev : Nat) : Route :=
  routeAt s (if dev / 64 = ownId s / 64 then 4096 + dev % 64 else dev / 64)

/-- The port by which a packet to a device leaves: the primary while it is UP, else the alternate. -/
def routePort (s : State) (dev : Nat) : Option Nat :=
  let r := routeOf s dev
  if !r.valid then none
  else if fportUp s r.primary then some r.primary
  else if r.altValid && fportUp s r.alt then some r.alt
  else none

/-- Send a packet to a device by its route; one that has none is dropped and counted. -/
def sendTo (p : Pkt) (data : List Byte) (s : State) : State :=
  match routePort s p.dst with
  | some port => sendPkt port p data s
  | none => count Pg.ftb 0xE28 s

/-- A response to a request that arrived on a port from a device, with the tag of the request. -/
def respPkt (s : State) (type dst tag len spec : Nat) : Pkt := { ctrlPkt s type dst spec with tag := tag, length := len }

/-- Answer by the port of arrival when the requester is the direct partner, else by route. -/
def answer (fport : Nat) (p : Pkt) (data : List Byte) (s : State) : State :=
  if fportUp s fport && decide ((fportAt s fport).partner.dev = p.dst) then sendPkt fport p data s else sendTo p data s

/-- An ERROR response, at most ERR_PER_MS per millisecond to one source (R347); one beyond that is dropped. -/
def sendError (fport src tag : Nat) (st : Status) (s : State) : State :=
  let recent := (fportAt s fport).errors.filter (fun e => decide (s.now < e.2 + 1000000))
  if recent.countP (fun e => decide (e.1 = src)) < fld s (Pg.fpt + fport) 0x400 47 32 then
    answer fport (respPkt s 0x06 src tag 0 st.code) []
      (modFport fport (fun v => { v with errors := recent ++ [(src, s.now)] }) s)
  else s

/-- A request refused under R346 or R347: counted by the port, and by the port for the context asked for (Table 02-4). (DEDUCED: notes/assumptions/62.md) -/
def refuseFabric (fport : Nat) (p : Pkt) (st : Status) (s : State) : State :=
  let k := fport * 2 ^ 20 + p.dstCtx
  sendError fport p.src p.tag st (count (Pg.fpt + fport) 0xE50
    { s with ftb := { s.ftb with refused := tput 0 s.ftb.refused k ((tget 0 s.ftb.refused k + 1) % 2 ^ 64) } })

end Sys2Proof.Machine
end

