-- ==== Sys2Proof/Machine/RunEnd.lean ====
section
/-! DEFINITION. Sys2Proof/Machine/RunEnd.lean: how the device's part of a run ends: stalls and the schedule offset, tokens to
peers, step faults, and over-admission of stream demand (R239, R292, R310, R313, R315). -/

namespace Sys2Proof.Machine

def setRun (r : Option Run) (s : State) : State := { s with rcp := { s.rcp with run := r } }

def modRun (f : Run → Run) (s : State) : State := setRun (s.rcp.run.map f) s

def setSht (v : Sht) (s : State) : State := { s with sht := v }

/-! Tiles (R291) -/

def tileKey (row col : Nat) : Nat := 128 * row + col

def tileAt (s : State) (row col : Nat) : Tile := tget Tile.reset s.sht.tiles (tileKey row col)

def setTile (row col : Nat) (t : Tile) (s : State) : State :=
  setSht { s.sht with tiles := tput Tile.reset s.sht.tiles (tileKey row col) t } s

/-- The tile exists and has not failed. -/
def tileGood (s : State) (row col : Nat) : Bool := decide (row < 100) && decide (col < 102) && decide ((tileAt s row col).cause = 0)

def recipeAt (s : State) (h : Nat) : Option Recipe := tget none s.rcp.recipes h

def setRecipe (h : Nat) (q : Option Recipe) (s : State) : State :=
  { s with rcp := { s.rcp with recipes := tput none s.rcp.recipes h q } }

/-- The recipe that is armed or running. -/
def runRecipe (s : State) : Option (Run × Recipe) :=
  match s.rcp.run with
  | some r => (recipeAt s r.handle).map (fun q => (r, q))
  | none => none

/-- The step record that a run stands at. -/
def runStep (s : State) : Option (Run × Recipe × StepRec) :=
  match runRecipe s with
  | some (r, q) => (q.img.steps[r.step]?).map (fun st => (r, q, st))
  | none => none

/-- The credit pool of a recipe's transfers on a port, in 64-byte units (R330). -/
def stepPool (q : Recipe) : Nat := q.img.stepBufBytes / 64

/-- Ports on which a recipe holds slots. -/
def recipePorts (q : Recipe) : List Nat :=
  (List.range 8).filter (fun p => q.img.slots.any (fun x => decide (x.fport = p) && decide (0 < x.count)))

/-- The type-specific field of a recipe transfer or token: step, Δ, outcome. (DESIGN CHOICE: notes/assumptions/57.md) -/
def runSpec (step delta outcome : Nat) : Nat := step + delta % 2 ^ 32 * 2 ^ 16 + outcome * 2 ^ 48

/-- The recipe's transfers have their whole credit, or none, on each of its ports. -/
def poolCredits (q : Recipe) (on : Bool) (s : State) : State :=
  (recipePorts q).foldl (fun s p =>
    modFport p (fun v => { v with credits := tput 0 v.credits 6 (if on && decide (v.state = .up) then stepPool q else 0) }) s) s

/-- Recipe transfers that wait for credit go no further (R313). -/
def dropTransfers (q : Recipe) (s : State) : State :=
  (recipePorts q).foldl (fun s p =>
    modFport p (fun v => { v with queued := v.queued.filter (fun x => decide (x.1.type ≠ 0x20)) }) s) s

/-- Transfers leave the step buffer, and their senders get the credit back (R330). (DEDUCED: notes/assumptions/59.md) -/
def returnStep (l : List Transfer) (s : State) : State :=
  l.foldl (fun s t => sendLink t.fport (.credit 3 0 (creditUnits t.data.length)) s) s

/-- Send a token to the partners on the recipe's ports, but for one. (DESIGN CHOICE: notes/assumptions/57.md) -/
def sendTokens (type : Nat) (outcome : Nat) (except : Option Nat) (s : State) : State :=
  match runRecipe s with
  | none => s
  | some (r, q) =>
    ((recipePorts q).filter (fun p => decide (some p ≠ except) && fportUp s p)).foldl (fun s p =>
      count Pg.rcp 0xE40 (sendPkt p { ctrlPkt s type (fportAt s p).partner.dev (runSpec r.step r.delta outcome) with length := 8 }
        (leBytes 8 q.img.group) s)) s

/-- A stall ends: its length goes to its cause, and Δ grows by whole frames (R132, R310). (DESIGN CHOICE: notes/assumptions/54.md) -/
def endStall (s : State) : State :=
  match s.rcp.run with
  | some r =>
    if r.state = .stalled then
      let len := s.now - r.stallAt
      countBy Pg.mge (0xE80 + 8 * (r.cause - 1)) len
        (setRun (some { r with state := .running, delta := r.delta + ceilDiv len 1024 }) s)
    else s
  | none => s

/-- Tile stores are to be zeroed (R280): what steps left in them is gone, and so are the tables in the code caches (Table 04-3). -/
def zeroTileStores (s : State) : State :=
  setSht { s.sht with zeroing := true, scores := [], codeCache := [], state := if s.sht.state = .frozen then .frozen else
    if s.sht.state = .unavailable then .unavailable else .idle } s

/-- The device's part of a run ends: no further result or transfer leaves, and its tile stores are zeroed; an end other
than OK sends an ABORT token on every recipe port (R313). (DESIGN CHOICE: notes/assumptions/54.md) -/
def endRun (outcome : Status) (s : State) : State :=
  match s.rcp.run with
  | none => s
  | some r =>
    if r.state = .ending then s
    else
      let s1 := endStall s
      let s2 := if outcome = .ok then s1
        else sendTokens 0x22 outcome.code none (match runRecipe s1 with | some (_, q) => dropTransfers q s1 | none => s1)
      zeroTileStores (modRun (fun r => { r with state := .ending, outcome := outcome, computed := false,
                                                lowest := min r.lowest r.step }) s2)

/-! Slabs of recipe streams (R235, R237, R303) -/

/-- Slabs that a stream of a recipe covers: first and number. -/
def streamRun (bind : Nat) (d : StreamRec) : Nat × Nat :=
  (bind / 2 ^ 24, if d.length = 0 then 0 else (bind + 4096 * d.length - 1) / 2 ^ 24 + 1 - bind / 2 ^ 24)

/-- A stream of a loaded recipe covers the slab (R303). -/
def inStream (s : State) (slab : Nat) : Bool :=
  s.rcp.recipes.any (fun p => match p.2 with
    | some q => (q.img.streams.zip q.bind).any (fun x =>
        decide ((streamRun x.2 x.1).1 ≤ slab) && decide (slab < (streamRun x.2 x.1).1 + (streamRun x.2 x.1).2))
    | none => false)

/-- A step of the run is under way. -/
def stepRuns (s : State) : Bool :=
  match s.rcp.run with
  | some r => decide (r.state = .running) || decide (r.state = .stalled)
  | none => false

/-- STEP_FAULT (R291, R292): recorded with its cause and tile, and the run ends with RUN_FAULTED. (DEDUCED: notes/assumptions/55.md) -/
def stepFault (cause row phys logical : Nat) (s : State) : State :=
  match runStep s with
  | none => s
  | some (_, q, st) =>
    if !stepRuns s then s
    else
      endRun .runFaulted (count Pg.sht 0xE18
        (setSht { s.sht with fault := ⟨cause, row, phys, logical, st.op.code, q.ctx⟩ } s))

/-- A step fault that names no tile. (DEDUCED: notes/assumptions/55.md) -/
def stepFaultAt (cause : Nat) (s : State) : State := stepFault cause 0 0 127 s

/-- Recipes with stream demand on a controller whose held demand its floor does not cover: their running step ends, and
their next RUN is refused (R239). -/
def refuseStreams (c : Nat) (s : State) : State :=
  let hit := (s.rlg.streams.filter (fun d => d.homes.any (fun h => decide (h.2 = c)))).map (·.handle)
  let mark (h : Nat) (q : Option Recipe) : Option Recipe :=
    if hit.contains h then q.map (fun x => { x with refused := true }) else q
  let s1 := { s with rcp := { s.rcp with recipes := tmap none mark s.rcp.recipes } }
  match s1.rcp.run with
  | some r => if hit.contains r.handle then stepFaultAt 0xB s1 else s1
  | none => s1

/-- Bring scales up to date after a change of demand or floors, with all that over-admission entails (R239). -/
def settleScales (s : State) : State :=
  ctrlIndices.foldl (fun s c => if floorOf s c < heldDemand s c then refuseStreams c s else s) (updateScales s)

end Sys2Proof.Machine
end

