-- ==== Sys2Proof/Machine/Moves.lean ====
section
/-! DEFINITION. Sys2Proof/Machine/Moves.lean: what moves, first writes, held writes and releases of slabs share (chapter
Placement and Migration; Table 02-2). -/

namespace Sys2Proof.Machine

/-! The move queue -/

def moveOf (s : State) (slab : Nat) : Option Move := s.mge.moves.find? (fun m => decide (m.slab = slab))

def setMoves (l : List Move) (s : State) : State := { s with mge := { s.mge with moves := l } }

def modMove (slab : Nat) (f : Move → Move) (s : State) : State :=
  setMoves (s.mge.moves.map (fun m => if m.slab = slab then f m else m)) s

def dropMove (slab : Nat) (s : State) : State := setMoves (s.mge.moves.filter (fun m => decide (m.slab ≠ slab))) s

/-- A queued move with nothing done yet. -/
def newMove (slab cls : Nat) (target : Tier) (toPool onWrite : Bool) : Move :=
  { slab := slab, cls := cls, target := target, phase := .queued, frame := none, toPool := toPool, passes := 0,
    dirty := [], copied := [], aborts := 0, holdSince := 0, programmed := false, rewrite := [], onWrite := onWrite, guar := 0 }

/-! Votes and hints (R126 – R129) -/

def voteKey (slab ctx : Nat) : Nat := slab * 2 ^ 20 + ctx

def voteAt (s : State) (slab ctx : Nat) : Option Vote := tget none s.mge.votes (voteKey slab ctx)

def setVote (slab ctx : Nat) (v : Option Vote) (s : State) : State :=
  { s with mge := { s.mge with votes := tput none s.mge.votes (voteKey slab ctx) v } }

/-- Votes on a slab, with their contexts. -/
def votesOn (s : State) (slab : Nat) : List (Nat × Vote) :=
  s.mge.votes.filterMap (fun p => match p.2 with
    | some v => if p.1 / 2 ^ 20 = slab then some (p.1 % 2 ^ 20, v) else none
    | none => none)

/-- The home that the votes of contexts holding a right decide (R128). -/
def voteHome (s : State) (slab : Nat) : Option Tier :=
  ((votesOn s slab).filter (fun v => decide (rightOf s v.1 (mapAt s slab) ≠ .none))).foldl
    (fun h v => match h with
      | none => some v.2.want
      | some t => if above v.2.want t then some v.2.want else h) none

/-- The status of a finished hint: the first outcome other than OK in slab order. -/
def hintStatus (l : List (Nat × Status)) : Status :=
  match l.foldl (fun (a : Option (Nat × Status)) x =>
      if x.2 = .ok then a else match a with
        | none => some x
        | some y => if x.1 < y.1 then some x else a) none with
  | some x => x.2
  | none => .ok

/-- Post the completion of hints that wait for nothing more. (DEDUCED: notes/assumptions/32.md) -/
def settleHints (s : State) : State :=
  let done := s.mge.hints.filter (fun h => h.waiting.isEmpty)
  done.foldl (fun s h => complete h.r Opc.hint (hintStatus h.outcomes) h.reached s)
    { s with mge := { s.mge with hints := s.mge.hints.filter (fun h => !h.waiting.isEmpty) } }

/-- A hint's slab is resolved with an outcome. -/
def resolveSlab (id slab : Nat) (st : Status) (s : State) : State :=
  let there (h : Hint) : Bool := match h.target with
    | some t => decide ((mapAt s slab).tier = some t)
    | none => h.tmask
  let s1 := if st = .moveSuperseded ∧ s.mge.hints.any (fun h => decide (h.id = id)) then count Pg.mge 0xE28 s else s
  settleHints { s1 with mge := { s1.mge with hints := s1.mge.hints.map (fun h =>
    if h.id = id ∧ h.waiting.contains slab then
      { h with waiting := h.waiting.filter (fun x => decide (x ≠ slab)), outcomes := h.outcomes ++ [(slab, st)],
               reached := if st = .ok ∧ there h then h.reached + 1 else h.reached }
    else h) } }

/-- Hints with ACTION TMASK that wait for a slab: their slab is resolved. -/
def resolveTmask (slab : Nat) (st : Status) (s : State) : State :=
  (s.mge.hints.filter (fun h => h.tmask && h.waiting.contains slab)).foldl (fun s h => resolveSlab h.id slab st s) s

/-- Remove a vote; a pending one completes its hint for the slab with the status. -/
def removeVote (slab ctx : Nat) (st : Status) (s : State) : State :=
  match voteAt s slab ctx with
  | none => s
  | some v =>
    let s1 := setVote slab ctx none s
    match v.hint with
    | some id => resolveSlab id slab st s1
    | none => s1

/-- Remove the pending votes on a slab whose hints wait for its move. -/
def failVotes (slab : Nat) (st : Status) (s : State) : State :=
  (votesOn s slab).foldl (fun s v => if v.2.hint.isSome then removeVote slab v.1 st s else s) s

/-- Votes of contexts that hold no right any more are lost (R127). -/
def dropRightless (s : State) : State :=
  (s.mge.votes.map (·.1)).foldl (fun s k =>
    if rightOf s (k % 2 ^ 20) (mapAt s (k / 2 ^ 20)) = .none then removeVote (k / 2 ^ 20) (k % 2 ^ 20) .moveSuperseded s
    else s) s

/-- Pending votes on a slab that lies in the home its votes decide complete with OK and stand. -/
def settleVotes (slab : Nat) (s : State) : State :=
  if voteHome s slab = (mapAt s slab).tier ∨ (voteHome s slab).isNone then
    (votesOn s slab).foldl (fun s v => match v.2.hint with
      | some id => resolveSlab id slab .ok (setVote slab v.1 (some { v.2 with hint := none, stoodAtSwap := false }) s)
      | none => s) s
  else s

/-! Frames -/

/-- Give a frame that a slab no longer uses to zeroing; a T3 frame is free at once (R33, R142). -/
def freeToZeroing (t : Tier) (frame : Nat) (s : State) : State :=
  if t = .t3 then
    clearFrame .t3 frame { s with fmg := { s.fmg with slots := tput none s.fmg.slots frame none,
                                                      relocating := s.fmg.relocating.filter (fun x => decide (x ≠ frame)) } }
  else { s with mge := { s.mge with zeroing := s.mge.zeroing ++ [(t, frame)] } }

/-- A frame of a tier that is ready for a slab: a free one, else one whose zeroing is done out of turn (R422). -/
def takeFrame (t : Tier) (s : State) : Option (Nat × State) :=
  match freeFrame s t (fun _ => true) with
  | some f => some (f, s)
  | none =>
    match s.mge.zeroing.find? (fun z => decide (z.1 = t) && frameUsable s t z.2) with
    | some z => some (z.2, clearFrame t z.2 { s with mge := { s.mge with zeroing := s.mge.zeroing.erase z } })
    | none => none

/-- FLASH_USE OFF, or HOST_EXCLUDED for a slab of a valid partition (R124). -/
def t3Excluded (s : State) (slab : Nat) : Bool :=
  decide (s.dev.profile.flashUse = 2) || (decide (s.dev.profile.flashUse = 1) && inPartition s slab)

/-- Context `c` may place the slab in tier `t` within its reservation. -/
def canPlace (s : State) (slab c : Nat) (t : Tier) : Bool :=
  tierBit (mapAt s slab).tmask t && decide (0 < unusedFrames s c t) && !(decide (t = .t3) && (t3Excluded s slab || !t3Online s))

/-- HINTED mode. -/
def hintedMode (s : State) : Bool := decide (s.dev.profile.placement = 1)
def pinnedMode (s : State) : Bool := decide (s.dev.profile.placement = 2)

/-! Abandoning a move (R116, R118, R120) -/

/-- Drop a move, keeping F and freeing G. -/
def abandonMove (slab : Nat) (s : State) : State :=
  match moveOf s slab with
  | none => s
  | some m =>
    let s1 := dropMove slab s
    let s2 := { s1 with mge := { s1.mge with swaps := s1.mge.swaps.filter (fun p => decide (p.2 ≠ slab)) } }
    if m.phase = .queued then s2
    else
      let s3 := modMap slab (fun e => if e.state = .moving then
        { e with state := if e.sealBit then .sealed else .resident } else e) s2
      count Pg.mge 0xE20 (match m.frame with | some g => freeToZeroing m.target g s3 | none => s3)

/-- How a request for a move ends at the queue (R116). -/
inductive Queued where
  | joined | queued | later | busy
  deriving DecidableEq, Repr

/-- The queue of class-4 and class-5 moves is full. -/
def queueFull (s : State) (cls : Nat) : Bool :=
  decide (4 ≤ cls) && decide (4096 ≤ s.mge.moves.countP (fun m => decide (4 ≤ m.cls) && decide (m.phase = .queued)))

/-- Ask for a move of a slab (R116). -/
def requestMove (slab cls : Nat) (target : Tier) (toPool onWrite : Bool) (s : State) : Queued × State :=
  match moveOf s slab with
  | some m =>
    if m.target = target then (.joined, if onWrite then modMove slab (fun x => { x with onWrite := true }) s else s)
    else if cls ≤ m.cls ∧ m.phase ≠ .queued ∧ queueFull s cls then (.busy, count Pg.mge 0xE40 s)
    else if cls ≤ m.cls then
      let s1 := if m.cls = 4 ∧ cls ≠ 4 then failVotes slab .moveSuperseded s else s
      if m.phase = .queued then
        (.queued, modMove slab (fun x => { x with target := target, cls := cls, toPool := toPool, onWrite := onWrite || x.onWrite }) s1)
      else
        let s2 := abandonMove slab s1
        (.queued, setMoves (s2.mge.moves ++ [newMove slab cls target toPool (onWrite || m.onWrite)]) s2)
    else (.later, s)
  | none =>
    if queueFull s cls then
      (.busy, count Pg.mge 0xE40 s)
    else (.queued, setMoves (s.mge.moves ++ [newMove slab cls target toPool onWrite]) s)

/-! First frame of a slab (R32, R113) -/

/-- Stream bandwidth that one slab carries (R237). -/
def slabShare (s : State) (slab : Nat) : Nat :=
  listSum (s.rlg.streams.map (fun d => d.homes.countP (fun h => decide (h.1 = slab)) * ceilDiv d.bw d.homes.length))

def headroom (s : State) (c : Nat) : Nat := floorOf s c - demandOf s c

/-- The frame that a move takes in a tier: for a slab of a recipe stream, on a controller that carries its share, else
on the one with the greatest headroom. -/
def targetFrame (slab : Nat) (t : Tier) (s : State) : Option (Nat × State) :=
  if !inStream s slab then takeFrame t s
  else
    let share := slabShare s slab
    match freeFrame s t (fun f => decide (share ≤ headroom s (frameCtrl s t f))) with
    | some f => some (f, s)
    | none =>
      let best := (ctrlsOf t).foldl (fun (a : Option (Nat × Nat × Nat)) c =>
        match freeFrame s t (fun f => decide (frameCtrl s t f = c)) with
        | none => a
        | some f => match a with
          | none => some (c, f, headroom s c)
          | some x => if x.2.2 < headroom s c then some (c, f, headroom s c) else a) none
      match best with
      | some (_, f, _) => some (f, s)
      | none => takeFrame t s

/-- Stream demand follows a slab to its new controller (R237). -/
def moveShare (slab : Nat) (t : Tier) (g : Nat) (s : State) : State :=
  let c := frameCtrl s t g
  { s with rlg := { s.rlg with streams := s.rlg.streams.map (fun d =>
      { d with homes := d.homes.map (fun h => if h.1 = slab then (slab, c) else h) }) } }

/-- The frame that the first write of a slab takes in a tier: a slab of a recipe stream takes one on the controller that
carries its share (R235), else as a move does. -/
def firstFrame (slab : Nat) (t : Tier) (s : State) : Option (Nat × State) :=
  match s.rlg.streams.findSome? (fun d => d.homes.find? (fun h => decide (h.1 = slab))) with
  | none => takeFrame t s
  | some h =>
    match freeFrame s t (fun f => decide (frameCtrl s t f = h.2)) with
    | some f => some (f, s)
    | none => (targetFrame slab t s).map (fun x => (x.1, settleScales (moveShare slab t x.1 x.2)))

/-- Give a frame to a slab that holds none (R113): a slab that T3 takes is staged in a pool frame; none when its first write
waits. -/
def assignFrame (slab : Nat) (s : State) : Option State :=
  let e := mapAt s slab
  let c := ownerOf s e
  let order := (if hintedMode s then (match voteHome s slab with | some t => [t] | none => []) else []) ++ [.t2, .t1]
  let place (t : Tier) (pool : Bool) : Option State :=
    match firstFrame slab t s with
    | some (f, s1) => some (modMap slab (fun e =>
        { e with state := if e.sealBit then .sealed else .resident, tier := some t, frame := f, pool := pool }) s1)
    | none => none
  match (order ++ [Tier.t3]).find? (fun t => canPlace s slab c t) with
  | some .t3 =>
    let t : Tier := if tierBit e.tmask .t2 then .t2 else .t1
    if poolFree s t then
      match place t true with
      | some s1 => some (requestMove slab 1 .t3 false false s1).2
      | none => none
    else none
  | some t => place t false
  | none => none

/-! Writes that wait (R113, R118, R122) -/

/-- Start the class-1 promotion of a T3 slab that a write needs, or join one; a move of another cause is met as R116 gives (R122). -/
def promoteOnWrite (slab : Nat) (s : State) : State :=
  let c := ownerOf s (mapAt s slab)
  let (t, pool) : Tier × Bool :=
    if canPlace s slab c .t2 then (.t2, false) else if canPlace s slab c .t1 then (.t1, false) else (.t2, true)
  if (moveOf s slab).any (fun m => decide (m.cls = 1) && decide (m.target ≠ .t3)) then modMove slab (fun x => { x with onWrite := true }) s
  else match requestMove slab 1 t pool true s with
    | (.queued, s1) => count Pg.mge 0xE10 s1
    | (_, s1) => s1

/-- A write to the slab cannot be applied now: it has no frame and gets none, lies in T3, or is in the hold of its
move. The state has whatever the write starts. (DEDUCED: notes/assumptions/31.md) -/
def prepareWrite (slab : Nat) (s : State) : Bool × State :=
  let e := mapAt s slab
  if e.tier.isNone then
    match assignFrame slab s with
    | some s1 => (true, s1)
    | none => (false, s)
  else if e.tier = some .t3 then (false, promoteOnWrite slab s)
  else match moveOf s slab with
    | some m => (decide (m.phase ≠ .holding), s)
    | none => (true, s)

/-- A merged or full write was refused because its block is bad: the form of its path (Table 08-2). -/
def refuseWrite (src : WriteSrc) (st : Status) (ctx block : Nat) (s : State) : State :=
  match src with
  | .cxl port dpa =>
    emit (.cxlWriteDone port dpa false)
      (raise Pg.ple st .contained 0 ctx block 0 [pfOf port] true s)
  | .bar fn _ => noteAer fn st.code s
  | .fabric fport src _ tag => sendError fport src tag st s

/-- A write has completed. -/
def ackWrite (src : WriteSrc) (s : State) : State :=
  match src with
  | .cxl port dpa => emit (.cxlWriteDone port dpa true) s
  | .bar fn off => emit (.barWriteDone fn off) s
  | .fabric fport src _ tag => answer fport (respPkt s 0x05 src tag 0 0) [] s

/-- The function whose access a write is, for the events of the errors it meets. -/
def writerFn (s : State) (src : WriteSrc) (ctx : Nat) : Nat :=
  match src with
  | .bar fn _ => fn
  | .cxl port _ => pfOf port
  | _ => ctxFn s ctx

/-- A path may write a block in full (R197, R346). -/
def mayFull : WriteSrc → Bool
  | .bar .. => true
  | _ => false

/-- Apply a write to a home that takes it, and answer it. -/
def applyWrite (w : HeldStore) (s : State) : State :=
  match writeInPlace (Det.reader (writerFn s w.src w.ctx)) (mayFull w.src) (w.block / 4096) (w.block % 4096) w.off w.data s with
  | (.ok, s1) => ackWrite w.src s1
  | (st, s1) => refuseWrite w.src st w.ctx w.block s1

/-- A write that passed the access check: applied, or held until its slab can take it. (PRESUMED: notes/assumptions/13.md, DEDUCED: notes/assumptions/31.md) -/
def offerWrite (w : HeldStore) (s : State) : State :=
  match prepareWrite (w.block / 4096) s with
  | (true, s1) => applyWrite w s1
  | (false, s1) => { s1 with mge := { s1.mge with held := s1.mge.held ++ [w] } }

/-! Drains (R45) -/

/-- Accesses that a drain still waits for beside those of its windows. -/
def accessesLeft (s : State) (d : Drain) : Bool :=
  d.writes.any (fun w => s.mge.held.contains w) ||
    d.reads.any (fun x => s.fmg.recoveries.any (fun r => r.waiters.any (fun w => decide (w.src = x))))

/-- A drain of R45 ends once nothing is left of it: its command completes. -/
def endDrain (d : Drain) (s : State) : State :=
  if d.wins.isEmpty && !accessesLeft s d then
    match d.cmd with
    | some (r, op) => complete r op .ok 0 s
    | none => s
  else { s with ple := { s.ple with drains := s.ple.drains ++ [d] } }

/-- Drains of R45 whose accesses have ended complete. -/
def settleDrains (s : State) : State :=
  s.ple.drains.foldl (fun s d => endDrain d s) { s with ple := { s.ple with drains := [] } }

/-- Release the held writes of a slab, in order. -/
def releaseHeld (slab : Nat) (s : State) : State :=
  let mine := s.mge.held.filter (fun w => decide (w.block / 4096 = slab))
  settleDrains (mine.foldl (fun s w => offerWrite w s)
    { s with mge := { s.mge with held := s.mge.held.filter (fun w => decide (w.block / 4096 ≠ slab)) } })

/-- Ask for a move of a slab; when it replaces one that held writes, these are released to F (R116, R118). -/
def askMove (slab cls : Nat) (target : Tier) (toPool onWrite : Bool) (s : State) : Queued × State :=
  let held := (moveOf s slab).any (fun m => decide (m.phase = .holding))
  match requestMove slab cls target toPool onWrite s with
  | (.queued, s1) => (.queued, if held then releaseHeld slab s1 else s1)
  | x => x

/-- The slab that was to move down in a swap does not: the swap ends, and the queued promotion it made room for with it. (DEDUCED: notes/assumptions/33.md) -/
def dropPartner (cold : Nat) (s : State) : State :=
  match s.mge.swaps.find? (fun p => decide (p.1 = cold)) with
  | none => s
  | some (_, k) =>
    let s1 := { s with mge := { s.mge with swaps := s.mge.swaps.filter (fun p => decide (p.1 ≠ cold)) } }
    if (moveOf s1 k).any (fun m => decide (m.phase = .queued) && decide (4 ≤ m.cls)) then failVotes k .moveAbandoned (dropMove k s1) else s1

/-- Held writes of every slab that can now take them, after a frame was freed. (PRESUMED: notes/assumptions/13.md) -/
def retryHeld (s : State) : State :=
  ((s.mge.held.map (fun w => w.block / 4096)).eraseDups).foldl (fun s k =>
    if (mapAt s k).tier.isNone then releaseHeld k s else s) s

/-! Slabs on their way to FREE (Table 02-2, R37, R230) -/

/-- Bring a DRAINING context to FREE once it owns no slab (R37). (DEDUCED: notes/assumptions/27.md) -/
def settleCtx (c : Nat) (s : State) : State :=
  let x := ctxAt s c
  if x.state = .draining ∧ (slabsOf s c).isEmpty then
    bumpGen x.fn (setCtx c Ctx.reset (setResv c Resv.zero s))
  else s

/-- A slab becomes FREE; the frame it used returns with it when its context is DRAINING (R230). -/
def slabFree (slab : Nat) (s : State) : State :=
  let e := mapAt s slab
  let c := ownerOf s e
  let s1 := setMap slab MapEntry.free s
  let s2 := if (ctxAt s c).state = .draining ∧ !e.pool then
      let r := resvOf s c
      setResv c (match e.tier with
        | some .t1 => { r with f1 := r.f1 - 1 }
        | some .t2 => { r with f2 := r.f2 - 1 }
        | some .t3 => { r with f3 := r.f3 - 1 }
        | none => r) s1
    else s1
  settleCtx c (if shortfall s2 then retireSlabs s2 else s2)

/-- Reads of the slab that passed the check wait for flash recovery. -/
def readsWait (s : State) (slab : Nat) : Bool :=
  s.fmg.recoveries.any (fun r => decide (r.block / 4096 = slab) && !r.waiters.isEmpty)

/-- The bus error of a read on its path (Table 08-2). -/
def answerBad (src : ReadSrc) (st : Status) (s : State) : State :=
  match src with
  | .cxl port dpa => poisonCxl port dpa s
  | .bar fn off _ => answerBar fn off .poison s
  | .fabric fport p => sendError fport p.src p.tag st s

/-- Put a slab that no read waits for on its way to FREE: moves, hints, held writes, descriptors, tables and the tray
cache follow (R120, Table 02-2). -/
def releaseNow (slab : Nat) (s : State) : State :=
  let held := s.mge.held.filter (fun w => decide (w.block / 4096 = slab))
  let s0 := resolveTmask slab .moveAbandoned (failVotes slab .moveAbandoned (abandonMove slab s))
  let s1 := settleDrains (held.foldl (fun s w => ackWrite w.src s)
    { s0 with mge := { s0.mge with held := s0.mge.held.filter (fun w => decide (w.block / 4096 ≠ slab)) } })
  let e := mapAt s1 slab
  let lo := match e.tier with | some t => homeKey t e.frame 0 | none => 0
  let tables : List Nat := match e.tier with
    | some _ => (s1.descs.filter (fun (p : Nat × Desc) => decide (lo ≤ p.1) && decide (p.1 < lo + 4096))).filterMap
        (fun p => codedTable p.2)
    | none => []
  let s2 := match e.tier with
    | some _ => { s1 with descs := tkeep (fun k => decide (k < lo) || decide (lo + 4096 ≤ k)) s1.descs,
                          plants := tkeep (fun k => decide (k < lo) || decide (lo + 4096 ≤ k)) s1.plants }
    | none => s1
  let s3 := tables.foldl (fun s id => unrefTable id s) s2
  let s4 := dropTraySlab slab { s3 with
    fmg := { s3.fmg with poisonRec := s3.fmg.poisonRec.filter (fun k => decide (k / 4096 ≠ slab)),
                         recoveries := s3.fmg.recoveries.filter (fun r => decide (r.block / 4096 ≠ slab)) },
    mge := { s3.mge with votes := tkeep (fun k => decide (k / 2 ^ 20 ≠ slab)) s3.mge.votes } }
  let s5 := setMap slab { e with state := .zeroed, releasing := true, sealBit := false } s4
  match e.tier with
  | none => slabFree slab s5
  | some .t3 => slabFree slab (freeToZeroing .t3 e.frame s5)
  | some _ => s5

/-- Put a slab on its way to FREE; the release waits for reads that had passed the check (R51). -/
def releaseSlab (slab : Nat) (s : State) : State :=
  if readsWait s slab then
    { s with ple := { s.ple with leaving := if s.ple.leaving.contains slab then s.ple.leaving else s.ple.leaving ++ [slab] } }
  else releaseNow slab s

/-- Reads that waited for data have ended: releases that waited for them, and tables in QUARANTINE, go on (R51, R99). -/
def readsEnded (s : State) : State :=
  let due := s.ple.leaving.filter (fun k => !readsWait s k)
  releaseTables (settleDrains (due.foldl (fun s k => releaseNow k s)
    { s with ple := { s.ple with leaving := s.ple.leaving.filter (fun k => readsWait s k) } }))

end Sys2Proof.Machine
end

