-- ==== Sys2Proof/Machine/Arm.lean ====
section
/-! DEFINITION. Sys2Proof/Machine/Arm.lean: what a run needs to be armed: the conditions of R306, the comparator of its start, and a
peer's answer to ARM (R295, R304, R306, R307). -/

namespace Sys2Proof.Machine

/-- The recipe fits the logical shape (R295), and the sheet is available. -/
def shapeFits (s : State) (img : Image) : Bool :=
  decide (90 ≤ s.sht.cols) && s.sht.edgeOk && decide (img.rows = 100) &&
    (decide (img.cols = s.sht.cols) || (img.shapeFlex && decide (img.minCols ≤ s.sht.cols)))

/-- Bytes that a slot carries at the width of a port (R337). -/
def slotBytes (s : State) (fport : Nat) : Nat := if (fportAt s fport).width = 3 then 50 else if (fportAt s fport).width = 0 then 0 else 25

/-- Slots of a recipe on a port: all, and those outside its TOKEN range. -/
def slotCount (img : Image) (fport : Nat) : Nat := listSum ((img.slots.filter (fun x => decide (x.fport = fport))).map (·.count))

def dataSlots (img : Image) (fport : Nat) : Nat :=
  listSum ((img.slots.filter (fun x => decide (x.fport = fport) && !x.token)).map (·.count))

/-- A step's fabric bytes on a port fit its window, in whole frames. -/
def stepFits (s : State) (img : Image) (st : StepRec) (fport : Nat) : Bool :=
  let bytes := st.fabricBytes.getD fport 0
  let per := dataSlots img fport * slotBytes s fport
  decide (bytes = 0) || (decide (0 < per) && decide (4096 * ceilDiv bytes per ≤ st.window))

/-- Every step fits on every port. (DEDUCED: notes/assumptions/56.md) -/
def slotsFit (s : State) (img : Image) : Bool :=
  img.steps.all (fun st => (List.range 8).all (stepFits s img st))

/-- FROM_STEP is 0 or flagged RESTART. -/
def fromStepOk (img : Image) (k : Nat) : Bool :=
  decide (k = 0) || (match img.steps[k]? with | some st => st.restart | none => false)

/-- Why a loaded recipe cannot be armed now (R306), apart from the lead test and the comparator. -/
def armRefusal (s : State) (q : Recipe) (fromStep : Nat) : Option Status :=
  if !fromStepOk q.img fromStep then some .accessDenied
  else if s.rcp.run.isSome then some .recipeBusy
  else if !shapeFits s q.img then some .recipeShape
  else if q.refused then some .recipeBandwidth
  else if !slotsFit s q.img then some .recipeSlots
  else none

/-- Arm a recipe: the run holds the lowest free comparator. None when no comparator is free. -/
def armRun (h : Nat) (q : Recipe) (cmd : Option RingCmd) (lead : Option Nat) (fromStep startNs : Nat) (s : State) : Option State :=
  match freeComparator s with
  | none => none
  | some n =>
    (takeClaim n { owner := .firmware, port := 0, user := .rcpRun, ctx := q.ctx, tap := false } s).map (fun t =>
      poolCredits q true (setRun (some
        { handle := h, state := .armed, cmd := cmd, lead := lead, fromStep := fromStep, step := fromStep, t0 := none,
          startNs := startNs, delta := 0, sent := false, computed := false, waiting := 0, waitSlab := 0,
          got := [], pos := 0, asked := none, stallAt := 0, cause := 0, cmp := n, readyBy := [], armedAt := s.now, heard := [],
          adopted := false, lowest := 4095, buffer := [], outcome := .ok, afterUnload := false, waiters := [] }) t))

/-- The payload of a group packet: GROUP and one more field. (DESIGN CHOICE: notes/assumptions/57.md) -/
def groupBytes (group x : Nat) : List Byte := leBytes 8 group ++ leBytes 8 x

/-- Send a group packet to a device. (DESIGN CHOICE: notes/assumptions/57.md) -/
def sendGroup (type dst group x : Nat) (s : State) : State :=
  sendTo { ctrlPkt s type dst 0 with length := 16 } (groupBytes group x) s

/-- Handle of the loaded recipe of a group under a lead. -/
def recipeOf (s : State) (group lead : Nat) : Option (Nat × Recipe) :=
  s.rcp.recipes.findSome? (fun p => match p.2 with
    | some q => if q.img.group = group ∧ q.img.leadId = lead then some (p.1, q) else none
    | none => none)

/-- Answer ARM with READY, or with REFUSE and the status (R307). (DEDUCED: notes/assumptions/58.md) -/
def answerArm (a : HeldArm) (s : State) : State :=
  match recipeOf s a.group a.lead with
  | none => s
  | some (h, q) =>
    match armRefusal s q a.fromStep with
    | some st => sendGroup 0x25 a.src a.group st.code s
    | none =>
      match armRun h q none (some a.lead) a.fromStep 0 s with
      | none => sendGroup 0x25 a.src a.group Status.claimDenied.code (denyClaim s)
      | some t => sendGroup 0x24 a.src a.group 0 t

end Sys2Proof.Machine
end

