-- ==== Sys2Proof/Machine/Access.lean ====
section
/-! DEFINITION. Sys2Proof/Machine/Access.lean: CXL.mem and BAR aperture accesses and the tray cache (rows CXL_MEM_READ to
TRAY_FLUSH_DONE). -/

namespace Sys2Proof.Machine

/-! CXL.mem (R46, R370) -/

/-- Valid partitions of a port in ascending order. -/
def portParts (s : State) (port : Nat) : List (Nat × Part) :=
  s.ple.parts.filter (fun p => p.2.valid && decide (p.2.port = port))

/-- The partition that a DPA lies in, with its number and D (R370). -/
def findDpa : List (Nat × Part) → Nat → Option (Nat × Part × Nat)
  | [], _ => none
  | (n, p) :: l, dpa => if dpa < p.count * 2 ^ 24 then some (n, p, dpa) else findDpa l (dpa - p.count * 2 ^ 24)

def dpaOf (s : State) (port dpa : Nat) : Option (Nat × Part × Nat) := findDpa (portParts s port) dpa

/-- The ACCESS_DENIED event of a refused CXL.mem access (Table 15-20). -/
def cxlDenied (port : Nat) (part : Option Nat) (step ctx block : Nat) (s : State) : State :=
  raise (Pg.ple) .accessDenied .contained 0 ctx block
    ((match part with | some n => place n 8 4 | none => 2 ^ 12) + place step 0 4) [pfOf port] false s

/-- CXL.mem service is on for a port: memory enabled, MEM_ACTIVE set, device running (R420, Table 16-5). -/
def cxlServed (s : State) (port : Nat) : Bool :=
  awake s && s.dev.memEnabled && (hport s port).memActive && portUp s port

/-- Resolve and check a CXL.mem access: the context, slab and byte in the slab with the state after the check, or the state
after its refusal. -/
def cxlCheck (port dpa : Nat) (write : Bool) (s : State) : Except State ((Nat × Nat × Nat) × State) :=
  match dpaOf s port dpa with
  | none => .error (cxlDenied port none 3 noCtx 0 (noteDeny 0 3 (pfOf port) 0 0 s))
  | some (n, p, d) =>
    let slab := p.first + d / 2 ^ 24
    match checkAccess ⟨0, ctxFn s p.ctx, p.ctx, none, write, false⟩ slab s with
    | (some (step, _), s1) => .error (cxlDenied port (some n) step p.ctx (blockIdx slab (d % 2 ^ 24 / 4096)) s1)
    | (none, s1) => .ok ((p.ctx, slab, d % 2 ^ 24), s1)

/-- Wait for flash recovery of a block. (PRESUMED: notes/assumptions/13.md) -/
def awaitFlash (slab b : Nat) (src : ReadSrc) (s : State) : State :=
  { s with fmg := { s.fmg with recoveries := s.fmg.recoveries.map (fun r =>
      if r.block = blockIdx slab b then { r with waiters := r.waiters ++ [{ src := src, stamp := s.ppu.current.toNat, since := s.now }] }
      else r) } }

/-- Serve a CXL.mem read that passed the check. -/
def cxlServe (port dpa slab byte : Nat) (s : State) : State :=
  let b := byte / 4096
  match serviceRead (Det.reader (pfOf port)) slab b s with
  | (.clean data _, s1) =>
    match meetBuffer 0 s1 with
    | (true, s2) => poisonCxl port dpa s2
    | (false, s2) => emit (.cxlData port dpa ((data.drop (byte % 4096)).take 64)) s2
  | (.bad _, s1) => poisonCxl port dpa s1
  | (.waits, s1) => awaitFlash slab b (.cxl port dpa) s1

/-- CXL_MEM_READ. -/
def execCxlMemRead (port dpa : Nat) (s : State) : Host.Outcome State Fault Refusal :=
  let a := dpa / 64 * 64
  .next (if 2 ≤ port then s
    else if !cxlServed s port then poisonCxl port a s
    else match cxlCheck port a false s with
      | .error s1 => poisonCxl port a s1
      | .ok ((_, slab, byte), s1) => cxlServe port a slab byte (touch slab s1))

/-- CXL_MEM_WRITE: 64 bytes, merged into their block. -/
def execCxlMemWrite (port dpa : Nat) (data : List Byte) (s : State) : Host.Outcome State Fault Refusal :=
  let a := dpa / 64 * 64
  .next (if 2 ≤ port ∨ data.length ≠ 64 then s
    else if !cxlServed s port then emit (.cxlWriteDone port a false) s
    else match cxlCheck port a true s with
      | .error s1 => emit (.cxlWriteDone port a false) s1
      | .ok ((ctx, slab, byte), s1) =>
        offerWrite { src := .cxl port a, ctx := ctx, block := blockIdx slab (byte / 4096), off := byte % 4096,
                     data := data, since := s.now } (touch slab s1))

/-! BAR apertures (R43, R44, R358) -/

/-- The valid window of a function that an aperture offset lies in. -/
def windowFor (s : State) (fn off : Nat) : Option Window :=
  s.ple.windows.findSome? (fun p => match p.2 with
    | some w => if w.fn = fn ∧ w.aptBase ≤ off / 2 ^ 24 ∧ off / 2 ^ 24 < w.aptBase + w.length then some w else none
    | none => none)

/-- Aperture requests of a function reach its windows: the function answers, memory is enabled, and its TDI admits
them (R382, R420). -/
def apertureOpen (s : State) (fn : Nat) (secure : Bool) : Bool :=
  awake s && s.dev.memEnabled && fnLive s fn && decide ((func s fn).phase = .ready) && !(func s fn).d3hot &&
    (match (func s fn).tdi with
      | .run => secure
      | .error => false
      | _ => true)

/-- The parts of a request that lie in one block each: offset and length. -/
def blockParts : Nat → Nat → Nat → List (Nat × Nat)
  | 0, _, _ => []
  | fuel + 1, off, len =>
    if len = 0 then []
    else
      let n := min len (4096 - off % 4096)
      (off, n) :: blockParts fuel (off + n) (len - n)

/-- Resolve and check one part of an aperture request: its window's context and slab, with the state after the check. -/
def barCheck (fn off : Nat) (write : Bool) (s : State) : Except (Resp × State) ((Nat × Nat) × State) :=
  match windowFor s fn off with
  | none => .error (.ur, noteDeny 1 3 fn 0 0 s)
  | some w =>
    let slab := w.first + (off / 2 ^ 24 - w.aptBase)
    match checkAccess ⟨1, fn, w.ctx, some w, write, false⟩ slab s with
    | (some _, s1) => .error (.ca, s1)
    | (none, s1) => .ok ((w.ctx, slab), s1)

/-- Resolve and check every part of an aperture read: the response of the first part that is refused, and block index, offset in
the block and length of each part that passes (R358). -/
def barParts (fn : Nat) : List (Nat × Nat) → State → (Option Resp × List (Nat × Nat × Nat)) × State
  | [], s => ((none, []), s)
  | p :: ps, s =>
    match barCheck fn p.1 false s with
    | .error (r, s1) =>
      let (x, s2) := barParts fn ps s1
      ((some r, x.2), s2)
    | .ok ((_, slab), s1) =>
      let (x, s2) := barParts fn ps s1
      ((x.1, (blockIdx slab (p.1 % 2 ^ 24 / 4096), p.1 % 4096, p.2) :: x.2), s2)

/-- Outcome of a multi-block read so far. -/
structure BarGot where
  data : List Byte
  resp : Option Resp
  wait : Option Nat
  deriving DecidableEq, Repr

/-- Read one part of an aperture request that passed the check. -/
def barReadPart (fn : Nat) (p : Nat × Nat × Nat) (g : BarGot) (s : State) : BarGot × State :=
  match serviceRead (Det.reader fn) (p.1 / 4096) (p.1 % 4096) s with
  | (.clean data _, s1) => ({ g with data := g.data ++ (data.drop p.2.1).take p.2.2 }, s1)
  | (.bad _, s1) => ({ g with resp := some (g.resp.getD .poison) }, s1)
  | (.waits, s1) => ({ g with wait := some (g.wait.getD p.1) }, s1)

/-- Note an aperture error in the function's own error reporting. -/
def barError (fn : Nat) (r : Resp) (s : State) : State :=
  noteAer fn (match r with | .ur => aerUr | .ca => aerCa | _ => aerPoison) s

/-- Read the parts of an aperture request that passed the check. -/
def barReadParts (fn : Nat) (parts : List (Nat × Nat × Nat)) (s : State) : BarGot × State :=
  parts.foldl (fun x p => barReadPart fn p x.1 x.2) (({ data := [], resp := none, wait := none } : BarGot), s)

/-- Serve the parts of an aperture read that passed the check; it finds its slabs as they were then (R51). -/
def barServeParts (fn off : Nat) (parts : List (Nat × Nat × Nat)) (s : State) : State :=
  let (g, s1) := barReadParts fn parts s
  match g.resp, g.wait with
  | some r, _ => answerBar fn off r (barError fn r s1)
  | none, some k => awaitFlash (k / 4096) (k % 4096) (.bar fn off parts) s1
  | none, none =>
    match meetBuffer 1 s1 with
    | (true, s2) => answerBar fn off .poison (barError fn .poison s2)
    | (false, s2) => emit (.barData fn off g.data) s2

/-- Serve a read of an aperture: checked part by part, each block access counted once (R110). A request with a refused part is
answered with that part's response; its passing blocks are still read (R358). -/
def barServe (fn off len : Nat) (s : State) : State :=
  let ((refused, parts), s1) := barParts fn (blockParts (len + 1) off len) s
  let s2 := parts.foldl (fun s p => touch (p.1 / 4096) s) s1
  match refused with
  | some r => answerBar fn off r (barError fn r (barReadParts fn parts s2).2)
  | none => barServeParts fn off parts s2

/-- BAR_READ. -/
def execBarRead (fn off len : Nat) (secure : Bool) (s : State) : Host.Outcome State Fault Refusal :=
  .next (if !fnExists s fn then s
    else if s.sss.state ≠ .watch then answerBar fn off .ca s
    else if !apertureOpen s fn secure then answerBar fn off .ur s
    else if 4096 < len then answerBar fn off .ur s
    else barServe fn off len s)

/-- Apply one part of an aperture write. -/
def barWritePart (fn : Nat) (p : Nat × List Byte) (s : State) : State :=
  match barCheck fn p.1 true s with
  | .error (r, s1) => barError fn r s1
  | .ok ((ctx, slab), s1) =>
    offerWrite { src := .bar fn p.1, ctx := ctx, block := blockIdx slab (p.1 % 2 ^ 24 / 4096), off := p.1 % 4096,
                 data := p.2, since := s.now } (touch slab s1)

/-- BAR_WRITE. -/
def execBarWrite (fn off : Nat) (data : List Byte) (secure : Bool) (s : State) : Host.Outcome State Fault Refusal :=
  .next (if !apertureOpen s fn secure then s
    else (blockParts (data.length + 1) off data.length).foldl
      (fun s p => barWritePart fn (p.1, (data.drop (p.1 - off)).take p.2) s) s)

/-! The tray cache -/

/-- A flush of the tray cache starts (R83). -/
def startFlush (s : State) : State := { s with cdc := { s.cdc with flushing := true } }

/-- With TRAY_ENABLE clear the tray cache holds no block (R81); once the self-test has taken it out, TRAY_ENABLE stays 0 (R214). -/
def settleTray (s : State) : State :=
  let t := if s.cdc.trayOff then setReg Pg.cdc 0x40 (setBits (reg s Pg.cdc 0x40) 0 0 0) s else s
  if flag t Pg.cdc 0x40 0 then t else { t with cdc := { t.cdc with tray := [] } }

/-- TRAY_FLUSH: CDC_CODEC_CTRL.TRAY_FLUSH written with 1 (R83). -/
def execTrayFlush (w : Nat) (s : State) : Host.Outcome State Fault Refusal :=
  .next (ownedWrite w Pg.cdc startFlush s)

/-- TRAY_FLUSH_DONE: every entry has been dropped. -/
def execTrayFlushDone (s : State) : Host.Outcome State Fault Refusal :=
  .next (whenAwake s (fun s => if s.cdc.flushing then { s with cdc := { s.cdc with flushing := false, tray := [] } } else s))

end Sys2Proof.Machine
end

