-- ==== Sys2Proof/Machine/Presented.lean ====
section
/-! DEFINITION. Sys2Proof/Machine/Presented.lean: reservations, contexts, share groups, windows, partitions and sealing (rows
RESERVE to SEAL but for CTX_DESTROY, which stands in Drain.lean). -/

namespace Sys2Proof.Machine

/-! What a ring command may name -/

/-- The function and the context that a ring command names (steps 1 and 2 of R49): the refusal, recorded. -/
def gateCtx (r : RingCmd) (ctx : Nat) (s : State) : Option Status × State :=
  let s := meetSram .contexts ctx s
  if !fnLive s r.fn || s.sram.lost then (some .stopped, noteDeny 2 1 r.fn ctx 0 s)
  else if (ctxAt s ctx).state ≠ .active ∨ (ctxAt s ctx).fn ≠ r.fn then (some .accessDenied, noteDeny 2 2 r.fn ctx 0 s)
  else (none, s)

/-- Run the body of a command for a context of the issuing function. -/
def withCtx (r : RingCmd) (ctx : Nat) (body : State → Status × Nat × State) (s : State) : Status × Nat × State :=
  match gateCtx r ctx s with
  | (some st, s1) => (st, 0, s1)
  | (none, s1) => body s1

/-- The issuing function is the PF of the port of an ACTIVE context (R229, R230). -/
def pfNames (s : State) (r : RingCmd) (ctx : Nat) : Bool :=
  isPf r.fn && decide ((ctxAt s ctx).state = .active) && decide (fnPort (ctxAt s ctx).fn = fnPort r.fn)

/-- A presented address that starts a slab. -/
def slabAligned (dest : Nat) : Bool := decide (dest % 2 ^ 24 = 0) && decide (dest < 2 ^ 48)

def slabList (first n : Nat) : List Nat := (List.range n).map (· + first)

/-! RESERVE and RELEASE (R226 – R231, R470) -/

/-- The lowest run of `n` FREE slabs among those below `limit` that `used` (ascending) does not name. (DEDUCED: notes/assumptions/24.md) -/
def freeRun (n limit : Nat) : Nat → List Nat → Option Nat
  | pos, [] => if pos + n ≤ limit then some pos else none
  | pos, k :: ks => if pos + n ≤ k then some pos else freeRun n limit (k + 1) ks

/-- The longest run of FREE slabs. -/
def longestRun (limit : Nat) : Nat → List Nat → Nat
  | pos, [] => limit - pos
  | pos, k :: ks => max (k - pos) (longestRun limit (k + 1) ks)

/-- Slabs below PRESENTED_SLABS that are not FREE, ascending. -/
def takenSlabs (s : State) : List Nat := tkeys (fun k e => decide (k < s.ple.presented) && decide (e.state ≠ .free)) s.ple.map

/-- Add or return frames and guarantees of a context. -/
def addResv (c : Nat) (f : Tier → Nat) (b : Tier → Nat) (s : State) : State :=
  let r := resvOf s c
  setResv c ⟨r.f1 + f .t1, r.f2 + f .t2, r.f3 + f .t3, r.b1 + b .t1, r.b2 + b .t2, r.b3 + b .t3⟩ s

def subResv (c : Nat) (f : Tier → Nat) (b : Tier → Nat) (s : State) : State :=
  let r := resvOf s c
  setResv c ⟨r.f1 - f .t1, r.f2 - f .t2, r.f3 - f .t3, r.b1 - b .t1, r.b2 - b .t2, r.b3 - b .t3⟩ s

def byTier (a b c : Nat) : Tier → Nat
  | .t1 => a | .t2 => b | .t3 => c

/-- Name a run of FREE slabs for a context (Table 02-2). (DEDUCED: notes/assumptions/24.md) -/
def nameSlabs (c first n tmask : Nat) (s : State) : State :=
  (slabList first n).foldl (fun s k => setMap k { MapEntry.free with state := .zeroed, owner := c, tmask := tmask } s) s

/-- The first failing capacity condition of an admission that adds frames and names slabs: the row of Table 10-7 with its
two numbers. -/
def capacityFail (s : State) (c slabs tmask : Nat) (f : Tier → Nat) : Option (Nat × Nat × Nat) :=
  let added := f .t1 + f .t2 + f .t3
  if 0 < added ∧ shortfall s then some (17, added, 0)
  else if 0 < f .t3 ∧ (s.dev.profile.flashUse = 2 ∨ !t3Online s ∨ s.fmg.spareExhausted) then some (2, f .t3, 0)
  else match tiers.findSome? (fun t =>
      if 0 < f t ∧ available s t < reservedFrames s t + f t then
        some (tierIdx t - 1, f t, available s t - reservedFrames s t) else none) with
    | some x => some x
    | none =>
      let t := addResv c f (fun _ => 0) s
      match tierSets.findSome? (fun m =>
          let n := hallSlabs t c m + (if tmask &&& m = tmask then slabs else 0)
          if hallFrames t c m < n then some (8 + m, n, hallFrames t c m) else none) with
      | some x => some x
      | none =>
        if 0 < slabs ∧ (freeRun slabs s.ple.presented 0 (takenSlabs s)).isNone then
          some (16, slabs, longestRun s.ple.presented 0 (takenSlabs s))
        else none

/-- Contexts that hold a host-service guarantee (R233). -/
def meteredContexts (s : State) : Nat := s.rlg.resv.countP (fun p => decide (0 < p.2.b1 + p.2.b2 + p.2.b3))

/-- The effect of an admissible RESERVE (R229): whole, or refused with nothing changed. -/
def reserveBody (ctx slabs tmask : Nat) (f b : Tier → Nat) (s : State) : Status × Nat × State :=
  if (0 < slabs ∧ tmask = 0) ∨ 8 ≤ tmask then (.accessDenied, 0, s)
  else match capacityFail s ctx slabs tmask f with
    | some (c, req, room) => (.noCapacity, 0, refusedAdmission (noteRefusal .noCapacity c req room s))
    | none =>
      let t := addResv ctx f b s
      match admitFail s t with
      | some (c, req, room) =>
        (.guaranteeUnavailable, 0, refusedAdmission (noteRefusal .guaranteeUnavailable c req room s))
      | none =>
        if 65536 < meteredContexts t ∧ meteredContexts s < meteredContexts t then
          (.guaranteeUnavailable, 0, refusedAdmission (noteRefusal .guaranteeUnavailable 31 0 0 s))
        else
          let first := if slabs = 0 then 0 else (freeRun slabs s.ple.presented 0 (takenSlabs s)).getD 0
          (.ok, first, settleScales (admitted (nameSlabs ctx first slabs tmask t)))

/-- RESERVE (R229). -/
def execReserve (r : RingCmd) (ctx slabs tmask f1 f2 f3 b1 b2 b3 : Nat) (s : State) : Host.Outcome State Fault Refusal :=
  .next (ringRun r Opc.reserve (fun s =>
    finish r Opc.reserve (
      if !fnLive s r.fn then (.stopped, 0, noteDeny 2 1 r.fn ctx 0 s)
      else if !pfNames s r ctx then (.accessDenied, 0, noteDeny 2 2 r.fn ctx 0 s)
      else if 16777216 < slabs then (.accessDenied, 0, s)
      else reserveBody ctx slabs tmask (byTier f1 f2 f3) (byTier b1 b2 b3) s)) s)

/-- A valid window that is not STALE maps the slab (R34). -/
def windowMaps (s : State) (slab : Nat) : Bool :=
  s.ple.windows.any (fun p => match p.2 with
    | some w => !w.stale && decide (w.first ≤ slab) && decide (slab < w.first + w.length)
    | none => false)

/-- R34 refuses the release of the slab. -/
def slabHeld (s : State) (slab : Nat) : Bool := windowMaps s slab || inPartition s slab || inStream s slab

/-- The refusal of a command for its slab operands: a slab that the access check refuses is recorded in PLE_DENY_INFO
(R49). -/
def denyRun (fn ctx first n : Nat) (s : State) : Status × Nat × State :=
  (.accessDenied, 0, (checkRun (ringAsk fn ctx true false) first n s).2)

/-- The effect of RELEASE, issued by a function, on the context that it names: R34, then the slabs, then what returns. A
RELEASE of slabs that would break R227 is refused with NO_CAPACITY, a return that would with RESERVATION_IN_USE (R230). (DEDUCED: notes/assumptions/25.md) -/
def releaseBody (fn ctx first count : Nat) (f b : Tier → Nat) (s : State) : Status × Nat × State :=
  let run := slabList first count
  if !run.all (fun k => owns s ctx (mapAt s k)) then denyRun fn ctx first count s
  else if run.any (slabHeld s) then (.slabMapped, 0, s)
  else if tiers.any (fun t => decide (unusedFrames s ctx t < f t) || decide (Resv_bw (resvOf s ctx) t < b t)) then
    (.reservationInUse, 0, refusedAdmission s)
  else
    let freed := run.foldl (fun s k => releaseSlab k s) s
    let t := subResv ctx f b freed
    match hallFail freed ctx, hallFail t ctx with
    | some (m, n, room), _ => (.noCapacity, 0, refusedAdmission (noteRefusal .noCapacity (8 + m) n room s))
    | none, some _ => (.reservationInUse, 0, refusedAdmission s)
    | none, none => (.ok, 0, settleScales (admitted t))

/-- The outcome of RELEASE (R34, R230). -/
def releaseOutcome (r : RingCmd) (ctx dest count : Nat) (f b : Tier → Nat) (s : State) : Status × Nat × State :=
  if !fnLive s r.fn then (.stopped, 0, noteDeny 2 1 r.fn ctx 0 s)
  else if !(pfNames s r ctx || (decide ((ctxAt s ctx).state = .active) && decide ((ctxAt s ctx).fn = r.fn))) then
    (.accessDenied, 0, noteDeny 2 2 r.fn ctx 0 s)
  else if !slabAligned dest ∨ 65536 < count then (.accessDenied, 0, s)
  else releaseBody r.fn ctx (dest / 2 ^ 24) count f b s

/-- RELEASE (R34, R230); it waits for reads of its slabs that had passed the check (R51). (PRESUMED: notes/assumptions/13.md) -/
def execRelease (r : RingCmd) (ctx dest count f1 f2 f3 b1 b2 b3 : Nat) (s : State) : Host.Outcome State Fault Refusal :=
  .next (ringRun r Opc.release (fun s =>
    let x := releaseOutcome r ctx dest count (byTier f1 f2 f3) (byTier b1 b2 b3) s
    if x.1 = .ok ∧ (slabList (dest / 2 ^ 24) count).any (readsWait s) then s else finish r Opc.release x) s)

/-! Contexts (R35, R36, R410) -/

def keyAt (s : State) (k : Nat) : KeySlot := tget KeySlot.reset s.sec.keys k

def setKey (k : Nat) (v : KeySlot) (s : State) : State :=
  { s with sec := { s.sec with keys := tput KeySlot.reset s.sec.keys k v } }

/-- PLE_CTX_RESULT after a PLE_CTX_CMD. -/
def ctxDone (st : Status) (result : Nat) (s : State) : State :=
  { s with ple := { s.ple with ctxStatus := st.code, ctxDone := true, ctxResult := result } }

/-- The key slot can be bound to a context of a function on the port: none, or LOADED on that port. -/
def keyBindable (s : State) (port key : Nat) : Bool :=
  decide (key = 0xFFFF) ||
    (decide ((keyAt s key).state = .loaded) && decide ((keyAt s key).port = port) && !(keyAt s key).dying)

/-- The first number that satisfies `p`, tried cyclically from a start below `n` that the device chooses. (DESIGN CHOICE: notes/assumptions/9.md) -/
def chooseFrom (n : Nat) (p : Nat → Bool) (s : State) : Option Nat × State :=
  let (d, t) := draw s
  let start := Config.choice d % n
  ((findFrom p start (n - start)).orElse (fun _ => findFrom p 0 start), t)

/-- Create a context of a function with a key slot, under an ID that the device chooses. (DEDUCED: notes/assumptions/26.md) -/
def createCtx (fn key : Nat) (s : State) : Option Nat × State :=
  match chooseFrom 1048576 (fun c => decide ((ctxAt s c).state = .free)) s with
  | (some c, t) =>
    let t1 := bumpGen fn (setCtx c { fn := fn, state := .active, key := key } t)
    (some c, if key = 0xFFFF then t1 else setKey key { keyAt t1 key with state := .bound } t1)
  | (none, t) => (none, t)

/-- Fields FUNCTION and KEY_SLOT of PLE_CTX_CMD. (DEDUCED: notes/assumptions/26.md) -/
def storeCtxCmd (hi lo v : Nat) (s : State) : State :=
  { s with ple := { s.ple with ctxCmd := setBits s.ple.ctxCmd hi lo v } }

/-- CTX_CREATE. -/
def execCtxCreate (w fn key : Nat) (s : State) : Host.Outcome State Fault Refusal :=
  .next (ownedWrite w Pg.ple (fun s =>
    if !s.ple.ctxDone then s
    else
      let s1 := storeCtxCmd 47 32 key (storeCtxCmd 59 48 fn s)
      if fnPort fn ≠ fnPort w ∨ !fnExists s fn then ctxDone .accessDenied 0 s1
      else if !keyBindable s (fnPort w) key then ctxDone .accessDenied 0 s1
      else match createCtx fn key s1 with
        | (some c, s2) => ctxDone .ok c s2
        | (none, s2) => ctxDone .noCapacity 0 s2) s)

/-! Windows (R41 – R45, R366) -/

def windowAt (s : State) (n : Nat) : Option Window := tget none s.ple.windows n

def setWindow (n : Nat) (v : Option Window) (s : State) : State :=
  { s with ple := { s.ple with windows := tput none s.ple.windows n v } }

/-- Windows that satisfy `p`. -/
def windowsWhere (s : State) (p : Window → Bool) : List Nat :=
  tkeys (fun _ w => match w with | some v => p v | none => false) s.ple.windows

/-- Some slab of a list lies in the run of the window. -/
def windowOnto (slabs : List Nat) (w : Window) : Bool :=
  slabs.any (fun k => decide (w.first ≤ k) && decide (k < w.first + w.length))

/-- The run of the window holds a slab that satisfies `p`. -/
def windowCovers (s : State) (p : MapEntry → Bool) (w : Window) : Bool :=
  s.ple.map.any (fun e => decide (w.first ≤ e.1) && decide (e.1 < w.first + w.length) && p e.2)

/-- Mark windows STALE. -/
def makeStale (ws : List Nat) (s : State) : State :=
  ws.foldl (fun s n => match windowAt s n with
    | some w => setWindow n (some { w with stale := true }) s
    | none => s) s

/-- A revocation by a PF makes windows STALE: the TDIs of the VFs that hold them go to ERROR (R382). (DEDUCED: notes/assumptions/78.md) -/
def tdiWindows (ws : List Nat) (s : State) : State :=
  ((ws.filterMap (fun n => (windowAt s n).map (·.fn))).eraseDups).foldl (fun s f => tdiError f s) s

/-- Accesses of a context onto slabs that passed the check and still wait (R45). -/
def passedWrites (s : State) (c : Nat) (slabs : List Nat) : List HeldStore :=
  s.mge.held.filter (fun w => decide (w.ctx = c) && slabs.contains (w.block / 4096))

/-- The read was made for the context. -/
def readFor (s : State) (c : Nat) (slab : Nat) : ReadSrc → Bool
  | .bar fn _ _ => decide (fn = ctxFn s c)
  | .fabric _ p => decide (p.dstCtx = c)
  | .cxl port _ => s.ple.parts.any (fun p => p.2.valid && decide (p.2.port = port) && decide (p.2.ctx = c) &&
      decide (p.2.first ≤ slab) && decide (slab < p.2.first + p.2.count))

def passedReads (s : State) (c : Nat) (slabs : List Nat) : List ReadSrc :=
  (s.fmg.recoveries.filter (fun r => slabs.contains (r.block / 4096))).flatMap (fun r =>
    (r.waiters.map (·.src)).filter (readFor s c (r.block / 4096)))

/-- Begin the drain of R45 over some windows: `free` returns their entries to the pool at its end, `cmd` completes
then. -/
def drainWindows (ws : List Nat) (free : Bool) (cmd : Option (RingCmd × Nat)) (s : State) : State :=
  endDrain { wins := ws, free := free, cmd := cmd, writes := [], reads := [] } s

/-- Begin the drain of R45 over windows and over the accesses of contexts onto slabs that had passed the check. -/
def drainRevoked (ws ctxs slabs : List Nat) (cmd : Option (RingCmd × Nat)) (s : State) : State :=
  endDrain { wins := ws, free := false, cmd := cmd, writes := ctxs.flatMap (fun c => passedWrites s c slabs),
             reads := ctxs.flatMap (fun c => passedReads s c slabs) } s

/-- An aperture offset of a function lies in the window. -/
def inWindow (w : Window) (fn off : Nat) : Bool :=
  decide (w.fn = fn) && decide (w.aptBase ≤ off / 2 ^ 24) && decide (off / 2 ^ 24 < w.aptBase + w.length)

/-- An access through the window that had passed the check still waits. -/
def windowBusy (s : State) (n : Nat) : Bool :=
  match windowAt s n with
  | none => false
  | some w =>
    s.mge.held.any (fun x => match x.src with | .bar fn off => inWindow w fn off | _ => false) ||
      s.fmg.recoveries.any (fun r => r.waiters.any (fun x => match x.src with | .bar fn off _ => inWindow w fn off | _ => false))

/-- The entry is on its way back to the pool. -/
def windowLeaving (s : State) (n : Nat) : Bool := s.ple.drains.any (fun d => d.free && d.wins.contains n)

/-- Windows that a function holds. -/
def windowsOf (s : State) (fn : Nat) : Nat := (windowsWhere s (fun w => decide (w.fn = fn))).length

/-- log2 of the aperture size in force for a function (R357). -/
def apertureLog2 (s : State) (fn : Nat) : Nat :=
  if isPf fn then (hport s (fnPort fn)).aptPf else (hport s (fnPort fn)).aptVf

/-- The slabs of the run give the context the right that the window asks for. -/
def windowRightOk (s : State) (ctx : Nat) (wr : Bool) (slab : Nat) : Bool :=
  let e := mapAt s slab
  decide (e.state ≠ .free) && decide (e.state ≠ .retired) &&
    (match rightOf s ctx e with
     | .none => false
     | .read => !wr
     | .write => true)

/-- MAP_WINDOW for a context of the issuing function (R42). -/
def mapBody (fn ctx rights aptBase first len : Nat) (s : State) : Status × Nat × State :=
  let wr := rights.testBit 1
  if 4 ≤ rights ∨ len = 0 ∨ 4194304 < len ∨ 4194304 ≤ aptBase ∨ 16777216 ≤ first then (.accessDenied, 0, s)
  else if s.ple.presented < first + len then (.accessDenied, 0, noteDeny 2 4 fn ctx first s)
  else if 2 ^ apertureLog2 s fn < (aptBase + len) * 2 ^ 24 then (.accessDenied, 0, s)
  else if !(slabList first len).all (windowRightOk s ctx wr) then (.accessDenied, 0, noteDeny 2 5 fn ctx first s)
  else if !(windowsWhere s (fun w => decide (w.fn = fn) && decide (aptBase < w.aptBase + w.length) &&
      decide (w.aptBase < aptBase + len))).isEmpty then (.windowOverlap, 0, s)
  else if (if isPf fn then 4096 else 1024) ≤ windowsOf s fn ∨ 262144 ≤ s.ple.windows.length then (.windowLimit, 0, s)
  else
    match chooseFrom 262144 (fun n => (windowAt s n).isNone) s with
    | (some n, t) =>
      (.ok, n, setWindow n (some { rd := rights.testBit 0, wr := wr, stale := false, fn := fn, ctx := ctx,
                                   aptBase := aptBase, length := len, first := first }) t)
    | (none, t) => (.windowLimit, 0, t)

/-- MAP_WINDOW. -/
def execMapWindow (r : RingCmd) (ctx rights aptBase firstSlab length : Nat) (s : State) : Host.Outcome State Fault Refusal :=
  .next (ringRun r Opc.mapWindow (fun s =>
    finish r Opc.mapWindow (withCtx r ctx (mapBody r.fn ctx rights aptBase firstSlab length) s)) s)

/-- UNMAP_WINDOW: the completion waits for the drain; a second one of an entry that is already on its way back to the pool
is refused. (DESIGN CHOICE: notes/assumptions/86.md) -/
def execUnmapWindow (r : RingCmd) (_ctx window : Nat) (s : State) : Host.Outcome State Fault Refusal :=
  .next (ringRun r Opc.unmapWindow (fun s =>
    if windowLeaving s window then
      if s.ple.drains.any (fun d => decide (d.cmd = some (r, Opc.unmapWindow))) then s
      else complete r Opc.unmapWindow .accessDenied 0 s
    else match windowAt s window with
      | some w =>
        if w.fn = r.fn then
          drainWindows [window] true (some (r, Opc.unmapWindow)) (makeStale [window] s)
        else complete r Opc.unmapWindow .accessDenied 0 s
      | none => complete r Opc.unmapWindow .accessDenied 0 s) s)

/-- One drain of R45 sees the accesses of a window end. -/
def drainStep (window : Nat) (d : Drain) (s : State) : State :=
  if d.wins.contains window then
    endDrain { d with wins := d.wins.filter (fun n => decide (n ≠ window)) } (if d.free then setWindow window none s else s)
  else endDrain d s

/-- WINDOW_DRAIN_END: the accesses that had passed the check before the window was withdrawn have ended; while one still
waits, nothing happens. -/
def execWindowDrainEnd (window : Nat) (s : State) : Host.Outcome State Fault Refusal :=
  .next (whenAwake s (fun s =>
    if windowBusy s window then s
    else s.ple.drains.foldl (fun s d => drainStep window d s) { s with ple := { s.ple with drains := [] } }))

/-! Share groups (R38 – R40, R367) -/

/-- Slabs of a group. -/
def groupSlabs (s : State) (g : Nat) : List Nat :=
  tkeys (fun _ e => e.shared && decide (e.owner = g) && decide (e.state ≠ .retired)) s.ple.map

/-- Entry number of a member of a group. -/
def memberKey (s : State) (g c : Nat) : Option Nat :=
  s.ple.members.findSome? (fun p => match p.2 with
    | some m => if m.group = g ∧ m.ctx = c then some p.1 else none
    | none => none)

def setMember (k : Nat) (v : Option Member) (s : State) : State :=
  { s with ple := { s.ple with members := tput none s.ple.members k v } }

def setGroup (g : Nat) (v : Option Nat) (s : State) : State :=
  { s with ple := { s.ple with groups := tput none s.ple.groups g v } }

/-- Windows of a context onto slabs of a group that are not STALE yet. -/
def memberWindows (s : State) (g c : Nat) : List Nat :=
  windowsWhere s (fun w => decide (w.ctx = c) && !w.stale && windowOnto (groupSlabs s g) w)

/-- Remove a member: its entry, its windows onto the group's slabs, its votes. The windows made STALE are returned. -/
def removeMember (g c : Nat) (s : State) : List Nat × State :=
  let ws := memberWindows s g c
  match memberKey s g c with
  | some k => (ws, dropRightless (makeStale ws (setMember k none s)))
  | none => ([], s)

/-- Member contexts of a group. -/
def groupMembers (s : State) (g : Nat) : List Nat :=
  s.ple.members.filterMap (fun p => match p.2 with
    | some m => if m.group = g then some m.ctx else none
    | none => none)

/-- Destroy a group: SHARED := 0 and the owner's ID on each of its slabs, every member removed. -/
def destroyGroup (g : Nat) (s : State) : List Nat × State :=
  let own := (groupOwner s g).getD 0
  let (ws, s1) := (groupMembers s g).foldl (fun x c =>
    let y := removeMember g c x.2
    (x.1 ++ y.1, y.2)) (([] : List Nat), s)
  (ws, setGroup g none ((groupSlabs s1 g).foldl (fun s k => modMap k (fun e => { e with shared := false, owner := own }) s) s1))

/-- SHARE CREATE. -/
def execShareCreate (r : RingCmd) (ctx : Nat) (s : State) : Host.Outcome State Fault Refusal :=
  .next (ringRun r Opc.share (fun s =>
    finish r Opc.share (withCtx r ctx (fun s =>
      match chooseFrom 65536 (fun g => (groupOwner s g).isNone) s with
      | (some g, t) => (.ok, g, setGroup g (some ctx) t)
      | (none, t) => (.noCapacity, 0, t)) s)) s)

/-- A slab that ADD_SLABS may add to the group: owned by the group's owner and in no other group. (DEDUCED: notes/assumptions/26.md) -/
def addable (s : State) (g ctx slab : Nat) : Bool :=
  let e := mapAt s slab
  owns s ctx e && (!e.shared || decide (e.owner = g))

/-- SHARE ADD_SLABS: whole or nothing. -/
def execShareAddSlabs (r : RingCmd) (ctx group dest count : Nat) (s : State) : Host.Outcome State Fault Refusal :=
  .next (ringRun r Opc.share (fun s =>
    finish r Opc.share (withCtx r ctx (fun s =>
      let run := slabList (dest / 2 ^ 24) count
      if !slabAligned dest ∨ count = 0 ∨ 65536 < count ∨ groupOwner s group ≠ some ctx then (.accessDenied, 0, s)
      else if !run.all (addable s group ctx) then denyRun r.fn ctx (dest / 2 ^ 24) count s
      else (.ok, 0, run.foldl (fun s k => modMap k (fun e => { e with shared := true, owner := group }) s) s)) s)) s)

/-- SHARE ADD_MEMBER: a right lowered to READ completes after the writes that had passed the check (R39). -/
def execShareAddMember (r : RingCmd) (ctx group member right : Nat) (s : State) : Host.Outcome State Fault Refusal :=
  .next (ringRun r Opc.share (fun s =>
    if s.ple.drains.any (fun d => decide (d.cmd = some (r, Opc.share))) then s
    else match gateCtx r ctx s with
    | (some st, s1) => complete r Opc.share st 0 s1
    | (none, s1) =>
      if 2 ≤ right ∨ groupOwner s1 group ≠ some ctx ∨ member = ctx ∨ (ctxAt s1 member).state ≠ .active then
        complete r Opc.share .accessDenied 0 s1
      else
        let m : Member := { group := group, ctx := member, write := decide (right = 1) }
        match memberKey s1 group member with
        | some k =>
          let lowered := right = 0 ∧ rightOf s1 member { MapEntry.free with shared := true, owner := group } = .write
          let t := setMember k (some m) s1
          if lowered then drainRevoked (memberWindows t group member) [member] (groupSlabs t group) (some (r, Opc.share)) t
          else complete r Opc.share .ok 0 t
        | none =>
          match tfree s1.ple.members 0 1048576 with
          | some k => complete r Opc.share .ok 0 (setMember k (some m) s1)
          | none => complete r Opc.share .noCapacity 0 s1) s)

/-- Remove a member and complete the command after the drain. -/
def leaveGroup (r : RingCmd) (g member : Nat) (s : State) : State :=
  match memberKey s g member with
  | none => complete r Opc.share .accessDenied 0 s
  | some _ =>
    let (ws, t) := removeMember g member s
    drainRevoked ws [member] (groupSlabs s g) (some (r, Opc.share)) (if isPf r.fn then tdiWindows ws t else t)

/-- SHARE REMOVE_MEMBER. (DEDUCED: notes/assumptions/26.md) -/
def execShareRemoveMember (r : RingCmd) (ctx group member : Nat) (s : State) : Host.Outcome State Fault Refusal :=
  .next (ringRun r Opc.share (fun s =>
    if s.ple.drains.any (fun d => decide (d.cmd = some (r, Opc.share))) then s
    else match gateCtx r ctx s with
    | (some st, s1) => complete r Opc.share st 0 s1
    | (none, s1) =>
      if groupOwner s1 group ≠ some ctx then complete r Opc.share .accessDenied 0 s1
      else leaveGroup r group member s1) s)

/-- SHARE DESTROY. -/
def execShareDestroy (r : RingCmd) (ctx group : Nat) (s : State) : Host.Outcome State Fault Refusal :=
  .next (ringRun r Opc.share (fun s =>
    if s.ple.drains.any (fun d => decide (d.cmd = some (r, Opc.share))) then s
    else match gateCtx r ctx s with
    | (some st, s1) => complete r Opc.share st 0 s1
    | (none, s1) =>
      if groupOwner s1 group ≠ some ctx then complete r Opc.share .accessDenied 0 s1
      else
        let (ws, t) := destroyGroup group s1
        drainRevoked ws (groupMembers s1 group) (groupSlabs s1 group) (some (r, Opc.share))
          (if isPf r.fn then tdiWindows ws t else t)) s)

/-- SHARE LEAVE: a member removes itself. (DEDUCED: notes/assumptions/26.md) -/
def execShareLeave (r : RingCmd) (ctx group : Nat) (s : State) : Host.Outcome State Fault Refusal :=
  .next (ringRun r Opc.share (fun s =>
    if s.ple.drains.any (fun d => decide (d.cmd = some (r, Opc.share))) then s
    else match gateCtx r ctx s with
    | (some st, s1) => complete r Opc.share st 0 s1
    | (none, s1) => leaveGroup r group ctx s1) s)

/-! CXL.mem partitions (R46 – R48, R57, R124, R370, R371) -/

/-- Partition slabs that HOST_EXCLUDED promotes: those of `slabs` whose home lies in T3. -/
def t3Homes (s : State) (slabs : List Nat) : List Nat := slabs.filter (fun k => decide ((mapAt s k).tier = some .t3))

/-- Unused frames of a context that no queued move is waiting to take. -/
def openFrames (s : State) (c : Nat) (t : Tier) : Nat :=
  unusedFrames s c t - s.mge.moves.countP (fun m =>
    decide (m.target = t) && m.frame.isNone && !m.toPool && owns s c (mapAt s m.slab))

/-- The owners' unused T1 and T2 frames cannot hold all slabs that would be promoted (R124). -/
def promotionFails (s : State) (slabs : List Nat) : Bool :=
  let mask (k : Nat) := (mapAt s k).tmask % 4
  let owners := (slabs.map (fun k => ownerOf s (mapAt s k))).eraseDups
  slabs.any (fun k => decide (mask k = 0)) ||
    owners.any (fun c =>
      let mine := slabs.filter (fun k => decide (ownerOf s (mapAt s k) = c))
      decide (unusedFrames s c .t1 < mine.countP (fun k => decide (mask k = 1))) ||
      decide (unusedFrames s c .t2 < mine.countP (fun k => decide (mask k = 2))) ||
      decide (unusedFrames s c .t1 + unusedFrames s c .t2 < mine.length))

/-- RLG_LAST_REFUSAL for a write refused under R124. -/
def notePromotion (slabs : List Nat) (s : State) : State :=
  let owners := (slabs.map (fun k => ownerOf s (mapAt s k))).eraseDups
  noteRefusal .noCapacity 11 slabs.length
    (listSum (owners.map (fun c => unusedFrames s c .t1 + unusedFrames s c .t2))) s

/-- Under HOST_EXCLUDED no slab of a partition starts a demotion into T3 by heat, hint or staging (R124): those that are queued go. (DEDUCED: notes/assumptions/33.md) -/
def barDemotions (slabs : List Nat) (s : State) : State :=
  slabs.foldl (fun s k =>
    if (moveOf s k).any (fun m => decide (m.target = .t3) && decide (m.phase = .queued) && decide (m.cls ≠ 3)) then
      dropPartner k (failVotes k .moveAbandoned (abandonMove k s))
    else s) s

/-- Queue the class-3 promotions of R124. -/
def promoteSlabs (slabs : List Nat) (s : State) : State :=
  slabs.foldl (fun s k =>
    let e := mapAt s k
    let c := ownerOf s e
    let t : Tier := if tierBit e.tmask .t2 && (decide (0 < openFrames s c .t2) || !tierBit e.tmask .t1) then .t2 else .t1
    (askMove k 3 t false false s).2) s

/-- Bytes of the DPA space that the port's committed HDM decoders cover. -/
def decodedBytes (s : State) (port : Nat) : Nat :=
  listSum ((hport s port).hdm.map (fun d => if d.2.2.2 then d.2.2.1 else 0))

/-- The DPA at which partition `n` of a port starts. -/
def dpaStart (s : State) (port n : Nat) : Nat :=
  listSum (s.ple.parts.map (fun p => if p.2.valid ∧ p.2.port = port ∧ p.1 < n then p.2.count * 2 ^ 24 else 0))

/-- The first reason to refuse a partition that becomes valid (R47, R48, R124, R371). (DEDUCED: notes/assumptions/25.md) -/
def partRefusal (s : State) (n : Nat) (p : Part) : Option Status :=
  let run := slabList p.first p.count
  if s.ple.parts.any (fun q => q.2.valid && decide (q.1 ≠ n) && decide (p.first < q.2.first + q.2.count) &&
      decide (q.2.first < p.first + p.count)) then some .windowOverlap
  else if p.count = 0 ∨ s.ple.presented < p.first + p.count ∨ (ctxAt s p.ctx).state ≠ .active ∨
      dpaStart s p.port n < decodedBytes s p.port then some .accessDenied
  else if !run.all (fun k => windowRightOk s p.ctx true k && !(mapAt s k).sealBit) then some .accessDenied
  else if s.dev.profile.flashUse = 1 ∧ promotionFails s (t3Homes s run) then some .noCapacity
  else none

/-- A write of PLE_LD_BASEn that its owner may make. (DEDUCED: notes/assumptions/25.md) -/
def writePart (w n : Nat) (v : Part) (s : State) : State :=
  let old := partAt s n
  if old.valid ∧ v.valid then s
  else if v.valid then
    match partRefusal s n v with
    | some .noCapacity =>
      noteErr Pg.ple kindRefusedState .noCapacity (0x80 + 16 * n) w (notePromotion (t3Homes s (slabList v.first v.count)) s)
    | some st => noteErr Pg.ple kindRefusedState st (0x80 + 16 * n) w s
    | none =>
      let t := setPart n v s
      if s.dev.profile.flashUse = 1 then
        promoteSlabs (t3Homes s (slabList v.first v.count)) (barDemotions (slabList v.first v.count) t)
      else t
  else if old.valid ∧ dpaStart s old.port n < decodedBytes s old.port then
    noteErr Pg.ple kindRefusedState .accessDenied (0x80 + 16 * n) w s
  else setPart n v s

/-- LD_BASE_WRITE: PLE_LD_BASEn. -/
def execLdBaseWrite (w n : Nat) (value : Word) (s : State) : Host.Outcome State Fault Refusal :=
  .next (if 16 ≤ n then s
    else ownedWrite w Pg.ple (fun s =>
      let v : Part := { valid := bitOf value 63, port := bits value 62 62, ctx := bits value 51 32,
                        first := bits value 23 0, count := (partAt s n).count }
      if v.port ≠ fnPort w ∨ ((partAt s n).valid ∧ (partAt s n).port ≠ fnPort w) ∨
          (v.valid ∧ fnPort (ctxFn s v.ctx) ≠ fnPort w) then ignoreWrite Pg.ple s
      else writePart w n v s) s)

/-- A write of PLE_LD_SIZEn: ignored while the partition is valid. -/
def writePartSize (w n : Nat) (value : Word) (s : State) : State :=
  let p := partAt s n
  if p.port ≠ fnPort w then ignoreWrite Pg.ple s
  else if p.valid then s else setPart n { p with count := bits value 24 0 } s

/-! SEAL (R48, R52) -/

/-- The slab can be sealed by the context. -/
def sealable (s : State) (ctx slab : Nat) : Bool :=
  let e := mapAt s slab
  owns s ctx e && decide (e.state = .zeroed) && !e.releasing && !inPartition s slab

/-- SEAL: whole or nothing. -/
def execSeal (r : RingCmd) (ctx dest count : Nat) (s : State) : Host.Outcome State Fault Refusal :=
  .next (ringRun r Opc.seal_ (fun s =>
    finish r Opc.seal_ (withCtx r ctx (fun s =>
      let run := slabList (dest / 2 ^ 24) count
      if !slabAligned dest ∨ count = 0 ∨ 65536 < count ∨ (ctxAt s ctx).key = 0xFFFF then (.accessDenied, 0, s)
      else if !run.all (sealable s ctx) then denyRun r.fn ctx (dest / 2 ^ 24) count s
      else (.ok, 0, run.foldl (fun s k => modMap k (fun e => { e with state := .sealed, sealBit := true }) s) s)) s)) s)

end Sys2Proof.Machine
end

