-- ==== Sys2Proof/Machine/Serve.lean ====
section
/-! DEFINITION. Sys2Proof/Machine/Serve.lean: requests of other devices under a grant, and reads that waited for flash
recovery (R80, R103, R155, R346 – R349). -/

namespace Sys2Proof.Machine

def grantAt (s : State) (i : Nat) : Option Grant := tget none s.grants i

def setGrant (i : Nat) (g : Option Grant) (s : State) : State := { s with grants := tput none s.grants i g }

/-- The grant that a packet is matched to (R346). -/
def grantFor (s : State) (p : Pkt) : Option Grant :=
  s.grants.findSome? (fun e => match e.2 with
    | some g => if g.remoteDev = p.src ∧ g.remoteCtx = p.srcCtx ∧ g.localCtx = p.dstCtx ∧ !g.stale then some g else none
    | none => none)

/-- Requests of a grant that have not been answered yet (R347). -/
def outstanding (s : State) (g : Grant) : Nat :=
  (s.fmg.recoveries.flatMap (·.waiters)).countP (fun w => match w.src with
    | .fabric _ p => decide (p.src = g.remoteDev) && decide (p.srcCtx = g.remoteCtx) && decide (p.dstCtx = g.localCtx)
    | _ => false) +
  s.mge.held.countP (fun w => match w.src with
    | .fabric _ src srcCtx _ => decide (src = g.remoteDev) && decide (srcCtx = g.remoteCtx) && decide (w.ctx = g.localCtx)
    | _ => false)

/-- A request that a grant admits, or the status of its refusal. -/
def matchGrant (p : Pkt) (write : Bool) (s : State) : Except Status (Grant × Nat) :=
  match grantFor s p with
  | none => .error .accessDenied
  | some g =>
    if g.length ≤ p.addr / 2 ^ 24 ∨ (if write then !g.wr else !g.rd) then .error .accessDenied
    else if 256 ≤ outstanding s g then .error .fabricRateLimited
    else .ok (g, g.first + p.addr / 2 ^ 24)

/-- The bytes asked for lie in one block, in units of 64. -/
def partOk (addr len : Nat) : Bool :=
  decide (64 ≤ len) && decide (len % 64 = 0) && decide (addr % 4096 + len ≤ 4096)

/-- A loaded recipe that lists the device installed the table on both ends (R103). -/
def recipeShares (s : State) (dev id : Nat) : Bool :=
  s.rcp.recipes.any (fun e => match e.2 with
    | some q => q.img.tables.any (fun t => decide (t.1 = id)) && q.img.peers.any (fun p => decide (p.dev = dev))
    | none => false)

/-- How a block may be sent coded on a port: its table is there already, or is pushed first (R103, R349). With PEER_PUSH = 0 no
table is pushed, and tables that the partner holds still serve. (DESIGN CHOICE: notes/assumptions/88.md) -/
inductive Coded where
  | no | known | push
  deriving DecidableEq, Repr

/-- How the answer to a packet may carry a block on a port: coded under a table that the partner holds or takes, or decoded. (DESIGN CHOICE: notes/assumptions/88.md) -/
def codedOn (s : State) (fport : Nat) (p : Pkt) (len : Nat) (d : Desc) : Coded :=
  let v := fportAt s fport
  match codedTable d with
  | none => .no
  | some id =>
    if !v.decode || decide (v.partner.dev ≠ p.src) || decide (len ≠ 4096) || decide (d.state ≠ .normal) then .no
    else if (tableAt s id).peers.contains fport ∨ recipeShares s p.src id then .known
    else if flag s Pg.ppu 0x40 1 ∧ 0 < v.partner.slots then .push
    else .no

/-- Push a table to the partner on a port. -/
def pushTable (fport id : Nat) (s : State) : State :=
  let e := tableAt s id
  let v := fportAt s fport
  count Pg.ppu 0xE30 (sendPkt fport (ctrlPkt s 0x10 v.partner.dev 0) (leBytes 4 id ++ e.data)
    (setTable id { e with peers := e.peers ++ [fport] }
      (setFport fport { v with partner := { v.partner with slots := v.partner.slots - 1 } } s)))

/-- Send a block coded: crumbs 0 to n − 1 with what decoding needs. -/
def sendCoded (fport : Nat) (p : Pkt) (slab b : Nat) (s : State) : State :=
  let e := mapAt s slab
  match e.tier with
  | none => s
  | some t =>
    let d := descAt s (homeKey t e.frame b)
    answer fport { respPkt s 0x04 p.src p.tag (64 * d.crumbs)
        (d.format + d.table * 2 ^ 4 + d.crumbs * 2 ^ 16 + d.crcA.toNat * 2 ^ 32) with dstCtx := p.srcCtx, srcCtx := p.dstCtx }
      ((homeBytes s t e.frame b).take (64 * d.crumbs)) s

/-- Status of a bad block on the fabric path (Table 08-2). -/
def busStatus : Status → Status
  | .checkMismatch => .checkMismatch
  | _ => .poisoned

/-- Answer a READ with data, or with an error when a buffer on the way fails (R190). -/
def answerRead (fport : Nat) (p : Pkt) (data : List Byte) (s : State) : State :=
  match meetBuffer 3 s with
  | (true, s1) => sendError fport p.src p.tag .poisoned s1
  | (false, s1) =>
    answer fport { respPkt s1 0x03 p.src p.tag data.length 0 with dstCtx := p.srcCtx, srcCtx := p.dstCtx } data s1

/-- Serve a READ that passed the access check. -/
def serveFabric (fport : Nat) (p : Pkt) (slab : Nat) (s : State) : State :=
  let off := p.addr % 2 ^ 24
  let b := off / 4096
  let len := p.spec % 8192
  let fn := ctxFn s p.dstCtx
  let mode : Coded := match (mapAt s slab).tier with
    | some t => if readsZero (mapAt s slab) then .no else codedOn s fport p len (descAt s (homeKey t (mapAt s slab).frame b))
    | none => .no
  match (if mode = .no then serviceRead (Det.reader fn) slab b s else fetchBlock { Det.reader fn with path := 3 } slab b s) with
  | (.bad st, s1) => sendError fport p.src p.tag (busStatus st) s1
  | (.waits, s1) => awaitFlash slab b (.fabric fport p) s1
  | (.clean data _, s1) =>
    match mode with
    | .no => answerRead fport p ((data.drop (off % 4096)).take len) s1
    | .known => sendCoded fport p slab b s1
    | .push => sendCoded fport p slab b (pushTable fport (descAt s1 (homeKey ((mapAt s1 slab).tier.getD .t1) (mapAt s1 slab).frame b)).table s1)

/-- A READ that reached the device (R346). -/
def fabricRead (fport : Nat) (p : Pkt) (s : State) : State :=
  if !partOk p.addr (p.spec % 8192) then count (Pg.fpt + fport) 0xE40 s
  else match matchGrant p false s with
  | .error st => refuseFabric fport p st s
  | .ok (_, slab) =>
    match checkAccess ⟨3, ctxFn s p.dstCtx, p.dstCtx, none, false, false⟩ slab s with
    | (some _, s1) => refuseFabric fport p .accessDenied s1
    | (none, s1) => serveFabric fport p slab (touch slab s1)

/-- A WRITE that reached the device: a merged write whatever its length (R346). -/
def fabricWrite (fport : Nat) (p : Pkt) (data : List Byte) (s : State) : State :=
  if !partOk p.addr data.length then count (Pg.fpt + fport) 0xE40 s
  else match matchGrant p true s with
  | .error st => refuseFabric fport p st s
  | .ok (_, slab) =>
    match checkAccess ⟨3, ctxFn s p.dstCtx, p.dstCtx, none, true, false⟩ slab s with
    | (some _, s1) => refuseFabric fport p .accessDenied s1
    | (none, s1) =>
      offerWrite { src := .fabric fport p.src p.srcCtx p.tag, ctx := p.dstCtx, block := blockIdx slab (p.addr % 2 ^ 24 / 4096),
                   off := p.addr % 4096, data := data, since := s1.now } (touch slab s1)

/-- Serve a read that waited for recovery of a block. -/
def serveWaiter (slab b : Nat) (w : FlashWaiter) (s : State) : State :=
  match w.src with
  | .cxl port dpa => cxlServe port dpa slab (b * 4096 + dpa % 4096) s
  | .bar fn off parts => barServeParts fn off parts s
  | .fabric fport p => serveFabric fport p slab s

end Sys2Proof.Machine
end

