-- ==== Sys2Proof/Machine/Log.lean ====
section
/-! DEFINITION. Sys2Proof/Machine/Log.lean: the log of superblocks that a channel group keeps (R139 – R146): erasing, rows, slots,
what collection picks, and the view of what stands in the pages. -/

namespace Sys2Proof.Machine

/-! Erasing and forming superblocks (R141, R145, R159) -/

/-- A channel with the erase operations made and the erase blocks retired on it. -/
structure Erased where
  flc : Flc
  erases : Nat
  retired : Nat
  deriving DecidableEq, Repr

/-- An erase of a block: one that has reached its endurance is retired instead (R141); one out of use stays so. -/
def eraseBlock (n : Nat) (nxt : BlkState) (e : Erased) : Erased :=
  let b := blockAt e.flc n
  if b.state = .bad then e
  else if e.flc.endurance ≤ b.erases then
    { e with flc := setBlock n { b with state := .bad, erased := false } e.flc, retired := e.retired + 1 }
  else { e with flc := setBlock n { state := nxt, erased := true, erases := b.erases + 1 } e.flc, erases := e.erases + 1 }

/-- Take the free erase block with the lowest count, erased; blocks that are retired at their erase are passed over (R141, R145). -/
def takeBlock : Nat → Erased → Option (Nat × Erased)
  | 0, _ => none
  | fuel + 1, e =>
    match leastWorn e.flc with
    | none => none
    | some n =>
      let b := blockAt e.flc n
      if b.erased then some (n, { e with flc := setBlock n { b with state := .used } e.flc })
      else
        let e1 := eraseBlock n .used e
        if (blockAt e1.flc n).state = .used then some (n, e1) else takeBlock fuel e1

/-- Result of work at the head of the log of a group: rows taken, the group, its channels, and the counts. -/
structure LogRows where
  rows : List (Nat × Nat)
  group : Group
  flcs : Tbl Flc
  base : Nat
  erases : Nat
  retired : Nat
  deriving DecidableEq, Repr

/-- Take a block on one channel after those of the channels before it. -/
def addBlock (a : Option (List Nat × LogRows)) (i : Nat) : Option (List Nat × LogRows) :=
  match a with
  | none => none
  | some (bs, l) =>
    let f := tget Flc.reset l.flcs (l.base + i)
    match takeBlock (f.blocks.length + 2) ⟨f, l.erases, l.retired⟩ with
    | none => none
    | some (n, e) => some (bs ++ [n], { l with flcs := tput Flc.reset l.flcs (l.base + i) e.flc, erases := e.erases, retired := e.retired })

/-- Form a superblock of the free erase blocks with the lowest counts, erased (R145). -/
def formSb (st : SbState) (l : LogRows) : Option (Nat × LogRows) :=
  match (List.range 16).foldl addBlock (some ([], l)) with
  | none => none
  | some (bs, l1) =>
    (tfree l1.group.sbs 0 (l1.group.sbs.length + 1)).map (fun k => (k, { l1 with group := setSb k ⟨st, bs⟩ l1.group }))

/-- Open the next superblock of the log: one that is formed and erased, else a new one (R140, R145). (DEDUCED: notes/assumptions/34.md) -/
def openNext (l : LogRows) : Option (Nat × LogRows) :=
  match tkeys (fun _ b => decide (b.state = .erased)) l.group.sbs with
  | k :: _ => some (k, { l with group := setSb k { sbAt l.group k with state := .opened } l.group })
  | [] => formSb .opened l

/-- Take `n` fresh rows in order, going on into the next superblock; none when no superblock is free (R140, R143). (DEDUCED: notes/assumptions/34.md) -/
def takeRows : Nat → Nat → LogRows → Option LogRows
  | 0, n, l => if n = 0 then some l else none
  | fuel + 1, n, l =>
    if n = 0 then some l
    else
      match l.group.openSb with
      | some k =>
        if l.group.nextRow < l.group.rowsPerSb then
          takeRows fuel (n - 1) { l with rows := l.rows ++ [(k, l.group.nextRow)],
                                         group := { l.group with nextRow := l.group.nextRow + 1 } }
        else
          takeRows fuel n { l with group := { setSb k { sbAt l.group k with state := .closed } l.group with openSb := none } }
      | none =>
        match openNext l with
        | none => none
        | some (k, l1) => takeRows fuel n { l1 with group := { l1.group with openSb := some k, nextRow := 0 } }

/-- The log of a group, to work on. -/
def logOf (g : Nat) (s : State) : LogRows :=
  { rows := [], group := fgroup s g, flcs := s.fmg.flcs, base := 16 * g, erases := 0, retired := 0 }

/-- Put the log of a group back, with its counts. -/
def putLog (g : Nat) (l : LogRows) (s : State) : State :=
  countBy Pg.fmg 0xE48 l.retired (countBy Pg.fmg 0xE38 l.erases
    (setFgroup g l.group { s with fmg := { s.fmg with flcs := l.flcs } }))

/-- Append rows to the log of a group. -/
def appendRows (g n : Nat) (s : State) : Option (List (Nat × Nat) × State) :=
  match takeRows (3 * n + 3) n (logOf g s) with
  | none => none
  | some l => some (l.rows, putLog g l s)

/-! Slots -/

/-- Rows as extents. -/
def toExtents : List (Nat × Nat) → List Extent
  | [] => []
  | r :: rs =>
    match toExtents rs with
    | e :: es => if e.sb = r.1 ∧ e.row = r.2 + 1 then { sb := r.1, row := r.2, rows := e.rows + 1 } :: es
                 else { sb := r.1, row := r.2, rows := 1 } :: e :: es
    | [] => [{ sb := r.1, row := r.2, rows := 1 }]

/-- The group that takes the next demotion (R140). -/
def demotionGroup (s : State) : Nat :=
  if s.fmg.g0.state = .online ∧ (s.fmg.g1.state ≠ .online ∨ freeSbs s 1 ≤ freeSbs s 0) then 0 else 1

/-- A generation is left: none is reused under one media key, so that no demotion starts once all are taken (R140). (DESIGN CHOICE: notes/assumptions/90.md) -/
def genLeft (s : State) : Bool := decide (s.fmg.nextGen < 2 ^ 40)

/-- A slot for a slab to be demoted, with a generation of its own. (DESIGN CHOICE: notes/assumptions/9.md) -/
def newSlot (frame slab : Nat) (s : State) : State :=
  setSlot frame (some { slab := slab, gen := s.fmg.nextGen, group := demotionGroup s, where_ := [] })
    { s with fmg := { s.fmg with nextGen := s.fmg.nextGen + 1 } }

/-- Local rows that hold block `b`, its descriptor and its copy B (Table 06-3). -/
def rowsOfBlock (b : Nat) : List Nat := [0, pageOfBlock b / 15]

/-- Put fresh places in for some local rows. -/
def replaceRows : List (Nat × Nat) → List Nat → List (Nat × Nat) → List (Nat × Nat)
  | rows, r :: rs, x :: xs => replaceRows (rows.set r x) rs xs
  | rows, _, _ => rows

/-- Program what a copy pass of a move into T3 has copied, and the rows that a program failure concerns: every row the first time,
later the rows that hold copied blocks (R121, R141). -/
def programSlot (frame : Nat) (copied rewrite : List Nat) (s : State) : Option State :=
  match slotAt s frame with
  | none => none
  | some x =>
    let old := slotRows x
    let which := if old.isEmpty then List.range 69 else (copied.flatMap rowsOfBlock ++ rewrite).eraseDups
    match appendRows x.group which.length s with
    | none => none
    | some (new, t) =>
      some (setSlot frame (some { x with where_ := toExtents (if old.isEmpty then new else replaceRows old which new) }) t)

/-- Valid pages of a superblock, in rows: its rows that a slot names. -/
def validRows (s : State) (g k : Nat) : Nat :=
  listSum (s.fmg.slots.map (fun p => match p.2 with
    | some x => if x.group = g then (slotRows x).countP (fun r => decide (r.1 = k)) else 0
    | none => 0))

/-- Erase one block of a collected superblock; its position gives the channel. -/
def eraseAt (l : LogRows) (x : Nat × Nat) : LogRows :=
  let f := tget Flc.reset l.flcs (l.base + x.2)
  let e := eraseBlock x.1 .free ⟨f, l.erases, l.retired⟩
  { l with flcs := tput Flc.reset l.flcs (l.base + x.2) e.flc, erases := e.erases, retired := e.retired }

/-- A superblock is no more: its erase blocks are erased and free (R142, R143). -/
def freeSb (l : LogRows) (k : Nat) : LogRows :=
  (sbAt l.group k).blocks.zipIdx.foldl eraseAt { l with group := setSb k Superblock.reset l.group }

/-- Closed superblocks without valid pages are collected: erased and free. -/
def freeEmptySbs (g : Nat) (s : State) : State :=
  putLog g ((tkeys (fun k b => decide (b.state = .closed) && decide (validRows s g k = 0)) (fgroup s g).sbs).foldl freeSb (logOf g s)) s

/-! Capacity (R139, R146) -/

/-- Rows of the usable erase blocks of a group that is online. -/
def groupRows (s : State) (g : Nat) : Nat :=
  if (fgroup s g).state = .online then perGroup s g goodBlocks * (fgroup s g).rowsPerSb else 0

/-- Rows kept for garbage collection. -/
def reserveRows (s : State) (g : Nat) : Nat :=
  if (fgroup s g).state = .online then fld s Pg.fmg 0x400 15 8 * (fgroup s g).rowsPerSb else 0

/-- After a loss of capacity: SPARE_EXHAUSTED, and once it is set a lower USABLE_FRAMES with fewer slabs (R146, R26). -/
def settleSpare (s : State) : State :=
  let rows := groupRows s 0 + groupRows s 1
  let keep := reserveRows s 0 + reserveRows s 1
  if keep + 69 * s.fmg.usableFrames ≤ rows then s
  else if !s.fmg.spareExhausted then { s with fmg := { s.fmg with spareExhausted := true } }
  else retireSlabs { s with fmg := { s.fmg with usableFrames := min s.fmg.usableFrames ((rows - keep) / 69) } }

/-- Superblocks that hold an erase block at a channel position. -/
def sbsWith (g : Group) (pos : Nat) (p : Nat → Bool) : List Nat :=
  tkeys (fun _ b => b.blocks[pos]?.any p) g.sbs

/-- A block of a superblock that was not used yet is free again. -/
def returnAt (l : LogRows) (x : Nat × Nat) : LogRows :=
  let f := tget Flc.reset l.flcs (l.base + x.2)
  let b := blockAt f x.1
  if b.state = .bad then l
  else { l with flcs := tput Flc.reset l.flcs (l.base + x.2) (setBlock x.1 { b with state := .free } f) }

/-- A superblock loses an erase block: the open one takes no further rows, one that waits erased is given up. Data in it stays
where it is. -/
def closeSb (l : LogRows) (k : Nat) : LogRows :=
  match (sbAt l.group k).state with
  | .opened => { l with group := { setSb k { sbAt l.group k with state := .closed } l.group with openSb := none } }
  | .erased => (sbAt l.group k).blocks.zipIdx.foldl returnAt { l with group := setSb k Superblock.reset l.group }
  | _ => l

def closeSbs (g : Nat) (ks : List Nat) (s : State) : State := putLog g (ks.foldl closeSb (logOf g s)) s

/-- Retire an erase block: it is out of use, data already in it staying readable (R141). -/
def retireBlock (channel n : Nat) (s : State) : State :=
  let f := flcAt s channel
  let s1 := setFlc channel (setBlock n { blockAt f n with state := .bad, erased := false } f) s
  settleSpare (closeSbs (channel / 16) (sbsWith (fgroup s (channel / 16)) (channel % 16) (fun k => decide (k = n)))
    (count Pg.fmg 0xE48 s1))

/-! Collection (R143 – R146, R152) -/

/-- Queue the relocation of a frame at URGENT priority. -/
def queueUrgent (frame : Nat) (s : State) : State :=
  if s.fmg.relocating.contains frame then s else { s with fmg := { s.fmg with relocating := s.fmg.relocating ++ [frame] } }

/-- Erase counts on a channel: of the listed blocks in use, and 0 when one of them is not listed. -/
def eraseCounts (f : Flc) : List Nat :=
  let l := (f.blocks.filter (fun x => onDie f x.1 && decide (x.2.state ≠ .bad))).map (·.2.erases)
  if f.blocks.countP (fun x => onDie f x.1) < (diesOf f).length * f.blocksPerLun then 0 :: l else l

/-- Difference of the greatest and the least erase count in a group. -/
def wearSpread (s : State) (g : Nat) : Nat :=
  let l := (List.range 16).flatMap (fun i => eraseCounts (flcAt s (16 * g + i)))
  listMax l - l.foldl min (listMax l)

/-- Erase counts of a superblock's blocks. -/
def sbErases (s : State) (g : Nat) (b : Superblock) : List Nat :=
  b.blocks.zipIdx.map (fun x => (blockAt (flcAt s (16 * g + x.2)) x.1).erases)

/-- The closed superblock that is best by a measure: least first component, then least second. -/
def bestSb (s : State) (g : Nat) (measure : Nat → Superblock → Nat × Nat) : Option Nat :=
  ((fgroup s g).sbs.foldl (fun (a : Option (Nat × (Nat × Nat))) p =>
    if p.2.state ≠ .closed then a
    else match a with
      | none => some (p.1, measure p.1 p.2)
      | some x =>
        let y := measure p.1 p.2
        if y.1 < x.2.1 ∨ (y.1 = x.2.1 ∧ y.2 < x.2.2) then some (p.1, y) else a) none).map (·.1)

/-- The superblock that collection picks: the fewest valid pages, then the lower mean erase count (R143); or the one with the
least-erased block (R145). -/
def victim (s : State) (g : Nat) : Option Nat :=
  if fld s Pg.fmg 0x408 15 0 < wearSpread s g then
    bestSb s g (fun _ b => ((sbErases s g b).foldl min (listMax (sbErases s g b)), 0))
  else if freeSbs s g < fld s Pg.fmg 0x400 15 8 then bestSb s g (fun k b => (validRows s g k, listSum (sbErases s g b)))
  else none

/-- A slot of the group with data in it. -/
def relocatable (s : State) (g frame : Nat) : Bool :=
  match slotAt s frame with | some x => decide (x.group = g) && !x.where_.isEmpty | none => false

/-- The frame to relocate: an urgent one, else the lowest with rows in the victim. -/
def gcFrame (s : State) (g : Nat) : Option Nat :=
  match s.fmg.relocating.find? (relocatable s g) with
  | some f => some f
  | none => (victim s g).bind (fun k => s.fmg.slots.findSome? (fun p => match p.2 with
      | some x => if x.group = g ∧ (slotRows x).any (fun r => decide (r.1 = k)) then some p.1 else none
      | none => none))

/-- Collection of the group runs at URGENT priority: it has fewer than URGENT free superblocks, or a slab waits at that priority
(R143, R146, R152). -/
def gcUrgent (s : State) (g : Nat) : Bool :=
  decide ((fgroup s g).state = .online) && (gcFrame s g).isSome &&
    (decide (freeSbs s g < fld s Pg.fmg 0x400 7 0) || s.fmg.relocating.any (relocatable s g))

/-! What stands in the pages of a slab (R137, R138, R158) -/

/-- Bytes of a unit of a T3 frame under the media key (R158). (DEDUCED: notes/assumptions/29.md) -/
def mediaUnit (s : State) (frame unit : Nat) (plain : List Byte) : List Byte :=
  xts true (mediaKey s) (mediaTweak s frame unit) plain

/-- The metadata of a block's codeword: descriptor, copy B, generation, slot, reserved bytes (R138). -/
def codewordMeta (s : State) (frame b : Nat) : List Byte :=
  let d := descAt s (homeKey .t3 frame b)
  mediaUnit s frame (8192 + b) (leBytes 16 (descWord d) ++ leBytes 4 d.copyB.toNat ++
    leBytes 5 ((slotAt s frame).map (·.gen) |>.getD 0) ++ leBytes 3 frame ++ List.replicate 4 0)

/-- The main area of data page `i` of a slab (Table 06-3). (DESIGN CHOICE: notes/assumptions/90.md) -/
def pageData (s : State) (frame i : Nat) : List Byte :=
  if i < 4 then
    mediaUnit s frame (4096 + i) ((List.range 1024).flatMap (fun k => leBytes 16 (descWord (descAt s (homeKey .t3 frame (1024 * i + k))))))
  else if i = 4 then
    mediaUnit s frame 4100 ((List.range 4096).flatMap (fun b => leBytes 4 (descAt s (homeKey .t3 frame b)).copyB.toNat))
  else if i ≤ 1028 then (List.range 4).flatMap (fun c => tgets 0 s.mem (homeKey .t3 frame (4 * (i - 5) + c) * 4096) 4096)
  else (List.range 16384).map (Config.padding frame i)

/-- The spare area of data page `i`: the metadata of its codewords; what it holds for another page is open. (DESIGN CHOICE: notes/assumptions/90.md) -/
def pageSpare (s : State) (frame i : Nat) : List Byte :=
  if 5 ≤ i ∧ i ≤ 1028 then (List.range 4).flatMap (fun c => codewordMeta s frame (4 * (i - 5) + c))
  else (List.range 128).map (fun k => Config.padding frame i (16384 + k))

/-- The parity page of local row `r`: the XOR of its 15 data pages, spare areas included (R137). -/
def parityPage (s : State) (frame r : Nat) : List Byte :=
  (List.range 15).foldl (fun a k => List.zipWith (· ^^^ ·) a (pageData s frame (15 * r + k) ++ pageSpare s frame (15 * r + k)))
    (List.replicate 16512 0)

end Sys2Proof.Machine
end

