-- ==== Sys2Proof/Machine/Migration.lean ====
section
/-! DEFINITION. Sys2Proof/Machine/Migration.lean: heat, policy, hints and the steps of a move (chapter Placement and Migration;
rows DECAY_TICK to MGE_GUARANTEE_WRITE). -/

namespace Sys2Proof.Machine

/-! Heat (R111, R112, R127) -/

/-- TICK_MS has passed since the last decay tick. -/
def tickLate (s : State) : Bool := decide (s.mge.lastTick + 1000000 * fld s Pg.mge 0x400 15 6 ≤ s.now)

/-- DECAY_TICK: the sweep of a tick that fell due by its samples or its time: HEAT := HEAT >> 1 for every slab. When both fell due,
one tick is merged (R111). (DEDUCED: notes/assumptions/32.md) -/
def execDecayTick (s : State) : Host.Outcome State Fault Refusal :=
  .next (whenAwake s (fun s =>
    if !s.mge.sweepDue && !tickLate s then s
    else
      let t := { s with ple := { s.ple with map := s.ple.map.map (fun p => (p.1, { p.2 with heat := p.2.heat / 2 })) },
                        mge := { s.mge with sampled := 0, sweepDue := false, lastTick := s.now } }
      if s.mge.sweepDue && tickLate s then count Pg.mge 0xE38 t else t))

/-- Standing votes at a swap of the touch maps: those on untouched slabs that stood at the last swap go, the others
have now stood at one. -/
def expireVotes (s : State) : State :=
  s.mge.votes.foldl (fun s p => match p.2 with
    | some v =>
      if v.hint.isSome then s
      else if v.stoodAtSwap && !touched s (p.1 / 2 ^ 20) then setVote (p.1 / 2 ^ 20) (p.1 % 2 ^ 20) none s
      else setVote (p.1 / 2 ^ 20) (p.1 % 2 ^ 20) (some { v with stoodAtSwap := true }) s
    | none => s) s

/-- TOUCH_MAP_SWAP: the older map is cleared and made current. -/
def execTouchMapSwap (s : State) : Host.Outcome State Fault Refusal :=
  .next (whenAwake s (fun s =>
    if s.now < s.mge.lastSwap + 500000 * fld s Pg.mge 0x400 26 16 then s
    else
    let t := expireVotes s
    { t with mge := { t.mge with touchA := if t.mge.currentB then [] else t.mge.touchA,
                                 touchB := if t.mge.currentB then t.mge.touchB else [],
                                 currentB := !t.mge.currentB, lastSwap := s.now } }))

/-! Choosing moves (R114, R128) -/

def hasMove (s : State) (slab : Nat) : Bool := (moveOf s slab).isSome

/-- The owner's coldest slab in a tier that may go to tier `dest`, among those that satisfy `p`. (DEDUCED: notes/assumptions/33.md) -/
def coldest (s : State) (c : Nat) (t dest : Tier) (p : Nat → MapEntry → Bool) : Option (Nat × Nat) :=
  s.ple.map.foldl (fun (a : Option (Nat × Nat)) e =>
    if owns s c e.2 && decide (e.2.tier = some t) && !e.2.releasing && !e.2.pool && tierBit e.2.tmask dest &&
        !hasMove s e.1 && !inStream s e.1 && !(decide (dest = .t3) && t3Excluded s e.1) && p e.1 e.2 then
      match a with
      | none => some (e.1, e.2.heat)
      | some x => if e.2.heat < x.2 then some (e.1, e.2.heat) else a
    else a) none

/-- Queue a swap: the cold slab goes into a pool frame of the tier that the other slab leaves. -/
def queueSwap (cold slab cls : Nat) (target : Tier) (s : State) : Queued × State :=
  match (mapAt s slab).tier with
  | none => (.later, s)
  | some low =>
    match askMove cold cls low true false s with
    | (.queued, s1) =>
      match askMove slab cls target false false s1 with
      | (.busy, s2) => (.busy, dropMove cold s2)
      | (q, s2) => (q, { s2 with mge := { s2.mge with swaps := s2.mge.swaps ++ [(cold, slab)] } })
    | (q, s1) => (q, s1)

/-- A vote on the slab wishes tier `t` or a higher one. -/
def votedFor (s : State) (slab : Nat) (t : Tier) : Bool := (votesOn s slab).any (fun v => decide (tierIdx v.2.want ≤ tierIdx t))

/-- Queue the class-4 move of a slab to the home its votes decide; the status when it cannot be had (R128). -/
def requestHome (slab : Nat) (home : Tier) (s : State) : Status × State :=
  let c := ownerOf s (mapAt s slab)
  let low := (mapAt s slab).tier.getD .t2
  let asked : Option (Queued × State) :=
    if (moveOf s slab).any (fun m => decide (m.target = home)) ∨ 0 < openFrames s c home then
      some (askMove slab 4 home false false s)
    else (coldest s c home low (fun k _ => !votedFor s k home)).map (fun x => queueSwap x.1 slab 4 home s)
  match asked with
  | none => (.noCapacity, s)
  | some (.busy, s1) => (.moveBusy, s1)
  | some (_, s1) => (.ok, s1)

/-- The tier above. -/
def tierAbove : Tier → Option Tier
  | .t1 => none | .t2 => some .t1 | .t3 => some .t2

/-- The slab has flipped within MIN_DWELL_MS (times are kept plus one). -/
def dwells (s : State) (slab : Nat) : Bool :=
  match tfind s.mge.lastFlip slab with
  | none => false
  | some t => decide (s.now < t - 1 + fld s Pg.mge 0x408 47 32 * 1000000)

/-- The slab's move was given up within MIN_DWELL_MS: it is not requeued for heat (R118). -/
def restrained (s : State) (slab : Nat) : Bool :=
  match tfind s.mge.noHeat slab with
  | none => false
  | some t => decide (s.now < t - 1 + fld s Pg.mge 0x408 47 32 * 1000000)

/-- The policy may move the slab for heat (R114, R115, R237). -/
def heatMoves (s : State) (slab : Nat) (e : MapEntry) : Bool :=
  (decide (e.state = .resident) || decide (e.state = .sealed)) && !e.releasing && !e.pool && !hasMove s slab && !inStream s slab && !restrained s slab &&
    !(hintedMode s && !(votesOn s slab).isEmpty)

/-- Promote a slab one tier when its heat asks for it. -/
def policyPromote (c slab : Nat) (s : State) : State :=
  let e := mapAt s slab
  let h := fld s Pg.mge 0x408 7 0
  match e.tier.bind tierAbove, e.tier with
  | some up, some low =>
    if !heatMoves s slab e || !tierBit e.tmask up || dwells s slab then s
    else if 0 < openFrames s c up then
      if h ≤ e.heat then (askMove slab 5 up false false s).2 else s
    else match coldest s c up low (fun k x => heatMoves s k x) with
      | some (k, heat) => if heat + h ≤ e.heat then (queueSwap k slab 5 up s).2 else s
      | none => s
  | _, _ => s

/-- Demote up to `n` cold untouched T2 slabs of a context to T3. -/
def policyDemote (c : Nat) : Nat → State → State
  | 0, s => s
  | n + 1, s =>
    if !t3Online s || decide (openFrames s c .t3 = 0) then s
    else match coldest s c .t2 .t3 (fun k e => heatMoves s k e && decide (e.heat = 0) && !touched s k) with
      | none => s
      | some (k, _) => policyDemote c n (askMove k 5 .t3 false false s).2

/-- Evaluate the placement of one context. -/
def policyCtx (c : Nat) (s : State) : State :=
  let s1 := (slabsOf s c).foldl (fun s k => policyPromote c k s) s
  let free := unusedFrames s1 c .t2 + s1.mge.moves.countP (fun m =>
    owns s1 c (mapAt s1 m.slab) && decide ((mapAt s1 m.slab).tier = some .t2) && decide (m.target ≠ .t2))
  policyDemote c (fld s1 Pg.mge 0x408 63 48 - free) s1

/-- POLICY_PERIOD. -/
def execPolicyPeriod (s : State) : Host.Outcome State Fault Refusal :=
  .next (whenAwake s (fun s =>
    if pinnedMode s ∨ s.now < s.mge.lastPolicy + 1000000 * fld s Pg.mge 0x408 31 16 then s
    else (tkeys (fun _ c => decide (c.state = .active)) s.ple.ctxs).foldl (fun s c => policyCtx c s)
      { s with mge := { s.mge with lastPolicy := s.now } }))

/-! Moves that TMASK asks for, and requests that waited (R116, R126) -/

/-- Permitted tiers of a slab, highest first. -/
def permitted (s : State) (slab : Nat) : List Tier :=
  tiers.filter (fun t => tierBit (mapAt s slab).tmask t && !(decide (t = .t3) && t3Excluded s slab))

/-- The slab lies in a tier that its TMASK does not contain, outside a pool frame. -/
def maskBroken (s : State) (slab : Nat) : Bool :=
  let e := mapAt s slab
  match e.tier with
  | some t => !tierBit e.tmask t && !e.pool
  | none => false

/-- Moves that free a frame of tier `t` for the owner `c`, the last of which leaves `t` itself: of another slab of the owner into a
tier with an open frame, or of two, the second into a tier that the first opens. -/
def freeingMoves (s : State) (c slab : Nat) (t : Tier) : Option (List (Nat × Tier)) :=
  let into (u v : Tier) (skip : List Nat) : Option Nat := (coldest s c u v (fun k _ => !skip.contains k)).map (·.1)
  let dests := tiers.filter (fun u => decide (u ≠ t))
  match dests.findSome? (fun u => if 0 < openFrames s c u then (into t u [slab]).map (fun k => [(k, u)]) else none) with
  | some l => some l
  | none => dests.findSome? (fun u => dests.findSome? (fun v =>
      if u = v ∨ openFrames s c v = 0 then none
      else match into u v [slab] with
        | some k2 => (into t u [slab, k2]).map (fun k1 => [(k2, v), (k1, u)])
        | none => none))

/-- Queue the class-3 move of a slab whose TMASK no longer contains its tier; when no permitted tier holds an unused frame, other
slabs of the owner move on first (R126). -/
def moveIntoMask (slab : Nat) (s : State) : State :=
  let c := ownerOf s (mapAt s slab)
  let ts := permitted s slab
  match ts.find? (fun t => decide (0 < openFrames s c t)) with
  | some t => (askMove slab 3 t false false s).2
  | none =>
    match ts.findSome? (fun t => (freeingMoves s c slab t).map (fun l => (t, l))), ts with
    | some (t, l), _ => (askMove slab 3 t false false (l.foldl (fun s x => (askMove x.1 3 x.2 false false s).2) s)).2
    | none, t :: _ => (askMove slab 3 t false false s).2
    | none, [] => s

/-- Requests that waited for the move of a slab are taken up while their cause holds (R116). (DEDUCED: notes/assumptions/33.md) -/
def takeUp (slab : Nat) (s : State) : State :=
  if hasMove s slab then s
  else
    let e := mapAt s slab
    if maskBroken s slab then moveIntoMask slab s
    else if s.dev.profile.flashUse = 1 ∧ inPartition s slab ∧ e.tier = some .t3 then promoteSlabs [slab] s
    else match voteHome s slab with
      | some home =>
        if hintedMode s ∧ e.tier.isSome ∧ e.tier ≠ some home ∧ (votesOn s slab).any (fun v => v.2.hint.isSome) then
          match requestHome slab home s with
          | (.ok, s1) => s1
          | (st, s1) => failVotes slab st s1
        else s
      | none => s

/-- Frames have become free: slabs that wait for a frame in a permitted tier, with no move on its way that frees one, look for it
again (R126). (DEDUCED: notes/assumptions/33.md) -/
def settleMasks (s : State) : State :=
  let freeing (s : State) (c : Nat) : Bool := s.mge.moves.any (fun m => decide (m.cls = 3) && owns s c (mapAt s m.slab) && !maskBroken s m.slab)
  (s.mge.moves.filter (fun m => decide (m.cls = 3) && decide (m.phase = .queued))).foldl (fun s m =>
    if maskBroken s m.slab && !freeing s (ownerOf s (mapAt s m.slab)) &&
        decide (unusedFrames s (ownerOf s (mapAt s m.slab)) m.target = 0) then moveIntoMask m.slab s else s) s

/-! HINT (R125 – R130) -/

/-- Remove other contexts' votes; pending ones complete with MOVE_SUPERSEDED. -/
def supersede (slab : Nat) (l : List (Nat × Vote)) (s : State) : State :=
  l.foldl (fun s v => removeVote slab v.1 .moveSuperseded s) s

/-- Abandon the slab's move when it goes to a tier that satisfies `p`; the writes it held are offered again. -/
def abandonToward (slab : Nat) (p : Tier → Bool) (s : State) : State :=
  match moveOf s slab with
  | some m => if p m.target then releaseHeld slab (abandonMove slab s) else s
  | none => s

/-- Record a vote and act on the home that the votes decide. -/
def castVote (id slab ctx : Nat) (want : Tier) (s : State) : State :=
  let s1 := setVote slab ctx (some { want := want, hint := some id, stoodAtSwap := false }) s
  match voteHome s1 slab with
  | none => s1
  | some home =>
    if (mapAt s1 slab).tier = some home then
      resolveSlab id slab .ok (setVote slab ctx (some { want := want, hint := none, stoodAtSwap := false }) s1)
    else match requestHome slab home s1 with
      | (.ok, s3) => s3
      | (st, s3) => removeVote slab ctx st s3

/-- The procedure resolve_hint of R129 for one slab; a later HINT of the same context on the slab removes its vote first (R127). -/
def resolveHint (id ctx slab action : Nat) (target : Tier) (s0 : State) : State :=
  let s := removeVote slab ctx .moveSuperseded s0
  let e := mapAt s slab
  let barred (t : Tier) : Bool := !tierBit e.tmask t || (decide (t = .t3) && t3Excluded s slab)
  if action = 3 then resolveSlab id slab .ok s
  else match e.tier with
    | none =>
      if action = 2 then resolveSlab id slab .ok s
      else if barred target then resolveSlab id slab .accessDenied s
      else resolveSlab id slab .ok (setVote slab ctx (some { want := target, hint := none, stoodAtSwap := false }) s)
    | some tier =>
      let want := if action = 2 then tier else target
      if barred want then resolveSlab id slab .accessDenied s
      else
        let others := (votesOn s slab).filter (fun v => decide (v.1 ≠ ctx))
        if above tier want then
          let higher := others.filter (fun v => above v.2.want want)
          if !higher.isEmpty && touched s slab then resolveSlab id slab .moveSuperseded s
          else castVote id slab ctx want
            (if higher.isEmpty then s else abandonToward slab (fun t => above t want) (supersede slab higher s))
        else if above want tier then
          let q := others.filter (fun v => v.2.hint.isSome && above tier v.2.want)
          if !q.isEmpty && !touched s slab then resolveSlab id slab .moveSuperseded s
          else castVote id slab ctx want
            (if q.isEmpty then s else abandonToward slab (fun t => above tier t) (supersede slab q s))
        else castVote id slab ctx want s

/-- The tier that a TARGET operand names. -/
def hintTier : Nat → Option Tier
  | 1 => some .t1 | 2 => some .t2 | 3 => some .t3 | _ => none

/-- A hint of this command waits already. -/
def hintWaits (s : State) (r : RingCmd) : Bool := s.mge.hints.any (fun h => decide (h.r = r))

/-- Enter a hint in progress. -/
def openHint (r : RingCmd) (tmask : Bool) (target : Option Tier) (waiting : List Nat) (s : State) : State :=
  { s with mge := { s.mge with nextHint := s.mge.nextHint + 1, hints := s.mge.hints ++
      [{ id := s.mge.nextHint, r := r, tmask := tmask, target := target, waiting := waiting, outcomes := [], reached := 0 }] } }

/-- Votes in use. -/
def votesUsed (s : State) : Nat := s.mge.votes.length

/-- The effect of HINT with an ACTION other than TMASK: refused when its votes would exceed the pool (R127). (DEDUCED: notes/assumptions/32.md) -/
def hintBody (r : RingCmd) (ctx first count action target : Nat) (s : State) : State :=
  if !hintedMode s then complete r Opc.hint .hintNotHonoured 0 s
  else
    let run := slabList first count
    let t := run.foldl (fun t k => takeUp k (resolveHint s.mge.nextHint ctx k action ((hintTier target).getD .t1) t))
      (openHint r false (if action ≤ 1 then hintTier target else none) run s)
    if 1048576 < votesUsed t then complete r Opc.hint .noCapacity 0 s else t

/-- HINT with ACTION PROMOTE (0), DEMOTE (1), KEEP (2) or CLEAR (3). -/
def execHint (r : RingCmd) (ctx dest count action target : Nat) (s : State) : Host.Outcome State Fault Refusal :=
  .next (ringRun r Opc.hint (fun s =>
    if hintWaits s r then s
    else if !slabAligned dest ∨ count = 0 ∨ 65536 < count ∨ 4 ≤ action ∨ (action ≤ 1 ∧ (hintTier target).isNone) then
      complete r Opc.hint .accessDenied 0 s
    else match gateCtx r ctx s with
    | (some st, s1) => complete r Opc.hint st 0 s1
    | (none, s1) =>
      match checkRun (ringAsk r.fn ctx false false) (dest / 2 ^ 24) count s1 with
      | (some st, s2) => complete r Opc.hint st 0 s2
      | (none, s2) => hintBody r ctx (dest / 2 ^ 24) count action target s2) s)

/-! HINT with ACTION TMASK (R126) -/

/-- Hints with ACTION TMASK complete for a slab that lies in a permitted tier. -/
def settleTmask (slab : Nat) (s : State) : State := if maskBroken s slab then s else resolveTmask slab .ok s

/-- Remove the votes that wish a tier outside TMASK. -/
def dropMaskVotes (slab : Nat) (s : State) : State :=
  supersede slab ((votesOn s slab).filter (fun v => !tierBit (mapAt s slab).tmask v.2.want)) s

/-- Give a slab its new TMASK. -/
def changeMask (tmask slab : Nat) (s : State) : State :=
  let s1 := dropMaskVotes slab (modMap slab (fun e => { e with tmask := tmask }) s)
  let s2 := match moveOf s1 slab with
    | some m => if tierBit tmask m.target || m.toPool then s1 else releaseHeld slab (abandonMove slab s1)
    | none => s1
  if maskBroken s2 slab then moveIntoMask slab s2 else settleTmask slab s2

/-- The effect of HINT with ACTION TMASK. -/
def tmaskBody (r : RingCmd) (ctx first count tmask : Nat) (s : State) : State :=
  let run := slabList first count
  let t := run.foldl (fun s k => modMap k (fun e => { e with tmask := tmask }) s) s
  if !run.all (fun k => owns s ctx (mapAt s k)) ∨ tmask = 0 ∨ 8 ≤ tmask ∨
      run.any (fun k => decide (tmask = 4) && t3Excluded s k) then complete r Opc.hint .accessDenied 0 s
  else match hallFail t ctx with
    | some (m, n, room) =>
      complete r Opc.hint .noCapacity 0 (refusedAdmission (noteRefusal .noCapacity (8 + m) n room s))
    | none =>
      let broken := run.filter (fun k => maskBroken t k)
      settleHints (run.foldl (fun s k => changeMask tmask k s) (openHint r true none broken (admitted s)))

/-- HINT with ACTION TMASK. -/
def execHintTmask (r : RingCmd) (ctx dest count tmask : Nat) (s : State) : Host.Outcome State Fault Refusal :=
  .next (ringRun r Opc.hint (fun s =>
    if hintWaits s r then s
    else if !slabAligned dest ∨ count = 0 ∨ 65536 < count then complete r Opc.hint .accessDenied 0 s
    else match gateCtx r ctx s with
    | (some st, s1) => complete r Opc.hint st 0 s1
    | (none, s1) =>
      match checkRun (ringAsk r.fn ctx false false) (dest / 2 ^ 24) count s1 with
      | (some st, s2) => complete r Opc.hint st 0 s2
      | (none, s2) => tmaskBody r ctx (dest / 2 ^ 24) count tmask s2) s)

/-! The steps of a move (R116 – R122, Table 05-3) -/

/-- A move reads or writes T3. -/
def touchesT3 (s : State) (m : Move) : Bool := decide (m.target = .t3) || decide ((mapAt s m.slab).tier = some .t3)

/-- Urgent collection goes ahead of the move: it shares the MGE's T3 guarantee ahead of classes 4 and 5 (R143). -/
def behindGc (s : State) (m : Move) : Bool := decide (4 ≤ m.cls) && touchesT3 s m && (gcUrgent s 0 || gcUrgent s 1)

/-- The frame G that a queued move can take now. (DEDUCED: notes/assumptions/33.md) -/
def startFrame (m : Move) (s : State) : Option (Nat × State) :=
  let e := mapAt s m.slab
  if (e.state ≠ .resident ∧ e.state ≠ .sealed) ∨ e.tier.isNone ∨ e.releasing ∨ (4 ≤ m.cls ∧ (inStream s m.slab ∨ pinnedMode s)) ∨
      behindGc s m ∨ (m.target = .t3 ∧ !genLeft s) then none
  else if m.toPool then
    (if poolFree s m.target && !(decide (m.target = .t3) && (t3Excluded s m.slab || !t3Online s)) then takeFrame m.target s else none)
  else if canPlace s m.slab (ownerOf s e) m.target then targetFrame m.slab m.target s
  else none

/-- Queued moves in class order, then in order of queuing. (DEDUCED: notes/assumptions/33.md) -/
def queueOrder (s : State) : List Move :=
  [1, 2, 3, 4, 5].flatMap (fun c => s.mge.moves.filter (fun m => decide (m.cls = c) && decide (m.phase = .queued)))

/-- Moves that copy. -/
def activeMoves (s : State) : Nat := s.mge.moves.countP (fun m => decide (m.phase ≠ .queued))

/-- Step 1 of Table 05-3. -/
def startMove (m : Move) (g : Nat) (s : State) : State :=
  let s1 := modMap m.slab (fun e => { e with state := .moving }) s
  let s2 := modMove m.slab (fun x => { x with phase := .copying, frame := some g, passes := 0, dirty := [], copied := [],
                                              programmed := false, rewrite := [], guar := reg s Pg.mge 0x418 }) s1
  if m.target = .t3 then newSlot g m.slab s2 else s2

/-- MOVE_START: the first queued move that can start does so. -/
def execMoveStart (slab : Nat) (s : State) : Host.Outcome State Fault Refusal :=
  .next (whenAwake s (fun s =>
    if fld s Pg.mge 0x410 31 26 ≤ activeMoves s then s
    else match (queueOrder s).find? (fun m => (startFrame m s).isSome) with
      | none => s
      | some m =>
        if m.slab ≠ slab then s
        else match startFrame m s with
          | some (g, t) => startMove m g t
          | none => s))

/-- The descriptor and copy-B pages of a T3 slab are rebuilt from the copies in the codewords: no error in them lasts, and no block
is poisoned for it (R154). -/
def rebuildPages (frame : Nat) (s : State) : State :=
  let lo := homeKey .t3 frame 0
  (tkeys (fun k (p : Plant) => decide (lo ≤ k) && decide (k < lo + 4096) && (p.descUe || p.copyBUe)) s.plants).foldl
    (fun s k => setPlant k { plantAt s k with descUe := false, copyBUe := false } s) s

/-- A whole-slab read meets one T3 block: it is read, rebuilt from its row (R146), or its recovery starts; the second component says
that the block can be copied. -/
def scanFlash (slab frame b : Nat) (s : State) : State × Bool :=
  let hb := homeKey .t3 frame b
  if (descAt s hb).state ≠ .normal ∨ flashPoison s slab b then (s, true)
  else if needsRecovery s frame b then (startRecovery Det.move slab b s, false)
  else (noteCorrections .t3 frame hb (descAt s hb).crumbs (countRebuild .t3 frame b s), true)

/-- A move copies one block of its home F: an uncorrectable error poisons the block in F, or starts recovery in T3, and corrections
are counted; nothing is repaired (R119, R191). The second component says that the block can be copied. -/
def scanBlock (slab : Nat) (t : Tier) (frame b : Nat) (s : State) : State × Bool :=
  let hb := homeKey t frame b
  let d := descAt s hb
  if t = .t3 then scanFlash slab frame b s
  else if (plantAt s hb).descUe then (loseDesc Det.move slab b hb s, true)
  else if d.state ≠ .normal ∨ flashPoison s slab b then (s, true)
  else if !(plantAt s hb).ue.any (fun c => decide (c < d.crumbs)) then (noteCorrections t frame hb d.crumbs s, true)
  else (poisonBlock Det.move 1 slab b hb (errUncorr (ctrlPage (frameCtrl s t frame)) s), true)

/-- Blocks of a frame that a whole read of it has something to do with: those with errors, and in T3 those whose page is rebuilt. -/
def scanKeys (s : State) (t : Tier) (frame : Nat) : List Nat :=
  let lo := homeKey t frame 0
  if t = .t3 then (tkeys (fun k (d : Desc) => decide (lo ≤ k) && decide (k < lo + 4096) && decide (d.state = .normal) &&
      (pageLost s frame (k - lo) || decide (plantAt s k ≠ Plant.none))) s.descs).map (· - lo)
  else (tkeys (fun k (p : Plant) => decide (lo ≤ k) && decide (k < lo + 4096) && (p.descUe || !p.ue.isEmpty || !p.corr.isEmpty)) s.plants).map (· - lo)

/-- A whole-slab read of some blocks of a frame; the second component says that all could be read. -/
def scanBlocksOf (slab : Nat) (t : Tier) (frame : Nat) (p : Nat → Bool) (s : State) : State × Bool :=
  ((scanKeys s t frame).filter p).foldl (fun x b => let y := scanBlock slab t frame b x.1; (y.1, x.2 && y.2)) (s, true)

/-- The blocks that a copy pass has read: all of the slab in the first, the dirty ones in a later pass. No recovery is open at its
end. -/
def scanCopy (slab : Nat) (m : Move) (s : State) : State × Bool :=
  let e := mapAt s slab
  match e.tier with
  | none => (s, true)
  | some t =>
    scanBlocksOf slab t e.frame (fun b => decide (m.passes = 0) || m.copied.contains b) (if t = .t3 then rebuildPages e.frame s else s)

/-- Give up a copying move at step 4: requeued, or dropped after the third time in succession (R118), in PINNED (R115) or when the
queue is full (R116). (DEDUCED: notes/assumptions/33.md) -/
def giveUp (slab : Nat) (s : State) : State :=
  match moveOf s slab with
  | none => s
  | some m =>
    let swaps := s.mge.swaps
    let s1 := abandonMove slab s
    let t := releaseHeld slab s1
    if 4 ≤ m.cls ∧ 3 ≤ m.aborts + 1 then
      takeUp slab (dropPartner slab (failVotes slab .moveAbandoned
        { t with mge := { t.mge with noHeat := tput 0 t.mge.noHeat slab (t.now + 1) } }))
    else if 4 ≤ m.cls ∧ pinnedMode t then takeUp slab (dropPartner slab (failVotes slab .moveAbandoned t))
    else if queueFull t m.cls then takeUp slab (dropPartner slab (failVotes slab .moveBusy (count Pg.mge 0xE40 t)))
    else
      setMoves (t.mge.moves ++ [{ newMove slab m.cls m.target m.toPool m.onWrite with aborts := m.aborts + 1 }])
        { t with mge := { t.mge with swaps := swaps } }

/-- The next step of a move whose copy pass has ended. (DEDUCED: notes/assumptions/32.md) -/
def passEnd (m : Move) (fromT3 : Bool) (s : State) : State :=
  let dirty := m.dirty.length
  let bound := fld s Pg.mge 0x410 15 4
  if fromT3 then modMove m.slab (fun x => { x with phase := .holding, holdSince := s.now, programmed := true }) s
  else if m.target = .t3 ∧ !m.programmed then s
  else if dirty ≤ bound then
    modMove m.slab (fun x => { x with phase := .holding, holdSince := s.now, passes := x.passes + 1, copied := m.dirty, dirty := [],
                                      programmed := m.target ≠ .t3 ∨ m.dirty = [] }) s
  else if m.passes + 1 < fld s Pg.mge 0x410 2 0 then
    modMove m.slab (fun x => { x with passes := x.passes + 1, copied := m.dirty, dirty := [], programmed := false }) s
  else giveUp m.slab s

/-- COPY_PASS_DONE (steps 2 to 5). -/
def execCopyPassDone (slab : Nat) (s : State) : Host.Outcome State Fault Refusal :=
  .next (whenAwake s (fun s =>
    match moveOf s slab with
    | none => s
    | some m =>
      if m.phase ≠ .copying then s
      else match scanCopy slab m s with
        | (s1, false) => s1
        | (s1, true) => match moveOf s1 slab with
          | some m1 => passEnd m1 (decide ((mapAt s1 slab).tier = some .t3)) s1
          | none => s1))

/-- Copy one block: crumbs, descriptor and copy B unchanged; a block of the poison record carries its state. A T3 copy B is rebuilt
(R154). -/
def copyBlock (slab : Nat) (t t' : Tier) (f g : Nat) (p : Nat × Desc) (s : State) : State :=
  let b := p.1 - homeKey t f 0
  let hb := homeKey t' g b
  let d := if t = .t3 ∧ flashPoison s slab b then { p.2 with state := BlockState.poisoned } else p.2
  let s1 := setPlant hb { Plant.none with copyBUe := (plantAt s p.1).copyBUe && decide (t ≠ .t3) } (setDesc hb d s)
  if d.state = .normal then
    let bs := (homeBytes s t f b).take (64 * d.crumbs)
    putHome hb (if t' = .t3 then xts true (mediaKey s) (mediaTweak s g b) (bs ++ List.replicate (4096 - bs.length) 0) else bs) s1
  else s1

/-- Copy every block of a slab; entries of the poison record stay (R153). (DEDUCED: notes/assumptions/32.md) -/
def copySlab (slab : Nat) (t t' : Tier) (f g : Nat) (s : State) : State :=
  let lo := homeKey t f 0
  (s.descs.filter (fun (p : Nat × Desc) => decide (lo ≤ p.1) && decide (p.1 < lo + 4096))).foldl
    (fun s p => copyBlock slab t t' f g p s) s

/-- Longest time that a write has waited for a promotion. -/
def noteStall (slab : Nat) (s : State) : State :=
  (s.mge.held.filter (fun w => decide (w.block / 4096 = slab))).foldl (fun s w => countMax Pg.mge 0xE18 (s.now - w.since) s) s

/-- A swap ends with the flip of the slab it made room for: its old frame replaces the pool frame. -/
def endSwap (slab : Nat) (s : State) : State :=
  match s.mge.swaps.find? (fun p => decide (p.2 = slab)) with
  | none => s
  | some (cold, _) =>
    count Pg.mge 0xE30 (modMap cold (fun e => { e with pool := false })
      { s with mge := { s.mge with swaps := s.mge.swaps.filter (fun p => decide (p.2 ≠ slab)) } })

/-- The home that a slab has left: its reads end before it goes to zeroing; a T3 frame is free at once, and no relocation of it goes
on (R142, R144). -/
def leaveHome (slab : Nat) (t : Tier) (frame : Nat) (s : State) : State :=
  if t = .t3 then freeToZeroing .t3 frame s
  else { s with mge := { s.mge with oldFrames := s.mge.oldFrames ++ [{ slab := slab, tier := t, frame := frame }] } }

/-- Recoveries of a slab's codewords end when it leaves T3: what waited for them is served from the new home. -/
def endRecoveries (slab : Nat) (s : State) : State :=
  let mine := s.fmg.recoveries.filter (fun r => decide (r.block / 4096 = slab))
  readsEnded (mine.foldl (fun s r => r.waiters.foldl (fun s w => serveWaiter slab (r.block % 4096) w s) s)
    { s with fmg := { s.fmg with recoveries := s.fmg.recoveries.filter (fun r => decide (r.block / 4096 ≠ slab)) } })

/-- Step 6 of Table 05-3: the flip. (DEDUCED: notes/assumptions/32.md) -/
def flipMove (m : Move) (g : Nat) (s : State) : State :=
  let e := mapAt s m.slab
  match e.tier with
  | none => s
  | some t =>
    let s1 := copySlab m.slab t m.target e.frame g s
    let s2 := modMap m.slab (fun e => { e with tier := some m.target, frame := g, pool := m.toPool,
                                               state := if e.sealBit then .sealed else .resident }) s1
    let s3 := leaveHome m.slab t e.frame
      (dropMove m.slab { s2 with mge := { s2.mge with lastFlip := tput 0 s2.mge.lastFlip m.slab (s2.now + 1) } })
    let s4 := count Pg.mge 0xE08 (dropTraySlab m.slab (moveShare m.slab m.target g s3))
    let s5 := endSwap m.slab (if m.onWrite then noteStall m.slab s4 else s4)
    let s6 := if t = .t3 then retryHeld (endRecoveries m.slab s5) else s5
    settleMasks (takeUp m.slab (settleTmask m.slab (settleVotes m.slab (settleScales (releaseHeld m.slab s6)))))

/-- MOVE_FLIP: possible once the last copy, and for T3 its programming, is done. -/
def execMoveFlip (slab : Nat) (s : State) : Host.Outcome State Fault Refusal :=
  .next (whenAwake s (fun s =>
    match moveOf s slab with
    | some m =>
      match m.frame with
      | some g => if m.phase = .holding ∧ m.programmed then flipMove m g s else s
      | none => s
    | none => s))

/-- HOLD_TIMEOUT: the hold of step 5 has reached HOLD_MAX_US; a move out of T3 has no such bound. (DESIGN CHOICE: notes/assumptions/6.md) -/
def execHoldTimeout (slab : Nat) (s : State) : Host.Outcome State Fault Refusal :=
  .next (whenAwake s (fun s =>
    match moveOf s slab with
    | some m =>
      if m.phase = .holding ∧ (mapAt s slab).tier ≠ some .t3 ∧ m.holdSince + 1000 * fld s Pg.mge 0x410 23 16 ≤ s.now then giveUp slab s
      else s
    | none => s))

/-- OLD_FRAME_RELEASE: every read that resolved to F has ended; F goes to zeroing (step 7). -/
def execOldFrameRelease (slab : Nat) (s : State) : Host.Outcome State Fault Refusal :=
  .next (whenAwake s (fun s =>
    let mine := s.mge.oldFrames.filter (fun o => decide (o.slab = slab))
    settleMasks <| retryHeld (mine.foldl (fun s o => freeToZeroing o.tier o.frame s)
      { s with mge := { s.mge with oldFrames := s.mge.oldFrames.filter (fun o => decide (o.slab ≠ slab)) } })))

/-- When a slab that takes no more writes has been without one for MIN_DWELL_MS (R122). -/
def restedFrom (s : State) (slab : Nat) : Nat :=
  max (tget 0 s.mge.lastWrite slab) (tget 0 s.mge.lastFlip slab - 1) + fld s Pg.mge 0x408 47 32 * 1000000

/-- POOL_DWELL_EXPIRY: a slab in a pool frame has taken no write for MIN_DWELL_MS (R122). -/
def execPoolDwellExpiry (slab : Nat) (s : State) : Host.Outcome State Fault Refusal :=
  .next (whenAwake s (fun s =>
    let e := mapAt s slab
    if !e.pool || hasMove s slab || s.mge.swaps.any (fun p => decide (p.1 = slab)) || decide (s.now < restedFrom s slab) then s
    else
      let c := ownerOf s e
      let order := (permitted s slab).reverse
      match order.find? (fun t => decide (0 < openFrames s c t)), order with
      | some t, _ => (askMove slab 1 t false false s).2
      | none, t :: _ => (askMove slab 1 t false false s).2
      | none, [] => s))

/-! MGE_GUARANTEE (R131) -/

/-- MGE_GUARANTEE_WRITE. -/
def execMgeGuaranteeWrite (w : Nat) (value : Word) (s : State) : Host.Outcome State Fault Refusal :=
  .next (expertGate w Pg.mge 0x418 (fun s =>
    let p1 := bits value 5 0
    let p2 := bits value 13 8
    let p3 := bits value 21 16
    if 50 < p1 ∨ 50 < p2 ∨ 50 < p3 then noteErr Pg.mge kindRefusedValue .accessDenied 0x418 w s
    else
      let t := setReg Pg.mge 0x418 (BitVec.ofNat 64 (place p3 16 6 + place p2 8 6 + place p1 0 6)) s
      match admitFail s t with
      | some (c, req, room) =>
        noteErr Pg.mge kindRefusedValue .guaranteeUnavailable 0x418 w
          (refusedAdmission (noteRefusal .guaranteeUnavailable c req room s))
      | none => settleScales (admitted t)) s)

end Sys2Proof.Machine
end

