-- ==== Sys2Proof/Machine/Dram.lean ====
section
/-! DEFINITION. Sys2Proof/Machine/Dram.lean: the stack and board DRAM controllers (chapter Stack and Board DRAM Controllers;
rows CONTROLLER_ISSUE to CHANNEL_LOST). -/

namespace Sys2Proof.Machine

/-! Shared views -/

/-- The page of a channel's controller. (PRESUMED: notes/assumptions/39.md) -/
def dramPage (chan : Nat) : Nat := ctrlPage (chanCtrl chan)

def modChan (k : Nat) (f : Chan → Chan) (s : State) : State := setChan k (f (chanAt s k)) s

/-- REF_POSTPONE_MAX of a controller. -/
def postponeMax (s : State) (ctrl : Nat) : Nat := fld s (ctrlPage ctrl) 0x488 3 0

/-- Requests that wait at a channel. -/
def waitingReqs (c : Chan) : List DramReq := c.queue ++ c.wbuf

/-- Panic applies to a channel (R175). -/
def panicApplies (s : State) (chan : Nat) : Bool :=
  (ctrlAt s (chanCtrl chan)).panic && (waitingReqs (chanAt s chan)).any (·.realTime)

/-- A channel in catch-up refresh (R181). -/
def inCatchup (s : State) (chan : Nat) : Bool :=
  (chanAt s chan).debt.any (fun d => decide (postponeMax s (chanCtrl chan) < d))

/-- The channels of a controller. -/
def chansOf (ctrl : Nat) : List Nat :=
  if ctrl < 8 then (List.range 32).map (fun i => 32 * ctrl + i) else if ctrl < 24 then [256 + (ctrl - 8)] else []

/-- THERM_N is asserted (R258). -/
def thermLow (s : State) : Bool := s.ppm.hot || (List.range 8).any (fun c => decide ((ctrlAt s c).range = 2))

/-- Run `f`, and show the sideband pins when one of them changes (1 is released). -/
def withPins (f : State → State) (s : State) : State :=
  let t := f s
  if thermLow t = thermLow s ∧ t.sss.fault = s.sss.fault then t
  else emit (.pins (!t.sss.fault) (!thermLow t)) t

/-! Panic and icing (R174, R175, R203) -/

/-- Icing requests of a channel to which panic applies are deferred and counted; when it no longer applies none is. -/
def settleDeferred (chan : Nat) (s : State) : State :=
  let others := s.ice.deferred.filter (fun p => decide (p.1 ≠ chan))
  let mine := (s.ice.deferred.filter (fun p => decide (p.1 = chan))).map (·.2)
  let held := if panicApplies s chan then
      ((waitingReqs (chanAt s chan)).filter (fun r => r.icing && !r.aged)).map (·.id) else []
  countBy Pg.ice 0xE38 (held.filter (fun i => !mine.contains i)).length
    { s with ice := { s.ice with deferred := others ++ held.map (fun i => (chan, i)) } }

/-- PANIC_RAISE: FILL is below PANIC_LO. (DESIGN CHOICE: notes/assumptions/92.md) -/
def execPanicRaise (ctrl fill : Nat) (s : State) : Host.Outcome State Fault Refusal :=
  .next (whenAwake s (fun s =>
    if 24 ≤ ctrl ∨ fld s (ctrlPage ctrl) 0x498 7 0 ≤ fill then s
    else
      let k := ctrlAt s ctrl
      let s1 := setCtrl ctrl { k with fill := fill, panic := true } s
      let s2 := if k.panic then s1 else count (ctrlPage ctrl) 0xE20 s1
      (chansOf ctrl).foldl (fun s c => settleDeferred c s) s2))

/-- PANIC_CLEAR: FILL has reached PANIC_HI. -/
def execPanicClear (ctrl fill : Nat) (s : State) : Host.Outcome State Fault Refusal :=
  .next (whenAwake s (fun s =>
    if 24 ≤ ctrl ∨ fill < fld s (ctrlPage ctrl) 0x498 15 8 then s
    else (chansOf ctrl).foldl (fun s c => settleDeferred c s)
      (setCtrl ctrl { ctrlAt s ctrl with fill := min 100 fill, panic := false } s)))

/-! Self-refresh (R184, R185) -/

/-- A request meets self-refresh entry (Table 07-4). -/
def meetSelfRefresh (chan : Nat) (s : State) : State :=
  match (chanAt s chan).sr with
  | .entering => count (dramPage chan) 0xE50 (modChan chan (fun c => { c with sr := .active }) s)
  | .inSr => modChan chan (fun c => { c with sr := .exiting }) s
  | _ => s

/-- The exit ends: DEBT is 0 and every bank's record starts as four misses. -/
def endSelfRefresh (c : Chan) : Chan := { c with sr := .active, debt := c.debt.map (fun _ => 0), banks := [] }

/-- The channel may enter self-refresh (R184), after a takeover whatever recipes are loaded (Table 16-4, step 6). -/
def srReady (s : State) (chan : Nat) : Bool :=
  let c := chanAt s chan
  c.online && flag s (dramPage chan) 0x490 0 && (waitingReqs c).isEmpty && c.debt.all (fun d => decide (d = 0)) &&
    decide (c.lastReq + 1000 * fld s (dramPage chan) 0x490 31 16 ≤ s.now) &&
    (decide (s.sss.state ≠ .watch) || !s.rlg.streams.any (fun d => d.homes.any (fun h => decide (h.2 = chanCtrl chan))))

/-- Entry begins; once it has begun, the entry command is issued. -/
def enterSr (chan : Nat) (s : State) : State :=
  let c := chanAt s chan
  match c.sr with
  | .active => setChan chan { c with sr := .entering } s
  | .entering => count (dramPage chan) 0xE48 (setChan chan { c with sr := .inSr } s)
  | _ => s

/-- SR_ENTRY: entry begins; given again, the entry command is issued. Key 512 + s stands for the whole stack s. (DEDUCED: notes/assumptions/36.md) -/
def execSrEntry (chan : Nat) (s : State) : Host.Outcome State Fault Refusal :=
  .next (whenPowered s (fun s =>
    if 512 ≤ chan then
      let on := (if chan < 520 then chansOf (chan - 512) else []).filter (fun k => (chanAt s k).online)
      if on.all (srReady s) then on.foldl (fun s k => enterSr k s) s else s
    else if srReady s chan then enterSr chan s
    else s))

/-- SR_EXIT: a request meets the entry, or the exit ends. (DEDUCED: notes/assumptions/36.md) -/
def execSrExit (chan : Nat) (s : State) : Host.Outcome State Fault Refusal :=
  .next (whenPowered s (fun s =>
    if (chanAt s chan).sr = .exiting then modChan chan endSelfRefresh s
    else meetSelfRefresh chan (modChan chan (fun c => { c with lastReq := s.now }) s)))

/-! Refresh (R177 – R183) -/

/-- Rank of a bank of a DDR5 channel: outputs 5 and 6, among in-channel outputs numbered from 4. (PRESUMED: notes/assumptions/37.md) -/
def bankRank (chan bank : Nat) : Nat := if chan < 256 then 0 else bank / 2 % 4

/-- A refresh of a rank: one less owed, its rows closed and records as after refresh (R173). -/
def refreshRank (chan rank : Nat) (c : Chan) : Chan :=
  { c with debt := modifyAt c.debt rank (· - 1), banks := tkeep (fun b => decide (bankRank chan b ≠ rank)) c.banks }

/-- REFRESH_INTERVAL. (DEDUCED: notes/assumptions/36.md) -/
def execRefreshInterval (chan rank : Nat) (s : State) : Host.Outcome State Fault Refusal :=
  .next (whenPowered s (fun s =>
    let c := chanAt s chan
    if !c.online ∨ c.debt.length ≤ rank ∨ c.sr = .inSr ∨ s.now < tget 0 c.refAt rank + 3900 / 2 ^ (ctrlAt s (chanCtrl chan)).range then s
    else
      let s1 := setChan chan { c with debt := modifyAt c.debt rank (· + 1), refAt := tput 0 c.refAt rank s.now } s
      if panicApplies s chan ∧ c.debt.getD rank 0 < postponeMax s (chanCtrl chan) then count (dramPage chan) 0xE30 s1 else s1))

/-- Issue an owed refresh when the rules allow it now. -/
def issueRefresh (chan rank : Nat) (s : State) : State :=
  let c := chanAt s chan
  let d := c.debt.getD rank 0
  let top := postponeMax s (chanCtrl chan)
  if !c.online ∨ d = 0 ∨ c.sr = .inSr ∨ c.sr = .exiting then s
  else if top < d then count (dramPage chan) 0xE38 (setChan chan (refreshRank chan rank c) s)
  else if panicApplies s chan ∨ ¬ ((waitingReqs c).isEmpty ∨ d = top) then s
  else setChan chan (refreshRank chan rank c) s

/-- REFRESH_ISSUE. (DEDUCED: notes/assumptions/36.md) -/
def execRefreshIssue (chan rank : Nat) (s : State) : Host.Outcome State Fault Refusal :=
  .next (whenPowered s (issueRefresh chan rank))

/-- The refresh range of readings: °C at a stack, the MR4 indications of the ranks at a DMC, of which the highest range counts. (DESIGN CHOICE: notes/assumptions/92.md) -/
def rangeOf (ctrl : Nat) (readings : List Nat) : Nat :=
  listMax (readings.map (fun r => if ctrl < 8 then (if r ≤ 85 then 0 else if r ≤ 105 then 1 else 2) else min 2 r))

/-- DEBT rescaled by a change of range (R180). -/
def rescale (from_ to_ d : Nat) : Nat := if from_ ≤ to_ then d * 2 ^ (to_ - from_) else ceilDiv d (2 ^ (from_ - to_))

/-- The range of a controller changes; CNT_RANGE_UP counts once for the controller. (DESIGN CHOICE: notes/assumptions/92.md) -/
def applyRange (ctrl r : Nat) (s : State) : State :=
  let k := ctrlAt s ctrl
  let s1 := (chansOf ctrl).foldl
    (fun s c => modChan c (fun x => { x with debt := x.debt.map (rescale k.range r) }) s)
    (setCtrl ctrl { k with range := r, lower := 0 } s)
  let s2 := if k.range < r then count (ctrlPage ctrl) 0xE40 s1 else s1
  if k.range = 2 ∨ r = 2 then whenAwake s2 settleScales else s2

/-- RANGE_READING, one reading at a stack, one of each rank at a DMC: a rise at once, a fall after two readings in succession. (DEDUCED: notes/assumptions/36.md) -/
def execRangeReading (ctrl : Nat) (readings : List Nat) (s : State) : Host.Outcome State Fault Refusal :=
  .next (whenPowered s (withPins (fun s =>
    if 24 ≤ ctrl ∨ readings.isEmpty ∨
        ((ctrlAt s ctrl).readAt ≠ 0 ∧ s.now + 1 < (ctrlAt s ctrl).readAt + 1000 * fld s (ctrlPage ctrl) 0x488 23 8) then s
    else
      let k := { ctrlAt s ctrl with readAt := s.now + 1 }
      let r := rangeOf ctrl readings
      let k1 := { k with tempC := if ctrl < 8 then readings.headD 0 % 256 else 0 }
      let s1 := setCtrl ctrl k1 s
      if k.range < r then applyRange ctrl r s1
      else if k.range = r then setCtrl ctrl { k1 with lower := 0 } s
      else if k.lower = 0 then setCtrl ctrl { k1 with lower := 1 } s
      else applyRange ctrl r s1)))

/-! Choosing the next request (R169 – R173) -/

/-- Older by acceptance (R170). -/
def olderReq (a b : DramReq) : Bool := decide (a.seq < b.seq)

def oldestReq (l : List DramReq) : Option DramReq :=
  l.foldl (fun o r => match o with
    | none => some r
    | some x => if olderReq r x then some r else o) none

/-- Requests to one block are executed in order of acceptance (R170). -/
def reqReady (l : List DramReq) (r : DramReq) : Bool :=
  !l.any (fun x => decide (x.crumb / 64 = r.crumb / 64) && olderReq x r)

def rowHit (c : Chan) (r : DramReq) : Bool := decide ((tget Bank.reset c.banks r.bank).row = some r.row)

/-- The oldest row hit, else the oldest request: classes 4 and 5 of R169. -/
def byRow (c : Chan) (l : List DramReq) : Option DramReq :=
  match oldestReq (l.filter (rowHit c)) with
  | some r => some r
  | none => oldestReq l

/-- The request that a channel serves next, classes 2 to 5 of R169 under the write buffer's rule (R171). -/
def nextReq (panic : Bool) (c : Chan) : Option DramReq :=
  let all := waitingReqs c
  let ready := (all.filter (reqReady all)).filter (fun r => !(panic && r.icing && !r.aged))
  let reads := ready.filter (fun r => !r.write)
  let writes := ready.filter (·.write)
  match (if panic then oldestReq (ready.filter (·.realTime)) else none) with
  | some r => some r
  | none => match oldestReq (ready.filter (·.aged)) with
    | some r => some r
    | none =>
      if c.draining && !writes.isEmpty || reads.isEmpty then byRow c writes else byRow c reads

/-- Serve a request at its bank, and close the row or leave it open (R173). -/
def serveReq (chan : Nat) (r : DramReq) (s : State) : State :=
  let c := chanAt s chan
  let b := tget Bank.reset c.banks r.bank
  let hit := rowHit c r
  let hits := hit :: b.hits.take 3
  let keep := decide (fld s (dramPage chan) 0x480 18 16 < hits.countP (fun h => h))
  let b1 : Bank := { row := if keep then some r.row else none, hits := hits }
  let wbuf := c.wbuf.filter (fun x => decide (x.id ≠ r.id))
  let c1 := { c with queue := c.queue.filter (fun x => decide (x.id ≠ r.id)), wbuf := wbuf,
                     banks := tput Bank.reset c.banks r.bank b1,
                     draining := c.draining && decide (fld s (dramPage chan) 0x480 39 32 < wbuf.length) }
  count (dramPage chan) (if hit then 0xE08 else 0xE10) (setChan chan c1 s)

/-- Accept a request: a read that finds its crumb in the write buffer is served from it (R170); a full write buffer
takes no write. (DEDUCED: notes/assumptions/36.md) -/
def acceptReq (chan : Nat) (r : DramReq) (s : State) : State :=
  let c := chanAt s chan
  let r := { r with time := s.now, seq := c.accepted, aged := false }
  let c := { c with accepted := c.accepted + 1, lastReq := s.now }
  if r.write then
    if 64 ≤ c.wbuf.length then s
    else
      let wbuf := c.wbuf ++ [r]
      setChan chan { c with wbuf := wbuf, draining := c.draining || decide (fld s (dramPage chan) 0x480 47 40 ≤ wbuf.length) } s
  else if c.wbuf.any (fun x => decide (x.crumb = r.crumb)) then setChan chan c s
  else setChan chan { c with queue := c.queue ++ [r] } s

/-- The rank that owes most, from rank 0. -/
def worstRank (c : Chan) : Nat := (c.debt.idxOf? (listMax c.debt)).getD 0

/-- CONTROLLER_ISSUE: the requests that arrived are accepted and the next command is picked. (DEDUCED: notes/assumptions/36.md) -/
def execControllerIssue (chan : Nat) (arrivals : List DramReq) (s : State) : Host.Outcome State Fault Refusal :=
  .next (whenPowered s (fun s =>
    if !(chanAt s chan).online then s
    else
      let s1 := arrivals.foldl (fun s r => acceptReq chan r s) (if arrivals.isEmpty then s else meetSelfRefresh chan s)
      let s2 := settleDeferred chan s1
      let c := chanAt s2 chan
      if c.sr = .inSr ∨ c.sr = .exiting then s2
      else if inCatchup s2 chan then issueRefresh chan (worstRank c) s2
      else match nextReq (panicApplies s2 chan) c with
        | some r => settleDeferred chan (serveReq chan r s2)
        | none => s2))

/-- Raise a waiting request to class 3. -/
def ageReq (id : Nat) (c : Chan) : Chan :=
  let f (r : DramReq) : DramReq := if r.id = id then { r with aged := true } else r
  { c with queue := c.queue.map f, wbuf := c.wbuf.map f }

/-- A waiting request may reach class 3: AGE_CAP_NS has passed since its acceptance (R172), and panic does not defer it (R203). -/
def ripe (s : State) (chan : Nat) (r : DramReq) : Bool :=
  !r.aged && decide (r.time + fld s (dramPage chan) 0x480 15 0 ≤ s.now) && !s.ice.deferred.contains (chan, r.id)

/-- AGE_PROMOTE: AGE_CAP_NS has passed since the request was accepted. -/
def execAgePromote (chan id : Nat) (s : State) : Host.Outcome State Fault Refusal :=
  .next (whenAwake s (fun s =>
    if (waitingReqs (chanAt s chan)).any (fun r => decide (r.id = id) && ripe s chan r) then
      settleDeferred chan (count (dramPage chan) 0xE18 (modChan chan (ageReq id) s))
    else s))

/-! Hash masks (R163 – R168) -/

/-- No slab holds a frame of the tier and no move targets it (R167). -/
def tierEmpty (s : State) (t : Tier) : Bool :=
  !s.ple.map.any (fun p => decide (p.2.tier = some t)) && !s.mge.moves.any (fun m => decide (m.target = t))

def lowestBit (m : Nat) : Option Nat := (List.range 48).find? (fun i => m.testBit i)

/-- A set of masks keeps R164; zero masks stand for outputs that the memory does not have (R166). -/
def masksOk (t2 : Bool) (absent : Nat → Bool) (mask : Nat → Nat) : Bool :=
  let sel := if t2 then 4 else 8
  let ns := (List.range (if t2 then 12 else 13)).filter (fun n => !absent n)
  let bases := ns.map (fun n => lowestBit (mask n))
  let selBases := (ns.filter (fun n => decide (n < sel))).map (fun n => lowestBit (mask n))
  bases.all (·.isSome) && decide (bases.Nodup) &&
    ns.all (fun n => (List.range 64).all (fun i =>
      !(mask n).testBit i || (decide (i < 48) && decide (if n < sel then 24 ≤ i else 6 ≤ i) &&
        (decide (lowestBit (mask n) = some i) || !bases.contains (some i) || (decide (sel ≤ n) && selBases.contains (some i))))))

/-- Put a mask in force. -/
def putMask (t2 : Bool) (n m : Nat) (s : State) : State := setReg (maskPage t2) (0x400 + 8 * n) (BitVec.ofNat 64 m) s

/-- Hash masks change only if no controller's floor falls below the guarantees admitted on it (R167, R23); the change is an
admission (R231). -/
def admitMasks (w p off : Nat) (s t : State) : State :=
  match ctrlIndices.find? (fun c => decide (floorOf t c < floorOf s c) && decide (floorOf t c < demandOf t c)) with
  | some c =>
    noteErr p kindRefusedValue .guaranteeUnavailable off w
      (refusedAdmission (noteRefusal .guaranteeUnavailable c (demandOf t c) (floorOf t c) s))
  | none => admitted t

/-- A write to one mask of instance 0. -/
def writeMask (w : Nat) (t2 : Bool) (n : Nat) (value : Word) (s : State) : State :=
  let p := maskPage t2
  let m := if outputAbsent s t2 n then 0 else value.toNat % 2 ^ 48
  let mask (k : Nat) : Nat := if k = n then m else hashMask s t2 k
  if !tierEmpty s (if t2 then .t2 else .t1) then noteErr p kindRefusedState .accessDenied (0x400 + 8 * n) w s
  else if !masksOk t2 (outputAbsent s t2) mask then noteErr p kindRefusedValue .accessDenied (0x400 + 8 * n) w s
  else admitMasks w p (0x400 + 8 * n) s (putMask t2 n m s)

/-- A write to HASH_PRESET of instance 0: every mask is reloaded from Table 07-2. (DEDUCED: notes/assumptions/20.md) -/
def writeHashPreset (w : Nat) (t2 : Bool) (preset : Nat) (s : State) : State :=
  let p := maskPage t2
  if !tierEmpty s (if t2 then .t2 else .t1) then noteErr p kindRefusedState .accessDenied 0x40 w s
  else admitMasks w p 0x40 s ((List.range (if t2 then 12 else 13)).foldl
    (fun s n => putMask t2 n (if outputAbsent s t2 n then 0 else presetMask t2 preset n) s)
    (setReg p 0x40 (setBits (reg s p 0x40) 2 0 preset) s))

/-- HASH_MASK_WRITE: a mask (expert), or HASH_PRESET at offset 0x040; other instances ignore both. -/
def execHashMaskWrite (w page off : Nat) (value : Word) (s : State) : Host.Outcome State Fault Refusal :=
  .next (
    let t2 := decide (Pg.dmc ≤ page) && decide (page < Pg.dmc + 16)
    let t1 := decide (Pg.smc ≤ page) && decide (page < Pg.smc + 8)
    let n := (off - 0x400) / 8
    let first := decide (page = Pg.smc) || decide (page = Pg.dmc)
    if !t1 && !t2 then s
    else if off = 0x40 then ownedWrite w page (fun s => if first then writeHashPreset w t2 (bits value 2 0) s else s) s
    else if off < 0x400 ∨ (off - 0x400) % 8 ≠ 0 ∨ (if t2 then 12 else 13) ≤ n then s
    else expertGate w page off (fun s => if first then writeMask w t2 n value s else s) s)

/-! Loss of a channel or stack (R24, R165, R197) -/

/-- Poison every block of a slab in its home F: one DEFERRED event per block to the owner. -/
def loseBlock (page slab hb b : Nat) (s : State) : State :=
  if (descAt s hb).state = .poisoned then s
  else
    let own := ownerOf s (mapAt s slab)
    raise page .poisoned .deferred 6 own (blockIdx slab b) 0 [ctxFn s own] true (spoil slab b hb .poisoned s)

def loseSlab (page slab : Nat) (t : Tier) (frame : Nat) (s : State) : State :=
  (List.range 4096).foldl (fun s b => loseBlock page slab (homeKey t frame b) b s) s

/-- Take channels out of service; `page` is the unit that is lost. (PRESUMED: notes/assumptions/39.md) -/
def loseChannels (page inst : Nat) (chans : List Nat) (s : State) : State :=
  let t : Tier := if chans.any (fun k => decide (k < 256)) then .t1 else .t2
  let there (f : Nat) : Bool := chans.contains (frameChan s t f)
  let s1 := chans.foldl (fun s k => modChan k (fun c => { c with online := false, queue := [], wbuf := [] }) s) s
  let hit := (s1.ple.map.filter (fun (p : Nat × MapEntry) => decide (p.2.tier = some t) && there p.2.frame)).map
    (fun p => (p.1, p.2))
  let s2 := hit.foldl (fun s (p : Nat × MapEntry) => if p.2.releasing then s else loseSlab page p.1 t p.2.frame s) s1
  let s3 := raise page .poisoned .contained 6 noCtx 0 inst pfs true s2
  let redo := s3.mge.moves.filter (fun m => decide (m.target = t) && (m.frame.map there).getD false)
  let s4 := redo.foldl (fun s m =>
    (askMove m.slab m.cls m.target m.toPool m.onWrite (releaseHeld m.slab (abandonMove m.slab s))).2) s3
  let s5 := hit.foldl (fun s (p : Nat × MapEntry) =>
    if p.2.releasing then s else (askMove p.1 2 t p.2.pool false s).2) s4
  settleScales (retireSlabs s5)

/-- CHANNEL_LOST: a stack channel, a DDR5 channel, or under key 512 + s the whole stack s. -/
def execChannelLost (chan : Nat) (s : State) : Host.Outcome State Fault Refusal :=
  .next (whenAwake s (fun s =>
    if 512 ≤ chan then
      let st := chan - 512
      let on := (chansOf st).filter (fun k => (chanAt s k).online)
      if 8 ≤ st ∨ on.isEmpty then s else loseChannels (Pg.smc + st) st on s
    else if !(chanAt s chan).online then s
    else if chan < 256 then loseChannels (Pg.sch + chan) chan [chan] s
    else loseChannels (Pg.dmc + (chan - 256)) (chan - 256) [chan] s))

end Sys2Proof.Machine
end

