-- ==== Sys2Proof/Machine/Power.lean ====
section
/-! DEFINITION. Sys2Proof/Machine/Power.lean: the bandwidth regulator, and pace, voltage, power and temperature (chapters
Reservations and Bandwidth Guarantees, Pace, Voltage and Power Envelope; rows BWR_WINDOW to CEILING_STEP). -/

namespace Sys2Proof.Machine

/-! The regulator (R241 – R244) -/

/-- Indices of Table 10-3. -/
def masters : List Nat := List.range 17

/-- Groups of Table 10-3: 0 SERVICE, 1 COMPUTE, 2 BACKGROUND, none for the safe-state sequencer. -/
def masterGroup (m : Nat) : Option Nat := if m < 10 then some 0 else if m = 10 then some 1 else if m < 16 then some 2 else none

def heldAtPort (m : Nat) : Bool := decide (m = 10) || decide (m = 12) || decide (m = 16)

/-- Demand of fabric grants whose device is reached by a port. (DEDUCED: notes/assumptions/45.md) -/
def portGrants (s : State) (fport c : Nat) : Nat :=
  listSum (s.grants.map (fun p => match p.2 with
    | some g => if g.stale ∨ routePort s g.remoteDev ≠ some fport then 0 else share s (grantBw g (ctrlTier c)) c
    | none => 0))

/-- The tier's icing is in catch-up. -/
def iceCatchup (s : State) (t : Tier) : Bool :=
  (match t with | .t1 => s.ice.p1 | .t2 => s.ice.p2 | .t3 => s.ice.p3).catchup

/-- Urgent collection uses the MGE's T3 guarantee: ahead of moves of classes 4 and 5, behind those of classes 1 to 3 (R143). (DEDUCED: notes/assumptions/45.md) -/
def gcTakes (s : State) : Bool :=
  (gcUrgent s 0 || gcUrgent s 1) && !s.mge.moves.any (fun m => decide (m.cls ≤ 3) && decide (m.phase ≠ .queued) && touchesT3 s m)

/-- Demand of a master on a controller. -/
def masterDemand (s : State) (m c : Nat) : Nat :=
  if m < 2 then serviceDemand s m c
  else if m < 10 then portGrants s (m - 2) c
  else if m = 10 then streamDemand s c
  else if m = 11 then (if gcTakes s && decide (c = 24) then 0 else mgeDemand s c)
  else if m = 12 then (if iceCatchup s (ctrlTier c) then iceDemand s c else 0)
  else if m = 15 then (if gcTakes s && decide (c = 24) then mgeDemand s c else 0)
  else 0

/-- Its guarantee: demand times its scale on the controller (R238); the sequencer is held to 1,000 MB/s (R234). (DEDUCED: notes/assumptions/45.md) -/
def masterGuarantee (s : State) (m c : Nat) : Nat :=
  if m = 16 then (if s.sss.state = .watch then 0 else 1000)
  else masterDemand s m c * (if heldAtPort m then (scaleOf s c).1 else (scaleOf s c).2) / 1000

/-- Weights of Table 10-4. (DEDUCED: notes/assumptions/45.md) -/
def splitWeight (split group : Nat) : Nat :=
  match split, group with
  | 0, 0 => 14 | 0, _ => 1
  | 1, 2 => 2 | 1, _ => 7
  | _, 1 => 14 | _, _ => 1

/-- The recipe that is armed or running was loaded in ELASTIC mode, which it keeps (Table 01-6). -/
def elasticRun (s : State) : Bool := (runRecipe s).any (fun x => x.2.img.elastic)

/-- The master takes part in the remainder: it has requests waiting; recipe streams only in ELASTIC, where data may be
fetched early. (DEDUCED: notes/assumptions/45.md) -/
def wantsRemainder (s : State) (waited : List Bool) (m : Nat) : Bool :=
  waited.getD m false && (masterGroup m).isSome && (decide (m ≠ 10) || elasticRun s)

/-- A master's part of the remainder (R243). (DEDUCED: notes/assumptions/45.md) -/
def remainderShare (s : State) (waited : List Bool) (rest m : Nat) : Nat :=
  match masterGroup m with
  | none => 0
  | some g =>
    if !wantsRemainder s waited m then 0
    else
      let inGroup (k : Nat) : Bool := wantsRemainder s waited k && decide (masterGroup k = some g)
      let live := (List.range 3).filter (fun x => masters.any (fun k => wantsRemainder s waited k && decide (masterGroup k = some x)))
      let total := listSum (live.map (splitWeight s.dev.profile.split))
      rest * splitWeight s.dev.profile.split g / (total * masters.countP inGroup)

def masterKey (c m : Nat) : Nat := 32 * c + m

def winAt (s : State) (c m : Nat) : MasterWin := tget MasterWin.reset s.bwr.wins (masterKey c m)

/-- WINDOW_NS. -/
def windowNs (s : State) : Nat := fld s Pg.bwr 0x400 15 0

/-- The next window of one master: its grant, throttle or bucket, and the bytes of the window that ended. -/
def masterWindow (t : Traffic) (rest : Nat) (s0 : State) (m : Nat) (s : State) : State :=
  let w := winAt s0 t.ctrl m
  let bytes := t.moved.getD m 0
  let grant := masterGuarantee s0 m t.ctrl + remainderShare s0 t.waited rest m
  let tokens := min (grant * 1024 / 1000) (w.tokens - bytes + grant * windowNs s0 / 1000)
  let isOver := decide (fld s0 Pg.bwr 0x400 23 16 < t.queuePct) && decide (w.grant * windowNs s0 / 1000 < bytes)
  let empty := decide (w.tokens ≤ bytes) && t.waited.getD m false
  let stop := if heldAtPort m then empty else isOver
  let w1 : MasterWin := { throttled := stop, grant := grant, tokens := if heldAtPort m then tokens else 0, last16 := bytes :: w.last16.take 15 }
  let s1 := { s with bwr := { s.bwr with wins := tput MasterWin.reset s.bwr.wins (masterKey t.ctrl m) w1 } }
  if !stop then s1 else if heldAtPort m then count Pg.bwr 0xE10 s1 else if w.throttled then s1 else count Pg.bwr 0xE08 s1

/-- BWR_WINDOW: a window of an admission controller begins. -/
def execBwrWindow (traffic : Traffic) (s : State) : Host.Outcome State Fault Refusal :=
  .next (whenAwake s (fun s =>
    if 25 ≤ traffic.ctrl then s
    else
      let sure := listSum ((masters.filter (fun m => traffic.waited.getD m false)).map (fun m => masterGuarantee s m traffic.ctrl))
      let rest := listSum traffic.moved * 1000 / windowNs s - sure
      masters.foldl (fun t m => masterWindow traffic rest s m t) s))

/-! Pace (R248, R249, R259, R260) -/

/-- The floor target, rounded up (R249). (DEDUCED: notes/assumptions/44.md) -/
def floorTarget (s : State) : Nat := ceilDiv (s.ppm.floorMbeat * (1000 + fld s Pg.ppm 0x400 24 17)) 1000

/-- R260 is in force: IDLE_DROP set, and no recipe loaded or loading. -/
def idleDropped (s : State) : Bool :=
  flag s Pg.ppm 0x400 63 && s.rcp.loads.isEmpty && s.rcp.recipes.all (fun p => p.2.isNone)

/-- Loads that waited for the floor target complete, and the ARMs that waited for them are answered (R260, R303, R307). -/
def settleLoads (s : State) : State :=
  if s.ppm.paceMin < floorTarget s then s
  else
    let s1 := s.rcp.loads.foldl (fun s l => complete l.r Opc.loadRecipe .ok l.handle s) { s with rcp := { s.rcp with loads := [] } }
    s.rcp.arms.foldl (fun s a => answerArm a s) { s1 with rcp := { s1.rcp with arms := [] } }

/-- PACE_SAMPLE. (DESIGN CHOICE: notes/assumptions/7.md) -/
def execPaceSample (r : PaceReading) (s : State) : Host.Outcome State Fault Refusal :=
  .next (whenPowered s (fun s =>
    let p := s.ppm
    let crossed := decide (p.paceMin < p.floorMbeat) != decide (r.least % 65536 < p.floorMbeat)
    whenAwake { s with ppm := { p with paceMin := r.least % 65536, minSensor := r.sensor % 64, paceMean := r.mean % 65536,
                                         paceSince := if crossed then s.now else p.paceSince } } settleLoads))

/-- PACE_SHORTFALL: pace has stayed below, or at or above, the floor for 10 µs. -/
def execPaceShortfall (s : State) : Host.Outcome State Fault Refusal :=
  .next (whenAwake s (fun s =>
    let low := decide (s.ppm.paceMin < s.ppm.floorMbeat)
    if (low && (s.ppm.shortfall || idleDropped s)) || (!low && !s.ppm.shortfall) || decide (s.now < s.ppm.paceSince + 10000) then s
    else
      raise Pg.ppm .paceShortfall .corrected 0 noCtx 0 (place (boolNat low) 16 1 + place s.ppm.paceMin 0 16) pfs false
        { s with ppm := { s.ppm with shortfall := low } }))

/-! Voltage (R250 – R253) -/

/-- Watts of an envelope code. -/
def envelopeWatts (e : Nat) : Nat := if e = 0 then 1200 else if e = 1 then 1500 else 1900

/-- The request that R252 chooses, and whether the floor forced a raise. (DEDUCED: notes/assumptions/44.md) -/
def nextVolt (s : State) : Nat × Bool :=
  let p := s.ppm
  let step := fld s Pg.ppm 0x400 16 12
  let vmin := fld s Pg.ppm 0x400 51 41
  let vmax := fld s Pg.ppm 0x400 62 52
  let ft := if idleDropped s then 700 else floorTarget s
  let margin := fld s Pg.ppm 0x400 40 33
  let target := if fld s Pg.ppm 0x400 11 0 = 0 then ft else fld s Pg.ppm 0x400 11 0
  let env := envelopeWatts p.envelope
  let v := p.vreq
  if fld s Pg.ppm 0x408 31 24 ≤ p.tj then (if p.ceil < v then v - step else v, false)
  else if p.paceMin < ft then (min (v + step) vmax, decide (v < vmax))
  else if (env < p.watts ∨ p.ceil < v ∨ target + margin < p.paceMin) ∧ ft + margin ≤ p.paceMin then (max (v - step) vmin, false)
  else if p.paceMin < target ∧ p.watts ≤ env * (1000 - fld s Pg.ppm 0x400 32 25) / 1000 ∧ v + step ≤ p.ceil then
    (min (v + step) vmax, false)
  else (v, false)

/-- VOLTAGE_STEP: each request lies within VMIN_MV and VMAX_MV, and comes at least STEP_US after the one before (R250). -/
def execVoltageStep (s : State) : Host.Outcome State Fault Refusal :=
  .next (whenPowered s (fun s =>
    if s.ppm.avsFault || decide (s.now < s.ppm.lastStep + 1000 * fld s Pg.ppm 0x408 6 0) then s
    else
      let (v, forced) := nextVolt s
      let v1 := max (fld s Pg.ppm 0x400 51 41) (min (fld s Pg.ppm 0x400 62 52) v)
      let s1 := emit (.voltage v1) (count Pg.ppm 0xE08 { s with ppm := { s.ppm with vreq := v1, lastStep := s.now } })
      if forced then count Pg.ppm 0xE10 s1 else s1))

/-! Power (R251, R254 – R256) -/

/-- Mean of P over the last 10 ms. -/
def powerMean (p : Ppm) : Nat := if p.window.isEmpty then 0 else listSum p.window / p.window.length

/-- An AVSBus fault: three transactions unanswered, or more than 1 ms off the request. (DEDUCED: notes/assumptions/44.md) -/
def settleAvs (s : State) : State :=
  if s.ppm.avsFault ∨ (s.ppm.unanswered < 3 ∧ s.ppm.offRun < 102) then s
  else whenAwake { s with ppm := { s.ppm with avsFault := true } }
    (raise Pg.ppm .envelopeExceeded .contained 0 noCtx 0 (place 2 16 2 + place s.ppm.senseMv 0 16) pfs false)

/-- Envelope exceeded begins while R253 holds the voltage, and ends when the mean is within the envelope (R256). (DEDUCED: notes/assumptions/44.md) -/
def settleExceeded (s : State) : State :=
  let p := s.ppm
  let isOver := decide (envelopeWatts p.envelope < powerMean p)
  let held := decide (p.paceMin < floorTarget s + fld s Pg.ppm 0x400 40 33)
  let say (e : Bool) (s : State) : State :=
    whenAwake { s with ppm := { s.ppm with envExceeded := e } }
      (raise Pg.ppm .envelopeExceeded .corrected 0 noCtx 0 (place (boolNat (!e)) 16 2 + place (powerMean s.ppm) 0 16) pfs false)
  if isOver && held && !p.envExceeded then say true s
  else if !isOver && p.envExceeded then say false s
  else s

/-- The change of envelope is APPLIED at the first sample after its event at which P ≤ env, or after 10 ms (R255). (DEDUCED: notes/assumptions/44.md) -/
def settleEnvelope (s : State) : State :=
  let p := s.ppm
  if !p.envFired then s
  else if p.watts ≤ envelopeWatts p.envelope ∨ 1000 ≤ p.envSamples then
    (match p.envCmp with | some n => freeClaim n | none => fun s => s)
      { s with ppm := { p with envFired := false, envCmp := none, envSamples := 0 } }
  else { s with ppm := { p with envSamples := p.envSamples + 1 } }

/-- POWER_SAMPLE. (DESIGN CHOICE: notes/assumptions/7.md) -/
def execPowerSample (r : PowerReading) (s : State) : Host.Outcome State Fault Refusal :=
  .next (whenPowered s (fun s =>
    if !r.answered then settleAvs { s with ppm := { s.ppm with unanswered := s.ppm.unanswered + 1 } }
    else
      let p := s.ppm
      let off := decide (p.vreq + 15 < r.senseMv) || decide (r.senseMv + 15 < p.vreq)
      whenAwake (settleExceeded (settleAvs { s with ppm := { p with
        senseMv := r.senseMv, watts := r.watts, window := r.watts :: p.window.take 999, unanswered := 0,
        offRun := if off then p.offRun + 1 else 0 } })) settleEnvelope))

/-! Temperature (R257, R258) -/

/-- An action with its hysteresis of 3 °C. (DESIGN CHOICE: notes/assumptions/43.md, DEDUCED: notes/assumptions/44.md) -/
def thermalAction (on : Bool) (tj top : Nat) : Bool := if on then decide (top < tj + 3) else decide (top ≤ tj)

/-- THERMAL_CHECK. -/
def execThermalCheck (tj sensor stackMax : Nat) (s : State) : Host.Outcome State Fault Refusal :=
  .next (whenPowered s (withPins (fun s =>
    let p := s.ppm
    let warn := thermalAction p.warn tj (fld s Pg.ppm 0x408 23 16)
    let hot := thermalAction p.hot tj 105
    let stop := thermalAction p.stop tj (fld s Pg.ppm 0x408 31 24)
    let ceil := if hot && !p.hot then Config.floorVoltage (floorTarget s) tj
      else if !warn && !hot && (p.warn || p.hot) then 780 else p.ceil
    let s1 := { s with ppm := { p with warn := warn, hot := hot, stop := stop, ceil := ceil, tj := tj % 256,
                                       sensor := sensor % 256, stackMax := stackMax % 256,
                                       lastCeil := if warn && !p.warn then s.now else p.lastCeil } }
    if warn && !p.warn then
      whenAwake s1 (raise Pg.ppm .thermalWarn .corrected 0 noCtx 0 (place sensor 8 8 + place tj 0 8) pfs false)
    else s1)))

/-- CEILING_STEP: each millisecond while WARN is in force, never below the voltage that R253 holds. (DEDUCED: notes/assumptions/44.md) -/
def execCeilingStep (s : State) : Host.Outcome State Fault Refusal :=
  .next (whenPowered s (fun s =>
    let p := s.ppm
    if !p.warn || decide (s.now < p.lastCeil + 1000000) then s
    else { s with ppm := { p with lastCeil := s.now, ceil := min p.ceil (max (p.ceil - 10) (Config.floorVoltage (floorTarget s) p.tj)) } }))

end Sys2Proof.Machine
end

