-- ==== Sys2Proof/Machine/Measure.lean ====
section
/-! DEFINITION. Sys2Proof/Machine/Measure.lean: the measurement blocks that SPDM reports (R413, Table 17-5). -/

namespace Sys2Proof.Machine

/-- Codes of LCC_STATE.STATE (Table 17-1). -/
def lifeCode : Life → Nat
  | .blank => 0 | .manufactured => 1 | .provisioned => 2 | .field => 3 | .returned => 4 | .scrapped => 5

/-- DEV_OPERATING_PROFILE as a word. -/
def profileWord (p : Profile) : Nat :=
  place p.split 0 2 + place p.determinism 4 1 + place p.compression 8 2 + place p.envelope 12 2 + place p.placement 16 2 +
    place p.flashUse 20 2

/-- The slot from which the firmware in service was booted. -/
def activeSlot (s : State) : FwSlot := if s.ccx.activeB then s.ccx.slotB else s.ccx.slotA

/-- A digest or key whose value the spec does not give, for what is measured and its version. -/
def openDigest (index version n : Nat) : List Byte := (List.range n).map (Config.measurementByte (index + 16 * version))

/-- Measurement block `index`; block 9 belongs to the TDI of a VF and lists the key slots bound to its contexts. (DESIGN CHOICE: notes/assumptions/8.md) -/
def measurement (s : State) (fn index : Nat) : List Byte :=
  match index with
  | 1 => openDigest 1 0 48
  | 2 | 3 => openDigest index (activeSlot s).version 48
  | 4 => leBytes 4 (lifeCode s.otp.life) ++ leBytes 4 s.otp.transitions ++ leBytes 4 s.otp.minSvn ++ leBytes 4 s.otp.trustMin
  | 5 => Config.sha384 s.sec.trust
  | 6 => match s.sec.grant with
    | some g => leBytes 8 (1 + 2 * g.port + 4 * g.signer) ++ leBytes 8 g.ends
    | none => leBytes 16 0
  | 7 => leBytes 4 (profileWord s.dev.profile)
  | 8 => openDigest 8 s.sec.importKey 97
  | 9 =>
    if isPf fn then []
    else (s.ple.ctxs.filter (fun e => decide (e.2.fn = fn) && decide (e.2.key ≠ 0xFFFF))).flatMap (fun e =>
      leBytes 2 e.2.key ++ [match (tget KeySlot.reset s.sec.keys e.2.key).state with
        | .free => 0 | .empty => 1 | .loaded => 2 | .bound => 3])
  | _ => []

/-- All blocks in order, with the nonce of the request. (PRESUMED: notes/assumptions/66.md) -/
def measurements (s : State) (fn nonce : Nat) : List Byte :=
  leBytes 32 nonce ++ (List.range 10).flatMap (measurement s fn)

end Sys2Proof.Machine
end

