-- ==== Sys2Proof/Machine/Tmx.lean ====
section
/-! DEFINITION. Sys2Proof/Machine/Tmx.lean: shared claims, test multiplexer, trace buffer and test access port (chapter Claims,
Test Multiplexer and Debug; rows CLAIM_TAKE to TAP_RESET). -/

namespace Sys2Proof.Machine

def setTmx (v : Tmx) (s : State) : State := { s with tmx := v }

/-- Lifecycle states whose test access is unlimited (Table 17-6). (DESIGN CHOICE: notes/assumptions/76.md) -/
def openLife (s : State) : Bool :=
  match s.otp.life with
  | .blank | .manufactured | .returned => true
  | _ => false

/-- A debug grant is in force; it is honoured in FIELD only (R415). -/
def grantInForce (s : State) : Bool := s.sec.grant.isSome && decide (s.otp.life = .field)

/-! Releases (R434) -/

/-- The trigger comparator of a capture is let go (Table 19-1). -/
def freeTrigger (s : State) : State :=
  match s.tmx.trigCmp with
  | some n => setTmx { (freeClaim n s).tmx with trigCmp := none } (freeClaim n s)
  | none => s

/-- The trace buffer is zeroed and its capture stops. -/
def clearTrace (s : State) : State :=
  let t := freeTrigger s
  setTmx { t.tmx with traceState := .idle, wrapped := false, records := [], readPos := 0 } t

/-- A capture ends. -/
def endCapture (s : State) : State :=
  let t := freeTrigger s
  setTmx { t.tmx with traceState := .done } t

/-- Release a shared resource; a capture in progress stops. -/
def releaseClaim (res : Nat) (s : State) : State :=
  let t := freeClaim res s
  if res = resTrace then clearTrace t
  else if t.tmx.trigCmp = some res then
    setTmx { t.tmx with trigCmp := none, traceState := if t.tmx.traceState = .armed then .idle else t.tmx.traceState } t
  else t

/-- Release every shared resource whose claim satisfies `p`. -/
def releaseClaims (p : ClaimRec → Bool) (s : State) : State :=
  (List.range 19).foldl (fun s n => if p (claimOf s n) then releaseClaim n s else s) s

/-- A debug grant ends: every claim taken under it is released (R415). -/
def endGrant (s : State) : State :=
  releaseClaims (fun c => decide (c.owner = .debug)) { s with sec := { s.sec with grant := none } }

/-! Who writes the page (R442) -/

/-- A write of the TMX page; `body` receives the owner codes that the writer may use. -/
def tmxWrite (w : Writer) (body : State → State) (s : State) : State :=
  match w with
  | .fn n => ownedWrite n Pg.tmx body s
  | .tap => match s.tmx.tapIr, s.sss.state with
    | .tmxAccess _, .watch => body s
    | _, _ => s

/-- Function field of LAST_ERR_INFO for a writer. -/
def tmxFn : Writer → Nat
  | .fn n => n
  | .tap => 0

/-- Owner code of TMX_CLAIM_CMD. -/
def ownerOfCode (n : Nat) : Option Owner :=
  if n = 2 then some .pf else if n = 3 then some .debug else if n = 4 then some .test else none

/-- The writer may use the owner code: 2 or 3 from a PF, the code of TMX_ACCESS from the TAP. -/
def ownerAllowed (s : State) (w : Writer) (o : Owner) : Bool :=
  match w with
  | .fn _ => decide (o = .pf) || decide (o = .debug)
  | .tap => decide (o ≠ .pf) && decide (s.tmx.tapOwner = o)

def claimResult (res : Nat) (st : Status) (s : State) : State :=
  setTmx { s.tmx with resultStatus := st.code, resultResource := res % 32 } s

/-- Lifecycle limits on a claim (R435, R442). (DESIGN CHOICE: notes/assumptions/71.md) -/
def claimLimited (s : State) (w : Writer) (o : Owner) (res : Nat) : Bool :=
  (decide (o = .debug) && decide (w ≠ .tap) && !grantInForce s) ||
    (decide (res = resPins) && decide (o ≠ .pf) && (decide (s.otp.life = .provisioned) || decide (s.otp.life = .scrapped))) ||
    (decide (res = resPins) && decide (o = .debug) && decide (s.otp.life = .field) && !grantInForce s) ||
    (decide (o = .test) && !openLife s) || (decide (res = resTrace) && decide (s.otp.life = .scrapped))

/-- The user of a resource claimed by command (Table 19-1). -/
def userOf (res : Nat) (o : Owner) : User := if res = resTrace then .traceCapture else if o = .pf then .gpio else .tmux

/-- CLAIM_TAKE. (DESIGN CHOICE: notes/assumptions/71.md) -/
def execClaimTake (w : Writer) (owner resource : Nat) (s : State) : Host.Outcome State Fault Refusal :=
  .next (tmxWrite w (fun s =>
    match ownerOfCode owner with
    | none => claimResult resource .accessDenied s
    | some o =>
      if !ownerAllowed s w o || !(decide (resource = resTrace) || decide (resource = resPins)) then claimResult resource .accessDenied s
      else if claimLimited s w o resource then claimResult resource .claimDenied (denyClaim s)
      else
        let c : ClaimRec := { owner := o, port := fnPort (tmxFn w), user := userOf resource o, ctx := 0, tap := decide (w = .tap) }
        match takeClaim resource c s with
        | some t => claimResult resource .ok t
        | none => claimResult resource .claimDenied (denyClaim s)) s)

/-- The writer holds the claim of a resource. -/
def writerHolds (s : State) (w : Writer) (res : Nat) : Bool :=
  let c := claimOf s res
  match w with
  | .fn n => !c.tap && (decide (c.owner = .pf) || decide (c.owner = .debug)) && decide (c.port = fnPort n)
  | .tap => c.tap

/-- CLAIM_RELEASE. (DESIGN CHOICE: notes/assumptions/71.md) -/
def execClaimRelease (w : Writer) (owner resource : Nat) (s : State) : Host.Outcome State Fault Refusal :=
  .next (tmxWrite w (fun s =>
    if resource < 19 && decide (ownerOfCode owner = some (claimOf s resource).owner) && writerHolds s w resource then
      claimResult resource .ok (releaseClaim resource s)
    else claimResult resource .accessDenied s) s)

/-! The multiplexer (R436, R437) -/

/-- Classes of Table 19-3. -/
inductive MuxClass where
  | none_ | pace | handshake | internal
  deriving DecidableEq, Repr

/-- The class of a selection that Table 19-3 lists. -/
def muxClass (sel arg : Nat) : Option MuxClass :=
  match sel with
  | 0 => some .none_
  | 1 => if arg < 64 then some .pace else none
  | 2 => some .pace
  | 3 => if arg < 100 then some .handshake else none
  | 4 => if arg < 8 then some .handshake else none
  | 5 => if arg < 24 then some .internal else none
  | 6 => some .internal
  | 7 => some .internal
  | _ => none

/-- The lifecycle state allows a class (Table 17-6). -/
def muxAllowed (s : State) (c : MuxClass) : Bool :=
  match c with
  | .none_ => true
  | .internal => openLife s
  | _ => openLife s || grantInForce s

/-- A write that only the holder of a claim may make; another is ignored and counted. -/
def holderWrite (w : Writer) (res : Nat) (body : State → State) (s : State) : State :=
  tmxWrite w (fun s => if writerHolds s w res then body s else ignoreWrite Pg.tmx s) s

/-- MUX_SEL_WRITE. -/
def execMuxSelWrite (w : Writer) (value : Word) (s : State) : Host.Outcome State Fault Refusal :=
  .next (holderWrite w resPins (fun s =>
    let sel := bits value 7 0
    let arg := bits value 15 8
    match muxClass sel arg with
    | some c =>
      if muxAllowed s c then setTmx { s.tmx with muxSel := sel, muxArg := arg } s
      else noteErr Pg.tmx kindRefusedValue .accessDenied 0x50 (tmxFn w) s
    | none => noteErr Pg.tmx kindRefusedValue .accessDenied 0x50 (tmxFn w) s) s)

/-! The trace buffer (R440) -/

/-- Records that the buffer holds. -/
def traceSize : Nat := 32768

/-- Keep a record of a capture in progress. (DESIGN CHOICE: notes/assumptions/71.md) -/
def traceStore (b : List Byte) (s : State) : State :=
  let t := s.tmx
  if t.traceState ≠ .capturing then s
  else if t.records.length < traceSize then
    let s1 := count Pg.tmx 0xE20 (setTmx { t with records := t.records ++ [b] } s)
    if t.records.length + 1 = traceSize ∧ !t.traceWrap then endCapture s1 else s1
  else if t.traceWrap then
    count Pg.tmx 0xE20 (setTmx { t with records := t.records.drop 1 ++ [b], wrapped := true, readPos := 0 } s)
  else count Pg.tmx 0xE28 s

/-- An event record (Table 15-11) with a phase bit. -/
def evtBytes (e : Evt) (phase : Bool) : List Byte :=
  leBytes 2 e.code.code ++ leBytes 1 (sevBit e.sev + 128 * boolNat phase) ++ leBytes 1 e.cause ++ leBytes 4 e.ctx ++
    leBytes 8 e.block ++ leBytes 8 e.time ++ leBytes 7 e.detail ++
    leBytes 1 (match pageOf e.page with | some (t, _) => t.code | none => 0)

/-- Start a capture. -/
def startCapture (s : State) : State :=
  setTmx { s.tmx with traceState := .capturing, records := [], wrapped := false, readPos := 0 } s

/-- Claim a comparator for the trigger, within R433. (DESIGN CHOICE: notes/assumptions/71.md) -/
def armTrigger (w : Writer) (s : State) : State :=
  match freeComparator s with
  | some n =>
    if 12 ≤ debugComparators s then noteErr Pg.tmx kindRefusedState .claimDenied 0x58 (tmxFn w) (denyClaim s)
    else
      let c : ClaimRec := { claimOf s resTrace with user := .traceTrigger }
      match takeClaim n c s with
      | some t => setTmx { t.tmx with trigCmp := some n, traceState := .armed } t
      | none => s
  | none => noteErr Pg.tmx kindRefusedState .claimDenied 0x58 (tmxFn w) (denyClaim s)

/-- A write of TMX_TRACE_CTRL by the holder of the trace buffer. -/
def traceCtrl (w : Writer) (value : Word) (s : State) : State :=
  let mode := bits value 29 28
  let full := decide (mode = 1)
  if 2 ≤ mode then noteErr Pg.tmx kindRefusedValue .accessDenied 0x58 (tmxFn w) s
  else if full && (!openLife s || decide ((claimOf s resTrace).owner = .pf)) then
    noteErr Pg.tmx kindRefusedState .claimDenied 0x58 (tmxFn w) s
  else
    let s1 := setTmx { s.tmx with traceMode := mode, traceWrap := bitOf value 27 } s
    if bitOf value 30 then
      match s1.tmx.traceState with
      | .capturing | .armed => endCapture s1
      | _ => s1
    else if bitOf value 31 then startCapture s1
    else if bitOf value 23 then (if s1.tmx.trigCmp.isSome then s1 else armTrigger w s1)
    else if s1.tmx.traceState = .armed then setTmx { (freeTrigger s1).tmx with traceState := .idle } (freeTrigger s1)
    else s1

/-- TRACE_START: TMX_TRACE_CTRL written with START = 1. -/
def execTraceStart (w : Writer) (value : Word) (s : State) : Host.Outcome State Fault Refusal :=
  .next (holderWrite w resTrace (traceCtrl w (setBits (setBits value 31 31 1) 30 30 0)) s)

/-- TRACE_STOP: TMX_TRACE_CTRL written with STOP = 1. -/
def execTraceStop (w : Writer) (value : Word) (s : State) : Host.Outcome State Fault Refusal :=
  .next (holderWrite w resTrace (traceCtrl w (setBits value 30 30 1)) s)

/-- The next 8 bytes of the trace buffer; reads past the last record return zero. -/
def traceRead (s : State) : Nat × State :=
  match s.tmx.records with
  | [] => (0, s)
  | b :: rest =>
    let v := leNat ((b.drop (8 * s.tmx.readPos)).take 8)
    if s.tmx.readPos < 3 then (v, setTmx { s.tmx with readPos := s.tmx.readPos + 1 } s)
    else (v, setTmx { s.tmx with readPos := 0, records := rest } s)

/-- TRACE_DATA_READ: any reader of the page consumes the records. (DESIGN CHOICE: notes/assumptions/21.md) -/
def execTraceDataRead (w : Writer) (s : State) : Host.Outcome State Fault Refusal :=
  let go (s : State) : State := emit (.readData Pg.tmx 0x68 (traceRead s).1) (traceRead s).2
  .next (match w with
    | .fn n => if reaches s n Pg.tmx then go (dropHalf n Pg.tmx s) else s
    | .tap => match s.tmx.tapIr, s.sss.state with
      | .tmxAccess _, .watch => go s
      | _, _ => s)

/-! The test access port (R438, R439) -/

/-- Instructions of R439. -/
def testInstr : JtagInstr → Bool
  | .extest | .clamp | .highz | .extestPulse | .extestTrain => true
  | _ => false

/-- Memory or a fabric port is in use. -/
def inUse (s : State) : Bool :=
  s.hiu.p0.memActive || s.hiu.p1.memActive || (List.range 8).any (fun p => fportUp s p)

/-- IDCODE: version 0x2, part 0x7200, the manufacturer's code. -/
def idcode (manufacturer : Nat) : Nat := 0x27200001 + 2 * (manufacturer % 2048)

/-- JTAG_INSTRUCTION. -/
def execJtagInstruction (i : JtagInstr) (s : State) : Host.Outcome State Fault Refusal :=
  .next (
    if testInstr i then
      if inUse s then count Pg.tmx 0xE18 (setTmx { s.tmx with tapIr := .bypass, tapOwner := .free } s)
      else setTmx { s.tmx with tapIr := i, tapOwner := .free, testEntered := true } s
    else match i with
      | .tmxAccess o =>
        let own : Owner := if o = 3 then .debug else if o = 4 then .test else .free
        setTmx { s.tmx with tapIr := if own = .free then .bypass else i, tapOwner := own } s
      | .idcode => emit (.tdo (idcode (Config.unstated 0))) (setTmx { s.tmx with tapIr := i, tapOwner := .free } s)
      | _ => setTmx { s.tmx with tapIr := i, tapOwner := .free } s)

/-- TAP_RESET: claims taken through JTAG are released; after a test instruction a cold reset is due. (DESIGN CHOICE: notes/assumptions/71.md) -/
def execTapReset (s : State) : Host.Outcome State Fault Refusal :=
  let t := releaseClaims (fun c => c.tap) s
  .next (setTmx { t.tmx with tapIr := .idcode, tapOwner := .free, resetDue := t.tmx.resetDue || t.tmx.testEntered,
                             testEntered := false } t)

end Sys2Proof.Machine
end

