-- ==== Sys2Proof/Machine/ProofPass.lean ====
section
/-! DEFINITION. Sys2Proof/Machine/ProofPass.lean: the proof pass, COMPRESS_IN and RECODE, and the retirement of tables (chapter
Proof Pass and Code Tables; rows COMPRESS_IN to BG_RECODE_WALK). -/

namespace Sys2Proof.Machine

/-! Building a table (R89, R90) -/

/-- A node of package-merge: its weight, and one entry per item counted. -/
structure PkgNode where
  weight : Nat
  syms : List Nat
  deriving DecidableEq, Repr

/-- Items by ascending weight, then by descending index. -/
def itemBefore (a b : Nat × Nat) : Bool := decide (a.2 < b.2) || (decide (a.2 = b.2) && decide (b.1 < a.1))

def insertItem (x : Nat × Nat) : List (Nat × Nat) → List (Nat × Nat)
  | [] => [x]
  | y :: l => if itemBefore x y then x :: y :: l else y :: insertItem x l

/-- Pairs of neighbours; a last odd node is dropped. -/
def packages : List PkgNode → List PkgNode
  | a :: b :: l => { weight := a.weight + b.weight, syms := a.syms ++ b.syms } :: packages l
  | _ => []

/-- Merge by weight, an item before a package of equal weight; `n` is at least the two lengths together. -/
def mergeNodes : Nat → List PkgNode → List PkgNode → List PkgNode
  | 0, _, _ => []
  | _, [], ps => ps
  | _, is, [] => is
  | n + 1, i :: is, p :: ps =>
    if i.weight ≤ p.weight then i :: mergeNodes n is (p :: ps) else p :: mergeNodes n (i :: is) ps

/-- The list after `n` more levels. -/
def packageLevels (items : List PkgNode) : Nat → List PkgNode → List PkgNode
  | 0, l => l
  | n + 1, l => packageLevels items n (mergeNodes (items.length + l.length) items (packages l))

/-- Code lengths of the items: symbol and length. -/
def packageMerge (items : List (Nat × Nat)) : List (Nat × Nat) :=
  let nodes := items.map (fun x => ({ weight := x.2, syms := [x.1] } : PkgNode))
  let chosen := ((packageLevels nodes 11 nodes).take (2 * items.length - 2)).flatMap (·.syms)
  items.map (fun x => (x.1, chosen.count x.1))

/-- Pack code lengths of symbols 0 to 255, two to a byte. -/
def packLens (len : Nat → Nat) : List Byte :=
  (List.range 128).map (fun i => BitVec.ofNat 8 (len (2 * i) + 16 * len (2 * i + 1)))

/-- The table that a histogram of `N` symbols builds for a format. -/
def buildTable (format : Nat) (hist : List Nat) : List Byte :=
  let n := listSum hist
  let items := ((List.range hist.length).zip hist).filter (fun x => decide (0 < x.2))
  let lens := packageMerge ((items ++ [(256, max 1 (ceilDiv n 4096))]).foldl (fun l x => insertItem x l) [])
  let len (k : Nat) := (lens.lookup k).getD 0
  let body := packLens len ++ [BitVec.ofNat 8 (len 256 + 16 * format), 0]
  body ++ leBytes 2 (crc16 body)

/-! The queue of passes (R92, R93) -/

def setPpu (p : Ppu) (s : State) : State := { s with ppu := p }

def queuedPasses (s : State) : Nat := s.ppu.passes.countP (fun p => decide (p.phase = .queued))

/-- The pass that runs. -/
def runningPass (s : State) : Option Pass := s.ppu.passes.find? (fun p => decide (p.phase ≠ .queued))

/-- Passes enter the queue as entries free. -/
def fillQueue (s : State) : State :=
  let n := 256 - queuedPasses s
  setPpu { s.ppu with passes := s.ppu.passes ++ s.ppu.waiting.take n, waiting := s.ppu.waiting.drop n } s

/-- The claim of the scan buffer ends with the last pass. -/
def settleScan (s : State) : State :=
  if s.ppu.passes.isEmpty && s.ppu.waiting.isEmpty && decide ((claimOf s resScan).user = .ppu) then freeClaim resScan s else s

/-- Drop the pass that runs. -/
def endPass (s : State) : State :=
  settleScan (fillQueue (setPpu { s.ppu with passes := s.ppu.passes.filter (fun p => decide (p.phase = .queued)) } s))

/-- Change the pass that runs. -/
def modPass (f : Pass → Pass) (s : State) : State :=
  setPpu { s.ppu with passes := s.ppu.passes.map (fun p => if p.phase = .queued then p else f p) } s

def ofCmd (r : RingCmd) (op : Nat) (p : Pass) : Bool := decide (p.cmd = some (r, op))

/-- Complete a command that waited for passes; what is left of its passes goes. -/
def endPassCmd (r : RingCmd) (op : Nat) (st : Status) (s : State) : State :=
  match s.ppu.cmds.find? (fun c => decide (c.r = r) && decide (c.op = op)) with
  | none => s
  | some c =>
    let p := s.ppu
    complete r op st c.result (settleScan (fillQueue (setPpu { p with
      passes := p.passes.filter (fun x => !ofCmd r op x), waiting := p.waiting.filter (fun x => !ofCmd r op x),
      cmds := p.cmds.filter (fun x => !(decide (x.r = r) && decide (x.op = op))) } s)))

/-- A pass of a command has ended: the command completes with its last pass. -/
def passDone (cmd : Option (RingCmd × Nat)) (s : State) : State :=
  match cmd with
  | none => s
  | some (r, op) =>
    match s.ppu.cmds.find? (fun c => decide (c.r = r) && decide (c.op = op)) with
    | none => s
    | some c =>
      if c.left ≤ 1 then endPassCmd r op .ok s
      else setPpu { s.ppu with cmds := s.ppu.cmds.map (fun x =>
        if x.r = r ∧ x.op = op then { x with left := x.left - 1 } else x) } s

/-- Let go of the table that a pass holds: a table being built returns to FREE. -/
def dropPassTable (p : Pass) (s : State) : State :=
  match p.table with
  | none => s
  | some id => if (tableAt s id).state = .building then count Pg.ppu 0xE18 (setTable id TableEnt.free s) else unpinTable id s

/-- Remove a context's queued passes and abandon its running pass (R92). COMPRESS_IN ends with ACCESS_DENIED, RECODE
goes on without them. (DEDUCED: notes/assumptions/27.md) -/
def dropPasses (ctx : Nat) (s : State) : State :=
  let mine := s.ppu.passes ++ s.ppu.waiting
  let gone := mine.filter (fun p => decide (p.ctx = ctx))
  let s1 := gone.foldl (fun s p => dropPassTable p s) (setPpu { s.ppu with
    passes := s.ppu.passes.filter (fun p => decide (p.ctx ≠ ctx)),
    waiting := s.ppu.waiting.filter (fun p => decide (p.ctx ≠ ctx)) } s)
  settleScan (fillQueue ((gone.filterMap (·.cmd)).eraseDups.foldl (fun s c =>
    endPassCmd c.1 c.2 (if c.2 = Opc.compressIn then .accessDenied else .ok) s) s1))

/-- ENABLE := 0 in the PPU page: queued passes go, and their commands complete with DEVICE_NOT_READY (R449). -/
def stopPasses (s : State) : State :=
  let run := runningPass s
  let gone := (s.ppu.passes ++ s.ppu.waiting).filter (fun p => decide (p.phase = .queued))
  let s1 := setPpu { s.ppu with passes := run.toList, waiting := [] } s
  settleScan ((gone.filterMap (·.cmd)).eraseDups.foldl (fun s c =>
    if (run.bind (·.cmd)) = some c then s else endPassCmd c.1 c.2 .deviceNotReady s) s1)

/-! The two commands (R94 – R96) -/

/-- A table that USE or RAW_ONLY names can be used (R96). -/
def tableUsable (s : State) (ctx id fmt : Nat) : Bool := mayCode s ctx id && decide (tableFormat (tableAt s id).data = fmt)

/-- Cut a run of `n` blocks from block `b` into scopes of `k` slabs; 0 for one scope. A scope holds the blocks of the command
alone, also where the command covers part of a slab. (DESIGN CHOICE: notes/assumptions/88.md) -/
def scopesOf (k : Nat) : Nat → Nat → Nat → List (Nat × Nat)
  | 0, _, _ => []
  | fuel + 1, b, n =>
    if n = 0 then []
    else if k = 0 then [(b, n)]
    else
      let m := min n ((b / 4096 + k) * 4096 - b)
      (b, m) :: scopesOf k fuel (b + m) (n - m)

/-- Bring slabs into a state that takes writes: whether every one does, with what the waiting ones start. -/
def prepareAll (slabs : List Nat) (s : State) : Bool × State :=
  slabs.foldl (fun x k =>
    let y := prepareWrite k x.2
    (x.1 && y.1, y.2)) (true, s)

/-- Slabs of a run of blocks. -/
def runSlabs (b n : Nat) : List Nat := if n = 0 then [] else slabList (b / 4096) ((b + n - 1) / 4096 + 1 - b / 4096)

/-- A block of the slab may be coded with the table: a device table serves the slabs of its owner alone (R85). -/
def codesFor (s : State) (slab id : Nat) : Bool :=
  isRecipeId id || decide ((tableAt s id).owner = ownerOf s (mapAt s slab))

/-- Store the blocks of a COMPRESS_IN, each in full, whatever the state of its block. (DESIGN CHOICE: notes/assumptions/88.md) -/
def storeRun (fmt : Nat) (table : Option Nat) : Nat → List (List Byte) → State → State
  | _, [], s => s
  | b, d :: ds, s =>
    let t := table.filter (codesFor s (b / 4096))
    storeRun fmt table (b + 1) ds
      (storeBlock (b / 4096) (b % 4096) fmt t (scopeFlag s (b / 4096) (b % 4096) t) d (touch (b / 4096) s))

/-- Queue the passes of a command. -/
def queuePasses (r : RingCmd) (op ctx fmt : Nat) (recode : Bool) (scopes : List (Nat × Nat)) (result : Nat) (s : State) : State :=
  let new := scopes.map (fun x => ({ cmd := some (r, op), ctx := ctx, format := fmt, first := x.1, count := x.2,
                                     recode := recode, phase := .queued, table := none, hist := [] } : Pass))
  fillQueue (setPpu { s.ppu with
    waiting := s.ppu.waiting ++ new,
    cmds := s.ppu.cmds ++ [{ r := r, op := op, left := new.length, status := .ok, result := result }] } s)

/-- The PPU takes passes. -/
def ppuOn (s : State) : Bool := (pageHdr s Pg.ppu).enable

/-- What a command that needs passes finds: a refusal, a full queue in which it waits, or the state with the scan buffer
claimed. -/
inductive PassGate where
  | refused (st : Status)
  | full
  | open_ (s : State)
  deriving DecidableEq, Repr

/-- Commands that wait for room in the queue, in order of acceptance. -/
def passLine (s : State) : List (RingCmd × Nat) := s.ppu.line.filter (fun c => inProgress s c.1 c.2)

/-- The command takes its place among those that wait. -/
def joinLine (r : RingCmd) (op : Nat) (s : State) : State :=
  let l := passLine s
  setPpu { s.ppu with line := if l.contains (r, op) then l else l ++ [(r, op)] } s

def passGate (r : RingCmd) (op : Nat) (s : State) : PassGate :=
  let before := (passLine s).takeWhile (fun c => decide (c ≠ (r, op)))
  if !ppuOn s then .refused .deviceNotReady
  else if 256 ≤ queuedPasses s ∨ !s.ppu.waiting.isEmpty ∨ !before.isEmpty then .full
  else match holdScan .ppu s with
    | none => .refused .claimDenied
    | some t => .open_ (setPpu { t.ppu with line := (passLine t).filter (fun c => decide (c ≠ (r, op))) } t)

/-- The command waits for its passes already. (DEDUCED: notes/assumptions/31.md) -/
def passWaits (s : State) (r : RingCmd) (op : Nat) : Bool := s.ppu.cmds.any (fun c => decide (c.r = r) && decide (c.op = op))

/-- Refuse a command that needs a pass. -/
def refusePass (r : RingCmd) (op : Nat) (st : Status) (s : State) : State :=
  complete r op st 0 (if st = .claimDenied then count Pg.ppu 0xE40 s else s)

/-- Let the tag of a command's reads of host memory go (R376): free once the data is in, in quarantine after a
timeout. (DEDUCED: notes/assumptions/30.md) -/
def endTag (r : RingCmd) (op : Nat) (timedOut : Bool) (s : State) : State :=
  match (ringOf s r.fn r.ring).running.find? (fun c => decide (c.cid = r.cid) && decide (c.op = op)) with
  | none => s
  | some c =>
    match c.tag with
    | none => s
    | some t => if timedOut then quarantineTag (fnPort r.fn) t s else dropTag (fnPort r.fn) t s

/-- Store what COMPRESS_IN has read from host memory. (DEDUCED: notes/assumptions/30.md) -/
def compressBody (r : RingCmd) (ctx b len fmt mode table scope : Nat) (data : List Byte) (s : State) : State :=
  let off := s.dev.profile.compression = 0
  let build := !off && (decide (mode = 0) || decide (s.dev.profile.compression = 2))
  let blocks := chunks len 4096 data
  let start (s : State) : State :=
    match prepareAll (runSlabs b len) s with
    | (false, s1) => s1
    | (true, s1) =>
      let s2 := endTag r Opc.compressIn false s1
      if build then
        queuePasses r Opc.compressIn ctx fmt false (scopesOf scope (len + 1) b len) len (storeRun fmt none b blocks s2)
      else complete r Opc.compressIn .ok 0 (storeRun fmt (if off then none else some table) b blocks s2)
  if build then
    match passGate r Opc.compressIn s with
    | .refused st => refusePass r Opc.compressIn st s
    | .full => joinLine r Opc.compressIn s
    | .open_ t => settleScan (start t)
  else start s

/-- The slabs of a run take the access of a command that counts for the touch maps alone (R110, R112). -/
def touchSlabs (first n : Nat) (s : State) : State := (slabList first n).foldl (fun s k => touchMap k s) s

/-- COMPRESS_IN; a transfer that an uncorrectable word of the ring's staging buffer ends completes with POISONED. (DESIGN CHOICE: notes/assumptions/89.md) -/
def execCompressIn (r : RingCmd) (ctx dest src len fmt mode table scope : Nat) (data : Dma) (s : State) :
    Host.Outcome State Fault Refusal :=
  .next (ringRun r Opc.compressIn (fun s =>
    if passWaits s r Opc.compressIn then s
    else if dest % 4096 ≠ 0 ∨ 2 ^ 48 ≤ dest ∨ (scope ≠ 1 ∧ dest % 2 ^ 24 ≠ 0) ∨ src % 4096 ≠ 0 ∨ len = 0 ∨
        16777216 < len ∨ 8 < fmt ∨ 2 ≤ mode ∨ 65536 < scope ∨ 2 ^ 36 < dest / 4096 + len then
      complete r Opc.compressIn .accessDenied 0 s
    else match gateCtx r ctx s with
    | (some st, s1) => complete r Opc.compressIn st 0 s1
    | (none, s1) =>
      match checkRun (ringAsk r.fn ctx true true) (dest / 2 ^ 24) (runSlabs (dest / 4096) len).length s1 with
      | (some st, s2) => complete r Opc.compressIn st 0 s2
      | (none, s2) =>
        if mode = 1 ∧ !tableUsable s2 ctx table fmt then complete r Opc.compressIn .tableUnavailable 0 s2
        else match data with
          | .timeout => complete r Opc.compressIn .dmaTimeout 0 (endTag r Opc.compressIn true s2)
          | .error => complete r Opc.compressIn .dmaError 0 (endTag r Opc.compressIn false s2)
          | .bytes d =>
            if d.length ≠ 4096 * len then complete r Opc.compressIn .dmaError 0 (endTag r Opc.compressIn false s2)
            else match meetBuffer 2 s2 with
              | (true, s3) => complete r Opc.compressIn .poisoned 0 (endTag r Opc.compressIn false s3)
              | (false, s3) => compressBody r ctx (dest / 4096) len fmt mode table scope d s3) s)

/-- The block is one that a pass or RECODE of a format codes. -/
def codable (s : State) (fmt slab b : Nat) : Bool :=
  decide ((blockDesc s slab b).state = .normal) && decide ((blockDesc s slab b).format = fmt) &&
    !flashPoison s slab b

/-- The block is POISONED, CHECK_SUSPECT or ZERO: RECODE skips and counts it (R95). -/
def skips (s : State) (slab b : Nat) : Bool := decide ((blockDesc s slab b).state ≠ .normal) || flashPoison s slab b

/-- What a coding of blocks does: format, table, whether only raw blocks are coded, and whether it is a RECODE, which marks
the blocks RECODED and counts those it skips. -/
structure Coding where
  fmt : Nat
  id : Nat
  rawOnly : Bool
  recode : Bool
  deriving DecidableEq, Repr

/-- Blocks that RECODE skips are counted. -/
def countSkip (recode : Bool) (n : Nat) (s : State) : State := if recode then countBy Pg.ppu 0xE20 n s else s

/-- Code one block of a slab under a table, leaving its data unchanged; a block found bad is skipped. -/
def recodeBlock (c : Coding) (slab b : Nat) (s : State) : State :=
  if skips s slab b then countSkip c.recode 1 s
  else if !codable s c.fmt slab b || (c.rawOnly && decide ((blockDesc s slab b).crumbs ≠ 64)) || !codesFor s slab c.id then s
  else match fetchBlock (Det.reader (ctxFn s (ownerOf s (mapAt s slab)))) slab b s with
    | (.clean data _, s1) => storeBlock slab b c.fmt (some c.id) ((if c.recode then 1 else 0) + scopeFlag s slab b (some c.id)) data s1
    | (.bad _, s1) => countSkip c.recode 1 s1
    | (.waits, s1) => s1

/-- Code the blocks `lo … lo + n - 1` of the presented range under a table. -/
def recodeRun (c : Coding) (lo n : Nat) (s : State) : State :=
  (List.range n).foldl (fun s i => recodeBlock c ((lo + i) / 4096) ((lo + i) % 4096) s) s

/-- Slabs of a run that hold a block to be coded. -/
def recodeSlabs (s : State) (fmt lo n : Nat) : List Nat :=
  (runSlabs lo n).filter (fun k => (List.range 4096).any (codable s fmt k))

/-- RECODE under a usable table: USE codes every block of the format, RAW_ONLY raw ones only. (DEDUCED: notes/assumptions/30.md) -/
def recodeUse (r : RingCmd) (first len fmt table : Nat) (rawOnly : Bool) (s : State) : State :=
  match prepareAll (recodeSlabs s fmt (first * 4096) (len * 4096)) s with
  | (false, s1) => s1
  | (true, s1) =>
    complete r Opc.recode .ok 0 (recodeRun ⟨fmt, table, rawOnly, true⟩ (first * 4096) (len * 4096) s1)

/-- RECODE. (DEDUCED: notes/assumptions/30.md) -/
def execRecode (r : RingCmd) (ctx dest len fmt mode table scope : Nat) (s : State) : Host.Outcome State Fault Refusal :=
  .next (ringRun r Opc.recode (fun s =>
    let first := dest / 2 ^ 24
    if passWaits s r Opc.recode then s
    else if !slabAligned dest ∨ len = 0 ∨ 65536 < len ∨ 8 < fmt ∨ 3 ≤ mode ∨ 65536 < scope then
      complete r Opc.recode .accessDenied 0 s
    else match gateCtx r ctx s with
    | (some st, s1) => complete r Opc.recode st 0 s1
    | (none, s1) =>
      match checkRun (ringAsk r.fn ctx true true) first len s1 with
      | (some st, s2) => complete r Opc.recode st 0 s2
      | (none, s2) =>
        if mode ≠ 0 ∧ !tableUsable s2 ctx table fmt then complete r Opc.recode .tableUnavailable 0 s2
        else if s2.dev.profile.compression = 0 then complete r Opc.recode .ok 0 s2
        else if mode = 0 then
          match passGate r Opc.recode s2 with
          | .refused st => refusePass r Opc.recode st s2
          | .full => joinLine r Opc.recode s2
          | .open_ t =>
            queuePasses r Opc.recode ctx fmt true (scopesOf scope (len + 1) (first * 4096) (len * 4096)) 0 (touchSlabs first len t)
        else recodeUse r first len fmt table (decide (mode = 2)) (touchSlabs first len s2)) s)

/-! The phases of a pass (R89) -/

/-- PASS_START: the first queued pass begins to count. -/
def execPassStart (s : State) : Host.Outcome State Fault Refusal :=
  .next (whenAwake s (fun s =>
    if (runningPass s).isSome || !ppuOn s then s
    else match s.ppu.passes with
      | [] => s
      | p :: l =>
        fillQueue (setPpu { s.ppu with passes := { p with phase := .histogram, hist := List.replicate (2 ^ symWidth p.format) 0 } :: l } s)))

/-- Slabs of the scope that the context of the pass may still code in. -/
def passSlab (s : State) (p : Pass) (slab : Nat) : Bool :=
  (accessCheck s (ringAsk (ctxFn s p.ctx) p.ctx true true) slab).isNone

/-- A histogram in the making: the counts, and whether a block still waits for flash recovery. -/
structure Counting where
  hist : List Nat
  waits : Bool
  deriving DecidableEq, Repr

/-- Count the symbols of one block of the scope. -/
def countBlock (p : Pass) (b : Nat) (x : Counting × State) : Counting × State :=
  let slab := b / 4096
  if passSlab x.2 p slab && codable x.2 p.format slab (b % 4096) then
    match fetchBlock (Det.reader (ctxFn x.2 p.ctx)) slab (b % 4096) x.2 with
    | (.clean data _, s1) => ({ x.1 with hist := (blockSymbols p.format data).foldl (fun h k => h.modify k (· + 1)) x.1.hist }, s1)
    | (.bad _, s1) => (x.1, s1)
    | (.waits, s1) => ({ x.1 with waits := true }, s1)
  else x

/-- Blocks of a run that a RECODE skips, those of lost slabs included (R95, R96). -/
def countSkips (p : Pass) (s : State) : State :=
  countSkip p.recode (countBelow p.count (fun i =>
    !passSlab s p ((p.first + i) / 4096) || skips s ((p.first + i) / 4096) ((p.first + i) % 4096))) s

/-- The lowest FREE device ID. -/
def freeDeviceId (s : State) : Option Nat :=
  findFrom (fun id => decide ((tableAt s id).state = .free)) 1 0xBFF

/-- PASS_HISTOGRAM_DONE: the scope has been counted; the pass takes a device ID, or ends. While a block of the scope waits for
flash recovery, the count goes on. -/
def execPassHistogramDone (s : State) : Host.Outcome State Fault Refusal :=
  .next (whenAwake s (fun s =>
    match runningPass s with
    | none => s
    | some p =>
      if p.phase ≠ .histogram then s
      else
        let (c, s1) := (List.range p.count).foldl (fun x i => countBlock p (p.first + i) x) (⟨p.hist, false⟩, s)
        if c.waits then s1
        else if listSum c.hist = 0 then passDone p.cmd (count Pg.ppu 0xE08 (endPass (countSkips p s1)))
        else match freeDeviceId s1 with
          | none =>
            match p.cmd with
            | some (r, op) => endPassCmd r op .tableStoreFull (count Pg.ppu 0xE48 (endPass s1))
            | none => endPass s1
          | some id =>
            modPass (fun p => { p with phase := .build, table := some id, hist := c.hist })
              (setTable id { TableEnt.free with state := .building, owner := p.ctx, pins := 1, scope := some (p.first, p.count) } s1)))

/-- TABLE_BUILD_DONE: the table is published. -/
def execTableBuildDone (s : State) : Host.Outcome State Fault Refusal :=
  .next (whenAwake s (fun s =>
    match runningPass s with
    | none => s
    | some p =>
      match p.phase, p.table with
      | .build, some id =>
        modPass (fun p => { p with phase := .encode })
          (count Pg.ppu 0xE10 (modTable id (fun e => { e with state := .live, data := buildTable p.format p.hist }) s))
      | _, _ => s))

/-- Encode the scope of a pass: RECODE leaves a slab that its context has lost and counts its blocks, COMPRESS_IN ends there
(R96). -/
def encodeScope (p : Pass) (id : Nat) (s : State) : Bool × State :=
  (runSlabs p.first p.count).foldl (fun x k =>
    let lo := max p.first (k * 4096)
    let n := min (p.first + p.count) ((k + 1) * 4096) - lo
    if !p.recode && !x.1 then x
    else if passSlab x.2 p k then (x.1, recodeRun ⟨p.format, id, false, p.recode⟩ lo n x.2)
    else (false, countSkip p.recode n x.2)) (true, s)

/-- PASS_COMPLETE: every block of the scope stands in its final form. A scope with a slab that takes no write now waits. -/
def execPassComplete (s : State) : Host.Outcome State Fault Refusal :=
  .next (whenAwake s (fun s =>
    match runningPass s with
    | none => s
    | some p =>
      match p.phase, p.table with
      | .encode, some id =>
        match prepareAll ((recodeSlabs s p.format p.first p.count).filter (passSlab s p)) s with
        | (false, s1) => s1
        | (true, s1) =>
          let (whole, s2) := encodeScope p id s1
          let s3 := count Pg.ppu 0xE08 (unpinTable id (endPass s2))
          match p.cmd with
          | some (r, op) => if !whole && !p.recode then endPassCmd r op .accessDenied s3 else passDone p.cmd s3
          | none => s3
      | _, _ => s))

/-! Retirement of tables (R88, R99, R104 – R106) -/

/-- RETIRE: PPU_TABLE_CMD from the claim holder, on tables of its port and on recipe tables. -/
def execRetire (w id : Nat) (s : State) : Host.Outcome State Fault Refusal :=
  .next (ownedWrite w Pg.ppu (fun s =>
    if isRecipeId id || (isDeviceId id && decide (fnPort (ctxFn s (tableAt s id).owner) = fnPort w) &&
        decide ((tableAt s id).state ≠ .free)) then retireTable id s
    else ignoreWrite Pg.ppu s) s)

/-- TABLE_RETIRE_ACK from the partner on a fabric port. -/
def execTableRetireAck (fport id epoch : Nat) (s : State) : Host.Outcome State Fault Refusal :=
  .next (whenAwake s (arrive fport 0x12 (fportAt s fport).partner.dev 0 0 (fun s =>
    let e := tableAt s id
    if decide (e.state = .quarantine) && decide (e.retireEpoch = epoch) then
      releaseTables (setTable id { e with peers := e.peers.filter (fun p => decide (p ≠ fport)) }
        (modFport fport (fun v => { v with acksDue := v.acksDue.filter (fun a => decide (a.1 ≠ id)) }) s))
    else s)))

/-- End the decode session of a port: no table counts its partner among the holders (R105, R350). -/
def endDecode (fport : Nat) (s : State) : State :=
  let drop (_ : Nat) (e : TableEnt) : TableEnt := { e with peers := e.peers.filter (fun p => decide (p ≠ fport)) }
  releaseTables (setPpu { s.ppu with tables := tmap TableEnt.free drop s.ppu.tables }
    (modFport fport (fun v => { v with decode := false, acksDue := [] }) s))

/-- PEER_ACK_TIMEOUT: an acknowledgement of a port has not come in time. -/
def execPeerAckTimeout (fport : Nat) (s : State) : Host.Outcome State Fault Refusal :=
  .next (whenAwake s (fun s =>
    if !(fportAt s fport).acksDue.any (fun a => decide (a.2 + 1000000 * fld s Pg.ppu 0x400 9 0 ≤ s.now)) then s else endDecode fport (count Pg.ppu 0xE38 s)))

/-! Background recode (R98) -/

/-- Raw blocks of one format in a slab. -/
def rawBlocks (s : State) (slab fmt : Nat) : Nat :=
  countBelow 4096 (fun b => codable s fmt slab b && decide ((blockDesc s slab b).crumbs = 64))

/-- The candidate with the greatest weight, the first among equals. -/
def heaviest : List (Nat × Nat) → Option (Nat × Nat) :=
  List.foldl (fun (a : Option (Nat × Nat)) x => match a with
    | none => some x
    | some y => if y.2 < x.2 then some x else a) none

/-- The table that a slab's coded blocks name most often. -/
def commonTable (s : State) (slab : Nat) : Option Nat :=
  let ids := (List.range 4096).filterMap (fun b => codedTable (blockDesc s slab b))
  (heaviest (ids.eraseDups.map (fun id => (id, ids.count id)))).map (·.1)

/-- Raw blocks of formats 1 to 8 in a slab. -/
def rawTotal (s : State) (slab : Nat) : Nat := listSum ((List.range 8).map (fun f => rawBlocks s slab (f + 1)))

/-- Recode one slab in the background. (DEDUCED: notes/assumptions/30.md, DEDUCED: notes/assumptions/83.md) -/
def bgRecode (slab : Nat) (s0 : State) : State :=
  let s := setPpu { s0.ppu with bgTimes := s0.ppu.bgTimes.filter (fun t => decide (s0.now < t + 1000000000)) ++ [s0.now] } s0
  let c := ownerOf s (mapAt s slab)
  if s.dev.profile.compression = 1 then
    match commonTable s slab with
    | none => s0
    | some id =>
      if mayCode s c id then recodeRun ⟨tableFormat (tableAt s id).data, id, true, true⟩ (slab * 4096) 4096 s else s0
  else if s.dev.profile.compression = 2 then
    match heaviest ((List.range 8).map (fun f => (f + 1, rawBlocks s slab (f + 1)))), holdScan .ppu s with
    | some (fmt, _), some t =>
      fillQueue (setPpu { t.ppu with waiting := t.ppu.waiting ++
        [{ cmd := none, ctx := c, format := fmt, first := slab * 4096, count := 4096, recode := true, phase := .queued,
           table := none, hist := [] }] } t)
    | _, _ => s0
  else s0

/-- BG_RECODE_WALK: firmware examines the next slab. (DEDUCED: notes/assumptions/30.md) -/
def execBgRecodeWalk (s : State) : Host.Outcome State Fault Refusal :=
  .next (whenAwake s (fun s =>
    if !flag s Pg.ppu 0x40 0 || !ppuOn s || decide (s.ple.presented = 0) || decide (256 ≤ queuedPasses s) ||
        decide (fld s Pg.ppu 0x408 15 0 ≤ (s.ppu.bgTimes.filter (fun t => decide (s.now < t + 1000000000))).length) then s
    else
      let k := s.ppu.walk % s.ple.presented
      let e := mapAt s k
      let t := setPpu { s.ppu with walk := (k + 1) % s.ple.presented } s
      if e.state = .resident ∧ e.tier ≠ some .t3 ∧ fld s Pg.ppu 0x408 27 16 < rawTotal s k then bgRecode k t else t))

end Sys2Proof.Machine
end

