-- ==== Sys2Proof/Machine/Cvu.lean ====
section
/-! DEFINITION. Sys2Proof/Machine/Cvu.lean: the check-value units (chapter Check-Value Units; rows CVU_JOB_START to CHECK). -/

namespace Sys2Proof.Machine

/-! The computation (R216, R217) -/

/-- Parameters of a check value. -/
structure CvuPar where
  width : Nat
  poly : Nat
  init : Nat
  refin : Bool
  refout : Bool
  xorout : Nat
  deriving DecidableEq, Repr

/-- The low `n` bits of a number in reverse order. -/
def reflect (n v : Nat) : Nat := listSum ((List.range n).map (fun i => if v.testBit i then 2 ^ (n - 1 - i) else 0))

/-- One byte into the check register. -/
def cvuByte (p : CvuPar) (reg : Nat) (b : Byte) : Nat :=
  crcByteM p.width p.poly reg (if p.refin then BitVec.ofNat 8 (reflect 8 b.toNat) else b)

def cvuFeed (p : CvuPar) (reg : Nat) (data : List Byte) : Nat := data.foldl (cvuByte p) reg

/-- REFOUT and XOROUT at the end of the message. -/
def cvuFinal (p : CvuPar) (reg : Nat) : Nat :=
  ((if p.refout then reflect p.width reg else reg) ^^^ p.xorout) % 2 ^ p.width

/-- Presets 0–5 of Table 09-1. -/
def cvuPreset : Nat → Option CvuPar
  | 0 => some ⟨32, 0x1EDC6F41, 0xFFFFFFFF, true, true, 0xFFFFFFFF⟩
  | 1 => some ⟨32, 0x04C11DB7, 0xFFFFFFFF, true, true, 0xFFFFFFFF⟩
  | 2 => some ⟨32, 0x04C11DB7, 0xFFFFFFFF, false, false, 0⟩
  | 3 => some ⟨16, 0x1021, 0xFFFF, false, false, 0⟩
  | 4 => some ⟨64, 0x42F0E1EBA9EA3693, 0xFFFFFFFFFFFFFFFF, true, true, 0xFFFFFFFFFFFFFFFF⟩
  | 5 => some ⟨8, 0x07, 0, false, false, 0⟩
  | _ => none

/-! Units -/

def cvuAt (s : State) (n : Nat) : Cvu := tget Cvu.reset s.cvus n

def setCvu (n : Nat) (v : Cvu) (s : State) : State := { s with cvus := tput Cvu.reset s.cvus n v }

def modCvu (n : Nat) (f : Cvu → Cvu) (s : State) : State := setCvu n (f (cvuAt s n)) s

/-- Parameters in the registers of a unit. -/
def cvuPar (s : State) (n : Nat) : CvuPar :=
  let p := Pg.cvu + n
  let w := fld s p 0x418 6 0
  { width := w, poly := (reg s p 0x400).toNat % 2 ^ w, init := (reg s p 0x408).toNat % 2 ^ w,
    refin := flag s p 0x418 8, refout := flag s p 0x418 9, xorout := (reg s p 0x410).toNat % 2 ^ w }

/-- A unit that takes a job of the scan engine (R449: none while ENABLE is 0). -/
def cvuOpen (s : State) (n : Nat) : Bool := (pageHdr s (Pg.cvu + n)).enable && !(pageHdr s (Pg.cvu + n)).resetting

/-- The idle CVUs, lowest first. -/
def idleCvus (s : State) : List Nat :=
  (List.range 4).filter (fun n => cvuOpen s n && decide ((cvuAt s n).state ≠ .running))

/-- Memory jobs of the registers that run. -/
def memoryJobs (s : State) : Nat := (List.range 4).countP (fun n => decide ((cvuAt s n).state = .running) && (cvuAt s n).memory)

/-- Jobs of CHECK that the scan engine has accepted and that are still in progress, in order of acceptance (R222). -/
def liveChecks (s : State) : List RingCmd := s.checks.filter (fun r => inProgress s r Opc.check)

/-- Commands that ended leave the queue of the scan engine; the claim of the scan buffer ends when the engine has no job (R223). -/
def settleCvuScan (s : State) : State :=
  let t := { s with checks := liveChecks s }
  if decide (memoryJobs t = 0) && t.checks.isEmpty && decide ((claimOf t resScan).user = .cvuScan) then freeClaim resScan t else t

/-- The unit that a job of the queue has: jobs go to the idle CVUs in order of acceptance (R222). (DEDUCED: notes/assumptions/42.md) -/
def checkUnit (s : State) (r : RingCmd) : Option Nat := (idleCvus s)[s.checks.findIdx (fun x => decide (x = r))]?

/-- Every register job that runs ends and writes no result, and the queue of the engine with it: the safe-state sequencer has taken
the claim (R223). REASON keeps its value. (DEDUCED: notes/assumptions/42.md) -/
def endCvuJobs (s : State) : State :=
  { s with checks := [], cvus := tmap Cvu.reset (fun _ v => if v.state = .running then { v with state := .fault, left := 0 } else v) s.cvus }

/-! Reading (R218, R219) -/

/-- How far a job has come: register, bytes done, values of PER_BLOCK, and whether check repair acted. -/
structure Scan where
  reg : Nat
  done : Nat
  outs : List Nat
  repaired : Bool
  deriving DecidableEq, Repr

/-- How a job stands after a read of its range. -/
inductive ScanEnd where
  | done (x : Scan)
  | ended (st : Status) (x : Scan)
  | waits
  deriving DecidableEq, Repr

/-- The slab that a presented address, or an aperture offset of a function, names (R43). -/
def addrSlab (s : State) (apt : Option Nat) (a : Nat) : Option Nat :=
  match apt with
  | none => some (a / 2 ^ 24)
  | some fn => match windowFor s fn a with
    | some w => if w.stale || !w.rd then none else some (w.first + (a / 2 ^ 24 - w.aptBase))
    | none => none

/-- PLE_DENY_INFO of a range that a STALE or write-only window refuses, with its slab, or that lies in no window. -/
def noteScanDeny (ask : Ask) (apt : Option Nat) (a : Nat) (s : State) : State :=
  match apt.bind (fun fn => windowFor s fn a) with
  | some w => noteDeny ask.path 3 ask.fn ask.ctx (w.first + (a / 2 ^ 24 - w.aptBase)) s
  | none => noteDeny ask.path 3 ask.fn 0 0 s

/-- Read a range block by block through a fill-path expander. -/
def scanBlocks (ask : Ask) (apt : Option Nat) (p : CvuPar) (per : Bool) :
    Nat → Nat → Nat → Scan → State → ScanEnd × State
  | 0, _, _, x, s => (.done x, s)
  | n + 1, a, left, x, s =>
    if left = 0 then (.done x, s)
    else match addrSlab s apt a with
      | none => (.ended .accessDenied x, noteScanDeny ask apt a s)
      | some slab => match checkAccess ask slab s with
        | (some (_, st), s1) => (.ended st x, s1)
        | (none, s0) =>
          let s1 := touchMap slab s0
          let k := min left (4096 - a % 4096)
          let got := if readsZero (mapAt s1 slab) then (Got.clean (List.replicate 4096 0) false, s1)
            else fetchBlock (Det.reader ask.fn) slab (a / 4096 % 4096) s1
          match got with
          | (.waits, s2) => (.waits, s2)
          | (.bad st, s2) => (.ended st x, s2)
          | (.clean data r, s2) =>
            let v := cvuFeed p (if per then p.init else x.reg) ((data.drop (a % 4096)).take k)
            scanBlocks ask apt p per n (a + k) (left - k)
              { reg := v, done := x.done + k, outs := if per then x.outs ++ [cvuFinal p v] else x.outs,
                repaired := x.repaired || r } s2

/-- A count of blocks that covers any range of `len` bytes. -/
def scanFuel (len : Nat) : Nat := len / 4096 + 2

/-! Register jobs (R218, R220, R224) -/

/-- A register job is refused. -/
def refuseJob (n : Nat) (st : Status) (s : State) : State := modCvu n (fun v => { v with reason := st.code }) s

/-- Store the fields of CVU_JOB_CTRL; BYTES outside 1–8 is refused and keeps its value (R6). -/
def storeJobCtrl (w n : Nat) (value : Word) (s : State) : State :=
  let p := Pg.cvu + n
  let old := reg s p 0x48
  let bad := decide (bits value 23 20 = 0) || decide (8 < bits value 23 20)
  let b := if bad then bits old 23 20 else bits value 23 20
  let s1 := setReg p 0x48 (BitVec.ofNat 64
    (place (bits value 61 61) 61 1 + place (bits value 60 60) 60 1 + place b 20 4 + place (bits value 19 0) 0 20)) s
  if bad then noteErr p kindRefusedValue .accessDenied 0x48 w s1 else s1

/-- Start the job that the registers describe. (DEDUCED: notes/assumptions/42.md) -/
def startJob (w n : Nat) (s : State) : State :=
  let p := Pg.cvu + n
  let v := cvuAt s n
  let again := flag s p 0x48 61
  let start := if again && decide (v.state ≠ .idle) then v.reg else (cvuPar s n).init
  if again && (v.changed || decide (v.state = .fault)) then refuseJob n .accessDenied s
  else if flag s p 0x48 60 then
    setCvu n { v with state := .running, reg := start, memory := false, left := 0, off := 0, changed := false } s
  else
    let ctx := fld s p 0x48 19 0
    let len := fld s p 0x58 40 0
    if (ctxAt s ctx).state ≠ .active ∨ fnPort (ctxFn s ctx) ≠ fnPort w ∨ len = 0 ∨ 2 ^ 40 < len then refuseJob n .accessDenied s
    else match holdScan .cvuScan s with
      | none => count p 0xE20 (denyClaim (refuseJob n .claimDenied s))
      | some s1 => setCvu n { v with state := .running, reg := start, memory := true, ctx := ctx,
                                     next := fld s p 0x50 47 0, left := len, off := 0, changed := false } s1

/-- CVU_JOB_START: a write of CVU_JOB_CTRL with START set; while a job runs, START does nothing. (DEDUCED: notes/assumptions/42.md) -/
def execCvuJobStart (w n : Nat) (value : Word) (s : State) : Host.Outcome State Fault Refusal :=
  .next (if 4 ≤ n then s else ownedWrite w (Pg.cvu + n) (fun s =>
    let s1 := storeJobCtrl w n value s
    if bitOf value 63 && cvuOpen s n && decide ((cvuAt s n).state ≠ .running) then startJob w n s1 else s1) s)

/-- CVU_DATA_WRITE: BYTES bytes of the word, least significant first. -/
def execCvuDataWrite (w n : Nat) (data : Word) (s : State) : Host.Outcome State Fault Refusal :=
  .next (if 4 ≤ n then s else ownedWrite w (Pg.cvu + n) (fun s =>
    let v := cvuAt s n
    if v.state = .running ∧ !v.memory then
      let k := fld s (Pg.cvu + n) 0x48 23 20
      countBy (Pg.cvu + n) 0xE10 k
        (setCvu n { v with reg := cvuFeed (cvuPar s n) v.reg (leBytes k data.toNat), off := v.off + k } s)
    else s) s)

/-- CVU_JOB_FINISH: a write of CVU_JOB_CTRL with FINISH set. -/
def execCvuJobFinish (w n : Nat) (value : Word) (s : State) : Host.Outcome State Fault Refusal :=
  .next (if 4 ≤ n then s else ownedWrite w (Pg.cvu + n) (fun s =>
    let s1 := storeJobCtrl w n value s
    let v := cvuAt s n
    if bitOf value 62 ∧ v.state = .running ∧ !v.memory then
      count (Pg.cvu + n) 0xE08 (setCvu n { v with state := .done, result := cvuFinal (cvuPar s n) v.reg } s1)
    else s1) s)

/-- CVU_JOB_DONE: a memory job has read its range, or has met a refused or bad block. (DEDUCED: notes/assumptions/42.md) -/
def execCvuJobDone (n : Nat) (s : State) : Host.Outcome State Fault Refusal :=
  .next (whenAwake s (fun s =>
    let v := cvuAt s n
    if v.state ≠ .running ∨ !v.memory then s
    else
      let ask := ringAsk (ctxFn s v.ctx) v.ctx false false
      match scanBlocks ask none (cvuPar s n) false (scanFuel v.left) v.next v.left ⟨v.reg, 0, [], false⟩ s with
      | (.waits, s1) => s1
      | (.done x, s1) =>
        settleCvuScan (count (Pg.cvu + n) 0xE08 (countBy (Pg.cvu + n) 0xE10 x.done
          (setCvu n { v with state := .done, reg := x.reg, off := x.done, left := 0,
                             result := cvuFinal (cvuPar s n) x.reg } s1)))
      | (.ended st x, s1) =>
        settleCvuScan (count (Pg.cvu + n) 0xE18 (countBy (Pg.cvu + n) 0xE10 x.done
          (setCvu n { v with state := .fault, reason := st.code, off := x.done, left := 0 } s1)))))

/-! CHECK (R221 – R223) -/

/-- Parameters of a CHECK; none for a reserved encoding. -/
def checkPar (preset flags width : Nat) (poly init : Word) : Option CvuPar :=
  if preset = 7 then
    if 8 ≤ width ∧ width ≤ 64 then
      some { width := width, poly := poly.toNat % 2 ^ width, init := init.toNat % 2 ^ width, refin := flags.testBit 1,
             refout := flags.testBit 2, xorout := if flags.testBit 3 then 2 ^ width - 1 else 0 }
    else none
  else cvuPreset preset

/-- The operands of CHECK lie in their ranges. -/
def checkOperands (mode flags addr result length : Nat) : Bool :=
  decide (mode < 2) && decide (flags < 16) && decide (result % 8 = 0) && decide (1 ≤ length) && decide (length ≤ 2 ^ 40) &&
    (decide (mode = 0) || (decide (addr % 4096 = 0) && decide (length % 4096 = 0))) &&
    (flags.testBit 0 || decide (addr + length ≤ 2 ^ 48))

/-- The results of a CHECK go to host memory, 8 bytes each. -/
def writeResults (fn addr : Nat) (l : List Nat) (s : State) : State :=
  if l.isEmpty then s else emit (.hostWrite fn addr (l.flatMap (leBytes 8))) s

/-- Run a CHECK on unit `n`. (DEDUCED: notes/assumptions/42.md) -/
def runCheck (r : RingCmd) (ctx mode flags addr result length n : Nat) (p : CvuPar) (s : State) : State :=
  let ask := ringAsk r.fn ctx false false
  let per := decide (mode = 1)
  let apt := if flags.testBit 0 then some r.fn else none
  let counted (x : Scan) (s : State) : State := countBy (Pg.cvu + n) 0xE10 x.done s
  match scanBlocks ask apt p per (scanFuel length) addr length ⟨p.init, 0, [], false⟩ s with
  | (.waits, s1) => s1
  | (.done x, s1) =>
    let outs := if per then x.outs else [cvuFinal p x.reg]
    settleCvuScan (complete r Opc.check (if x.repaired then .checkRepaired else .ok) 0
      (writeResults r.fn result outs (count (Pg.cvu + n) 0xE08 (counted x s1))))
  | (.ended st x, s1) =>
    settleCvuScan (complete r Opc.check st ((addr % 4096 + x.done) / 4096)
      (writeResults r.fn result x.outs (count (Pg.cvu + n) 0xE18 (counted x s1))))

/-- The refusals of a CHECK before it reaches the scan engine, with the parameters of the others. -/
def checkGate (r : RingCmd) (ctx preset mode flags width addr result length : Nat) (poly init : Word) (s : State) :
    Except Status CvuPar × State :=
  match checkPar preset flags width poly init with
  | none => (.error .accessDenied, s)
  | some p =>
    if !checkOperands mode flags addr result length then (.error .accessDenied, s)
    else match gateCtx r ctx s with
      | (some st, s1) => (.error st, s1)
      | (none, s1) =>
        if (List.range 4).all (fun n => !(pageHdr s1 (Pg.cvu + n)).enable) then (.error .deviceNotReady, s1) else (.ok p, s1)

/-- The scan engine accepts a job: its queue of 64 has room, and the scan buffer is claimed (R222, R223). (DEDUCED: notes/assumptions/42.md) -/
def acceptCheck (r : RingCmd) (s : State) : Except State State :=
  if s.checks.contains r then .ok s
  else if 64 ≤ (liveChecks s).length then .error s
  else match holdScan .cvuScan s with
    | none => .error (count (Pg.cvu + (idleCvus s).headD 0) 0xE20 (denyClaim s))
    | some s1 => .ok { s1 with checks := liveChecks s1 ++ [r] }

/-- CHECK. With no unit idle for it, it stays in progress. (DEDUCED: notes/assumptions/42.md) -/
def execCheck (r : RingCmd) (ctx preset mode flags width addr result length : Nat) (poly init : Word) (s : State) :
    Host.Outcome State Fault Refusal :=
  .next (ringRun r Opc.check (fun s =>
    match checkGate r ctx preset mode flags width addr result length poly init s with
    | (.error st, s1) => settleCvuScan (complete r Opc.check st 0 s1)
    | (.ok p, s1) =>
      match acceptCheck r s1 with
      | .error s2 => complete r Opc.check .claimDenied 0 s2
      | .ok s2 => match checkUnit s2 r with
        | none => s2
        | some n => runCheck r ctx mode flags addr result length n p s2) s)

end Sys2Proof.Machine
end

