-- ==== Sys2Proof/Machine/Arith.lean ====
section
/-! DEFINITION. Sys2Proof/Machine/Arith.lean: number formats, the exact accumulator and exact partials, the one final rounding,
the special-function unit, and the sums of STRICT and ELASTIC mode (chapter The Sheet and Exact Arithmetic). -/

namespace Sys2Proof.Machine

/-! Values -/

/-- A datum: NaN, an infinity, or ±mant · 2^exp; a zero keeps its sign. -/
inductive Val where
  | nan
  | inf (neg : Bool)
  | fin (neg : Bool) (mant : Nat) (exp : Int)
  deriving DecidableEq, Repr

def Val.zero : Val := .fin false 0 0

/-- A binary format: exponent bits, mantissa bits, bias, and how its top exponent is used (0 IEEE, 1 NaN only when all
bits are one, 2 all finite). -/
structure FpFmt where
  eb : Nat
  mb : Nat
  bias : Nat
  top : Nat
  deriving DecidableEq, Repr

def fmtFp32 : FpFmt := ⟨8, 23, 127, 0⟩
def fmtBf16 : FpFmt := ⟨8, 7, 127, 0⟩
def fmtFp16 : FpFmt := ⟨5, 10, 15, 0⟩
/-- FP8 E4M3. (PRESUMED: notes/assumptions/46.md) -/
def fmtE4m3 : FpFmt := ⟨4, 3, 7, 1⟩
/-- FP8 E5M2. (PRESUMED: notes/assumptions/46.md) -/
def fmtE5m2 : FpFmt := ⟨5, 2, 15, 0⟩
/-- FP6 E2M3. (PRESUMED: notes/assumptions/46.md) -/
def fmtE2m3 : FpFmt := ⟨2, 3, 1, 2⟩
/-- FP6 E3M2. (PRESUMED: notes/assumptions/46.md) -/
def fmtE3m2 : FpFmt := ⟨3, 2, 3, 2⟩
/-- FP4 E2M1. (PRESUMED: notes/assumptions/46.md) -/
def fmtE2m1 : FpFmt := ⟨2, 1, 1, 2⟩

/-- The value that the bits of a format spell; subnormals keep theirs (R265). -/
def decodeFp (f : FpFmt) (v : Nat) : Val :=
  let m := v % 2 ^ f.mb
  let e := (v >>> f.mb) % 2 ^ f.eb
  let neg := v.testBit (f.mb + f.eb)
  let topE := 2 ^ f.eb - 1
  if e = topE ∧ f.top = 0 then (if m = 0 then .inf neg else .nan)
  else if e = topE ∧ f.top = 1 ∧ m = 2 ^ f.mb - 1 then .nan
  else if e = 0 then .fin neg m (1 - (f.bias + f.mb : Nat))
  else .fin neg (2 ^ f.mb + m) ((e : Int) - (f.bias + f.mb : Nat))

/-- A product of two operands, exact (R265, R267). -/
def Val.mul : Val → Val → Val
  | .nan, _ => .nan
  | _, .nan => .nan
  | .inf a, .inf b => .inf (a != b)
  | .inf a, .fin b m _ => if m = 0 then .nan else .inf (a != b)
  | .fin a m _, .inf b => if m = 0 then .nan else .inf (a != b)
  | .fin a m e, .fin b n k => .fin (a != b) (m * n) (e + k)

def Val.neg : Val → Val
  | .nan => .nan
  | .inf a => .inf (!a)
  | .fin a m e => .fin (!a) m e

/-- The value of an E8M0 scale; 0xFF is a NaN (R265). (PRESUMED: notes/assumptions/46.md) -/
def decodeScale (v : Nat) : Val := if v = 255 then .nan else .fin false 1 ((v : Int) - 127)

/-- A signed byte. -/
def decodeInt8 (v : Nat) : Val := if v < 128 then .fin false v 0 else .fin true (256 - v) 0

def ofInt (v : Int) (e : Int) : Val := .fin (decide (v < 0)) v.natAbs e

/-- A finite value as a multiple of 2^(−400). -/
def Val.scaled : Val → Int
  | .fin neg m e => let v : Int := (m * 2 ^ (e + 400).toNat : Nat); if neg then -v else v
  | _ => 0

/-- The order of numbers: infinities at the ends, equal zeros. -/
def Val.lt (a b : Val) : Bool :=
  match a, b with
  | .nan, _ => false
  | _, .nan => false
  | .inf x, .inf y => x && !y
  | .inf x, .fin .. => x
  | .fin .., .inf y => !y
  | .fin .., .fin .. => decide (a.scaled < b.scaled)

def Val.isZero : Val → Bool
  | .fin _ m _ => decide (m = 0)
  | _ => false

def Val.isNeg : Val → Bool
  | .fin n _ _ => n
  | .inf n => n
  | .nan => false

/-- The maximum (Table 12-6): NaN when either is, +0 above −0. -/
def Val.max (a b : Val) : Val :=
  match a, b with
  | .nan, _ => .nan
  | _, .nan => .nan
  | _, _ =>
    if a.isZero && b.isZero then (if a.isNeg then b else a)
    else if a.lt b then b else a

/-- The minimum (Table 12-6). -/
def Val.min (a b : Val) : Val :=
  match a, b with
  | .nan, _ => .nan
  | _, .nan => .nan
  | _, _ =>
    if a.isZero && b.isZero then (if a.isNeg then a else b)
    else if b.lt a then b else a

/-- The sum, exact, with the special values of IEEE 754: opposite infinities give NaN; a zero sum is −0 only when both
terms are. -/
def Val.add : Val → Val → Val
  | .nan, _ => .nan
  | _, .nan => .nan
  | .inf a, .inf b => if a = b then .inf a else .nan
  | .inf a, .fin .. => .inf a
  | .fin .., .inf b => .inf b
  | .fin a m e, .fin b n k =>
    let lo := if e ≤ k then e else k
    let x : Int := (m * 2 ^ (e - lo).toNat : Nat)
    let y : Int := (n * 2 ^ (k - lo).toNat : Nat)
    let v := (if a then -x else x) + (if b then -y else y)
    if v = 0 then .fin (a && b && decide (m = 0) && decide (n = 0)) 0 0 else ofInt v lo

/-! Rounding -/

/-- The greatest finite magnitude of a format, as bits. -/
def maxFinite (f : FpFmt) : Nat :=
  match f.top with
  | 0 => (2 ^ f.eb - 1) * 2 ^ f.mb - 1
  | 1 => 2 ^ (f.eb + f.mb) - 2
  | _ => 2 ^ (f.eb + f.mb) - 1

/-- The integer nearest to m · 2^e, ties to even; toward zero when `rtz`. -/
def roundInt (rtz : Bool) (m : Nat) (e : Int) : Nat :=
  if 0 ≤ e then m * 2 ^ e.toNat
  else
    let k := (-e).toNat
    let q := m / 2 ^ k
    let r := m % 2 ^ k
    let half := 2 ^ (k - 1)
    if !rtz && (decide (half < r) || (decide (r = half) && decide (q % 2 = 1))) then q + 1 else q

/-- Magnitude bits of m · 2^e (m > 0) rounded to a format; bits above `maxFinite` are an overflow. -/
def roundMag (f : FpFmt) (rtz : Bool) (m : Nat) (e : Int) : Nat :=
  let top : Int := (bitLen m : Int) - 1 + e
  let emin : Int := 1 - (f.bias : Nat)
  let ex := if top < emin then emin else top
  let n := roundInt rtz m (e - (ex - (f.mb : Nat)))
  (ex + (f.bias : Nat) - 1).toNat * 2 ^ f.mb + n

/-- rn32: rounded to FP32 under RNE, overflow to infinity. -/
def rn32 (v : Val) : Val :=
  match v with
  | .fin neg m e =>
    if m = 0 then .fin neg 0 0
    else
      let b := roundMag fmtFp32 false m e
      if maxFinite fmtFp32 < b then .inf neg else decodeFp fmtFp32 (b + (if neg then 2 ^ 31 else 0))
  | x => x

/-! Output formats (Table 12-4) -/

def outFp : OutFmt → Option FpFmt
  | .fp32 => some fmtFp32 | .bf16 => some fmtBf16 | .fp16 => some fmtFp16 | .e5m2 => some fmtE5m2 | .e4m3 => some fmtE4m3
  | _ => none

def outBytes : OutFmt → Nat
  | .fp32 => 4 | .bf16 => 2 | .fp16 => 2 | .e5m2 => 1 | .e4m3 => 1 | .int32 => 4 | .xacc => 96

/-- What an element leaves as: its bits, whether it saturated or overflowed, whether it is a NaN. -/
structure Out where
  bits : Nat
  sat : Bool
  nan : Bool
  deriving DecidableEq, Repr

/-- NaN codes of Table 12-4. -/
def nanCode : OutFmt → Nat
  | .fp32 => 0x7FC00000 | .bf16 => 0x7FC0 | .fp16 => 0x7E00 | .e5m2 => 0x7E | .e4m3 => 0x7F | _ => 0

/-- Round a value to a floating-point format (R270, Table 12-4). -/
def roundFp (o : OutFmt) (f : FpFmt) (rtz : Bool) (v : Val) : Out :=
  let sign (neg : Bool) : Nat := if neg then 2 ^ (f.eb + f.mb) else 0
  let infinity (neg : Bool) : Nat := sign neg + (2 ^ f.eb - 1) * 2 ^ f.mb
  match v with
  | .nan => ⟨nanCode o, false, true⟩
  | .inf neg => if o = .e4m3 then ⟨nanCode o, false, true⟩ else ⟨infinity neg, false, false⟩
  | .fin neg m e =>
    if m = 0 then ⟨sign neg, false, false⟩
    else
      let b := roundMag f rtz m e
      if b ≤ maxFinite f then ⟨sign neg + b, false, false⟩
      else if rtz || decide (o = .e4m3) then ⟨sign neg + maxFinite f, true, false⟩
      else ⟨infinity neg, true, false⟩

/-- INT32 results saturate; a result that is no integer has none. (DESIGN CHOICE: notes/assumptions/48.md) -/
def roundInt32 (v : Val) : Option Out :=
  match v with
  | .fin neg m e =>
    let n := roundInt true m e
    if roundInt false m e ≠ n then none
    else if neg then
      (if n ≤ 2 ^ 31 then some ⟨(2 ^ 32 - n) % 2 ^ 32, false, false⟩ else some ⟨0x80000000, true, false⟩)
    else if n < 2 ^ 31 then some ⟨n, false, false⟩ else some ⟨0x7FFFFFFF, true, false⟩
  | _ => none

/-- A rounded value in a format other than XACC; none when the spec states no result. -/
def roundVal (o : OutFmt) (rtz : Bool) (v : Val) : Option Out :=
  match outFp o with
  | some f => some (roundFp o f rtz v)
  | none => if o = .int32 then roundInt32 v else none

/-- The value that an element written in a format stands for. -/
def decodeOut (o : OutFmt) (b : Nat) : Val :=
  match outFp o with
  | some f => decodeFp f b
  | none => if b < 2 ^ 31 then .fin false b 0 else .fin true (2 ^ 32 - b) 0

/-! The exact accumulator (R267 – R269) -/

/-- VALUE in units of 2^(−320), the flags and CONTRIB. -/
structure Accum where
  value : Int
  nan : Bool
  pi : Bool
  ni : Bool
  nz : Bool
  contrib : Nat
  deriving DecidableEq, Repr

def Accum.empty : Accum := ⟨0, false, false, false, false, 0⟩

/-- Add one contribution. -/
def Accum.add (a : Accum) (v : Val) : Accum :=
  match v with
  | .nan => { a with nan := true, nz := true, contrib := a.contrib + 1 }
  | .inf neg => { a with pi := a.pi || !neg, ni := a.ni || neg, nz := true, contrib := a.contrib + 1 }
  | .fin neg m e =>
    let x : Int := (m * 2 ^ (e + 320).toNat : Nat)
    { a with value := a.value + (if neg then -x else x), nz := a.nz || !(neg && decide (m = 0)), contrib := a.contrib + 1 }

/-- Merge two accumulators (R273). -/
def Accum.merge (a b : Accum) : Accum :=
  ⟨a.value + b.value, a.nan || b.nan, a.pi || b.pi, a.ni || b.ni, a.nz || b.nz, a.contrib + b.contrib⟩

/-- CONTRIB has stayed below 2^60 (R268). -/
def Accum.inLimit (a : Accum) : Bool := decide (a.contrib < 2 ^ 60)

/-- The procedure round_out of R270 up to its last rounding. -/
def Accum.toVal (a : Accum) : Val :=
  if a.nan || (a.pi && a.ni) then .nan
  else if a.pi then .inf false
  else if a.ni then .inf true
  else if a.value = 0 then .fin (decide (0 < a.contrib) && !a.nz) 0 0
  else ofInt a.value (-320)

/-- The 96 bytes of an exact partial, as a number (R272). -/
def Accum.bits (a : Accum) : Nat :=
  let v := (if a.value < 0 then (2 ^ 704 : Int) + a.value else a.value).toNat % 2 ^ 704
  v + boolNat a.nan * 2 ^ 704 + boolNat a.pi * 2 ^ 705 + boolNat a.ni * 2 ^ 706 + boolNat a.nz * 2 ^ 707
    + (a.contrib % 2 ^ 60) * 2 ^ 708

/-- The accumulator that an exact partial holds. -/
def Accum.ofBits (b : Nat) : Accum :=
  let v : Nat := b % 2 ^ 704
  ⟨if v < 2 ^ 703 then (v : Int) else (v : Int) - (2 : Int) ^ 704, b.testBit 704, b.testBit 705, b.testBit 706, b.testBit 707,
    (b >>> 708) % 2 ^ 60⟩

/-- A valid exact partial (R273). -/
def Accum.valid (a : Accum) : Bool :=
  if a.contrib = 0 then decide (a.value = 0) && !a.nan && !a.pi && !a.ni && !a.nz
  else decide (a.value.natAbs < 2 ^ (286 + 320) * a.contrib)

/-! The special-function unit (R274) -/

/-- Integer square root, bit by bit from bit `n − 1`. -/
def isqrt : Nat → Nat → Nat → Nat
  | 0, _, r => r
  | n + 1, v, r => if (r + 2 ^ n) * (r + 2 ^ n) ≤ v then isqrt n v (r + 2 ^ n) else isqrt n v r

/-- A positive quantity known as q with something left over: 2q, or 2q + 1, in half units. -/
def sticky (neg : Bool) (q : Nat) (exact : Bool) (e : Int) : Val := .fin neg (if exact then 2 * q else 2 * q + 1) (e - 1)

/-- √x. (PRESUMED: notes/assumptions/47.md) -/
def sfuSqrt (v : Val) : Val :=
  match v with
  | .nan => .nan
  | .inf neg => if neg then .nan else .inf false
  | .fin neg m e =>
    if m = 0 then .fin neg 0 0
    else if neg then .nan
    else
      let e2 := if e % 2 = 0 then e else e - 1
      let big := (if e % 2 = 0 then m else 2 * m) * 2 ^ 128
      let r := isqrt 96 big 0
      rn32 (sticky false r (decide (r * r = big)) (e2 / 2 - 64))

/-- x / y. (PRESUMED: notes/assumptions/47.md) -/
def sfuDiv (x y : Val) : Val :=
  match x, y with
  | .nan, _ => .nan
  | _, .nan => .nan
  | .inf _, .inf _ => .nan
  | .inf a, .fin b _ _ => .inf (a != b)
  | .fin a _ _, .inf b => .fin (a != b) 0 0
  | .fin a m e, .fin b n k =>
    if n = 0 then (if m = 0 then .nan else .inf (a != b))
    else if m = 0 then .fin (a != b) 0 0
    else
      let big := m * 2 ^ 128
      rn32 (sticky (a != b) (big / n) (decide (big % n = 0)) (e - k - 128))

/-- 1 / √x. (PRESUMED: notes/assumptions/47.md) -/
def sfuRsqrt (v : Val) : Val :=
  match v with
  | .nan => .nan
  | .inf neg => if neg then .nan else .fin false 0 0
  | .fin neg m e =>
    if m = 0 then .inf neg
    else if neg then .nan
    else
      let odd := decide (e % 2 ≠ 0)
      let e2 := if odd then e - 1 else e
      let d := if odd then 2 * m else m
      let big := 2 ^ 256 / d
      let r := isqrt 130 big 0
      rn32 (sticky false r (decide (r * r * d = 2 ^ 256)) (-(e2 / 2) - 128))

/-- ln 2 in units of 2^(−256). (PRESUMED: notes/assumptions/47.md) -/
def ln2Fixed : Nat := 0xb17217f7d1cf79abc9e3b39803f2f6af40f343267298b62d8a0d175b8baafa2b

/-- Terms y^k / k! from k on, in units of 2^(−256). (PRESUMED: notes/assumptions/47.md) -/
def expTerms (y : Nat) : Nat → Nat → Nat → Nat
  | 0, _, _ => 0
  | n + 1, k, t => t + expTerms y n (k + 1) (t * y / 2 ^ 256 / (k + 1))

/-- 2^x. (PRESUMED: notes/assumptions/47.md) -/
def sfuExp2 (v : Val) : Val :=
  match v with
  | .nan => .nan
  | .inf neg => if neg then .fin false 0 0 else .inf false
  | .fin neg m e =>
    if Val.lt (.fin false 1 7) (.fin neg m e) then .inf false
    else if Val.lt (.fin neg m e) (.fin true 150 0) then .fin false 0 0
    else
      let mag : Int := (m * 2 ^ (e + 256).toNat : Nat)
      let x := if neg then -mag else mag
      let n := x / 2 ^ 256
      let f := (x % 2 ^ 256).toNat
      if f = 0 then rn32 (.fin false 1 n)
      else rn32 (sticky false (expTerms (f * ln2Fixed / 2 ^ 256) 64 0 (2 ^ 256)) false (n - 256))

/-- exp(x) = exp2(rn32(x × L)), L = 0x3FB8AA3B. (PRESUMED: notes/assumptions/47.md) -/
def sfuExp (v : Val) : Val := sfuExp2 (rn32 (v.mul (decodeFp fmtFp32 0x3FB8AA3B)))

/-- Bits of log2 of y / 2^512 for y from 2^512 up to 2^513. (PRESUMED: notes/assumptions/47.md) -/
def log2Bits : Nat → Nat → Nat → Nat
  | 0, _, acc => acc
  | n + 1, y, acc =>
    let z := y * y / 2 ^ 512
    if 2 ^ 513 ≤ z then log2Bits n (z / 2) (2 * acc + 1) else log2Bits n z (2 * acc)

/-- log2 x. (PRESUMED: notes/assumptions/47.md) -/
def sfuLog2 (v : Val) : Val :=
  match v with
  | .nan => .nan
  | .inf neg => if neg then .nan else .inf false
  | .fin neg m e =>
    if m = 0 then .inf true
    else if neg then .nan
    else
      let l := bitLen m
      let n : Int := (l : Int) - 1 + e
      if m = 2 ^ (l - 1) then rn32 (ofInt n 0)
      else
        let f := log2Bits 200 (m * 2 ^ 512 / 2 ^ (l - 1)) 0
        rn32 (ofInt (2 * (n * 2 ^ 200 + f) + 1) (-201))

/-! Operand formats -/

/-- Elements of a block of a format; format 0 holds INT8 (encoding 0) or exact partials. -/
def elemsPerBlock (format enc : Nat) : Nat :=
  match format with
  | 1 => 1024 | 2 => 2048 | 3 => 2048 | 4 => 4096 | 5 => 4096 | 6 => 3840 | 7 => 5120 | 8 => 7680
  | _ => if enc = 0 then 4096 else 42

/-- The float that a plain format code names. (PRESUMED: notes/assumptions/46.md) -/
def plainFmt : Nat → Option FpFmt
  | 1 => some fmtFp32 | 2 => some fmtBf16 | 3 => some fmtFp16 | 4 => some fmtE4m3 | 5 => some fmtE5m2 | _ => none

/-- The element format inside an MX group (R264). (PRESUMED: notes/assumptions/46.md) -/
def mxFmt (format enc : Nat) : FpFmt :=
  match format with
  | 6 => if enc = 0 then fmtE4m3 else fmtE5m2
  | 7 => if enc = 0 then fmtE2m3 else fmtE3m2
  | _ => fmtE2m1

/-- Element `i` of the groups of an MX sub-block (R60). (PRESUMED: notes/assumptions/46.md) -/
def mxElem (format enc : Nat) (sub : List Byte) (i : Nat) : Val :=
  let k := symCount format
  let w := match format with | 6 => 8 | 7 => 6 | _ => 4
  let bit := i * w
  let lo := k + bit / 8
  let word := (sub.getD lo 0).toNat * 256 + (sub.getD (lo + 1) 0).toNat
  let v := word >>> (16 - bit % 8 - w) % 2 ^ w
  (decodeScale (sub.getD (i / 32) 0).toNat).mul (decodeFp (mxFmt format enc) v)

/-- Element `i` of a block. -/
def blockElem (format enc : Nat) (data : List Byte) (i : Nat) : Val :=
  match plainFmt format with
  | some f => decodeFp f (leNat ((data.drop (i * elemBytes format)).take (elemBytes format)))
  | none =>
    if isMx format then
      let per := 32 * symCount format
      mxElem format enc ((data.drop (512 * (i / per))).take 512) (i % per)
    else decodeInt8 (data.getD i 0).toNat

/-- Exact partial `i` of a block. -/
def blockPartial (data : List Byte) (i : Nat) : Accum := Accum.ofBits (leNat ((data.drop (96 * i)).take 96))

/-- An operand as read: its format, encoding and blocks. -/
structure Operand where
  format : Nat
  enc : Nat
  blocks : List (List Byte)
  deriving DecidableEq, Repr

def Operand.none : Operand := ⟨1, 0, []⟩

def Operand.isXacc (o : Operand) : Bool := decide (o.format = 0) && decide (o.enc ≠ 0)

/-- Element `i` of an operand. -/
def Operand.elem (o : Operand) (i : Nat) : Val :=
  let per := elemsPerBlock o.format o.enc
  blockElem o.format o.enc (o.blocks.getD (i / per) []) (i % per)

def Operand.xacc (o : Operand) (i : Nat) : Accum := blockPartial (o.blocks.getD (i / 42) []) (i % 42)

/-- Pairs per lane and beat (Table 12-2); 0 for a pair that is no operation of the sheet. (DESIGN CHOICE: notes/assumptions/48.md) -/
def pairRate (a b : Operand) : Nat :=
  let cls (o : Operand) : Nat :=
    match o.format with
    | 1 => 1 | 2 => 2 | 3 => 2 | 4 => 3 | 5 => 3 | 6 => 5 | 7 => 6 | 8 => 6 | _ => if o.enc = 0 then 4 else 0
  match cls a, cls b with
  | 0, _ => 0
  | _, 0 => 0
  | 1, 4 => 0 | 4, 1 => 0
  | 1, _ => 1 | _, 1 => 1
  | 2, 2 => 8 | 2, 3 => 8 | 3, 2 => 8
  | 3, 3 => 16 | 4, 4 => 16
  | 5, 5 => 16 | 5, 6 => 16 | 6, 5 => 16
  | 6, 6 => 32
  | _, _ => 0

/-! Sums (R271, R275) -/

/-- A sum under way: exact, or the FP32 running sum. -/
inductive Sum where
  | exact (a : Accum)
  | running (v : Val)
  deriving DecidableEq, Repr

/-- The products of one beat, then those of the next, into an FP32 running sum. (DEDUCED: notes/assumptions/50.md) -/
def elasticSum (rate : Nat) : Nat → Val → List Val → Val
  | 0, r, _ => r
  | n + 1, r, l =>
    if l.isEmpty then r
    else
      let beat := rn32 ((l.take rate).foldl Val.add (.fin true 0 0))
      elasticSum rate n (rn32 (r.add beat)) (l.drop rate)

/-- The running sum that nothing has entered. -/
def elasticEmpty : Val := .fin true 0 0

/-- Products in ascending reduction index, summed in the mode of the recipe. -/
def sumProducts (elastic : Bool) (rate : Nat) (l : List Val) : Sum :=
  if elastic then .running (if l.isEmpty then Val.zero else elasticSum rate l.length elasticEmpty l) else .exact (l.foldl Accum.add Accum.empty)

/-- Partial sums of the logical rows, merged down a column. (DEDUCED: notes/assumptions/50.md) -/
def mergeRows (elastic : Bool) (rate n : Nat) (l : List (Nat × Val)) : Sum :=
  if elastic then
    .running (if l.isEmpty then Val.zero else (List.range 100).foldl (fun r row =>
      let mine := (l.filter (fun x => decide (Config.elasticRow n x.1 = row))).map (·.2)
      if mine.isEmpty then r else rn32 (r.add (elasticSum rate mine.length elasticEmpty mine))) elasticEmpty)
  else .exact ((l.map (·.2)).foldl Accum.add Accum.empty)

/-- A sum's value before its last rounding. -/
def Sum.val : Sum → Val
  | .exact a => a.toVal
  | .running v => v

/-- The sum written in a format; none when the spec states no result. -/
def Sum.out (o : OutFmt) (rtz : Bool) (s : Sum) : Option Out :=
  match s, o with
  | .exact a, .xacc => some ⟨a.bits, false, a.nan⟩
  | s, o => roundVal o rtz s.val

/-- The sum stays within the limit of R268. -/
def Sum.inLimit : Sum → Bool
  | .exact a => a.inLimit
  | .running _ => true

end Sys2Proof.Machine
end

