-- ==== Sys2Proof/Machine/Integrity.lean ====
section
/-! DEFINITION. Sys2Proof/Machine/Integrity.lean: icing, the toffee list, sparing, error injection and the recount of REFS
(chapter Integrity, Icing and Repair; rows ICING_BLOCK to REFS_RECOUNT_DONE). -/

namespace Sys2Proof.Machine

/-! Words and rows (R209) -/

/-- Tier, frame and tier address of a word of T1 or T2. -/
def wordTier (word : Nat) : Tier := if word / 64 < 2 * 2 ^ 36 then .t1 else if word / 64 < 3 * 2 ^ 36 then .t2 else .t3

def wordFrame (word : Nat) : Nat := word / 64 % 2 ^ 36 / 4096

def wordAddr (word : Nat) : Nat := (word / 64 % 2 ^ 36) * 4096 + word % 64 * 64

/-- The bits of a tier address that are base bits of no output, put together (R164). (PRESUMED: notes/assumptions/37.md) -/
def rowColumn (s : State) (t2 : Bool) (a : Nat) : Nat :=
  let bases := (List.range 13).filterMap (fun n => lowestBit (hashMask s t2 n))
  let free := ((List.range 48).filter (fun i => decide (6 ≤ i) && !bases.contains i))
  listSum (free.zipIdx.map (fun p => if a.testBit p.1 then 2 ^ p.2 else 0))

/-- What TFL_LAST and the repair log say of a word's row: of an on-die array, the array and the row. (DESIGN CHOICE: notes/assumptions/89.md) -/
def rowPlace (s : State) (word action : Nat) : TflLast :=
  if isSramWord word then ⟨action, 0, Config.sramUnit word % 256, 0, Config.sramRow word % 2 ^ 18, 0⟩
  else
  let t := wordTier word
  let a := wordAddr word
  let t2 := decide (t = .t2)
  let ch := frameChan s t (wordFrame word)
  { action := action, tier := tierIdx t,
    unit := if t2 then 4 * (ch - 256) + hashBits s true a 5 2 else ch,
    bank := if t2 then 4 * hashBits s true a 7 3 + hashBits s true a 10 2 else 4 * hashBits s false a 9 2 + hashBits s false a 11 2,
    row := Config.rowOf (rowColumn s t2 a) % 2 ^ 18, frame := wordFrame word }

/-- A row as the row-remap table of its tier numbers it: unit, bank and row. -/
def rowKey (x : TflLast) : Nat := x.unit * 2 ^ 23 + x.bank * 2 ^ 18 + x.row

/-- Two words of T1 or T2 lie in the same row. -/
def sameRow (s : State) (a b : Nat) : Bool :=
  !isSramWord a && !isSramWord b && decide (wordTier a = wordTier b) && decide (rowKey (rowPlace s a 0) = rowKey (rowPlace s b 0))

/-- Frames that hold crumbs of a word's row. -/
def rowFrames (s : State) (word : Nat) : List Nat :=
  let t := wordTier word
  (List.range (if t = .t1 then s.dram.frames1 else s.dram.frames2)).filter (fun f =>
    (List.range 262144).any (fun i => sameRow s word (64 * homeKey t f 0 + i)))

/-! Patrols (R199 – R203) -/

def patrolOf (s : State) : Tier → Patrol
  | .t1 => s.ice.p1 | .t2 => s.ice.p2 | .t3 => s.ice.p3

def setPatrol (t : Tier) (p : Patrol) (s : State) : State :=
  match t with
  | .t1 => { s with ice := { s.ice with p1 := p } }
  | .t2 => { s with ice := { s.ice with p2 := p } }
  | .t3 => { s with ice := { s.ice with p3 := p } }

/-- The slab whose home is a frame. -/
def slabAtFrame (s : State) (t : Tier) (frame : Nat) : Option Nat :=
  (s.ple.map.find? (fun p => decide (p.2.tier = some t) && decide (p.2.frame = frame) &&
    (match p.2.state with | .resident | .sealed | .moving => true | _ => false))).map (·.1)

/-- Home blocks that icing reads in a tier (R199): the NORMAL blocks of frames that a slab holds, but for those in the flash
poison record; and, since it reads the descriptors of the T1 metadata reserve and of the DDR5 descriptor areas too, the blocks
whose descriptor is uncorrectable. -/
def patrolled (s : State) (t : Tier) : List Nat :=
  let here : Nat → Bool := fun k => decide (homeKey t 0 0 ≤ k) && decide (k < homeKey t 0 0 + 2 ^ 36) &&
    match slabAtFrame s t ((k - homeKey t 0 0) / 4096) with
    | some slab => !(decide (t = .t3) && flashPoison s slab (k % 4096))
    | none => false
  (s.descs.filter (fun (p : Nat × Desc) => decide (p.2.state = .normal) && here p.1)).map (·.1) ++
    (s.plants.filter (fun (p : Nat × Plant) => decide (t ≠ .t3) && p.2.descUe && decide ((descAt s p.1).state ≠ .normal) && here p.1)).map (·.1)

/-- Period of a pass in ns (ICE_PERIOD). -/
def periodNs (s : State) (t : Tier) : Nat :=
  3600000000000 * (match t with
    | .t1 => fld s Pg.ice 0x400 9 0 | .t2 => fld s Pg.ice 0x400 19 10 | .t3 => fld s Pg.ice 0x400 29 20)

/-- Part of the current pass done, in permille. -/
def patrolDone (s : State) (t : Tier) : Nat :=
  let l := patrolled s t
  if l.isEmpty then 1000 else 1000 * l.countP (fun k => decide (k < (patrolOf s t).pos)) / l.length

/-- Lag behind schedule in permille of the period, and catch-up with its hysteresis (R202). -/
def settleLag (t : Tier) (s : State) : State :=
  let p := patrolOf s t
  if !p.active then s
  else
    let due := 1000 * (s.now - p.began) / periodNs s t
    let lag := min 1000 (due - patrolDone s t)
    let top := fld s Pg.ice 0x408 9 0
    setPatrol t { p with lag := lag, catchup := if p.catchup then decide (top ≤ 2 * lag) else decide (top < lag) } s

/-- The next home block of a pass, at or after a position. -/
def nextPatrolled (s : State) (t : Tier) (pos : Nat) : Option Nat :=
  ((patrolled s t).filter (fun k => decide (pos ≤ k))).foldl (fun a k => match a with
    | none => some k
    | some x => some (min x k)) none

/-- Icing writes a corrected block back and verifies it: its words reach the rewrite, and become HARD when the read-back
corrects them again (R200, R208). (DESIGN CHOICE: notes/assumptions/7.md) -/
def writeBack (slab b hb : Nat) (words : List Nat) (again : Bool) (s : State) : State :=
  let p := plantAt s hb
  let s1 := if again then s else setPlant hb { p with corr := p.corr.filter (fun c => !words.contains (64 * hb + c)) } s
  let s2 := { s1 with tfl := { s1.tfl with
    entries := s1.tfl.entries.map (fun e =>
      if words.contains e.word ∧ e.state = .counting then { e with state := .rewritten, time := s.now } else e),
    last := match words.getLast? with | some w => rowPlace s w 1 | none => s1.tfl.last } }
  let s3 := markDirty slab b (countBy Pg.tfl 0xE10 words.length s2)
  if again then words.foldl (fun s w => noteCorrection w s) s3 else s3

/-- Read one block on patrol and act on what is found (R200); in T3 `again` says that the hard decode of a codeword of its page
corrected more than 60 bits, and the slab is relocated. (DESIGN CHOICE: notes/assumptions/7.md, DESIGN CHOICE: notes/assumptions/38.md) -/
def iceBlock (t : Tier) (slab b hb : Nat) (again : Bool) (s : State) : State :=
  let ds := descAt s hb
  let met := ((plantAt s hb).corr.filter (fun c => decide (c < ds.crumbs))).map (fun c => 64 * hb + c)
  let s0 := if ds.state = .normal then count Pg.ice 0xE08 s else s
  match readHome Det.icing slab b s0 with
  | (.clean _ _, s1) =>
    let s2 := countBy Pg.ice 0xE10 met.length s1
    if t = .t3 then (if again then queueUrgent ((hb - homeKey .t3 0 0) / 4096) s2 else s2)
    else if met.isEmpty then s2 else writeBack slab b hb met again s2
  | (_, s1) => s1

/-- ICING_BLOCK: the next block of the patrol of a tier, or the end of a pass. (DESIGN CHOICE: notes/assumptions/7.md) -/
def execIcingBlock (read : IcingRead) (s : State) : Host.Outcome State Fault Refusal :=
  .next (whenAwake s (fun s =>
    let tier := read.tier
    if !s.dev.memEnabled then s
    else
      let p := patrolOf s tier
      let p1 := if p.active then p else { p with active := true, began := s.now, pos := 0 }
      match nextPatrolled s tier p1.pos with
      | none => setPatrol tier { p1 with passes := p1.passes + 1, began := s.now, pos := 0, lag := 0, catchup := false } s
      | some k =>
        let frame := (k - homeKey tier 0 0) / 4096
        let s1 := setPatrol tier { p1 with pos := k + 1 } s
        match slabAtFrame s tier frame with
        | some slab => settleLag tier (iceBlock tier slab (k % 4096) k read.again s1)
        | none => s1))

/-- ICE_DEFER_EXPIRY: in catch-up a deferred request enters class 3 of R169. (DESIGN CHOICE: notes/assumptions/6.md) -/
def execIceDeferExpiry (chan id : Nat) (s : State) : Host.Outcome State Fault Refusal :=
  .next (whenAwake s (fun s =>
    if s.ice.deferred.contains (chan, id) && (patrolOf s (if chan < 256 then .t1 else .t2)).catchup &&
        (waitingReqs (chanAt s chan)).any (fun r => decide (r.id = id) && decide (r.time + 1000 * fld s Pg.ice 0x408 31 16 ≤ s.now)) then
      settleDeferred chan (modChan chan (ageReq id) s)
    else s))

/-! Sparing (R208 – R210) -/

/-- A sparing action is recorded in TFL_LAST and reported. (DEDUCED: notes/assumptions/40.md) -/
def noteSparing (word action : Nat) (s : State) : State :=
  sparingEvent Pg.tfl { s with tfl := { s.tfl with last := rowPlace s word action } }

/-- Serial number of the stack, or of the DIMM that holds the rank, of a unit as TFL_LAST and the repair log number it. -/
def unitSerial (s : State) (t : Tier) (unit : Nat) : Nat := tget 0 s.dram.serials (if t = .t1 then unit / 32 else 8 + unit)

/-- The repair-log entry of a word's row. (DEDUCED: notes/assumptions/40.md) -/
def logRow (k : RepairKind) (word frame : Nat) (s : State) : State :=
  logRepair k (wordTier word) { rowPlace s word 0 with frame := frame } (unitSerial s (wordTier word) (rowPlace s word 0).unit) s

/-- Retire a frame: class-2 moves for the slab in it, then no slab gets it again (R209). -/
def retireFrame (t : Tier) (frame : Nat) (s : State) : State :=
  let s1 := match slabAtFrame s t frame with
    | some slab => (askMove slab 2 t (mapAt s slab).pool false s).2
    | none => s
  let d := s1.dram
  retireSlabs { s1 with dram := if t = .t1 then { d with retired1 := if d.retired1.contains frame then d.retired1 else d.retired1 ++ [frame] }
                                else { d with retired2 := if d.retired2.contains frame then d.retired2 else d.retired2 ++ [frame] } }

/-- Frames of a tier that are retired. -/
def retiredIn (s : State) (t : Tier) : List Nat := if t = .t1 then s.dram.retired1 else s.dram.retired2

/-- The row of a word is repaired in place or replaced by a spare row: correctable errors of its crumbs are gone. -/
def freshRow (word : Nat) (s : State) : State :=
  { s with plants := tmap Plant.none (fun hb p => { p with corr := p.corr.filter (fun c => !sameRow s word (64 * hb + c)) }) s.plants }

/-- Enter a row in the remap table of its tier. -/
def putRemap (t : Tier) (row : Nat) (s : State) : State :=
  { s with tfl := if t = .t1 then { s.tfl with remap1 := s.tfl.remap1 ++ [row] } else { s.tfl with remap2 := s.tfl.remap2 ++ [row] } }

/-- The row-remap table of a tier. -/
def remapOf (s : State) (t : Tier) : List Nat := if t = .t1 then s.tfl.remap1 else s.tfl.remap2

/-- Spare the row of a HARD word of T1 or T2 by the first available means (R209). (DEDUCED: notes/assumptions/40.md) -/
def spareWord (word : Nat) (sppr remap : Bool) (s : State) : State :=
  let t := wordTier word
  let s1 := { s with tfl := { s.tfl with entries := s.tfl.entries.map (fun e =>
    if e.word = word ∨ sameRow s word e.word then { e with spared := true } else e) } }
  if sppr && flag s Pg.tfl 0x400 16 then
    noteSparing word 2 (logRow .softRow word (wordFrame word) (count Pg.tfl 0xE20 (freshRow word s1)))
  else if remap && decide ((remapOf s t).length < 8192) then
    noteSparing word 3 (logRow .remapRow word (wordFrame word) (count Pg.tfl 0xE28
      (putRemap t (rowKey (rowPlace s word 0)) (freshRow word s1))))
  else
    noteSparing word 4 (((rowFrames s word).filter (fun f => !(retiredIn s t).contains f)).foldl (fun s f =>
      logRow .frame word f (count Pg.tfl 0xE30 (retireFrame t f s))) s1)

/-! Sparing on the die (R211) -/

/-- A tile fails: its row is to be rebuilt, and the event of a failed unit goes out (Table 01-8); a failure that is not forced
is logged (R296). (DESIGN CHOICE: notes/assumptions/10.md) -/
def failTile (row col cause : Nat) (s : State) : State :=
  if !tileGood s row col then s
  else
    let s1 := count Pg.sht 0xE28 (setTile row col { tileAt s row col with cause := cause } s)
    let s2 := unitEvent (Pg.row + row) (place row 8 8 + place col 0 8) (setSht { s1.sht with remapDue := true } s1)
    if cause = 7 then s2 else logRepair .tile .t1 ⟨0, 0, row, col, 0, cause⟩ 0 s2

/-- A row of an array is spared: counted, logged under the array's number (tile stores under 8, with their row and column),
recorded and reported. (DESIGN CHOICE: notes/assumptions/89.md) -/
def noteSram (word : Nat) (s : State) : State :=
  let n := sramArray word
  let x : TflLast := if n = SramKind.tile.code then ⟨0, 0, sramEntry word / 128, sramEntry word % 128, 0, n⟩ else ⟨0, 0, 0, 0, 0, n⟩
  noteSparing word 5 (logRepair .sramRow .t1 x 0 (count Pg.tfl 0xE38 (dropUpset word s)))

/-- A HARD word of a tile store takes a spare row of it, or the tile fails. -/
def spareTile (row col : Nat) (s : State) : State :=
  let t := tileAt s row col
  if 0 < t.spares then noteSram (sramWord .tile (tileKey row col)) (setTile row col { t with spares := t.spares - 1 } s)
  else failTile row col 4 s

/-- Spare rows of the map and of each control table at runtime. -/
def sramSpares (n : Nat) : Nat := if n = SramKind.map.code then 256 else if 2 ≤ n ∧ n ≤ 6 then 64 else 0

/-- Spare a HARD word of an on-die array: a tray-cache entry is disabled; the map and the control tables take a spare row, or
serve the word from its copy in T1. (DESIGN CHOICE: notes/assumptions/89.md) -/
def spareSram (word : Nat) (s : State) : State :=
  let n := sramArray word
  let s1 := { s with tfl := { s.tfl with entries := s.tfl.entries.map (fun e => if e.word = word then { e with spared := true } else e) } }
  if n = SramKind.tile.code then
    (if tileGood s1 (sramEntry word / 128) (sramEntry word % 128) then spareTile (sramEntry word / 128) (sramEntry word % 128) s1 else s1)
  else if n = SramKind.tray.code then
    let s2 := dropTray (sramEntry word / 4096) (sramEntry word % 4096) (dropUpset word s1)
    { s2 with sram := { s2.sram with trayDisabled := s2.sram.trayDisabled + 1 } }
  else if n = SramKind.buffer.code then s1
  else if tget 0 s1.sram.spares n < sramSpares n then
    noteSram word { s1 with sram := { s1.sram with spares := tput 0 s1.sram.spares n (tget 0 s1.sram.spares n + 1) } }
  else sparingEvent Pg.tfl { s1 with sram := { s1.sram with fromCopy := s1.sram.fromCopy ++ [word] } }

/-- The entry of a word becomes another one. -/
def setToffee (word : Nat) (f : Toffee → Toffee) (s : State) : State :=
  { s with tfl := { s.tfl with entries := s.tfl.entries.map (fun e => if e.word = word then f e else e) } }

/-- Spare a HARD word by the means of its array. -/
def spareAny (word : Nat) (sppr remap : Bool) (s : State) : State :=
  if isSramWord word then spareSram word s else spareWord word sppr remap s

/-- A rewrite of a crumb changes the home of its block (Table 08-4). -/
def rewriteWord (word : Nat) (s : State) : State :=
  match (if isSramWord word then none else slabAtFrame s (wordTier word) (wordFrame word)) with
  | some slab => markDirty slab (word / 64 % 4096) s
  | none => s

/-- A rewrite has corrected a word for good. -/
def correctWord (word : Nat) (s : State) : State :=
  if isSramWord word then dropUpset word s
  else
    let p := plantAt s (word / 64)
    setPlant (word / 64) { p with corr := p.corr.filter (fun c => decide (c ≠ word % 64)) } s

/-- TOFFEE_REWRITE: a COUNTING word that reached THRESH is rewritten and read back; `again` says that the read-back
corrected it, `sppr` and `remap` that the DRAM offers a soft repair and the tier a spare row. A HARD word is spared. (DESIGN CHOICE: notes/assumptions/7.md) -/
def execToffeeRewrite (word : Nat) (again sppr remap : Bool) (s : State) : Host.Outcome State Fault Refusal :=
  .next (whenAwake s (fun s =>
    match s.tfl.entries.find? (fun e => decide (e.word = word)) with
    | none => s
    | some e =>
      if e.state = .hard then (if e.spared then s else spareAny word sppr remap s)
      else if !rewriteDue s e then s
      else
        let s1 := rewriteWord word (count Pg.tfl 0xE10 { s with tfl := { s.tfl with last := rowPlace s word 1 } })
        if again then
          spareAny word sppr remap (count Pg.tfl 0xE18 (count Pg.tfl 0xE08
            (setToffee word (fun e => { e with state := .hard, count := e.count + 1, time := s.now }) s1)))
        else
          setToffee word (fun e => { e with state := .rewritten, time := s.now }) (correctWord word s1)))

/-- TOFFEE_EXPIRE: an entry has not changed within WINDOW_H. -/
def execToffeeExpire (word : Nat) (s : State) : Host.Outcome State Fault Refusal :=
  .next (whenAwake s (fun s =>
    if s.tfl.entries.any (fun e => decide (e.word = word) && decide (e.time + 3600000000000 * fld s Pg.tfl 0x400 15 8 ≤ s.now)) then
      count Pg.tfl 0xE48 { s with tfl := { s.tfl with entries := s.tfl.entries.filter (fun e => decide (e.word ≠ word)) } }
    else s))

/-! Injection (R215) -/

/-- A check value that is wrong. (DESIGN CHOICE: notes/assumptions/41.md) -/
def wrongValue (c : BitVec 32) (s : State) : BitVec 32 × State :=
  let (n, s1) := draw s
  (c ^^^ (if Config.wrongCrc n = 0 then 1 else Config.wrongCrc n), s1)

/-- Plant an error of a kind in the stored copy of a block. (DESIGN CHOICE: notes/assumptions/38.md, DESIGN CHOICE: notes/assumptions/41.md) -/
def plantError (kind crumb hb : Nat) (s : State) : State :=
  let p := plantAt s hb
  let d := descAt s hb
  match kind with
  | 0 => setPlant hb { p with corr := if p.corr.contains crumb then p.corr else p.corr ++ [crumb] } s
  | 1 => setPlant hb { p with ue := if p.ue.contains crumb then p.ue else p.ue ++ [crumb] } s
  | 2 => let (c, s1) := wrongValue d.crcA s; setDesc hb { d with crcA := c } s1
  | 3 => let (c, s1) := wrongValue d.copyB s; setDesc hb { d with copyB := c } s1
  | _ => setPlant hb { p with descUe := true } s

/-- The home of a block that ICE_INJECT accepts from function `w`. -/
def injectHome (s : State) (w kind crumb block : Nat) : Option Nat :=
  let e := mapAt s (block / 4096)
  match e.tier with
  | none => none
  | some t =>
    let hb := homeKey t e.frame (block % 4096)
    let d := descAt s hb
    if e.state ≠ .free ∧ e.state ≠ .retired ∧ ctxFn s (ownerOf s e) = w ∧ d.state = .normal ∧ (2 ≤ kind ∨ crumb < d.crumbs) then some hb
    else none

/-- ICE_INJECT: a write to the injection register; ARM plants the error at once. (DEDUCED: notes/assumptions/40.md) -/
def execIceInject (w : Nat) (value : Word) (s : State) : Host.Outcome State Fault Refusal :=
  .next (expertGate w Pg.ice 0x410 (fun s =>
    let kind := bits value 62 60
    let crumb := bits value 41 36
    let block := bits value 35 0
    let keep := BitVec.ofNat 64 (place kind 60 3 + place crumb 36 6 + place block 0 36)
    if 5 ≤ kind then noteErr Pg.ice kindRefusedValue .accessDenied 0x410 w s
    else if !bitOf value 63 then setReg Pg.ice 0x410 keep s
    else match injectHome s w kind crumb block with
      | some hb => plantError kind crumb hb (setReg Pg.ice 0x410 keep s)
      | none => noteErr Pg.ice kindRefusedState .accessDenied 0x410 w s) s)

/-! The recount of REFS (R195) -/

/-- A home block lies in the home of some slab. -/
def isHome (s : State) (hb : Nat) : Bool :=
  s.ple.map.any (fun p => match p.2.tier with
    | some t => decide (homeKey t p.2.frame 0 = hb / 4096 * 4096)
    | none => false)

/-- Descriptors in use that name a table. -/
def countRefs (s : State) (id : Nat) : Nat :=
  s.descs.countP (fun p => decide (codedTable p.2 = some id) && isHome s p.1)

/-- REFS_RECOUNT_DONE: the counts of LIVE and RETIRING tables are made right, and tables may go to QUARANTINE again. -/
def execRefsRecountDone (s : State) : Host.Outcome State Fault Refusal :=
  .next (whenAwake s (fun s =>
    if !s.ice.recount then s
    else
      let ids := tkeys (fun _ e => decide (e.state = .live) || decide (e.state = .retiring)) s.ppu.tables
      let s1 := ids.foldl (fun s id => modTable id (fun e => { e with refs := countRefs s id }) s)
        { s with ice := { s.ice with recount := false } }
      ids.foldl (fun s id => settleTable id s) s1))

end Sys2Proof.Machine
end

