-- ==== Sys2Proof/Machine/Rcp.lean ====
section
/-! DEFINITION. Sys2Proof/Machine/Rcp.lean: the end of a run, run notices, and the unloading of a recipe (R303, R305, R308, R315,
R365). -/

namespace Sys2Proof.Machine

/-- Post the two entries of a run notice, or drop it (R308, R365). -/
def postNotice (fn ring tag last : Nat) (st : Status) (s : State) : State :=
  let q := ringOf s fn ring
  if q.state = .active ∧ 2 ≤ cqFree q ∧ (func s fn).bme then
    let c : Cpl := { cid := 0xFFFF, status := st, sqHead := 0, phase := false, notice := 1, op := Opc.run, result := tag }
    writeCpl fn ring { c with notice := 2, result := last } (writeCpl fn ring c s)
  else count Pg.rcp 0xE58 s

/-- RESTART_STEP (R315): the highest step flagged RESTART, or 0, up to the lowest step known. -/
def restartStep (q : Recipe) (lowest : Nat) : Nat :=
  (List.range (lowest + 1)).foldl (fun a k => match q.img.steps[k]? with
    | some st => if st.restart then k else a
    | none => a) 0

/-- The value of RCP_RUN_LAST. -/
def runLastWord (x : RunLast) : Nat :=
  place x.status 48 16 + place x.handle 44 4 + place x.endStep 32 12 + place x.restart 20 12 + min x.delta 1048575

/-- Counter of an outcome (Table 13-13). -/
def outcomeCounter : Status → Nat
  | .ok => 0xE20 | .runFaulted => 0xE28 | .runAborted => 0xE30 | _ => 0xE38

/-- Unload a recipe: its table pins, stream demand, slots, freeze, memory and handle go in one update (R305). -/
def unloadRecipe (h : Nat) (s : State) : State :=
  match recipeAt s h with
  | none => s
  | some q =>
    let loads := s.rcp.loads.filter (fun l => decide (l.handle = h))
    let s1 := setRecipe h none { s with
      rlg := { s.rlg with streams := s.rlg.streams.filter (fun d => decide (d.handle ≠ h)) },
      rcp := { s.rcp with loads := s.rcp.loads.filter (fun l => decide (l.handle ≠ h)) } }
    let s2 := q.img.tables.foldl (fun s t => unpinTable t.1 s) s1
    settleScales (loads.foldl (fun s l => complete l.r Opc.loadRecipe .accessDenied 0 s) s2)

/-- Let go of the comparator of a run. -/
def freeRunComparator (n : Nat) (s : State) : State :=
  if (claimOf s n).user = .rcpRun then
    freeClaim n { s with ftb := { s.ftb with cmps := tput none s.ftb.cmps n none } }
  else s

/-- ENDING to LOADED (Table 13-7): comparator released, RUN completed on the lead, a notice posted elsewhere, commands that
waited for the end completed. -/
def finishRun (s : State) : State :=
  match s.rcp.run with
  | none => s
  | some r =>
    if r.state ≠ .ending then s
    else
      let q := recipeAt s r.handle
      let restart := match q with
        | some q => if r.outcome = .ok then 0 else restartStep q r.lowest
        | none => 0
      let last : RunLast := ⟨r.outcome.code, r.handle, r.step, restart, r.delta⟩
      let s1 := count Pg.rcp (outcomeCounter r.outcome) (countBy Pg.rcp 0xE50 r.delta
        (freeRunComparator r.cmp { s with rcp := { s.rcp with run := none, runLast := last } }))
      let s2 := match r.cmd, q with
        | some c, _ => complete c Opc.run r.outcome 0 s1
        | none, some q => postNotice q.fn q.ring q.tag (runLastWord last) r.outcome s1
        | none, none => s1
      let s2 := match q with | some q => poolCredits q false s2 | none => s2
      let s3 := if r.afterUnload then unloadRecipe r.handle s2 else s2
      r.waiters.foldl (fun s w => complete w.1 w.2 .ok 0 s) s3

/-- End any run of a recipe and unload it (R305). (DEDUCED: notes/assumptions/58.md) -/
def endAndUnload (h : Nat) (outcome : Status) (s : State) : State :=
  match s.rcp.run with
  | some r =>
    if r.handle = h then modRun (fun r => { r with afterUnload := true }) (endRun outcome s) else unloadRecipe h s
  | none => unloadRecipe h s

/-- An ARMED run returns to LOADED without having started. -/
def disarm (s : State) : State :=
  match s.rcp.run with
  | some r =>
    if r.state = .armed then
      freeRunComparator r.cmp (setRun none (match recipeAt s r.handle with | some q => poolCredits q false s | none => s))
    else s
  | none => s

end Sys2Proof.Machine
end

