-- ==== Sys2Proof/Machine/Sheet.lean ====
section
/-! DEFINITION. Sys2Proof/Machine/Sheet.lean: the steps of a run on the sheet, and its tiles (chapter The Sheet and Exact Arithmetic;
rows GEMM to TILE_TEST). -/

namespace Sys2Proof.Machine

/-! Reading operands (R276 – R279) -/

/-- Why a step cannot go on: a cause of Table 05-5 to wait for, with the slab that holds it, or a cause of Table 12-10 that ends it. -/
inductive Hold where
  | wait (cause slab : Nat)
  | fault (cause : Nat)
  deriving DecidableEq, Repr

/-- The access of a stream of a context (path 4). -/
def streamAsk (s : State) (ctx : Nat) (write : Bool) : Ask := ⟨4, ctxFn s ctx, ctx, none, write, false⟩

/-- The next block that a step reads is there: it is kept for a step that has to wait and is given again. -/
def gotBlock (data : List Byte) (r : Run) : Run := { r with got := r.got ++ [data], pos := r.pos + 1, asked := none }

/-- Read one block of a stream, checked at the edge. An access is checked and counted for heat once, also when its data comes
later (R51, R110). A block whose poison the full record did not take ends the step (R153). -/
def readStreamBlock (q : Recipe) (b : Nat) (s : State) : Except Hold (List Byte) × State :=
  let slab := b / 4096
  let asked := (s.rcp.run.bind (·.asked)).isSome
  match (if asked then (none, s) else checkAccess (streamAsk s q.ctx false) slab s) with
  | (some _, s1) => (.error (.fault 0xA), s1)
  | (none, s1) =>
    let s2 := if asked then s1 else modRun (fun r => { r with asked := some s1.ppu.current.toNat }) (touch slab s1)
    if readsZero (mapAt s2 slab) then (.ok (List.replicate 4096 0), modRun (gotBlock (List.replicate 4096 0)) s2)
    else if flashPoison s2 slab (b % 4096) then (.error (.wait 1 slab), s2)
    else if asked && s2.fmg.unentered.contains b then
      (.error (.fault 9), { s2 with fmg := { s2.fmg with unentered := s2.fmg.unentered.filter (fun k => decide (k ≠ b)) } })
    else
      let was := blockDesc s2 slab (b % 4096)
      match fetchBlock ⟨1, ctxFn s2 q.ctx, 1⟩ slab (b % 4096) s2 with
      | (.clean data _, s3) =>
        let edge : Bool := match codedTable was with
          | some id => decide (was.state = .normal) && !s3.sht.codeCache.any (fun t => decide (t.1 = id))
          | none => false
        (.ok data, releaseTables (modRun (gotBlock data) (if edge then count Pg.ppu 0xE28 s3 else s3)))
      | (.waits, s3) => (.error (.wait 2 slab), s3)
      | (.bad st, s3) =>
        (.error (.fault (if was.state = .normal ∧ (st = .decodeFault ∨ st = .checkMismatch) then 8 else 9)), s3)

/-- The next block that a step needs: one that it has read before it had to wait, or a read. -/
def nextBlock (q : Recipe) (b : Nat) (s : State) : Except Hold (List Byte) × State :=
  match s.rcp.run.bind (fun r => r.got[r.pos]?) with
  | some data => (.ok data, modRun (fun r => { r with pos := r.pos + 1 }) s)
  | none => readStreamBlock q b s

/-- Read `n` blocks of a stream from block `b` on. -/
def readStreamBlocks (q : Recipe) : Nat → Nat → State → Except Hold (List (List Byte)) × State
  | _, 0, s => (.ok [], s)
  | b, n + 1, s =>
    match nextBlock q b s with
    | (.error h, s1) => (.error h, s1)
    | (.ok d, s1) =>
      match readStreamBlocks q (b + 1) n s1 with
      | (.error h, s2) => (.error h, s2)
      | (.ok ds, s2) => (.ok (d :: ds), s2)

/-- First block of a stream. -/
def streamStart (q : Recipe) (i : Nat) : Nat := q.bind.getD i 0 / 4096

/-- Bytes that a port has received for the current step. (DEDUCED: notes/assumptions/53.md) -/
def received (r : Run) (fport : Nat) : List Byte :=
  (r.buffer.filter (fun t => decide (t.fport = fport) && decide (t.step = r.step))).flatMap (·.data)

/-- Bytes of elements that lie without gaps in a transfer. -/
def packedBytes (format enc n : Nat) : Nat :=
  if isMx format then 4096 * ceilDiv n (elemsPerBlock format enc)
  else if format = 0 ∧ enc ≠ 0 then 96 * n
  else if format = 0 then n else elemBytes format * n

/-- An operand of `n` elements. (DEDUCED: notes/assumptions/49.md) -/
def readOperand (r : Run) (q : Recipe) (src : Src) (n : Nat) (s : State) : Except Hold Operand × State :=
  match src with
  | .buffer p fmt enc =>
    let data := received r p
    if data.length < packedBytes fmt enc n then (.error (.wait 7 0), s)
    else
      let k := if fmt = 0 ∧ enc ≠ 0 then 4032 else 4096
      (.ok ⟨fmt, enc, chunks (ceilDiv data.length k) k data⟩, s)
  | .stream i off =>
    match q.img.streams[i]? with
    | none => (.error (.fault 0xA), s)
    | some d =>
      let nb := ceilDiv n (elemsPerBlock d.format d.mxEnc)
      if d.write || decide (d.length < off + nb) then (.error (.fault 0xA), s)
      else match readStreamBlocks q (streamStart q i + off) nb s with
        | (.error h, s1) => (.error h, s1)
        | (.ok bs, s1) => (.ok ⟨d.format, d.mxEnc, bs⟩, s1)

/-- Operands in order, with their lengths. -/
def readOperands (r : Run) (q : Recipe) : List (Src × Nat) → State → Except Hold (List Operand) × State
  | [], s => (.ok [], s)
  | (src, n) :: l, s =>
    match readOperand r q src n s with
    | (.error h, s1) => (.error h, s1)
    | (.ok o, s1) =>
      match readOperands r q l s1 with
      | (.error h, s2) => (.error h, s2)
      | (.ok os, s2) => (.ok (o :: os), s2)

/-! Writing results -/

/-- Elements of a result, each its bits or none when the spec states no result. -/
structure Result where
  bytes : Nat
  elems : List (Option Out)
  deriving DecidableEq, Repr

/-- Give every element its bits, count saturations and NaNs (R266). (DEDUCED: notes/assumptions/49.md) -/
def settleElems (bytes : Nat) : List (Option Out) → State → List Nat × State
  | [], s => ([], s)
  | some o :: l, s =>
    let s1 := if o.sat then count Pg.sht 0xE40 s else s
    let s2 := if o.nan then count Pg.sht 0xE48 s1 else s1
    let (bs, s3) := settleElems bytes l s2
    (o.bits :: bs, s3)
  | none :: l, s =>
    let (k, s1) := draw s
    let (bs, s2) := settleElems bytes l s1
    (Config.unstatedResult k % 2 ^ (8 * bytes) :: bs, s2)

/-- Blocks of results: whole elements from the first byte on; bytes 4,032 up of a block of exact partials are zero. (DESIGN CHOICE: notes/assumptions/51.md) -/
def packBlocks (bytes : Nat) (elems : List Nat) : List (List Byte) :=
  let per := 4096 / bytes
  (chunks (ceilDiv elems.length per) per elems).map (fun l =>
    let d := l.flatMap (leBytes bytes)
    d ++ (List.range (4096 - d.length)).map (fun i =>
      if per * bytes ≤ d.length + i then 0 else Config.padByte (d.length + i)))

/-- Slabs that a result of `n` blocks writes. -/
def dstSlabs (q : Recipe) (dst : Dst) (n : Nat) : List Nat :=
  match dst with
  | .stream i off => runSlabs (streamStart q i + off) n
  | .send _ => []

/-- The step may write a result there: within a WRITE stream, every slab passing the access check. -/
def dstAllowed (q : Recipe) (dst : Dst) (n : Nat) (s : State) : Bool × State :=
  match dst with
  | .send _ => (true, s)
  | .stream i off =>
    match q.img.streams[i]? with
    | none => (false, s)
    | some d =>
      if !d.write || decide (d.length < off + n) then (false, s)
      else match checkRun (streamAsk s q.ctx true) ((streamStart q i + off) / 4096) (dstSlabs q dst n).length s with
        | (some _, s1) => (false, s1)
        | (none, s1) => (true, s1)

/-- The format of a stream. (DESIGN CHOICE: notes/assumptions/51.md) -/
def streamFormat (q : Recipe) (i : Nat) : Nat := match q.img.streams[i]? with | some d => d.format | none => 0

/-- The table under which a block of a stream is stored: the one under which ENCODE coded it, else that of its descriptor;
none where no table is used (R69, R214). -/
def resultTable (s : State) (coded : Option Nat) (slab : Nat) (old : Desc) : Option Nat :=
  match coded with
  | some id => if s.dev.profile.compression = 0 || s.cdc.codecOff then none else some id
  | none => streamTable s slab old

/-- Store the blocks of a result at a stream, ENCODE's with FLAGS 0 (R289). (DESIGN CHOICE: notes/assumptions/51.md) -/
def storeStream (fmt : Nat) (coded : Option Nat) : Nat → List (List Byte) → State → State
  | _, [], s => s
  | b, d :: ds, s =>
    let s1 := meetDesc (b / 4096) (b % 4096) (touch (b / 4096) s)
    let t := resultTable s1 coded (b / 4096) (blockDesc s1 (b / 4096) (b % 4096))
    let flags := if coded.isSome then 0 else scopeFlag s1 (b / 4096) (b % 4096) t
    storeStream fmt coded (b + 1) ds (storeBlock (b / 4096) (b % 4096) fmt t flags d s1)

/-- Send bytes to the partner on a port as recipe transfers of a step. (DEDUCED: notes/assumptions/53.md) -/
def sendTransfer (fport step : Nat) (data : List Byte) (s : State) : State :=
  match s.rcp.run with
  | none => s
  | some r =>
    if !fportUp s fport then s
    else (chunks (ceilDiv data.length 4096) 4096 data).foldl (fun s d =>
      sendPkt fport { ctrlPkt s 0x20 (fportAt s fport).partner.dev (runSpec step r.delta 0) with length := d.length } d s) s

/-- Write a result of `elems` elements of `bytes` bytes; sent results go to the partner for its next step. (DEDUCED: notes/assumptions/53.md) -/
def putResult (q : Recipe) (step : Nat) (dst : Dst) (bytes : Nat) (elems : List Nat) (s : State) : State :=
  match dst with
  | .stream i off => storeStream (streamFormat q i) none (streamStart q i + off) (packBlocks bytes elems) s
  | .send p => sendTransfer p (step + 1) (elems.flatMap (leBytes bytes)) s

/-! The operations (R283 – R289) -/

def opAt (l : List Operand) (i : Nat) : Operand := l.getD i Operand.none

/-- Index of element (row, column) of a matrix that lies row by row; an MX operand lies along its reduction dimension
(R264), here the rows. -/
def downIndex (o : Operand) (rows cols row col : Nat) : Nat := if isMx o.format then col * rows + row else row * cols + col

/-- Exact partials of a result or operand fail R268 or R273. -/
def badSums (l : List Sum) : Bool := l.any (fun x => !x.inLimit)

/-- Exact partials among the first `n` of an operand are valid (R273). -/
def partialsValid (o : Operand) (n : Nat) : Bool := !o.isXacc || (List.range n).all (fun i => (o.xacc i).valid)

/-- Add an addend to a sum. -/
def addTo (o : Operand) (i : Nat) (x : Sum) : Sum :=
  match x with
  | .exact a => .exact (if o.isXacc then a.merge (o.xacc i) else a.add (o.elem i))
  | .running v => .running (rn32 (v.add (if o.isXacc then rn32 (o.xacc i).toVal else o.elem i)))

/-- GEMM: C[i, j] (R283). (DEDUCED: notes/assumptions/49.md, DEDUCED: notes/assumptions/50.md) -/
def gemmElem (elastic : Bool) (rate k n : Nat) (a b c : Operand) (addend : Bool) (i j : Nat) : Sum :=
  let prods := (List.range k).map (fun x => (a.elem (i * k + x)).mul (b.elem (downIndex b k n x j)))
  if elastic && addend && Config.addendFirst then
    let start : Sum := addTo c (i * n + j) (.running elasticEmpty)
    .running (elasticSum rate prods.length start.val prods)
  else
    let x := sumProducts elastic rate prods
    if addend then addTo c (i * n + j) x else x

/-- Scale by 2^e. -/
def Val.shift (e : Int) : Val → Val
  | .fin n m k => .fin n m (k + e)
  | x => x

/-- The dot product of row `i` of one operand with row `j` of another. -/
def dotRows (elastic : Bool) (rate d : Nat) (a b : Operand) (i j : Nat) : Sum :=
  sumProducts elastic rate ((List.range d).map (fun x => (a.elem (i * d + x)).mul (b.elem (j * d + x))))

/-- Key of a score in the tile stores. -/
def scoreKey (query key : Nat) : Nat := 2 ^ 32 * query + key

/-- The greatest of some values; none of no values. (DESIGN CHOICE: notes/assumptions/48.md) -/
def maxVal : List Val → Option Val
  | [] => none
  | v :: l => some (l.foldl Val.max v)

/-- One entry of TOPK: score bits and index. -/
structure TopEntry where
  score : Nat
  index : Nat
  deriving DecidableEq, Repr

/-- The total order of R286. -/
def topBefore (a b : TopEntry) : Bool :=
  let x := decodeFp fmtFp32 a.score
  let y := decodeFp fmtFp32 b.score
  y.lt x || (!x.lt y && decide (a.index < b.index))

def insertTop (e : TopEntry) : List TopEntry → List TopEntry
  | [] => [e]
  | x :: l => if topBefore e x then e :: x :: l else x :: insertTop e l

/-- The k best of some candidates, filled up as R286 gives. -/
def topK (k : Nat) (l : List TopEntry) : List TopEntry :=
  let best := ((l.filter (fun e => decide (decodeFp fmtFp32 e.score ≠ .nan))).foldl (fun a e => (insertTop e a).take k) []).take k
  best ++ List.replicate (k - best.length) ⟨0xFF800000, 0xFFFFFFFFFFFF⟩

/-- The 16 bytes of an entry, as a number. -/
def TopEntry.bits (e : TopEntry) : Nat := e.score + e.index % 2 ^ 48 * 2 ^ 64

/-- FP32 bits of a value. -/
def fp32Bits (v : Val) : Nat := (roundFp .fp32 fmtFp32 false v).bits

/-- rn32 of an exact sum of products and addends. -/
def sumExact (l : List Val) : Val := (l.foldl Accum.add Accum.empty).toVal

/-- ADAMW (R288), scalars b1, omb1, b2, omb2, c1, c2, eps, lr, lrwd: the results p1, m1, v1. -/
def adamw (o : OutFmt) (rtz : Bool) (c : Nat → Val) (p g m v : Val) : List (Option Out) :=
  let m1 := rn32 (sumExact [(c 0).mul m, (c 1).mul g])
  let h := rn32 (sumExact [(c 3).mul g])
  let v1 := rn32 (sumExact [(c 2).mul v, h.mul g])
  let x := sfuSqrt (rn32 (sumExact [(c 5).mul v1]))
  let d := rn32 (sumExact [x, c 6])
  let u := sfuDiv (rn32 (sumExact [(c 4).mul m1])) d
  let p1 := sumExact [p, ((c 7).mul u).neg, ((c 8).mul p).neg]
  [roundVal o rtz p1, some ⟨fp32Bits m1, false, false⟩, some ⟨fp32Bits v1, false, false⟩]

/-- SGDM (R288), scalars mu, wd, lr: the results p1, b1. -/
def sgdm (o : OutFmt) (rtz : Bool) (c : Nat → Val) (p g b : Val) : List (Option Out) :=
  let b1 := rn32 (sumExact [(c 0).mul b, g, (c 1).mul p])
  [roundVal o rtz (sumExact [p, ((c 2).mul b1).neg]), some ⟨fp32Bits b1, false, false⟩]

/-- SCALE_ADD (R288), scalars a, c. -/
def scaleAdd (o : OutFmt) (rtz : Bool) (c : Nat → Val) (x y : Val) : List (Option Out) :=
  [roundVal o rtz (sumExact [(c 0).mul x, (c 1).mul y])]

/-- What an operation forms: its results in the order of its outputs, or the cause of a STEP_FAULT. -/
inductive Formed where
  | results (l : List Result)
  | fault (cause : Nat)
  deriving DecidableEq, Repr

/-- Results of sums; a sum beyond R268 faults. -/
def formSums (o : OutFmt) (rtz : Bool) (l : List Sum) : Formed :=
  if badSums l then .fault 0xC else .results [⟨outBytes o, l.map (Sum.out o rtz)⟩]

/-- Results of operands whose pair is no operation of the sheet (R263): the spec states none. (DESIGN CHOICE: notes/assumptions/48.md) -/
def unformed (sizes : List (Nat × Nat)) : Formed := .results (sizes.map (fun x => ⟨x.1, List.replicate x.2 none⟩))

/-- The reduction length of MX operands is a multiple of 32 (R264); where it is not, no result is stated. (DESIGN CHOICE: notes/assumptions/48.md) -/
def mxWhole (n : Nat) (l : List Operand) : Bool := !l.any (fun x => isMx x.format) || n % 32 == 0

/-- The matrix product (R283). (DEDUCED: notes/assumptions/49.md) -/
def formGemm (elastic rtz : Bool) (m n k : Nat) (addend : Bool) (o : OutFmt) (l : List Operand) : Formed :=
  let rate := pairRate (opAt l 0) (opAt l 1)
  if rate = 0 || !mxWhole k [opAt l 0, opAt l 1] then unformed [(outBytes o, m * n)]
  else if addend && !partialsValid (opAt l 2) (m * n) then .fault 0xC
  else formSums o rtz ((List.range (m * n)).map (fun i =>
    gemmElem elastic rate k n (opAt l 0) (opAt l 1) (opAt l 2) addend (i / n) (i % n)))

/-- Scores and their maxima (R284): the maxima first. (DEDUCED: notes/assumptions/49.md) -/
def formBdot (elastic rtz : Bool) (queries keys d e : Nat) (o : OutFmt) (l : List Operand) : Formed :=
  let rate := pairRate (opAt l 0) (opAt l 1)
  if rate = 0 || !mxWhole d [opAt l 0, opAt l 1] then unformed [(outBytes o, queries), (outBytes o, queries * keys)]
  else
    let score (q i : Nat) : Option Out :=
      roundVal o rtz ((dotRows elastic rate d (opAt l 0) (opAt l 1) q i).val.shift ((e : Int) - 64))
    let best (q : Nat) : Option Out :=
      match maxVal ((List.range keys).filterMap (fun i => (score q i).map (fun x => decodeOut o x.bits))) with
      | some v => roundVal o rtz v
      | none => none
    .results [⟨outBytes o, (List.range queries).map best⟩,
              ⟨outBytes o, (List.range (queries * keys)).map (fun x => score (x / keys) (x % keys))⟩]

/-- Weighted sums of values and weights from the scores in the tile stores (R285). (DEDUCED: notes/assumptions/49.md) -/
def formSwsum (elastic rtz : Bool) (queries keys d : Nat) (normalize : Bool) (o : OutFmt) (score : Nat → Nat → Val)
    (l : List Operand) : Formed :=
  let values := opAt l 1
  let rate := pairRate Operand.none values
  if rate = 0 || !mxWhole keys [values] then
    unformed (if normalize then [(outBytes o, queries * d)] else [(outBytes o, queries * d), (outBytes o, queries)])
  else
    let w (q i : Nat) : Val := sfuExp (rn32 ((score q i).add ((opAt l 0).elem q).neg))
    let num (q x : Nat) : Sum :=
      mergeRows elastic rate keys ((List.range keys).map (fun i => (i, (w q i).mul (values.elem (downIndex values keys d i x)))))
    let den (q : Nat) : Sum := mergeRows elastic 1 keys ((List.range keys).map (fun i => (i, w q i)))
    let nums := (List.range (queries * d)).map (fun i => num (i / d) (i % d))
    let dens := (List.range queries).map den
    if badSums nums || badSums dens then .fault 0xC
    else if normalize then
      .results [⟨outBytes o, (List.range (queries * d)).map (fun i =>
        roundVal o rtz (sfuDiv (rn32 (num (i / d) (i % d)).val) (rn32 (den (i / d)).val)))⟩]
    else .results [⟨outBytes o, nums.map (Sum.out o rtz)⟩, ⟨outBytes o, dens.map (Sum.out o rtz)⟩]

/-- The k best candidates of each query, of scores that are exact in either mode (R286). -/
def formTopk (queries keys d k base : Nat) (l : List Operand) : Formed :=
  let rate := pairRate (opAt l 0) (opAt l 1)
  if rate = 0 || !mxWhole d [opAt l 0, opAt l 1] then unformed [(16, queries * k)]
  else
    .results [⟨16, (List.range queries).flatMap (fun q =>
      (topK k ((List.range keys).map (fun i =>
        { score := fp32Bits (dotRows false rate d (opAt l 0) (opAt l 1) q i).val, index := (base + i) % 2 ^ 48 }))).map
        (fun e => some ⟨e.bits, false, false⟩))⟩]

/-- Element `e` of vector `j`, of `per` vectors that each operand supplies. (DEDUCED: notes/assumptions/50.md) -/
def vecIndex (o : Operand) (per len j e : Nat) : Nat := downIndex o per len j e

/-- The sum or maximum of vectors (R287). -/
def formReduce (elastic rtz : Bool) (vectors len : Nat) (maximum : Bool) (o : OutFmt) (l : List Operand) : Formed :=
  let per := if l.isEmpty then 0 else ceilDiv vectors l.length
  if !mxWhole per l then unformed [(outBytes o, len)]
  else if !l.all (fun x => partialsValid x (per * len)) then .fault 0xC
  else
    let at_ (j e : Nat) : Operand × Nat := let x := opAt l (j / per); (x, vecIndex x per len (j % per) e)
    let value (j e : Nat) : Val := let (x, i) := at_ j e; if x.isXacc then (x.xacc i).toVal else x.elem i
    if maximum then
      .results [⟨outBytes o, (List.range len).map (fun e =>
        match maxVal ((List.range vectors).map (fun j => value j e)) with
        | some v => roundVal o rtz v
        | none => none)⟩]
    else if elastic then
      formSums o rtz ((List.range len).map (fun e => mergeRows true 1 vectors ((List.range vectors).map (fun j => (j, value j e)))))
    else
      formSums o rtz ((List.range len).map (fun e => (List.range vectors).foldl (fun s j => addTo (at_ j e).1 (at_ j e).2 s)
        (.exact Accum.empty)))

/-- Operands of an UPDATE rule. -/
def ruleIns : Rule → Nat
  | .adamw => 4 | .sgdm => 3 | .scaleAdd => 2

/-- The per-element rules (R288). -/
def formUpdate (rtz : Bool) (rule : Rule) (len : Nat) (scalars : List Nat) (o : OutFmt) (l : List Operand) : Formed :=
  let c (i : Nat) : Val := decodeFp fmtFp32 (scalars.getD i 0)
  let x (k i : Nat) : Val := (opAt l k).elem i
  let one (i : Nat) : List (Option Out) :=
    match rule with
    | .adamw => adamw o rtz c (x 0 i) (x 1 i) (x 2 i) (x 3 i)
    | .sgdm => sgdm o rtz c (x 0 i) (x 1 i) (x 2 i)
    | .scaleAdd => scaleAdd o rtz c (x 0 i) (x 1 i)
  let column (k : Nat) : List (Option Out) := (List.range len).map (fun i => ((one i).getD k none))
  match rule with
  | .adamw => .results [⟨outBytes o, column 0⟩, ⟨4, column 1⟩, ⟨4, column 2⟩]
  | .sgdm => .results [⟨outBytes o, column 0⟩, ⟨4, column 1⟩]
  | .scaleAdd => .results [⟨outBytes o, column 0⟩]

/-! Tiles (R291 – R296) -/

/-- f_r. -/
def rowFailed (s : State) (row : Nat) : Nat := countBelow 102 (fun c => decide ((tileAt s row c).cause ≠ 0))

/-- The logical column that a tile serves; 127 for none (R293). -/
def logicalCol (s : State) (row col : Nat) : Nat :=
  let j := countBelow col (fun c => decide ((tileAt s row c).cause = 0))
  if (tileAt s row col).cause ≠ 0 ∨ s.sht.cols ≤ j then 127 else j

/-- C (R294). -/
def columnsOf (s : State) : Nat := min 100 (102 - listMax ((List.range 100).map (rowFailed s)))

/-- A tile failure with STEP_FAULT. (DEDUCED: notes/assumptions/55.md) -/
def tileFault (cause row col : Nat) (fails : Bool) (s : State) : State :=
  let j := logicalCol s row col
  let s1 := stepFault cause row col j s
  if fails then failTile row col cause s1 else s1

/-- Entries of the last 24 hours. -/
def lastDay (s : State) (l : List Nat) : List Nat := l.filter (fun t => decide (s.now < t + 86400000000000))

/-- Coded blocks of the streams that the current step reads. -/
def codedBlocks (s : State) : List Nat :=
  match runStep s with
  | none => []
  | some (_, q, st) =>
    (st.ins.flatMap (fun x => match x with
      | .stream i off => (List.range ((match q.img.streams[i]? with | some d => d.length | none => 0) - off)).map
          (fun n => streamStart q i + off + n)
      | .buffer .. => [])).filter (fun b => (codedTable (blockDesc s (b / 4096) (b % 4096))).isSome)

/-- A transit failure at a tile expander: which check of C1 to C5 failed, in which sub-stream and on which coded block of the
step is not stated to the model. (DEDUCED: notes/assumptions/55.md) -/
def noteTransit (s : State) : State :=
  let (k, s1) := draw s
  let check := 1 + Config.unstated k % 5
  let l := codedBlocks s
  let b := l.getD (Config.unstated (k + 2) % l.length) (Config.unstated (k + 2) % 2 ^ 36)
  let table := (blockDesc s (b / 4096) (b % 4096)).table
  count Pg.cdc 0xE40 { s1 with cdc := { s1.cdc with fault :=
    ⟨check, 2, if check ≤ 2 then 0 else Config.unstated (k + 1) % 8, table, b⟩ } }

/-- An uncorrectable tile-store word: the step faults, and the second in a tile within 24 hours fails the tile. (DEDUCED: notes/assumptions/55.md) -/
def storeFault (row col : Nat) (s : State) : State :=
  if !tileGood s row col then s
  else
    let t := tileAt s row col
    let l := lastDay s t.storeUe
    tileFault 3 row col (decide (1 ≤ l.length)) (errUncorr Pg.sht (setTile row col { t with storeUe := l ++ [s.now] } s))

/-- A word of the store of a tile that a step meets (R190): a single error is corrected, counted and entered in the toffee list; an
uncorrectable one ends the step at its tile. -/
def meetTile (row col : Nat) (u : Upset) (a : Option (Nat × Nat) × State) : Option (Nat × Nat) × State :=
  if !tileGood a.2 row col then a
  else if u.ue then (if a.1.isSome then a else (some (row, col), a.2))
  else
    let t := tileAt a.2 row col
    (a.1, noteCorrection u.word (errCorr Pg.sht (setTile row col { t with corrected := t.corrected + 1 } a.2)))

/-- The words of good tile stores that a step meets: the first tile that ends it, if one does. -/
def meetTiles (s : State) : Option (Nat × Nat) × State :=
  (s.sram.upsets.filter (fun u => decide (sramArray u.word = SramKind.tile.code))).foldl
    (fun a u => meetTile (sramEntry u.word / 128) (sramEntry u.word % 128) u a) (none, s)

/-- A step that goes on unless a tile store fails it. -/
def throughTiles (body : State → State) (s : State) : State :=
  match meetTiles s with
  | (some (row, col), s1) => storeFault row col s1
  | (none, s1) => body s1

/-! A step on the sheet (R280 – R282, R292, R309) -/

/-- Time of a run that lies `slots` slot units behind its start with its offset applied, in quarter nanoseconds. -/
def runTime (r : Run) (t0 slots : Nat) : Nat := 4 * (t0 + 1024 * r.delta) + slots

/-- S_FROM. (DESIGN CHOICE: notes/assumptions/6.md) -/
def fromStart (r : Run) (q : Recipe) : Nat := match q.img.steps[r.fromStep]? with | some x => x.start | none => 0

/-- The step may start: its run is under way, the sheet takes a step, and its time has come (R309). (DEDUCED: notes/assumptions/53.md) -/
def startable (s : State) (r : Run) (q : Recipe) (st : StepRec) : Bool :=
  stepRuns s && !r.computed && decide (s.sht.state = .idle) && !s.sht.remapDue && !s.sht.zeroing && !s.ppm.stop &&
    match r.t0 with
    | none => false
    | some t0 => if q.img.elastic then decide (t0 ≤ s.now) else decide (runTime r t0 (st.start - fromStart r q) ≤ 4 * s.now)

/-- A step that cannot go on waits, or ends with STEP_FAULT. -/
def holdStep (h : Hold) (s : State) : State :=
  match h with
  | .wait c slab => modRun (fun r => { r with waiting := 2 ^ c, waitSlab := slab, pos := 0 }) s
  | .fault c => stepFaultAt c s

/-- Blocks that a step sends, read from their streams. (DEDUCED: notes/assumptions/53.md) -/
def readSends (q : Recipe) : List SendRec → State → Except Hold (List (Nat × List Byte)) × State
  | [], s => (.ok [], s)
  | x :: l, s =>
    match readStreamBlocks q (streamStart q x.stream + x.off) x.blocks s with
    | (.error h, s1) => (.error h, s1)
    | (.ok bs, s1) =>
      match readSends q l s1 with
      | (.error h, s2) => (.error h, s2)
      | (.ok ds, s2) => (.ok ((x.fport, bs.flatten) :: ds), s2)

/-- Send what a step sends, once. (DEDUCED: notes/assumptions/53.md) -/
def sendStep (r : Run) (q : Recipe) (st : StepRec) (s : State) : Except Hold Unit × State :=
  if r.sent then (.ok (), s)
  else match readSends q st.sends s with
    | (.error h, s1) => (.error h, s1)
    | (.ok ds, s1) =>
      (.ok (), modRun (fun r => { r with sent := true, got := [], pos := 0 }) (ds.foldl (fun s x => sendTransfer x.1 r.step x.2 s) s1))

/-- The sheet has formed the results of the step. -/
def stepFormed (q : Recipe) (st : StepRec) (s : State) : State :=
  modRun (fun r => { r with computed := true, waiting := 0, got := [], pos := 0 })
    (setSht { s.sht with state := .streaming, op := st.op.code, elastic := q.img.elastic, rtz := st.rtz, ctx := q.ctx } s)

/-- Every destination may be written. -/
def allAllowed (q : Recipe) (l : List (Dst × Nat)) (s : State) : Bool × State :=
  l.foldl (fun a x => let b := dstAllowed q x.1 x.2 a.2; (a.1 && b.1, b.2)) (true, s)

def resultBlocks (x : Result) : Nat := ceilDiv x.elems.length (4096 / x.bytes)

/-- The first slab that takes no write now. -/
def busySlab (s : State) (l : List Nat) : Nat := (l.find? (fun k => !(prepareWrite k s).1)).getD 0

/-- Settle the elements of every result. (DEDUCED: notes/assumptions/31.md) -/
def settleResults : List Result → State → List (Nat × List Nat) × State
  | [], s => ([], s)
  | x :: l, s =>
    let (a, s1) := settleElems x.bytes x.elems s
    let (as, s2) := settleResults l s1
    ((x.bytes, a) :: as, s2)

/-- Write the results of a step; `keep` holds what stays in the tile stores. -/
def storeResults (q : Recipe) (st : StepRec) (step : Nat) (l : List Result) (keep : List (List Nat) → State → State) (s : State) :
    State :=
  let outs := st.outs.zip l
  match allAllowed q (outs.map (fun x => (x.1, resultBlocks x.2))) s with
  | (false, s1) => stepFaultAt 0xA s1
  | (true, s1) =>
    match prepareAll ((outs.flatMap (fun x => dstSlabs q x.1 (resultBlocks x.2))).eraseDups) s1 with
    | (false, s2) => holdStep (.wait 3 (busySlab s1 (outs.flatMap (fun x => dstSlabs q x.1 (resultBlocks x.2))))) s2
    | (true, s2) =>
      throughTiles (fun s2 =>
        let (vals, s3) := settleResults l s2
        stepFormed q st (keep (vals.map (·.2)) ((st.outs.zip vals).foldl (fun s x => putResult q step x.1 x.2.1 x.2.2 s) s3))) s2

/-- Run the current step of the run when its operation is `code`: read its operands, form and write its results. (DEDUCED: notes/assumptions/53.md) -/
def sheetStep (code : Nat) (lens : StepRec → List Nat) (form : Bool → StepRec → State → List Operand → Formed)
    (keep : StepRec → List (List Nat) → State → State) (s : State) : State :=
  match runStep s with
  | none => s
  | some (r, q, st) =>
    if st.op.code ≠ code ∨ !startable s r q st then s
    else match sendStep r q st s with
      | (.error h, s1) => holdStep h s1
      | (.ok _, s1) =>
        match readOperands r q (st.ins.zip (lens st)) s1 with
        | (.error h, s2) => holdStep h s2
        | (.ok os, s2) =>
          match form q.img.elastic st s2 os with
          | .fault c => stepFaultAt c s2
          | .results l => storeResults q st r.step l (keep st) s2

def keepNothing (_ : StepRec) (_ : List (List Nat)) (s : State) : State := s

/-- GEMM. -/
def execGemm (s : State) : Host.Outcome State Fault Refusal :=
  .next (whenAwake s (sheetStep 1
    (fun st => match st.op with
      | .gemm m n k addend _ => [m * k, k * n] ++ (if addend then [m * n] else [])
      | _ => [])
    (fun e st _ l => match st.op with
      | .gemm m n k addend o => formGemm e st.rtz m n k addend o l
      | _ => .results []) keepNothing))

/-- The scores of a BDOT stay in the tile stores. -/
def keepScores (st : StepRec) (vals : List (List Nat)) (s : State) : State :=
  match st.op with
  | .bdot _ keys _ _ o _ =>
    let l := vals.getD 1 []
    setSht { s.sht with
      scores := ((List.range l.length).zip l).foldl (fun t x => tput 0 t (scoreKey (x.1 / keys) (x.1 % keys)) x.2) s.sht.scores,
      scoreFmt := o } s
  | _ => s

/-- BDOT. -/
def execBdot (s : State) : Host.Outcome State Fault Refusal :=
  .next (whenAwake s (sheetStep 2
    (fun st => match st.op with
      | .bdot queries keys d _ _ _ => [queries * d, keys * d]
      | _ => [])
    (fun e st _ l => match st.op with
      | .bdot queries keys d x o _ => formBdot e st.rtz queries keys d x o l
      | _ => .results []) keepScores))

/-- SWSUM. -/
def execSwsum (s : State) : Host.Outcome State Fault Refusal :=
  .next (whenAwake s (sheetStep 3
    (fun st => match st.op with
      | .swsum queries keys d _ _ => [queries, keys * d]
      | _ => [])
    (fun e st s l => match st.op with
      | .swsum queries keys d normalize o =>
        formSwsum e st.rtz queries keys d normalize o (fun q i => decodeOut s.sht.scoreFmt (tget 0 s.sht.scores (scoreKey q i))) l
      | _ => .results []) keepNothing))

/-- TOPK. -/
def execTopk (s : State) : Host.Outcome State Fault Refusal :=
  .next (whenAwake s (sheetStep 4
    (fun st => match st.op with
      | .topk queries keys d _ _ => [queries * d, keys * d]
      | _ => [])
    (fun _ st _ l => match st.op with
      | .topk queries keys d k base => formTopk queries keys d k base l
      | _ => .results []) keepNothing))

/-- REDUCE. -/
def execReduce (s : State) : Host.Outcome State Fault Refusal :=
  .next (whenAwake s (sheetStep 5
    (fun st => match st.op with
      | .reduce vectors len _ _ => List.replicate st.ins.length (ceilDiv vectors st.ins.length * len)
      | _ => [])
    (fun e st _ l => match st.op with
      | .reduce vectors len maximum o => formReduce e st.rtz vectors len maximum o l
      | _ => .results []) keepNothing))

/-- UPDATE. -/
def execUpdate (s : State) : Host.Outcome State Fault Refusal :=
  .next (whenAwake s (sheetStep 6
    (fun st => match st.op with
      | .update rule len _ _ => List.replicate (ruleIns rule) len
      | _ => [])
    (fun _ st _ l => match st.op with
      | .update rule len scalars o => formUpdate st.rtz rule len scalars o l
      | _ => .results []) keepNothing))

/-- Blocks that ENCODE streams: from a stream or from a port. -/
def readRaw (r : Run) (q : Recipe) (src : Src) (n : Nat) (s : State) : Except Hold (Nat × List (List Byte)) × State :=
  match src with
  | .buffer p fmt _ =>
    let data := received r p
    if data.length < 4096 * n then (.error (.wait 7 0), s) else (.ok (fmt, chunks n 4096 data), s)
  | .stream i off =>
    if (match q.img.streams[i]? with | some d => d.write || decide (d.length < off + n) | none => true) then
      (.error (.fault 0xA), s)
    else match readStreamBlocks q (streamStart q i + off) n s with
      | (.error h, s1) => (.error h, s1)
      | (.ok bs, s1) => (.ok (streamFormat q i, bs), s1)

/-- The form in which ENCODE sends a block: its crumbs under the table in the code caches, or raw (R289). (DESIGN CHOICE: notes/assumptions/51.md) -/
def encodedBytes (table : Option (List Byte)) (id fmt : Nat) (data : List Byte) : List Byte :=
  match table with
  | none => data
  | some t =>
    if tableFormat t ≠ fmt then data
    else match encodeBlock t id 0 data with
      | some (cs, _) => cs
      | none => data

/-- A table in the code caches of the tiles. -/
def cachedTable (s : State) (id : Nat) : Option (List Byte) := (s.sht.codeCache.find? (fun t => decide (t.1 = id))).map (·.2)

/-- Put the blocks that ENCODE coded. (DESIGN CHOICE: notes/assumptions/51.md) -/
def putEncoded (q : Recipe) (step : Nat) (dst : Dst) (id fmt : Nat) (bs : List (List Byte)) (s : State) : State :=
  match dst with
  | .stream i off =>
    storeStream fmt (if (cachedTable s id).isSome then some id else none) (streamStart q i + off) bs s
  | .send p => sendTransfer p (step + 1) (bs.flatMap (encodedBytes (cachedTable s id) id fmt)) s

/-- ENCODE: one input, one output. -/
def encodeStep (r : Run) (q : Recipe) (st : StepRec) (len id : Nat) (s : State) : State :=
  match st.ins, st.outs with
  | src :: _, dst :: _ =>
    match readRaw r q src len s with
    | (.error h, s1) => holdStep h s1
    | (.ok (fmt, bs), s1) =>
      match dstAllowed q dst len s1 with
      | (false, s2) => stepFaultAt 0xA s2
      | (true, s2) =>
        match prepareAll (dstSlabs q dst len) s2 with
        | (false, s3) => holdStep (.wait 3 (busySlab s2 (dstSlabs q dst len))) s3
        | (true, s3) => throughTiles (fun s3 => stepFormed q st (putEncoded q r.step dst id fmt bs s3)) s3
  | _, _ => stepFormed q st s

/-- ENCODE. -/
def execEncode (s : State) : Host.Outcome State Fault Refusal :=
  .next (whenAwake s (fun s =>
    match runStep s with
    | none => s
    | some (r, q, st) =>
      match st.op with
      | .encode len id =>
        if !startable s r q st then s
        else match sendStep r q st s with
          | (.error h, s1) => holdStep h s1
          | (.ok _, s1) => encodeStep r q st len id s1
      | _ => s))

/-! The end of a step, and stalls (R132, R309, R310) -/

/-- A counter that grows by an amount which the spec does not state. (DESIGN CHOICE: notes/assumptions/52.md) -/
def countFree (p off : Nat) (s : State) : State :=
  let (k, s1) := draw s
  countBy p off (Config.unstated k) s1

/-- The run goes on to its next step, or ends. -/
def nextStep (q : Recipe) (s : State) : State :=
  match s.rcp.run with
  | none => s
  | some r =>
    if r.step + 1 < q.img.steps.length then
      returnStep (r.buffer.filter (fun t => decide (t.step ≤ r.step)))
        (setRun (some { r with step := r.step + 1, sent := false, computed := false, waiting := 0, adopted := false,
                               buffer := r.buffer.filter (fun t => decide (r.step < t.step)) }) s)
    else endRun .ok s

/-- STEP_COMPLETE. (DESIGN CHOICE: notes/assumptions/52.md) -/
def execStepComplete (s : State) : Host.Outcome State Fault Refusal :=
  .next (whenAwake s (fun s =>
    match runRecipe s with
    | none => s
    | some (r, q) =>
      if !stepRuns s || !r.computed then s
      else
        let s1 := setSht { s.sht with state := .idle } s
        let s2 := endStall (countFree Pg.sht 0xE38 (countFree Pg.sht 0xE30 (countFree Pg.sht 0xE10 (count Pg.sht 0xE08 s1))))
        let rose := match s2.rcp.run with | some r2 => decide (r.delta < r2.delta) | none => false
        nextStep q (if rose then sendTokens 0x21 0 none s2 else s2)))

/-- Streams that a step uses. -/
def stepStreams (st : StepRec) : List Nat :=
  st.ins.filterMap (fun x => match x with | .stream i _ => some i | .buffer .. => none) ++
    st.outs.filterMap (fun x => match x with | .stream i _ => some i | .send _ => none) ++ st.sends.map (·.stream)

/-- Controllers that the streams of the current step count on. -/
def stepCtrls (s : State) : List Nat :=
  match runStep s with
  | none => []
  | some (r, _, st) =>
    (s.rlg.streams.filter (fun d => decide (d.handle = r.handle) && (stepStreams st).contains d.stream)).flatMap (fun d => d.homes.map (·.2))

/-- Causes of Table 05-5 in force beside those the step met: catch-up refresh of a controller that the step uses (R181), a
thermal stop or a controller of it in ABOVE_HOT (R183), pace below the floor. (DESIGN CHOICE: notes/assumptions/54.md) -/
def standingCauses (s : State) : Nat :=
  (if (stepCtrls s).any (fun c => (chansOf c).any (inCatchup s)) then 2 ^ 4 else 0) +
  (if s.ppm.stop || (stepCtrls s).any (fun c => decide (c < 24) && decide ((ctrlAt s c).range = 2)) then 2 ^ 5 else 0) +
  (if s.ppm.shortfall then 2 ^ 6 else 0)

/-- The lowest cause in a set. (DESIGN CHOICE: notes/assumptions/54.md) -/
def lowestCause (m : Nat) : Option Nat := [1, 2, 3, 4, 5, 6, 7].find? (fun c => m.testBit c)

/-- STEP_DEADLINE: the step is not complete at its deadline. `held` has bit n set for each cause n of Table 05-5 that held
it and that the model does not see. (DESIGN CHOICE: notes/assumptions/54.md) -/
def execStepDeadline (held : Nat) (s : State) : Host.Outcome State Fault Refusal :=
  .next (whenAwake s (fun s =>
    match runStep s with
    | none => s
    | some (r, q, st) =>
      match r.t0, lowestCause (r.waiting ||| held ||| standingCauses s) with
      | some t0, some c =>
        let due := runTime r t0 (st.start + st.window - fromStart r q)
        if r.state ≠ .running ∨ 4 * s.now ≤ due ∨ (c = 7 ∧ r.adopted) then s
        else
          let s1 := { s with mge := { s.mge with stallCause := c, stallCtx := q.ctx, stallSlab := if c ≤ 3 then r.waitSlab else 0 } }
          sendTokens 0x21 0 none (count Pg.mge (0xE48 + 8 * (c - 1))
            (setRun (some { r with state := .stalled, stallAt := ceilDiv due 4, cause := c }) s1))
      | _, _ => s))

/-! Commands on tiles (R291 – R297) -/

/-- HANDSHAKE_TIMEOUT. (DESIGN CHOICE: notes/assumptions/6.md) -/
def execHandshakeTimeout (row col : Nat) (s : State) : Host.Outcome State Fault Refusal :=
  .next (whenAwake s (fun s => if tileGood s row col && stepRuns s then tileFault 1 row col true s else s))

/-- STEP_FAULT (Table 12-10): a residue, tile-store or transit fault of a tile, or a fault that names no tile. (DEDUCED: notes/assumptions/55.md) -/
def execStepFault (cause row col : Nat) (s : State) : Host.Outcome State Fault Refusal :=
  .next (whenAwake s (fun s =>
    if cause = 4 then
      if tileGood s row col then spareTile row col s else s
    else if !stepRuns s then s
    else if cause = 2 then (if tileGood s row col then tileFault 2 row col true s else s)
    else if cause = 3 then storeFault row col s
    else if cause = 5 then
      if !tileGood s row col then s
      else
        let t := tileAt s row col
        let l := lastDay s t.transit ++ [s.now]
        tileFault 5 row col (decide (fld s Pg.sht 0x400 3 0 ≤ l.length)) (noteTransit (setTile row col { t with transit := l } s))
    else if 8 ≤ cause ∧ cause ≤ 0xC then stepFaultAt cause s
    else s))

/-- ROW_REMAP: the row maps are rebuilt between steps, and C is recomputed (R293, R294). -/
def execRowRemap (s : State) : Host.Outcome State Fault Refusal :=
  .next (whenAwake s (fun s =>
    if !s.sht.remapDue || (decide (s.sht.state ≠ .idle) && decide (s.sht.state ≠ .unavailable)) then s
    else
      let c := columnsOf s
      let s1 := count Pg.sht 0xE20 (setSht { s.sht with
        remapDue := false, testArmed := false, cols := c,
        state := if c < 90 then .unavailable else s.sht.state } s)
      if c = s.sht.cols then s1
      else raise Pg.sht .recipeShape .contained 0 noCtx 0 (place s.sht.cols 8 8 + place c 0 8) pfs false s1))

/-- TILE_STORE_ZERO_DONE (R280): the run that was ending is over. -/
def execTileStoreZeroDone (s : State) : Host.Outcome State Fault Refusal :=
  .next (whenAwake s (fun s => if s.sht.zeroing then finishRun (setSht { s.sht with zeroing := false } s) else s))

/-- TILE_TEST: a write of SHT_TILE_TEST (R297). -/
def execTileTest (w : Nat) (value : Word) (s : State) : Host.Outcome State Fault Refusal :=
  .next (expertGate w Pg.sht 0x408 (fun s =>
    let col := bits value 14 8
    let row := bits value 6 0
    if 99 < row ∨ 101 < col then noteErr Pg.sht kindRefusedValue .accessDenied 0x408 w s
    else if s.sht.state ≠ .idle ∨ s.sht.remapDue ∨ !tileGood s row col then noteErr Pg.sht kindRefusedState .accessDenied 0x408 w s
    else
      let s1 := setReg Pg.sht 0x408 (BitVec.ofNat 64 (col * 256 + row)) s
      if bitOf value 31 then failTile row col 7 (setSht { s1.sht with testArmed := true } s1) else s1) s)

end Sys2Proof.Machine
end

