-- ==== Sys2Proof/Machine/Recipe.lean ====
section
/-! DEFINITION. Sys2Proof/Machine/Recipe.lean: loading recipes, starting and aborting runs, and what peers send during them (chapter
Recipes and Static Schedules; rows LOAD_RECIPE to RCP_DATA). -/

namespace Sys2Proof.Machine

/-! The checks of Table 13-4 -/

/-- Elements of the operands of an operation. -/
def inLens (st : StepRec) : List Nat :=
  match st.op with
  | .gemm m n k addend _ => [m * k, k * n] ++ (if addend then [m * n] else [])
  | .bdot queries keys d _ _ _ => [queries * d, keys * d]
  | .swsum queries keys d _ _ => [queries, keys * d]
  | .topk queries keys d _ _ => [queries * d, keys * d]
  | .reduce vectors len _ _ => List.replicate st.ins.length (ceilDiv vectors st.ins.length * len)
  | .update rule len _ _ => List.replicate (ruleIns rule) len
  | .encode len _ => [len]

/-- Elements of the results of an operation, with their bytes. -/
def outLens (st : StepRec) : List (Nat × Nat) :=
  match st.op with
  | .gemm m n _ _ o => [(outBytes o, m * n)]
  | .bdot queries keys _ _ o streamOut => (outBytes o, queries) :: (if streamOut then [(outBytes o, queries * keys)] else [])
  | .swsum queries _ d normalize o => (outBytes o, queries * d) :: (if normalize then [] else [(outBytes o, queries)])
  | .topk queries _ _ k _ => [(16, queries * k)]
  | .reduce _ len _ o => [(outBytes o, len)]
  | .update rule len _ o =>
    (outBytes o, len) :: (match rule with | .adamw => [(4, len), (4, len)] | .sgdm => [(4, len)] | .scaleAdd => [])
  | .encode len _ => [(4096, len)]

/-- The output format of an operation. -/
def outFmt (st : StepRec) : Option OutFmt :=
  match st.op with
  | .gemm _ _ _ _ o => some o
  | .bdot _ _ _ _ o _ => some o
  | .swsum _ _ _ _ o => some o
  | .reduce _ _ _ o => some o
  | .update _ _ _ o => some o
  | .topk .. => none
  | .encode .. => none

/-- A check that fails: its number, the failing record and the status. -/
structure LoadFail where
  check : Nat
  index : Nat
  status : Status
  deriving DecidableEq, Repr

/-- Length of an image with the counts of its header (R298). -/
def imageLength (i : Image) : Nat :=
  64 * ceilDiv (64 + 136 * i.tables.length + 32 * i.streams.length + 8 * i.peers.length + 512 + 128 * i.steps.length + 96) 64

/-- A step names as many operands and results as its operation has, of existing streams. (DEDUCED: notes/assumptions/56.md) -/
def stepWell (i : Image) (st : StepRec) : Bool :=
  decide (st.ins.length = (inLens st).length) && decide (0 < st.ins.length) && decide (st.outs.length = (outLens st).length) &&
    st.ins.all (fun x => match x with | .stream k _ => decide (k < i.streams.length) | .buffer p f _ => decide (p < 8) && decide (f ≤ 8)) &&
    st.outs.all (fun x => match x with | .stream k _ => decide (k < i.streams.length) | .send p => decide (p < 8)) &&
    st.sends.all (fun x => decide (x.fport < 8) && decide (x.stream < i.streams.length)) &&
    (match st.op with | .topk _ _ _ k _ => decide (1 ≤ k) && decide (k ≤ 256) | .bdot _ _ _ e _ _ => decide (e ≤ 128) | _ => true)

/-- Check 1. (DEDUCED: notes/assumptions/56.md) -/
def imageOk (i : Image) (bytes : Nat) : Bool :=
  decide (i.magic = 0x48585250) && decide (i.layout = 1) && i.clean && decide (i.imageBytes = bytes) &&
    decide (i.imageBytes = imageLength i) && decide (1 ≤ i.steps.length) && decide (i.steps.length ≤ 4096) &&
    decide (1 ≤ i.streams.length) && decide (i.streams.length ≤ 256) &&
    decide (i.peers.length ≤ 256) && decide (90 ≤ i.cols) && decide (i.cols ≤ 100) && decide (90 ≤ i.minCols) &&
    decide (i.minCols ≤ i.cols) && (i.shapeFlex || decide (i.minCols = i.cols)) && decide (1024 ≤ i.startLeadNs) &&
    decide (i.startLeadNs ≤ 1048576) && i.streams.all (fun d => decide (d.format ≤ 8)) &&
    i.slots.all (fun x => decide (x.fport < 8)) &&
    (List.range 8).all (fun p => decide (i.slots.countP (fun x => decide (x.fport = p)) ≤ 16)) && i.steps.all (stepWell i)

/-- The public key of an entry of the trust store (Table 17-8). -/
def trustEntry (store : List Byte) (off : Nat) : Option (List Byte) :=
  if ((store.getD off 0).toNat.testBit 0) then some ((store.drop (off + 15)).take 97) else none

/-- Recipe-signing key k of the trust store in force (R412). -/
def recipeKey (s : State) (k : Nat) : Option (List Byte) := if k < 16 then trustEntry s.sec.trust (64 + 112 * k) else none

/-- The lowest index for which a test fails. -/
def firstBad (n : Nat) (p : Nat → Bool) : Option Nat := (List.range n).find? (fun i => !p i)

/-- The bound L + S + M + D of a step from its byte counts (R281, Table 12-8). -/
def stepBound (elastic : Bool) (st : StepRec) : Nat :=
  let merged := match st.op with | .bdot .. => true | .swsum .. => true | .topk .. => true | .reduce .. => true | _ => false
  let l := ceilDiv st.statBytes 32 + 99
  let x := max st.computeBeats (max (ceilDiv st.inBytes 32 + 64) (ceilDiv st.outBytes 32))
  let m := if !merged then 0 else if elastic then 99 + ceilDiv st.mergeElems 8 else 99 + 3 * st.mergeElems
  l + x + m + 128

/-- Check 6, per step: the declared beats, the window and the start. -/
def stepPaceOk (i : Image) (k : Nat) : Bool :=
  match i.steps[k]? with
  | none => true
  | some st =>
    decide (stepBound i.elastic st ≤ st.declared) && decide (4000 * st.declared ≤ st.window * i.paceFloor) &&
      (match (if k = 0 then none else i.steps[k - 1]?) with
       | some p => decide (p.start + p.window ≤ st.start)
       | none => true)

/-- Tile-store regions that the steps of a list write. -/
def regionsOf (l : List StepRec) (f : StepRec → Nat) : Nat := l.foldl (fun a st => a ||| f st) 0

/-- No step from `k` on reads a tile-store region written before it (R312). -/
def restartTiles (i : Image) (k : Nat) : Bool :=
  decide (regionsOf (i.steps.take k) (·.regionsWritten) &&& regionsOf (i.steps.drop k) (·.regionsRead) = 0)

/-- Check 7, per step. -/
def stepSramOk (i : Image) (k : Nat) : Bool :=
  match i.steps[k]? with
  | none => true
  | some st =>
    decide (1472 * bitLen (st.regionsRead ||| st.regionsWritten) ≤ i.tileBytes) && (!st.restart || restartTiles i k)

/-- Runs of blocks, as first block and count, that a step reads and writes (R312). -/
def stepReads (i : Image) (bind : List Nat) (st : StepRec) : List (Nat × Nat) :=
  (st.ins.zip (inLens st)).filterMap (fun x => match x.1 with
    | .stream k off =>
      match i.streams[k]? with
      | some d =>
        let per := match st.op with | .encode .. => 1 | _ => elemsPerBlock d.format d.mxEnc
        some (bind.getD k 0 / 4096 + off, ceilDiv x.2 per)
      | none => none
    | .buffer .. => none) ++
  st.sends.map (fun x => (bind.getD x.stream 0 / 4096 + x.off, x.blocks))

def stepWrites (bind : List Nat) (st : StepRec) : List (Nat × Nat) :=
  (st.outs.zip (outLens st)).filterMap (fun x => match x.1 with
    | .stream k off => some (bind.getD k 0 / 4096 + off, ceilDiv x.2.2 (4096 / x.2.1))
    | .send _ => none)

def overlaps (a b : Nat × Nat) : Bool := decide (a.1 < b.1 + b.2) && decide (b.1 < a.1 + a.2)

def anyOverlap (a b : List (Nat × Nat)) : Bool := a.any (fun x => b.any (overlaps x))

/-- Whole extents of the streams that a step reads or writes (R290). (DEDUCED: notes/assumptions/56.md) -/
def stepExtents (i : Image) (bind : List Nat) (st : StepRec) (write : Bool) : List (Nat × Nat) :=
  let used := if write then st.outs.filterMap (fun x => match x with | .stream k _ => some k | .send _ => none)
    else st.ins.filterMap (fun x => match x with | .stream k _ => some k | .buffer .. => none) ++ st.sends.map (·.stream)
  used.filterMap (fun k => (i.streams[k]?).map (fun d => (bind.getD k 0 / 4096, d.length)))

/-- R290 for one step: its outputs meet neither its inputs nor its tile-store inputs. (DEDUCED: notes/assumptions/56.md) -/
def stepApart (i : Image) (bind : List Nat) (st : StepRec) : Bool :=
  !anyOverlap (stepExtents i bind st true) (stepExtents i bind st false) && decide (st.regionsRead &&& st.regionsWritten = 0)

/-- What a step from `k` on writes is read from `k` on only by later steps (R312). -/
def restartStreams (i : Image) (bind : List Nat) (k : Nat) : Bool :=
  (List.range i.steps.length).all (fun w => decide (w < k) ||
    match i.steps[w]? with
    | none => true
    | some sw => (List.range (w + 1)).all (fun x => decide (x < k) ||
        match i.steps[x]? with
        | none => true
        | some sx => !anyOverlap (stepWrites bind sw) (stepReads i bind sx)))

/-- Check 9 for a stream. -/
def streamOk (s : State) (ctx : Nat) (i : Image) (bind : List Nat) (k : Nat) : Bool :=
  match i.streams[k]? with
  | none => true
  | some d =>
    let b := bind.getD k 0
    decide (b % 4096 = 0) && decide (k < bind.length) && decide (1 ≤ d.length) &&
      decide (b + 4096 * d.length ≤ s.ple.presented * 2 ^ 24) &&
      (slabList (streamRun b d).1 (streamRun b d).2).all (fun x => (accessCheck s (streamAsk s ctx d.write) x).isNone)

/-- Check 9 for a step. -/
def stepStreamsOk (i : Image) (bind : List Nat) (k : Nat) : Bool :=
  match i.steps[k]? with
  | none => true
  | some st => stepApart i bind st && (!st.restart || restartStreams i bind k)

/-- A stream's bandwidth carries its bytes per step within every window that uses it. -/
def streamBwOk (i : Image) (k : Nat) : Bool :=
  match i.streams[k]? with
  | none => true
  | some d => (List.range i.steps.length).all (fun x => decide (x < d.firstStep) || decide (d.lastStep < x) ||
      match i.steps[x]? with
      | some st => decide (4000 * d.bytesPerStep ≤ d.bw * st.window)
      | none => true)

/-- The tier in which R113 would give a slab its first frame now. -/
def firstTier (s : State) (slab : Nat) : Tier :=
  let e := mapAt s slab
  let c := ownerOf s e
  let order := (if hintedMode s then (match voteHome s slab with | some t => [t] | none => []) else []) ++ [.t2, .t1]
  match order.find? (fun t => decide (t ≠ .t3) && canPlace s slab c t) with
  | some t => t
  | none => if tierBit e.tmask .t2 || !tierBit e.tmask .t1 then .t2 else .t1

/-- The placeholder of a slab that is still to be assigned. -/
def unassigned : Nat := 31

/-- Assign a slab without a frame to the controller of its tier with the greatest headroom (R235). -/
def assignHome (slab : Nat) (s : State) : State :=
  let best := (ctrlsOf (firstTier s slab)).foldl (fun (a : Option Nat) c => match a with
    | none => some c
    | some x => if headroom s x < headroom s c then some c else a) none
  match best with
  | none => s
  | some c =>
    { s with rlg := { s.rlg with streams := s.rlg.streams.map (fun d =>
        { d with homes := d.homes.map (fun h => if h.1 = slab ∧ h.2 = unassigned then (slab, c) else h) }) } }

/-- Add the demand of one stream. -/
def bookStream (h k : Nat) (bind : Nat) (d : StreamRec) (s : State) : State :=
  let slabs := slabList (streamRun bind d).1 (streamRun bind d).2
  let homes := slabs.map (fun x => (x, match (mapAt s x).tier with
    | some t => frameCtrl s t (mapAt s x).frame
    | none => unassigned))
  let s1 := { s with rlg := { s.rlg with streams := s.rlg.streams ++ [{ handle := h, stream := k, bw := d.bw, homes := homes }] } }
  (slabs.filter (fun x => (mapAt s x).tier.isNone)).foldl (fun s x => assignHome x s) s1

/-- Add the demand of every stream of an image. -/
def bookStreams (h : Nat) (i : Image) (bind : List Nat) (s : State) : State :=
  ((List.range i.streams.length).zip (i.streams.zip bind)).foldl (fun s x => bookStream h x.1 x.2.2 x.2.1 s) s

/-- Slot ranges of the other loaded recipes on a port. -/
def otherRanges (s : State) (fport : Nat) : List (Nat × Nat) :=
  s.rcp.recipes.flatMap (fun p => match p.2 with
    | some q => (q.img.slots.filter (fun x => decide (x.fport = fport))).map (fun x => (x.first, x.count))
    | none => [])

/-- Ranges that do not overlap among themselves. -/
def disjointRanges : List (Nat × Nat) → Bool
  | [] => true
  | x :: l => !l.any (overlaps x) && disjointRanges l

/-- Check 11 for a port. -/
def portOk (s : State) (i : Image) (p : Nat) : Bool :=
  let used := i.slots.filter (fun x => decide (x.fport = p) && decide (0 < x.count))
  let mine := used.map (fun x => (x.first, x.count))
  let others := otherRanges s p
  mine.all (fun x => decide (x.1 + x.2 ≤ 4096)) && disjointRanges mine && !anyOverlap mine others &&
    decide (listSum ((mine ++ others).map (·.2)) ≤ fld s Pg.rcp 0x400 27 16 ∨ mine = []) &&
    (used.isEmpty || (fportUp s p && decide (used.countP (·.token) = 1))) && i.steps.all (fun st => stepFits s i st p)

/-- The device is a member as seen by this one (R344). -/
def isMember (s : State) (dev : Nat) : Bool :=
  (List.range 8).any (fun p => fportUp s p && decide ((fportAt s p).partner.dev = dev)) ||
    (match tfind s.ftb.members dev with
     | some t => decide (s.now < t + 1000000000)
     | none => false)

/-- Check 12 for a peer. -/
def peerOk (s : State) (p : PeerRec) : Bool :=
  isMember s p.dev && (List.range 8).all (fun k => !p.ports.testBit k || (fportUp s k && decide ((fportAt s k).partner.dev = p.dev)))

/-- Check 8 for a table (R101); a ninth table fails it. (DEDUCED: notes/assumptions/56.md) -/
def tableOk (s : State) (i : Image) (k : Nat) : Bool :=
  match i.tables[k]? with
  | none => true
  | some t =>
    let e := tableAt s t.1
    decide (k < 8) && isRecipeId t.1 && tableValid t.2 &&
      (decide (e.state = .free) || (decide (e.state = .live) && !e.pending && decide (e.data = t.2))) &&
      (i.tables.take k).all (fun u => decide (u.1 ≠ t.1) || decide (u.2 = t.2))

/-- RCP memory in use. -/
def rcpUsed (s : State) : Nat :=
  listSum (s.rcp.recipes.map (fun p => match p.2 with | some q => q.img.rcpBytes | none => 0))

/-- The first of checks 1 to 9 that fails, and the bandwidth of streams within their windows. (DEDUCED: notes/assumptions/56.md) -/
def staticFail (s : State) (ctx bytes : Nat) (i : Image) (bind : List Nat) : Option LoadFail :=
  if !imageOk i bytes then some ⟨1, 0, .recipeImage⟩
  else if (match recipeKey s i.keyId with | some k => !Config.recipeVerifies k i | none => true) then some ⟨2, 0, .recipeSignature⟩
  else if 16 ≤ s.rcp.recipes.length ∨ 4194304 < rcpUsed s + i.rcpBytes then some ⟨3, 0, .recipeLimit⟩
  else if i.elastic ≠ decide (s.dev.profile.determinism = 1) then some ⟨4, 0, .recipeMode⟩
  else match firstBad i.steps.length (fun k => !i.elastic || decide ((i.steps[k]?).bind outFmt ≠ some .xacc)) with
  | some k => some ⟨4, k, .recipeMode⟩
  | none =>
  if !shapeFits s i then some ⟨5, 0, .recipeShape⟩
  else if s.ppm.floorMbeat < i.paceFloor ∨ s.ppm.shortfall then some ⟨6, 0, .recipePace⟩
  else match firstBad i.steps.length (stepPaceOk i) with
  | some k => some ⟨6, k, .recipePace⟩
  | none =>
  if 94208 < i.tileBytes ∨ 1048576 < i.stepBufBytes then some ⟨7, 0, .recipeSram⟩
  else match firstBad i.steps.length (stepSramOk i) with
  | some k => some ⟨7, k, .recipeSram⟩
  | none =>
  match firstBad i.tables.length (tableOk s i) with
  | some k => some ⟨8, k, .recipeTable⟩
  | none =>
  match firstBad i.streams.length (streamOk s ctx i bind) with
  | some k => some ⟨9, k, .recipeStream⟩
  | none =>
  match firstBad i.steps.length (stepStreamsOk i bind) with
  | some k => some ⟨9, k, .recipeStream⟩
  | none =>
  match firstBad i.streams.length (streamBwOk i) with
  | some k => some ⟨10, k, .recipeBandwidth⟩
  | none => none

/-- Checks 11 and 12; the peers come in listed order. (DEDUCED: notes/assumptions/56.md) -/
def fabricFail (s : State) (i : Image) : Option LoadFail :=
  match firstBad 8 (portOk s i) with
  | some k => some ⟨11, k, .recipeSlots⟩
  | none =>
  if i.self ≠ ownId s ∨ !idValid s ∨ !(decide (i.leadId = i.self) || i.peers.any (fun p => decide (p.dev = i.leadId))) then
    some ⟨12, 0, .recipePeer⟩
  else match firstBad i.peers.length (fun k => match i.peers[k]? with | some p => peerOk s p | none => true) with
  | some k => some ⟨12, k, .recipePeer⟩
  | none => if !i.peers.isEmpty && !s.ftb.locked then some ⟨12, 0, .recipePeer⟩ else none

/-! LOAD_RECIPE (R301 – R303) -/

/-- Refuse a load (RCP_LOAD_LAST). (DEDUCED: notes/assumptions/56.md) -/
def refuseLoad (r : RingCmd) (ctx : Nat) (f : LoadFail) (s : State) : State :=
  complete r Opc.loadRecipe f.status 0
    (count Pg.rcp 0xE10 { s with rcp := { s.rcp with loadLast := ⟨f.status.code, f.check, f.index, ctx⟩ } })

/-- Install the tables of an image, or share them (Table 04-1). -/
def installTables (i : Image) (s : State) : State :=
  i.tables.foldl (fun s t =>
    if (tableAt s t.1).state = .free then
      count Pg.ppu 0xE10 (setTable t.1 { TableEnt.free with state := .live, data := t.2, pins := 1 } s)
    else pinTable t.1 s) s

/-- Send PROBE to a device (R344). -/
def sendProbe (dev : Nat) (s : State) : State :=
  sendTo (ctrlPkt s 0x31 dev 0) []
    { s with ftb := { s.ftb with probes := if s.ftb.probes.contains dev then s.ftb.probes else s.ftb.probes ++ [dev] } }

/-- Listed peers that are reached by relay and were not probed yet: check 12 probes them and waits. (DEDUCED: notes/assumptions/56.md) -/
def unprobed (s : State) (i : Image) : List Nat :=
  (i.peers.filter (fun p => decide (p.ports = 0) && !isMember s p.dev && !s.ftb.probes.contains p.dev)).map (·.dev)

/-- Enter an admitted recipe. -/
def enterRecipe (r : RingCmd) (h ctx notify tag : Nat) (i : Image) (bind : List Nat) (dropped : Bool) (s : State) : State :=
  let q : Recipe := { img := i, bind := bind, ctx := ctx, fn := r.fn, ring := notify, tag := tag, refused := false }
  let s1 := settleScales (admitted (count Pg.rcp 0xE08 (installTables i (setRecipe h (some q) s))))
  let s2 := endTag r Opc.loadRecipe false s1
  if dropped && decide (s2.ppm.paceMin < floorTarget s2) then
    { s2 with rcp := { s2.rcp with loads := s2.rcp.loads ++ [{ r := r, handle := h }] } }
  else complete r Opc.loadRecipe .ok h s2

/-- The checks of Table 13-4, and admission. -/
def loadImage (r : RingCmd) (ctx notify bytes tag : Nat) (i : Image) (bind : List Nat) (s : State) : State :=
  match staticFail s ctx bytes i bind with
  | some f => refuseLoad r ctx f s
  | none =>
    match chooseFrom 16 (fun h => (recipeAt s h).isNone) s with
    | (none, s1) => refuseLoad r ctx ⟨3, 0, .recipeLimit⟩ s1
    | (some h, s1) =>
      let t := bookStreams h i bind s1
      match admitFail s1 t with
      | some (c, req, room) =>
        refuseLoad r ctx ⟨10, 0, .recipeBandwidth⟩ (refusedAdmission (noteRefusal .recipeBandwidth c req room s1))
      | none =>
        match fabricFail s1 i with
        | some f =>
          if f.check = 12 ∧ unprobed s1 i ≠ [] then (unprobed s1 i).foldl (fun s d => sendProbe d s) s
          else refuseLoad r ctx f { s1 with ftb := { s1.ftb with
            probes := s1.ftb.probes.filter (fun d => decide (f.check ≠ 12) || !i.peers.any (fun p => decide (p.dev = d))) } }
        | none => enterRecipe r h ctx notify tag i bind (idleDropped s1) t

/-- LOAD_RECIPE. -/
def execLoadRecipe (r : RingCmd) (ctx notify imageAddr imageBytes bindAddr tag : Nat) (data : RecipeData) (s : State) :
    Host.Outcome State Fault Refusal :=
  .next (ringRun r Opc.loadRecipe (fun s =>
    if s.rcp.loads.any (fun l => decide (l.r = r)) then s
    else if 16 ≤ notify ∨ imageAddr % 64 ≠ 0 ∨ bindAddr % 8 ≠ 0 then complete r Opc.loadRecipe .accessDenied 0 s
    else match gateCtx r ctx s with
    | (some st, s1) => refuseLoad r ctx ⟨0, 0, st⟩ s1
    | (none, s1) =>
      match data with
      | .timeout => complete r Opc.loadRecipe .dmaTimeout 0 (endTag r Opc.loadRecipe true s1)
      | .error => complete r Opc.loadRecipe .dmaError 0 (endTag r Opc.loadRecipe false s1)
      | .image i bind => loadImage r ctx notify imageBytes tag i bind s1) s)

/-! Starting a run (R306, R307) -/

/-- T0: the later of START_NS and the first frame boundary at least START_LEAD_NS after now. -/
def chooseT0 (now startNs lead : Nat) : Nat := max startNs (1024 * ceilDiv (now + lead) 1024)

/-- The start time of a run is known: its comparator is set. -/
def setStart (t0 : Nat) (s : State) : State :=
  match s.rcp.run with
  | none => s
  | some r => { setRun (some { r with t0 := some t0 }) s with ftb := { s.ftb with cmps := tput none s.ftb.cmps r.cmp (some t0) } }

/-- The lead gives the start time, with GO to every peer. -/
def giveStart (s : State) : State :=
  match runRecipe s with
  | none => s
  | some (r, q) =>
    let t0 := chooseT0 s.now r.startNs q.img.startLeadNs
    setStart t0 (q.img.peers.foldl (fun s p => sendGroup 0x27 p.dev q.img.group t0 s) s)

/-- The recipe that a ring command names: loaded and owned by its context. -/
def namedRecipe (s : State) (ctx h : Nat) : Option Recipe :=
  match recipeAt s h with
  | some q => if q.ctx = ctx ∧ h < 16 then some q else none
  | none => none

/-- A RUN that passed its gate. -/
def runBody (r : RingCmd) (h fromStep startNs : Nat) (q : Recipe) (s : State) : State :=
  if !q.img.lead then complete r Opc.run .recipePeer 0 s
  else match armRefusal s q fromStep with
  | some st => complete r Opc.run st 0 s
  | none =>
    match armRun h q (some r) none fromStep startNs s with
    | none => complete r Opc.run .claimDenied 0 (denyClaim s)
    | some t =>
      if q.img.peers.isEmpty then giveStart t
      else q.img.peers.foldl (fun s p =>
        sendTo { ctrlPkt s 0x23 p.dev 0 with length := 24 } (groupBytes q.img.group q.img.leadId ++ leBytes 8 fromStep) s) t

/-- A run serves the ring command already. -/
def runWaits (s : State) (r : RingCmd) : Bool :=
  match s.rcp.run with
  | some x => decide (x.cmd = some r) || x.waiters.any (fun w => decide (w.1 = r))
  | none => false

/-- RUN. -/
def execRun (r : RingCmd) (ctx handle fromStep startNs : Nat) (s : State) : Host.Outcome State Fault Refusal :=
  .next (ringRun r Opc.run (fun s =>
    if runWaits s r then s
    else match gateCtx r ctx s with
    | (some st, s1) => complete r Opc.run st 0 s1
    | (none, s1) =>
      match namedRecipe s1 ctx handle with
      | none => complete r Opc.run .accessDenied 0 s1
      | some q =>
        if !fromStepOk q.img fromStep then complete r Opc.run .accessDenied 0 s1
        else runBody r handle fromStep startNs q s1) s)

/-- End a run in progress of a recipe for an ABORT, which completes once the run is LOADED. -/
def abortRun (r : RingCmd) (h : Nat) (unload : Bool) (s : State) : State :=
  match s.rcp.run with
  | some x =>
    if x.handle = h then
      modRun (fun x => { x with waiters := x.waiters ++ [(r, Opc.abort)], afterUnload := x.afterUnload || unload }) (endRun .runAborted s)
    else complete r Opc.abort .ok 0 (if unload then unloadRecipe h s else s)
  | none => complete r Opc.abort .ok 0 (if unload then unloadRecipe h s else s)

/-- ABORT with MODE STOP, and with a reserved MODE (R314). -/
def execAbortStop (r : RingCmd) (ctx handle mode : Nat) (s : State) : Host.Outcome State Fault Refusal :=
  .next (ringRun r Opc.abort (fun s =>
    if runWaits s r then s
    else if mode ≠ 0 then complete r Opc.abort .accessDenied 0 s
    else match gateCtx r ctx s with
    | (some st, s1) => complete r Opc.abort st 0 s1
    | (none, s1) =>
      match namedRecipe s1 ctx handle with
      | none => complete r Opc.abort .accessDenied 0 s1
      | some _ => abortRun r handle false s1) s)

/-- ABORT with MODE UNLOAD. (DEDUCED: notes/assumptions/58.md) -/
def execAbortUnload (r : RingCmd) (ctx handle : Nat) (s : State) : Host.Outcome State Fault Refusal :=
  .next (ringRun r Opc.abort (fun s =>
    if runWaits s r then s
    else match gateCtx r ctx s with
    | (some st, s1) => complete r Opc.abort st 0 s1
    | (none, s1) =>
      match namedRecipe s1 ctx handle with
      | none => complete r Opc.abort .accessDenied 0 s1
      | some _ => abortRun r handle true s1) s)

/-! Group packets (Table 13-6) -/

/-- A packet of class RCP or of a group that the device drops (Table 14-5). (DEDUCED: notes/assumptions/58.md) -/
def foreign (fport : Nat) (s : State) : State := count (Pg.fpt + fport) 0xE60 s

/-- The recipe lists the device as a peer. -/
def listsPeer (q : Recipe) (dev : Nat) : Bool := q.img.peers.any (fun p => decide (p.dev = dev))

/-- ARM. (DEDUCED: notes/assumptions/58.md) -/
def execArm (fport src group leadId fromStep : Nat) (s : State) : Host.Outcome State Fault Refusal :=
  .next (whenAwake s (arrive fport 0x23 src 0 24 (fun s =>
    match recipeOf s group leadId with
    | none => foreign fport s
    | some (h, q) =>
      if src ≠ leadId ∨ !listsPeer q src then foreign fport s
      else if s.rcp.loads.any (fun l => decide (l.handle = h)) then
        { s with rcp := { s.rcp with arms := s.rcp.arms ++ [{ fport := fport, src := src, group := group, lead := leadId, fromStep := fromStep }] } }
      else answerArm { fport := fport, src := src, group := group, lead := leadId, fromStep := fromStep } s)))

/-- The armed run that this device leads for a group, when it lists the device. -/
def leading (s : State) (group src : Nat) : Option (Run × Recipe) :=
  match runRecipe s with
  | some (r, q) =>
    if r.state = .armed ∧ r.lead = none ∧ r.t0 = none ∧ q.img.group = group ∧ listsPeer q src then some (r, q) else none
  | none => none

/-- READY. -/
def execReady (fport src group : Nat) (s : State) : Host.Outcome State Fault Refusal :=
  .next (whenAwake s (arrive fport 0x24 src 0 16 (fun s =>
    match leading s group src with
    | none => foreign fport s
    | some (r, q) =>
      let by_ := if r.readyBy.contains src then r.readyBy else r.readyBy ++ [src]
      let t := setRun (some { r with readyBy := by_ }) s
      if q.img.peers.all (fun p => by_.contains p.dev) then giveStart t else t)))

/-- Step 3 of Table 13-6: RUN completes with RECIPE_PEER, and the peers that answered READY get CANCEL. -/
def failStart (r : Run) (q : Recipe) (s : State) : State :=
  let s1 := r.readyBy.foldl (fun s d => sendGroup 0x26 d q.img.group 0 s) (disarm s)
  match r.cmd with
  | some c => complete c Opc.run .recipePeer 0 s1
  | none => s1

/-- REFUSE; the status it carries goes no further. -/
def execRefuse (fport src group : Nat) (_status : Nat) (s : State) : Host.Outcome State Fault Refusal :=
  .next (whenAwake s (arrive fport 0x25 src 0 16 (fun s =>
    match leading s group src with
    | none => foreign fport s
    | some (r, q) => failStart r q s)))

/-- READY_TIMEOUT: READY_TIMEOUT_MS has passed since ARM. -/
def execReadyTimeout (s : State) : Host.Outcome State Fault Refusal :=
  .next (whenAwake s (fun s =>
    match runRecipe s with
    | some (r, q) => if r.state = .armed ∧ r.lead = none ∧ r.t0 = none ∧ r.armedAt + 1000000 * fld s Pg.rcp 0x400 47 32 ≤ s.now then failStart r q s else s
    | none => s))

/-- The armed run of a peer for a group that the device leads. -/
def following (s : State) (group src : Nat) : Option Run :=
  match runRecipe s with
  | some (r, q) => if r.state = .armed ∧ r.lead = some src ∧ q.img.group = group then some r else none
  | none => none

/-- CANCEL. -/
def execGroupCancel (fport src group : Nat) (s : State) : Host.Outcome State Fault Refusal :=
  .next (whenAwake s (arrive fport 0x26 src 0 16 (fun s =>
    match following s group src with
    | none => foreign fport s
    | some _ => disarm s)))

/-- GO (steps 5 and 6). -/
def execGo (fport src group t0 : Nat) (s : State) : Host.Outcome State Fault Refusal :=
  .next (whenAwake s (arrive fport 0x27 src 0 16 (fun s =>
    match following s group src with
    | none => foreign fport s
    | some _ => if t0 ≤ s.now then endRun .runPeerLost s else setStart t0 s)))

/-- The run starts at T0 (Table 13-7); the tiles' code caches take the tables that its recipe declares (R102). -/
def startRun (s : State) : State :=
  match runRecipe s with
  | none => s
  | some (r, q) =>
    if r.state = .armed ∧ r.t0.isSome then
      count Pg.rcp 0xE18 (setSht { s.sht with codeCache := q.img.tables } (setRun (some { r with state := .running }) s))
    else s

/-! During a run (R310 – R313) -/

/-- The run to which a recipe packet from a direct partner belongs. -/
def runFor (s : State) (fport src group : Nat) : Option (Run × Recipe) :=
  match runRecipe s with
  | some (r, q) =>
    if q.img.group = group ∧ listsPeer q src ∧ (fportAt s fport).partner.dev = src ∧ (recipePorts q).contains fport then some (r, q)
    else none
  | none => none

/-- Adopt a larger Δ, and send it on (R311). -/
def adopt (fport delta : Nat) (s : State) : State :=
  match s.rcp.run with
  | none => s
  | some r =>
    if r.delta < delta ∧ r.state ≠ .ending then sendTokens 0x21 0 (some fport) (setRun (some { r with delta := delta }) s) else s

/-- BARRIER. -/
def execBarrier (fport src group step delta : Nat) (s : State) : Host.Outcome State Fault Refusal :=
  .next (whenAwake s (arrive fport 0x21 src 0 8 (fun s =>
    match runFor s fport src group with
    | none => foreign fport s
    | some (r, _) =>
      adopt fport delta (count Pg.rcp 0xE48 (setRun (some { r with
        heard := tins r.heard src s.now, adopted := r.adopted || decide (step = r.step) }) s)))))

/-- The outcome that an ABORT token carries (Table 13-9). -/
def tokenOutcome (code : Nat) : Option Status :=
  if code = Status.runFaulted.code then some .runFaulted
  else if code = Status.runAborted.code then some .runAborted
  else if code = Status.runPeerLost.code then some .runPeerLost
  else none

/-- ABORT token. -/
def execAbortToken (fport src group step outcome : Nat) (s : State) : Host.Outcome State Fault Refusal :=
  .next (whenAwake s (arrive fport 0x22 src 0 8 (fun s =>
    match runFor s fport src group, tokenOutcome outcome with
    | some (r, _), some st =>
      endRun st (count Pg.rcp 0xE48 (setRun (some { r with heard := tins r.heard src s.now, lowest := min r.lowest step }) s))
    | _, _ => foreign fport s)))

/-- When a run last had a transfer or a token of a peer, or started. -/
def lastHeard (r : Run) (dev : Nat) : Nat := max (tget 0 r.heard dev) (r.t0.getD 0)

/-- PEER_TIMEOUT: the step waits for a peer that has sent nothing for PEER_TIMEOUT_MS. -/
def execPeerTimeout (dev : Nat) (s : State) : Host.Outcome State Fault Refusal :=
  .next (whenAwake s (fun s =>
    match runRecipe s with
    | none => s
    | some (r, q) =>
      if stepRuns s && r.waiting.testBit 7 && listsPeer q dev &&
          decide (lastHeard r dev + 1000000 * fld s Pg.rcp 0x400 15 0 ≤ s.now) then endRun .runPeerLost s else s))

/-- RCP_DATA: a transfer for the current or the next step enters the step buffer; one for a later step waits at its sender. -/
def execRcpData (fport src group step delta : Nat) (data : List Byte) (s : State) : Host.Outcome State Fault Refusal :=
  .next (whenAwake s (fun s =>
    if !fportUp s fport then s
    else match runFor s fport src group with
    | none => foreign fport s
    | some (r, _) =>
      if r.state = .ending ∨ (step ≠ r.step ∧ step ≠ r.step + 1) then s
      else
        adopt fport delta (rxPacket fport 0x20 0 data.length (setRun (some { r with
          heard := tins r.heard src s.now,
          buffer := r.buffer ++ [{ fport := fport, step := step, data := data }] }) s))))

end Sys2Proof.Machine
end

