-- ==== Sys2Proof/Machine/Fabric.lean ====
section
/-! DEFINITION. Sys2Proof/Machine/Fabric.lean: the Amvan fabric (chapter The Amvan Fabric; rows LINK_TRAIN to FTB_IDENTITY_WRITE,
GRANT_DRAIN_END, LINK_BRINGUP_TIMEOUT, FABRIC_SIGNAL_LOSS and MALFORMED_PACKET). -/

namespace Sys2Proof.Machine

def fptPage (p : Nat) : Nat := Pg.fpt + p

/-- Codes of FPT_STATUS.REASON. -/
def rsnSignal := 1
def rsnLanes := 2
def rsnAuth := 3
def rsnCredit := 7
def rsnReplay := 8
def rsnSession := 9

def ms : Nat := 1000000
def sec : Nat := 1000000000

/-! The time parent (R333, R335) -/

def rootEligible (s : State) : Bool := flag s Pg.ftb 0x58 0

/-- A triple ROOT_ID, HOPS, device ID comes before another. -/
def betterTriple (a b : Nat × Nat × Nat) : Bool :=
  decide (a.1 < b.1) || (decide (a.1 = b.1) && (decide (a.2.1 < b.2.1) || (decide (a.2.1 = b.2.1) && decide (a.2.2 < b.2.2))))

/-- What the partner on a port offers as time parent: no accelerator, HOPS at most 128. -/
def offerOf (s : State) (p : Nat) : Option (Nat × Nat × Nat) :=
  let v := fportAt s p
  if v.state ≠ .up ∨ v.partner.accelerator then none
  else match v.offer with
    | some (r, h) => if h ≤ 128 then some (r, h, v.partner.dev) else none
    | none => none

/-- The port whose partner offers the best triple. -/
def bestParent (s : State) : Option (Nat × (Nat × Nat × Nat)) :=
  (List.range 8).foldl (fun (a : Option (Nat × (Nat × Nat × Nat))) p =>
    match offerOf s p, a with
    | none, _ => a
    | some t, none => some (p, t)
    | some t, some b => if betterTriple t b.2 then some (p, t) else a) none

def setFtb (v : Ftb) (s : State) : State := { s with ftb := v }

/-- Choose the time parent or the root role anew. A parent that is lost leaves a locked device in holdover (R335); a root
is locked at once; without parent, root role or holdover it is UNLOCKED. (DEDUCED: notes/assumptions/61.md) -/
def settleParent (s : State) : State :=
  let f := s.ftb
  let own := (ownId s, 0, ownId s)
  let best := bestParent s
  let root := rootEligible s && (match best with | some b => betterTriple own b.2 | none => true)
  if root then
    setFtb { f with parent := none, rootId := ownId s, hops := 0, isRoot := true, locked := true, everLocked := true,
                    holdover := none, good := 0, rejected := 0 }
      (if f.parent.isSome then count Pg.ftb 0xE18 s else s)
  else
    let lost := match f.parent with
      | some p => (offerOf s p).isNone && f.locked
      | none => false
    let hold := if lost then some (s.now + fld s Pg.ftb 0x400 31 16 * ms) else f.holdover
    match best with
    | some (p, t) =>
      if f.parent = some p then setFtb { f with isRoot := false, rootId := t.1, hops := t.2.1 + 1 } s
      else
        setFtb { f with parent := some p, rootId := t.1, hops := t.2.1 + 1, isRoot := false, holdover := hold, good := 0,
                        rejected := 0 } (count Pg.ftb 0xE18 s)
    | none =>
      setFtb { f with parent := none, rootId := 0, hops := 0, isRoot := false, holdover := hold, good := 0, rejected := 0,
                      locked := f.locked && hold.isSome }
        (if f.parent.isSome then count Pg.ftb 0xE18 s else s)

/-! Ends of a session and of bring-up (R326, R327, R348) -/

/-- Grants of a remote device refuse every later request. -/
def staleGrants (p : Grant → Bool) (s : State) : State :=
  let mark (_ : Nat) (g : Option Grant) : Option Grant := g.map (fun g => if p g then { g with stale := true } else g)
  { s with grants := tmap none mark s.grants }

/-- A port leaves its session, if it has one, and enters a state: keys, credits, queued packets and the decode session go,
and so do the grants of the partner that the link led to. (DEDUCED: notes/assumptions/60.md) -/
def leavePort (p : Nat) (st : FpState) (reason retryAt : Nat) (s : State) : State :=
  let v := fportAt s p
  let s1 := endDecode p s
  let s2 := if v.state = .up then staleGrants (fun g => decide (g.remoteDev = v.partner.dev)) s1 else s1
  let s3 := setFport p { FPort.reset with state := st, reason := reason, lanes := v.lanes, responder := v.responder, fails := v.fails, retryAt := retryAt, half := v.half,
                                          trainAt := s.now, stepAt := s.now } s2
  let s4 := settleParent s3
  if v.state = .up then settleScales s4 else s4

/-- The port goes back to step 1 of Table 14-2. -/
def retrainPort (p reason : Nat) (s : State) : State := leavePort p .training reason 0 s

/-- The port is out of signal or lanes and tries again after 1 s. (DEDUCED: notes/assumptions/60.md) -/
def downPort (p reason : Nat) (s : State) : State := leavePort p .down reason (s.now + sec) s

/-- A failure of step 5 or 6: backoff doubling up to its bound (R326). (DEDUCED: notes/assumptions/60.md) -/
def authFail (p reason : Nat) (s : State) : State :=
  let n := (fportAt s p).fails
  let wait := min (2 ^ n) (fld s (fptPage p) 0x400 31 24)
  leavePort p .authFailed reason (s.now + wait * sec)
    (modFport p (fun v => { v with fails := n + 1 }) (count (fptPage p) 0xE30 s))

/-- End the session on a port (R327). (DEDUCED: notes/assumptions/60.md) -/
def endSession (p : Nat) (s : State) : State := retrainPort p rsnSession s

/-- The port is in one of the states in which its session can end. -/
def linked (v : FPort) : Bool := decide (v.state = .auth) || decide (v.state = .time) || decide (v.state = .up)

/-! Bring-up (Table 14-2) -/

/-- The port may train (R323, R405). -/
def mayTrain (s : State) (p : Nat) : Bool :=
  decide (p < 8) && flag s (fptPage p) 0x40 0 && idValid s && decide (s.otp.life ≠ .scrapped)

/-- Width code of the lanes that trained (R322). -/
def widthOf (lanes : Nat) : Nat :=
  if lanes % 256 = 255 then 3 else if lanes % 16 = 15 then 1 else if lanes / 16 % 16 = 15 then 2 else 0

/-- The width of a port that trained: one that went to x4 returns to x8 only by FPT_CTRL.RETRAIN or a device reset (R322). (DEDUCED: notes/assumptions/60.md) -/
def keptWidth (v : FPort) (w : Nat) : Nat := if w = 3 ∧ v.half ≠ 0 then v.half else w

/-- Send HELLO with a fresh NONCE. -/
def sendHello (p : Nat) (s : State) : State :=
  let (n, s1) := draw s
  let nonce := Config.random n % 2 ^ 64
  emit (.hello p nonce) (modFport p (fun v => { v with nonce := some nonce, stepAt := s.now }) s1)

/-- LINK_TRAIN: the operand has a bit for each lane that trained and holds FEC lock (steps 1 to 3). (DESIGN CHOICE: notes/assumptions/7.md) -/
def execLinkTrain (fport lanes : Nat) (s : State) : Host.Outcome State Fault Refusal :=
  .next (whenAwake s (fun s =>
    let v := fportAt s fport
    if !mayTrain s fport || !(decide (v.state = .training) || (decide (v.state = .down) && decide (v.retryAt = 0))) then s
    else if lanes % 256 = 0 then downPort fport rsnSignal s
    else if widthOf lanes = 0 then
      modFport fport (fun v => { v with lanes := lanes % 256 }) (downPort fport rsnLanes s)
    else sendHello fport (modFport fport (fun v => { v with
      state := .auth, lanes := lanes % 256, width := keptWidth v (widthOf lanes), half := if keptWidth v (widthOf lanes) = 3 then 0 else keptWidth v (widthOf lanes), trainAt := if v.state = .down then s.now else v.trainAt }) s)))

/-- HELLO: the role is chosen (step 4). -/
def execHello (fport nonce : Nat) (s : State) : Host.Outcome State Fault Refusal :=
  .next (whenAwake s (fun s =>
    let v := fportAt s fport
    match v.nonce with
    | none => s
    | some own =>
      if v.state ≠ .auth ∨ 8 ≤ fport then s
      else
        let s1 := rxPacket fport 0x3D 0 16 s
        if own = nonce then sendHello fport s1
        else
          let s2 := modFport fport (fun v => { v with nonce := none, responder := decide (own < nonce), stepAt := s.now }) s1
          if own < nonce then s2 else emit (.spdmLink fport (.negotiate true)) s2))

/-- IDENT of this device. (DESIGN CHOICE: notes/assumptions/11.md) -/
def sendIdent (p : Nat) (s : State) : State :=
  let (n, s1) := draw s
  sendPkt p (ctrlPkt s1 0x38 0 (ownId s + boolNat (rootEligible s) * 2 ^ 31 + 2 ^ 32 * (Config.unstated n % 2 ^ 14))) [] s1

/-- The chain of a partner is accepted (R324): the Fenavaud root with an HJX-7200, or an enabled and installed peer root. -/
def chainOk (s : State) (p root : Nat) (namesHjx verified : Bool) : Bool :=
  verified &&
    (if root = 0 then namesHjx
     else decide (root ≤ 4) && flag s (fptPage p) 0x40 (7 + root) && (trustEntry s.sec.trust (1856 + 112 * (root - 1))).isSome)

/-- A message of SPDM while the port authenticates, after the roles are chosen. -/
def authStep (p : Nat) (m : SpdmMsg) (s : State) : State :=
  let v := fportAt s p
  match m with
  | .negotiate ok =>
    if !ok then authFail p rsnAuth s
    else if v.responder then emit (.spdmLink p (.negotiate true)) s
    else emit (.spdmLink p (.finish 0 true s.dev.serial true)) s
  | .finish root namesHjx cert verified =>
    if !chainOk s p root namesHjx verified then authFail p rsnAuth s
    else
      let partner : Partner := { Partner.none with root := root, cert := cert, accelerator := decide (root ≠ 0) }
      let s1 := if v.responder then emit (.spdmLink p (.finish 0 true s.dev.serial true)) s else s
      sendIdent p (modFport p (fun v => { v with spdmDone := true, partner := partner, txPackets := 0, rxPackets := 0,
                                                 keyedAt := s.now, stepAt := s.now }) s1)
  | .failed => authFail p rsnAuth s
  | _ => s

/-- A message of SPDM in the session. -/
def sessionStep (p : Nat) (m : SpdmMsg) (s : State) : State :=
  match m with
  | .keyUpdate => modFport p (fun v => { v with rxPackets := 0 }) s
  | .endSession => endSession p s
  | .failed => if (fportAt s p).state = .auth then authFail p rsnAuth s else s
  | _ => s

/-- SPDM on a link. -/
def execSpdm (fport : Nat) (msg : SpdmMsg) (s : State) : Host.Outcome State Fault Refusal :=
  .next (whenAwake s (fun s =>
    let v := fportAt s fport
    if !linked v || v.nonce.isSome || decide (8 ≤ fport) then s
    else
      let s1 := rxPacket fport 0x3C 0 0 s
      match msg with
      | .getMeasurements nonce =>
        let d := measurements s1 0 nonce
        sendPkt fport { ctrlPkt s1 0x3C 0 0 with length := d.length } d s1
      | m => if v.spdmDone then sessionStep fport m s1 else authStep fport m s1))

/-- Why IDENT is refused (R325). -/
def identRefusal (s : State) (p dev : Nat) : Option Nat :=
  let v := fportAt s p
  if dev = ownId s then some 4
  else if !v.partner.accelerator && (List.range 8).any (fun q =>
      let w := fportAt s q
      decide (q ≠ p) && decide (w.state = .up) && !w.partner.accelerator && decide (w.partner.cert = v.partner.cert) &&
        decide (w.partner.dev ≠ dev)) then some 5
  else if flag s (fptPage p) 0x40 63 && decide (fld s (fptPage p) 0x40 62 46 ≠ dev) then some 6
  else none

/-- IDENT: KIND is that of the certificate (R324). (DEDUCED: notes/assumptions/60.md) -/
def execIdent (fport dev : Nat) (_accelerator decode rootEl : Bool) (slots : Nat) (s : State) : Host.Outcome State Fault Refusal :=
  .next (whenAwake s (fun s =>
    let v := fportAt s fport
    if v.state ≠ .auth ∨ !v.spdmDone ∨ 8 ≤ fport then s
    else
      let s1 := rxPacket fport 0x38 0 0 s
      match identRefusal s1 fport dev with
      | some r => authFail fport r s1
      | none =>
        let q : Partner :=
          { v.partner with dev := dev % 131072, decode := decode, rootEligible := rootEl, slots := slots % 8192 }
        modFport fport (fun v => { v with state := .time, syncs := 0, fails := 0, reason := 0, partner := q, stepAt := s.now }) s1))

/-- The port comes up (step 8). (DESIGN CHOICE: notes/assumptions/10.md) -/
def linkUp (p : Nat) (s : State) : State :=
  let v := fportAt s p
  let pools : Tbl Nat := (List.range 6).map (fun k => (k, creditPool (k / 2)))
  raise (fptPage p) Config.linkUpCode .corrected 0 noCtx 0 p pfs false
    (setFport p { v with state := .up, decode := v.partner.decode, credits := match runRecipe s with
        | some (_, q) => if (recipePorts q).contains p then tput 0 pools 6 (stepPool q) else pools
        | none => pools } s)

/-! Time exchange (R333 – R335) -/

/-- TIME_SYNC of one link end: t1, and t2 and t3 of the last packet received, with the triple advertised. -/
def execTimeSyncSend (fport : Nat) (s : State) : Host.Outcome State Fault Refusal :=
  .next (whenAwake s (fun s =>
    let v := fportAt s fport
    if 8 ≤ fport ∨ !(v.state = .time ∨ v.state = .up) ∨ (v.syncAt ≠ 0 ∧ s.now + 1 < v.syncAt + 1000 * fld s Pg.ftb 0x400 15 0) then s
    else
      modFport fport (fun v => { v with syncAt := s.now + 1 }) <| sendPkt fport { ctrlPkt s 0x30 v.partner.dev (s.ftb.rootId + 2 ^ 17 * s.ftb.hops) with length := 24 }
        (leBytes 8 (s.now * 1000 + s.ftb.frac * 1000 / 256) ++ leBytes 8 v.lastT2 ++ leBytes 8 v.lastT3) s))

/-- Offset to the partner in picoseconds: ((t2 − t1) − (t4 − t3)) / 2. (DEDUCED: notes/assumptions/61.md) -/
def offsetOf (t1 t2 t3 t4 : Nat) : Int := (((t2 : Int) - t1) - ((t4 : Int) - t3)) / 2

/-- The count follows a parent: it steps ahead before the first lock, and otherwise slews by at most 100 ppm of SYNC_US, in units of
1/256 ns; where it is to slow down, it owes that time and stands still until it is made up, so that it never runs backwards. (DEDUCED: notes/assumptions/61.md) -/
def follow (off : Int) (s : State) : State :=
  let ahead := (off * 256 / 1000).toNat
  let behind := ((-off) * 256 / 1000).toNat
  let most := fld s Pg.ftb 0x400 15 0 * 256 / 10
  let total := s.ftb.frac + (if s.ftb.everLocked then min ahead most else ahead)
  { s with now := s.now + total / 256, ftb := { s.ftb with frac := total % 256, owed := if 0 < behind then min behind most else 0 } }

/-- A sample of the offset to the time parent. (DEDUCED: notes/assumptions/61.md) -/
def sample (p : Nat) (off : Int) (s : State) : State :=
  let f := s.ftb
  if f.locked ∧ 1000000 < (off - f.offsetPs).natAbs then
    let s1 := count Pg.ftb 0xE10 s
    if f.rejected + 1 < 16 then setFtb { f with rejected := f.rejected + 1 } s1
    else settleParent (modFport p (fun v => { v with offer := none }) s1)
  else
    let good := if off.natAbs ≤ 5000 then f.good + 1 else 0
    let lock := decide (16 ≤ good)
    let s1 := follow off s
    setFtb { s1.ftb with
      offsetPs := off, rejected := 0, good := min good 16, locked := f.locked || lock, everLocked := f.everLocked || lock,
      holdover := if lock then none else f.holdover } s1

/-- TIME_SYNC: an exchange with times in picoseconds ends on a port; the partner advertises a root and hops. (DEDUCED: notes/assumptions/61.md) -/
def execTimeSync (fport t1 t2 t3 t4 rootId hops : Nat) (s : State) : Host.Outcome State Fault Refusal :=
  .next (whenAwake s (fun s =>
    let v := fportAt s fport
    if 8 ≤ fport ∨ !(v.state = .time ∨ v.state = .up) then s
    else
      let s0 := rxPacket fport 0x30 0 24 s
      let heard (v : FPort) : FPort :=
        { v with offer := some (rootId, hops), lastT2 := t4, lastT3 := t3, syncs := min 16 (v.syncs + 1) }
      let s1 := count Pg.ftb 0xE08 (modFport fport heard s0)
      let s2 := if (fportAt s1 fport).state = .time ∧ 16 ≤ (fportAt s1 fport).syncs then linkUp fport s1 else s1
      let s3 := settleParent s2
      if s3.ftb.parent = some fport then sample fport (offsetOf t1 t2 t3 t4) s3 else s3))

/-- HOLDOVER_EXPIRY. (DESIGN CHOICE: notes/assumptions/6.md, DEDUCED: notes/assumptions/61.md) -/
def execHoldoverExpiry (s : State) : Host.Outcome State Fault Refusal :=
  .next (whenAwake s (fun s =>
    match s.ftb.holdover with
    | some d => if d ≤ s.now then setFtb { s.ftb with holdover := none, locked := false, good := 0 } s else s
    | none => s))

/-! Waits, upkeep and lanes -/

/-- A port whose wait has ended trains again. -/
def startTraining (fport : Nat) (s : State) : State :=
  modFport fport (fun v => { v with state := .training, retryAt := 0, trainAt := s.now, stepAt := s.now }) s

/-- AUTH_BACKOFF_EXPIRY. -/
def execAuthBackoffExpiry (fport : Nat) (s : State) : Host.Outcome State Fault Refusal :=
  .next (whenAwake s (fun s =>
    let v := fportAt s fport
    if v.state = .authFailed ∧ v.retryAt ≤ s.now ∧ mayTrain s fport then startTraining fport s else s))

/-- TRAINING_RETRY. -/
def execTrainingRetry (fport : Nat) (s : State) : Host.Outcome State Fault Refusal :=
  .next (whenAwake s (fun s =>
    let v := fportAt s fport
    if v.state = .down ∧ v.retryAt ≠ 0 ∧ v.retryAt ≤ s.now ∧ mayTrain s fport then startTraining fport s else s))

/-- KEY_UPDATE: of the receive direction by the partner, or of the transmit direction by this device once it is due. -/
def execKeyUpdate (fport : Nat) (receive : Bool) (s : State) : Host.Outcome State Fault Refusal :=
  .next (whenAwake s (fun s =>
    let v := fportAt s fport
    if !v.spdmDone || !linked v || decide (8 ≤ fport) then s
    else if receive then setFport fport { v with rxPackets := 0 } s
    else if 2 ^ 36 ≤ v.txPackets ∨ v.keyedAt + 3600 * sec ≤ s.now then
      emit (.spdmLink fport .keyUpdate) (setFport fport { v with txPackets := 0, keyedAt := s.now } s)
    else s))

/-- HEARTBEAT_TIMEOUT. (DESIGN CHOICE: notes/assumptions/6.md) -/
def execHeartbeatTimeout (fport : Nat) (s : State) : Host.Outcome State Fault Refusal :=
  .next (whenAwake s (fun s =>
    let v := fportAt s fport
    if v.spdmDone && linked v && decide (fport < 8) then endSession fport s else s))

/-- Codewords sent and not acknowledged. -/
def unacked (v : FPort) : Nat := (v.txSeq + 4096 - v.ackedSeq) % 4096

/-- LANE_FAULT: x8 to the half without the lane, after which the unacknowledged codewords go again; a lane of the active half
of an x4 port takes it DOWN. The event of a failed unit goes out (Table 01-8). (DESIGN CHOICE: notes/assumptions/10.md, DEDUCED: notes/assumptions/60.md) -/
def execLaneFault (fport lane : Nat) (s : State) : Host.Outcome State Fault Refusal :=
  .next (whenAwake s (fun s =>
    let v := fportAt s fport
    if !linked v || decide (8 ≤ fport) || decide (8 ≤ lane) then s
    else
      unitEvent (fptPage fport) lane <|
      let lanes := v.lanes &&& (255 - 2 ^ lane)
      let w := v.width
      if w = 3 then
        countBy (fptPage fport) 0xE20 (unacked v) (count (fptPage fport) 0xE68
          (setFport fport { v with lanes := lanes, width := if lane < 4 then 2 else 1, half := if lane < 4 then 2 else 1, reason := rsnLanes } s))
      else if (w = 1 ∧ lane < 4) ∨ (w = 2 ∧ 4 ≤ lane) then
        downPort fport rsnLanes (setFport fport { v with lanes := lanes } s)
      else setFport fport { v with lanes := lanes } s))

/-- RETRAIN: FPT_CTRL.RETRAIN written with 1. -/
def execRetrain (w fport : Nat) (s : State) : Host.Outcome State Fault Refusal :=
  .next (if 8 ≤ fport then s else
    ownedWrite w (fptPage fport) (fun s => if (fportAt s fport).state = .disabled then s else retrainPort fport 0 (modFport fport (fun v => { v with half := 0 }) s)) s)

/-! Codewords, credits, replay (R330, R331) -/

/-- A packet of this device, not a relayed one. -/
def ownPacket (s : State) (p : Pkt) : Bool := decide (p.src = ownId s)

/-- The packet of class and VL `k` that leaves next: own and relayed packets in turn, each in order (R330, R340). (DEDUCED: notes/assumptions/59.md) -/
def nextQueued (s : State) (v : FPort) (k : Nat) : Option (Pkt × List Byte) :=
  let line := v.queued.filter (fun x => decide (2 * pktClass x.1.type + x.1.flags % 2 = k))
  match line.find? (fun x => ownPacket s x.1), line.find? (fun x => !ownPacket s x.1) with
  | some a, some b => some (if v.turn.contains k then a else b)
  | some a, none => some a
  | none, b => b

/-- Send what credit covers, at most `n` packets. -/
def flushKey (port k : Nat) : Nat → State → State
  | 0, s => s
  | n + 1, s =>
    let v := fportAt s port
    match nextQueued s v k with
    | none => s
    | some x =>
      if covered v x.1 x.2.length then
        let rest := v.turn.filter (fun y => decide (y ≠ k))
        flushKey port k n (transmit port x.1 x.2
          (setFport port { v with queued := v.queued.erase x, turn := if ownPacket s x.1 then rest else k :: rest, stalled := tput 0 v.stalled k s.now } s))
      else s

/-- Every class and VL of a port sends what its credit covers. (DEDUCED: notes/assumptions/59.md) -/
def flushQueue (port : Nat) (s : State) : State :=
  (List.range 8).foldl (fun s k => flushKey port k (fportAt s port).queued.length s) s

/-- The pool of a class: the step buffer of the armed recipe for class RCP (R330). -/
def poolOf (s : State) (cls : Nat) : Nat :=
  if cls < 3 then creditPool cls else match runRecipe s with | some (_, q) => stepPool q | none => 0

/-- CODEWORD_RX. -/
def execCodewordRx (fport seq : Nat) (good _fill : Bool) (s : State) : Host.Outcome State Fault Refusal :=
  .next (whenAwake s (fun s =>
    let v := fportAt s fport
    if !linked v || decide (8 ≤ fport) then s
    else if good then
      if seq % 4096 = v.rxSeq then
        let s1 := setFport fport { v with rxSeq := (v.rxSeq + 1) % 4096, nakOut := false } s
        if (v.rxSeq + 1) % 64 = 0 then sendLink fport (.ack v.rxSeq) s1 else s1
      else s
    else
      let s1 := count (fptPage fport) 0xE28 s
      if v.nakOut ∧ seq % 4096 ≠ v.rxSeq then s1
      else sendLink fport (.nak v.rxSeq) (modFport fport (fun v => { v with nakOut := true }) s1)))

/-- LINK. -/
def execLink (fport : Nat) (msg : LinkMsg) (s : State) : Host.Outcome State Fault Refusal :=
  .next (whenAwake s (fun s =>
    if !linked (fportAt s fport) || decide (8 ≤ fport) then s
    else
      let s1 := rxPacket fport 0x3E 0 0 s
      let v := fportAt s1 fport
      match msg with
      | .ack seq => setFport fport { v with ackedSeq := (seq + 1) % 4096, replays := 0 } s1
      | .nak seq =>
        let again := if seq % 4096 = v.ackedSeq then v.replays + 1 else 1
        let s2 := countBy (fptPage fport) 0xE20 ((v.txSeq + 4096 - seq % 4096) % 4096)
          (setFport fport { v with ackedSeq := seq % 4096, replays := again } s1)
        if 8 ≤ again then retrainPort fport rsnReplay s2 else s2
      | .credit cls vl units =>
        if v.state ≠ .up ∨ 4 ≤ cls then s1
        else
          let k := 2 * cls + vl % 2
          flushQueue fport (setFport fport { v with credits := tput 0 v.credits k (min (poolOf s cls) (tget 0 v.credits k + units)) } s1)))

/-- CREDIT_STALL: a class has waited CREDIT_STALL_US with no credit for the packet at its head. -/
def execCreditStall (fport cls vl : Nat) (s : State) : Host.Outcome State Fault Refusal :=
  .next (whenAwake s (fun s =>
    let v := fportAt s fport
    let k := 2 * cls + vl % 2
    if fport < 8 ∧ v.state = .up ∧ queuedFor v k ∧ tget 0 v.stalled k + 1000 * fld s (fptPage fport) 0x400 63 48 ≤ s.now then retrainPort fport rsnCredit s else s))

/-! Packets (R339 – R347) -/

/-- Take a packet off a port, dropping one with a spoofed source. -/
def onPacket (fport : Nat) (p : Pkt) (len : Nat) (body : State → State) (s : State) : Host.Outcome State Fault Refusal :=
  .next (whenAwake s (arrive fport p.type p.src (p.flags % 2) len body))

/-- Forward a packet for another device. (DEDUCED: notes/assumptions/62.md) -/
def relay (fport : Nat) (p : Pkt) (data : List Byte) (s : State) : State :=
  if p.dst = ownId s then s
  else if 3 ≤ pktClass p.type then count (fptPage fport) 0xE60 s
  else if p.hops ≤ 1 then count (fptPage fport) 0xE58 s
  else match routePort s p.dst with
  | none =>
    let s1 := count Pg.ftb 0xE28 s
    if pktClass p.type = 0 then sendError fport p.src p.tag .fabricUnreachable s1 else s1
  | some out =>
    let vl := if flag s (fptPage out) 0x40 2 then 1 else p.flags % 2
    count (fptPage out) 0xE18 (sendPkt out { p with hops := p.hops - 1, flags := p.flags / 2 * 2 + vl } data s)

/-- PACKET_RELAY. (DEDUCED: notes/assumptions/62.md) -/
def execPacketRelay (fport : Nat) (p : Pkt) (data : List Byte) (s : State) : Host.Outcome State Fault Refusal :=
  onPacket fport p data.length (relay fport p data) s

/-- A malformed packet is dropped; at BAD_PKT_LIMIT of them within 1 ms the link retrains (Table 14-5). -/
def badPacket (fport : Nat) (s : State) : State :=
  let v := fportAt s fport
  let l := v.badPkts.filter (fun t => decide (s.now < t + ms)) ++ [s.now]
  let s1 := count (fptPage fport) 0xE40 (setFport fport { v with badPkts := l } s)
  if fld s (fptPage fport) 0x400 23 16 ≤ l.length then retrainPort fport rsnSession s1 else s1

/-- READ. -/
def execRead (fport : Nat) (p : Pkt) (s : State) : Host.Outcome State Fault Refusal :=
  onPacket fport p 0 (fun s => if p.dst ≠ ownId s then s else if partOk p.addr (p.spec % 8192) then fabricRead fport p s else badPacket fport s) s

/-- WRITE. -/
def execWrite (fport : Nat) (p : Pkt) (data : List Byte) (s : State) : Host.Outcome State Fault Refusal :=
  onPacket fport p data.length (fun s => if p.dst ≠ ownId s then s else if partOk p.addr data.length then fabricWrite fport p data s else badPacket fport s) s

/-- TABLE_SLOTS. -/
def execTableSlots (fport slots : Nat) (s : State) : Host.Outcome State Fault Refusal :=
  .next (whenAwake s (arrive fport 0x13 (fportAt s fport).partner.dev 0 0 (fun s =>
    modFport fport (fun v => { v with partner := { v.partner with slots := slots % 8192 } }) s)))

/-- PROBE. -/
def execProbe (fport : Nat) (p : Pkt) (s : State) : Host.Outcome State Fault Refusal :=
  onPacket fport p 0 (fun s => if p.dst = ownId s then answer fport (respPkt s 0x32 p.src p.tag 0 0) [] s else s) s

/-- PROBE_REPLY: the device is a member for 1 s (R344). -/
def execProbeReply (fport : Nat) (p : Pkt) (s : State) : Host.Outcome State Fault Refusal :=
  onPacket fport p 0 (fun s =>
    if p.dst = ownId s then
      setFtb { s.ftb with members := tins s.ftb.members p.src s.now,
                          probes := s.ftb.probes.filter (fun d => decide (d ≠ p.src)) } s
    else s) s

/-- PROBE_SEND: a loaded recipe lists the device and reaches it by relay. -/
def execProbeSend (dev : Nat) (s : State) : Host.Outcome State Fault Refusal :=
  .next (whenAwake s (fun s =>
    if s.rcp.recipes.any (fun e => match e.2 with
        | some q => q.img.peers.any (fun x => decide (x.dev = dev) && decide (x.ports = 0))
        | none => false) && decide (tget 0 s.ftb.probedAt dev = 0 ∨ tget 0 s.ftb.probedAt dev + 250000000 ≤ s.now + 1) then
      sendProbe dev { s with ftb := { s.ftb with probedAt := tput 0 s.ftb.probedAt dev (s.now + 1) } }
    else s))

/-! Fabric grants (R345, R348) -/

/-- The run of a grant passes the tests of R42 for the local context, as a window with these rights would. -/
def grantRunOk (s : State) (fn ctx : Nat) (wr : Bool) (first len : Nat) : Bool :=
  decide ((ctxAt s ctx).state = .active) && decide (fnPort (ctxFn s ctx) = fnPort fn) && decide (first + len ≤ s.ple.presented) &&
    (slabList first len).all (windowRightOk s ctx wr)

/-- The result of a grant operation (FTB_GRANT_SEL.STATUS). (DEDUCED: notes/assumptions/62.md) -/
def grantResult (st : Status) (s : State) : State := setFtb { s.ftb with grantStatus := st.code } s

def refuseGrant (st : Status) (s : State) : State := grantResult st (count Pg.ftb 0xE30 s)

/-- A grant with the fields of FTB_GRANT_A, _B and _BW. -/
def grantFields (s : State) : Grant :=
  let f := fld s Pg.ftb
  { rd := flag s Pg.ftb 0x80 62, wr := flag s Pg.ftb 0x80 61, stale := false, remoteDev := f 0x80 56 40,
    remoteCtx := f 0x80 39 20, localCtx := f 0x80 19 0, first := f 0x88 23 0, length := f 0x88 47 24 + 1,
    b1 := f 0x90 19 0, b2 := f 0x90 39 20, b3 := f 0x90 59 40 }

/-- Write INDEX of FTB_GRANT_SEL. -/
def selectGrant (index : Nat) (s : State) : State := setReg Pg.ftb 0x78 (BitVec.ofNat 64 (index % 16384)) s

/-- GRANT_CREATE. (DEDUCED: notes/assumptions/62.md) -/
def execGrantCreate (w index : Nat) (s : State) : Host.Outcome State Fault Refusal :=
  .next (ownedWrite w Pg.ftb (fun s =>
    let s := selectGrant index s
    let g := grantFields s
    if !grantRunOk s w g.localCtx g.wr g.first g.length then refuseGrant .accessDenied s
    else
      let t := setGrant (index % 16384) (some g) s
      match admitFail s t with
      | some (c, req, room) =>
        refuseGrant .guaranteeUnavailable (refusedAdmission (noteRefusal .guaranteeUnavailable c req room s))
      | none =>
        if (grantAt s (index % 16384)).isSome then refuseGrant .noCapacity s
        else grantResult .ok (settleScales (admitted t))) s)

/-- GRANT_DESTROY. (DEDUCED: notes/assumptions/62.md) -/
def execGrantDestroy (w index : Nat) (s : State) : Host.Outcome State Fault Refusal :=
  .next (ownedWrite w Pg.ftb (fun s =>
    let s := selectGrant index s
    match grantAt s (index % 16384) with
    | none => grantResult .accessDenied s
    | some g =>
      if fnPort (ctxFn s g.localCtx) ≠ fnPort w then grantResult .accessDenied s
      else grantResult .ok (settleScales (setGrant (index % 16384) (some { g with stale := true }) s))) s)

/-- GRANT_DRAIN_END: the requests that had passed the access check have completed. -/
def execGrantDrainEnd (index : Nat) (s : State) : Host.Outcome State Fault Refusal :=
  .next (whenAwake s (fun s =>
    match grantAt s index with
    | some g => if g.stale ∧ outstanding s g = 0 then setGrant index none s else s
    | none => s))

/-- FTB_IDENTITY_WRITE (R352). (DEDUCED: notes/assumptions/62.md) -/
def execFtbIdentityWrite (w : Nat) (value : Word) (s : State) : Host.Outcome State Fault Refusal :=
  .next (ownedWrite w Pg.ftb (fun s =>
    if (List.range 8).all (fun p => decide ((fportAt s p).state = .down)) then
      settleParent (setReg Pg.ftb 0x40 (BitVec.ofNat 64 (bits value 16 0 + place (bits value 31 31) 31 1)) s)
    else noteErr Pg.ftb kindRefusedState .accessDenied 0x40 w s) s)

/-! Faults of a link (R326, R351) -/

/-- The bound of a step of Table 14-2 in microseconds; step 2 follows step 1. -/
def stepBoundUs : Nat → Nat
  | 1 => 50000 | 2 => 1000 | 3 => 1000 | 5 => 300000 | 6 => 1000 | 7 => 1100 | 8 => 400000 | _ => 0

/-- LINK_BRINGUP_TIMEOUT: a step of Table 14-2 exceeds its bound. (DEDUCED: notes/assumptions/60.md) -/
def execLinkBringupTimeout (fport step : Nat) (s : State) : Host.Outcome State Fault Refusal :=
  .next (whenAwake s (fun s =>
    let v := fportAt s fport
    if 8 ≤ fport ∨ s.now < (if step = 8 then v.trainAt else v.stepAt) + stepBoundUs step * 1000 then s
    else match v.state with
    | .training => if step = 1 ∨ step = 2 then downPort fport rsnSignal s else s
    | .auth =>
      if (step = 5 ∧ !v.spdmDone ∧ v.nonce.isNone) ∨ (step = 6 ∧ v.spdmDone) then authFail fport rsnAuth s
      else if step = 3 ∧ v.nonce.isSome then retrainPort fport rsnSession s
      else s
    | .time => if step = 7 ∨ step = 8 then retrainPort fport rsnSession s else s
    | _ => s))

/-- FABRIC_SIGNAL_LOSS. -/
def execFabricSignalLoss (fport : Nat) (s : State) : Host.Outcome State Fault Refusal :=
  .next (whenAwake s (fun s =>
    let v := fportAt s fport
    if fport < 8 && (linked v || decide (v.state = .training)) then
      downPort fport rsnSignal (setFport fport { v with lanes := 0 } s)
    else s))

/-- MALFORMED_PACKET: a malformed packet, or one whose tag or counter fails. -/
def execMalformedPacket (fport : Nat) (kind : BadPkt) (s : State) : Host.Outcome State Fault Refusal :=
  .next (whenAwake s (fun s =>
    let v := fportAt s fport
    let recent (l : List Nat) : List Nat := l.filter (fun t => decide (s.now < t + ms)) ++ [s.now]
    if !linked v || decide (8 ≤ fport) then s
    else match kind with
    | .malformed => badPacket fport s
    | .tag =>
      let l := recent v.tagFails
      let s1 := count (fptPage fport) 0xE38 (setFport fport { v with tagFails := l } s)
      if 4 ≤ l.length then endSession fport s1 else s1))

end Sys2Proof.Machine
end

