-- ==== Sys2Proof/Machine/Flash.lean ====
section
/-! DEFINITION. Sys2Proof/Machine/Flash.lean: mount, programming, collection, die retirement and recovery of the flash tier
(chapter The Flash Tier; rows FLASH_MOUNT_DONE to CXL_FLASH_DEADLINE). -/

namespace Sys2Proof.Machine

/-! Mount (R134 – R139) -/

/-- The first row of Table 06-1 that a target fails, 0 for none. -/
def firstFail (x : FlashTarget) : Nat :=
  if !x.interface then 1
  else if !x.paramOk then 2
  else if x.pageBytes ≠ 16384 then 3
  else if x.spareBytes < 1792 then 4
  else if 45 < x.trUs then 5
  else if !x.suspend ∨ 20 < x.suspendUs then 6
  else if x.family.isNone then 7
  else 0

/-- A target is usable: it answers, meets Table 06-1, has trained, and its channel passed the self-test (R135, Table 08-7). -/
def targetUsable (barred : Bool) (x : FlashTarget) : Bool := x.answers && decide (firstFail x = 0) && x.trained && !barred

/-- Two targets have the geometry that a group's targets share (R134). (DEDUCED: notes/assumptions/35.md) -/
def sameGeometry (x y : FlashTarget) : Bool :=
  decide (x.family = y.family) && decide (x.pagesPerBlock = y.pagesPerBlock) && decide (x.blocksPerLun = y.blocksPerLun) &&
    decide (x.lunsPerTarget = y.lunsPerTarget)

/-- The targets that a mount finds on a channel, and the usable ones. -/
def chanTargets (r : FlashReport) (c : Nat) : List FlashTarget := r.chans.getD c []

def usableTargets (s : State) (r : FlashReport) (c : Nat) : List FlashTarget :=
  (chanTargets r c).filter (targetUsable (s.fmg.barred.contains c))

/-- The 16 channels of a group. -/
def groupChans (g : Nat) : List Nat := (List.range 16).map (· + 16 * g)

/-- The state in which a mount leaves a group: ABSENT when nothing answers, ONLINE when each channel has a usable target and all
have one geometry, else FAILED (R134). (DEDUCED: notes/assumptions/35.md) -/
def groupOutcome (s : State) (g : Nat) (r : FlashReport) : GroupState :=
  let all := (groupChans g).flatMap (usableTargets s r)
  if (groupChans g).all (fun c => !(chanTargets r c).any (·.answers)) then .absent
  else if (groupChans g).all (fun c => !(usableTargets s r c).isEmpty) && all.all (fun x => all.head?.any (sameGeometry x)) then .online
  else .failed

/-- Pages of a target. -/
def targetPages (x : FlashTarget) : Nat := x.lunsPerTarget * x.blocksPerLun * x.pagesPerBlock

/-- Frames that a mounted group counts (R139): pages of 16 KiB in frames of 16 MiB. (DEDUCED: notes/assumptions/35.md) -/
def groupFrames (v : Group) : Nat := if v.state = .online then v.rawPages * 15 * 90 / (16 * 100 * 1024) else 0

/-- Bits, one per CE_N, of the targets that satisfy `p`. -/
def ceBits (p : FlashTarget → Bool) (l : List FlashTarget) : Nat := listSum (l.zipIdx.map (fun x => if p x.1 then 2 ^ x.2 else 0))

/-- The system area knows the package at a CE_N by its unique ID. -/
def knownPackage (f : Flc) (ce uid : Nat) : Bool := (tget none f.known ce).any (fun k => decide (k.1 = uid))

/-- A target whose package is new: its erase blocks and dies start anew, with the factory bad-block markers (step 5). (DEDUCED: notes/assumptions/35.md) -/
def scanTarget (ce : Nat) (x : FlashTarget) (f : Flc) : Flc :=
  let per := x.lunsPerTarget * x.blocksPerLun
  let old := tkeep (fun n => decide (n < ce * per) || decide ((ce + 1) * per ≤ n)) f.blocks
  { f with blocks := (x.badBlocks.filter (fun n => decide (n < per))).foldl
             (fun t n => tput EraseBlock.reset t (ce * per + n) { EraseBlock.reset with state := .bad }) old,
           retired := f.retired.filter (fun d => decide (d / x.lunsPerTarget ≠ ce)) }

/-- Meet one usable target: an unknown package is scanned, and its unique ID and training result are kept. -/
def meetTarget (a : Flc × Bool) (x : FlashTarget × Nat) : Flc × Bool :=
  let there := knownPackage a.1 x.2 x.1.uid
  let f := if there then a.1 else scanTarget x.2 x.1 a.1
  ({ f with known := tput none f.known x.2 (some (x.1.uid, x.1.training)) }, a.2 || !there)

/-- One channel after discovery, and whether a target of it was scanned. (DEDUCED: notes/assumptions/35.md) -/
def mountChan (s : State) (r : FlashReport) (c : Nat) : Flc × Bool :=
  let l := chanTargets r c
  let ok := targetUsable (s.fmg.barred.contains c)
  let good := l.filter ok
  let f := flcAt s c
  let geo (p : FlashTarget → Nat) : Nat := (good.head?.map p).getD 0
  let base : Flc := { f with present := ceBits (·.answers) l, usable := ceBits ok l,
                             trained := !good.isEmpty && l.all (fun x => !(x.answers && x.paramOk) || x.trained),
                             family := geo (fun x => x.family.getD 0), pagesPerBlock := geo (·.pagesPerBlock),
                             blocksPerLun := geo (·.blocksPerLun), lunsPerTarget := geo (·.lunsPerTarget),
                             endurance := (good.map (·.endurance)).foldl min (geo (·.endurance)),
                             blocks := unusedBlocks (fun b => decide (b.state = .used)) f.blocks, faults := [] }
  (l.zipIdx.filter (fun x => ok x.1)).foldl meetTarget (base, false)

/-- The system area of a group lies in the first good erase block of its first channel (R160). (DESIGN CHOICE: notes/assumptions/90.md) -/
def placeSystem (f : Flc) : Flc :=
  if f.blocks.any (fun x => decide (x.2.state = .system) && onDie f x.1) then f
  else match (diesOf f).findSome? (fun d => findFrom (fun n => decide ((blockAt f n).state = .free)) (d * f.blocksPerLun) f.blocksPerLun) with
    | some n => setBlock n { blockAt f n with state := .system } f
    | none => f

/-- Erase `n` superblocks ahead (step 6 of Table 06-2). -/
def preErase : Nat → LogRows → LogRows
  | 0, l => l
  | n + 1, l => match formSb .erased l with | some (_, l1) => preErase n l1 | none => l

/-- Mount one group (steps 4 and 6): the system area keeps bad blocks and erase counts (R160). -/
def mountGroup (g : Nat) (r : FlashReport) (s : State) : State :=
  let all := (groupChans g).flatMap (usableTargets s r)
  let out := groupOutcome s g r
  let v : Group := { Group.reset with state := out, rowsPerSb := (all.head?.map (·.pagesPerBlock)).getD 0,
                                      rawPages := listSum (all.map targetPages) }
  let s1 := setFgroup g v s
  if out = .online then
    let s2 := setFlc (16 * g) (placeSystem (flcAt s1 (16 * g))) s1
    putLog g (preErase (fld s Pg.fmg 0x400 15 8) (logOf g s2)) s2
  else s1

/-- FMG_STATUS.REASON: the first target, by channel and CE_N, that fails a row of Table 06-1, with the row. (DEDUCED: notes/assumptions/35.md) -/
def mountReason (r : FlashReport) : Nat :=
  ((r.chans.zipIdx.flatMap (fun c => (c.1.filter (fun x => x.answers && decide (firstFail x ≠ 0))).map
    (fun x => c.2 * 2 ^ 11 + firstFail x))).head?).getD 0

/-- The channels after discovery, with what the last mount scanned. -/
def mountChans (r : FlashReport) (s : State) : State :=
  let l := (List.range 32).map (mountChan s r)
  { s with fmg := { s.fmg with flcs := l.zipIdx.foldl (fun t x => tput Flc.reset t x.2 x.1.1) s.fmg.flcs, scanned := l.any (·.2) } }

/-- The mount of step 12 of Table 18-1 is reported on the console (R441); one that a profile write started is no boot step. (DESIGN CHOICE: notes/assumptions/91.md) -/
def noteMount (s : State) : State := if s.dev.state = .inProgress then s else emit (.console (.bootStep 12)) s

/-- FLASH_MOUNT_DONE: a mount ends with what discovery found. (DEDUCED: notes/assumptions/35.md) -/
def execFlashMountDone (report : FlashReport) (s : State) : Host.Outcome State Fault Refusal :=
  .next (whenAwake s (fun s =>
    if !s.fmg.mounting then s
    else
      let (key, s0) := draw s
      let s1 := mountGroup 1 report (mountGroup 0 report (mountChans report
        { s0 with fmg := { s0.fmg with mounting := false, reason := mountReason report, mediaKey := key, nextGen := 0 } }))
      let s2 := noteMount { s1 with fmg := { s1.fmg with usableFrames := groupFrames s1.fmg.g0 + groupFrames s1.fmg.g1 } }
      if t3Online s2 then retryHeld (settleScales (recountSlabs s2)) else s2))

/-! Programming (R140, R141) -/

/-- FLASH_PROGRAM_DONE: the stripe of a slab on its way into T3 has programmed. With no free superblock it waits (R143). -/
def execFlashProgramDone (slab : Nat) (s : State) : Host.Outcome State Fault Refusal :=
  .next (whenAwake s (fun s =>
    match moveOf s slab with
    | some m =>
      match m.frame with
      | some g =>
        if m.target ≠ .t3 ∨ m.phase = .queued ∨ m.programmed then s
        else match programSlot g m.copied m.rewrite s with
          | some t => modMove slab (fun x => { x with programmed := true, rewrite := [] }) t
          | none => s
      | none => s
    | none => s))

/-- Local rows of a slot that lie in some superblocks. -/
def rowsIn (x : Slot) (ks : List Nat) : List Nat :=
  ((slotRows x).zipIdx.filter (fun r => ks.contains r.1.1)).map (·.2)

/-- The rows of the slab that a program failure concerns are written again before the flip (R141). -/
def rewriteRows (slab : Nat) (ks : List Nat) (s : State) : State :=
  modMove slab (fun m =>
    if m.target = .t3 ∧ m.phase ≠ .queued then
      { m with programmed := false,
               rewrite := (m.rewrite ++ ((m.frame.bind (slotAt s)).map (fun x => rowsIn x ks)).getD []).eraseDups }
    else m) s

/-- PROGRAM_FAILURE of a page of superblock `sb` on a channel: the erase block is out of use, and the rows of the slab that it
concerns are written again in fresh rows. -/
def execProgramFailure (slab channel sb : Nat) (s : State) : Host.Outcome State Fault Refusal :=
  .next (whenAwake s (fun s =>
    match (if 32 ≤ channel then none else (sbAt (fgroup s (channel / 16)) sb).blocks[channel % 16]?) with
    | none => s
    | some n =>
      if (blockAt (flcAt s channel) n).state ≠ .used then s
      else rewriteRows slab [sb] (retireBlock channel n (count Pg.fmg 0xE40 (noteFault channel n s)))))

/-- ERASE_FAILURE of an erase block of a channel of a group: it is out of use. -/
def execEraseFailure (group channel block : Nat) (s : State) : Host.Outcome State Fault Refusal :=
  .next (whenAwake s (fun s =>
    let c := 16 * group + channel
    if 2 ≤ group ∨ 16 ≤ channel ∨ !onDie (flcAt s c) block ∨ (blockAt (flcAt s c) block).state = .bad then s
    else retireBlock c block (noteFault c block s)))

/-! Collection and wear (R143 – R146, R152) -/

/-- Write a slab's ciphertext and generation again at the head of the log, once all its pages can be read: a codeword that fails
goes through recovery first (R143), and descriptor pages are rebuilt (R154). (DEDUCED: notes/assumptions/34.md) -/
def relocate (frame : Nat) (x : Slot) (s : State) : State :=
  match scanBlocksOf x.slab .t3 frame (fun _ => true) (rebuildPages frame s) with
  | (s1, false) => s1
  | (s1, true) =>
    match appendRows x.group 69 s1 with
    | none => s1
    | some (rows, t) =>
      let lo := homeKey .t3 frame 0
      let fresh := (tkeys (fun k _ => decide (lo ≤ k) && decide (k < lo + 4096)) t.plants).foldl
        (fun s k => setPlant k { plantAt s k with corr := [] } s) t
      let s2 := setSlot frame (some { x with where_ := toExtents rows }) fresh
      count Pg.fmg 0xE30 (freeEmptySbs x.group
        { s2 with fmg := { s2.fmg with relocating := s2.fmg.relocating.filter (fun f => decide (f ≠ frame)) } })

/-- A move of classes 1 to 3 that reads or writes T3 can start now: urgent collection lets it go first (R143). -/
def movesFirst (s : State) : Bool :=
  decide (activeMoves s < fld s Pg.mge 0x410 31 26) &&
    (queueOrder s).any (fun m => decide (m.cls ≤ 3) && touchesT3 s m && (startFrame m s).isSome)

/-- GC_RELOCATE: one slab is relocated, or superblocks without valid pages are collected. -/
def execGcRelocate (group : Nat) (s : State) : Host.Outcome State Fault Refusal :=
  .next (whenAwake s (fun s =>
    if 2 ≤ group ∨ (fgroup s group).state ≠ .online ∨ (gcUrgent s group ∧ movesFirst s) then s
    else match gcFrame s group with
      | some f =>
        match slotAt s f with
        | some x => relocate f x s
        | none => s
      | none => if (victim s group).isSome then freeEmptySbs group s else s))

/-- Different erase blocks of a die that failed within 24 h. -/
def faultyBlocks (s : State) (f : Flc) (die : Nat) : Nat :=
  ((f.faults.filter (fun x => decide (blockDie f x.2 = die) && decide (s.now < x.1 + 86400000000000))).map (·.2)).eraseDups.length

/-- Retire a die: its superblocks take no further rows, the slabs in them are relocated at URGENT priority, and its pages are read by
rebuild until then (R146). -/
def retireDie (channel die : Nat) (s : State) : State :=
  let g := channel / 16
  let f := flcAt s channel
  let ks := sbsWith (fgroup s g) (channel % 16) (fun n => decide (blockDie f n = die))
  let hit := s.fmg.slots.filterMap (fun p => match p.2 with
    | some x => if x.group = g ∧ (slotRows x).any (fun r => ks.contains r.1) then some p.1 else none
    | none => none)
  let s1 := setFlc channel { f with retired := f.retired ++ [die], faults := f.faults.filter (fun x => decide (blockDie f x.2 ≠ die)) } s
  sparingEvent Pg.fmg (settleSpare (hit.foldl (fun s k => queueUrgent k s) (closeSbs g ks s1)))

/-- DIE_RETIRE: a die of a channel has failed in DIE_FAULTS different blocks within 24 h, or has stopped responding. (DESIGN CHOICE: notes/assumptions/7.md) -/
def execDieRetire (loss : DieLoss) (s : State) : Host.Outcome State Fault Refusal :=
  .next (whenAwake s (fun s =>
    let f := flcAt s loss.channel
    if 32 ≤ loss.channel ∨ (fgroup s (loss.channel / 16)).state ≠ .online ∨ !(diesOf f).contains loss.die then s
    else if loss.dead || decide (fld s Pg.fmg 0x408 31 24 ≤ faultyBlocks s f loss.die) then retireDie loss.channel loss.die s
    else s))

/-! Recovery (R150 – R157) -/

/-- The recovery of a block. -/
def recoveryOf (s : State) (slab b : Nat) : Option Recovery :=
  s.fmg.recoveries.find? (fun r => decide (r.block = blockIdx slab b))

def dropRecovery (slab b : Nat) (s : State) : State :=
  { s with fmg := { s.fmg with recoveries := s.fmg.recoveries.filter (fun r => decide (r.block ≠ blockIdx slab b)) } }

/-- Contexts that hold a right to a slab: its owner and the members of its group (R155). -/
def mappers (s : State) (slab : Nat) : List Nat :=
  let e := mapAt s slab
  ownerOf s e :: (if e.shared then
    s.ple.members.filterMap (fun p => match p.2 with
      | some m => if m.group = e.owner then some m.ctx else none
      | none => none) else [])

/-- Step 3: the block is poisoned, and every party told (Table 06-5); `det` found the failure. A block that the full record cannot
take is noted, so that a stream waiting for it ends (R153). -/
def poisonFlash (det slab b : Nat) (waiters : List FlashWaiter) (s : State) : State :=
  let e := mapAt s slab
  let who := mappers s slab
  let (ch, cw) := codewordPlace ((slotAt s e.frame).map (·.group) |>.getD 0) b
  let full := decide (65536 ≤ s.fmg.poisonRec.length)
  let k := blockIdx slab b
  let s1 := { s with
    fmg := { s.fmg with poisonRec := if full then s.fmg.poisonRec else s.fmg.poisonRec ++ [k],
                        unentered := if full then s.fmg.unentered ++ [k] else s.fmg.unentered,
                        poisonLast := (slab, b, who.length, cw, ch) },
    ice := { s.ice with lastUe := ⟨5, 3, det, ownerOf s e, k⟩ } }
  let s2 := count Pg.fmg 0xE20 (if full then count Pg.fmg 0xE50 s1 else s1)
  let s3 := who.foldl (fun s c => raise Pg.fmg .poisoned .deferred 5 c k 0 [ctxFn s c] true s) (if det = 0 then count Pg.ice 0xE18 s2 else s2)
  readsEnded (waiters.foldl (fun s w => answerBad w.src .poisoned s) (dropTray slab b s3))

/-- The recovery of a block ends without success: the block is poisoned, unless it is already. -/
def failRecovery (slab b : Nat) (s : State) : State :=
  match recoveryOf s slab b with
  | none => s
  | some r => if flashPoison s slab b then dropRecovery slab b s else poisonFlash r.det slab b r.waiters (dropRecovery slab b s)

/-- The recovered bytes of a block pass R78. -/
def recoveredOk (s : State) (slab b : Nat) : Bool :=
  let e := mapAt s slab
  match e.tier with
  | none => false
  | some t =>
    let d := descAt s (homeKey t e.frame b)
    match decodeDesc s d (homeBytes s t e.frame b) with
    | .ok out => decide (crc32c out = d.crcA) || decide (crc32c out = d.copyB)
    | .error _ => false

/-- A codeword has been recovered: its slab is relocated, and what waited is served (R152). -/
def recovered (slab b : Nat) (r : Recovery) (counter : Nat) (s : State) : State :=
  let e := mapAt s slab
  let hb := homeKey .t3 e.frame b
  let s1 := queueUrgent e.frame (setPlant hb { plantAt s hb with ue := [] } (count Pg.fmg counter (dropRecovery slab b s)))
  readsEnded (r.waiters.foldl (fun s w => serveWaiter slab b w s) s1)

def setRecovery (slab b : Nat) (f : Recovery → Recovery) (s : State) : State :=
  { s with fmg := { s.fmg with recoveries := s.fmg.recoveries.map (fun r => if r.block = blockIdx slab b then f r else r) } }

/-- Blocks of the row whose rebuild waits for the ladder of block `b`. -/
def rebuildsOn (s : State) (slab b : Nat) : List Nat :=
  (rowMates b).filter (fun x => (recoveryOf s slab x).any (·.rebuild))

/-- The ladder on a codeword has ended without recovery: rebuild starts, with the ladders of the other failing codewords of the row;
when another rebuild needs this codeword, or a page of the row is out of use, none can succeed, and the blocks are poisoned at
this moment (R150). -/
def ladderEnds (slab b : Nat) (r : Recovery) (s : State) : State :=
  let stuck := rebuildsOn s slab b
  if stuck.isEmpty && !(rowMates b).any (fun x => pageLost s (mapAt s slab).frame x) then
    startMates r.det slab b (setRecovery slab b (fun r => { r with step := r.step + 1, rebuild := true }) s)
  else stuck.foldl (fun s x => failRecovery slab x s) (failRecovery slab b s)

/-- RETRY_STEP_DONE: a step of the ladder has ended. (DESIGN CHOICE: notes/assumptions/7.md) -/
def execRetryStepDone (slab block : Nat) (ok : Bool) (s : State) : Host.Outcome State Fault Refusal :=
  .next (whenAwake s (fun s =>
    match recoveryOf s slab block with
    | none => s
    | some r =>
      if r.rebuild ∨ (mapAt s slab).tier ≠ some .t3 then s
      else if ok && recoveredOk s slab block then recovered slab block r 0xE10 s
      else if r.step + 1 < fld s Pg.fmg 0x410 3 0 then
        setRecovery slab block (fun r => { r with step := r.step + 1, soft := softStep s (r.step + 1) }) s
      else ladderEnds slab block r s))

/-- REBUILD_DONE: the row has been read and the codeword reconstructed, or not: `ok` says whether the pages of the row that hold no
block could be read. While the ladder of another codeword of the row runs, the rebuild has not ended. (DESIGN CHOICE: notes/assumptions/7.md) -/
def execRebuildDone (slab block : Nat) (ok : Bool) (s : State) : Host.Outcome State Fault Refusal :=
  .next (whenAwake s (fun s =>
    match recoveryOf s slab block with
    | none => s
    | some r =>
      let frame := (mapAt s slab).frame
      if !r.rebuild ∨ (mapAt s slab).tier ≠ some .t3 then s
      else if (rowMates block).any (fun x => pageLost s frame x) then failRecovery slab block s
      else if !(failingMates s frame block).isEmpty then startMates r.det slab block s
      else if ok && recoveredOk s slab block then recovered slab block r 0xE18 s
      else failRecovery slab block s))

/-- The longest time that a ladder takes in µs, and the bound of a recovery (R151). -/
def ladderBound (s : State) : Nat :=
  listSum ((List.range (fld s Pg.fmg 0x410 3 0)).map (fun n => if softStep s n then 150 else 50))

def recoveryBound (s : State) : Nat := 2 * ladderBound s + 100

/-- CXL_FLASH_DEADLINE: a CXL.mem read has waited 120 µs (R149). -/
def execCxlFlashDeadline (port dpa : Nat) (s : State) : Host.Outcome State Fault Refusal :=
  .next (whenAwake s (fun s =>
    let a := dpa / 64 * 64
    let mine (w : FlashWaiter) : Bool := decide (w.src = .cxl port a) && decide (w.since + 120000 ≤ s.now)
    match s.fmg.recoveries.find? (fun r => r.waiters.any mine), dpaOf s port a with
    | some r, some (_, p, _) =>
      let s1 := { s with fmg := { s.fmg with recoveries := s.fmg.recoveries.map (fun x =>
        if x.block = r.block then { x with waiters := x.waiters.eraseP mine } else x) } }
      readsEnded (poisonCxl port a
        (raise Pg.fmg .poisoned .contained 7 p.ctx r.block 0 [pfOf port] true (count Pg.fmg 0xE28 s1)))
    | _, _ => s))

end Sys2Proof.Machine
end

