-- ==== Sys2Proof/Machine/HostIf.lean ====
section
/-! DEFINITION. Sys2Proof/Machine/HostIf.lean: the host interface (chapter Host Interface; rows CONFIG_REQUEST to BME_CLEAR,
IDE_FAILURE, CXL_MAILBOX_COMMAND and SPDM_DOE). -/

namespace Sys2Proof.Machine

/-! Ring and event registers (R362, R385, R453) -/

/-- A write of function `f` to its own ring or event registers: for a PF in the HIU page of its port, under that page's
claim; for a VF in its control page. -/
def ownRegister (f : Nat) (body : State → State) (s : State) : State :=
  if isPf f then ownedWrite f (Pg.hiu + fnPort f) body s
  else if awake s && fnLive s f && decide ((func s f).phase = .ready) && !(func s f).d3hot then body s
  else s

/-- A ring leaves ACTIVE for ERROR (R471). (DEDUCED: notes/assumptions/63.md) -/
def ringError (f n : Nat) (st : Status) (s : State) : State :=
  modRing f n (fun q => { q with state := .error, err := st.code, kept := [], fetchTag := none }) s

/-- Some entry of a PF's rings or event ring is not acknowledged: under INTx, INTA stays asserted (R360). -/
def unread (s : State) (f : Nat) : Bool :=
  (List.range 16).any (fun n => decide ((ringOf s f n).state = .active) && decide (cqUsed (ringOf s f n) ≠ 0)) ||
    ((func s f).evtOn && decide ((func s f).evtIdx ≠ (func s f).evtHead))

def settleIntx (f : Nat) (s : State) : State := if unread s f then s else modFunc f (fun u => { u with intx := false }) s

/-- Take a tag of a port for a host read (4,096 outstanding, 14-bit tags). (DESIGN CHOICE: notes/assumptions/9.md) -/
def takeTag (port : Nat) (use : TagUse) (s : State) : Option (Nat × State) :=
  if 4096 ≤ (hport s port).tags.length then none
  else match chooseFrom 16384 (fun t => (tfind (hport s port).tags t).isNone) s with
    | (some t, s1) => some (t, modHport port (fun h => { h with tags := tins h.tags t use, tagAt := tput 0 h.tagAt t s.now }) s1)
    | (none, _) => none

/-- Read the next submission entry, when the ring has one and no such read is out (R363, R364). (DEDUCED: notes/assumptions/63.md) -/
def issueFetch (f n : Nat) (s : State) : State :=
  if canFetch s f n && (ringOf s f n).fetchTag.isNone then
    match takeTag (fnPort f) (.fetch f n) s with
    | some (t, s1) => modRing f n (fun q => { q with fetchTag := some t }) s1
    | none => s
  else s

/-- DOORBELL (R363, R364). (DEDUCED: notes/assumptions/63.md) -/
def execDoorbell (fn ring tail : Nat) (s : State) : Host.Outcome State Fault Refusal :=
  .next (if 16 ≤ ring then s else ownRegister fn (fun s =>
    let q := ringOf s fn ring
    match q.state with
    | .active | .stopped =>
      if sqSize q ≤ tail then ringError fn ring .accessDenied s
      else issueFetch fn ring (setRing fn ring { q with sqTail := tail } s)
    | _ => setRing fn ring { q with sqTail := tail % 65536 } s) s)

/-- CQ_HEAD_WRITE (R364). -/
def execCqHeadWrite (fn ring head : Nat) (s : State) : Host.Outcome State Fault Refusal :=
  .next (if 16 ≤ ring then s else ownRegister fn (fun s =>
    let q := ringOf s fn ring
    match q.state with
    | .active | .stopped =>
      if cqSize q ≤ head ∨ cqUsed q < (head + cqSize q - q.cqHead) % cqSize q then ringError fn ring .accessDenied s
      else
        let u := (q.cqTail + cqSize q - head) % cqSize q
        issueFetch fn ring (settleIntx fn (setRing fn ring { q with cqHead := head, unsignalled := min q.unsignalled u } s))
    | _ => setRing fn ring { q with cqHead := head % 65536 } s) s)

/-- The fields of HIU_RING_CFGn. (DEDUCED: notes/assumptions/65.md) -/
def ringConfig (cfg : Word) (q : Ring) : Ring :=
  { q with intDelay := bits cfg 28 21, vector := bits cfg 20 10, cqLog := bits cfg 9 5, sqLog := bits cfg 4 0 }

/-- Base, size and vector keep R362. -/
def ringConfigOk (fn : Nat) (q : Ring) : Bool :=
  decide (4 ≤ q.sqLog) && decide (q.sqLog ≤ 16) && decide (4 ≤ q.cqLog) && decide (q.cqLog ≤ 16) &&
    decide (q.sqBase % max 4096 (64 * 2 ^ q.sqLog) = 0) && decide (q.cqBase % max 4096 (16 * 2 ^ q.cqLog) = 0) &&
    decide (q.vector < (if isPf fn then 2048 else 64))

/-- Re-arm a STOPPED ring: the completions that it kept are posted first (R379). (DEDUCED: notes/assumptions/65.md) -/
def rearm (fn n : Nat) (s : State) : State :=
  let q := ringOf s fn n
  issueFetch fn n (q.kept.foldl (fun s c => count (Pg.hiu + fnPort fn) 0xE08 (writeCpl fn n c s))
    (setRing fn n { q with state := .active, kept := [] } s))

/-- RING_ENABLE: HIU_RING_CFGn written with ENABLE = 1 (R362, R379, R471). (DEDUCED: notes/assumptions/65.md) -/
def execRingEnable (fn ring : Nat) (cfg : Word) (s : State) : Host.Outcome State Fault Refusal :=
  .next (if 16 ≤ ring then s else ownRegister fn (fun s =>
    let q := ringOf s fn ring
    let c := ringConfig cfg q
    let up := (func s fn).bme && !(func s fn).d3hot
    match q.state with
    | .active => setRing fn ring { q with intDelay := c.intDelay, vector := c.vector } s
    | .stopped =>
      if !ringConfigOk fn c then ringError fn ring .accessDenied (setRing fn ring c s)
      else if up then rearm fn ring (setRing fn ring c s)
      else setRing fn ring c s
    | _ =>
      if !ringConfigOk fn c then ringError fn ring .accessDenied (setRing fn ring c s)
      else if q.running.isEmpty then setRing fn ring (startRing c (if up then .active else .stopped)) s
      else setRing fn ring { c with enableWaits := true } s) s)

/-- RING_DISABLE: HIU_RING_CFGn written with ENABLE = 0 (R471). -/
def execRingDisable (fn ring : Nat) (cfg : Word) (s : State) : Host.Outcome State Fault Refusal :=
  .next (if 16 ≤ ring then s else ownRegister fn (fun s =>
    modRing fn ring (fun q =>
      { ringConfig cfg q with state := .disabled, err := 0, kept := [], fetchTag := none, enableWaits := false }) s) s)

/-- EVT_RING_ENABLE: HIU_EVT_CFG written with ENABLE = 1 (R369). A size outside 7 to 16 is refused. -/
def execEvtRingEnable (fn : Nat) (cfg : Word) (s : State) : Host.Outcome State Fault Refusal :=
  .next (ownRegister fn (fun s =>
    let log := bits cfg 4 0
    if log < 7 ∨ 16 < log then
      if isPf fn then noteErr (Pg.hiu + fnPort fn) kindRefusedValue .accessDenied 0x68 fn s else s
    else
      modFunc fn (fun u =>
        let v := { u with evtLog := log, evtVector := bits cfg 15 5, evtOverflow := u.evtOverflow && !bitOf cfg 30 }
        if u.evtOn then v else { v with evtOn := true, evtHead := 0, evtIdx := 0, evtPhase := true }) s) s)

/-! Fetching and completing (R363, R364, R376 – R378) -/

/-- Opcodes of Table 15-6. -/
def opcodes : List Nat := [0x01, 0x02, 0x03, 0x04, 0x05, 0x06, 0x10, 0x11, 0x20, 0x30, 0x40, 0x41, 0x42, 0x50]

/-- The command reads data from host memory. -/
def readsHost (op : Nat) : Bool := decide (op = Opc.compressIn) || decide (op = Opc.loadRecipe)

/-- Give a started command the tag of its host read. -/
def giveTag (f n cid op : Nat) (s : State) : State :=
  if readsHost op then
    match takeTag (fnPort f) (.cmd ⟨f, n, cid⟩) s with
    | some (t, s1) => modRing f n (fun q => { q with running := q.running.map (fun c =>
        if c.cid = cid ∧ c.op = op then { c with tag := some t } else c) }) s1
    | none => s
  else s

/-- A fetched entry starts, or completes at once when its header is refused. (DEDUCED: notes/assumptions/63.md) -/
def startEntry (f n : Nat) (e : SubEntry) (s : State) : State :=
  let r : RingCmd := ⟨f, n, e.cid % 65536⟩
  let s1 := takeEntry f n r.cid (e.opcode % 256) s
  if !opcodes.contains e.opcode || decide (2 ≤ e.flags) || !e.reservedZero then complete r (e.opcode % 256) .accessDenied 0 s1
  else if !s.dev.memEnabled && decide (e.opcode ≠ Opc.query) then complete r e.opcode .deviceNotReady 0 s1
  else giveTag f n r.cid e.opcode s1

/-- COMMAND_FETCH: a FENCE entry waits for every earlier command of its ring. (DEDUCED: notes/assumptions/63.md) -/
def execCommandFetch (fn ring : Nat) (res : FetchResult) (s : State) : Host.Outcome State Fault Refusal :=
  .next (whenAwake s (fun s =>
    if !canFetch s fn ring then s
    else
      let q := ringOf s fn ring
      let off (t : State) : State := setRing fn ring { ringOf t fn ring with fetchTag := none } t
      match res with
      | .entry e =>
        if e.flags % 2 = 1 ∧ q.running ≠ [] then s
        else
          let s1 := off (match q.fetchTag with | some t => dropTag (fnPort fn) t s | none => s)
          issueFetch fn ring (startEntry fn ring e s1)
      | .timeout =>
        ringError fn ring .dmaTimeout (noteAer fn aerTimeout (count (Pg.hiu + fnPort fn) 0xE28
          (off (match q.fetchTag with | some t => quarantineTag (fnPort fn) t s | none => s))))
      | .error =>
        ringError fn ring .dmaError (off (match q.fetchTag with | some t => dropTag (fnPort fn) t s | none => s))))

/-- The command that holds a tag ends. (DEDUCED: notes/assumptions/64.md) -/
def endTagged (r : RingCmd) (st : Status) (s : State) : State :=
  match (ringOf s r.fn r.ring).running.find? (fun c => decide (c.cid = r.cid)) with
  | some c => complete r c.op st 0 s
  | none => s

/-- DMA_COMPLETION. (DEDUCED: notes/assumptions/64.md) -/
def execDmaCompletion (port tag : Nat) (kind : CplKind) (s : State) : Host.Outcome State Fault Refusal :=
  .next (whenAwake s (fun s =>
    if 2 ≤ port then s
    else match tfind (hport s port).tags tag with
    | none => s
    | some .quarantine => noteAer (pfOf port) aerUnexpected (count (Pg.hiu + port) 0xE30 s)
    | some (.orphan _) => count (Pg.hiu + port) 0xE38 (dropTag port tag s)
    | some (.fetch f n) =>
      let s1 := modRing f n (fun q => { q with fetchTag := none }) (dropTag port tag s)
      if kind = .data ∨ (ringOf s f n).state ≠ .active then s1 else ringError f n .dmaError s1
    | some (.cmd r) =>
      let clear (c : RunCmd) : RunCmd := if c.tag = some tag then { c with tag := none } else c
      let s1 := modRing r.fn r.ring (fun q => { q with running := q.running.map clear }) (dropTag port tag s)
      if kind = .data ∨ !(func s r.fn).bme then s1 else endTagged r .dmaError s1))

/-- The time that a read with a tag has to complete: the Device Control 2 value of the PF (R376). -/
def tagBound (s : State) (port : Nat) : Nat := 1000 * (func s (pfOf port)).ctoUs

/-- COMPLETION_TIMEOUT (R376, R381). (DESIGN CHOICE: notes/assumptions/6.md, DEDUCED: notes/assumptions/64.md) -/
def execCompletionTimeout (port tag : Nat) (s : State) : Host.Outcome State Fault Refusal :=
  .next (whenAwake s (fun s =>
    if 2 ≤ port ∨ s.now < tget 0 (hport s port).tagAt tag + tagBound s port then s
    else
      let s1 := quarantineTag port tag s
      match tfind (hport s port).tags tag with
      | some (.orphan _) => s1
      | some (.fetch f n) =>
        let s2 := noteAer f aerTimeout (count (Pg.hiu + port) 0xE28 s1)
        if (ringOf s f n).state = .active then ringError f n .dmaTimeout s2
        else modRing f n (fun q => { q with fetchTag := none }) s2
      | some (.cmd r) => endTagged r .dmaTimeout (noteAer r.fn aerTimeout (count (Pg.hiu + port) 0xE28 s1))
      | _ => s))

/-- TAG_QUARANTINE_END. -/
def execTagQuarantineEnd (port tag : Nat) (s : State) : Host.Outcome State Fault Refusal :=
  .next (whenAwake s (fun s =>
    if port < 2 ∧ tfind (hport s port).tags tag = some .quarantine ∧
        tget 0 (hport s port).tagAt tag + 2000 * (func s (pfOf port)).ctoUs ≤ s.now then dropTag port tag s else s))

/-- INT_DELAY_EXPIRY (R361). -/
def execIntDelayExpiry (fn ring : Nat) (s : State) : Host.Outcome State Fault Refusal :=
  .next (whenAwake s (fun s =>
    if ring < 16 ∧ (ringOf s fn ring).unsignalled ≠ 0 ∧ (ringOf s fn ring).intDelay ≠ 0 ∧
        (ringOf s fn ring).firstAt + 1000 * (ringOf s fn ring).intDelay ≤ s.now then signalRing fn ring s else s))

/-- A command in progress still needs host memory (R378): data to read or a record to write. -/
def needsHost (s : State) (r : RingCmd) (op : Nat) : Bool :=
  (decide (op = Opc.compressIn) && !s.ppu.cmds.any (fun c => decide (c.r = r) && decide (c.op = op))) ||
    (decide (op = Opc.loadRecipe) && !s.rcp.loads.any (fun l => decide (l.r = r))) ||
    decide (op = Opc.check) || decide (op = Opc.query)

/-- Freeze every ring of a function and end the commands that need the host with STOPPED. -/
def freezeRings (fn : Nat) (s : State) : State :=
  settleCvuScan <| (List.range 16).foldl (fun s n =>
    let t := stopRing fn n s
    ((ringOf t fn n).running.filter (fun c => needsHost t ⟨fn, n, c.cid⟩ c.op)).foldl
      (fun t c => complete ⟨fn, n, c.cid⟩ c.op .stopped 0 t) t) s

/-- BME_CLEAR. -/
def execBmeClear (fn : Nat) (s : State) : Host.Outcome State Fault Refusal :=
  .next (whenAwake s (fun s =>
    if fnExists s fn && portUp s (fnPort fn) && decide ((func s fn).phase = .ready) then
      freezeRings fn (modFunc fn (fun u => { u with bme := false }) s)
    else s))

/-! Configuration space (Tables 15-2, 15-3; R355, R356) -/

/-- What an item of configuration space reads. (DESIGN CHOICE: notes/assumptions/12.md) -/
def cfgRead (s : State) (fn : Nat) : CfgItem → Nat
  | .vendorId => s.dev.vendorId
  | .deviceId => if isPf fn then s.dev.deviceId else s.dev.deviceId + 1
  | .classCode => if isPf fn then 0x050210 else 0x058000
  | .totalVfs | .initialVfs => if isPf fn then 2047 else 0
  | .numVfs => (func s fn).numVfs
  | .firstVfOffset | .vfStride => if isPf fn then 1 else 0
  | .bme => boolNat (func s fn).bme
  | .cto => (func s (pfOf (fnPort fn))).ctoUs

/-- A masked vector whose pending bit is set is sent when it is unmasked. -/
def unmask (fn v : Nat) (s : State) : State :=
  let u := func s fn
  let s1 := setFunc fn { u with masked := u.masked.filter (fun x => decide (x ≠ v)),
                                pendingVec := u.pendingVec.filter (fun x => decide (x ≠ v)) } s
  if u.pendingVec.contains v then interrupt fn v s1 else s1

/-- A configuration request that a ready function takes. (PRESUMED: notes/assumptions/66.md) -/
def cfgTake (fn : Nat) (req : CfgReq) (s : State) : State :=
  match req with
  | .read i => emit (.config fn (cfgRead s fn i)) s
  | .setBme => modFunc fn (fun u => { u with bme := true }) s
  | .setVfEnable =>
    if isPf fn then modFunc fn (fun u => { u with vfEnable := true }) s else s
  | .numVfs n => if isPf fn && !(func s fn).vfEnable && decide (n ≤ 2047) then modFunc fn (fun u => { u with numVfs := n }) s else s
  | .msixEnable on => modFunc fn (fun u => { u with msix := on }) s
  | .msixMask v on =>
    if on then modFunc fn (fun u => { u with masked := if u.masked.contains v then u.masked else v :: u.masked }) s
    else unmask fn v s
  | .msiEnable on log2 => if isPf fn && decide (log2 ≤ 5) then modFunc fn (fun u => { u with msi := on, msiLog2 := log2 }) s else s
  | .completionTimeout us => if isPf fn then modFunc fn (fun u => { u with ctoUs := us }) s else s
  | .bar i v => modFunc fn (fun u => { u with bars := tput 0 u.bars i v }) s
  | .hdmDecoder i base size commit =>
    if isPf fn && decide (i < 16) then
      modHport (fnPort fn) (fun h => { h with hdm := h.hdm.filter (fun d => decide (d.1 ≠ i)) ++ [(i, base, size, commit)] }) s
    else s
  | .d3hot on => if on then freezeRings fn (modFunc fn (fun u => { u with d3hot := true }) s) else modFunc fn (fun u => { u with d3hot := false }) s

/-- CONFIG_REQUEST. -/
def execConfigRequest (fn : Nat) (req : CfgReq) (s : State) : Host.Outcome State Fault Refusal :=
  .next (if 4096 ≤ fn ∨ !portUp s (fnPort fn) then s
    else if !fnExists s fn then emit (.configResp fn .ur) s
    else if (func s fn).phase ≠ .ready ∧ s.sss.state = .watch then emit (.configResp fn .crs) s
    else cfgTake fn req (emit (.configResp fn .ok) s))

/-! IDE (R383) and the mailboxes (R374, R413) -/

/-- IDE_FAILURE. -/
def execIdeFailure (port stream : Nat) (s : State) : Host.Outcome State Fault Refusal :=
  .next (whenAwake s (fun s =>
    if port < 2 && (hport s port).ide.contains stream then
      raise (Pg.hiu + port) .dmaError .contained 0 noCtx 0 0 [pfOf port] false
        (count (Pg.hiu + port) 0xE50 (modHport port (fun h => { h with ide := h.ide.filter (fun x => decide (x ≠ stream)) }) s))
    else s))

/-- Partitions of a port with the DPA at which each starts (R370): number, start, partition. -/
def partStarts (s : State) (port : Nat) : List (Nat × Nat × Part) :=
  ((List.range 16).foldl (fun (a : List (Nat × Nat × Part) × Nat) n =>
    let p := partAt s n
    if p.valid ∧ p.port = port then (a.1 ++ [(n, a.2, p)], a.2 + p.count * 2 ^ 24) else a) ([], 0)).1

/-- Bytes that a port presents as device physical addresses. -/
def portBytes (s : State) (port : Nat) : Nat := listSum ((partStarts s port).map (fun p => p.2.2.count * 2 ^ 24))

/-- DPAs of POISONED and CHECK_SUSPECT blocks in a run of a port's partitions. -/
def poisonedDpas (s : State) (port dpa len : Nat) : List Nat :=
  (partStarts s port).flatMap (fun p => (List.range p.2.2.count).flatMap (fun i =>
    let slab := p.2.2.first + i
    let e := mapAt s slab
    match e.tier with
    | none => []
    | some t => ((List.range 4096).filter (fun b =>
        (match (descAt s (homeKey t e.frame b)).state with | .poisoned => true | .checkSuspect => true | _ => false) ||
          s.fmg.poisonRec.contains (blockIdx slab b))).filterMap (fun b =>
        let a := p.2.1 + i * 2 ^ 24 + b * 4096
        if a < dpa + len ∧ dpa < a + 4096 then some a else none)))

/-- Some numbers whose values the spec does not give. (DESIGN CHOICE: notes/assumptions/11.md) -/
def unstatedValues (n : Nat) (s : State) : List Nat × State :=
  let (k, s1) := draw s
  ((List.range n).map (fun i => Config.unstated (k + i)), { s1 with draws := s1.draws + n })

/-- Return codes of the mailbox. (PRESUMED: notes/assumptions/66.md) -/
def mbOk := 0
/-- Mailbox return code: invalid input. (PRESUMED: notes/assumptions/66.md) -/
def mbInvalid := 2
/-- Mailbox return code: unsupported. (PRESUMED: notes/assumptions/66.md) -/
def mbUnsupported := 3
/-- Mailbox return code: internal error. (PRESUMED: notes/assumptions/66.md) -/
def mbInternal := 4

/-- Carry out a mailbox command: return code, payload, state. (PRESUMED: notes/assumptions/66.md) -/
def mailbox (port : Nat) (cmd : Mailbox) (s : State) : Nat × List Nat × State :=
  let h := hport s port
  match cmd with
  | .identify | .partitionInfo => (mbOk, [portBytes s port, 0], s)
  | .getEvents log => (mbOk, (h.evLog.filter (fun r => decide (r.log = log))).flatMap (fun r => [r.dpa.getD 0, r.time]), s)
  | .clearEvents log n =>
    let mine := (h.evLog.filter (fun r => decide (r.log = log))).drop n
    (mbOk, [], setHport port { h with evLog := h.evLog.filter (fun r => decide (r.log ≠ log)) ++ mine } s)
  | .getIntPolicy => (mbOk, [h.evPolicy], s)
  | .setIntPolicy v => (mbOk, [], setHport port { h with evPolicy := v } s)
  | .poisonList dpa len => (mbOk, poisonedDpas s port dpa len, s)
  | .healthInfo =>
    let (v, s1) := unstatedValues 3 s
    (mbOk, [s.ppm.tj, s.ppm.stackMax] ++ v, s1)
  | .alertConfig | .supportedLogs | .effectsLog =>
    let (v, s1) := unstatedValues 4 s
    (mbOk, v, s1)
  | .fwInfo =>
    let slotB := s.ccx.activeB
    let other := if slotB then s.ccx.slotA else s.ccx.slotB
    (mbOk, [boolNat slotB, (activeSlot s).version, if other.state = .staged then other.version else 0], s)
  | .getTimestamp => (mbOk, [h.timestamp], s)
  | .setTimestamp v => (mbOk, [], setHport port { h with timestamp := v } s)
  | .other _ => (mbUnsupported, [], s)

/-- Commands that the mailbox serves in SAFE state (Table 16-5). (PRESUMED: notes/assumptions/66.md) -/
def servedInSafe : Mailbox → Bool
  | .getEvents _ | .clearEvents _ _ => true
  | _ => false

/-- CXL_MAILBOX_COMMAND; in SAFE state every command but two returns Internal Error. -/
def execCxlMailboxCommand (port : Nat) (cmd : Mailbox) (s : State) : Host.Outcome State Fault Refusal :=
  .next (
    let safe := decide (s.sss.state ≠ .watch)
    if 2 ≤ port ∨ !portUp s port ∨ s.boot.halted ∨ ((func s (pfOf port)).phase ≠ .ready ∧ !safe) then s
    else if safe && !servedInSafe cmd then emit (.mailbox port mbInternal []) s
    else
      let (code, data, s1) := mailbox port cmd s
      emit (.mailbox port code data) s1)

/-- Streams that IDE_KM may key on a port: the link stream, four selective streams, CXL.cachemem IDE (Table 15-12). -/
def ideStreams : Nat := 6

/-- SPDM_DOE: a SCRAPPED device answers no SPDM request (R405). -/
def execSpdmDoe (fn : Nat) (req : DoeReq) (s : State) : Host.Outcome State Fault Refusal :=
  .next (if s.sss.state ≠ .watch then
      (if fnExists s fn && portUp s (fnPort fn) && !s.boot.halted then emit (.doe fn false []) s else s)
    else whenAwake s (fun s =>
    let port := fnPort fn
    let ok (d : List Nat) (t : State) : State := emit (.doe fn true d) t
    if !fnLive s fn || decide ((func s fn).phase ≠ .ready) then s
    else match req with
    | .discovery => ok [] s
    | .cdat => ok [] s
    | .other _ => emit (.doe fn false []) s
    | .getMeasurements nonce =>
      if s.otp.life = .scrapped then emit (.doe fn false []) s else ok ((measurements s fn nonce).map (·.toNat)) s
    | .challenge nonce =>
      if s.otp.life = .scrapped then emit (.doe fn false []) s
      else ok ((Config.sha384 (measurements s fn nonce)).map (·.toNat)) s
    | .ideKeyProg x =>
      if s.otp.life = .scrapped ∨ !isPf fn ∨ ideStreams ≤ x then emit (.doe fn false []) s
      else ok [] (modHport port (fun h => { h with ide := if h.ide.contains x then h.ide else h.ide ++ [x] }) s)
    | .ideStop x =>
      if s.otp.life = .scrapped ∨ !isPf fn then emit (.doe fn false []) s
      else ok [] (modHport port (fun h => { h with ide := h.ide.filter (fun y => decide (y ≠ x)) }) s)))

/-! QUERY (R368, Table 15-10) -/

def stateCode : SlabState → Nat
  | .free => 0 | .zeroed => 1 | .resident => 2 | .moving => 3 | .sealed => 4 | .retired => 5

/-- A placement-map entry as its 64 bits (Table 02-1). -/
def mapWord (e : MapEntry) : Nat :=
  place (stateCode e.state) 61 3 + place (match e.tier with | none => 0 | some t => tierIdx t) 59 2 + place e.tmask 56 3 +
    place e.heat 48 8 + place (boolNat e.shared) 47 1 + place e.owner 27 20 + place (boolNat e.sealBit) 26 1 +
    place (boolNat e.releasing) 25 1 + place (boolNat e.pool) 24 1 + place e.frame 0 24

/-- Fill a record to 64 bytes. -/
def record (b : List Byte) : List Byte := (b ++ List.replicate 64 0).take 64

def t3On (s : State) : Bool := t3Online s

/-- SHT_SHAPE.AVAILABLE. -/
def sheetAvailable (s : State) : Bool := decide (90 ≤ s.sht.cols) && s.sht.edgeOk

/-- The record of QUERY DEVICE. (DESIGN CHOICE: notes/assumptions/11.md) -/
def deviceRecord (s : State) : List Byte :=
  record (leBytes 4 (if s.dev.memEnabled then s.ple.presented else 0) ++ leBytes 1 s.sht.cols ++
    leBytes 1 (boolNat s.dev.memEnabled + 2 * boolNat (t3On s) + 4 * boolNat (sheetAvailable s)) ++ leBytes 2 s.ppm.floorMbeat ++
    tiers.flatMap (fun t => leBytes 4 (available s t)) ++ tiers.flatMap (fun t => leBytes 4 (reservedFrames s t)))

def ctxRecord (s : State) (ctx : Nat) : List Byte :=
  let r := resvOf s ctx
  let named := (slabsOf s ctx).filter (fun k => !(mapAt s k).releasing)
  let leaving := (slabsOf s ctx).filter (fun k => (mapAt s k).releasing)
  record (leBytes 4 r.f1 ++ leBytes 4 r.f2 ++ leBytes 4 r.f3 ++ leBytes 4 r.b1 ++ leBytes 4 r.b2 ++ leBytes 4 r.b3 ++
    leBytes 4 named.length ++ leBytes 4 leaving.length ++ leBytes 2 (ctxAt s ctx).key ++
    leBytes 1 (match (ctxAt s ctx).state with | .free => 0 | .active => 1 | .draining => 2))

def slabRecord (s : State) (ctx slab : Nat) : List Byte :=
  record (leBytes 8 (mapWord (mapAt s slab)) ++
    leBytes 1 (match rightOf s ctx (mapAt s slab) with | .none => 0 | .read => 1 | .write => 2) ++ leBytes 1 (boolNat (touched s slab)))

def blockRecord (s : State) (slab b : Nat) : List Byte :=
  let d0 := blockDesc s slab b
  let d := if flashPoison s slab b then { d0 with state := .poisoned } else d0
  record (leBytes 16 (descWord d) ++ leBytes 4 d.copyB.toNat)

/-- Write a record and complete. -/
def writeRecord (r : RingCmd) (result : Nat) (b : List Byte) (s : State) : State :=
  complete r Opc.query .ok 0 (emit (.hostWrite r.fn result b) s)

/-- QUERY. (PRESUMED: notes/assumptions/66.md) -/
def execQuery (r : RingCmd) (ctx kind addr result : Nat) (s : State) : Host.Outcome State Fault Refusal :=
  .next (ringRun r Opc.query (fun s =>
    let slab := addr / 2 ^ 24
    if result % 64 ≠ 0 ∨ 4 ≤ kind ∨ (2 ≤ kind ∧ 2 ^ 48 ≤ addr) then complete r Opc.query .accessDenied 0 s
    else if kind = 0 then writeRecord r result (deviceRecord s) s
    else if !s.dev.memEnabled then complete r Opc.query .deviceNotReady 0 s
    else match gateCtx r ctx s with
    | (some st, s1) => complete r Opc.query st 0 s1
    | (none, s1) =>
      if kind = 1 then writeRecord r result (ctxRecord s1 ctx) s1
      else match checkAccess (ringAsk r.fn ctx false false) slab s1 with
        | (some (_, st), s2) => complete r Opc.query st 0 s2
        | (none, s2) =>
          writeRecord r result (if kind = 2 then slabRecord s2 ctx slab else blockRecord s2 slab (addr % 2 ^ 24 / 4096)) s2) s)

end Sys2Proof.Machine
end

