-- ==== Sys2Proof/Machine/Units.lean ====
section
/-! DEFINITION. Sys2Proof/Machine/Units.lean: the reset of one unit (R426), a unit that hangs (level 2 of Table 16-3), and units
switched off (R449). -/

namespace Sys2Proof.Machine

/-! What a reset does to the unit of a page -/

/-- A channel whose controller is reset: owed refreshes are issued, the DRAM waits in self-refresh, requests end. -/
def restChan (k : Nat) (s : State) : State :=
  let c := chanAt s k
  countBy (dramPage k) 0xE38 (listSum (c.debt.map (· - postponeMax s (chanCtrl k))))
    (setChan k { c with debt := c.debt.map (fun _ => 0), queue := [], wbuf := [], draining := false, banks := [], sr := .inSr } s)

/-- A channel leaves the self-refresh of its controller's reset. -/
def wakeChan (k : Nat) (s : State) : State := modChan k (fun c => { c with sr := if c.sr = .inSr then .active else c.sr }) s

/-- Recoveries of codewords on one channel end with the bus error of their path. -/
def dropRecoveries (channel : Nat) (s : State) : State :=
  let here (r : Recovery) : Bool :=
    let x := (slotAt s (mapAt s (r.block / 4096)).frame).map (·.group)
    decide ((codewordPlace (x.getD 0) (r.block % 4096)).1 = channel)
  let gone := s.fmg.recoveries.filter here
  let s1 := { s with fmg := { s.fmg with recoveries := s.fmg.recoveries.filter (fun r => !here r) } }
  readsEnded (gone.foldl (fun s r => r.waiters.foldl (fun s w => answerBad w.src .poisoned s) s) s1)

/-- A running job of a CVU ends with DEVICE_NOT_READY. -/
def dropJob (n : Nat) (s : State) : State :=
  let v := cvuAt s n
  if v.state = .running then
    settleCvuScan (setCvu n { v with state := .fault, reason := Status.deviceNotReady.code, left := 0 } s)
  else s

/-- Every pass ends, and its command with DEVICE_NOT_READY. -/
def dropAllPasses (s : State) : State :=
  let cmds := ((s.ppu.passes ++ s.ppu.waiting).filterMap (·.cmd)).eraseDups
  let background := (s.ppu.passes ++ s.ppu.waiting).filter (fun p => p.cmd.isNone)
  let s1 := background.foldl (fun s p => dropPassTable p s)
    (setPpu { s.ppu with passes := s.ppu.passes.filter (fun p => p.cmd.isSome), waiting := s.ppu.waiting.filter (fun p => p.cmd.isSome) } s)
  let s2 := (s1.ppu.passes ++ s1.ppu.waiting).foldl (fun s p => dropPassTable p s) s1
  settleScan (cmds.foldl (fun s c => endPassCmd c.1 c.2 .deviceNotReady s) s2)

/-- Channels of a DRAM page. -/
def pageChans (t : PageType) (n : Nat) : List Nat :=
  match t with
  | .smc => (List.range 32).map (fun i => 32 * n + i)
  | .sch => [n]
  | .dmc => [256 + n]
  | _ => []

/-- UNIT_RESET is accepted in the pages of a type (R426). (DESIGN CHOICE: notes/assumptions/16.md) -/
def resettable : PageType → Bool
  | .smc | .sch | .dmc | .flc | .cvu | .ppu | .ice | .fpt => true
  | _ => false

/-- The internal state of the unit of a page is reset. -/
def resetInside (t : PageType) (n : Nat) (s : State) : State :=
  match t with
  | .smc | .sch | .dmc => ((pageChans t n).filter (fun k => (chanAt s k).online)).foldl (fun s k => restChan k s) s
  | .flc => dropRecoveries n s
  | .cvu => dropJob n s
  | .ppu => dropAllPasses s
  | .ice => { s with ice := { s.ice with deferred := [] } }
  | .fpt => if (fportAt s n).state = .disabled then s else retrainPort n 0 s
  | _ => s

/-- A unit reset begins. -/
def startReset (p : Nat) (s : State) : State :=
  match pageOf p with
  | some (t, n) =>
    if resettable t then emit (.console (.unitReset p)) (resetInside t n (modPage p (fun h => { h with resetting := true }) s)) else s
  | none => s

/-- A unit reset ends; a controller's DRAM leaves self-refresh. -/
def endReset (p : Nat) (s : State) : State :=
  let s1 := modPage p (fun h => { h with resetting := false }) s
  match pageOf p with
  | some (t, n) => (pageChans t n).foldl (fun s k => wakeChan k s) s1
  | none => s1

/-! Units off -/

/-- ENABLE of a CVU or of the PPU. -/
def setEnable (p : Nat) (on : Bool) (s : State) : State :=
  let s1 := modPage p (fun h => { h with enable := on }) s
  if on then s1
  else match pageOf p with
    | some (.ppu, _) => stopPasses s1
    | some (.cvu, _) =>
      if (List.range 4).any (fun n => (pageHdr s1 (Pg.cvu + n)).enable) then s1
      else settleCvuScan ((s1.hiu.rings.flatMap (fun e => (e.2.running.filter (fun c => decide (c.op = Opc.check))).map (fun c =>
          ((⟨e.1 / 16, e.1 % 16, c.cid⟩ : RingCmd))))).foldl (fun s r => complete r Opc.check .deviceNotReady 0 s) s1)
    | _ => s1

/-- ENABLE of a fabric port: one bit with FPT_CTRL.ENABLE (R449). -/
def setPortEnable (n : Nat) (on : Bool) (s : State) : State :=
  let v := fportAt s n
  let s1 := setReg (Pg.fpt + n) 0x40 (setBits (reg s (Pg.fpt + n) 0x40) 0 0 (boolNat on)) s
  if on then (if v.state = .disabled then setFport n { v with state := .down, reason := 0, retryAt := 0 } s1 else s1)
  else leavePort n .disabled 0 0 s1

/-- A unit whose reset fails is taken offline, at the cost of Table 01-8. (DEDUCED: notes/assumptions/72.md) -/
def takeOffline (t : PageType) (p n : Nat) (s : State) : State :=
  match t with
  | .sch | .dmc =>
    let on := (pageChans t n).filter (fun k => (chanAt s k).online)
    if on.isEmpty then s else loseChannels p n on s
  | .cvu | .ppu => setEnable p false s
  | .flc =>
    let f := tget Flc.reset s.fmg.flcs n
    settleSpare { s with fmg := { s.fmg with flcs := tput Flc.reset s.fmg.flcs n { f with usable := 0, trained := false } } }
  | .cdc => { s with ice := { s.ice with expandersRemoved := min 63 (s.ice.expandersRemoved + 1) } }
  | _ => s

/-- Units that level 2 of the recovery ladder resets: channel engine, DDR5 controller, flash channel, fill-path expander (named by the
CDC page), CVU, PPU. (DEDUCED: notes/assumptions/72.md) -/
def hangs : PageType → Bool
  | .sch | .dmc | .flc | .cvu | .ppu | .cdc => true
  | _ => false

/-- UNIT_HANG: firmware resets the unit; one that does not recover is taken offline. (DESIGN CHOICE: notes/assumptions/6.md, DESIGN CHOICE: notes/assumptions/10.md, DEDUCED: notes/assumptions/72.md) -/
def execUnitHang (page : Nat) (recovered : Bool) (s : State) : Host.Outcome State Fault Refusal :=
  .next (whenAwake s (fun s =>
    match pageOf page with
    | some (t, n) =>
      if !hangs t then s
      else
        let s1 := raise page (Config.hangCode page) .contained 0 noCtx 0 n pfs false (count Pg.ccx 0xE40 (startReset page s))
        if recovered then s1 else takeOffline t page n (endReset page s1)
    | none => s))

end Sys2Proof.Machine
end

