-- ==== Sys2Proof/Machine/Control.lean ====
section
/-! DEFINITION. Sys2Proof/Machine/Control.lean: events, control cores, the safe-state sequencer and firmware slots (chapter
Control Complex and Recovery; rows EVENT_ROUTE to FW_COMMIT, THERMAL_TRIP, COMPARATOR_FIRE and FW_TRIAL_TIMEOUT). -/

namespace Sys2Proof.Machine

def setCcx (v : Ccx) (s : State) : State := { s with ccx := v }

/-! Events (R387 – R389, R369, Table 15-13) -/

/-- Records of the error log. -/
def logSize : Nat := 220

/-- Append a record to the error log; a full log loses its oldest record (R388). -/
def logEvent (e : Evt) (s : State) : State :=
  let c := s.ccx
  let next := (c.logNext + 1) % logSize
  if c.log.length < logSize then setCcx { c with log := c.log ++ [e], logNext := next } s
  else count Pg.ccx 0xE20 (setCcx { c with log := c.log.drop 1 ++ [e], logNext := next, wrapped := true } s)

/-- Write the record of an event to the event ring of a function, or drop it (R369). -/
def writeEvent (e : Evt) (f : Nat) (s : State) : State :=
  let u := func s f
  let size := 2 ^ u.evtLog
  let next := (u.evtIdx + 1) % size
  if u.evtOn && u.bme && !u.d3hot && decide (next ≠ u.evtHead % size) then
    interrupt f u.evtVector (emit (.eventRecord f u.evtIdx u.evtPhase e)
      (setFunc f { u with evtIdx := next, evtPhase := if next = 0 then !u.evtPhase else u.evtPhase } s))
  else count (Pg.hiu + fnPort f) 0xE48 (setFunc f { u with evtOverflow := true } s)

/-- Add a record to a log of a port's CXL event log, which holds 256 records each. (PRESUMED: notes/assumptions/66.md) -/
def cxlRecord (port log : Nat) (dpa : Option Nat) (s : State) : State :=
  modHport port (fun h =>
    if 256 ≤ h.evLog.countP (fun r => decide (r.log = log)) then h
    else { h with evLog := h.evLog ++ [{ log := log, dpa := dpa, time := h.timestamp }] }) s

/-- The DPA of a presented block on a port. -/
def dpaOfBlock (s : State) (port block : Nat) : Option Nat :=
  (partStarts s port).findSome? (fun p =>
    if p.2.2.first ≤ block / 4096 ∧ block / 4096 < p.2.2.first + p.2.2.count then
      some (p.2.1 + (block - p.2.2.first * 4096) * 4096)
    else none)

/-- What the PF of a port reports of an event (Table 15-13, R469). -/
def reportEvent (e : Evt) (port : Nat) (s : State) : State :=
  match e.sev with
  | .corrected =>
    if e.integrity then cxlRecord port 0 none (emit (.aer port .corrected) (noteAer (pfOf port) aerCorrected s)) else s
  | .deferred => if e.integrity then cxlRecord port 1 (dpaOfBlock s port e.block) s else s
  | .contained =>
    let t := emit (.aer port .contained) (noteAer (pfOf port) aerInternal s)
    if e.integrity then cxlRecord port 2 (dpaOfBlock s port e.block) t else t
  | .fatal => s

/-- Ports of the functions that an event is addressed to. -/
def evtPorts (e : Evt) : List Nat := (e.dests.map fnPort).eraseDups

/-- Firmware delivers an event. -/
def deliver (e : Evt) (s : State) : State :=
  (evtPorts e).foldl (fun s p => reportEvent e p s) (e.dests.foldl (fun s f => writeEvent e f s) s)

/-- Events that the error log keeps: CONTAINED, FATAL, and CORRECTED ones of sparing or retirement. -/
def logged (e : Evt) : Bool :=
  match e.sev with
  | .contained | .fatal => true
  | .corrected => e.integrity
  | .deferred => false

/-- EVENT_ROUTE: the oldest event goes through the router. -/
def execEventRoute (s : State) : Host.Outcome State Fault Refusal :=
  .next (whenAwake s (fun s =>
    match s.router with
    | [] => s
    | e :: rest =>
      let s1 := traceStore (evtBytes e false) (count Pg.ccx 0xE18 { s with router := rest })
      let s2 := if logged e then logEvent e s1 else s1
      deliver e s2))

/-! The takeover (R393, Table 16-4) -/

/-- The page on which a FATAL trigger shows (Table 16-2). -/
def fatalPage (cause : Nat) : Nat := if cause = 3 then Pg.ple else if cause = 4 then Pg.ppm else if cause = 5 then Pg.ccx else Pg.sss

/-- Answers to what waited for flash or for a write to be taken: reads end with error, writes are dropped. -/
def endWaiting (s : State) : State :=
  let ws := s.fmg.recoveries.flatMap (·.waiters)
  let s1 := ws.foldl (fun s w => match w.src with
    | .cxl port dpa => poisonCxl port dpa s
    | .bar fn off _ => answerBar fn off .ca s
    | _ => s) { s with fmg := { s.fmg with recoveries := [] } }
  s1.mge.held.foldl (fun s w => match w.src with
    | .cxl port dpa => emit (.cxlWriteDone port dpa false) s
    | _ => s) { s1 with mge := { s1.mge with held := [] } }

/-- The firmware slot that is not in service. -/
def otherSlot (s : State) : FwSlot := if s.ccx.activeB then s.ccx.slotA else s.ccx.slotB

def setOtherSlot (v : FwSlot) (s : State) : State :=
  setCcx (if s.ccx.activeB then { s.ccx with slotA := v } else { s.ccx with slotB := v }) s

def setActiveSlot (v : FwSlot) (s : State) : State :=
  setCcx (if s.ccx.activeB then { s.ccx with slotB := v } else { s.ccx with slotA := v }) s

/-- What staging and a trial lose by a takeover (Table 16-6, R398). -/
def firmwareLost (s : State) : State :=
  let s1 := if s.ccx.busy then setOtherSlot FwSlot.reset (setCcx { s.ccx with busy := false } s) else s
  if s1.ccx.trial then setActiveSlot { activeSlot s1 with trials := (activeSlot s1).trials + 1 } s1 else s1

/-- Every page and shared resource is the sequencer's, and every unlock ends. (DESIGN CHOICE: notes/assumptions/68.md) -/
def seizeClaims (s : State) : State :=
  let seize (p : Nat) : Page :=
    let h := pageHdr s p
    if (pageOf p).isSome then { h with unlocked := false, owner := .sss } else h
  let s1 := releaseClaims (fun _ => true) { s with
    pages := ((List.range 4096).map (fun p => (p, seize p))).filter (fun e => decide (e.2 ≠ Page.reset)) }
  (List.range 19).foldl (fun s n => setClaim n { owner := .sss, port := 0, user := .sss, ctx := 0, tap := false } s) s1

/-- The PF of a port whose link is up reports the takeover, and CXL Memory Device Status reads Device Fatal (Table 16-4, step 7). (DESIGN CHOICE: notes/assumptions/10.md, DESIGN CHOICE: notes/assumptions/68.md) -/
def reportFatal (port : Nat) (s : State) : State :=
  let t := if portUp s port then emit (.aer port .fatal) (noteAer (pfOf port) aerFatal s) else s
  modHport port (fun h => { h with deviceFatal := true }) (cxlRecord port 3 none t)

/-- The takeover: later triggers are only recorded. (DEDUCED: notes/assumptions/42.md, DESIGN CHOICE: notes/assumptions/68.md) -/
def takeover (cause : Nat) (s : State) : State :=
  match s.sss.state with
  | .watch =>
    let e : Evt := { code := Config.fatalCode cause, sev := .fatal, cause := 0, ctx := noCtx, block := 0, time := s.now,
                     page := fatalPage cause, detail := 0, dests := [], integrity := false }
    let s0 := logEvent e (count Pg.ccx 0xE18 (modPage (fatalPage cause) (setEvtBit 3) s))
    let s1 := endCvuJobs (seizeClaims (firmwareLost s0))
    let hotDrop := decide (cause = 4)
    let vmin := fld s Pg.ppm 0x400 51 41
    let s2 := if hotDrop then emit (.voltage vmin) { s1 with ppm := { s1.ppm with vreq := vmin } } else s1
    let s3 := endWaiting { s2 with
      sht := { s2.sht with state := .frozen },
      fports := (List.range 8).map (fun p => (p, { FPort.reset with state := .disabled })),
      ftb := { s2.ftb with cmps := [] },
      ccx := { s2.ccx with supState := 2 },
      lcc := { s2.lcc with pending := none, busy := false } }
    let s4 := reportFatal 1 (reportFatal 0 s3)
    let trial := s.ccx.trial
    emit (.pins false (!thermLow s4)) { s4 with
      sss := { s4.sss with state := if trial then .takingOver else .safe, cause := cause, second := 0, time := s.now % 2 ^ 56,
                           crashSaved := true, fault := true, trialReset := trial },
      boot := { s4.boot with crash := some (cause, s4.ccx.log.drop (s4.ccx.log.length - 32)) } }
  | _ => if s.sss.second = 0 then { s with sss := { s.sss with second := cause } } else s

/-- FATAL_TRIGGER: a cause of Table 16-2. (DESIGN CHOICE: notes/assumptions/68.md) -/
def execFatalTrigger (cause : Nat) (s : State) : Host.Outcome State Fault Refusal :=
  .next (if s.boot.halted ∨ cause = 0 ∨ 8 ≤ cause then s else takeover cause s)

/-- THERMAL_TRIP. -/
def execThermalTrip (s : State) : Host.Outcome State Fault Refusal :=
  .next (if s.boot.halted then s else takeover 4 s)

/-- SSS_RESET_REQ (R395). -/
def execSssResetReq (w code : Nat) (s : State) : Host.Outcome State Fault Refusal :=
  .next (
    if !isPf w || decide (4096 ≤ w) || !portUp s (fnPort w) || s.boot.halted then s
    else if s.sss.state = .safe ∧ code = 0x5AFE then { s with sss := { s.sss with resetAsked := true } }
    else ignoreWrite Pg.sss s)

/-- SSS_FORCE: SSS_TEST written. -/
def execSssForce (w value : Nat) (s : State) : Host.Outcome State Fault Refusal :=
  .next (expertGate w Pg.sss 0x400 (fun s =>
    if value % 2 = 0 then s
    else if openLife s then takeover 6 s
    else noteErr Pg.sss kindRefusedState .accessDenied 0x400 w s) s)

/-! Control cores (R391, R392) -/

def coreAt (s : State) (n : Nat) : Core := tget Core.reset s.ccx.cores n

def setCore (n : Nat) (c : Core) (s : State) : State :=
  setCcx { s.ccx with cores := tput Core.reset s.ccx.cores n c } s

/-- Cores that are not retired. -/
def coresLeft (s : State) : Nat := countBelow 16 (fun n => decide ((coreAt s n).state ≠ .retired))

/-- Nanoseconds of 24 h. -/
def dayNs : Nat := 86400 * 1000000000

/-- Retire a core; too few that remain are a FATAL trigger. (DEDUCED: notes/assumptions/69.md) -/
def retireCore (n : Nat) (s : State) : State :=
  let s1 := setCore n { coreAt s n with state := .retired } s
  let s2 := count Pg.ccx 0xE10 { s1 with boot := { s1.boot with
    coresRetired := if s1.boot.coresRetired.contains n then s1.boot.coresRetired else s1.boot.coresRetired ++ [n] } }
  let s3 := raise Pg.ccx Config.correctedCode .corrected 0 noCtx 0 0 pfs true s2
  if coresLeft s3 < fld s3 Pg.ccx 0x400 31 28 then takeover 5 s3 else s3

/-- CORE_WATCHDOG: a core misses its watchdog (1), takes an exception (2) or meets an uncorrectable error (3). (DESIGN CHOICE: notes/assumptions/6.md, DEDUCED: notes/assumptions/69.md) -/
def execCoreWatchdog (core cause : Nat) (s : State) : Host.Outcome State Fault Refusal :=
  .next (whenAwake s (fun s =>
    let c := coreAt s core
    if 16 ≤ core ∨ c.state ≠ .online ∨ cause = 0 ∨ 3 < cause then s
    else
      let recent := c.recent.filter (fun t => decide (s.now < t + dayNs)) ++ [s.now]
      let s1 := count Pg.ccx 0xE08 (setCore core { c with state := .restarting, recent := recent, lastCause := cause,
                                                          restarts := c.restarts + 1 } s)
      if fld s Pg.ccx 0x400 15 12 ≤ recent.length then retireCore core s1 else s1))

/-- CORE_RESTART_DONE. -/
def execCoreRestartDone (core reissued : Nat) (s : State) : Host.Outcome State Fault Refusal :=
  .next (whenAwake s (fun s =>
    let c := coreAt s core
    if core < 16 ∧ c.state = .restarting then countBy Pg.ccx 0xE38 reissued (setCore core { c with state := .online } s) else s))

/-! Firmware slots (R397 – R400, R411) -/

/-- Results of CCX_FW_STATUS. -/
def fwOk := 1
def fwSignature := 2
def fwSvnLow := 3
def fwDma := 4
def fwFlash := 5
def fwBusy := 6
def fwRefused := 7

def fwResult (r : Nat) (s : State) : State := setCcx { s.ccx with result := r } s

/-- FW_STAGE: OP STAGE. (DEDUCED: notes/assumptions/70.md) -/
def execFwStage (w : Nat) (s : State) : Host.Outcome State Fault Refusal :=
  .next (ownedWrite w Pg.ccx (fun s =>
    let bytes := fld s Pg.ccx 0x70 25 0
    if s.ccx.busy then fwResult fwBusy s
    else if bytes < 4096 ∨ 33554432 < bytes then fwResult fwRefused s
    else if !(func s w).bme then fwResult fwDma s
    else setCcx { s.ccx with busy := true, stager := w, result := 0 } s) s)

/-- What staging an image leaves. (DEDUCED: notes/assumptions/70.md) -/
def stageImage (i : FwImage) (s : State) : State :=
  if !i.authentic || s.otp.revoked.contains i.keyIndex || decide (4 ≤ i.keyIndex) then fwResult fwSignature s
  else if i.svn < s.otp.minSvn then fwResult fwSvnLow s
  else if !i.written then fwResult fwFlash (setOtherSlot FwSlot.reset s)
  else
    let slot : FwSlot := { state := .staged, version := i.version, svn := i.svn, keyIndex := i.keyIndex, revokes := i.revokes, trials := 0 }
    let s1 := setOtherSlot slot s
    count Pg.ccx 0xE28 (setCcx { s1.ccx with nextB := !s1.ccx.activeB, result := fwOk } s1)

/-- FW_STAGE_DONE. -/
def execFwStageDone (data : FwData) (s : State) : Host.Outcome State Fault Refusal :=
  .next (whenAwake s (fun s =>
    if !s.ccx.busy then s
    else
      let t := setCcx { s.ccx with busy := false } s
      match data with
      | .timeout | .error => fwResult fwDma t
      | .image i => stageImage i t))

/-- FW_SELECT: OP SELECT. -/
def execFwSelect (w : Nat) (s : State) : Host.Outcome State Fault Refusal :=
  .next (ownedWrite w Pg.ccx (fun s =>
    if (otherSlot s).state = .valid ∧ s.otp.minSvn ≤ (otherSlot s).svn then
      setCcx { s.ccx with nextB := !s.ccx.activeB, result := fwOk } s
    else fwResult fwRefused s) s)

/-- FW_COMMIT: OP COMMIT raises MIN_SVN, which never falls. (DEDUCED: notes/assumptions/70.md) -/
def execFwCommit (w : Nat) (s : State) : Host.Outcome State Fault Refusal :=
  .next (ownedWrite w Pg.ccx (fun s =>
    if (activeSlot s).state = .active then
      fwResult fwOk { s with otp := { s.otp with minSvn := max s.otp.minSvn (activeSlot s).svn } }
    else fwResult fwRefused s) s)

/-- FW_TRIAL_TIMEOUT: the trial fails, and a further boot is due. -/
def execFwTrialTimeout (s : State) : Host.Outcome State Fault Refusal :=
  .next (whenAwake s (fun s =>
    if s.ccx.trial ∧ 10000000000 ≤ s.now then
      let t := setActiveSlot { activeSlot s with trials := (activeSlot s).trials + 1 } s
      { t with sss := { t.sss with trialReset := true } }
    else s))

/-! Event comparators (R338) -/

/-- COMPARATOR_FIRE: what the holder of a comparator set it for takes place. A comparator with a set time fires once FTB_TIME
has reached it. (DESIGN CHOICE: notes/assumptions/6.md) -/
def execComparatorFire (n : Nat) (s : State) : Host.Outcome State Fault Refusal :=
  .next (whenAwake s (fun s =>
    let due := match tget none s.ftb.cmps n with | some t => decide (t ≤ s.now) | none => true
    if !due || decide (16 ≤ n) then s
    else
      let armed := (tget none s.ftb.cmps n).isSome
      let s1 := { s with ftb := { s.ftb with cmps := tput none s.ftb.cmps n none } }
      match (claimOf s n).user with
      | .rcpRun => if armed then startRun s1 else s
      | .ppmEnvelope =>
        if s.ppm.envCmp = some n ∧ armed then
          { s1 with ppm := { s1.ppm with envFired := true, envSamples := 0, envelope := s1.ppm.envNext } }
        else s
      | .traceTrigger => if s.tmx.trigCmp = some n ∧ s.tmx.traceState = .armed then startCapture s1 else s
      | _ => s))

end Sys2Proof.Machine
end

