-- ==== Sys2Proof/Machine/Security.lean ====
section
/-! DEFINITION. Sys2Proof/Machine/Security.lean: lifecycle tokens, key slots, the trust store and debug grants (chapter
Lifecycle, Security and Wipe; rows LCC_SUBMIT to DEBUG_GRANT_EXPIRY but for LIFECYCLE_WIPE_DONE, which stands in Reset.lean). -/

namespace Sys2Proof.Machine

def setLcc (v : Lcc) (s : State) : State := { s with lcc := v }

def setSec (v : Sec) (s : State) : State := { s with sec := v }

/-! Lifecycle transitions (R402 – R404) -/

/-- The state with a code of LCC_STATE.STATE. -/
def lifeOfCode (n : Nat) : Option Life :=
  match n with
  | 0 => some .blank | 1 => some .manufactured | 2 => some .provisioned | 3 => some .field | 4 => some .returned
  | 5 => some .scrapped | _ => none

/-- Signatures that Table 17-1 asks for. -/
inductive Signers where
  | fenavaud | owner | both | either
  deriving DecidableEq, Repr

/-- Table 17-1: the signatures of a transition that it lists. -/
def transition (a b : Life) : Option Signers :=
  match a, b with
  | .blank, .manufactured => some .fenavaud
  | .manufactured, .provisioned => some .fenavaud
  | .provisioned, .field => some .owner
  | .field, .returned => some .both
  | .returned, .provisioned => some .fenavaud
  | .scrapped, _ => none
  | _, .scrapped => some .either
  | _, _ => none

/-- The transition writes an owner key hash. -/
def writesOwner (b : Life) : Bool := decide (b = .provisioned)

/-- Results of LCC_STATUS. -/
def lccOk := 1
def lccMagic := 2
def lccFrom := 3
def lccNotAllowed := 4
def lccDsn := 5
def lccCount := 6
def lccSignature := 7
def lccDma := 8
def lccOtpFull := 9

/-- The number in bytes `off … off + n - 1` of a record. -/
def field (b : List Byte) (off n : Nat) : Nat := leNat ((b.drop off).take n)

/-- The hash of the owner key in force; none before the first owner. -/
def ownerHash (s : State) : Option (List Byte) := if s.otp.ownerSlot = 0 then none else s.otp.owners[s.otp.ownerSlot - 1]?

/-- A signature verifies under the owner key in force. -/
def ownerSigned (s : State) (msg sig : List Byte) : Bool :=
  match ownerHash s with
  | some h => Config.verifies h msg sig
  | none => false

def tokenByFenavaud (t : List Byte) : Bool := Config.verifiesFenavaud (t.take 160) ((t.drop 160).take 96)
def tokenByOwner (s : State) (t : List Byte) : Bool := ownerSigned s (t.take 160) ((t.drop 160).take 96)

/-- Every signature that a transition requires stands on some token. (DESIGN CHOICE: notes/assumptions/8.md, DEDUCED: notes/assumptions/73.md) -/
def signedAs (s : State) (g : Signers) (ts : List (List Byte)) : Bool :=
  match g with
  | .fenavaud => ts.any tokenByFenavaud
  | .owner => ts.any (tokenByOwner s)
  | .both => ts.any tokenByFenavaud && ts.any (tokenByOwner s)
  | .either => ts.any tokenByFenavaud || ts.any (tokenByOwner s)

/-- The state that a token names as its target (Table 17-2). -/
def tokenTo (t : List Byte) : Option Life := lifeOfCode (field t 5 1)

/-- The first check of R403 that tokens fail, or the transition that they make. (DEDUCED: notes/assumptions/73.md) -/
def checkTokens (s : State) (ts : List (List Byte)) : Except Nat (Life × List Byte) :=
  let first := ts.headD []
  if !ts.all (fun t => decide (field t 0 4 = 0x4C435431)) then .error lccMagic
  else if !ts.all (fun t => decide (field t 4 1 = lifeCode s.otp.life)) then .error lccFrom
  else match (tokenTo first).bind (fun b => (transition s.otp.life b).map (fun g => (b, g))) with
  | none => .error lccNotAllowed
  | some (b, g) =>
    if !ts.all (fun t => decide (tokenTo t = some b)) then .error lccNotAllowed
    else if !ts.all (fun t => decide (field t 8 8 = s.dev.serial)) then .error lccDsn
    else if !ts.all (fun t => decide (field t 16 4 = s.otp.transitions)) then .error lccCount
    else if !signedAs s g ts then .error lccSignature
    else if 15 ≤ s.otp.transitions ∨ (writesOwner b ∧ 4 ≤ s.otp.owners.length) then .error lccOtpFull
    else .ok (b, (first.drop 20).take 48)

/-- LCC_SUBMIT: OP SUBMIT. (DEDUCED: notes/assumptions/73.md) -/
def execLccSubmit (w : Nat) (s : State) : Host.Outcome State Fault Refusal :=
  .next (ownedWrite w Pg.lcc (fun s =>
    if s.lcc.busy then ignoreWrite Pg.lcc s
    else setLcc { s.lcc with busy := true, two := flag s Pg.lcc 0x48 0, submitter := w, result := 0 } s) s)

/-- A token check ends with a result; a token that fails changes nothing else and is counted. (DEDUCED: notes/assumptions/73.md) -/
def tokenFails (r : Nat) (s : State) : State := count Pg.lcc 0xE08 (setLcc { s.lcc with busy := false, result := r } s)

/-- LCC_TOKEN_CHECKED. (DEDUCED: notes/assumptions/73.md) -/
def execLccTokenChecked (tokens : Dma) (s : State) : Host.Outcome State Fault Refusal :=
  .next (whenAwake s (fun s =>
    if !s.lcc.busy then s
    else match tokens with
    | .timeout | .error => tokenFails lccDma s
    | .bytes d =>
      let n := if s.lcc.two then 512 else 256
      if d.length ≠ n ∨ !(func s s.lcc.submitter).bme then tokenFails lccDma s
      else match checkTokens s (if s.lcc.two then [d.take 256, d.drop 256] else [d]) with
      | .error r => tokenFails r s
      | .ok p => setLcc { s.lcc with busy := false, result := lccOk, pending := some p } s))

/-- LCC_CANCEL: OP CANCEL. -/
def execLccCancel (w : Nat) (s : State) : Host.Outcome State Fault Refusal :=
  .next (ownedWrite w Pg.lcc (fun s =>
    if s.lcc.busy then ignoreWrite Pg.lcc s else setLcc { s.lcc with pending := none } s) s)

/-! Key slots (R407, R410) -/

/-- Results of SEC_KEY_RESULT. -/
def secOk := 1
def secNoSlot := 2
def secBadBlob := 3
def secWrongPort := 4
def secState := 5
def secDma := 6

def keyCode : KeyState → Nat
  | .free => 0 | .empty => 1 | .loaded => 2 | .bound => 3

/-- SEC_KEY_RESULT of a command that has ended on a slot. -/
def keyResult (r slot : Nat) (s : State) : State :=
  setSec { s.sec with result := r, done := true, slot := slot % 65536, slotState := keyCode (keyAt s (slot % 65536)).state } s

/-- A command of SEC_KEY_CMD: ignored and counted while one is in progress. (DEDUCED: notes/assumptions/74.md) -/
def keyCommand (w : Nat) (body : State → State) (s : State) : State :=
  ownedWrite w Pg.sec (fun s => if s.sec.done then body s else ignoreWrite Pg.sec s) s

/-- KEY_ALLOC. (DESIGN CHOICE: notes/assumptions/9.md, DEDUCED: notes/assumptions/74.md) -/
def execKeyAlloc (w : Nat) (s : State) : Host.Outcome State Fault Refusal :=
  .next (keyCommand w (fun s =>
    match chooseFrom 65536 (fun k => decide ((keyAt s k).state = .free)) s with
    | (some k, t) => keyResult secOk k (setKey k { KeySlot.reset with state := .empty, port := fnPort w } t)
    | (none, t) => keyResult secNoSlot 0 t) s)

/-- The tenant key that a blob of 184 bytes holds: 97 bytes of key, 7 zero bytes, the wrapped key and the tag. -/
def blobKey (s : State) (slot : Nat) (b : List Byte) : Option (List Byte) :=
  if b.length = 184 ∧ ((b.drop 97).take 7).all (fun x => decide (x = 0)) then Config.unwrap s.sec.importKey s.dev.serial slot b else none

/-- IMPORT refused for its blob. (DEDUCED: notes/assumptions/74.md) -/
def badBlob (r slot : Nat) (s : State) : State := keyResult r slot (count Pg.sec 0xE10 s)

/-- KEY_IMPORT. (DEDUCED: notes/assumptions/74.md) -/
def execKeyImport (w slot : Nat) (blob : Dma) (s : State) : Host.Outcome State Fault Refusal :=
  .next (keyCommand w (fun s =>
    let k := slot % 65536
    let v := keyAt s k
    if v.state = .free then keyResult secState k s
    else if v.port ≠ fnPort w then keyResult secWrongPort k s
    else if v.state ≠ .empty then keyResult secState k s
    else match blob with
    | .timeout | .error => badBlob secDma k s
    | .bytes b =>
      if !(func s w).bme then badBlob secDma k s
      else match blobKey s k b with
      | none => badBlob secBadBlob k s
      | some key => keyResult secOk k (count Pg.sec 0xE08 (setKey k { v with state := .loaded, key := key } s))) s)

/-- Contexts that a key slot is bound to. -/
def boundTo (s : State) (slot : Nat) : List Nat := tkeys (fun _ c => decide (c.key = slot)) s.ple.ctxs

/-- KEY_DESTROY: an unbound slot is freed; a bound one serves no later access, and its zeroization begins. (DEDUCED: notes/assumptions/74.md) -/
def execKeyDestroy (w slot : Nat) (s : State) : Host.Outcome State Fault Refusal :=
  .next (keyCommand w (fun s =>
    let k := slot % 65536
    let v := keyAt s k
    match v.state with
    | .free => keyResult secState k s
    | st =>
      if v.port ≠ fnPort w then keyResult secWrongPort k s
      else match st with
      | .bound =>
        (boundTo s k).foldl (fun s c => tdiError (ctxFn s c) s)
          (setKey k { v with dying := true } (setSec { s.sec with done := false, result := 0, slot := k, slotState := keyCode .bound } s))
      | _ => keyResult secOk k (count Pg.sec 0xE18 (setKey k KeySlot.reset s))) s)

/-- Zeroize a key slot; the contexts that it was bound to hold none. -/
def eraseKey (slot : Nat) (s : State) : State :=
  let t := (boundTo s slot).foldl (fun s c => setCtx c { ctxAt s c with key := 0xFFFF } s) s
  count Pg.sec 0xE18 (setKey slot KeySlot.reset t)

/-- KEY_DESTROY_DONE: the sealed slabs of the context go to ZEROED with RELEASING (R55). (DEDUCED: notes/assumptions/74.md) -/
def execKeyDestroyDone (slot : Nat) (s : State) : Host.Outcome State Fault Refusal :=
  .next (whenAwake s (fun s =>
    if !(keyAt s slot).dying then s
    else
      let slabs := (boundTo s slot).flatMap (fun c => (slabsOf s c).filter (fun k => (mapAt s k).sealBit))
      keyResult secOk slot (slabs.foldl (fun s k => releaseSlab k s) (eraseKey slot s))))

/-! The trust store (R412) -/

def trustOk := 1
def trustSignature := 2
def trustLow := 3

def trustResult (r : Nat) (s : State) : State := setSec { s.sec with trustResult := r } s

/-- Every reserved byte of the store is zero, and an entry without PRESENT is all zero (Table 17-8). -/
def trustFormed (b : List Byte) : Bool :=
  decide (b.length = 2400) && decide (field b 0 4 = 0x54535431) && decide (field b 6 2 = 0) && decide (field b 16 48 = 0) &&
    (List.range 20).all (fun i =>
      let e := (b.drop (64 + 112 * i)).take 112
      if field e 0 1 = 1 then decide (field e 1 14 = 0) else decide (leNat e = 0))

/-- The tests of a store: none when it is accepted. (DESIGN CHOICE: notes/assumptions/76.md) -/
def trustRefusal (s : State) (b : List Byte) : Option Nat :=
  if !trustFormed b || !(decide (field b 8 8 = 0) || decide (field b 8 8 = s.dev.serial)) ||
      !ownerSigned s (b.take 2304) ((b.drop 2304).take 96) then some trustSignature
  else if field b 4 2 < s.otp.trustMin then some trustLow
  else none

/-- The key of peer root n (1–4) of a store. (DESIGN CHOICE: notes/assumptions/76.md) -/
def peerRoot (b : List Byte) (n : Nat) : Option (List Byte) := trustEntry b (1856 + 112 * (n - 1))

/-- A new store is in force: sessions authenticated under a root that it does not hold end (R327). (DESIGN CHOICE: notes/assumptions/76.md) -/
def installTrust (b : List Byte) (s : State) : State :=
  let gone (v : FPort) : Bool :=
    v.spdmDone && linked v && decide (v.partner.root ≠ 0) && decide (peerRoot b v.partner.root ≠ peerRoot s.sec.trust v.partner.root)
  ((List.range 8).filter (fun p => gone (fportAt s p))).foldl (fun s p => endSession p s)
    (setSec { s.sec with trust := b, trustResult := trustOk } s)

/-- TRUST_STAGE. (DESIGN CHOICE: notes/assumptions/76.md) -/
def execTrustStage (w : Nat) (image : Dma) (s : State) : Host.Outcome State Fault Refusal :=
  .next (ownedWrite w Pg.sec (fun s =>
    match image with
    | .timeout | .error => trustResult trustSignature s
    | .bytes b =>
      if !(func s w).bme then trustResult trustSignature s
      else match trustRefusal s b with
      | some r => trustResult r s
      | none => installTrust b s) s)

/-- VERSION of the store in force. -/
def trustVersion (s : State) : Nat := field s.sec.trust 4 2

/-- TRUST_COMMIT. (DESIGN CHOICE: notes/assumptions/76.md) -/
def execTrustCommit (w : Nat) (s : State) : Host.Outcome State Fault Refusal :=
  .next (ownedWrite w Pg.sec (fun s =>
    trustResult trustOk { s with otp := { s.otp with trustMin := max s.otp.trustMin (trustVersion s) } }) s)

/-! Debug grants (R415) -/

/-- GRANT_NONCE_READ: a read of SEC_GRANT_NONCE by a PF. (DESIGN CHOICE: notes/assumptions/21.md) -/
def execGrantNonceRead (w : Nat) (s : State) : Host.Outcome State Fault Refusal :=
  .next (
    if reaches s w Pg.sec then
      let (n, s1) := draw (dropHalf w Pg.sec s)
      let v := Config.random n % 2 ^ 64
      emit (.readData Pg.sec 0x68 v) (setSec { s1.sec with nonce := some v, nonceUsed := false } s1)
    else s)

/-- The grant of Table 17-9 matches the device and verifies. -/
def grantGood (s : State) (b : List Byte) : Bool :=
  let sig := (b.drop 64).take 96
  decide (b.length = 160) && decide (field b 0 4 = 0x44475231) && decide (field b 4 1 ≤ 1) && decide (field b 5 3 = 0) &&
    decide (field b 8 8 = s.dev.serial) && !s.sec.nonceUsed && decide (s.sec.nonce = some (field b 16 8)) &&
    decide (1 ≤ field b 24 4) && decide (field b 24 4 ≤ 86400) && decide (field b 28 36 = 0) &&
    (if field b 4 1 = 1 then Config.verifiesFenavaud (b.take 64) sig else ownerSigned s (b.take 64) sig)

/-- Put a grant in force; one that stood ends. (DESIGN CHOICE: notes/assumptions/8.md, DESIGN CHOICE: notes/assumptions/76.md) -/
def putGrant (w : Nat) (b : List Byte) (s : State) : State :=
  let t := if s.sec.grant.isSome then endGrant s else s
  let g : DebugGrant := { port := fnPort w, ends := s.now + field b 24 4 * sec, signer := field b 4 1, lifetime := field b 24 4 }
  count Pg.sec 0xE20 (setSec { t.sec with grant := some g, nonceUsed := true } t)

/-- DEBUG_GRANT_SUBMIT: SEC_GRANT_CTRL written with OP SUBMIT and ADDR; a grant that does not match changes nothing. (DESIGN CHOICE: notes/assumptions/76.md) -/
def execDebugGrantSubmit (w addr : Nat) (grant : Dma) (s : State) : Host.Outcome State Fault Refusal :=
  .next (ownedWrite w Pg.sec (fun s =>
    let t := setReg Pg.sec 0x70 (setBits (reg s Pg.sec 0x70) 60 17 addr) s
    match grant with
    | .timeout | .error => t
    | .bytes b => if (func s w).bme && grantGood s b then putGrant w b t else t) s)

/-- DEBUG_GRANT_REVOKE: OP REVOKE. -/
def execDebugGrantRevoke (w : Nat) (s : State) : Host.Outcome State Fault Refusal :=
  .next (ownedWrite w Pg.sec (fun s => if s.sec.grant.isSome then endGrant s else s) s)

/-- DEBUG_GRANT_EXPIRY: the lifetime of the grant has ended. -/
def execDebugGrantExpiry (s : State) : Host.Outcome State Fault Refusal :=
  .next (whenAwake s (fun s => if s.sec.grant.any (fun g => decide (g.ends ≤ s.now)) then endGrant s else s))

end Sys2Proof.Machine
end

