-- ==== Sys2Proof/Machine/Drain.lean ====
section
/-! DEFINITION. Sys2Proof/Machine/Drain.lean: the destruction of contexts and the reset of functions (R37, R355, R380 – R382; rows
CTX_DESTROY, FLR, VF_ENABLE_CLEAR and TDISP_REQUEST). -/

namespace Sys2Proof.Machine

/-! Contexts on their way to FREE (R37) -/

/-- Valid partitions of a context are cleared (R372). -/
def clearParts (c : Nat) (s : State) : State :=
  let off (_ : Nat) (p : Part) : Part := if p.valid ∧ p.ctx = c then { p with valid := false } else p
  { s with ple := { s.ple with parts := tmap Part.reset off s.ple.parts } }

/-- Groups that a context is a member of, and groups that it owns. -/
def memberGroups (s : State) (c : Nat) : List Nat :=
  s.ple.members.filterMap (fun p => match p.2 with
    | some m => if m.ctx = c then some m.group else none
    | none => none)

def ownedGroups (s : State) (c : Nat) : List Nat := tkeys (fun _ o => decide (o = some c)) s.ple.groups

/-- A context leaves every group, and its own groups are destroyed; the windows made STALE drain. -/
def leaveGroups (c : Nat) (s : State) : State :=
  let out (x : List Nat × State) (y : List Nat × State) : List Nat × State := (x.1 ++ y.1, y.2)
  let a := (memberGroups s c).foldl (fun x g => out x (removeMember g c x.2)) (([] : List Nat), s)
  let b := (ownedGroups a.2 c).foldl (fun x g => out x (destroyGroup g x.2)) a
  drainWindows b.1 false none b.2

/-- The windows of a context become STALE and drain. -/
def staleWindows (c : Nat) (s : State) : State :=
  let ws := windowsWhere s (fun w => decide (w.ctx = c) && !w.stale)
  drainWindows ws false none (makeStale ws s)

/-- The key slot of a context is destroyed; a DESTROY of it in progress ends. -/
def dropKey (c : Nat) (s : State) : State :=
  let k := (ctxAt s c).key
  if k = 0xFFFF then s
  else
    let t := eraseKey k s
    if (keyAt s k).dying then keyResult secOk k t else t

/-- Guarantees and unused frames return to the ledger; frames in use stay counted (R230). -/
def returnResv (c : Nat) (s : State) : State :=
  setResv c ⟨usedFrames s c .t1, usedFrames s c .t2, usedFrames s c .t3, 0, 0, 0⟩ s

/-- Tables that a context owns are retired. -/
def retireOwned (c : Nat) (s : State) : State :=
  (tkeys (fun id e => isDeviceId id && decide (e.owner = c) && decide (e.state = .live)) s.ppu.tables).foldl
    (fun s id => retireTable id s) s

/-- Recipes that a context owns. -/
def recipesOf (s : State) (c : Nat) : List Nat :=
  tkeys (fun _ q => match q with | some q => decide (q.ctx = c) | none => false) s.rcp.recipes

/-- Votes of a context on any slab are lost. -/
def dropVotes (c : Nat) (s : State) : State :=
  ((s.mge.votes.map (·.1)).filter (fun k => decide (k % 2 ^ 20 = c))).foldl
    (fun s k => removeVote (k / 2 ^ 20) c .moveSuperseded s) s

/-- Put an ACTIVE context into DRAINING (R37): recipes unloaded, partitions cleared, key destroyed, groups left, windows
and grants STALE, moves abandoned, reservation returned, every slab on its way to FREE. (DEDUCED: notes/assumptions/27.md) -/
def drainCtx (c : Nat) (s : State) : State :=
  let x := ctxAt s c
  if x.state ≠ .active then s
  else
    let s1 := (recipesOf s c).foldl (fun s h => endAndUnload h .runAborted s) s
    let s2 := dropKey c (clearParts c (bumpGen x.fn (setCtx c { ctxAt s1 c with state := .draining } s1)))
    let s2 := ((slabsOf s2 c).filter (hasMove s2)).foldl (fun s k =>
      resolveTmask k .moveAbandoned (failVotes k .moveAbandoned (abandonMove k s))) s2
    let s3 := staleGrants (fun g => decide (g.localCtx = c)) (dropVotes c (staleWindows c (leaveGroups c s2)))
    let s4 := retireOwned c (dropPasses c s3)
    let slabs := slabsOf s4 c
    let s5 := returnResv c (slabs.foldl (fun s k => abandonMove k s) s4)
    settleScales (settleCtx c (slabs.foldl (fun s k => releaseSlab k s) s5))

/-- CTX_DESTROY: PLE_CTX_CMD DESTROY, for a context of the writer's port. (DEDUCED: notes/assumptions/27.md) -/
def execCtxDestroy (w ctx : Nat) (s : State) : Host.Outcome State Fault Refusal :=
  .next (ownedWrite w Pg.ple (fun s =>
    if !s.ple.ctxDone then s
    else
      let c := ctx % 1048576
      let f := ctxFn s c
      if fnPort f ≠ fnPort w ∨ (ctxAt s c).state ≠ .active then ctxDone .accessDenied 0 s
      else
        let before := windowsWhere s (fun w => w.stale)
        let t := drainCtx c s
        ctxDone .ok 0 (tdiWindows ((windowsWhere t (fun w => w.stale)).filter (fun n => !before.contains n)) (tdiError f t))) s)

/-! The reset of a function (R380) -/

/-- Tags of a function stay held for completions that nobody awaits (R381). (DEDUCED: notes/assumptions/64.md) -/
def orphanTags (f : Nat) (s : State) : State :=
  let mine (u : TagUse) : TagUse :=
    match u with
    | .fetch g _ => if g = f then .orphan f else u
    | .cmd r => if r.fn = f then .orphan f else u
    | _ => u
  modHport (fnPort f) (fun h => { h with tags := h.tags.map (fun e => (e.1, mine e.2)) }) s

/-- Nothing that waits inside the device completes to a command of the function any more. -/
def forgetCommands (f : Nat) (s : State) : State :=
  let mine (x : RingCmd × Nat) : Bool := decide (x.1.fn = f)
  let drop (d : Drain) : Drain := match d.cmd with
    | some x => if mine x then { d with cmd := none } else d
    | none => d
  let run := s.rcp.run.map (fun r => { r with waiters := r.waiters.filter (fun x => !mine x) })
  { s with
    ple := { s.ple with drains := s.ple.drains.map drop },
    mge := { s.mge with hints := s.mge.hints.filter (fun h => decide (h.r.fn ≠ f)) },
    ppu := { s.ppu with cmds := s.ppu.cmds.filter (fun c => decide (c.r.fn ≠ f)) },
    rcp := { s.rcp with loads := s.rcp.loads.filter (fun l => decide (l.r.fn ≠ f)), run := run } }

/-- The function's windows return to the pool once they have drained. -/
def returnWindows (f : Nat) (s : State) : State :=
  let ws := windowsWhere s (fun w => decide (w.fn = f))
  drainWindows ws true none (makeStale ws s)

/-- A run of the function's recipes ends here and now, once its recipe is gone. -/
def closeRun (f : Nat) (s : State) : State :=
  match runRecipe s with
  | some (r, q) => if q.fn = f ∧ r.state = .ending then finishRun s else s
  | none => s

/-- Reset one function as an FLR does, leaving it in `phase`. (DESIGN CHOICE: notes/assumptions/19.md, DEDUCED: notes/assumptions/77.md) -/
def resetFn (f : Nat) (phase : FnPhase) (s : State) : State :=
  let rings := tkeep (fun k => decide (k / 16 ≠ f)) s.hiu.rings
  let s1 := orphanTags f { s with hiu := { s.hiu with rings := rings } }
  let mine := tkeys (fun _ c => decide (c.fn = f) && decide (c.state = .active)) s1.ple.ctxs
  let s2 := returnWindows f (mine.foldl (fun s c => drainCtx c s) s1)
  let s3 := settleCvuScan (forgetCommands f (closeRun f s2))
  let drop (_ : Nat) (h : Page) : Page := { h with halves := h.halves.filter (fun x => decide (x.fn ≠ f)) }
  count (Pg.hiu + fnPort f) 0xE40
    (setFunc f { Func.reset with phase := phase } { s3 with pages := tmap Page.reset drop s3.pages })

/-- Bit number of CLAIM_CHANGE. -/
def bitClaimChange : Nat := 5

/-- The page claims that the PF of a port holds are released, and their unlocks end (R21, R432). (DEDUCED: notes/assumptions/77.md) -/
def releasePages (port : Nat) (s : State) : State :=
  let mine (p : Nat) : Bool := decide ((pageHdr s (claimPage p)).owner = .pf) && decide ((pageHdr s (claimPage p)).port = port)
  let free (p : Nat) (h : Page) : Page :=
    if !mine p then h
    else
      let u : Page := { h with unlocked := false }
      if h.owner = .pf then setEvtBit bitClaimChange { u with owner := .free, port := 0 } else u
  { s with pages := tmap Page.reset free s.pages }

/-- Reset every VF of a port. (DEDUCED: notes/assumptions/77.md) -/
def resetVfs (port : Nat) (s : State) : State :=
  let n := if (func s (pfOf port)).vfEnable then (func s (pfOf port)).numVfs else 0
  (List.range n).foldl (fun s i => resetFn (pfOf port + i + 1) .retry s) s

/-- Reset a PF with the VFs of its port, and all that its driver holds (R380, R434). (DEDUCED: notes/assumptions/77.md) -/
def resetPf (port : Nat) (phase : FnPhase) (s : State) : State :=
  releasePages port (releaseClaims (fun c => decide (c.owner = .pf) && decide (c.port = port))
    (resetFn (pfOf port) phase (resetVfs port s)))

/-- FLR: a function that is not ready answers with retry status. (DEDUCED: notes/assumptions/77.md) -/
def execFlr (fn : Nat) (s : State) : Host.Outcome State Fault Refusal :=
  .next (whenAwake s (fun s =>
    if 4096 ≤ fn ∨ !portUp s (fnPort fn) then s
    else if !fnExists s fn then emit (.configResp fn .ur) s
    else if (func s fn).phase ≠ .ready then emit (.configResp fn .crs) s
    else if isPf fn then resetPf (fnPort fn) .inFlr s
    else resetFn fn .inFlr s))

/-- VF_ENABLE_CLEAR (R355). -/
def execVfEnableClear (port : Nat) (s : State) : Host.Outcome State Fault Refusal :=
  .next (whenAwake s (fun s =>
    if port < 2 && portUp s port && decide ((func s (pfOf port)).phase = .ready) && (func s (pfOf port)).vfEnable then
      modFunc (pfOf port) (fun u => { u with vfEnable := false }) (resetVfs port s)
    else s))

/-! TDISP (R382) -/

/-- TDISP_REQUEST: the TDI of a VF; a return to CONFIG_UNLOCKED resets the VF. (DEDUCED: notes/assumptions/78.md) -/
def execTdispRequest (fn : Nat) (req : TdispReq) (s : State) : Host.Outcome State Fault Refusal :=
  .next (whenAwake s (fun s =>
    if !fnLive s fn || decide ((func s fn).phase ≠ .ready) then s
    else if isPf fn || decide (s.otp.life = .scrapped) then emit (.tdisp fn false) s
    else match req, (func s fn).tdi with
      | .lock, .unlocked => emit (.tdisp fn true) (modFunc fn (fun u => { u with tdi := .locked }) s)
      | .start, .locked => emit (.tdisp fn true) (modFunc fn (fun u => { u with tdi := .run }) s)
      | .stop, .unlocked => emit (.tdisp fn true) s
      | .stop, _ => resetFn fn .inFlr (emit (.tdisp fn true) s)
      | _, _ => emit (.tdisp fn false) s))

end Sys2Proof.Machine
end

