-- ==== Sys2Proof/Machine/Regs.lean ====
section
/-! DEFINITION. Sys2Proof/Machine/Regs.lean: writes of register pages (chapter Register Pages; rows REGISTER_WRITE to
EVT_PEND_CLEAR): claims, unlocks, unit control, presets, fields of basic and expert registers. -/

namespace Sys2Proof.Machine

/-! Fields (R6, R7, R22, R23) -/

/-- The value written to a field lies in the range that the field accepts. -/
def fldOk (f : Fld) (v : Word) : Bool := decide (f.min ≤ bits v f.hi f.lo) && decide (bits v f.hi f.lo ≤ f.max)

/-- A word with every accepted field of a write; a refused field keeps its value (R6, R7). (DEDUCED: notes/assumptions/15.md) -/
def mergeFlds (l : List Fld) (old v : Word) : Word :=
  l.foldl (fun w f => if fldOk f v then setBits w f.hi f.lo (bits v f.hi f.lo) else w) old

/-- Relations between the fields of an expert register that its page's register list states beside the ranges. -/
def fldsAgree (s : State) (t : PageType) (o : Nat) (v : Word) : Bool :=
  match t, o with
  | .mge, 0x400 => decide (bits v 26 16 % 2 = 0)
  | .fmg, 0x400 => decide (bits v 7 0 < bits v 15 8)
  | .fmg, 0x410 => decide (bits v 7 4 ≤ bits v 3 0)
  | .smc, 0x480 => decide (bits v 39 32 < bits v 47 40)
  | .dmc, 0x480 => decide (bits v 39 32 < bits v 47 40)
  | .smc, 0x498 => decide (bits v 7 0 < bits v 15 8)
  | .dmc, 0x498 => decide (bits v 7 0 < bits v 15 8)
  | .ppm, 0x400 => decide (bits v 51 41 ≤ bits v 62 52) &&
      (decide (bits v 11 0 = 0) || decide (ceilDiv (s.ppm.floorMbeat * (1000 + bits v 24 17)) 1000 ≤ bits v 11 0))
  | _, _ => true

/-- RATE_PERMILLE of ICE_CATCHUP takes a new value: a raise is admitted or refused as a write of MGE_GUARANTEE is
(R202). (DEDUCED: notes/assumptions/20.md) -/
def putCatchup (w : Nat) (v : Word) (s : State) : State :=
  let t := setReg Pg.ice 0x408 v s
  if bits v 15 12 ≤ fld s Pg.ice 0x408 15 12 then settleScales t
  else match admitFail s t with
    | some (c, req, room) =>
      noteErr Pg.ice kindRefusedValue .guaranteeUnavailable 0x408 w (refusedAdmission (noteRefusal .guaranteeUnavailable c req room s))
    | none => settleScales (admitted t)

/-- A parameter of a CVU changes (R220). -/
def cvuChanged (n : Nat) (s : State) : State := modCvu n (fun v => { v with changed := true }) s

/-- Store an accepted expert value. -/
def putExpert (w p : Nat) (t : PageType) (n o : Nat) (v : Word) (s : State) : State :=
  match t, o with
  | .ice, 0x408 => putCatchup w v s
  | .cvu, _ => cvuChanged n (setReg p o v s)
  | _, _ => setReg p o v s

/-- Rows of their own write these expert registers. (DESIGN CHOICE: notes/assumptions/14.md) -/
def expertRow (t : PageType) (o : Nat) : Bool :=
  match t with
  | .smc | .dmc => decide (0x400 ≤ o) && decide (o < 0x480)
  | .mge => decide (o = 0x418)
  | .ice => decide (o = 0x410)
  | .sht => decide (o = 0x408)
  | .sss => true
  | _ => false

/-- The value that an expert register takes from a write: each field that accepts its value, unless the fields then
disagree, where the register keeps its value. (DEDUCED: notes/assumptions/15.md) -/
def expertValue (s : State) (t : PageType) (d : RegDef) (o : Nat) (old v : Word) : Word :=
  if fldsAgree s t o (mergeFlds d.flds old v) then mergeFlds d.flds old v else old

/-- The write is accepted whole. -/
def expertOk (s : State) (t : PageType) (d : RegDef) (o : Nat) (old v : Word) : Bool :=
  d.flds.all (fun f => fldOk f v) && fldsAgree s t o (mergeFlds d.flds old v)

/-- A whole value for an expert register: ignored and recorded while the page is locked; a field that refuses its value
keeps it and is recorded (R6); by a CVU that runs ignored (R224). (DEDUCED: notes/assumptions/15.md) -/
def writeExpert (w p : Nat) (t : PageType) (n : Nat) (d : RegDef) (o : Nat) (v : Word) (s : State) : State :=
  let old := reg s p o
  if expertRow t o || d.flds.isEmpty then s
  else if !(pageHdr s p).unlocked then noteErr p kindExpertLocked .accessDenied o w s
  else if t = .cvu ∧ (cvuAt s n).state = .running then s
  else
    let s1 := if expertValue s t d o old v = old then s else putExpert w p t n o (expertValue s t d o old v) s
    if expertOk s t d o old v then s1 else noteErr p kindRefusedValue .accessDenied o w s1

/-- Page types with a preset register at 0x040. -/
def hasPreset : PageType → Bool
  | .mge | .fmg | .smc | .dmc | .ice | .cvu | .bwr | .sht | .rcp | .ppm => true
  | _ => false

/-- Rows of their own write these basic registers. (DESIGN CHOICE: notes/assumptions/14.md) -/
def basicRow (t : PageType) (o : Nat) (v : Word) : Bool :=
  match t, o with
  | .ftb, 0x40 => true
  | .tmx, 0x50 => true
  | .tmx, 0x58 => true
  | .cvu, 0x48 => bitOf v 63 || bitOf v 62
  | _, _ => hasPreset t && decide (o = 0x40)

/-- The route entry that FTB_ROUTE_SEL selects. -/
def routeSel (s : State) : Nat := if flag s Pg.ftb 0x68 16 then 4096 + fld s Pg.ftb 0x68 10 0 else fld s Pg.ftb 0x68 10 0

/-- FTB_ROUTE. -/
def writeRoute (v : Word) (s : State) : State :=
  let r : Route := { valid := bitOf v 8, altValid := bitOf v 7, alt := bits v 6 4, primary := bits v 2 0 }
  { s with ftb := { s.ftb with routes := tput Route.reset s.ftb.routes (routeSel s) r } }

/-- What follows the new value of a basic register at once. -/
def afterBasic (t : PageType) (n o : Nat) (old : Word) (s : State) : State :=
  match t, o with
  | .fpt, 0x40 => if flag s (Pg.fpt + n) 0x40 0 = bitOf old 0 then s else setPortEnable n (flag s (Pg.fpt + n) 0x40 0) s
  | .ftb, 0x58 => settleParent s
  | .cdc, 0x40 => settleTray s
  | _, _ => s

/-- The OP field of a command register and its greatest code that is not reserved. -/
def opField : PageType → Nat → Option (Nat × Nat × Nat)
  | .ple, 0x48 => some (63, 62, 2)
  | .ppu, 0x70 => some (31, 30, 1)
  | .tmx, 0x40 => some (31, 30, 2)
  | .lcc, 0x50 => some (31, 30, 2)
  | .sec, 0x60 => some (31, 30, 2)
  | .sec, 0x70 => some (63, 62, 2)
  | _, _ => none

/-- Fields of a command register that stand beside its OP. -/
def storeOperands (t : PageType) (o : Nat) (v : Word) (s : State) : State :=
  match t, o with
  | .ple, 0x48 =>
    if s.ple.ctxDone then storeCtxCmd 59 48 (bits v 59 48) (storeCtxCmd 47 32 (bits v 47 32) (storeCtxCmd 19 0 (bits v 19 0) s))
    else s
  | .sec, 0x70 => setReg Pg.sec 0x70 (setBits (reg s Pg.sec 0x70) 60 17 (bits v 60 17)) s
  | _, _ => s

/-- A command register written with OP none or with a reserved code, which is refused and recorded (R6); each command has
its own row. -/
def writeOp (w p : Nat) (t : PageType) (o : Nat) (f : Nat × Nat × Nat) (v : Word) (s : State) : State :=
  let op := bits v f.1 f.2.1
  if op = 0 then storeOperands t o v s
  else if f.2.2 < op then noteErr p kindRefusedValue .accessDenied o w (storeOperands t o v s)
  else s

/-- A whole value for a basic register: a field that refuses its value keeps it, and the refusal is recorded (R6). CDC_CODEC_CTRL
starts a flush in the same access (R7, R83). (DEDUCED: notes/assumptions/15.md) -/
def writeBasic (w p : Nat) (t : PageType) (n : Nat) (d : RegDef) (o : Nat) (v : Word) (s : State) : State :=
  if (opField t o).isSome then (match opField t o with | some f => writeOp w p t o f v s | none => s)
  else if basicRow t o v then s
  else if t = .ple ∧ 0x88 ≤ o ∧ o < 0x180 then (if (o - 0x80) % 16 = 8 then writePartSize w ((o - 0x80) / 16) v s else s)
  else if t = .ftb ∧ o = 0x70 then writeRoute v s
  else if d.flds.isEmpty then s
  else
    let old := reg s p o
    let s1 := afterBasic t n o old (setReg p o (mergeFlds d.flds old v) (if t = .cdc ∧ o = 0x40 ∧ bitOf v 2 then startFlush s else s))
    if d.flds.all (fun f => fldOk f v) then s1 else noteErr p kindRefusedValue .accessDenied o w s1

/-! Ring, event and selection registers of a function (R362, R369, R453) -/

/-- HIU_EVT_CFG with ENABLE = 0: the event ring stops. (DEDUCED: notes/assumptions/65.md) -/
def stopEvents (f : Nat) (v : Word) (s : State) : State :=
  let ok := decide (7 ≤ bits v 4 0) && decide (bits v 4 0 ≤ 16)
  let t := modFunc f (fun u => { u with evtOn := false, evtOverflow := u.evtOverflow && !bitOf v 30, evtVector := bits v 15 5,
                                        evtLog := if ok then bits v 4 0 else u.evtLog }) s
  if ok || !isPf f then t else noteErr (Pg.hiu + fnPort f) kindRefusedValue .accessDenied 0x68 f t

/-- A register of a function's own: `wide` when it has 64 bits, with its effect. (DEDUCED: notes/assumptions/18.md) -/
def fnRegister (f o : Nat) : Option (Bool × (Word → State → State)) :=
  let page (v : Word) : Nat := bits v 63 12 * 4096
  if o = 0x60 then some (true, fun v s => modFunc f (fun u => { u with evtBase := page v }) s)
  else if o = 0x68 then some (false, fun v s => if bitOf v 31 then s else stopEvents f v s)
  else if o = 0x70 then some (false, fun v s => settleIntx f (modFunc f (fun u => { u with evtHead := bits v 15 0 }) s))
  else if o = 0x408 ∧ !isPf f then some (false, fun v s => modFunc f (fun u => { u with ctxIndex := bits v 19 0 }) s)
  else if 0x200 ≤ o ∧ o < 0x400 ∧ o % 32 = 0 then
    some (true, fun v s => modRing f ((o - 0x200) / 32) (fun q => { q with sqBase := page v }) s)
  else if 0x200 ≤ o ∧ o < 0x400 ∧ o % 32 = 8 then
    some (true, fun v s => modRing f ((o - 0x200) / 32) (fun q => { q with cqBase := page v }) s)
  else none

/-! One access (R443, R444) -/

/-- What an offset of a page writes to: its own offset, whether it has 64 bits, and the effect of a whole value. -/
structure Target where
  off : Nat
  wide : Bool
  write : Word → State → State

/-- EVT_MASK (R447). (DEDUCED: notes/assumptions/18.md) -/
def writeMaskReg (p : Nat) (v : Word) (s : State) : State := modPage p (fun h => { h with evtMask := BitVec.ofNat 6 v.toNat }) s

/-- The register of a page at an offset, `expert` or not, as function `w` writes it. (DEDUCED: notes/assumptions/18.md) -/
def target (w p : Nat) (expert : Bool) (off : Nat) : Option Target :=
  match pageOf p with
  | none => none
  | some (t, n) =>
    if off = 0x18 ∧ !expert then some ⟨off, false, writeMaskReg p⟩
    else if t = .hiu ∧ !expert ∧ n = fnPort w ∧ (fnRegister w (off / 8 * 8)).isSome ∧ (off % 8 = 0 ∨ (fnRegister w (off / 8 * 8)).any (·.1)) then
      (fnRegister w (off / 8 * 8)).map (fun x => ⟨off / 8 * 8, x.1, x.2⟩)
    else match regAt p off with
      | none => none
      | some (d, o) =>
        if (decide (0x400 ≤ o) && decide (o < 0xE00)) ≠ expert then none
        else some ⟨o, d.wide, if expert then writeExpert w p t n d o else writeBasic w p t n d o⟩

/-- The register of a VF's control page. -/
def vfTarget (w off : Nat) : Option Target :=
  let o := off / 8 * 8
  match fnRegister w o with
  | some (wide, f) => if off = o ∨ wide then some ⟨o, wide, f⟩ else none
  | none => none

/-- The low half that `w` left held at a register. (DESIGN CHOICE: notes/assumptions/19.md) -/
def heldHalf (s : State) (w p o : Nat) : Option Word :=
  ((pageHdr s p).halves.find? (fun x => decide (x.fn = w) && decide (x.off = o))).map (·.value)

/-- One aligned access of `w` to the registers that `find` names. Halves are held in the header of page `p`; `half` is the
low half that was held when the access came. (DEDUCED: notes/assumptions/15.md, DESIGN CHOICE: notes/assumptions/19.md) -/
def accessReg (w p : Nat) (find : Nat → Option Target) (half : Nat → Option Word) (off : Nat) (wide : Bool) (v : Word) (s : State) : State :=
  let low : Word := BitVec.ofNat 64 (bits v 31 0)
  let narrow (off : Nat) (v : Word) (s : State) : State :=
    match find off with
    | none => s
    | some t =>
      if !t.wide then t.write v s
      else if off = t.off then
        modPage p (fun h => { h with halves := h.halves ++ [{ fn := w, off := t.off, wide := false, value := v }] }) s
      else match half t.off with
        | some lo => t.write (lo + BitVec.ofNat 64 (v.toNat * 2 ^ 32)) s
        | none => if isPf w then noteErr p kindRefusedValue .accessDenied off w s else s
  if !wide then narrow off low s
  else match find off with
    | some t => if t.wide then t.write v s else narrow (off + 4) (BitVec.ofNat 64 (bits v 63 32)) (t.write low s)
    | none => narrow (off + 4) (BitVec.ofNat 64 (bits v 63 32)) s

/-- The access is naturally aligned and lies in its page. -/
def alignedAccess (off : Nat) (wide : Bool) : Bool := decide (off < 4096) && decide (off % (if wide then 8 else 4) = 0)

/-- Carry out an access to page `p` that passed the owner rule, basic (`expert` false) or expert. -/
def applyAccess (expert : Bool) (w p : Nat) (half : Nat → Option Word) (off : Nat) (wide : Bool) (v : Word) (s : State) : State :=
  accessReg w p (target w p expert) half off wide v s

/-! UNIT_CTRL, presets and held writes -/

/-- UNIT_CTRL.EXPERT_UNLOCK with a KEY (R21). -/
def unlockPage (w p key : Nat) (s : State) : State :=
  if key = 0xE7A5 then modPage p (fun h => { h with unlocked := true }) s
  else noteErr p kindBadUnlock .accessDenied 0x0C w s

def relockPage (p : Nat) (s : State) : State := modPage p (fun h => { h with unlocked := false }) s

/-- UNIT_CTRL.ENABLE: writable in FPT, CVU and PPU pages (R449). -/
def enableUnit (p : Nat) (on : Bool) (s : State) : State :=
  match pageOf p with
  | some (.fpt, n) => if flag s p 0x40 0 = on then s else setPortEnable n on s
  | some (.cvu, _) => if (pageHdr s p).enable = on then s else setEnable p on s
  | some (.ppu, _) => if (pageHdr s p).enable = on then s else setEnable p on s
  | _ => s

/-- UNIT_CTRL as one access: all its fields together (R7); more than one of UNIT_RESET, EXPERT_UNLOCK and RELOCK is refused
(R449), and UNIT_RESET follows R426. -/
def writeUnitCtrl (w p : Nat) (v : Word) (s : State) : State :=
  let acts := boolNat (bitOf v 0) + boolNat (bitOf v 2) + boolNat (bitOf v 3)
  if 2 ≤ acts then noteErr p kindRefusedValue .accessDenied 0x0C w s
  else
    let s1 := enableUnit p (bitOf v 1) s
    if bitOf v 2 then unlockPage w p (bits v 31 16) s1
    else if bitOf v 3 then relockPage p s1
    else if bitOf v 0 then
      (if !(pageOf p).any (fun x => resettable x.1) then noteErr p kindRefusedState .accessDenied 0x0C w s1
       else if (pageHdr s1 p).resetting then ignoreWrite p s1
       else startReset p s1)
    else s1

/-- ENABLE of a page as UNIT_CTRL reads it where it is writable. -/
def unitEnabled (s : State) (p : Nat) : Bool :=
  match pageOf p with
  | some (.fpt, _) => flag s p 0x40 0
  | _ => (pageHdr s p).enable

/-- UNIT_CTRL with one action and ENABLE as it stands. -/
def unitCtrl (s : State) (p key act : Nat) : Word :=
  BitVec.ofNat 64 (place key 16 16 + place act 0 4 + place (boolNat (unitEnabled s p)) 1 1)

/-- EVT_PEND: bits written 1 are cleared in EVT_PEND and EVT_RAW (R447). -/
def clearPend (p value : Nat) (s : State) : State :=
  let m : BitVec 6 := ~~~ BitVec.ofNat 6 value
  modPage p (fun h => { h with evtPend := h.evtPend &&& m, evtRaw := h.evtRaw &&& m }) s

/-- Expert registers that a preset of a page reloads, with their values (R22); none for a reserved code. -/
def presetValues (t : PageType) (code : Nat) : Option (List (Nat × Nat)) :=
  let mge (sample window tick hyst period dwell low active passes dirty hold : Nat) : Option (List (Nat × Nat)) :=
    some [(0x400, place window 16 11 + place tick 6 10 + place sample 0 5),
          (0x408, place low 48 16 + place dwell 32 16 + place period 16 16 + place hyst 0 8),
          (0x410, place active 26 6 + place hold 16 8 + place dirty 4 12 + place passes 0 3)]
  let fmg (start urgent delta dies retry soft : Nat) : Option (List (Nat × Nat)) :=
    some [(0x400, place start 8 8 + place urgent 0 8), (0x408, place dies 24 8 + place delta 0 16),
          (0x410, place soft 4 4 + place retry 0 4)]
  let sched (age close hi lo : Nat) : Option (List (Nat × Nat)) :=
    some [(0x480, place hi 40 8 + place lo 32 8 + place close 16 3 + place age 0 16)]
  let ice (t1 t2 t3 lag rate defer : Nat) : Option (List (Nat × Nat)) :=
    some [(0x400, place t3 20 10 + place t2 10 10 + place t1 0 10), (0x408, place defer 16 16 + place rate 12 4 + place lag 0 10)]
  let bwr (window high : Nat) : Option (List (Nat × Nat)) := some [(0x400, place high 16 8 + place window 0 16)]
  let sht (time limit : Nat) : Option (List (Nat × Nat)) := some [(0x400, place time 16 8 + place limit 0 4)]
  let rcp (peer ready slots : Nat) : Option (List (Nat × Nat)) :=
    some [(0x400, place ready 32 16 + place slots 16 12 + place peer 0 16)]
  match t, code with
  | .mge, 0 => mge 14 200 100 16 10 1000 64 32 4 64 50
  | .mge, 1 => mge 14 200 100 48 50 5000 32 32 4 64 50
  | .mge, 2 => mge 12 200 100 8 2 200 256 32 6 128 100
  | .fmg, 0 => fmg 8 3 500 16 8 3
  | .fmg, 1 => fmg 16 4 200 16 8 3
  | .fmg, 2 => fmg 8 3 500 8 4 2
  | .smc, 0 => sched 2000 1 48 16
  | .smc, 1 => sched 1000 2 32 8
  | .smc, 2 => sched 4000 0 56 24
  | .dmc, 0 => sched 2000 1 48 16
  | .dmc, 1 => sched 1000 2 32 8
  | .dmc, 2 => sched 4000 0 56 24
  | .ice, 0 => ice 24 24 168 50 1 200
  | .ice, 1 => ice 8 8 72 50 2 100
  | .ice, 2 => ice 72 72 336 100 1 500
  | .cvu, c => (cvuPreset c).map (fun q =>
      [(0x400, q.poly), (0x408, q.init), (0x410, q.xorout),
       (0x418, place (boolNat q.refout) 9 1 + place (boolNat q.refin) 8 1 + place q.width 0 7)])
  | .bwr, 0 => bwr 1000 75
  | .bwr, 1 => bwr 500 60
  | .bwr, 2 => bwr 2000 90
  | .sht, 0 => sht 10 2
  | .sht, 1 => sht 5 1
  | .rcp, 0 => rcp 100 1000 3584
  | .rcp, 1 => rcp 1000 10000 3584
  | .rcp, 2 => rcp 100 1000 4032
  | .ppm, 0 => some [(0x400, 0)]
  | .ppm, 1 => some [(0x400, 1100)]
  | .ppm, 2 => some [(0x400, 1300)]
  | _, _ => none

/-- Bits of the preset register that hold the code which `presetValues` takes. -/
def presetBits : PageType → Nat × Nat
  | .smc | .dmc => (5, 4)
  | .cvu => (2, 0)
  | .sht => (0, 0)
  | _ => (1, 0)

/-- Reload one expert register: RATE_PERMILLE follows R202, and PPM presets hold TARGET_MBEAT alone (R261). (DEDUCED: notes/assumptions/20.md) -/
def reload (w p : Nat) (t : PageType) (x : Nat × Nat) (s : State) : State :=
  match t with
  | .ppm => setReg p x.1 (setBits (reg s p x.1) 11 0 x.2) s
  | .ice =>
    if x.1 = 0x408 then
      let v : Word := BitVec.ofNat 64 x.2
      putCatchup w v (setReg p 0x408 (setBits v 15 12 (fld s p 0x408 15 12)) s)
    else setReg p x.1 (BitVec.ofNat 64 x.2) s
  | _ => setReg p x.1 (BitVec.ofNat 64 x.2) s

/-- A write of the preset register. A controller page of instance 0 reloads the hash masks too, under R167. (DEDUCED: notes/assumptions/20.md) -/
def loadPreset (w p : Nat) (v : Word) (s : State) : State :=
  match pageOf p with
  | none => s
  | some (t, n) =>
    if !hasPreset t || (decide (t = .cvu) && decide ((cvuAt s n).state = .running)) then s
    else
      let (hi, lo) := presetBits t
      let s1 := match presetValues t (bits v hi lo) with
        | none => noteErr p kindRefusedValue .accessDenied 0x40 w s
        | some l =>
          let t1 := l.foldl (fun s x => reload w p t x s) (setReg p 0x40 (setBits (reg s p 0x40) hi lo (bits v hi lo)) s)
          if decide (t = .cvu) && decide (cvuPar s n ≠ cvuPar t1 n) then cvuChanged n t1 else t1
      match t with
      | .smc => if n = 0 then writeHashPreset w false (bits v 2 0) s1 else s1
      | .dmc => if n = 0 then writeHashPreset w true (bits v 2 0) s1 else s1
      | _ => s1

/-- A write that was held while the unit of its page was being reset: UNIT_CTRL (bits 3:0 as in the register, the key
above), EVT_PEND, the preset register, or any other register. (DEDUCED: notes/assumptions/17.md) -/
def applyHeldWrite (p : Nat) (x : HeldWrite) (s : State) : State :=
  let v := x.value
  if x.off = 0x0C then writeUnitCtrl x.fn p v s
  else if x.off = 0x1C then clearPend p (bits v 5 0) s
  else if x.off = 0x40 ∧ (pageOf p).any (fun t => hasPreset t.1) then loadPreset x.fn p v s
  else
    let half (o : Nat) : Option Word := heldHalf s x.fn p o
    let t := dropHalf x.fn p s
    applyAccess (decide (0x400 ≤ x.off) && decide (x.off < 0xE00)) x.fn p half x.off x.wide v t

/-- SCH and FLC pages take no write but CLAIM and UNIT_CTRL.UNIT_RESET (R161, R189). -/
def readOnlyPage (p off : Nat) (v : Word) : Bool :=
  (pageOf p).any (fun x => decide (x.1 = .sch) || decide (x.1 = .flc)) && !(decide (off = 0x0C) && bitOf v 0)

/-- A write of `w` to page `p` under the owner rule; held while the unit is being reset (Table 20-2). (DEDUCED: notes/assumptions/17.md) -/
def pageWrite (w p off : Nat) (wide : Bool) (v : Word) (s : State) : State :=
  if !reaches s w p then s
  else
    let half (o : Nat) : Option Word := heldHalf s w p o
    let t := dropHalf w p s
    if !holdsPage t w p || readOnlyPage p off v then ignoreWrite p t
    else if (pageHdr t p).resetting && decide (off = 0x0C) && bitOf v 0 && !bitOf v 2 && !bitOf v 3 then ignoreWrite p t
    else if (pageHdr t p).resetting then
      modPage p (fun h => { h with held := h.held ++ [{ fn := w, off := off, wide := wide, value := v }],
                                   halves := (pageHdr s p).halves }) t
    else if off = 0x0C ∨ off = 0x1C ∨ (off = 0x40 ∧ (pageOf p).any (fun x => hasPreset x.1)) then
      applyHeldWrite p { fn := w, off := off, wide := wide, value := v } t
    else applyAccess (decide (0x400 ≤ off) && decide (off < 0xE00)) w p half off wide v t

/-! The rows -/

/-- Offsets whose writes have rows of their own in every page: CLAIM, EVT_PEND, CNT_SNAP, and the preset register; a UNIT_CTRL
access of any form is a REGISTER_WRITE too. (DESIGN CHOICE: notes/assumptions/14.md) -/
def headerRow (p off : Nat) : Bool :=
  decide (off = 0x08) || decide (off = 0x1C) || (decide (off = 0x40) && (pageOf p).any (fun x => hasPreset x.1))

/-- A VF writes its control page. (DESIGN CHOICE: notes/assumptions/19.md) -/
def vfWrite (w off : Nat) (wide : Bool) (v : Word) (s : State) : State :=
  let p := Pg.hiu + fnPort w
  if awake s && fnLive s w && decide ((func s w).phase = .ready) && !(func s w).d3hot then
    accessReg w p (vfTarget w) (heldHalf s w p) off wide v (dropHalf w p s)
  else s

/-- REGISTER_WRITE: a basic register that has no row of its own; a VF writes its control page. (DESIGN CHOICE: notes/assumptions/14.md, DESIGN CHOICE: notes/assumptions/21.md, DESIGN CHOICE: notes/assumptions/22.md) -/
def execRegisterWrite (w page off : Nat) (wide : Bool) (value : Word) (s : State) : Host.Outcome State Fault Refusal :=
  .next (
    if !alignedAccess off wide then s
    else if !isPf w then vfWrite w off wide value s
    else if headerRow page off ∨ 0x400 ≤ off then s
    else pageWrite w page off wide value s)

/-- EXPERT_WRITE. (DESIGN CHOICE: notes/assumptions/14.md) -/
def execExpertWrite (w page off : Nat) (wide : Bool) (value : Word) (s : State) : Host.Outcome State Fault Refusal :=
  .next (if alignedAccess off wide && decide (0x400 ≤ off) && decide (off < 0xE00) then pageWrite w page off wide value s else s)

/-- EXPERT_UNLOCK. (DESIGN CHOICE: notes/assumptions/16.md) -/
def execExpertUnlock (w page key : Nat) (s : State) : Host.Outcome State Fault Refusal :=
  .next (pageWrite w page 0x0C false (unitCtrl s page key 4) s)

/-- RELOCK. (DESIGN CHOICE: notes/assumptions/16.md) -/
def execRelock (w page : Nat) (s : State) : Host.Outcome State Fault Refusal :=
  .next (pageWrite w page 0x0C false (unitCtrl s page 0 8) s)

/-- UNIT_ENABLE. (DESIGN CHOICE: notes/assumptions/16.md) -/
def execUnitEnable (w page : Nat) (on : Bool) (s : State) : Host.Outcome State Fault Refusal :=
  .next (pageWrite w page 0x0C false (BitVec.ofNat 64 (place (boolNat on) 1 1)) s)

/-- UNIT_RESET (R426, R449). (DESIGN CHOICE: notes/assumptions/16.md) -/
def execUnitReset (w page : Nat) (s : State) : Host.Outcome State Fault Refusal :=
  .next (ownedWrite w page (fun s =>
    if !(pageOf page).any (fun x => resettable x.1) then noteErr page kindRefusedState .accessDenied 0x0C w s
    else if (pageHdr s page).resetting then ignoreWrite page s
    else startReset page s) s)

/-- UNIT_RESET_DONE: the writes that came meanwhile take effect, in order. (DEDUCED: notes/assumptions/17.md) -/
def execUnitResetDone (page : Nat) (s : State) : Host.Outcome State Fault Refusal :=
  .next (whenAwake s (fun s =>
    let l := (pageHdr s page).held
    if !(pageHdr s page).resetting then s
    else l.foldl (fun s x => applyHeldWrite page x s) (modPage page (fun h => { h with held := [] }) (endReset page s))))

/-- PRESET_WRITE. -/
def execPresetWrite (w page : Nat) (value : Word) (s : State) : Host.Outcome State Fault Refusal :=
  .next (if (pageOf page).any (fun x => hasPreset x.1) then pageWrite w page 0x40 false value s else s)

/-- The unlocks of a page group end with the release of its claim (R21). -/
def lockGroup (first : Nat) (s : State) : State :=
  let lock (p : Nat) (h : Page) : Page := if claimPage p = first then { h with unlocked := false } else h
  { s with pages := tmap Page.reset lock s.pages }

/-- CLAIM_WRITE (R432, R446). (DEDUCED: notes/assumptions/18.md) -/
def execClaimWrite (w page value : Nat) (s : State) : Host.Outcome State Fault Refusal :=
  .next (
    if !reaches s w page then s
    else
      let t := dropHalf w page s
      let h := pageHdr t page
      if claimPage page ≠ page then ignoreWrite page t
      else if value % 8 = 2 ∧ h.owner = .free then
        setPage page (setEvtBit bitClaimChange { h with owner := .pf, port := fnPort w }) t
      else if value % 8 = 0 ∧ holdsPage t w page then
        modPage page (fun h => setEvtBit bitClaimChange { h with owner := .free, port := 0 }) (lockGroup page t)
      else ignoreWrite page t)

/-- SNAP: any PF (R451). -/
def execSnap (w page : Nat) (s : State) : Host.Outcome State Fault Refusal :=
  .next (if reaches s w page then takeSnapshot page (dropHalf w page s) else s)

/-- EVT_PEND_CLEAR. -/
def execEvtPendClear (w page value : Nat) (s : State) : Host.Outcome State Fault Refusal :=
  .next (pageWrite w page 0x1C false (BitVec.ofNat 64 (value % 64)) s)

end Sys2Proof.Machine
end

