-- ==== Sys2Proof/Machine/Profile.lean ====
section
/-! DEFINITION. Sys2Proof/Machine/Profile.lean: the operating profile (R15 – R20, Table 01-6; rows PROFILE_WRITE and
PROFILE_APPLIED). -/

namespace Sys2Proof.Machine

/-- The fields of DEV_OPERATING_PROFILE. -/
def profileOf (v : Word) : Profile := ⟨bits v 1 0, bits v 4 4, bits v 9 8, bits v 13 12, bits v 17 16, bits v 21 20⟩

/-- Slabs of valid partitions. -/
def partSlabs (s : State) : List Nat := s.ple.parts.flatMap (fun p => if p.2.valid then slabList p.2.first p.2.count else [])

/-- T3 slabs of valid partitions. -/
def partT3Homes (s : State) : List Nat := t3Homes s (partSlabs s)

/-- Some slab's home or move target lies in T3, or some context has T3 frames. -/
def t3Used (s : State) : Bool :=
  s.ple.map.any (fun p => decide (p.2.tier = some .t3)) || s.mge.moves.any (fun m => decide (m.target = .t3)) ||
    s.rlg.resv.any (fun p => decide (p.2.f3 ≠ 0))

/-- FLASH_USE cannot take a value (Table 01-6). -/
def flashRefused (s : State) (v : Nat) : Bool :=
  decide (v ≠ s.dev.profile.flashUse) &&
    ((decide (v = 1) && promotionFails s (partT3Homes s)) || (decide (v = 2) && t3Used s))

/-- The first field of a profile that is refused, in ascending bit order, with its REASON. -/
def profileRefusal (s : State) (p : Profile) : Option (Nat × Nat) :=
  if p.split = 3 then some (1, 0)
  else if p.compression = 3 then some (3, 0)
  else if p.envelope = 3 then some (4, 0)
  else if p.envelope ≠ s.dev.profile.envelope ∧ (freeComparator s).isNone then some (4, Status.claimDenied.code)
  else if p.placement = 3 then some (5, 0)
  else if p.flashUse = 3 then some (6, 0)
  else if flashRefused s p.flashUse then some (6, Status.noCapacity.code)
  else none

/-- The first whole millisecond of FTB_TIME at least 1 ms from now (R255). (DEDUCED: notes/assumptions/23.md) -/
def envelopeTime (s : State) : Nat := ceilDiv (s.now + 1000000) 1000000 * 1000000

/-- Claim a comparator for a change of POWER_ENVELOPE and set it. (DEDUCED: notes/assumptions/23.md) -/
def startEnvelope (e : Nat) (s : State) : State :=
  if e = s.dev.profile.envelope then s
  else match freeComparator s with
  | none => s
  | some n =>
    let t := count Pg.tmx 0xE08 (setClaim n { owner := .firmware, port := 0, user := .ppmEnvelope, ctx := 0, tap := false } s)
    { t with ppm := { t.ppm with envCmp := some n, envNext := e, envFired := false, envSamples := 0 },
             ftb := { t.ftb with cmps := tput none t.ftb.cmps n (some (envelopeTime t)) } }

/-- The PLACEMENT of a new profile comes into force (Table 01-6, R19): moves for heat and hints that are not yet copying
are abandoned; a write that had joined one asks for its promotion anew. (DEDUCED: notes/assumptions/23.md) -/
def applyPlacement (v : Nat) (s : State) : State :=
  if v = s.dev.profile.placement then s
  else
    let gone := s.mge.moves.filter (fun m => decide (m.phase = .queued) && decide (4 ≤ m.cls))
    gone.foldl (fun s m => takeUp m.slab (releaseHeld m.slab (failVotes m.slab .moveAbandoned (abandonMove m.slab s)))) s

/-- A group is mounted. -/
def groupMounted (s : State) : Bool := decide (s.fmg.g0.state = .online) || decide (s.fmg.g1.state = .online)

/-- What a write of FLASH_USE starts at once: ON starts a mount whenever no group is mounted (R136). (DEDUCED: notes/assumptions/23.md) -/
def startFlashUse (v : Nat) (s : State) : State :=
  if v = s.dev.profile.flashUse then (if v = 0 ∧ !groupMounted s then startMount s else s)
  else
    let t := { s with dev := { s.dev with profile := { s.dev.profile with flashUse := v } } }
    if v = 1 then
      promoteSlabs (partT3Homes s) <| barDemotions (partSlabs s) (if t3Online t && !t3Online s then retryHeld (settleScales (recountSlabs t)) else t)
    else if v = 2 then settleScales (retireSlabs t)
    else if groupMounted t then retryHeld (settleScales (recountSlabs t))
    else startMount t

/-- PROFILE_WRITE: DEV_OPERATING_PROFILE written, applied whole or refused whole. (DEDUCED: notes/assumptions/23.md) -/
def execProfileWrite (w : Nat) (value : Word) (s : State) : Host.Outcome State Fault Refusal :=
  .next (ownedWrite w Pg.dev (fun s =>
    let p := profileOf value
    if s.dev.state = .inProgress then ignoreWrite Pg.dev s
    else match profileRefusal s p with
    | some (f, r) =>
      let t := count Pg.dev 0xE10 { s with dev := { s.dev with state := .refused, refusedField := f, reason := r } }
      if f = 6 ∧ p.flashUse = 1 ∧ r ≠ 0 then notePromotion (partT3Homes s) t else t
    | none =>
      let t := startFlashUse p.flashUse (startEnvelope p.envelope s)
      { t with dev := { t.dev with target := p, state := .inProgress, refusedField := 0, reason := 0 } }) s)

/-- Every changed field has taken effect, or can take it now. (DEDUCED: notes/assumptions/23.md) -/
def profileSettled (s : State) : Bool :=
  let t := s.dev.target
  s.ppm.envCmp.isNone && !(decide (t.flashUse = 1) && !(partT3Homes s).isEmpty) && !(decide (t.flashUse = 0) && s.fmg.mounting)

/-- PROFILE_APPLIED. (DEDUCED: notes/assumptions/23.md) -/
def execProfileApplied (s : State) : Host.Outcome State Fault Refusal :=
  .next (whenAwake s (fun s =>
    if s.dev.state = .inProgress ∧ profileSettled s then
      let t := applyPlacement s.dev.target.placement s
      count Pg.dev 0xE08 { t with dev := { t.dev with profile := t.dev.target, state := .applied } }
    else s))

end Sys2Proof.Machine
end

