-- ==== Sys2Proof/Machine/Reset.lean ====
section
/-! DEFINITION. Sys2Proof/Machine/Reset.lean: start-up and the resets of the device and of its ports (chapter Start-up and Reset; rows
POWER_ON_RESET to FRAME_ZEROED, and LIFECYCLE_WIPE_DONE). -/

namespace Sys2Proof.Machine

/-! What a device reset leaves (Table 18-2) -/

/-- What the system area holds of a channel: erase blocks with their counts, retired dies, unique IDs and training results (R160);
every block is erased before its next program (R159). -/
def keptFlc (f : Flc) : Flc := { Flc.reset with blocks := unusedBlocks (fun _ => true) f.blocks, retired := f.retired, known := f.known }

/-- The device as the power-on sequence finds it: everything reset but OTP, the boot flash and the system area. Power is on. (DEDUCED: notes/assumptions/80.md) -/
def survivors (cause coldCount : Nat) (f : Fitted) (s : State) : State :=
  let pinned (h : HPort) : HPort := { HPort.reset with perst := h.perst }
  { State.reset with
    pending := s.pending, sent := s.sent, draws := s.draws, otp := s.otp,
    lcc := { Lcc.reset with pending := s.lcc.pending },
    sec := { Sec.reset with trust := s.sec.trust },
    ccx := { Ccx.reset with slotA := s.ccx.slotA, slotB := s.ccx.slotB, activeB := s.ccx.activeB, nextB := s.ccx.nextB },
    boot := { Boot.reset with crash := s.boot.crash, repairs := s.boot.repairs, coresRetired := s.boot.coresRetired,
                              cause := cause, coldCount := coldCount },
    fmg := { Fmg.reset with flcs := tmap Flc.reset (fun _ f => keptFlc f) s.fmg.flcs, sysKey := s.fmg.sysKey },
    hiu := { Hiu.reset with p0 := pinned s.hiu.p0, p1 := pinned s.hiu.p1 },
    ppm := { Ppm.reset with floorMbeat := if f.part = 1 then 950 else 900 },
    dev := { Dev.reset with vendorId := Config.vendorId, part := f.part, serial := f.serial, powered := true } }

/-! Step 3 of Table 18-1: lifecycle state and configuration record -/

/-- What SCRAPPED destroys (R405, R406). (DEDUCED: notes/assumptions/80.md) -/
def scrap (s : State) : State :=
  { s with otp := { s.otp with seeds := false, owners := [], ownerSlot := 0 },
           sec := { s.sec with trust := [] },
           ccx := { s.ccx with slotA := FwSlot.reset, slotB := FwSlot.reset },
           boot := { s.boot with repairs := [] } }

/-- A pending transition is written to OTP with WIPE_DUE (R404, Table 17-1). -/
def applyPending (s : State) : State :=
  match s.lcc.pending with
  | none => s
  | some (life, hash) =>
    let o := { s.otp with life := life, transitions := s.otp.transitions + 1, wipeDue := true }
    let t := { s with otp := o, lcc := Lcc.reset }
    match life with
    | .manufactured => { t with otp := { o with seeds := true } }
    | .provisioned => { t with otp := { o with owners := o.owners ++ [hash], ownerSlot := o.owners.length + 1 } }
    | .scrapped => scrap t
    | _ => t

/-- `v` when it lies in a range, else a default. -/
def within (lo hi default v : Nat) : Nat := if lo ≤ v ∧ v ≤ hi then v else default

/-- Field k of the electrical record with its reserved encoding replaced by its default (Table 21-10). -/
def soundSpread (e k : Nat) : Nat := if e / 4 ^ k % 4 = 3 then e - 2 * 4 ^ k else e

/-- The configuration record with each value out of range at its default (R428, R463). (DEDUCED: notes/assumptions/79.md) -/
def soundCfg (c : BootCfg) : BootCfg :=
  { c with pfApt0 := within 32 46 36 c.pfApt0, pfApt1 := within 32 46 36 c.pfApt1, vfApt0 := within 30 40 30 c.vfApt0,
           vfApt1 := within 30 40 30 c.vfApt1,
           electrical := soundSpread (soundSpread (soundSpread (c.electrical % 4096) 0) 1) 2,
           smbAddr := c.smbAddr % 128, deviceId := c.deviceId % 131072, parts := if c.parts.length ≤ 16 then c.parts else [] }

/-- IOX_BAR_STRAP, IOX_RESET_CTRL and the identity from the configuration record; the time-out that a CXL host reads (R373). (DEDUCED: notes/assumptions/80.md) -/
def loadCfg (f : Fitted) (s : State) : State :=
  let c0 := f.cfg.getD bootCfgDefault
  let c := soundCfg c0
  let s1 := if c = c0 then s else noteErr Pg.iox kindRefusedValue .accessDenied 0 0 s
  let strap := BitVec.ofNat 64 (place c.vfApt1 18 6 + place c.vfApt0 12 6 + place c.pfApt1 6 6 + place c.pfApt0 0 6)
  let s2 := setReg Pg.iox 0x60 strap (setReg Pg.iox 0x68 (BitVec.ofNat 64 (place (boolNat c.perstBoth) 1 1)) s1)
  let timed (h : HPort) : HPort := { h with memTimeoutS := if s.otp.wipeDue then 64 else 16 }
  { s2 with boot := { s2.boot with cfg := c }, hiu := { s2.hiu with p0 := timed s2.hiu.p0, p1 := timed s2.hiu.p1 },
            dev := { s2.dev with subsystem := place c.subVendor 16 16 + place c.subId 0 16 } }

/-! Step 4: the firmware slot (R398, R411) -/

/-- A slot that holds an image which the device has no record of holds a VALID one when it authenticates. (DEDUCED: notes/assumptions/70.md) -/
def readSlot (v : FwSlot) (i : Option FwImage) : FwSlot :=
  match v.state, i with
  | .empty, some x =>
    if x.authentic then { state := .valid, version := x.version, svn := x.svn, keyIndex := x.keyIndex, revokes := x.revokes, trials := 0 }
    else v
  | _, _ => v

/-- The ROM accepts the image of a slot. -/
def authenticates (s : State) (v : FwSlot) (i : Option FwImage) : Bool :=
  (match i with | some x => x.authentic | none => false) && !s.otp.revoked.contains v.keyIndex

/-- The slot would boot as TRIAL. -/
def onTrial (v : FwSlot) : Bool := decide (v.state = .staged) || decide (v.state = .trial)

/-- The slot can be chosen at this boot. (DEDUCED: notes/assumptions/70.md) -/
def bootable (s : State) (v : FwSlot) (i : Option FwImage) : Bool :=
  authenticates s v i && (match v.state with
    | .valid | .active => true
    | .staged | .trial => decide (v.trials < 2)
    | _ => false)

/-- The revocation that an image carries is written when its slot becomes ACTIVE. -/
def revoke (v : FwSlot) (s : State) : State :=
  match v.revokes with
  | some k => { s with otp := { s.otp with revoked := if s.otp.revoked.contains k then s.otp.revoked else s.otp.revoked ++ [k] } }
  | none => s

/-- A slot becomes ACTIVE and the other, when it was, VALID. -/
def activate (s : State) : State :=
  let a := activeSlot s
  let o := otherSlot s
  revoke a (setOtherSlot { o with state := if o.state = .active then .valid else o.state } (setActiveSlot { a with state := .active } s))

/-- Choose the slot that boots: the one set for this reset, else the other; none when neither authenticates. (DEDUCED: notes/assumptions/70.md) -/
def selectSlot (f : Fitted) (s : State) : Option State :=
  let s1 := setCcx { s.ccx with slotA := readSlot s.ccx.slotA f.fwA, slotB := readSlot s.ccx.slotB f.fwB } s
  let image (b : Bool) : Option FwImage := if b then f.fwB else f.fwA
  let next := s1.ccx.nextB
  let here := setCcx { s1.ccx with activeB := next } s1
  let there := setCcx { s1.ccx with activeB := !next, nextB := !next } s1
  if bootable here (activeSlot here) (image next) then
    if onTrial (activeSlot here) then
      let t := setActiveSlot { activeSlot here with state := .trial } here
      some (setCcx { t.ccx with trial := true } t)
    else some (activate here)
  else if bootable there (activeSlot there) (image (!next)) && !onTrial (activeSlot there) then
    let o := otherSlot there
    let t := activate (if o.state = .empty then there else setOtherSlot { o with state := .failed } there)
    some (if o.state = .empty then t else count Pg.ccx 0xE30 (setCcx { t.ccx with fallback := true } t))
  else none

/-! Step 5: cores, keys, crash record, identity -/

/-- Cores retired earlier stay so; a core that fails its self-test is held out. (DEDUCED: notes/assumptions/69.md) -/
def startCores (f : Fitted) (s : State) : State :=
  let s1 := s.boot.coresRetired.foldl (fun s n => setCore n { Core.reset with state := .retired } s) s
  let s2 := (f.coresFailed.filter (fun n => decide (n < 16))).foldl (fun s n => setCore n { Core.reset with state := .retired, lastCause := 4 } s) s1
  setCcx { s2.ccx with supState := 1 } s2

/-- A new import key and a new media key. (DEDUCED: notes/assumptions/82.md) -/
def newKeys (s : State) : State :=
  let (a, s1) := draw s
  let (b, s2) := draw s1
  { s2 with sec := { s2.sec with importKey := a }, fmg := { s2.fmg with mediaKey := b } }

/-- The crash record goes to the head of the error log, its first record with the cause, and is erased (R396). (DEDUCED: notes/assumptions/80.md) -/
def restoreCrash (s : State) : State :=
  match s.boot.crash with
  | none => s
  | some (cause, l) =>
    let head : Evt := { code := Config.fatalCode cause, sev := .fatal, cause := cause, ctx := noCtx, block := 0, time := 0,
                        page := fatalPage cause, detail := 0, dests := [], integrity := false }
    let all := head :: l
    emit (.console (.crashRestored cause))
      { s with ccx := { s.ccx with log := all, logNext := all.length, fromCrash := all.length }, boot := { s.boot with crash := none } }

/-- FTB_IDENTITY, FTB_CTRL and the comparator of the refresh timer. (DEDUCED: notes/assumptions/79.md) -/
def startTime (s : State) : State :=
  let c := s.boot.cfg
  let s1 := if c.deviceIdValid then setReg Pg.ftb 0x40 (BitVec.ofNat 64 (2 ^ 31 + c.deviceId)) s else s
  let s2 := setReg Pg.ftb 0x58 (BitVec.ofNat 64 (boolNat c.rootEligible)) s1
  settleParent (setClaim resRefresh { owner := .firmware, port := 0, user := .refreshTimer, ctx := 0, tap := false } s2)

/-! Step 6: the self-test (Table 08-7) -/

/-- Outcomes of rows that enable no memory. -/
def testStops (t : SelfTest) : Bool :=
  t.failed.testBit 0 || t.failed.testBit 1 || t.failed.testBit 11 || t.stackPath || decide (16 < t.expandersRemoved)

/-- FAILED: the rows whose instances are told one by one (stack paths and DDR5 paths, expanders, tiles, T1 and T2 channels, flash
channels) fail with an instance of them, the others as a whole. -/
def testFailed (t : SelfTest) : Nat :=
  (t.failed &&& 0xE13) ||| boolNat (t.stackPath || !t.paths.isEmpty) * 2 ^ 2 ||| boolNat (decide (0 < t.expandersRemoved)) * 2 ^ 3 |||
    boolNat (!t.tiles.isEmpty) * 2 ^ 5 ||| boolNat (t.chans.any (fun k => decide (k < 256))) * 2 ^ 6 |||
    boolNat (t.chans.any (fun k => decide (256 ≤ k))) * 2 ^ 7 ||| boolNat (!t.flash.isEmpty) * 2 ^ 8

/-- Checkers: memory, tray cache, codec, flash channels, and ICE_SELFTEST. -/
def startCheckers (f : Fitted) (s : State) : State :=
  let t := f.selfTest
  settleTray { s with
    ice := { s.ice with testDone := true, testPass := decide (testFailed t = 0), testFailed := testFailed t,
                        expandersRemoved := min 64 t.expandersRemoved },
    cdc := { s.cdc with trayOff := t.failed.testBit 9, codecOff := t.failed.testBit 10 },
    fmg := { s.fmg with barred := t.flash },
    boot := { s.boot with noMemory := testStops t } }

/-- The row maps of the sheet from the repair log, the fuse map and the self-test (R296); SRAM rows spared earlier stay so. (DEDUCED: notes/assumptions/79.md) -/
def startSheet (f : Fitted) (s : State) : State :=
  let fail (cause row col : Nat) (s : State) : State := if tileGood s row col then setTile row col { tileAt s row col with cause := cause } s else s
  let s1 := s.boot.repairs.foldl (fun s r => match r.kind with
    | .tile => fail r.frame r.unit r.bank s
    | .sramRow => if r.frame = SramKind.tile.code then setTile r.unit r.bank { tileAt s r.unit r.bank with spares := (tileAt s r.unit r.bank).spares - 1 } s else s
    | _ => s) s
  let s2 := f.fuseTiles.foldl (fun s x => fail 6 x.1 x.2 s) s1
  let s3 := f.selfTest.tiles.foldl (fun s x =>
    if tileGood s x.1 x.2 then fail 6 x.1 x.2 (logRepair .tile .t1 ⟨0, 0, x.1, x.2, 0, 6⟩ 0 s) else s) s2
  let c := columnsOf s3
  let edge := !f.selfTest.failed.testBit 4
  setSht { s3.sht with tested := true, edgeOk := edge, cols := c, state := if edge ∧ 90 ≤ c then .idle else .unavailable } s3

/-! Steps 7 and 8: training and the repair log (R187, R210) -/

/-- The DIMMs of a DDR5 channel. -/
def dimmOf (f : Fitted) (n : Nat) : Option Dimm := f.dimms.find? (fun d => decide (d.chan = n))

/-- The population that every channel must carry: DMC0's, or that of the lowest-numbered populated channel; of those whose SPD is
readable (R186). (DEDUCED: notes/assumptions/79.md) -/
def refDimm (f : Fitted) : Option Dimm :=
  ((List.range 16).filterMap (dimmOf f)).find? (·.spdOk)

/-- DMC_STATUS.REASON of a DDR5 channel before training: 1 no DIMM, 4 SPD unreadable, 2 mismatch, 0 none (R186). -/
def dimmReason (f : Fitted) (n : Nat) : Nat :=
  match dimmOf f n, refDimm f with
  | none, _ => 1
  | some d, r =>
    if !d.spdOk then 4
    else match r with
      | some x => if d.kind = x.kind ∧ d.ranks = x.ranks ∧ d.frames = x.frames then 0 else 2
      | none => 4

/-- The self-test bars a channel (Table 08-7). -/
def chanBarred (t : SelfTest) (k : Nat) : Bool := t.chans.contains k || (decide (256 ≤ k) && t.paths.contains (k - 256))

/-- A channel at start: online when it is populated, trains and passed its checkers; REASON 3 stands for one that did not train and
for one that the self-test bars. (DESIGN CHOICE: notes/assumptions/92.md) -/
def startChan (f : Fitted) (k : Nat) : Chan :=
  let early := if k < 256 then 0 else dimmReason f (k - 256)
  match (if early ≠ 0 ∨ chanBarred f.selfTest k then none else f.trained.find? (fun x => decide (x.chan = k))) with
  | some x => { Chan.reset with online := true, trfcNs := x.trfcNs, srBoundNs := x.srBoundNs,
                                debt := List.replicate (if k < 256 then 1 else ((refDimm f).map (·.ranks)).getD 1) 0 }
  | none => { Chan.reset with reason := if k < 256 then 0 else if early ≠ 0 then early else 3 }

/-- Serial numbers: of the stacks, and of the DIMM of each rank. -/
def startSerials (f : Fitted) : Tbl Nat :=
  let l := f.serials.filter (fun x => decide (x.1 < 8)) ++
    f.dimms.flatMap (fun d => if d.spdOk then d.serials.zipIdx.map (fun x => (8 + 4 * d.chan + x.2, x.1)) else [])
  l.foldl (fun t x => tput 0 t x.1 x.2) []

/-- Channels, controllers and the memory they serve after training. -/
def startChans (f : Fitted) (s : State) : State :=
  let frames := ((refDimm f).map (·.frames)).getD 0
  { s with dram := { Dram.reset with
      chans := ((List.range 272).map (fun k => (k, startChan f k))).filter (fun x => decide (x.2 ≠ Chan.reset)),
      population := (refDimm f).map (·.kind), ranks := ((refDimm f).map (·.ranks)).getD 1, frames1 := 30720,
      frames2 := 16 * frames, capFrames2 := frames, serials := startSerials f } }

/-- Apply one logged repair: a row by hard post-package repair or by remapping, a frame by retirement. (DEDUCED: notes/assumptions/80.md) -/
def applyRepair (hppr : Bool) (r : Repair) (s : State) : State :=
  let row := rowKey ⟨0, 0, r.unit, r.bank, r.row, 0⟩
  match r.kind with
  | .softRow | .remapRow =>
    if (hppr && flag s Pg.tfl 0x400 17) || (remapOf s r.tier).contains row || decide (8192 ≤ (remapOf s r.tier).length) then s
    else putRemap r.tier row s
  | .frame =>
    if (retiredIn s r.tier).contains r.frame then s
    else if r.tier = .t1 then { s with dram := { s.dram with retired1 := s.dram.retired1 ++ [r.frame] } }
    else { s with dram := { s.dram with retired2 := s.dram.retired2 ++ [r.frame] } }
  | .sramRow =>
    if r.frame = SramKind.tile.code then s
    else { s with sram := { s.sram with spares := tput 0 s.sram.spares r.frame (tget 0 s.sram.spares r.frame + 1) } }
  | .tile => s

/-- The repair log: entries whose serial number no longer matches are dropped, the others act. (DEDUCED: notes/assumptions/80.md) -/
def applyRepairs (f : Fitted) (s : State) : State :=
  let keep (r : Repair) : Bool := match r.kind with
    | .sramRow | .tile => true
    | _ => decide (r.serial = unitSerial s r.tier r.unit)
  let l := s.boot.repairs.filter keep
  l.foldl (fun s r => applyRepair f.hppr r s) { s with boot := { s.boot with repairs := l } }

/-! Steps 9 to 12 -/

/-- Memory may be enabled: a T1 stack is online, the self-test allows it, and the lifecycle state does (R405, R417). (DEDUCED: notes/assumptions/79.md) -/
def mayEnable (s : State) : Bool :=
  decide (0 < onlineCount s 0 256) && !s.boot.noMemory && decide (s.otp.life ≠ .blank) && decide (s.otp.life ≠ .scrapped)

/-- The console reports a boot step of Table 18-1 (R441); a SCRAPPED device runs no firmware. (DESIGN CHOICE: notes/assumptions/91.md) -/
def noteStep (n : Nat) (s : State) : State := if s.otp.life = .scrapped then s else emit (.console (.bootStep n)) s

/-- UART_RX: a byte is accepted in BLANK, MANUFACTURED and RETURNED, and ignored otherwise (R441). What firmware does with it is not
given, and no row delivers one. (DESIGN CHOICE: notes/assumptions/91.md) -/
def uartReceive (b : Byte) (s : State) : State :=
  match s.otp.life with
  | .blank | .manufactured | .returned => { s with ccx := { s.ccx with uart := s.ccx.uart ++ [b] } }
  | _ => s

/-- Enable memory, and start the mount of the flash. -/
def openMemory (s : State) : State :=
  let t := { s with dev := { s.dev with memEnabled := mayEnable s } }
  if s.otp.life = .scrapped then t else startMount (if mayEnable s then noteStep 11 t else t)

/-- Training of a port starts, with the aperture sizes of IOX_BAR_STRAP (R357). -/
def trainLink (port : Nat) (s : State) : State :=
  let apt (pf vf : Nat) : State := modHport port (fun h => { h with link := .training, aptPf := pf, aptVf := vf }) s
  if port = 0 then apt (fld s Pg.iox 0x60 5 0) (fld s Pg.iox 0x60 17 12) else apt (fld s Pg.iox 0x60 11 6) (fld s Pg.iox 0x60 23 18)

/-- The link of a port at the start of the device: held in reset while PERST_N is low. -/
def startLink (port : Nat) (s : State) : State :=
  if (hport s port).perst then modHport port (fun h => { h with link := .inReset }) s else trainLink port s

/-- Steps 6 to 12, with a lifecycle wipe before memory is enabled when WIPE_DUE is set. -/
def startMemory (f : Fitted) (s : State) : State :=
  let t := noteStep 9 (settleScales (recountSlabs (noteStep 8 (applyRepairs f (noteStep 7 (startChans f
    (noteStep 6 (startSheet f (startCheckers f s)))))))))
  if t.otp.wipeDue ∧ t.otp.life ≠ .scrapped then { t with lcc := { t.lcc with wiping := true } } else openMemory t

/-- Table 18-1 from step 2. A device whose SSS fails its self-test, or that finds no firmware, stands still; a SCRAPPED one runs
none. (DEDUCED: notes/assumptions/79.md) -/
def start (cause coldCount : Nat) (f : Fitted) (s : State) : State :=
  let s0 := survivors cause coldCount f s
  if !f.sssOk then s0
  else
    let s1 := emit (.pins true true) (loadCfg f (applyPending s0))
    match (if s1.otp.life = .scrapped then some s1 else selectSlot f s1) with
    | none => s1
    | some s2 =>
      let s3 := startTime (restoreCrash (newKeys (startCores f s2)))
      let s4 := startLink 1 (startLink 0 (noteStep 5 { s3 with boot := { s3.boot with halted := false } }))
      if coresLeft s4 < fld s4 Pg.ccx 0x400 31 28 then takeover 5 s4 else startMemory f s4

/-- POWER_ON_RESET: PWR_OK rises. (DESIGN CHOICE: notes/assumptions/7.md, DESIGN CHOICE: notes/assumptions/12.md, DEDUCED: notes/assumptions/79.md) -/
def execPowerOnReset (f : Fitted) (s : State) : Host.Outcome State Fault Refusal :=
  .next (if s.dev.powered then s else start 0 0 f s)

/-- PWR_OK is low: nothing is written any more, and the outputs are in their reset state (R427). -/
def powerLost (s : State) : State :=
  let off (h : HPort) : HPort := { h with link := .detect, memActive := false }
  let t := if s.ccx.busy then setOtherSlot FwSlot.reset s else s
  emit (.pins true true) { t with
    dev := { t.dev with powered := false, memEnabled := false }, boot := { t.boot with halted := true },
    hiu := { t.hiu with p0 := off t.hiu.p0, p1 := off t.hiu.p1 } }

/-- PWR_OK_FALL. (DEDUCED: notes/assumptions/79.md) -/
def execPwrOkFall (s : State) : Host.Outcome State Fault Refusal := .next (if s.dev.powered then powerLost s else s)

/-- BROWN_OUT: VDD_CORE (`sram` false) or VDD_SRAM below the threshold of its detector (R460). (DEDUCED: notes/assumptions/81.md) -/
def execBrownOut (_sram : Bool) (s : State) : Host.Outcome State Fault Refusal :=
  .next (if s.dev.powered then powerLost s else s)

/-- A cold reset with its cause code; what staging was writing is lost. -/
def coldStart (cause : Nat) (f : Fitted) (s : State) : State :=
  start cause (min 65535 (s.boot.coldCount + 1)) f (if s.ccx.busy then setOtherSlot FwSlot.reset s else s)

/-- The CAUSE that a cold reset through the test access port leaves; the spec lists none. -/
def tapCause : Nat := Config.tapCause % 16

/-- COLD_RESET (R424). (DEDUCED: notes/assumptions/79.md) -/
def execColdReset (cause : ColdCause) (f : Fitted) (s : State) : Host.Outcome State Fault Refusal :=
  .next (
    if !s.dev.powered then s
    else match cause with
    | .sssRequest => if s.sss.resetAsked then coldStart 1 f s else s
    | .trialTakeover => if s.sss.trialReset then coldStart 2 f s else s
    | .tap => if s.tmx.resetDue then coldStart tapCause f s else s
    | .ioxWrite w code => ownedWrite w Pg.iox (fun s => if code % 65536 = 0xC01D then coldStart 3 f s else ignoreWrite Pg.iox s) s
    | .bothPerst => if s.hiu.p0.perst && s.hiu.p1.perst && flag s Pg.iox 0x68 1 then coldStart 4 f s else s)

/-! Port resets (R425) -/

/-- What a port reset tears down: the functions as an FLR of the PF does, and MEM_ACTIVE. (DEDUCED: notes/assumptions/81.md) -/
def tearPort (port : Nat) (s : State) : State :=
  modHport port (fun h => { h with memActive := false, ide := [], hdm := [] }) (resetPf port .retry s)

/-- The link after the start of a port reset. -/
def resetLink (port : Nat) (kind : PortResetKind) (s : State) : State :=
  match kind with
  | .perst => modHport port (fun h => { h with link := .inReset, perst := true }) s
  | _ => trainLink port s

/-- The port can meet a reset of a kind: PERST_N is high, or the link is up. -/
def resetMeets (s : State) (port : Nat) (kind : PortResetKind) : Bool :=
  decide (port < 2) && (match kind with | .perst => !(hport s port).perst | _ => portUp s port)

/-- PORT_RESET: in SAFE state only the link is reset (Table 18-3). (DEDUCED: notes/assumptions/81.md) -/
def execPortReset (port : Nat) (kind : PortResetKind) (s : State) : Host.Outcome State Fault Refusal :=
  .next (if !resetMeets s port kind then s else resetLink port kind (if awake s then tearPort port s else s))

/-- PERST_DEASSERT. -/
def execPerstDeassert (port : Nat) (s : State) : Host.Outcome State Fault Refusal :=
  .next (
    if 2 ≤ port ∨ !(hport s port).perst then s
    else
      let t := modHport port (fun h => { h with perst := false }) s
      if s.boot.halted then t else trainLink port t)

/-! Readiness and MEM_ACTIVE (R419 – R421) -/

/-- A link that trains comes up, at its full width and speed. (DESIGN CHOICE: notes/assumptions/67.md) -/
def raiseLink (port : Nat) (s : State) : State :=
  if (hport s port).link = .training then modHport port (fun h => { h with link := .l0, width := 16, speed := 6, flit := true, cxl := true }) s
  else s

/-- FUNCTION_READY: a PF (the link of its port comes up first) or a VF after VF Enable, or either after its FLR. (DESIGN CHOICE: notes/assumptions/67.md) -/
def execFunctionReady (fn : Nat) (s : State) : Host.Outcome State Fault Refusal :=
  .next (
    if s.boot.halted ∨ 4096 ≤ fn then s
    else
      let t := if isPf fn then raiseLink (fnPort fn) s else s
      if !awake t || !portUp t (fnPort fn) || !fnExists t fn || decide ((func t fn).phase = .ready) then t
      else emit (.ready fn) (modFunc fn (fun u => { u with phase := .ready }) t))

/-- A boot partition that gets no frames is skipped, with an event to the PF of its port (R373). -/
def skipPart (b : BootPart) (s : State) : State := raise Pg.ple .noCapacity .contained 0 noCtx 0 0 [pfOf b.port] false s

/-- Frames of a tier that no context has reserved. -/
def freeFrames (s : State) (t : Tier) : Nat := available s t - reservedFrames s t

/-- Create boot partition `i`: a context on the PF, its frames (T2 before T1), and the partition. (DEDUCED: notes/assumptions/81.md) -/
def bootPart (i : Nat) (b : BootPart) (s : State) : State :=
  if b.tmask = 0 ∨ 4 ≤ b.tmask ∨ b.count = 0 ∨ b.count % 16 ≠ 0 then skipPart b s
  else match createCtx (pfOf b.port) 0xFFFF s with
  | (none, t) => skipPart b t
  | (some c, t) =>
    let f2 := if b.tmask.testBit 1 then (if b.tmask.testBit 0 then min b.count (freeFrames t .t2) else b.count) else 0
    match reserveBody c b.count b.tmask (byTier (b.count - f2) f2 0) (byTier 0 0 0) t with
    | (.ok, first, t1) => setPart i { valid := true, port := b.port, ctx := c, first := first, count := b.count } t1
    | (_, _, t1) => skipPart b (setCtx c Ctx.reset t1)

/-- Boot partitions of a port. (DEDUCED: notes/assumptions/81.md) -/
def createParts (port : Nat) (s : State) : State :=
  s.boot.cfg.parts.zipIdx.foldl (fun s x => if x.1.port = port then bootPart x.2 x.1 s else s) s

/-- A trial succeeds when firmware sets MEM_ACTIVE (R398). (DEDUCED: notes/assumptions/81.md) -/
def endTrial (s : State) : State := if s.ccx.trial then activate (setCcx { s.ccx with trial := false } s) else s

/-- MEM_ACTIVE_SET: boot partitions, then MEM_ACTIVE of the port. (DEDUCED: notes/assumptions/81.md) -/
def execMemActiveSet (port : Nat) (s : State) : Host.Outcome State Fault Refusal :=
  .next (whenAwake s (fun s =>
    if 2 ≤ port || !s.dev.memEnabled || !portUp s port || decide ((func s (pfOf port)).phase ≠ .ready) || (hport s port).memActive then s
    else endTrial (modHport port (fun h => { h with memActive := true }) (createParts port s))))

/-! Zeroing (R33, R37) -/

/-- The slab on its way to FREE whose frame this is. -/
def releasingAt (s : State) (t : Tier) (frame : Nat) : Option Nat :=
  (s.ple.map.find? (fun p => p.2.releasing && decide (p.2.tier = some t) && decide (p.2.frame = frame))).map (·.1)

/-- FRAME_ZEROED: the frame can go to another slab; a slab that was releasing it becomes FREE. (DESIGN CHOICE: notes/assumptions/5.md) -/
def execFrameZeroed (tier : Tier) (frame : Nat) (s : State) : Host.Outcome State Fault Refusal :=
  .next (whenAwake s (fun s =>
    if s.mge.zeroing.contains (tier, frame) then
      settleMasks (retryHeld (clearFrame tier frame { s with mge := { s.mge with zeroing := s.mge.zeroing.erase (tier, frame) } }))
    else match releasingAt s tier frame with
      | some slab => settleMasks (retryHeld (slabFree slab (clearFrame tier frame s)))
      | none => s))

/-! The lifecycle wipe (R404, R408) -/

/-- Every erase block of a channel is erased once more; one that the system area does not list keeps its count. (DEDUCED: notes/assumptions/82.md) -/
def eraseChannel (f : Flc) : Flc :=
  { f with blocks := tmap EraseBlock.reset (fun _ b =>
      if b.state = .bad then b else { b with erased := true, erases := b.erases + 1 }) f.blocks }

/-- LIFECYCLE_WIPE_DONE: frames with a crumb that did not read back as zero are retired, WIPE_DUE is cleared, and memory is enabled. (DEDUCED: notes/assumptions/82.md) -/
def execLifecycleWipeDone (bad1 bad2 : List Nat) (s : State) : Host.Outcome State Fault Refusal :=
  .next (whenAwake s (fun s =>
    if !s.lcc.wiping then s
    else
      let (k, s1) := draw s
      let s2 := { s1 with
        lcc := { s1.lcc with wiping := false, wipe1 := 1000, wipe2 := 1000, wipe3 := 1000 },
        otp := { s1.otp with wipeDue := false },
        fmg := { s1.fmg with mediaKey := k, flcs := tmap Flc.reset (fun _ f => eraseChannel f) s1.fmg.flcs } }
      let retire (t : Tier) (l : List Nat) (s : State) : State :=
        l.foldl (fun s n => noteSparing (64 * homeKey t n 0) 4 (logRow .frame (64 * homeKey t n 0) n (count Pg.tfl 0xE30 (retireFrame t n s)))) s
      openMemory (noteStep 10 <| count Pg.lcc 0xE10 (retire .t2 bad2 (retire .t1 bad1 s2)))))

end Sys2Proof.Machine
end

