-- ==== Sys2Proof/Machine/Dispatch.lean ====
section
/-! DEFINITION. Sys2Proof/Machine/Dispatch.lean: the meaning of each command, one arm each. -/

namespace Sys2Proof.Machine

/-- The effect of a command on everything but the queue. (PRESUMED: notes/assumptions/13.md) -/
def exec (i : Instr) (s : State) : Host.Outcome State Fault Refusal :=
  match i with
  | .registerWrite w page off wide value => Sys2Proof.Machine.execRegisterWrite w page off wide value s
  | .expertUnlock w page key => Sys2Proof.Machine.execExpertUnlock w page key s
  | .relock w page => Sys2Proof.Machine.execRelock w page s
  | .unitReset w page => Sys2Proof.Machine.execUnitReset w page s
  | .unitResetDone page => Sys2Proof.Machine.execUnitResetDone page s
  | .unitEnable w page on => Sys2Proof.Machine.execUnitEnable w page on s
  | .presetWrite w page value => Sys2Proof.Machine.execPresetWrite w page value s
  | .expertWrite w page off wide value => Sys2Proof.Machine.execExpertWrite w page off wide value s
  | .claimWrite w page value => Sys2Proof.Machine.execClaimWrite w page value s
  | .snap w page => Sys2Proof.Machine.execSnap w page s
  | .evtPendClear w page value => Sys2Proof.Machine.execEvtPendClear w page value s
  | .profileWrite w value => Sys2Proof.Machine.execProfileWrite w value s
  | .profileApplied => Sys2Proof.Machine.execProfileApplied s
  | .reserve r ctx slabs tmask f1 f2 f3 b1 b2 b3 => Sys2Proof.Machine.execReserve r ctx slabs tmask f1 f2 f3 b1 b2 b3 s
  | .release r ctx dest count f1 f2 f3 b1 b2 b3 => Sys2Proof.Machine.execRelease r ctx dest count f1 f2 f3 b1 b2 b3 s
  | .ctxCreate w fn key => Sys2Proof.Machine.execCtxCreate w fn key s
  | .ctxDestroy w ctx => Sys2Proof.Machine.execCtxDestroy w ctx s
  | .shareCreate r ctx => Sys2Proof.Machine.execShareCreate r ctx s
  | .shareAddSlabs r ctx group dest count => Sys2Proof.Machine.execShareAddSlabs r ctx group dest count s
  | .shareAddMember r ctx group member right => Sys2Proof.Machine.execShareAddMember r ctx group member right s
  | .shareRemoveMember r ctx group member => Sys2Proof.Machine.execShareRemoveMember r ctx group member s
  | .shareDestroy r ctx group => Sys2Proof.Machine.execShareDestroy r ctx group s
  | .shareLeave r ctx group => Sys2Proof.Machine.execShareLeave r ctx group s
  | .mapWindow r ctx rights aptBase firstSlab length => Sys2Proof.Machine.execMapWindow r ctx rights aptBase firstSlab length s
  | .unmapWindow r ctx window => Sys2Proof.Machine.execUnmapWindow r ctx window s
  | .windowDrainEnd window => Sys2Proof.Machine.execWindowDrainEnd window s
  | .ldBaseWrite w n value => Sys2Proof.Machine.execLdBaseWrite w n value s
  | .sealSlabs r ctx dest count => Sys2Proof.Machine.execSeal r ctx dest count s
  | .cxlMemRead port dpa => Sys2Proof.Machine.execCxlMemRead port dpa s
  | .cxlMemWrite port dpa data => Sys2Proof.Machine.execCxlMemWrite port dpa data s
  | .barRead fn off len secure => Sys2Proof.Machine.execBarRead fn off len secure s
  | .barWrite fn off data secure => Sys2Proof.Machine.execBarWrite fn off data secure s
  | .trayFlush w => Sys2Proof.Machine.execTrayFlush w s
  | .trayFlushDone => Sys2Proof.Machine.execTrayFlushDone s
  | .compressIn r ctx dest src len fmt mode table scope data => Sys2Proof.Machine.execCompressIn r ctx dest src len fmt mode table scope data s
  | .recode r ctx dest len fmt mode table scope => Sys2Proof.Machine.execRecode r ctx dest len fmt mode table scope s
  | .passStart => Sys2Proof.Machine.execPassStart s
  | .passHistogramDone => Sys2Proof.Machine.execPassHistogramDone s
  | .tableBuildDone => Sys2Proof.Machine.execTableBuildDone s
  | .passComplete => Sys2Proof.Machine.execPassComplete s
  | .retire w id => Sys2Proof.Machine.execRetire w id s
  | .tableRetireAck fport id epoch => Sys2Proof.Machine.execTableRetireAck fport id epoch s
  | .peerAckTimeout fport => Sys2Proof.Machine.execPeerAckTimeout fport s
  | .bgRecodeWalk => Sys2Proof.Machine.execBgRecodeWalk s
  | .decayTick => Sys2Proof.Machine.execDecayTick s
  | .touchMapSwap => Sys2Proof.Machine.execTouchMapSwap s
  | .policyPeriod => Sys2Proof.Machine.execPolicyPeriod s
  | .hint r ctx dest count action target => Sys2Proof.Machine.execHint r ctx dest count action target s
  | .hintTmask r ctx dest count tmask => Sys2Proof.Machine.execHintTmask r ctx dest count tmask s
  | .moveStart slab => Sys2Proof.Machine.execMoveStart slab s
  | .copyPassDone slab => Sys2Proof.Machine.execCopyPassDone slab s
  | .moveFlip slab => Sys2Proof.Machine.execMoveFlip slab s
  | .holdTimeout slab => Sys2Proof.Machine.execHoldTimeout slab s
  | .oldFrameRelease slab => Sys2Proof.Machine.execOldFrameRelease slab s
  | .poolDwellExpiry slab => Sys2Proof.Machine.execPoolDwellExpiry slab s
  | .mgeGuaranteeWrite w value => Sys2Proof.Machine.execMgeGuaranteeWrite w value s
  | .flashMountDone report => Sys2Proof.Machine.execFlashMountDone report s
  | .flashProgramDone slab => Sys2Proof.Machine.execFlashProgramDone slab s
  | .programFailure slab channel sb => Sys2Proof.Machine.execProgramFailure slab channel sb s
  | .eraseFailure group channel block => Sys2Proof.Machine.execEraseFailure group channel block s
  | .gcRelocate group => Sys2Proof.Machine.execGcRelocate group s
  | .dieRetire loss => Sys2Proof.Machine.execDieRetire loss s
  | .retryStepDone slab block ok => Sys2Proof.Machine.execRetryStepDone slab block ok s
  | .rebuildDone slab block ok => Sys2Proof.Machine.execRebuildDone slab block ok s
  | .cxlFlashDeadline port dpa => Sys2Proof.Machine.execCxlFlashDeadline port dpa s
  | .controllerIssue chan arrivals => Sys2Proof.Machine.execControllerIssue chan arrivals s
  | .agePromote chan id => Sys2Proof.Machine.execAgePromote chan id s
  | .panicRaise ctrl fill => Sys2Proof.Machine.execPanicRaise ctrl fill s
  | .panicClear ctrl fill => Sys2Proof.Machine.execPanicClear ctrl fill s
  | .refreshInterval chan rank => Sys2Proof.Machine.execRefreshInterval chan rank s
  | .refreshIssue chan rank => Sys2Proof.Machine.execRefreshIssue chan rank s
  | .rangeReading ctrl readings => Sys2Proof.Machine.execRangeReading ctrl readings s
  | .srEntry chan => Sys2Proof.Machine.execSrEntry chan s
  | .srExit chan => Sys2Proof.Machine.execSrExit chan s
  | .hashMaskWrite w page off value => Sys2Proof.Machine.execHashMaskWrite w page off value s
  | .channelLost chan => Sys2Proof.Machine.execChannelLost chan s
  | .icingBlock read => Sys2Proof.Machine.execIcingBlock read s
  | .iceDeferExpiry chan id => Sys2Proof.Machine.execIceDeferExpiry chan id s
  | .toffeeRewrite word again sppr remap => Sys2Proof.Machine.execToffeeRewrite word again sppr remap s
  | .toffeeExpire word => Sys2Proof.Machine.execToffeeExpire word s
  | .iceInject w value => Sys2Proof.Machine.execIceInject w value s
  | .refsRecountDone => Sys2Proof.Machine.execRefsRecountDone s
  | .cvuJobStart w n value => Sys2Proof.Machine.execCvuJobStart w n value s
  | .cvuDataWrite w n data => Sys2Proof.Machine.execCvuDataWrite w n data s
  | .cvuJobFinish w n value => Sys2Proof.Machine.execCvuJobFinish w n value s
  | .cvuJobDone n => Sys2Proof.Machine.execCvuJobDone n s
  | .check r ctx preset mode flags width addr result length poly init => Sys2Proof.Machine.execCheck r ctx preset mode flags width addr result length poly init s
  | .bwrWindow traffic => Sys2Proof.Machine.execBwrWindow traffic s
  | .paceSample r => Sys2Proof.Machine.execPaceSample r s
  | .paceShortfall => Sys2Proof.Machine.execPaceShortfall s
  | .voltageStep => Sys2Proof.Machine.execVoltageStep s
  | .powerSample r => Sys2Proof.Machine.execPowerSample r s
  | .thermalCheck tj sensor stackMax => Sys2Proof.Machine.execThermalCheck tj sensor stackMax s
  | .ceilingStep => Sys2Proof.Machine.execCeilingStep s
  | .thermalTrip => Sys2Proof.Machine.execThermalTrip s
  | .comparatorFire n => Sys2Proof.Machine.execComparatorFire n s
  | .gemm => Sys2Proof.Machine.execGemm s
  | .bdot => Sys2Proof.Machine.execBdot s
  | .swsum => Sys2Proof.Machine.execSwsum s
  | .topk => Sys2Proof.Machine.execTopk s
  | .reduce => Sys2Proof.Machine.execReduce s
  | .update => Sys2Proof.Machine.execUpdate s
  | .encode => Sys2Proof.Machine.execEncode s
  | .stepComplete => Sys2Proof.Machine.execStepComplete s
  | .stepDeadline held => Sys2Proof.Machine.execStepDeadline held s
  | .handshakeTimeout row col => Sys2Proof.Machine.execHandshakeTimeout row col s
  | .stepFault cause row col => Sys2Proof.Machine.execStepFault cause row col s
  | .rowRemap => Sys2Proof.Machine.execRowRemap s
  | .tileStoreZeroDone => Sys2Proof.Machine.execTileStoreZeroDone s
  | .tileTest w value => Sys2Proof.Machine.execTileTest w value s
  | .loadRecipe r ctx notify imageAddr imageBytes bindAddr tag data => Sys2Proof.Machine.execLoadRecipe r ctx notify imageAddr imageBytes bindAddr tag data s
  | .run r ctx handle fromStep startNs => Sys2Proof.Machine.execRun r ctx handle fromStep startNs s
  | .abortStop r ctx handle mode => Sys2Proof.Machine.execAbortStop r ctx handle mode s
  | .abortUnload r ctx handle => Sys2Proof.Machine.execAbortUnload r ctx handle s
  | .arm fport src group leadId fromStep => Sys2Proof.Machine.execArm fport src group leadId fromStep s
  | .ready fport src group => Sys2Proof.Machine.execReady fport src group s
  | .refuse fport src group status => Sys2Proof.Machine.execRefuse fport src group status s
  | .groupCancel fport src group => Sys2Proof.Machine.execGroupCancel fport src group s
  | .go fport src group t0 => Sys2Proof.Machine.execGo fport src group t0 s
  | .readyTimeout => Sys2Proof.Machine.execReadyTimeout s
  | .barrier fport src group step delta => Sys2Proof.Machine.execBarrier fport src group step delta s
  | .abortToken fport src group step outcome => Sys2Proof.Machine.execAbortToken fport src group step outcome s
  | .peerTimeout dev => Sys2Proof.Machine.execPeerTimeout dev s
  | .rcpData fport src group step delta data => Sys2Proof.Machine.execRcpData fport src group step delta data s
  | .linkTrain fport lanes => Sys2Proof.Machine.execLinkTrain fport lanes s
  | .hello fport nonce => Sys2Proof.Machine.execHello fport nonce s
  | .spdm fport msg => Sys2Proof.Machine.execSpdm fport msg s
  | .ident fport dev accelerator decode rootEligible slots => Sys2Proof.Machine.execIdent fport dev accelerator decode rootEligible slots s
  | .timeSync fport t1 t2 t3 t4 rootId hops => Sys2Proof.Machine.execTimeSync fport t1 t2 t3 t4 rootId hops s
  | .timeSyncSend fport => Sys2Proof.Machine.execTimeSyncSend fport s
  | .holdoverExpiry => Sys2Proof.Machine.execHoldoverExpiry s
  | .authBackoffExpiry fport => Sys2Proof.Machine.execAuthBackoffExpiry fport s
  | .trainingRetry fport => Sys2Proof.Machine.execTrainingRetry fport s
  | .keyUpdate fport receive => Sys2Proof.Machine.execKeyUpdate fport receive s
  | .heartbeatTimeout fport => Sys2Proof.Machine.execHeartbeatTimeout fport s
  | .laneFault fport lane => Sys2Proof.Machine.execLaneFault fport lane s
  | .retrain w fport => Sys2Proof.Machine.execRetrain w fport s
  | .codewordRx fport seq good fill => Sys2Proof.Machine.execCodewordRx fport seq good fill s
  | .link fport msg => Sys2Proof.Machine.execLink fport msg s
  | .creditStall fport cls vl => Sys2Proof.Machine.execCreditStall fport cls vl s
  | .packetRelay fport p data => Sys2Proof.Machine.execPacketRelay fport p data s
  | .read fport p => Sys2Proof.Machine.execRead fport p s
  | .write fport p data => Sys2Proof.Machine.execWrite fport p data s
  | .tableSlots fport slots => Sys2Proof.Machine.execTableSlots fport slots s
  | .probe fport p => Sys2Proof.Machine.execProbe fport p s
  | .probeReply fport p => Sys2Proof.Machine.execProbeReply fport p s
  | .probeSend dev => Sys2Proof.Machine.execProbeSend dev s
  | .grantCreate w index => Sys2Proof.Machine.execGrantCreate w index s
  | .grantDestroy w index => Sys2Proof.Machine.execGrantDestroy w index s
  | .ftbIdentityWrite w value => Sys2Proof.Machine.execFtbIdentityWrite w value s
  | .grantDrainEnd index => Sys2Proof.Machine.execGrantDrainEnd index s
  | .linkBringupTimeout fport step => Sys2Proof.Machine.execLinkBringupTimeout fport step s
  | .fabricSignalLoss fport => Sys2Proof.Machine.execFabricSignalLoss fport s
  | .malformedPacket fport kind => Sys2Proof.Machine.execMalformedPacket fport kind s
  | .configRequest fn req => Sys2Proof.Machine.execConfigRequest fn req s
  | .doorbell fn ring tail => Sys2Proof.Machine.execDoorbell fn ring tail s
  | .commandFetch fn ring res => Sys2Proof.Machine.execCommandFetch fn ring res s
  | .cqHeadWrite fn ring head => Sys2Proof.Machine.execCqHeadWrite fn ring head s
  | .ringEnable fn ring cfg => Sys2Proof.Machine.execRingEnable fn ring cfg s
  | .ringDisable fn ring cfg => Sys2Proof.Machine.execRingDisable fn ring cfg s
  | .evtRingEnable fn cfg => Sys2Proof.Machine.execEvtRingEnable fn cfg s
  | .query r ctx kind addr result => Sys2Proof.Machine.execQuery r ctx kind addr result s
  | .intDelayExpiry fn ring => Sys2Proof.Machine.execIntDelayExpiry fn ring s
  | .dmaCompletion port tag kind => Sys2Proof.Machine.execDmaCompletion port tag kind s
  | .completionTimeout port tag => Sys2Proof.Machine.execCompletionTimeout port tag s
  | .tagQuarantineEnd port tag => Sys2Proof.Machine.execTagQuarantineEnd port tag s
  | .bmeClear fn => Sys2Proof.Machine.execBmeClear fn s
  | .vfEnableClear port => Sys2Proof.Machine.execVfEnableClear port s
  | .flr fn => Sys2Proof.Machine.execFlr fn s
  | .ideFailure port stream => Sys2Proof.Machine.execIdeFailure port stream s
  | .tdispRequest fn req => Sys2Proof.Machine.execTdispRequest fn req s
  | .cxlMailboxCommand port cmd => Sys2Proof.Machine.execCxlMailboxCommand port cmd s
  | .spdmDoe fn req => Sys2Proof.Machine.execSpdmDoe fn req s
  | .eventRoute => Sys2Proof.Machine.execEventRoute s
  | .unitHang page recovered => Sys2Proof.Machine.execUnitHang page recovered s
  | .coreWatchdog core cause => Sys2Proof.Machine.execCoreWatchdog core cause s
  | .coreRestartDone core reissued => Sys2Proof.Machine.execCoreRestartDone core reissued s
  | .fatalTrigger cause => Sys2Proof.Machine.execFatalTrigger cause s
  | .sssResetReq w code => Sys2Proof.Machine.execSssResetReq w code s
  | .sssForce w value => Sys2Proof.Machine.execSssForce w value s
  | .fwStage w => Sys2Proof.Machine.execFwStage w s
  | .fwStageDone data => Sys2Proof.Machine.execFwStageDone data s
  | .fwSelect w => Sys2Proof.Machine.execFwSelect w s
  | .fwCommit w => Sys2Proof.Machine.execFwCommit w s
  | .fwTrialTimeout => Sys2Proof.Machine.execFwTrialTimeout s
  | .lccSubmit w => Sys2Proof.Machine.execLccSubmit w s
  | .lccTokenChecked tokens => Sys2Proof.Machine.execLccTokenChecked tokens s
  | .lccCancel w => Sys2Proof.Machine.execLccCancel w s
  | .lifecycleWipeDone bad1 bad2 => Sys2Proof.Machine.execLifecycleWipeDone bad1 bad2 s
  | .keyAlloc w => Sys2Proof.Machine.execKeyAlloc w s
  | .keyImport w slot blob => Sys2Proof.Machine.execKeyImport w slot blob s
  | .keyDestroy w slot => Sys2Proof.Machine.execKeyDestroy w slot s
  | .keyDestroyDone slot => Sys2Proof.Machine.execKeyDestroyDone slot s
  | .trustStage w image => Sys2Proof.Machine.execTrustStage w image s
  | .trustCommit w => Sys2Proof.Machine.execTrustCommit w s
  | .grantNonceRead w => Sys2Proof.Machine.execGrantNonceRead w s
  | .debugGrantSubmit w addr grant => Sys2Proof.Machine.execDebugGrantSubmit w addr grant s
  | .debugGrantRevoke w => Sys2Proof.Machine.execDebugGrantRevoke w s
  | .debugGrantExpiry => Sys2Proof.Machine.execDebugGrantExpiry s
  | .powerOnReset f => Sys2Proof.Machine.execPowerOnReset f s
  | .pwrOkFall => Sys2Proof.Machine.execPwrOkFall s
  | .brownOut sram => Sys2Proof.Machine.execBrownOut sram s
  | .coldReset cause f => Sys2Proof.Machine.execColdReset cause f s
  | .portReset port kind => Sys2Proof.Machine.execPortReset port kind s
  | .perstDeassert port => Sys2Proof.Machine.execPerstDeassert port s
  | .functionReady fn => Sys2Proof.Machine.execFunctionReady fn s
  | .memActiveSet port => Sys2Proof.Machine.execMemActiveSet port s
  | .frameZeroed tier frame => Sys2Proof.Machine.execFrameZeroed tier frame s
  | .claimTake w owner resource => Sys2Proof.Machine.execClaimTake w owner resource s
  | .claimRelease w owner resource => Sys2Proof.Machine.execClaimRelease w owner resource s
  | .muxSelWrite w value => Sys2Proof.Machine.execMuxSelWrite w value s
  | .traceStart w value => Sys2Proof.Machine.execTraceStart w value s
  | .traceStop w value => Sys2Proof.Machine.execTraceStop w value s
  | .traceDataRead w => Sys2Proof.Machine.execTraceDataRead w s
  | .jtagInstruction ins => Sys2Proof.Machine.execJtagInstruction ins s
  | .tapReset => Sys2Proof.Machine.execTapReset s

end Sys2Proof.Machine
end

