-- ==== Sys2Proof/Machine/Tick.lean ====
section
/-! DEFINITION. Sys2Proof/Machine/Tick.lean: one nanosecond passes: the time base, and what the block does with time whatever
is commanded (the counters of time, the timestamps of the host ports, the lag of icing). -/

namespace Sys2Proof.Machine

/-- A timestamp that a host has set counts nanoseconds (Table 15-14). (DESIGN CHOICE: notes/assumptions/2.md) -/
def tickStamp (h : HPort) : HPort := if h.timestamp = 0 then h else { h with timestamp := (h.timestamp + 1) % 2 ^ 64 }

/-- One nanosecond on the time counter at an offset of a page while `on` holds. (DESIGN CHOICE: notes/assumptions/2.md) -/
def countWhile (on : Bool) (p off : Nat) (s : State) : State := if on then count p off s else s

/-- CNT_PANIC_NS and CNT_SHORTFALL_NS of a controller (Table 07-9). (DESIGN CHOICE: notes/assumptions/2.md) -/
def tickCtrl (s : State) (c : Nat) : State :=
  countWhile (decide ((ctrlAt s c).range = 2)) (ctrlPage c) 0xE58
    (countWhile (ctrlAt s c).panic (ctrlPage c) 0xE28 s)

/-- Time in THERMAL, below the floor and over the envelope (counters of the PPM page). (DESIGN CHOICE: notes/assumptions/2.md) -/
def tickPower (s : State) : State :=
  countWhile s.ppm.stop Pg.ppm 0xE30 (countWhile s.ppm.warn Pg.ppm 0xE28
    (countWhile s.ppm.envExceeded Pg.ppm 0xE20 (countWhile (decide (s.ppm.paceMin < s.ppm.floorMbeat)) Pg.ppm 0xE18 s)))

/-- What counts while the device runs. (DESIGN CHOICE: notes/assumptions/2.md) -/
def tickCounters (s : State) : State :=
  let s1 := (List.range 24).foldl tickCtrl s
  let s2 := tickPower s1
  let s3 := countWhile (!s2.ftb.locked) Pg.ftb 0xE20 s2
  let s4 := countWhile (s3.rlg.scales.any (fun (p : Nat × (Nat × Nat)) => decide (min p.2.1 p.2.2 < 1000))) Pg.bwr 0xE18 s3
  countWhile (s4.ice.p1.catchup || s4.ice.p2.catchup || s4.ice.p3.catchup) Pg.ice 0xE40 s4

/-- The time base moves on, unless it has a nanosecond to make up (R334). (DESIGN CHOICE: notes/assumptions/2.md) -/
def tickTime (s : State) : State :=
  { s with now := if 256 ≤ s.ftb.owed then s.now else (s.now + 1) % 2 ^ 64, ftb := { s.ftb with owed := if 256 ≤ s.ftb.owed then s.ftb.owed - 256 else s.ftb.owed },
           hiu := { s.hiu with p0 := tickStamp s.hiu.p0, p1 := tickStamp s.hiu.p1 } }

/-- One nanosecond of the block: nothing while it stands still; in SAFE state only the time base runs. An entry of the map or
of a control table that is lost with its copy ends in the takeover of cause MAP_UE (R192). (DESIGN CHOICE: notes/assumptions/2.md, DESIGN CHOICE: notes/assumptions/89.md) -/
def tick (s : State) : State :=
  if s.boot.halted then s
  else if awake s && s.sram.lost then takeover 3 s
  else if awake s then tickCounters (settleLag .t1 (settleLag .t2 (settleLag .t3 (tickTime s))))
  else tickTime s

end Sys2Proof.Machine
end

