-- ==== Sys2Proof/Machine/Step.lean ====
section
/-! DEFINITION. Sys2Proof/Machine/Step.lean: one step of the block: the command at the front of the queue, or a nanosecond. -/

namespace Sys2Proof.Machine

/-- Take the command at the front of the queue and run it with the queue's rest; on an empty queue one nanosecond passes
(DESIGN CHOICE, notes/assumptions/2.md). (DESIGN CHOICE: notes/assumptions/2.md, DESIGN CHOICE: notes/assumptions/3.md) -/
def step (s : State) : Host.Outcome State Fault Refusal :=
  match s.pending with
  | [] => .next (tick s)
  | c :: rest => exec c { s with pending := rest }

/-- `s` with a command put at the front of its queue. (DESIGN CHOICE: notes/assumptions/3.md) -/
def State.push (c : Instr) (s : State) : State := { s with pending := c :: s.pending }

/-- `s` with the command that a word spells at the front of its queue; unchanged where the word spells none. (DESIGN CHOICE: notes/assumptions/3.md) -/
def State.withFetchWord (s : State) (nbits w : Nat) : State :=
  match decodeTableWord nbits w with
  | some c => s.push c
  | none => s

end Sys2Proof.Machine
end

