-- ==== Sys2Proof/WellFormed.lean ====
section
/-! DEFINITION. Sys2Proof/WellFormed.lean: a command is well formed when each operand fits the field that the spec gives it.
What the values of a field mean, and which of them the block refuses, is the meaning's. -/

namespace Sys2Proof

/-- `n` fits a field of `k` bits. (DESIGN CHOICE: notes/assumptions/84.md) -/
def fits (k n : Nat) : Bool := decide (n < 2 ^ k)

/-- Function number (12 bits with the port), ring pair (0–15) and command identifier (16 bits). (DESIGN CHOICE: notes/assumptions/84.md) -/
def ringOk (r : RingCmd) : Bool := fits 12 r.fn && fits 4 r.ring && fits 16 r.cid

/-- The fields of a packet header (R328). (DESIGN CHOICE: notes/assumptions/84.md) -/
def pktOk (p : Pkt) : Bool :=
  fits 8 p.type && fits 8 p.flags && fits 17 p.dst && fits 17 p.src && fits 20 p.dstCtx && fits 20 p.srcCtx && fits 16 p.tag

/-- A function, or the test access port. -/
def writerOk : Writer → Bool
  | .fn n => fits 12 n
  | .tap => true

/-- Host memory answers in bytes of which a read has at most 1 TiB. -/
def dmaOk : Dma → Bool
  | .bytes b => decide (b.length ≤ 2 ^ 40)
  | .timeout => true
  | .error => true

/-- The binding table of a recipe has one entry per stream, of 64 bits each (Table 13-3). -/
def recipeOk : RecipeData → Bool
  | .image img bind => decide (bind.length = img.streams.length) && bind.all (fits 64)
  | .timeout => true
  | .error => true

/-- A mount reports at most the 32 channels of the device. -/
def flashOk (r : FlashReport) : Bool := decide (r.chans.length ≤ 32) && r.chans.all (fun c => decide (c.length ≤ 8))

/-- The header of a submission entry (Table 15-4). -/
def fetchOk : FetchResult → Bool
  | .entry e => fits 8 e.opcode && fits 8 e.flags && fits 16 e.cid
  | .timeout => true
  | .error => true

/-- Numbers in a configuration request. -/
def cfgOk : CfgReq → Bool
  | .numVfs n => fits 16 n
  | .msixMask v _ => fits 11 v
  | .msiEnable _ l => fits 3 l
  | .hdmDecoder i _ _ _ => fits 4 i
  | _ => true

/-- Every operand of the command fits its field. (DESIGN CHOICE: notes/assumptions/84.md) -/
def Instr.wellFormed : Instr → Bool
  | .registerWrite w page off _ _ => fits 12 w && fits 10 page && fits 12 off
  | .expertUnlock w page key => fits 12 w && fits 10 page && fits 16 key
  | .relock w page => fits 12 w && fits 10 page
  | .unitReset w page => fits 12 w && fits 10 page
  | .unitResetDone page => fits 10 page
  | .unitEnable w page _ => fits 12 w && fits 10 page
  | .presetWrite w page _ => fits 12 w && fits 10 page
  | .expertWrite w page off _ _ => fits 12 w && fits 10 page && fits 12 off
  | .claimWrite w page value => fits 12 w && fits 10 page && fits 32 value
  | .snap w page => fits 12 w && fits 10 page
  | .evtPendClear w page value => fits 12 w && fits 10 page && fits 32 value
  | .profileWrite w _ => fits 12 w
  | .profileApplied => true
  | .reserve r ctx slabs tmask f1 f2 f3 b1 b2 b3 =>
    ringOk r && fits 20 ctx && fits 32 slabs && fits 8 tmask && fits 32 f1 && fits 32 f2 &&
    fits 32 f3 && fits 32 b1 && fits 32 b2 && fits 32 b3
  | .release r ctx dest count f1 f2 f3 b1 b2 b3 =>
    ringOk r && fits 20 ctx && fits 64 dest && fits 32 count && fits 32 f1 && fits 32 f2 &&
    fits 32 f3 && fits 32 b1 && fits 32 b2 && fits 32 b3
  | .ctxCreate w fn key => fits 12 w && fits 12 fn && fits 16 key
  | .ctxDestroy w ctx => fits 12 w && fits 20 ctx
  | .shareCreate r ctx => ringOk r && fits 20 ctx
  | .shareAddSlabs r ctx group dest count => ringOk r && fits 20 ctx && fits 16 group && fits 64 dest && fits 32 count
  | .shareAddMember r ctx group member right =>
    ringOk r && fits 20 ctx && fits 16 group &&
    fits 20 member && fits 8 right
  | .shareRemoveMember r ctx group member => ringOk r && fits 20 ctx && fits 16 group && fits 20 member
  | .shareDestroy r ctx group => ringOk r && fits 20 ctx && fits 16 group
  | .shareLeave r ctx group => ringOk r && fits 20 ctx && fits 16 group
  | .mapWindow r ctx rights aptBase firstSlab length =>
    ringOk r && fits 20 ctx && fits 8 rights && fits 22 aptBase &&
    fits 24 firstSlab && fits 32 length
  | .unmapWindow r ctx window => ringOk r && fits 20 ctx && fits 32 window
  | .windowDrainEnd window => fits 18 window
  | .ldBaseWrite w n _ => fits 12 w && fits 4 n
  | .sealSlabs r ctx dest count => ringOk r && fits 20 ctx && fits 64 dest && fits 32 count
  | .cxlMemRead port dpa => fits 1 port && fits 48 dpa
  | .cxlMemWrite port dpa data => fits 1 port && fits 48 dpa && decide (data.length = 64)
  | .barRead fn off len _ => fits 12 fn && fits 46 off && fits 13 len
  | .barWrite fn off _ _ => fits 12 fn && fits 46 off
  | .trayFlush w => fits 12 w
  | .trayFlushDone => true
  | .compressIn r ctx dest src len fmt mode table scope data =>
    ringOk r && fits 20 ctx && fits 64 dest && fits 64 src && fits 32 len && fits 4 fmt &&
    fits 8 mode && fits 12 table && fits 32 scope && dmaOk data
  | .recode r ctx dest len fmt mode table scope =>
    ringOk r && fits 20 ctx && fits 64 dest && fits 32 len && fits 4 fmt &&
    fits 8 mode && fits 12 table && fits 32 scope
  | .passStart => true
  | .passHistogramDone => true
  | .tableBuildDone => true
  | .passComplete => true
  | .retire w id => fits 12 w && fits 12 id
  | .tableRetireAck fport id epoch => fits 3 fport && fits 12 id && fits 32 epoch
  | .peerAckTimeout fport => fits 3 fport
  | .bgRecodeWalk => true
  | .decayTick => true
  | .touchMapSwap => true
  | .policyPeriod => true
  | .hint r ctx dest count action target =>
    ringOk r && fits 20 ctx && fits 64 dest && fits 32 count &&
    fits 8 action && fits 8 target
  | .hintTmask r ctx dest count tmask => ringOk r && fits 20 ctx && fits 64 dest && fits 32 count && fits 8 tmask
  | .moveStart slab => fits 24 slab
  | .copyPassDone slab => fits 24 slab
  | .moveFlip slab => fits 24 slab
  | .holdTimeout slab => fits 24 slab
  | .oldFrameRelease slab => fits 24 slab
  | .poolDwellExpiry slab => fits 24 slab
  | .mgeGuaranteeWrite w _ => fits 12 w
  | .flashMountDone report => flashOk report
  | .flashProgramDone slab => fits 24 slab
  | .programFailure slab channel _ => fits 24 slab && fits 5 channel
  | .eraseFailure group channel _ => fits 1 group && fits 4 channel
  | .gcRelocate group => fits 1 group
  | .dieRetire loss => fits 5 loss.channel
  | .retryStepDone slab block _ => fits 24 slab && fits 12 block
  | .rebuildDone slab block _ => fits 24 slab && fits 12 block
  | .cxlFlashDeadline port dpa => fits 1 port && fits 48 dpa
  | .controllerIssue chan _ => fits 10 chan
  | .agePromote chan _ => fits 10 chan
  | .panicRaise ctrl fill => fits 5 ctrl && fits 7 fill
  | .panicClear ctrl fill => fits 5 ctrl && fits 7 fill
  | .refreshInterval chan rank => fits 10 chan && fits 2 rank
  | .refreshIssue chan rank => fits 10 chan && fits 2 rank
  | .rangeReading ctrl readings => fits 5 ctrl && readings.all (fun r => fits 8 r)
  | .srEntry chan => fits 10 chan
  | .srExit chan => fits 10 chan
  | .hashMaskWrite w page off _ => fits 12 w && fits 10 page && fits 12 off
  | .channelLost chan => fits 10 chan
  | .icingBlock _ => true
  | .iceDeferExpiry chan _ => fits 10 chan
  | .toffeeRewrite _ _ _ _ => true
  | .toffeeExpire _ => true
  | .iceInject w _ => fits 12 w
  | .refsRecountDone => true
  | .cvuJobStart w n _ => fits 12 w && fits 2 n
  | .cvuDataWrite w n _ => fits 12 w && fits 2 n
  | .cvuJobFinish w n _ => fits 12 w && fits 2 n
  | .cvuJobDone n => fits 2 n
  | .check r ctx preset mode flags width addr result length _ _ =>
    ringOk r && fits 20 ctx && fits 8 preset && fits 8 mode && fits 8 flags &&
    fits 8 width && fits 64 addr && fits 64 result && fits 64 length
  | .bwrWindow traffic => fits 5 traffic.ctrl
  | .paceSample _ => true
  | .paceShortfall => true
  | .voltageStep => true
  | .powerSample _ => true
  | .thermalCheck tj sensor stackMax => fits 8 tj && fits 8 sensor && fits 8 stackMax
  | .ceilingStep => true
  | .thermalTrip => true
  | .comparatorFire n => fits 4 n
  | .gemm => true
  | .bdot => true
  | .swsum => true
  | .topk => true
  | .reduce => true
  | .update => true
  | .encode => true
  | .stepComplete => true
  | .stepDeadline held => fits 8 held
  | .handshakeTimeout row col => fits 7 row && fits 7 col
  | .stepFault cause row col => fits 4 cause && fits 7 row && fits 7 col
  | .rowRemap => true
  | .tileStoreZeroDone => true
  | .tileTest w _ => fits 12 w
  | .loadRecipe r ctx notify imageAddr imageBytes bindAddr tag data =>
    ringOk r && fits 20 ctx && fits 4 notify && fits 64 imageAddr && fits 32 imageBytes &&
    fits 64 bindAddr && fits 64 tag && recipeOk data
  | .run r ctx handle fromStep startNs =>
    ringOk r && fits 20 ctx && fits 32 handle &&
    fits 32 fromStep && fits 64 startNs
  | .abortStop r ctx handle mode => ringOk r && fits 20 ctx && fits 32 handle && fits 8 mode
  | .abortUnload r ctx handle => ringOk r && fits 20 ctx && fits 32 handle
  | .arm fport src group leadId fromStep =>
    fits 3 fport && fits 17 src && fits 16 group &&
    fits 17 leadId && fits 32 fromStep
  | .ready fport src group => fits 3 fport && fits 17 src && fits 16 group
  | .refuse fport src group status => fits 3 fport && fits 17 src && fits 16 group && fits 16 status
  | .groupCancel fport src group => fits 3 fport && fits 17 src && fits 16 group
  | .go fport src group t0 => fits 3 fport && fits 17 src && fits 16 group && fits 64 t0
  | .readyTimeout => true
  | .barrier fport src group step delta =>
    fits 3 fport && fits 17 src && fits 16 group &&
    fits 32 step && fits 64 delta
  | .abortToken fport src group step outcome =>
    fits 3 fport && fits 17 src && fits 16 group &&
    fits 32 step && fits 16 outcome
  | .peerTimeout dev => fits 17 dev
  | .rcpData fport src group step delta _ =>
    fits 3 fport && fits 17 src && fits 16 group &&
    fits 32 step && fits 64 delta
  | .linkTrain fport _ => fits 3 fport
  | .hello fport nonce => fits 3 fport && fits 64 nonce
  | .spdm fport _ => fits 3 fport
  | .ident fport dev _ _ _ slots => fits 3 fport && fits 17 dev && fits 32 slots
  | .timeSync fport _ _ _ _ rootId hops => fits 3 fport && fits 17 rootId && fits 8 hops
  | .timeSyncSend fport => fits 3 fport
  | .holdoverExpiry => true
  | .authBackoffExpiry fport => fits 3 fport
  | .trainingRetry fport => fits 3 fport
  | .keyUpdate fport _ => fits 3 fport
  | .heartbeatTimeout fport => fits 3 fport
  | .laneFault fport lane => fits 3 fport && fits 5 lane
  | .retrain w fport => fits 12 w && fits 3 fport
  | .codewordRx fport _ _ _ => fits 3 fport
  | .link fport _ => fits 3 fport
  | .creditStall fport cls vl => fits 3 fport && fits 2 cls && fits 1 vl
  | .packetRelay fport p _ => fits 3 fport && pktOk p
  | .read fport p => fits 3 fport && pktOk p
  | .write fport p _ => fits 3 fport && pktOk p
  | .tableSlots fport slots => fits 3 fport && fits 32 slots
  | .probe fport p => fits 3 fport && pktOk p
  | .probeReply fport p => fits 3 fport && pktOk p
  | .probeSend dev => fits 17 dev
  | .grantCreate w index => fits 12 w && fits 14 index
  | .grantDestroy w index => fits 12 w && fits 14 index
  | .ftbIdentityWrite w _ => fits 12 w
  | .grantDrainEnd index => fits 14 index
  | .linkBringupTimeout fport step => fits 3 fport && fits 4 step
  | .fabricSignalLoss fport => fits 3 fport
  | .malformedPacket fport _ => fits 3 fport
  | .configRequest fn req => fits 12 fn && cfgOk req
  | .doorbell fn ring tail => fits 12 fn && fits 4 ring && fits 16 tail
  | .commandFetch fn ring res => fits 12 fn && fits 4 ring && fetchOk res
  | .cqHeadWrite fn ring head => fits 12 fn && fits 4 ring && fits 16 head
  | .ringEnable fn ring _ => fits 12 fn && fits 4 ring
  | .ringDisable fn ring _ => fits 12 fn && fits 4 ring
  | .evtRingEnable fn _ => fits 12 fn
  | .query r ctx kind addr result => ringOk r && fits 20 ctx && fits 8 kind && fits 64 addr && fits 64 result
  | .intDelayExpiry fn ring => fits 12 fn && fits 4 ring
  | .dmaCompletion port tag _ => fits 1 port && fits 12 tag
  | .completionTimeout port tag => fits 1 port && fits 12 tag
  | .tagQuarantineEnd port tag => fits 1 port && fits 12 tag
  | .bmeClear fn => fits 12 fn
  | .vfEnableClear port => fits 1 port
  | .flr fn => fits 12 fn
  | .ideFailure port stream => fits 1 port && fits 8 stream
  | .tdispRequest fn _ => fits 12 fn
  | .cxlMailboxCommand port _ => fits 1 port
  | .spdmDoe fn _ => fits 12 fn
  | .eventRoute => true
  | .unitHang page _ => fits 10 page
  | .coreWatchdog core cause => fits 4 core && fits 3 cause
  | .coreRestartDone core _ => fits 4 core
  | .fatalTrigger cause => fits 3 cause
  | .sssResetReq w code => fits 12 w && fits 16 code
  | .sssForce w value => fits 12 w && fits 32 value
  | .fwStage w => fits 12 w
  | .fwStageDone _ => true
  | .fwSelect w => fits 12 w
  | .fwCommit w => fits 12 w
  | .fwTrialTimeout => true
  | .lccSubmit w => fits 12 w
  | .lccTokenChecked tokens => dmaOk tokens
  | .lccCancel w => fits 12 w
  | .lifecycleWipeDone bad1 bad2 => bad1.all (fits 24) && bad2.all (fits 24)
  | .keyAlloc w => fits 12 w
  | .keyImport w slot blob => fits 12 w && fits 16 slot && dmaOk blob
  | .keyDestroy w slot => fits 12 w && fits 16 slot
  | .keyDestroyDone slot => fits 16 slot
  | .trustStage w image => fits 12 w && dmaOk image
  | .trustCommit w => fits 12 w
  | .grantNonceRead w => fits 12 w
  | .debugGrantSubmit w addr grant => fits 12 w && fits 64 addr && dmaOk grant
  | .debugGrantRevoke w => fits 12 w
  | .debugGrantExpiry => true
  | .powerOnReset _ => true
  | .pwrOkFall => true
  | .brownOut _ => true
  | .coldReset _ _ => true
  | .portReset port _ => fits 1 port
  | .perstDeassert port => fits 1 port
  | .functionReady fn => fits 12 fn
  | .memActiveSet port => fits 1 port
  | .frameZeroed _ frame => fits 24 frame
  | .claimTake w owner resource => writerOk w && fits 3 owner && fits 8 resource
  | .claimRelease w owner resource => writerOk w && fits 3 owner && fits 8 resource
  | .muxSelWrite w _ => writerOk w
  | .traceStart w _ => writerOk w
  | .traceStop w _ => writerOk w
  | .traceDataRead w => writerOk w
  | .jtagInstruction _ => true
  | .tapReset => true

end Sys2Proof
end

