-- ==== Sys2Proof/Safety.lean ====
section
/-! DEFINITION. Sys2Proof/Safety.lean: what counts as a safe run of the block, in the terms that statements use. -/

namespace Sys2Proof

open Machine

/-- Home bytes lie in canonical form: addresses rising, no byte equal to what an unlisted address reads as. (DESIGN CHOICE: notes/assumptions/5.md) -/
def Memory.wf (m : List Host.Cell) : Bool := twf 0 m

/-- No word of an on-die array holds an error, and none was lost with its copy: no command plants one (R190, log entry 89). -/
abbrev Sound (s : State) : Prop := s.sram.upsets = [] ∧ s.sram.lost = false

/-- The tables that hold the block's memory, registers and units lie in canonical form: keys rise, and no entry equals what an
unlisted key reads as. Registers and map entries read by key where none is listed, so of those two only the order is asked. The on-die arrays are sound. -/
structure Tidy (s : State) : Prop where
  sound : Sound s
  mem : Memory.wf s.mem = true
  descs : twf Desc.zero s.descs = true
  plants : twf Plant.none s.plants = true
  regs : trising 0 s.regs = true
  pages : twf Page.reset s.pages = true
  cnts : twf 0 s.cnts = true
  snaps : twf 0 s.snaps = true
  map : trising 0 s.ple.map = true
  ctxs : twf Ctx.reset s.ple.ctxs = true
  groups : twf none s.ple.groups = true
  members : twf none s.ple.members = true
  windows : twf none s.ple.windows = true
  parts : twf Part.reset s.ple.parts = true
  tables : twf TableEnt.free s.ppu.tables = true
  chans : twf Chan.reset s.dram.chans = true
  ctrls : twf Ctrl.reset s.dram.ctrls = true
  fns : twf Func.reset s.hiu.fns = true
  rings : twf Ring.reset s.hiu.rings = true
  fports : twf FPort.reset s.fports = true
  claims : twf ClaimRec.free s.tmx.claims = true
  keys : twf KeySlot.reset s.sec.keys = true
  grants : twf none s.grants = true
  recipes : twf none s.rcp.recipes = true
  cvus : twf Cvu.reset s.cvus = true
  resv : twf Resv.zero s.rlg.resv = true
  slots : twf none s.fmg.slots = true
  flcs : twf Flc.reset s.fmg.flcs = true
  votes : twf none s.mge.votes = true

/-- What a later start of the device must find in the fuses after an earlier moment: nothing that has been burnt comes back
(R402, R397, R411). -/
def FusesKept (s t : State) : Prop :=
  s.otp.minSvn ≤ t.otp.minSvn ∧ s.otp.trustMin ≤ t.otp.trustMin ∧ (∀ k ∈ s.otp.revoked, k ∈ t.otp.revoked) ∧
    s.otp.transitions ≤ t.otp.transitions

/-- What happens only while the device runs does nothing else (R394, R427): `s` is running. -/
abbrev Awake (s : State) : Prop := awake s = true

/-- PF `w` reaches page `p`, holds its claim, and the unit of the page is not being reset (R443, R448, Table 20-2). -/
abbrev Owns (s : State) (w p : Nat) : Prop :=
  reaches s w p = true ∧ holdsPage s w p = true ∧ (pageHdr s p).resetting = false

/-- The header of a page after an access of `w` that changes nothing in it: the low halves that `w` left held are gone (R444). -/
def accessed (w : Nat) (h : Page) : Page := { h with halves := h.halves.filter (fun x => decide (x.fn ≠ w)) }

/-- A header with a refusal recorded in LAST_ERR_INFO and its event bit (R448). -/
def refusedHdr (kind : Nat) (st : Status) (off w : Nat) (h : Page) : Page :=
  setEvtBit 4 { h with lastErr := ⟨st.code, kind, off, w % 4096⟩ }

/-- What one access writes to a register of its own width. -/
def written (d : RegDef) (v : Word) : Word := if d.wide then v else BitVec.ofNat 64 (bits v 31 0)

/-- The header of page `p` alone differs. -/
def HdrOnly (p : Nat) (s t : State) : Prop := ∀ q, q ≠ p → pageHdr t q = pageHdr s q

/-- The register at `off` of page `p` alone differs. -/
def RegOnly (p off : Nat) (s t : State) : Prop := ∀ q o, regKey q o ≠ regKey p off → reg t q o = reg s q o

/-- From `s`, ring command `r` with opcode `op` runs in `v`: it is in progress, or its ring gives it to the device now, and
memory is enabled (R364). -/
abbrev Begins (r : RingCmd) (op : Nat) (s v : State) : Prop := started r op s = some v ∧ v.dev.memEnabled = true

/-- The issuing function takes part in traffic and context `ctx` is one of its own (steps 1 and 2 of R49), and the entries that a
check uses are sound. -/
abbrev OwnCtx (r : RingCmd) (ctx : Nat) (v : State) : Prop :=
  Sound v ∧ fnLive v r.fn = true ∧ (ctxAt v ctx).state = .active ∧ (ctxAt v ctx).fn = r.fn

/-- The slab lies in T1 or T2, is neither sealed nor moving, and takes writes at once. -/
abbrev TakesWrites (s : State) (slab : Nat) (t : Tier) : Prop :=
  (mapAt s slab).state = .resident ∧ (mapAt s slab).tier = some t ∧ t ≠ .t3 ∧ (mapAt s slab).sealBit = false ∧ moveOf s slab = none

/-- Block `b` of the slab is ZERO at home `hb`, without errors, outside the flash poison record and the tray cache. -/
abbrev ZeroBlock (s : State) (slab b hb : Nat) : Prop :=
  descAt s hb = Desc.zero ∧ plantAt s hb = Plant.none ∧ flashPoison s slab b = false ∧ tfind s.cdc.tray (blockIdx slab b) = none

/-- What RELEASE makes of the entry of a slab (Table 02-2): one in T1 or T2 is ZEROED on its way to FREE, any other is FREE. -/
def releasedEntry (e : MapEntry) : MapEntry :=
  match e.tier with
  | some .t1 | some .t2 => { e with state := .zeroed, releasing := true, sealBit := false }
  | _ => MapEntry.free

/-- The placement map after the release of a list of slabs. -/
def runReleased (l : List Nat) (s : State) : State := l.foldl (fun t k => setMap k (releasedEntry (mapAt s k)) t) s

/-- Memory outside home block `hb` is as before. -/
def MemOutside (hb : Nat) (s t : State) : Prop := ∀ a, a / 4096 ≠ hb → tget 0 t.mem a = tget 0 s.mem a

/-- Between `s` and `t` a full block was stored raw under a format at home `hb`: its descriptor names the format and no table, it
reads back, and memory outside its home is as before. -/
def StoredRaw (slab b hb fmt fn : Nat) (data : List Byte) (s t : State) : Prop :=
  (descAt t hb).format = fmt ∧ (descAt t hb).table = 0 ∧ (fetchBlock (Det.reader fn) slab b t).1 = .clean data false ∧
    MemOutside hb s t

/-- The entries of the placement map outside a list of slabs are as before. -/
def MapOutside (l : List Nat) (s t : State) : Prop := ∀ k, k ∉ l → mapAt t k = mapAt s k

/-- Every result of a step may be written, every slab that they write takes writes now, and no word of a tile store fails the step:
from `v` through `w` to `x`. -/
abbrev ResultsFit (q : Recipe) (st : StepRec) (l : List Result) (v w x : State) : Prop :=
  allAllowed q ((st.outs.zip l).map (fun y => (y.1, resultBlocks y.2))) v = (true, w) ∧
    prepareAll ((st.outs.zip l).flatMap (fun y => dstSlabs q y.1 (resultBlocks y.2))).eraseDups w = (true, x) ∧ meetTiles x = (none, x)

/-- The results of a step, each at its destination. -/
def resultsPut (q : Recipe) (r : Run) (st : StepRec) (l : List Result) (x : State) : State :=
  (st.outs.zip (settleResults l x).1).foldl (fun s y => putResult q r.step y.1 y.2.1 y.2.2 s) (settleResults l x).2

/-- What device `src` sends arrives on fabric port `fport`: the port is UP, and an accelerator sends under its own ID (R340). -/
abbrev Arrives (s : State) (fport src : Nat) : Prop :=
  fport < 8 ∧ (fportAt s fport).state = .up ∧ ((fportAt s fport).partner.accelerator = false ∨ (fportAt s fport).partner.dev = src)

/-- Nothing waits on a fabric port, and it has credit for any packet (R330). -/
abbrev SendsAtOnce (v : FPort) : Prop := v.queued = [] ∧ ∀ k, k < 6 → 65 ≤ tget 0 v.credits k

/-- Function `f` may write its own ring and event registers: a PF as holder of its page of the host interface, a VF that is ready
in its control page (R385, R453). -/
abbrev RingOwner (s : State) (f : Nat) : Prop :=
  if isPf f then reaches s f (Pg.hiu + fnPort f) = true ∧ holdsPage s f (Pg.hiu + fnPort f) = true
  else Awake s ∧ fnLive s f = true ∧ (func s f).phase = .ready ∧ (func s f).d3hot = false

end Sys2Proof
end

