-- ==== Sys2Proof/Certificates/Slice0/Obligations.lean ====
section
/-! DEFINITION. Sys2Proof/Certificates/Slice0/Obligations.lean: the statements for the provers. -/

open Sys2Proof Sys2Proof.Machine

/-! Steps and the whole machine -/

/-- A step runs the command at the front of the queue on the queue's rest.
Choices of the model that it meets: log entries 2, 3. -/
def Obligations.StepRunsFrontCommand : Prop :=
  ∀ (c : Instr) (rest : List Instr) (s : State), s.pending = c :: rest → step s = exec c { s with pending := rest }

/-- On an empty queue one nanosecond passes (the model's choice, log entry 2): the time base moves on by 1 unless the device
stands still or the count has a nanosecond to make up, and the queue stays empty. In a running device that has lost an entry of the
map or of a control table with its copy, the takeover of cause 3 follows instead.
Choices of the model that it meets: log entry 3. -/
def Obligations.StepOnEmptyQueueTicks : Prop :=
  ∀ s : State, s.pending = [] →
    ∃ t, step s = .next t ∧ t.pending = [] ∧ t.mem = s.mem ∧
      (¬ (awake s = true ∧ s.sram.lost = true) → t.sent = s.sent ∧
        t.now = if s.boot.halted = true ∨ 256 ≤ s.ftb.owed then s.now else (s.now + 1) % 2 ^ 64) ∧
      (awake s = true → s.sram.lost = true → t.sss.cause = 3 ∧ t.sss.state ≠ .watch ∧ t.now = s.now)

/-- Every command runs to a next state, in every state, and leaves the queue of waiting commands alone. -/
def Obligations.EveryCommandAnswersNext : Prop :=
  ∀ (c : Instr) (s : State), ∃ t, exec c s = .next t ∧ t.pending = s.pending

/-- The state after reset is tidy.
Choices of the model that it meets: log entries 1, 4. -/
def Obligations.ResetIsTidy : Prop := Tidy State.reset

/-- Every step keeps the canonical form of memory and of the block's tables.
Choices of the model that it meets: log entries 2, 3. -/
def Obligations.EveryStepKeepsTidy : Prop :=
  ∀ s t : State, Tidy s → step s = .next t → Tidy t

/-- No step lowers MIN_SVN or TRUST_MIN, un-revokes a firmware key or takes back a lifecycle transition.
Choices of the model that it meets: log entries 2, 3. -/
def Obligations.EveryStepKeepsFuses : Prop :=
  ∀ s t : State, step s = .next t → FusesKept s t

/-- At reset: identity profile values, empty maps, free pages and claims, RING and function defaults that the register lists
give.
Choices of the model that it meets: log entries 1, 4. -/
def Obligations.ResetValues : Prop :=
  State.reset.dev.profile = ⟨1, 0, 1, 1, 0, 0⟩ ∧
    (∀ p, pageHdr State.reset p = Page.reset) ∧
    (∀ p off, reg State.reset p off = regReset p off) ∧
    (∀ p off, counter State.reset p off = 0) ∧
    (∀ n, (claimOf State.reset n).owner = .free) ∧
    (∀ f n, (ringOf State.reset f n).state = .disabled) ∧
    State.reset.pending = [] ∧ State.reset.now = 0 ∧ awake State.reset = false

/-! Register pages -/

/-- A whole value written to a basic register of a unit: each field that accepts its value takes it, any other field keeps its
value, and a refused field is recorded in LAST_ERR_INFO with its event bit. Nothing else changes. CDC_CODEC_CTRL takes its two
bits and starts a flush in the same access, and without TRAY_ENABLE the tray cache is left empty. A reserved OP of a command
register is refused and recorded.
Choices of the model that it meets: log entries 14, 15, 21, 22. -/
def Obligations.BasicRegisterWrite : Prop :=
  (∀ (s : State) (w p off n : Nat) (t : PageType) (d : RegDef) (v : Word),
    Tidy s → Owns s w p → pageOf p = some (t, n) → regAt p off = some (d, off) → off % 8 = 0 → 0x40 ≤ off → off < 0x400 →
    headerRow p off = false → d.flds ≠ [] → basicRow t off (written d v) = false → opField t off = none →
    t ∉ [PageType.ple, .ftb, .fpt, .hiu, .cdc] →
    ∃ u, exec (.registerWrite w p off d.wide v) s = .next u ∧
      reg u p off = mergeFlds d.flds (reg s p off) (written d v) ∧
      pageHdr u p = (if d.flds.all (fun f => fldOk f (written d v))
        then accessed w (pageHdr s p) else refusedHdr kindRefusedValue .accessDenied off w (accessed w (pageHdr s p))) ∧
      RegOnly p off s u ∧ HdrOnly p s u ∧ u = { s with regs := u.regs, pages := u.pages }) ∧
  (∀ (s : State) (w : Nat) (v : Word), Tidy s → Owns s w Pg.cdc →
    ∃ u, exec (.registerWrite w Pg.cdc 0x40 false v) s = .next u ∧ flag u Pg.cdc 0x40 1 = bitOf v 1 ∧
      flag u Pg.cdc 0x40 0 = (bitOf v 0 && !s.cdc.trayOff) ∧ u.cdc.flushing = (s.cdc.flushing || bitOf v 2) ∧
      u.cdc.tray = (if flag u Pg.cdc 0x40 0 then s.cdc.tray else []) ∧ pageHdr u Pg.cdc = accessed w (pageHdr s Pg.cdc) ∧
      RegOnly Pg.cdc 0x40 s u ∧ HdrOnly Pg.cdc s u ∧ u.mem = s.mem ∧ u.descs = s.descs) ∧
  (∀ (s : State) (w p off n : Nat) (t : PageType) (d : RegDef) (f : Nat × Nat × Nat) (v : Word),
    Tidy s → Owns s w p → pageOf p = some (t, n) → regAt p off = some (d, off) → opField t off = some f →
    f.2.2 < bits (written d v) f.1 f.2.1 →
    ∃ u, exec (.registerWrite w p off d.wide v) s = .next u ∧
      pageHdr u p = refusedHdr kindRefusedValue .accessDenied off w (accessed w (pageHdr s p)) ∧
      RegOnly p off s u ∧ HdrOnly p s u ∧
      u = { s with regs := u.regs, pages := u.pages, ple := { s.ple with ctxCmd := u.ple.ctxCmd } })

/-- A 64-bit register written as two halves: the low half is held, and the high half writes both.
Choices of the model that it meets: log entries 14, 21, 22. -/
def Obligations.WideRegisterInHalves : Prop :=
  ∀ (s : State) (w p off n : Nat) (t : PageType) (d : RegDef) (lo hi : Word),
    Tidy s → Owns s w p → pageOf p = some (t, n) → regAt p off = some (d, off) → d.wide = true → off % 8 = 0 → 0x40 ≤ off →
    off < 0x400 → headerRow p off = false → headerRow p (off + 4) = false → regAt p (off + 4) = some (d, off) → t ∉ [PageType.hiu, .flc] →
    lo.toNat < 2 ^ 32 → hi.toNat < 2 ^ 32 →
    ∃ u v, exec (.registerWrite w p off false lo) s = .next u ∧
      (∀ q o, reg u q o = reg s q o) ∧
      pageHdr u p = { accessed w (pageHdr s p) with
        halves := (accessed w (pageHdr s p)).halves ++ [HeldWrite.mk w off false lo] } ∧
      u = { s with pages := u.pages } ∧
      exec (.registerWrite w p (off + 4) false hi) u = .next v ∧
      exec (.registerWrite w p off true (lo + hi <<< 32)) s = .next v

/-- An expert register of a locked page ignores the write and records it; of an unlocked page each field that accepts its value takes
it, and any other keeps its value and is recorded; where the fields then disagree, the register keeps its value and the write is
recorded (the model's choice, log entry 15).
Choices of the model that it meets: log entry 14. -/
def Obligations.ExpertRegisterWrite : Prop :=
  ∀ (s : State) (w p off n : Nat) (t : PageType) (d : RegDef) (v : Word),
    Tidy s → Owns s w p → pageOf p = some (t, n) → regAt p off = some (d, off) → off % 8 = 0 → 0x400 ≤ off → off < 0xE00 →
    d.flds ≠ [] → expertRow t off = false → t ∉ [PageType.cvu, .hiu] → ¬ (t = .ice ∧ off = 0x408) →
    ∃ u, exec (.expertWrite w p off d.wide v) s = .next u ∧ RegOnly p off s u ∧ HdrOnly p s u ∧
      u = { s with regs := u.regs, pages := u.pages } ∧
      (let x := mergeFlds d.flds (reg s p off) (written d v)
       if (pageHdr s p).unlocked = false then
         reg u p off = reg s p off ∧
           pageHdr u p = refusedHdr kindExpertLocked .accessDenied off w (accessed w (pageHdr s p))
       else
         reg u p off = (if fldsAgree s t off x then x else reg s p off) ∧
           pageHdr u p = (if d.flds.all (fun f => fldOk f (written d v)) && fldsAgree s t off x then accessed w (pageHdr s p)
             else refusedHdr kindRefusedValue .accessDenied off w (accessed w (pageHdr s p))))

/-- A write of a function that does not hold the page's claim is ignored and counted, whatever it writes; so is, by the holder
too, every write but CLAIM and UNIT_RESET to a page of a T1 channel or of a flash channel.
Choices of the model that it meets: log entries 14, 16, 18, 21, 22. -/
def Obligations.ForeignWritesAreCounted : Prop :=
  ∀ (s : State) (w p off key : Nat) (wide on : Bool) (v : Word),
    Tidy s → reaches s w p = true → headerRow p off = false → off < 0x400 → alignedAccess off wide = true →
    ∃ u, u = { s with pages := u.pages } ∧ HdrOnly p s u ∧
      pageHdr u p = { accessed w (pageHdr s p) with ignored := min (2 ^ 32 - 1) ((pageHdr s p).ignored + 1) } ∧
      (holdsPage s w p = false →
        exec (.registerWrite w p off wide v) s = .next u ∧ exec (.expertUnlock w p key) s = .next u ∧
        exec (.relock w p) s = .next u ∧ exec (.unitReset w p) s = .next u ∧ exec (.unitEnable w p on) s = .next u ∧
        exec (.evtPendClear w p key) s = .next u) ∧
      (∀ t n, pageOf p = some (t, n) → t = .sch ∨ t = .flc →
        (off ≠ 0x0C → exec (.registerWrite w p off wide v) s = .next u) ∧ exec (.expertUnlock w p key) s = .next u ∧
        exec (.relock w p) s = .next u ∧ exec (.unitEnable w p on) s = .next u ∧ exec (.evtPendClear w p key) s = .next u)

/-- EXPERT_UNLOCK with the key 0xE7A5 unlocks the page, with any other key it is recorded as a bad unlock; RELOCK locks the page.
UNIT_ENABLE of the PPU or of a CVU sets ENABLE. TRAY_FLUSH marks the flush in progress; its end leaves the tray cache empty.
Choices of the model that it meets: log entry 16. -/
def Obligations.UnlockEnableAndFlush : Prop :=
  (∀ (s : State) (w p key : Nat), Tidy s → Owns s w p → key < 2 ^ 16 → readOnlyPage p 0x0C 0 = false →
    (∃ u, exec (.expertUnlock w p key) s = .next u ∧ HdrOnly p s u ∧ u = { s with pages := u.pages } ∧
      pageHdr u p = if key = 0xE7A5 then { accessed w (pageHdr s p) with unlocked := true }
                    else refusedHdr kindBadUnlock .accessDenied 0x0C w (accessed w (pageHdr s p))) ∧
    (∃ u, exec (.relock w p) s = .next u ∧ HdrOnly p s u ∧ u = { s with pages := u.pages } ∧
      pageHdr u p = { accessed w (pageHdr s p) with unlocked := false })) ∧
  (∀ (s : State) (w p n : Nat) (t : PageType), Tidy s → Owns s w p → pageOf p = some (t, n) → t = .cvu ∨ t = .ppu →
    ∃ u, exec (.unitEnable w p true) s = .next u ∧ HdrOnly p s u ∧ u = { s with pages := u.pages } ∧
      pageHdr u p = { accessed w (pageHdr s p) with enable := true }) ∧
  (∀ (s : State) (w : Nat), Tidy s → Owns s w Pg.cdc →
    ∃ u v, exec (.trayFlush w) s = .next u ∧ u = { s with pages := u.pages, cdc := { s.cdc with flushing := true } } ∧
      HdrOnly Pg.cdc s u ∧ pageHdr u Pg.cdc = accessed w (pageHdr s Pg.cdc) ∧
      exec .trayFlushDone u = .next v ∧ v = { u with cdc := { u.cdc with flushing := false, tray := [] } })

/-- A claim of a free page by a PF gives it to that port; its release by the holder frees it and locks every page of its group;
SNAP copies each counter of the page and raises SEQ; EVT_PEND clears the bits written 1 in EVT_PEND and EVT_RAW.
Choices of the model that it meets: log entry 18. -/
def Obligations.PageHeaderCommands : Prop :=
  ∀ (s : State) (w p v : Nat), Tidy s → reaches s w p = true →
    (claimPage p = p → (pageHdr s p).owner = .free → v % 8 = 2 →
      ∃ u, exec (.claimWrite w p v) s = .next u ∧ HdrOnly p s u ∧ u = { s with pages := u.pages } ∧
        pageHdr u p = setEvtBit bitClaimChange { accessed w (pageHdr s p) with owner := .pf, port := fnPort w }) ∧
    (claimPage p = p → holdsPage s w p = true → v % 8 = 0 →
      ∃ u, exec (.claimWrite w p v) s = .next u ∧ u = { s with pages := u.pages } ∧
        (pageHdr u p).owner = .free ∧
        (∀ q, claimPage q = p → (pageHdr u q).unlocked = false) ∧
        (∀ q, claimPage q ≠ p → pageHdr u q = pageHdr s q)) ∧
    (∃ u, exec (.snap w p) s = .next u ∧ HdrOnly p s u ∧ u = { s with pages := u.pages, snaps := u.snaps } ∧
      pageHdr u p = { accessed w (pageHdr s p) with seq := ((pageHdr s p).seq + 1) % 65536 } ∧
      (∀ off, off < 4096 → tget 0 u.snaps (regKey p off) = counter s p off) ∧
      (∀ k, k < regKey p 0 ∨ regKey p 0 + 4096 ≤ k → tget 0 u.snaps k = tget 0 s.snaps k)) ∧
    (Owns s w p → readOnlyPage p 0x1C 0 = false →
      ∃ u, exec (.evtPendClear w p v) s = .next u ∧ HdrOnly p s u ∧ u = { s with pages := u.pages } ∧
        pageHdr u p = { accessed w (pageHdr s p) with
          evtPend := (pageHdr s p).evtPend &&& ~~~ BitVec.ofNat 6 v, evtRaw := (pageHdr s p).evtRaw &&& ~~~ BitVec.ofNat 6 v })

/-- UNIT_RESET of a unit that has one starts its reset and keeps its page's registers and counters; writes that come until it
ends are held; UNIT_RESET_DONE ends it. A unit without a reset refuses it.
Choices of the model that it meets: log entries 14, 16, 17, 21, 22. -/
def Obligations.UnitResetRow : Prop :=
  ∀ (s : State) (w p n : Nat) (t : PageType), Tidy s → Owns s w p → pageOf p = some (t, n) →
    (resettable t = false →
      ∃ u, exec (.unitReset w p) s = .next u ∧ HdrOnly p s u ∧ u = { s with pages := u.pages } ∧
        pageHdr u p = refusedHdr kindRefusedState .accessDenied 0x0C w (accessed w (pageHdr s p))) ∧
    (resettable t = true →
      ∃ u, exec (.unitReset w p) s = .next u ∧ (pageHdr u p).resetting = true ∧ u.regs = s.regs ∧ u.mem = s.mem ∧
        (∀ k ∈ pageChans t n, (chanAt s k).online = true →
          (chanAt u k).queue = [] ∧ (chanAt u k).wbuf = [] ∧ (∀ x ∈ (chanAt u k).debt, x = 0) ∧ (chanAt u k).sr = .inSr) ∧
        (t = .cvu ∨ t = .ice → ∀ (off : Nat) (v : Word), off % 4 = 0 → 0x40 < off → off < 0x400 →
          ∃ x, exec (.registerWrite w p off false v) u = .next x ∧ x = { u with pages := x.pages } ∧
            (pageHdr x p).held = (pageHdr u p).held ++ [HeldWrite.mk w off false v])) ∧
    (t ≠ .smc → t ≠ .sch → t ≠ .dmc → (pageHdr s p).held = [] →
      ∃ x, exec (.unitResetDone p) { s with pages := tput Page.reset s.pages p { pageHdr s p with resetting := true } } = .next x ∧
        (pageHdr x p) = { pageHdr s p with resetting := false, held := [] } ∧ HdrOnly p s x ∧ x = { s with pages := x.pages })

/-- A preset code that the page has reloads each expert register of the preset with the preset's value and keeps every other
register; a reserved code is refused and keeps them all. -/
def Obligations.PresetReload : Prop :=
  ∀ (s : State) (w p n : Nat) (t : PageType) (v : Word), Tidy s → Owns s w p → pageOf p = some (t, n) →
    t ∈ [PageType.mge, .fmg, .bwr, .sht, .rcp] →
    ∃ u, exec (.presetWrite w p v) s = .next u ∧ HdrOnly p s u ∧ u = { s with regs := u.regs, pages := u.pages } ∧
      match presetValues t (bits v (presetBits t).1 (presetBits t).2) with
      | some l =>
        (∀ x ∈ l, reg u p x.1 = BitVec.ofNat 64 x.2) ∧
          bits (reg u p 0x40) (presetBits t).1 (presetBits t).2 = bits v (presetBits t).1 (presetBits t).2 ∧
          (∀ q o, (q ≠ p ∨ (o ≠ 0x40 ∧ o ∉ l.map (·.1))) → q < 4096 → o < 4096 → reg u q o = reg s q o) ∧
          pageHdr u p = accessed w (pageHdr s p)
      | none =>
        (∀ q o, reg u q o = reg s q o) ∧
          pageHdr u p = refusedHdr kindRefusedValue .accessDenied 0x40 w (accessed w (pageHdr s p))

/-- A profile that can be applied becomes the target and is IN_PROGRESS; with FLASH_USE, PLACEMENT and POWER_ENVELOPE as they
are, nothing else changes, and PROFILE_APPLIED puts it in force once nothing of it is left to do. A profile with a reserved
code is refused whole.
Choices of the model that it meets: log entries 18, 23. -/
def Obligations.ProfileChange : Prop :=
  ∀ (s : State) (w : Nat) (v : Word), Tidy s → Owns s w Pg.dev → s.dev.state ≠ .inProgress →
    (∀ f r, profileRefusal s (profileOf v) = some (f, r) →
      ∃ u, exec (.profileWrite w v) s = .next u ∧ u.dev.state = .refused ∧ u.dev.refusedField = f ∧ u.dev.reason = r ∧
        u.dev.profile = s.dev.profile ∧ u.mem = s.mem ∧ u.regs = s.regs ∧ u.ple = s.ple ∧ u.hiu = s.hiu) ∧
    ((profileOf v).flashUse = s.dev.profile.flashUse → (profileOf v).placement = s.dev.profile.placement →
      (profileOf v).envelope = s.dev.profile.envelope → ((profileOf v).flashUse = 0 → groupMounted s = true) →
      profileRefusal s (profileOf v) = none →
      ∃ u, exec (.profileWrite w v) s = .next u ∧
        u = { s with pages := u.pages, dev := { s.dev with target := profileOf v, state := .inProgress,
                                                           refusedField := 0, reason := 0 } } ∧
        (profileSettled u = true → ∃ x, exec .profileApplied u = .next x ∧ x.dev.profile = profileOf v ∧
          x.dev.state = .applied ∧ counter x Pg.dev 0xE08 = (counter u Pg.dev 0xE08 + 1) % 2 ^ 64 ∧
          x = { u with dev := x.dev, cnts := x.cnts }))

/-- R17: an FLR of any function, a PF's included, and a port reset leave the operating profile in force; every device reset, at
power-on or cold, restores its reset values. -/
def Obligations.ProfileAcrossResets : Prop :=
  ∀ s : State, Tidy s →
    (∀ f, ∃ u, exec (.flr f) s = .next u ∧ u.dev.profile = s.dev.profile) ∧
    (∀ port kind, ∃ u, exec (.portReset port kind) s = .next u ∧ u.dev.profile = s.dev.profile) ∧
    (∀ f, s.dev.powered = false → ∃ u, exec (.powerOnReset f) s = .next u ∧ u.dev.profile = ⟨1, 0, 1, 1, 0, 0⟩) ∧
    (∀ f why, s.dev.powered = true →
      (match why with
       | .sssRequest => s.sss.resetAsked = true
       | .trialTakeover => s.sss.trialReset = true
       | .tap => s.tmx.resetDue = true
       | .ioxWrite w code => Owns s w Pg.iox ∧ code % 65536 = 0xC01D
       | .bothPerst => s.hiu.p0.perst = true ∧ s.hiu.p1.perst = true ∧ flag s Pg.iox 0x68 1 = true) →
      ∃ u, exec (.coldReset why f) s = .next u ∧ u.dev.profile = ⟨1, 0, 1, 1, 0, 0⟩)
/-! Presented memory -/

/-- RESERVE that every admission condition lets pass: frames and guarantees are added to the context's reservation, and a run of FREE
slabs is named for it, ZEROED and empty, with its TMASK. One that lacks capacity or a guarantee is refused whole. -/
def Obligations.ReserveWholeOrNothing : Prop :=
  (∀ (r : RingCmd) (ctx slabs tmask f1 f2 f3 b1 b2 b3 : Nat) (s v : State),
    Tidy v → Begins r Opc.reserve s v → fnLive v r.fn = true → pfNames v r ctx = true → slabs ≤ 16777216 → 1 ≤ tmask → tmask < 8 →
    capacityFail v ctx slabs tmask (byTier f1 f2 f3) = none →
    admitFail v (addResv ctx (byTier f1 f2 f3) (byTier b1 b2 b3) v) = none →
    meteredContexts (addResv ctx (byTier f1 f2 f3) (byTier b1 b2 b3) v) ≤ 65536 →
    ∃ first u, exec (.reserve r ctx slabs tmask f1 f2 f3 b1 b2 b3) s = .next (complete r Opc.reserve .ok first u) ∧
      resvOf u ctx = ⟨(resvOf v ctx).f1 + f1, (resvOf v ctx).f2 + f2, (resvOf v ctx).f3 + f3,
                      (resvOf v ctx).b1 + b1, (resvOf v ctx).b2 + b2, (resvOf v ctx).b3 + b3⟩ ∧
      (∀ c, c ≠ ctx → resvOf u c = resvOf v c) ∧
      (0 < slabs → ∀ k ∈ slabList first slabs, k < v.ple.presented ∧ (mapAt v k).state = .free ∧
        mapAt u k = { MapEntry.free with state := .zeroed, owner := ctx, tmask := tmask }) ∧
      MapOutside (slabList first slabs) v u ∧ u.mem = v.mem ∧ u.hiu = v.hiu) ∧
  (∀ (r : RingCmd) (ctx slabs tmask f1 f2 f3 b1 b2 b3 : Nat) (s v : State) (x : Nat × Nat × Nat),
    Begins r Opc.reserve s v → fnLive v r.fn = true → pfNames v r ctx = true → slabs ≤ 16777216 → 1 ≤ tmask → tmask < 8 →
    (capacityFail v ctx slabs tmask (byTier f1 f2 f3) = some x ∨
      capacityFail v ctx slabs tmask (byTier f1 f2 f3) = none ∧
        admitFail v (addResv ctx (byTier f1 f2 f3) (byTier b1 b2 b3) v) = some x) →
    ∃ st u, exec (.reserve r ctx slabs tmask f1 f2 f3 b1 b2 b3) s = .next (complete r Opc.reserve st 0 u) ∧
      (st = .noCapacity ∨ st = .guaranteeUnavailable) ∧
      u = { v with rlg := { v.rlg with refusal := u.rlg.refusal }, cnts := u.cnts } ∧
      u.rlg.refusal = ⟨st.code, x.1, min 2097151 x.2.1, min 2097151 x.2.2⟩)

/-- RELEASE of slabs that the context owns, that nothing maps and no read waits for gives its frames and guarantees back; a slab
without a frame or in T3 is FREE, one in T1 or T2 is ZEROED on its way to FREE, and no other slab changes. One mapped slab refuses
the whole; so does a return of more than the context has left.
Choices of the model that it meets: log entry 13. -/
def Obligations.ReleaseSlabs : Prop :=
  ∀ (r : RingCmd) (ctx dest count f1 f2 f3 b1 b2 b3 : Nat) (s v : State),
    Tidy v → Begins r Opc.release s v → OwnCtx r ctx v → slabAligned dest = true → count ≤ 65536 →
    (∀ k ∈ slabList (dest / 2 ^ 24) count, owns v ctx (mapAt v k) = true) →
    ((∃ k ∈ slabList (dest / 2 ^ 24) count, slabHeld v k = true) →
      exec (.release r ctx dest count f1 f2 f3 b1 b2 b3) s = .next (complete r Opc.release .slabMapped 0 v)) ∧
    ((∀ k ∈ slabList (dest / 2 ^ 24) count, slabHeld v k = false) →
      ((∃ t ∈ tiers, unusedFrames v ctx t < byTier f1 f2 f3 t ∨ Resv_bw (resvOf v ctx) t < byTier b1 b2 b3 t) →
        exec (.release r ctx dest count f1 f2 f3 b1 b2 b3) s =
          .next (complete r Opc.release .reservationInUse 0 (refusedAdmission v))) ∧
      ((∀ t ∈ tiers, byTier f1 f2 f3 t ≤ unusedFrames v ctx t ∧ byTier b1 b2 b3 t ≤ Resv_bw (resvOf v ctx) t) →
        shortfall v = false → (∀ k ∈ slabList (dest / 2 ^ 24) count, readsWait v k = false) →
        hallFail (runReleased (slabList (dest / 2 ^ 24) count) v) ctx = none →
        hallFail (subResv ctx (byTier f1 f2 f3) (byTier b1 b2 b3) (runReleased (slabList (dest / 2 ^ 24) count) v)) ctx = none →
        ∃ u, exec (.release r ctx dest count f1 f2 f3 b1 b2 b3) s = .next (complete r Opc.release .ok 0 u) ∧
          resvOf u ctx = ⟨(resvOf v ctx).f1 - f1, (resvOf v ctx).f2 - f2, (resvOf v ctx).f3 - f3,
                          (resvOf v ctx).b1 - b1, (resvOf v ctx).b2 - b2, (resvOf v ctx).b3 - b3⟩ ∧
          (∀ c, c ≠ ctx → resvOf u c = resvOf v c) ∧
          (∀ k ∈ slabList (dest / 2 ^ 24) count, mapAt u k = releasedEntry (mapAt v k)) ∧
          MapOutside (slabList (dest / 2 ^ 24) count) v u ∧
          ((∀ k ∈ slabList (dest / 2 ^ 24) count, (mapAt v k).tier ≠ some .t3 ∧ moveOf v k = none) → u.mem = v.mem)))

/-- PLE_CTX_CMD CREATE: a context ID that was FREE becomes ACTIVE for the function, with its key slot bound; PLE_CTX_RESULT
names it. -/
def Obligations.ContextCreate : Prop :=
  ∀ (s : State) (w fn key : Nat), Tidy s → Owns s w Pg.ple → s.ple.ctxDone = true → fnPort fn = fnPort w → fnExists s fn = true →
    keyBindable s (fnPort w) key = true → (∃ c, c < 1048576 ∧ (ctxAt s c).state = .free) →
    ∃ c u, exec (.ctxCreate w fn key) s = .next u ∧ c < 1048576 ∧ (ctxAt s c).state = .free ∧
      ctxAt u c = { fn := fn, state := .active, key := key } ∧ (∀ d, d ≠ c → ctxAt u d = ctxAt s d) ∧
      (key ≠ 0xFFFF → (keyAt u key).state = .bound) ∧ (∀ k, k ≠ key → keyAt u k = keyAt s k) ∧
      u.ple.ctxStatus = Status.ok.code ∧ u.ple.ctxDone = true ∧ u.ple.ctxResult = c ∧
      u.ple.map = s.ple.map ∧ u.mem = s.mem ∧ u.hiu.rings = s.hiu.rings

/-- MAP_WINDOW enters a window that no other of the function overlaps; UNMAP_WINDOW marks it STALE and starts its drain; the
end of the drain, once no access through the window waits, frees the entry and completes the command.
Choices of the model that it meets: log entry 86. -/
def Obligations.WindowLife : Prop :=
  (∀ (r : RingCmd) (ctx rights aptBase first len : Nat) (s v : State),
    Begins r Opc.mapWindow s v → OwnCtx r ctx v → rights < 4 → 1 ≤ len → len ≤ 4194304 → aptBase < 4194304 → first < 16777216 →
    first + len ≤ v.ple.presented → (aptBase + len) * 2 ^ 24 ≤ 2 ^ apertureLog2 v r.fn →
    (∀ k ∈ slabList first len, windowRightOk v ctx (rights.testBit 1) k = true) →
    windowsWhere v (fun w => decide (w.fn = r.fn) && decide (aptBase < w.aptBase + w.length) &&
      decide (w.aptBase < aptBase + len)) = [] →
    windowsOf v r.fn < (if isPf r.fn then 4096 else 1024) → v.ple.windows.length < 262144 →
    (∃ n, n < 262144 ∧ windowAt v n = none) →
    ∃ n u, exec (.mapWindow r ctx rights aptBase first len) s = .next (complete r Opc.mapWindow .ok n u) ∧
      n < 262144 ∧ windowAt v n = none ∧
      windowAt u n = some { rd := rights.testBit 0, wr := rights.testBit 1, stale := false, fn := r.fn, ctx := ctx,
                            aptBase := aptBase, length := len, first := first } ∧
      u = { v with draws := u.draws, ple := { v.ple with windows := u.ple.windows } }) ∧
  (∀ (r : RingCmd) (ctx n : Nat) (w : Window) (s v : State),
    Tidy v → Begins r Opc.unmapWindow s v → windowLeaving v n = false → windowAt v n = some w → w.fn = r.fn →
    ∃ u, exec (.unmapWindow r ctx n) s = .next u ∧ windowAt u n = some { w with stale := true } ∧
      (∀ m, m ≠ n → windowAt u m = windowAt v m) ∧ u.ple.drains = v.ple.drains ++ [⟨[n], true, some (r, Opc.unmapWindow), [], []⟩] ∧
      u = { v with ple := { v.ple with windows := u.ple.windows, drains := u.ple.drains } }) ∧
  (∀ (r : RingCmd) (n : Nat) (s : State), Tidy s → Awake s → s.ple.drains = [⟨[n], true, some (r, Opc.unmapWindow), [], []⟩] → windowBusy s n = false →
    ∃ u, exec (.windowDrainEnd n) s = .next (complete r Opc.unmapWindow .ok 0 u) ∧ windowAt u n = none ∧
      (∀ m, m ≠ n → windowAt u m = windowAt s m) ∧ u = { s with ple := { s.ple with windows := u.ple.windows, drains := [] } })

/-- SHARE CREATE, ADD_SLABS and ADD_MEMBER of a new member.
Choices of the model that it meets: log entry 26. -/
def Obligations.ShareGroupGrows : Prop :=
  ∀ (r : RingCmd) (ctx group member right dest count : Nat) (s v : State), Tidy v → Begins r Opc.share s v → OwnCtx r ctx v →
    v.ple.drains.any (fun d => decide (d.cmd = some (r, Opc.share))) = false →
    ((∃ g, g < 65536 ∧ groupOwner v g = none) →
      ∃ g u, exec (.shareCreate r ctx) s = .next (complete r Opc.share .ok g u) ∧ g < 65536 ∧ groupOwner v g = none ∧
        groupOwner u g = some ctx ∧ (∀ h, h ≠ g → groupOwner u h = groupOwner v h) ∧
        u = { v with draws := u.draws, ple := { v.ple with groups := u.ple.groups } }) ∧
    (groupOwner v group = some ctx → slabAligned dest = true → 1 ≤ count → count ≤ 65536 →
      (∀ k ∈ slabList (dest / 2 ^ 24) count, addable v group ctx k = true) →
      ∃ u, exec (.shareAddSlabs r ctx group dest count) s = .next (complete r Opc.share .ok 0 u) ∧
        (∀ k ∈ slabList (dest / 2 ^ 24) count, mapAt u k = { mapAt v k with shared := true, owner := group }) ∧
        MapOutside (slabList (dest / 2 ^ 24) count) v u ∧ u = { v with ple := { v.ple with map := u.ple.map } }) ∧
    (groupOwner v group = some ctx → member ≠ ctx → right < 2 → (ctxAt v member).state = .active →
      memberKey v group member = none → (∃ k, tfree v.ple.members 0 1048576 = some k) →
      ∃ u, exec (.shareAddMember r ctx group member right) s = .next (complete r Opc.share .ok 0 u) ∧
        rightOf u member { MapEntry.free with shared := true, owner := group } = (if right = 1 then .write else .read) ∧
        u = { v with ple := { v.ple with members := u.ple.members } })

/-- SHARE REMOVE_MEMBER and LEAVE take the member's entry and make its windows onto the group's slabs STALE; SHARE DESTROY ends
the group and returns its slabs to their owner. The command completes at once when no window drains and no access that had passed
the check waits.
Choices of the model that it meets: log entry 26. -/
def Obligations.ShareGroupShrinks : Prop :=
  ∀ (r : RingCmd) (ctx group member k : Nat) (s v : State), Tidy v → Begins r Opc.share s v → OwnCtx r ctx v →
    v.ple.drains.any (fun d => decide (d.cmd = some (r, Opc.share))) = false →
    (groupOwner v group = some ctx → memberKey v group member = some k →
      (memberWindows v group member = [] → passedWrites v member (groupSlabs v group) = [] →
        passedReads v member (groupSlabs v group) = [] →
        ∃ u, exec (.shareRemoveMember r ctx group member) s = .next (complete r Opc.share .ok 0 u) ∧
          tget none u.ple.members k = none ∧ u.ple.windows = v.ple.windows ∧ u.ple.map = v.ple.map ∧ u.mem = v.mem) ∧
      (memberWindows v group member ≠ [] →
        ∃ u, exec (.shareRemoveMember r ctx group member) s = .next u ∧ tget none u.ple.members k = none ∧
          (∀ n ∈ memberWindows v group member, (windowAt u n).any (·.stale) = true) ∧
          u.ple.drains = v.ple.drains ++ [⟨memberWindows v group member, false, some (r, Opc.share),
            passedWrites v member (groupSlabs v group), passedReads v member (groupSlabs v group)⟩] ∧ u.mem = v.mem)) ∧
    (memberKey v group ctx = some k → memberWindows v group ctx = [] → passedWrites v ctx (groupSlabs v group) = [] →
      passedReads v ctx (groupSlabs v group) = [] →
      ∃ u, exec (.shareLeave r ctx group) s = .next (complete r Opc.share .ok 0 u) ∧
        tget none u.ple.members k = none ∧ u.ple.windows = v.ple.windows ∧ u.ple.map = v.ple.map ∧ u.mem = v.mem) ∧
    (groupOwner v group = some ctx → (∀ p ∈ v.ple.members, ∀ m, p.2 = some m → m.group ≠ group) →
      ∃ u, exec (.shareDestroy r ctx group) s = .next (complete r Opc.share .ok 0 u) ∧ groupOwner u group = none ∧
        (∀ j ∈ groupSlabs v group, mapAt u j = { mapAt v j with shared := false, owner := ctx }) ∧
        MapOutside (groupSlabs v group) v u ∧ u = { v with ple := { v.ple with map := u.ple.map, groups := u.ple.groups } })

/-- SEAL of ZEROED slabs of a context with a key seals each of them; a run with one that cannot be sealed stays as it is.
PLE_LD_BASEn makes a partition valid over slabs that it may hold.
Choices of the model that it meets: log entry 25. -/
def Obligations.SealAndPartitions : Prop :=
  (∀ (r : RingCmd) (ctx dest count : Nat) (s v : State), Tidy v → Begins r Opc.seal_ s v → OwnCtx r ctx v →
    slabAligned dest = true → 1 ≤ count → count ≤ 65536 → (ctxAt v ctx).key ≠ 0xFFFF →
    ((∀ k ∈ slabList (dest / 2 ^ 24) count, sealable v ctx k = true) →
      ∃ u, exec (.sealSlabs r ctx dest count) s = .next (complete r Opc.seal_ .ok 0 u) ∧
        (∀ k ∈ slabList (dest / 2 ^ 24) count, mapAt u k = { mapAt v k with state := .sealed, sealBit := true }) ∧
        MapOutside (slabList (dest / 2 ^ 24) count) v u ∧ u = { v with ple := { v.ple with map := u.ple.map } }) ∧
    ((∃ k ∈ slabList (dest / 2 ^ 24) count, sealable v ctx k = false) →
      exec (.sealSlabs r ctx dest count) s = .next (complete r Opc.seal_ .accessDenied 0
        (checkRun (ringAsk r.fn ctx true false) (dest / 2 ^ 24) count v).2))) ∧
  (∀ (s : State) (w n ctx first : Nat), Tidy s → Owns s w Pg.ple → n < 16 → ctx < 2 ^ 20 → first < 2 ^ 24 → fnPort w < 2 →
    fnPort (ctxFn s ctx) = fnPort w → (partAt s n).valid = false → s.dev.profile.flashUse ≠ 1 →
    partRefusal s n { valid := true, port := fnPort w, ctx := ctx, first := first, count := (partAt s n).count } = none →
    ∃ u, exec (.ldBaseWrite w n (BitVec.ofNat 64 (2 ^ 63 + fnPort w * 2 ^ 62 + ctx * 2 ^ 32 + first))) s = .next u ∧
      partAt u n = { valid := true, port := fnPort w, ctx := ctx, first := first, count := (partAt s n).count } ∧
      (∀ m, m ≠ n → partAt u m = partAt s m) ∧ HdrOnly Pg.ple s u ∧
      u = { s with pages := u.pages, ple := { s.ple with parts := u.ple.parts } })

/-- A CXL.mem write to a ZERO block of a slab in T1 or T2 is stored in that block's home alone, and a read then returns it. An access that
the port does not serve, or that the access check refuses, changes no memory: a read returns poison, a write is discarded. -/
def Obligations.CxlMemAccess : Prop :=
  (∀ (s : State) (port dpa ctx slab byte : Nat) (t : Tier) (data : List Byte),
    Tidy s → port < 2 → data.length = 64 → cxlServed s port = true →
    cxlCheck port (dpa / 64 * 64) true s = .ok ((ctx, slab, byte), s) → TakesWrites s slab t →
    ZeroBlock s slab (byte / 4096) (homeKey t (mapAt s slab).frame (byte / 4096)) →
    ∃ u v, exec (.cxlMemWrite port dpa data) s = .next u ∧ u.sent = s.sent ++ [.cxlWriteDone port (dpa / 64 * 64) true] ∧
      MemOutside (homeKey t (mapAt s slab).frame (byte / 4096)) s u ∧
      exec (.cxlMemRead port dpa) u = .next v ∧ v.sent = u.sent ++ [.cxlData port (dpa / 64 * 64) data] ∧ v.mem = u.mem) ∧
  (∀ (s : State) (port dpa : Nat) (data : List Byte), Sound s → port < 2 → data.length = 64 →
    cxlServed s port = false ∨ (∃ x y, cxlCheck port (dpa / 64 * 64) false s = .error x ∧
      cxlCheck port (dpa / 64 * 64) true s = .error y) →
    (∃ u, exec (.cxlMemRead port dpa) s = .next u ∧ u.mem = s.mem ∧ u.descs = s.descs ∧
      u.sent = s.sent ++ [.cxlPoison port (dpa / 64 * 64)]) ∧
    (∃ u, exec (.cxlMemWrite port dpa data) s = .next u ∧ u.mem = s.mem ∧ u.descs = s.descs ∧
      u.sent = s.sent ++ [.cxlWriteDone port (dpa / 64 * 64) false]))

/-- A write through an aperture within a ZERO block of a slab in T1 or T2 is stored in that block's home alone, and a read of
the same bytes returns it. With the aperture closed, a read is answered UR and a write is discarded. -/
def Obligations.ApertureAccess : Prop :=
  (∀ (s : State) (fn off ctx slab : Nat) (t : Tier) (data : List Byte) (secure : Bool),
    Tidy s → 1 ≤ data.length → off % 4096 + data.length ≤ 4096 → apertureOpen s fn secure = true →
    barCheck fn off true s = .ok ((ctx, slab), s) → barCheck fn off false s = .ok ((ctx, slab), s) → TakesWrites s slab t →
    ZeroBlock s slab (off % 2 ^ 24 / 4096) (homeKey t (mapAt s slab).frame (off % 2 ^ 24 / 4096)) →
    ∃ u v, exec (.barWrite fn off data secure) s = .next u ∧ u.sent = s.sent ++ [.barWriteDone fn off] ∧
      MemOutside (homeKey t (mapAt s slab).frame (off % 2 ^ 24 / 4096)) s u ∧
      exec (.barRead fn off data.length secure) u = .next v ∧ v.sent = u.sent ++ [.barData fn off data] ∧ v.mem = u.mem) ∧
  (∀ (s : State) (fn off len : Nat) (data : List Byte) (secure : Bool), fnExists s fn = true → s.sss.state = .watch →
    apertureOpen s fn secure = false →
    exec (.barWrite fn off data secure) s = .next s ∧
    ∃ u, exec (.barRead fn off len secure) s = .next u ∧ u.sent = s.sent ++ [.barResp fn off .ur] ∧
      u = { s with sent := u.sent, cnts := u.cnts })

/-! Code tables and proof passes -/

/-- COMPRESS_IN onto slabs in T1 or T2 that take writes now. With compression off, or under a table that the context may use,
it completes with OK; where a pass is to build a table, it waits for its passes. With compression off, and before a pass, a single
block is stored raw in its home alone, where it reads back.
Choices of the model that it meets: log entries 31, 89. -/
def Obligations.CompressInStores : Prop :=
  ∀ (r : RingCmd) (ctx dest src len fmt table scope : Nat) (d : List Byte) (s v : State),
    Tidy v → Begins r Opc.compressIn s v → OwnCtx r ctx v → passWaits v r Opc.compressIn = false → dest < 2 ^ 48 →
    dest % 4096 = 0 → scope = 1 ∨ dest % 2 ^ 24 = 0 → src % 4096 = 0 → 1 ≤ len → dest / 4096 + len ≤ 2 ^ 36 → len ≤ 16777216 → fmt ≤ 8 → scope ≤ 65536 →
    d.length = 4096 * len →
    (checkRun (ringAsk r.fn ctx true true) (dest / 2 ^ 24) (runSlabs (dest / 4096) len).length v).1 = none →
    (∀ k ∈ runSlabs (dest / 4096) len, ∃ t, TakesWrites v k t) →
    (v.dev.profile.compression = 0 →
      ∃ u, exec (.compressIn r ctx dest src len fmt 0 table scope (.bytes d)) s = .next (complete r Opc.compressIn .ok 0 u) ∧
        (∀ t, len = 1 → TakesWrites v (dest / 2 ^ 24) t →
          ZeroBlock v (dest / 2 ^ 24) (dest / 4096 % 4096) (homeKey t (mapAt v (dest / 2 ^ 24)).frame (dest / 4096 % 4096)) →
          StoredRaw (dest / 2 ^ 24) (dest / 4096 % 4096) (homeKey t (mapAt v (dest / 2 ^ 24)).frame (dest / 4096 % 4096)) fmt r.fn d v u)) ∧
    (v.dev.profile.compression = 1 → tableUsable v ctx table fmt = true →
      ∃ u, exec (.compressIn r ctx dest src len fmt 1 table scope (.bytes d)) s = .next (complete r Opc.compressIn .ok 0 u)) ∧
    (∀ x, v.dev.profile.compression ≠ 0 → passGate r Opc.compressIn v = .open_ x →
      ∃ u, exec (.compressIn r ctx dest src len fmt 0 table scope (.bytes d)) s = .next u ∧
        passWaits u r Opc.compressIn = true ∧ inProgress u r Opc.compressIn = inProgress v r Opc.compressIn ∧
        (∀ t, len = 1 → TakesWrites v (dest / 2 ^ 24) t →
          ZeroBlock v (dest / 2 ^ 24) (dest / 4096 % 4096) (homeKey t (mapAt v (dest / 2 ^ 24)).frame (dest / 4096 % 4096)) →
          StoredRaw (dest / 2 ^ 24) (dest / 4096 % 4096) (homeKey t (mapAt v (dest / 2 ^ 24)).frame (dest / 4096 % 4096)) fmt r.fn d v u))

/-- RECODE with compression off leaves every block as it is and completes with OK; with a pass to run, it waits for its
passes; a table that the context may not use refuses it.
Choices of the model that it meets: log entries 30, 31. -/
def Obligations.RecodeRow : Prop :=
  ∀ (r : RingCmd) (ctx dest len fmt mode table scope : Nat) (s v : State),
    Begins r Opc.recode s v → OwnCtx r ctx v → passWaits v r Opc.recode = false →
    slabAligned dest = true → 1 ≤ len → len ≤ 65536 → fmt ≤ 8 → scope ≤ 65536 → mode < 3 →
    (checkRun (ringAsk r.fn ctx true true) (dest / 2 ^ 24) len v).1 = none →
    (mode ≠ 0 → tableUsable v ctx table fmt = false →
      exec (.recode r ctx dest len fmt mode table scope) s = .next (complete r Opc.recode .tableUnavailable 0 v)) ∧
    (mode = 0 ∨ tableUsable v ctx table fmt = true → v.dev.profile.compression = 0 →
      exec (.recode r ctx dest len fmt mode table scope) s = .next (complete r Opc.recode .ok 0 v)) ∧
    (∀ x, mode = 0 → v.dev.profile.compression ≠ 0 → passGate r Opc.recode v = .open_ x →
      ∃ u, exec (.recode r ctx dest len fmt mode table scope) s = .next u ∧ passWaits u r Opc.recode = true ∧
        u.mem = v.mem ∧ u.descs = v.descs ∧ u.ple = v.ple)

/-- The phases of a proof pass: it begins to count, takes a device ID whose table is BUILDING, publishes the table LIVE, and ends
leaving raw what its format does not cover. -/
def Obligations.PassPhases : Prop :=
  (∀ (s : State) (p : Pass) (l : List Pass), Awake s → runningPass s = none → ppuOn s = true → s.ppu.passes = p :: l →
    ∃ u q, exec .passStart s = .next u ∧ runningPass u = some q ∧
      q = { p with phase := .histogram, hist := List.replicate (2 ^ symWidth p.format) 0 } ∧ u = { s with ppu := u.ppu }) ∧
  (∀ (s : State) (p : Pass) (id : Nat), Tidy s → Awake s → runningPass s = some p → p.phase = .histogram →
    (let x := (List.range p.count).foldl (fun x i => countBlock p (p.first + i) x) (⟨p.hist, false⟩, s)
     x.1.waits = false → listSum x.1.hist ≠ 0 → freeDeviceId x.2 = some id →
      ∃ u q, exec .passHistogramDone s = .next u ∧ (tableAt x.2 id).state = .free ∧ (tableAt u id).state = .building ∧
        (tableAt u id).owner = p.ctx ∧ (tableAt u id).pins = 1 ∧ (tableAt u id).scope = some (p.first, p.count) ∧ (∀ j, j ≠ id → tableAt u j = tableAt x.2 j) ∧
        runningPass u = some q ∧ q.phase = .build ∧ q.table = some id ∧ q.hist = x.1.hist)) ∧
  (∀ (s : State) (p : Pass) (id : Nat), Tidy s → Awake s → runningPass s = some p → p.phase = .build → p.table = some id →
    ∃ u q, exec .tableBuildDone s = .next u ∧
      tableAt u id = { tableAt s id with state := .live, data := buildTable p.format p.hist } ∧
      (∀ j, j ≠ id → tableAt u j = tableAt s j) ∧ runningPass u = some q ∧ q = { p with phase := .encode } ∧
      u = { s with ppu := u.ppu, cnts := u.cnts }) ∧
  (∀ (s : State) (p : Pass) (id : Nat), Awake s → runningPass s = some p → p.phase = .encode → p.table = some id →
    s.ppu.waiting = [] → (∀ k ∈ runSlabs p.first p.count, passSlab s p k = true) →
    (∀ k b, codable s p.format k b = false) →
    ∃ u, exec .passComplete s = .next u ∧ runningPass u = none ∧ u.mem = s.mem ∧ u.descs = s.descs ∧ u.ple = s.ple)

/-- Tables on their way out: RETIRE of a LIVE table that a pass holds waits, of one that blocks name makes it RETIRING; an
acknowledgement takes the port from a quarantined table's holders; a partner that does not answer in time is no decoder any
more; the background walk goes on to the next slab.
Choices of the model that it meets: log entry 30. -/
def Obligations.TableRetirement : Prop :=
  (∀ (s : State) (w id : Nat), Tidy s → Owns s w Pg.ppu → isDeviceId id = true → fnPort (ctxFn s (tableAt s id).owner) = fnPort w →
    (tableAt s id).state = .live → 0 < (tableAt s id).refs →
    ∃ u, exec (.retire w id) s = .next u ∧ (∀ j, j ≠ id → tableAt u j = tableAt s j) ∧
      tableAt u id = (if (tableAt s id).pins = 0 then { tableAt s id with state := .retiring, pending := false }
                      else { tableAt s id with pending := true }) ∧
      u = { s with pages := u.pages, ppu := { s.ppu with tables := u.ppu.tables } }) ∧
  (∀ (s : State) (p id : Nat), Tidy s → Awake s → p < 8 → (fportAt s p).state = .up → (tableAt s id).state = .quarantine →
    (tableAt s id).peers ≠ [p] → p ∈ (tableAt s id).peers → (tableAt s id).peers.Nodup →
    ∃ u, exec (.tableRetireAck p id (tableAt s id).retireEpoch) s = .next u ∧
      tableAt u id = { tableAt s id with peers := (tableAt s id).peers.filter (fun q => decide (q ≠ p)) } ∧
      u.mem = s.mem ∧ u.descs = s.descs) ∧
  (∀ (s : State) (p : Nat), Tidy s → Awake s → (∃ a ∈ (fportAt s p).acksDue, a.2 + 1000000 * fld s Pg.ppu 0x400 9 0 ≤ s.now) →
    ∃ u, exec (.peerAckTimeout p) s = .next u ∧ (fportAt u p).decode = false ∧ (fportAt u p).acksDue = [] ∧
      (∀ id, p ∉ (tableAt u id).peers) ∧ u.mem = s.mem ∧ u.descs = s.descs) ∧
  (∀ s : State, Awake s → flag s Pg.ppu 0x40 0 = true → ppuOn s = true → 0 < s.ple.presented → queuedPasses s < 256 →
    (s.ppu.bgTimes.filter (fun t => decide (s.now < t + 1000000000))).length < fld s Pg.ppu 0x408 15 0 → (mapAt s (s.ppu.walk % s.ple.presented)).state ≠ .resident →
    exec .bgRecodeWalk s = .next { s with ppu := { s.ppu with walk := (s.ppu.walk % s.ple.presented + 1) % s.ple.presented } })

/-! Placement and migration -/

/-- DECAY_TICK, once a tick is due, halves the heat of every slab, and two that fell due together count as one merged;
TOUCH_MAP_SWAP, half a window after the last, makes the older touch map current, empty; POLICY_PERIOD, a period after the last,
queues the promotion of a hot slab, and nothing in PINNED mode.
Choices of the model that it meets: log entry 32. -/
def Obligations.HeatAndPolicy : Prop :=
  (∀ s : State, Awake s → (s.mge.sweepDue = false → tickLate s = false → exec .decayTick s = .next s) ∧
    (s.mge.sweepDue = true ∨ tickLate s = true → ∃ u, exec .decayTick s = .next u ∧
      (∀ e ∈ s.ple.map, (e.1, { e.2 with heat := e.2.heat / 2 }) ∈ u.ple.map) ∧ u.ple.map.map (·.1) = s.ple.map.map (·.1) ∧
      u = { s with ple := { s.ple with map := u.ple.map }, cnts := u.cnts,
                   mge := { s.mge with sampled := 0, sweepDue := false, lastTick := s.now } } ∧
      (s.mge.sweepDue = true → tickLate s = true → trising 0 s.cnts = true →
        counter u Pg.mge 0xE38 = (counter s Pg.mge 0xE38 + 1) % 2 ^ 64))) ∧
  (∀ s : State, Awake s → s.mge.lastSwap + 500000 * fld s Pg.mge 0x400 26 16 ≤ s.now → ∃ u, exec .touchMapSwap s = .next u ∧ u.mge.currentB = !s.mge.currentB ∧
    (if s.mge.currentB then u.mge.touchA = [] ∧ u.mge.touchB = s.mge.touchB
     else u.mge.touchB = [] ∧ u.mge.touchA = s.mge.touchA) ∧ u = { s with mge := u.mge }) ∧
  (∀ s : State, Awake s → pinnedMode s = true → exec .policyPeriod s = .next s) ∧
  (∀ (s : State) (c k : Nat) (low up : Tier), Tidy s → Awake s → pinnedMode s = false →
    tkeys (fun _ c => decide (c.state = .active)) s.ple.ctxs = [c] → slabsOf s c = [k] → fld s Pg.mge 0x408 63 48 = 0 →
    (mapAt s k).tier = some low → tierAbove low = some up → heatMoves s k (mapAt s k) = true → tierBit (mapAt s k).tmask up = true →
    dwells s k = false → 0 < openFrames s c up → fld s Pg.mge 0x408 7 0 ≤ (mapAt s k).heat →
    s.mge.moves.countP (fun m => decide (4 ≤ m.cls) && decide (m.phase = .queued)) < 4096 →
    s.mge.lastPolicy + 1000000 * fld s Pg.mge 0x408 31 16 ≤ s.now →
    exec .policyPeriod s = .next { s with mge := { s.mge with moves := s.mge.moves ++ [newMove k 5 up false false], lastPolicy := s.now } })

/-- HINT in HINTED mode on one slab: CLEAR removes the context's vote; a wish for a slab without a frame is kept as a vote; a wish for a
higher tier with an unused frame queues the class-4 move and waits for it; outside HINTED mode a hint is not honoured. With ACTION
TMASK a slab that lies in a permitted tier gets its new mask.
Choices of the model that it meets: log entry 18. -/
def Obligations.HintAndTmask : Prop :=
  (∀ (r : RingCmd) (ctx dest k target : Nat) (want : Tier) (s v : State), Tidy v → Begins r Opc.hint s v → OwnCtx r ctx v →
    hintWaits v r = false → slabAligned dest = true → k = dest / 2 ^ 24 → hintTier target = some want →
    (checkRun (ringAsk r.fn ctx false false) k 1 v).1 = none → votesUsed v < 1048576 →
    (v.dev.profile.placement ≠ 1 →
      exec (.hint r ctx dest 1 0 target) s = .next (complete r Opc.hint .hintNotHonoured 0 v)) ∧
    (v.dev.profile.placement = 1 →
      (∃ u, exec (.hint r ctx dest 1 3 target) s = .next u ∧ voteAt u k ctx = none ∧ hintWaits u r = false ∧
        u.ple = v.ple ∧ u.mem = v.mem) ∧
      ((mapAt v k).tier = none → tierBit (mapAt v k).tmask want = true → ¬ (want = .t3 ∧ t3Excluded v k = true) →
        ∃ u, exec (.hint r ctx dest 1 0 target) s = .next u ∧
          voteAt u k ctx = some { want := want, hint := none, stoodAtSwap := false } ∧ hintWaits u r = false ∧
          u.ple = v.ple ∧ u.mem = v.mem) ∧
      ((mapAt v k).tier = some .t2 → want = .t1 → tierBit (mapAt v k).tmask .t1 = true → votesOn v k = [] →
        rightOf v ctx (mapAt v k) ≠ .none → moveOf v k = none → 0 < openFrames v (ownerOf v (mapAt v k)) .t1 →
        v.mge.moves.countP (fun m => decide (4 ≤ m.cls) && decide (m.phase = .queued)) < 4096 →
        ∃ u, exec (.hint r ctx dest 1 0 target) s = .next u ∧
          u.mge.moves = v.mge.moves ++ [newMove k 4 .t1 false false] ∧ (voteAt u k ctx).isSome = true ∧ hintWaits u r = true ∧
          u = { v with mge := u.mge }))) ∧
  (∀ (r : RingCmd) (ctx dest k tmask : Nat) (t : Tier) (s v : State), Tidy v → Begins r Opc.hint s v → OwnCtx r ctx v →
    hintWaits v r = false → slabAligned dest = true → k = dest / 2 ^ 24 → 1 ≤ tmask → tmask < 8 →
    (checkRun (ringAsk r.fn ctx false false) k 1 v).1 = none → owns v ctx (mapAt v k) = true →
    ¬ (tmask = 4 ∧ t3Excluded v k = true) → (mapAt v k).tier = some t → tierBit tmask t = true → votesOn v k = [] →
    moveOf v k = none → hallFail (modMap k (fun e => { e with tmask := tmask }) v) ctx = none →
    ∃ u, exec (.hintTmask r ctx dest 1 tmask) s = .next u ∧ mapAt u k = { mapAt v k with tmask := tmask } ∧
      MapOutside [k] v u ∧ hintWaits u r = false ∧ u.mem = v.mem ∧ u.mge.moves = v.mge.moves)

/-- The steps of a move: it starts with the slab MOVING and a frame G; a copy pass with few dirty blocks leaves is followed by
the hold; the flip gives the slab tier and frame of G, and its old home in T3 is free at once; a hold that has lasted HOLD_MAX_US
gives the move up.
Choices of the model that it meets: log entries 6, 33. -/
def Obligations.MoveSteps : Prop :=
  (∀ (s t : State) (m : Move) (g : Nat), Tidy s → Awake s → activeMoves s < fld s Pg.mge 0x410 31 26 →
    (queueOrder s).find? (fun m => (startFrame m s).isSome) = some m → startFrame m s = some (g, t) →
    moveOf s m.slab = some m →
    ∃ u, exec (.moveStart m.slab) s = .next u ∧ (mapAt u m.slab).state = .moving ∧ (mapAt u m.slab).tier = (mapAt s m.slab).tier ∧
      (∃ n, moveOf u m.slab = some n ∧ n.phase = .copying ∧ n.frame = some g ∧ n.dirty = [] ∧ n.target = m.target)) ∧
  (∀ (s : State) (m : Move) (k : Nat) (t : Tier), Awake s → moveOf s k = some m → m.phase = .copying → s.plants = [] →
    (mapAt s k).tier = some t → t ≠ .t3 → m.target ≠ .t3 → m.dirty.length ≤ fld s Pg.mge 0x410 15 4 →
    ∃ u n, exec (.copyPassDone k) s = .next u ∧ moveOf u k = some n ∧ n.phase = .holding ∧ n.programmed = true ∧
      n.holdSince = s.now ∧ u = { s with mge := { s.mge with moves := u.mge.moves } }) ∧
  (∀ (s : State) (m : Move) (k g : Nat) (t : Tier), Tidy s → Awake s → moveOf s k = some m → m.phase = .holding →
    m.programmed = true → m.frame = some g → (mapAt s k).tier = some t →
    ∃ u, exec (.moveFlip k) s = .next u ∧ (mapAt u k).tier = some m.target ∧ (mapAt u k).frame = g ∧
      (mapAt u k).owner = (mapAt s k).owner ∧
      (t ≠ .t3 → ({ slab := k, tier := t, frame := (mapAt s k).frame } : OldFrame) ∈ u.mge.oldFrames) ∧
      (t = .t3 → m.target ≠ .t3 → slotAt u (mapAt s k).frame = none)) ∧
  (∀ (s : State) (m : Move) (k : Nat) (t : Tier), Tidy s → Awake s → moveOf s k = some m → m.phase = .holding →
    (mapAt s k).tier = some t → t ≠ .t3 → (mapAt s k).state = .moving → s.mge.held = [] → m.cls < 4 → s.mge.moves = [m] →
    m.holdSince + 1000 * fld s Pg.mge 0x410 23 16 ≤ s.now →
    ∃ u, exec (.holdTimeout k) s = .next u ∧ (mapAt u k).tier = some t ∧ (mapAt u k).frame = (mapAt s k).frame ∧
      (mapAt u k).state = (if (mapAt s k).sealBit then .sealed else .resident) ∧
      u.mge.moves = [{ newMove k m.cls m.target m.toPool m.onWrite with aborts := m.aborts + 1 }])

/-- An old home in T1 or T2 goes to zeroing once its reads have ended; a slab that has dwelt in a pool frame is queued for the
lowest tier with an unused frame; MGE_GUARANTEE takes a value that the floors admit and keeps its value otherwise. -/
def Obligations.MoveLeftovers : Prop :=
  (∀ (s : State) (o : OldFrame), Awake s → s.mge.oldFrames = [o] → o.tier ≠ .t3 → s.mge.held = [] → s.mge.moves = [] →
    s.ple.drains = [] →
    exec (.oldFrameRelease o.slab) s = .next { s with mge := { s.mge with oldFrames := [],
                                                                          zeroing := s.mge.zeroing ++ [(o.tier, o.frame)] } }) ∧
  (∀ (s : State) (k : Nat) (t : Tier), Awake s → (mapAt s k).pool = true → moveOf s k = none →
    s.mge.swaps.any (fun p => decide (p.1 = k)) = false → restedFrom s k ≤ s.now →
    ((permitted s k).reverse).find? (fun t => decide (0 < openFrames s (ownerOf s (mapAt s k)) t)) = some t →
    exec (.poolDwellExpiry k) s = .next { s with mge := { s.mge with moves := s.mge.moves ++ [newMove k 1 t false false] } }) ∧
  (∀ (s : State) (w p1 p2 p3 : Nat), Tidy s → Owns s w Pg.mge → (pageHdr s Pg.mge).unlocked = true →
    p1 ≤ 50 → p2 ≤ 50 → p3 ≤ 50 →
    (let v : Word := BitVec.ofNat 64 (p1 + p2 * 2 ^ 8 + p3 * 2 ^ 16)
     ∃ u, exec (.mgeGuaranteeWrite w v) s = .next u ∧
       reg u Pg.mge 0x418 = (if admitFail s (setReg Pg.mge 0x418 v s) = none then v else reg s Pg.mge 0x418) ∧
       RegOnly Pg.mge 0x418 s u ∧ u.mem = s.mem ∧ u.ple = s.ple))
/-! The flash tier -/

/-- FLASH_MOUNT_DONE brings each group to the state that its targets allow and each channel to what discovery found, under a new
media key; the stripe of a slab on its way into T3 that has programmed is in the log, and without a free superblock it waits; a failed
program or erase puts the erase block out of use, and the rows of the slab that a failed program concerns are to be written again; a
die that has stopped responding or has failed in DIE_FAULTS blocks is retired and reported as CORRECTED.
Choices of the model that it meets: log entries 7, 35. -/
def Obligations.FlashMountProgramRetire : Prop :=
  (∀ (s : State) (rep : FlashReport), Tidy s → Awake s → s.fmg.mounting = true →
    ∃ u, exec (.flashMountDone rep) s = .next u ∧ u.fmg.mounting = false ∧ u.fmg.reason = mountReason rep ∧
      u.fmg.scanned = (mountChans rep s).fmg.scanned ∧ u.fmg.mediaKey = s.draws ∧ u.fmg.nextGen = 0 ∧
      (∀ g, g < 2 → (fgroup u g).state = groupOutcome s g rep) ∧
      (∀ c, c < 32 → (flcAt u c).present = (mountChan s rep c).1.present ∧ (flcAt u c).usable = (mountChan s rep c).1.usable ∧
        (flcAt u c).trained = (mountChan s rep c).1.trained ∧ (flcAt u c).family = (mountChan s rep c).1.family)) ∧
  (∀ (s : State) (m : Move) (k g : Nat), Awake s → moveOf s k = some m → m.frame = some g → m.target = .t3 → m.phase ≠ .queued →
    m.programmed = false →
    (programSlot g m.copied m.rewrite s = none → exec (.flashProgramDone k) s = .next s) ∧
    (∀ t, programSlot g m.copied m.rewrite s = some t →
      ∃ u, exec (.flashProgramDone k) s = .next u ∧ moveOf u k = some { m with programmed := true, rewrite := [] } ∧
        slotAt u g = slotAt t g ∧ u.mem = s.mem ∧ u.ple = s.ple)) ∧
  (∀ (s : State) (k ch sb n : Nat), Tidy s → Awake s → ch < 32 → (sbAt (fgroup s (ch / 16)) sb).blocks[ch % 16]? = some n →
    (blockAt (flcAt s ch) n).state = .used →
    ∃ u, exec (.programFailure k ch sb) s = .next u ∧ (blockAt (flcAt u ch) n).state = .bad ∧ u.mem = s.mem ∧
      counter u Pg.fmg 0xE40 = (counter s Pg.fmg 0xE40 + 1) % 2 ^ 64 ∧
      counter u Pg.fmg 0xE48 = (counter s Pg.fmg 0xE48 + 1) % 2 ^ 64 ∧
      (∀ m g x, moveOf s k = some m → m.target = .t3 → m.phase ≠ .queued → m.frame = some g → slotAt s g = some x →
        ∃ y, moveOf u k = some y ∧ y.programmed = false ∧ ∀ i ∈ rowsIn x [sb], i ∈ y.rewrite)) ∧
  (∀ (s : State) (g ch n : Nat), Tidy s → Awake s → g < 2 → ch < 16 → onDie (flcAt s (16 * g + ch)) n = true →
    (blockAt (flcAt s (16 * g + ch)) n).state ≠ .bad →
    ∃ u, exec (.eraseFailure g ch n) s = .next u ∧ (blockAt (flcAt u (16 * g + ch)) n).state = .bad ∧
      counter u Pg.fmg 0xE48 = (counter s Pg.fmg 0xE48 + 1) % 2 ^ 64 ∧ u.mem = s.mem ∧ u.mge = s.mge) ∧
  (∀ (s : State) (l : DieLoss), Tidy s → Awake s → l.channel < 32 → (fgroup s (l.channel / 16)).state = .online →
    l.die ∈ diesOf (flcAt s l.channel) →
    (l.dead = true ∨ fld s Pg.fmg 0x408 31 24 ≤ faultyBlocks s (flcAt s l.channel) l.die →
      ∃ u e, exec (.dieRetire l) s = .next u ∧ (flcAt u l.channel).retired = (flcAt s l.channel).retired ++ [l.die] ∧
        l.die ∉ diesOf (flcAt u l.channel) ∧ u.router.getLast? = some e ∧ e.sev = .corrected ∧ e.page = Pg.fmg ∧ u.mem = s.mem) ∧
    (l.dead = false → faultyBlocks s (flcAt s l.channel) l.die < fld s Pg.fmg 0x408 31 24 → exec (.dieRetire l) s = .next s))

/-- Collection writes a slab's rows again at the head of the log. A recovery step that fails leads to the next one, and the last to
the rebuild, with the ladders of the other failing codewords of the row; a recovered codeword's frame is relocated at once; a codeword
that the rebuild cannot bring back is entered in the poison record; a CXL.mem read that has waited 120 µs is answered with poison.
Choices of the model that it meets: log entry 7. -/
def Obligations.FlashCollectAndRecover : Prop :=
  (∀ (s t : State) (g f : Nat) (x : Slot) (rows : List (Nat × Nat)), Tidy s → Awake s → g < 2 → (fgroup s g).state = .online →
    gcUrgent s g = false ∨ movesFirst s = false → gcFrame s g = some f → slotAt s f = some x → s.plants = [] →
    scanKeys s .t3 f = [] → appendRows x.group 69 s = some (rows, t) →
    ∃ u, exec (.gcRelocate g) s = .next u ∧ slotAt u f = some { x with where_ := toExtents rows } ∧
      f ∉ u.fmg.relocating ∧ u.mem = s.mem ∧ u.descs = s.descs ∧ u.ple = s.ple) ∧
  (∀ (s : State) (k b : Nat) (r : Recovery), Tidy s → Awake s → recoveryOf s k b = some r → (mapAt s k).tier = some .t3 →
    (r.rebuild = false →
      (r.step + 1 < fld s Pg.fmg 0x410 3 0 →
        ∃ u, exec (.retryStepDone k b false) s = .next u ∧
          recoveryOf u k b = some { r with step := r.step + 1, soft := softStep s (r.step + 1) } ∧
          u = { s with fmg := { s.fmg with recoveries := u.fmg.recoveries } }) ∧
      (fld s Pg.fmg 0x410 3 0 ≤ r.step + 1 → rebuildsOn s k b = [] →
        (rowMates b).any (fun x => pageLost s (mapAt s k).frame x) = false →
        ∃ u, exec (.retryStepDone k b false) s = .next u ∧
          recoveryOf u k b = some { r with step := r.step + 1, rebuild := true } ∧
          (∀ x ∈ failingMates s (mapAt s k).frame b, (recoveryOf u k x).isSome = true) ∧ u.mem = s.mem ∧ u.descs = s.descs) ∧
      (r.waiters = [] → s.ple.leaving = [] → recoveredOk s k b = true →
        ∃ u, exec (.retryStepDone k b true) s = .next u ∧ recoveryOf u k b = none ∧ (mapAt s k).frame ∈ u.fmg.relocating ∧
          u.mem = s.mem ∧ u.descs = s.descs)) ∧
    (r.rebuild = true → (rowMates b).any (fun x => pageLost s (mapAt s k).frame x) = false →
      failingMates s (mapAt s k).frame b = [] → s.ple.leaving = [] →
      (s.fmg.poisonRec.length < 65536 →
        ∃ u, exec (.rebuildDone k b false) s = .next u ∧ recoveryOf u k b = none ∧ flashPoison u k b = true ∧
          u.mem = s.mem ∧ u.descs = s.descs) ∧
      (r.waiters = [] → recoveredOk s k b = true →
        ∃ u, exec (.rebuildDone k b true) s = .next u ∧ recoveryOf u k b = none ∧ (mapAt s k).frame ∈ u.fmg.relocating ∧
          u.mem = s.mem ∧ u.descs = s.descs))) ∧
  (∀ (s : State) (port dpa : Nat) (r : Recovery) (p : Nat × Part × Nat), Awake s → s.ple.leaving = [] → s.ple.drains = [] →
    s.fmg.recoveries.find? (fun r => r.waiters.any (fun w => decide (w.src = .cxl port (dpa / 64 * 64)) &&
      decide (w.since + 120000 ≤ s.now))) = some r →
    dpaOf s port (dpa / 64 * 64) = some p →
    ∃ u, exec (.cxlFlashDeadline port dpa) s = .next u ∧ u.sent = s.sent ++ [.cxlPoison port (dpa / 64 * 64)] ∧
      u.mem = s.mem ∧ u.descs = s.descs)

/-! DRAM controllers -/

/-- PANIC_RAISE below PANIC_LO begins panic and is counted once; PANIC_CLEAR at PANIC_HI ends it. A channel with self-refresh enabled that
has been idle for SR_IDLE_US enters it in two steps; a request that meets the entry ends it, one that meets IN_SR starts the exit, and the exit leaves no debt
and no bank records.
Choices of the model that it meets: log entries 36, 39, 92. -/
def Obligations.PanicAndSelfRefresh : Prop :=
  (∀ (s : State) (c fill : Nat), Tidy s → Awake s → c < 24 →
    (fill < fld s (ctrlPage c) 0x498 7 0 →
      ∃ u, exec (.panicRaise c fill) s = .next u ∧ ctrlAt u c = { ctrlAt s c with fill := fill, panic := true } ∧
        (∀ d, d ≠ c → ctrlAt u d = ctrlAt s d) ∧
        counter u (ctrlPage c) 0xE20 = (if (ctrlAt s c).panic then counter s (ctrlPage c) 0xE20
          else (counter s (ctrlPage c) 0xE20 + 1) % 2 ^ 64) ∧
        u = { s with dram := { s.dram with ctrls := u.dram.ctrls }, cnts := u.cnts, ice := { s.ice with deferred := u.ice.deferred } }) ∧
    (fld s (ctrlPage c) 0x498 15 8 ≤ fill →
      ∃ u, exec (.panicClear c fill) s = .next u ∧
        ctrlAt u c = { ctrlAt s c with fill := min 100 fill, panic := false } ∧ (∀ d, d ≠ c → ctrlAt u d = ctrlAt s d) ∧
        u = { s with dram := { s.dram with ctrls := u.dram.ctrls }, cnts := u.cnts, ice := { s.ice with deferred := u.ice.deferred } })) ∧
  (∀ (s : State) (k : Nat), Tidy s → Awake s →
    (let c := chanAt s k
     c.online = true → flag s (dramPage k) 0x490 0 = true → waitingReqs c = [] → (∀ d ∈ c.debt, d = 0) → s.rlg.streams = [] →
      c.lastReq + 1000 * fld s (dramPage k) 0x490 31 16 ≤ s.now →
      ∃ u, exec (.srEntry k) s = .next u ∧ u = { s with dram := { s.dram with chans := u.dram.chans }, cnts := u.cnts } ∧
        (∀ j, j ≠ k → chanAt u j = chanAt s j) ∧
        chanAt u k = { c with sr := match c.sr with | .active => .entering | .entering => .inSr | x => x }) ∧
    (∃ u, exec (.srExit k) s = .next u ∧ u = { s with dram := { s.dram with chans := u.dram.chans }, cnts := u.cnts } ∧
      (∀ j, j ≠ k → chanAt u j = chanAt s j) ∧
      chanAt u k = (match (chanAt s k).sr with
        | .active => { chanAt s k with lastReq := s.now }
        | .entering => { chanAt s k with sr := .active, lastReq := s.now }
        | .inSr => { chanAt s k with sr := .exiting, lastReq := s.now }
        | .exiting => { chanAt s k with sr := .active, debt := (chanAt s k).debt.map (fun _ => 0), banks := [] })))

/-- Each interval of a rank, tREFI of the range in force, raises its debt by one; a refresh beyond the greatest postponement is issued at once, one at it unless
panic applies, and lowers the debt by one; a controller's range rises with one reading (at a DMC the highest range over its ranks), its channels' debts scaled, and falls
only with the second reading in succession.
Choices of the model that it meets: log entries 36, 92. -/
def Obligations.RefreshDebtAndRange : Prop :=
  (∀ (s : State) (k rank : Nat), Tidy s → Awake s → (chanAt s k).online = true → rank < (chanAt s k).debt.length →
    (chanAt s k).sr ≠ .inSr → tget 0 (chanAt s k).refAt rank + 3900 / 2 ^ (ctrlAt s (chanCtrl k)).range ≤ s.now →
    ∃ u, exec (.refreshInterval k rank) s = .next u ∧ (chanAt u k).debt = (chanAt s k).debt.modify rank (· + 1) ∧
      chanAt u k = { chanAt s k with debt := (chanAt u k).debt, refAt := tput 0 (chanAt s k).refAt rank s.now } ∧ (∀ j, j ≠ k → chanAt u j = chanAt s j) ∧
      u = { s with dram := { s.dram with chans := u.dram.chans }, cnts := u.cnts }) ∧
  (∀ (s : State) (k rank : Nat), Tidy s → Awake s → (chanAt s k).online = true →
    (chanAt s k).sr = .active → 0 < (chanAt s k).debt.getD rank 0 →
    (postponeMax s (chanCtrl k) < (chanAt s k).debt.getD rank 0 ∨
      (chanAt s k).debt.getD rank 0 = postponeMax s (chanCtrl k) ∧ panicApplies s k = false) →
    ∃ u, exec (.refreshIssue k rank) s = .next u ∧ (chanAt u k).debt = (chanAt s k).debt.modify rank (· - 1) ∧
      (∀ j, j ≠ k → chanAt u j = chanAt s j) ∧ u = { s with dram := { s.dram with chans := u.dram.chans }, cnts := u.cnts }) ∧
  (∀ (s : State) (c : Nat) (readings : List Nat), Tidy s → Awake s → c < 24 → readings ≠ [] →
    (ctrlAt s c).readAt = 0 ∨ (ctrlAt s c).readAt + 1000 * fld s (ctrlPage c) 0x488 23 8 ≤ s.now + 1 →
    ((ctrlAt s c).range < rangeOf c readings →
      ∃ u, exec (.rangeReading c readings) s = .next u ∧ (ctrlAt u c).range = rangeOf c readings ∧ (ctrlAt u c).lower = 0 ∧
        ∀ k ∈ chansOf c, (chanAt u k).debt = (chanAt s k).debt.map (· * 2 ^ (rangeOf c readings - (ctrlAt s c).range))) ∧
    (rangeOf c readings < (ctrlAt s c).range →
      ∃ u, exec (.rangeReading c readings) s = .next u ∧
        (ctrlAt u c).range = (if (ctrlAt s c).lower = 0 then (ctrlAt s c).range else rangeOf c readings) ∧
        ((ctrlAt s c).lower = 0 → (ctrlAt u c).lower = 1 ∧ u.dram.chans = s.dram.chans)))

/-- A channel serves the request that its rules pick and drops it from its queues; a request that arrives in self-refresh is
accepted and starts the exit; one that has waited AGE_CAP_NS is aged.
Choices of the model that it meets: log entries 36, 39. -/
def Obligations.ControllerServes : Prop :=
  (∀ (s : State) (k : Nat) (r : DramReq), Tidy s → Awake s → (chanAt s k).online = true → (chanAt s k).sr = .active →
    inCatchup s k = false → nextReq (panicApplies s k) (chanAt s k) = some r →
    ∃ u, exec (.controllerIssue k []) s = .next u ∧ r ∈ waitingReqs (chanAt s k) ∧
      (∀ x ∈ waitingReqs (chanAt u k), x.id ≠ r.id) ∧
      (∀ x ∈ waitingReqs (chanAt s k), x.id ≠ r.id → x ∈ waitingReqs (chanAt u k)) ∧
      (∀ j, j ≠ k → chanAt u j = chanAt s j) ∧ u.mem = s.mem ∧
      u = { s with dram := { s.dram with chans := u.dram.chans }, cnts := u.cnts, ice := { s.ice with deferred := u.ice.deferred } }) ∧
  (∀ (s : State) (k : Nat) (r : DramReq), Tidy s → Awake s → (chanAt s k).online = true → (chanAt s k).sr = .inSr →
    r.write = false → (chanAt s k).wbuf = [] →
    ∃ u, exec (.controllerIssue k [r]) s = .next u ∧ (chanAt u k).sr = .exiting ∧
      (chanAt u k).queue = (chanAt s k).queue ++ [{ r with time := s.now, seq := (chanAt s k).accepted, aged := false }]) ∧
  (∀ (s : State) (k : Nat) (r : DramReq), Tidy s → Awake s → r ∈ waitingReqs (chanAt s k) → ripe s k r = true →
    ∃ u, exec (.agePromote k r.id) s = .next u ∧ { r with aged := true } ∈ waitingReqs (chanAt u k) ∧
      (∀ x ∈ waitingReqs (chanAt u k), x.id = r.id → x.aged = true) ∧
      counter u (dramPage k) 0xE18 = (counter s (dramPage k) 0xE18 + 1) % 2 ^ 64)

/-- R163: output bit j of the address hash is the parity of the tier-address bits set in HASH_MASKj; address bits at or above
the tier's width read as zero, so only mask bits below the width count. -/
def Obligations.HashOutputs : Prop :=
  ∀ (s : State) (t2 : Bool) (a j width : Nat), width ≤ 48 → a < 2 ^ width →
    hashOut s t2 a j =
      ((List.range width).filter (fun i => a.testBit i && (hashMask s t2 j).testBit i)).length % 2

/-- A hash mask of instance 0 takes a value that keeps the masks' rules while its tier is empty and no floor falls below the guarantees
admitted on it; it is refused while its tier is not empty, and a value that breaks the rules is refused.
A lost channel takes no request any more, and every block of its slabs is poisoned.
Choices of the model that it meets: log entries 5, 37. -/
def Obligations.HashMasksAndLostChannels : Prop :=
  (∀ (s : State) (w n m : Nat), Tidy s → Owns s w Pg.smc → (pageHdr s Pg.smc).unlocked = true → n < 13 → m < 2 ^ 48 →
    outputAbsent s false n = false →
    ∃ u, exec (.hashMaskWrite w Pg.smc (0x400 + 8 * n) (BitVec.ofNat 64 m)) s = .next u ∧
      RegOnly Pg.smc (0x400 + 8 * n) s u ∧ HdrOnly Pg.smc s u ∧ u = { s with regs := u.regs, pages := u.pages, cnts := u.cnts, rlg := { s.rlg with refusal := u.rlg.refusal } } ∧
      (tierEmpty s .t1 = true → masksOk false (outputAbsent s false) (fun k => if k = n then m else hashMask s false k) = true →
        (∀ c ∈ ctrlIndices, floorOf s c ≤ floorOf (putMask false n m s) c ∨
          demandOf (putMask false n m s) c ≤ floorOf (putMask false n m s) c) →
        reg u Pg.smc (0x400 + 8 * n) = BitVec.ofNat 64 m) ∧
      (tierEmpty s .t1 = true → masksOk false (outputAbsent s false) (fun k => if k = n then m else hashMask s false k) = false →
        reg u Pg.smc (0x400 + 8 * n) = reg s Pg.smc (0x400 + 8 * n) ∧
        pageHdr u Pg.smc = refusedHdr kindRefusedValue .accessDenied (0x400 + 8 * n) w (accessed w (pageHdr s Pg.smc))) ∧
      (tierEmpty s .t1 = false → reg u Pg.smc (0x400 + 8 * n) = reg s Pg.smc (0x400 + 8 * n) ∧
        pageHdr u Pg.smc = refusedHdr kindRefusedState .accessDenied (0x400 + 8 * n) w (accessed w (pageHdr s Pg.smc)))) ∧
  (∀ (s : State) (k : Nat), Tidy s → Awake s → k < 256 → (chanAt s k).online = true → s.mge.moves = [] → s.mge.held = [] →
    ∃ u, exec (.channelLost k) s = .next u ∧ (chanAt u k).online = false ∧ waitingReqs (chanAt u k) = [] ∧
      (∀ j, j ≠ k → chanAt u j = chanAt s j) ∧
      ∀ p ∈ s.ple.map, p.2.tier = some .t1 → p.2.releasing = false → frameChan s .t1 p.2.frame = k →
        ∀ b, b < 4096 → (descAt u (homeKey .t1 p.2.frame b)).state = .poisoned)

/-! Integrity -/

/-- Icing reads the next block of its tier, and at the last one begins its next pass; it changes no data. A deferred request
ages in catch-up after DEFER_MAX_US. The end of a recount gives each table in use the number of descriptors that name it. A word that reached THRESH is REWRITTEN, or HARD and spared when its read-back
corrects it again; an entry that has not changed within WINDOW_H goes; an armed injection plants its error in a block of the writer's own.
Choices of the model that it meets: log entries 5, 6, 7, 38, 40. -/
def Obligations.IcingAndToffeeList : Prop :=
  ((∀ (s : State) (t : Tier) (again : Bool), Awake s → s.dev.memEnabled = true → (patrolOf s t).active = true →
    ∃ u, exec (.icingBlock ⟨t, again⟩) s = .next u ∧ u.mem = s.mem ∧ u.ple.map = s.ple.map ∧
      (match nextPatrolled s t (patrolOf s t).pos with
       | none => patrolOf u t = { patrolOf s t with passes := (patrolOf s t).passes + 1, began := s.now, pos := 0, lag := 0,
                                                    catchup := false }
       | some k => (patrolOf u t).pos = k + 1 ∧ (patrolOf u t).passes = (patrolOf s t).passes)) ∧
  (∀ (s : State) (k : Nat) (r : DramReq), Tidy s → Awake s → (k, r.id) ∈ s.ice.deferred →
    (patrolOf s (if k < 256 then .t1 else .t2)).catchup = true → r ∈ waitingReqs (chanAt s k) →
    r.time + 1000 * fld s Pg.ice 0x408 31 16 ≤ s.now →
    ∃ u, exec (.iceDeferExpiry k r.id) s = .next u ∧ { r with aged := true } ∈ waitingReqs (chanAt u k) ∧
      (∀ j, j ≠ k → chanAt u j = chanAt s j) ∧ u.mem = s.mem) ∧
  (∀ s : State, Tidy s → Awake s → s.ice.recount = true →
    ∃ u, exec .refsRecountDone s = .next u ∧ u.ice.recount = false ∧ u.mem = s.mem ∧ u.descs = s.descs ∧
      ∀ id, (tableAt s id).state = .live → countRefs s id ≠ 0 → (tableAt u id).refs = countRefs s id)) ∧
  ((∀ (s : State) (word : Nat) (e : Toffee) (sppr remap : Bool), Tidy s → Awake s → wordTier word ≠ .t3 →
    s.tfl.entries.find? (fun x => decide (x.word = word)) = some e → rewriteDue s e = true →
    (∃ u x, exec (.toffeeRewrite word false sppr remap) s = .next u ∧
      u.tfl.entries.find? (fun x => decide (x.word = word)) = some x ∧ x = { e with state := .rewritten, time := s.now } ∧
      word % 64 ∉ (plantAt u (word / 64)).corr ∧ u.mem = s.mem) ∧
    (∃ u x, exec (.toffeeRewrite word true sppr remap) s = .next u ∧
      u.tfl.entries.find? (fun x => decide (x.word = word)) = some x ∧ x.state = .hard ∧ x.spared = true ∧
      x.count = e.count + 1)) ∧
  (∀ (s : State) (word : Nat), Awake s →
    (∃ e ∈ s.tfl.entries, e.word = word ∧ e.time + 3600000000000 * fld s Pg.tfl 0x400 15 8 ≤ s.now) →
    ∃ u, exec (.toffeeExpire word) s = .next u ∧ u.tfl.entries = s.tfl.entries.filter (fun e => decide (e.word ≠ word)) ∧
      u = { s with tfl := { s.tfl with entries := u.tfl.entries }, cnts := u.cnts }) ∧
  (∀ (s : State) (w kind crumb block hb : Nat), Tidy s → Owns s w Pg.ice → (pageHdr s Pg.ice).unlocked = true → kind < 5 →
    crumb < 64 → block < 2 ^ 36 → injectHome s w kind crumb block = some hb →
    ∃ u, exec (.iceInject w (BitVec.ofNat 64 (2 ^ 63 + kind * 2 ^ 60 + crumb * 2 ^ 36 + block))) s = .next u ∧
      (kind = 0 → crumb ∈ (plantAt u hb).corr) ∧ (kind = 1 → crumb ∈ (plantAt u hb).ue) ∧
      (kind = 2 → (descAt u hb).crcA ≠ (descAt s hb).crcA) ∧ (kind = 3 → (descAt u hb).copyB ≠ (descAt s hb).copyB) ∧
      (kind = 4 → (plantAt u hb).descUe = true) ∧ u.mem = s.mem ∧
      (∀ k, k ≠ hb → plantAt u k = plantAt s k ∧ descAt u k = descAt s k)))

/-! Check-value units -/

/-- A data job: START loads the initial value, each data write feeds its bytes, FINISH leaves the check value in CVU_RESULT. A memory
job and a CHECK over bytes of a slab that reads as zeros give the check value of zeros; a CHECK that the scan engine does not accept
ends with CLAIM_DENIED.
Choices of the model that it meets: log entries 42, 75, 89. -/
def Obligations.CvuJobs : Prop :=
  (∀ (s : State) (w n k : Nat) (d : Word), Tidy s → n < 4 → Owns s w (Pg.cvu + n) → (cvuAt s n).state ≠ .running → cvuOpen s n = true →
    1 ≤ k → k ≤ 8 →
    ∃ u v x, exec (.cvuJobStart w n (BitVec.ofNat 64 (2 ^ 63 + 2 ^ 60 + k * 2 ^ 20))) s = .next u ∧
      cvuAt u n = { cvuAt s n with state := .running, reg := (cvuPar s n).init, memory := false, left := 0, off := 0, changed := false } ∧
      u = { s with regs := u.regs, pages := u.pages, cvus := u.cvus } ∧
      exec (.cvuDataWrite w n d) u = .next v ∧
      cvuAt v n = { cvuAt u n with reg := cvuFeed (cvuPar s n) (cvuPar s n).init (leBytes k d.toNat), off := k } ∧
      v = { u with pages := v.pages, cvus := v.cvus, cnts := v.cnts } ∧
      exec (.cvuJobFinish w n (BitVec.ofNat 64 (2 ^ 62 + 2 ^ 60 + k * 2 ^ 20))) v = .next x ∧ (cvuAt x n).state = .done ∧
      (cvuAt x n).result = cvuFinal (cvuPar s n) (cvuFeed (cvuPar s n) (cvuPar s n).init (leBytes k d.toNat)) ∧
      (∀ m, m ≠ n → cvuAt x m = cvuAt s m) ∧ x = { v with regs := x.regs, pages := x.pages, cvus := x.cvus, cnts := x.cnts }) ∧
  ((∀ (s : State) (n : Nat), Sound s → Awake s → (cvuAt s n).state = .running → (cvuAt s n).memory = true →
    1 ≤ (cvuAt s n).left → (cvuAt s n).next % 4096 + (cvuAt s n).left ≤ 4096 → (cvuAt s n).next < 2 ^ 48 →
    accessCheck s (ringAsk (ctxFn s (cvuAt s n).ctx) (cvuAt s n).ctx false false) ((cvuAt s n).next / 2 ^ 24) = none →
    readsZero (mapAt s ((cvuAt s n).next / 2 ^ 24)) = true →
    ∃ u, exec (.cvuJobDone n) s = .next u ∧ (cvuAt u n).state = .done ∧ (cvuAt u n).left = 0 ∧
      (cvuAt u n).result = cvuFinal (cvuPar s n) (cvuFeed (cvuPar s n) (cvuAt s n).reg (List.replicate (cvuAt s n).left 0)) ∧
      u.mem = s.mem ∧ u.ple = s.ple) ∧
  (∀ (r : RingCmd) (ctx preset flags width addr result length : Nat) (poly init : Word) (p : CvuPar) (s v : State),
    Begins r Opc.check s v → OwnCtx r ctx v → checkPar preset flags width poly init = some p → flags.testBit 0 = false →
    checkOperands 0 flags addr result length = true → addr % 4096 + length ≤ 4096 →
    (List.range 4).all (fun n => !(pageHdr v (Pg.cvu + n)).enable) = false →
    (∀ y, acceptCheck r v = .error y →
      exec (.check r ctx preset 0 flags width addr result length poly init) s = .next (complete r Opc.check .claimDenied 0 y)) ∧
    (∀ x n, acceptCheck r v = .ok x → checkUnit x r = some n →
      accessCheck v (ringAsk r.fn ctx false false) (addr / 2 ^ 24) = none → readsZero (mapAt v (addr / 2 ^ 24)) = true →
      ∃ u, exec (.check r ctx preset 0 flags width addr result length poly init) s =
        .next (settleCvuScan (complete r Opc.check .ok 0 u)) ∧
      u.sent = v.sent ++ [.hostWrite r.fn result (leBytes 8 (cvuFinal p (cvuFeed p p.init (List.replicate length 0))))] ∧
      u.mem = v.mem ∧ u.ple = v.ple)))

/-! Regulator, pace, voltage, power and temperature -/

/-- Pace and its shortfall, after 10 µs; STEP_US after the last request the voltage moves one step within its bounds, up while pace is
below the floor target; power samples, and the
AVSBus fault after a third transaction without an answer; WARN and HOT begin at their thresholds and end 3 °C below them; the
ceiling falls by 10 mV a step while WARN is in force; a thermal trip is taken over with cause 4; the comparator of an envelope puts
it in force; a window of the regulator gives each master its guarantee and its part of the remainder, on that controller alone.
Choices of the model that it meets: log entries 6, 7, 44, 45. -/
def Obligations.RegulatorPaceAndPower : Prop :=
  (∀ s : State, Awake s →
    (∀ r : PaceReading, r.least < 65536 → r.sensor < 64 → r.mean < 65536 → s.rcp.loads = [] → s.rcp.arms = [] →
      ∃ u, exec (.paceSample r) s = .next u ∧
        u = { s with ppm := { s.ppm with
          paceMin := r.least, minSensor := r.sensor, paceMean := r.mean,
          paceSince := if s.ppm.paceMin < s.ppm.floorMbeat ↔ r.least < s.ppm.floorMbeat then s.ppm.paceSince else s.now } }) ∧
    (idleDropped s = false → s.ppm.shortfall = decide (s.ppm.floorMbeat ≤ s.ppm.paceMin) →
      s.ppm.paceSince + 10000 ≤ s.now →
      ∃ u e, exec .paceShortfall s = .next u ∧ u.ppm = { s.ppm with shortfall := !s.ppm.shortfall } ∧ u.router = s.router ++ [e] ∧
        e.page = Pg.ppm ∧ e.code = .paceShortfall ∧ u.mem = s.mem) ∧
    (s.ppm.avsFault = false → fld s Pg.ppm 0x400 51 41 ≤ fld s Pg.ppm 0x400 62 52 →
      s.ppm.lastStep + 1000 * fld s Pg.ppm 0x408 6 0 ≤ s.now →
      ∃ u, exec .voltageStep s = .next u ∧ u = { s with ppm := { s.ppm with vreq := u.ppm.vreq, lastStep := s.now }, cnts := u.cnts, sent := u.sent } ∧
        fld s Pg.ppm 0x400 51 41 ≤ u.ppm.vreq ∧ u.ppm.vreq ≤ fld s Pg.ppm 0x400 62 52 ∧
        u.sent = s.sent ++ [.voltage u.ppm.vreq] ∧
        (s.ppm.tj < fld s Pg.ppm 0x408 31 24 → idleDropped s = false → s.ppm.paceMin < floorTarget s →
          u.ppm.vreq = max (fld s Pg.ppm 0x400 51 41)
            (min (s.ppm.vreq + fld s Pg.ppm 0x400 16 12) (fld s Pg.ppm 0x400 62 52)))) ∧
    (∀ r : PowerReading, r.answered = true →
      ∃ u, exec (.powerSample r) s = .next u ∧ u.ppm.watts = r.watts ∧ u.ppm.senseMv = r.senseMv ∧
        u.ppm.window = r.watts :: s.ppm.window.take 999 ∧ u.ppm.unanswered = 0 ∧ u.ppm.vreq = s.ppm.vreq ∧ u.mem = s.mem) ∧
    (∀ r : PowerReading, r.answered = false → s.ppm.unanswered = 2 →
      ∃ u, exec (.powerSample r) s = .next u ∧ u.ppm.unanswered = 3 ∧ u.ppm.avsFault = true ∧ u.ppm.watts = s.ppm.watts ∧
        u.mem = s.mem)) ∧
  (∀ s : State, Awake s →
    (∀ tj sensor top : Nat, tj < 256 → sensor < 256 → top < 256 →
      ∃ u, exec (.thermalCheck tj sensor top) s = .next u ∧ u.ppm.tj = tj ∧ u.ppm.sensor = sensor ∧ u.ppm.stackMax = top ∧
        u.ppm.warn = (if s.ppm.warn then decide (fld s Pg.ppm 0x408 23 16 < tj + 3) else decide (fld s Pg.ppm 0x408 23 16 ≤ tj)) ∧
        u.ppm.hot = (if s.ppm.hot then decide (105 < tj + 3) else decide (105 ≤ tj)) ∧
        u.ppm.stop = (if s.ppm.stop then decide (fld s Pg.ppm 0x408 31 24 < tj + 3) else decide (fld s Pg.ppm 0x408 31 24 ≤ tj)) ∧
        u.mem = s.mem ∧ u.rcp = s.rcp) ∧
    (s.ppm.warn = true → s.ppm.lastCeil + 1000000 ≤ s.now →
      ∃ u, exec .ceilingStep s = .next u ∧ u = { s with ppm := { s.ppm with ceil := u.ppm.ceil, lastCeil := s.now } } ∧ u.ppm.ceil ≤ s.ppm.ceil ∧
        (Config.floorVoltage (floorTarget s) s.ppm.tj ≤ s.ppm.ceil - 10 → u.ppm.ceil = s.ppm.ceil - 10)) ∧
    (∃ u, exec .thermalTrip s = .next u ∧ u.sss.cause = 4 ∧ u.sss.fault = true ∧
      u.sss.state = (if s.ccx.trial then .takingOver else .safe) ∧ u.mem = s.mem ∧ u.ple = s.ple) ∧
    (∀ n t : Nat, n < 16 → tget none s.ftb.cmps n = some t → t ≤ s.now → (claimOf s n).user = .ppmEnvelope → s.ppm.envCmp = some n →
      ∃ u, exec (.comparatorFire n) s = .next u ∧
        u = { s with ftb := { s.ftb with cmps := u.ftb.cmps },
                     ppm := { s.ppm with envFired := true, envSamples := 0, envelope := s.ppm.envNext } })) ∧
  (∀ (s : State) (tr : Traffic), Awake s → trising 0 s.bwr.wins = true → tr.ctrl < 25 →
    ∃ u, exec (.bwrWindow tr) s = .next u ∧ u = { s with bwr := { s.bwr with wins := u.bwr.wins }, cnts := u.cnts } ∧
      (∀ m ∈ masters, (winAt u tr.ctrl m).grant = masterGuarantee s m tr.ctrl + remainderShare s tr.waited
          (listSum tr.moved * 1000 / windowNs s -
            listSum ((masters.filter (fun m => tr.waited.getD m false)).map (fun m => masterGuarantee s m tr.ctrl))) m ∧
        (winAt u tr.ctrl m).last16 = tr.moved.getD m 0 :: (winAt s tr.ctrl m).last16.take 15) ∧
      ∀ c m, c ≠ tr.ctrl → m < 32 → winAt u c m = winAt s c m)

/-! The sheet -/

/-- A step whose operands are there, whose results may be written and which no tile store fails forms them and writes each to its destination, in the order
of the step; the sheet then streams the step's operation, and the step is computed. A BDOT also keeps its scores.
Choices of the model that it meets: log entries 31, 49, 53. -/
def Obligations.SheetStepsCompute : Prop :=
  ∀ (s v w x : State) (r : Run) (q : Recipe) (st : StepRec) (os : List Operand) (l : List Result),
    Awake s → runStep s = some (r, q, st) → startable s r q st = true → r.sent = true → ResultsFit q st l v w x →
    (∀ m n k add o, st.op = .gemm m n k add o →
      readOperands r q (st.ins.zip ([m * k, k * n] ++ if add then [m * n] else [])) s = (.ok os, v) →
      formGemm q.img.elastic st.rtz m n k add o os = .results l → exec .gemm s = .next (stepFormed q st (resultsPut q r st l x))) ∧
    (∀ queries keys d e o so, st.op = .bdot queries keys d e o so →
      readOperands r q (st.ins.zip [queries * d, keys * d]) s = (.ok os, v) →
      formBdot q.img.elastic st.rtz queries keys d e o os = .results l →
      exec .bdot s = .next (stepFormed q st (keepScores st ((settleResults l x).1.map (·.2)) (resultsPut q r st l x)))) ∧
    (∀ queries keys d norm o, st.op = .swsum queries keys d norm o →
      readOperands r q (st.ins.zip [queries, keys * d]) s = (.ok os, v) →
      formSwsum q.img.elastic st.rtz queries keys d norm o
        (fun a b => decodeOut v.sht.scoreFmt (tget 0 v.sht.scores (scoreKey a b))) os = .results l →
      exec .swsum s = .next (stepFormed q st (resultsPut q r st l x))) ∧
    (∀ queries keys d k base, st.op = .topk queries keys d k base →
      readOperands r q (st.ins.zip [queries * d, keys * d]) s = (.ok os, v) →
      formTopk queries keys d k base os = .results l → exec .topk s = .next (stepFormed q st (resultsPut q r st l x))) ∧
    (∀ vectors len maximum o, st.op = .reduce vectors len maximum o →
      readOperands r q (st.ins.zip (List.replicate st.ins.length (ceilDiv vectors st.ins.length * len))) s = (.ok os, v) →
      formReduce q.img.elastic st.rtz vectors len maximum o os = .results l →
      exec .reduce s = .next (stepFormed q st (resultsPut q r st l x))) ∧
    (∀ rule len scalars o, st.op = .update rule len scalars o →
      readOperands r q (st.ins.zip (List.replicate (ruleIns rule) len)) s = (.ok os, v) →
      formUpdate st.rtz rule len scalars o os = .results l → exec .update s = .next (stepFormed q st (resultsPut q r st l x)))

/-- What steps form in exact mode, and an ENCODE step: each element of a matrix product is the rounded exact sum of its products,
whatever their order; k entries of TOPK come in falling order; ENCODE writes its blocks coded under its table.
Choices of the model that it meets: log entries 48, 49, 51, 53. -/
def Obligations.ExactResults : Prop :=
  (∀ (rtz : Bool) (m n k : Nat) (o : OutFmt) (a b : Operand) (e : Nat), pairRate a b ≠ 0 → mxWhole k [a, b] = true → k < 2 ^ 60 → e < m * n →
    ∃ l, formGemm false rtz m n k false o [a, b] = .results [⟨outBytes o, l⟩] ∧ l.length = m * n ∧
      l[e]? = some (Sum.out o rtz (.exact (((List.range k).map (fun x =>
        (a.elem (e / n * k + x)).mul (b.elem (downIndex b k n x (e % n))))).foldl Accum.add Accum.empty)))) ∧
  (∀ p l : List Val, p.Perm l → l.foldl Accum.add Accum.empty = p.foldl Accum.add Accum.empty) ∧
  (∀ (k : Nat) (l : List TopEntry), (∀ e ∈ l, e.score < 2 ^ 32 ∧ e.index < 2 ^ 48) → (topK k l).length = k ∧
    ∀ i, i + 1 < k → topBefore ((topK k l).getD (i + 1) ⟨0, 0⟩) ((topK k l).getD i ⟨0, 0⟩) = false) ∧
  (∀ (s v w x : State) (r : Run) (q : Recipe) (st : StepRec) (len id fmt : Nat) (src : Src) (dst : Dst) (bs : List (List Byte)),
    Awake s → runStep s = some (r, q, st) → st.op = .encode len id → startable s r q st = true → r.sent = true →
    st.ins = [src] → st.outs = [dst] → readRaw r q src len s = (.ok (fmt, bs), v) → dstAllowed q dst len v = (true, w) →
    prepareAll (dstSlabs q dst len) w = (true, x) → meetTiles x = (none, x) →
    exec .encode s = .next (stepFormed q st (putEncoded q r.step dst id fmt bs x)))

/-- A computed step completes: the run goes on to the next step, after a stall with a greater offset, and ends OK after the last one. A
step that is late stalls the run under its cause. A handshake that times out fails its tile and the step; a step fault ends the run
with RUN_FAULTED; between steps the row maps are rebuilt and the columns counted; zeroed tile stores end the run; an armed tile test
fails its tile.
Choices of the model that it meets: log entries 6, 52, 54, 55. -/
def Obligations.StepEndsAndFaults : Prop :=
  (∀ (s : State) (r : Run) (q : Recipe), Tidy s → Awake s → runRecipe s = some (r, q) → r.state = .running → r.computed = true →
    (r.step + 1 < q.img.steps.length →
      ∃ u, exec .stepComplete s = .next u ∧ u.sht = { s.sht with state := .idle } ∧
        u.rcp = { s.rcp with run := some { r with step := r.step + 1, sent := false, computed := false, waiting := 0, adopted := false,
                                                  buffer := r.buffer.filter (fun t => decide (r.step < t.step)) } } ∧
        counter u Pg.sht 0xE08 = (counter s Pg.sht 0xE08 + 1) % 2 ^ 64 ∧ u.mem = s.mem ∧ u.descs = s.descs) ∧
    (q.img.steps.length ≤ r.step + 1 →
      ∃ u x, exec .stepComplete s = .next u ∧ u.rcp.run = some x ∧ x.state = .ending ∧ x.outcome = .ok ∧ u.sht.zeroing = true ∧
        u.mem = s.mem ∧ u.sent = s.sent)) ∧
  (∀ (s : State) (r : Run) (q : Recipe), Awake s → runRecipe s = some (r, q) → r.state = .stalled → r.computed = true →
    r.step + 1 < q.img.steps.length →
    ∃ u x, exec .stepComplete s = .next u ∧ u.rcp.run = some x ∧ x.state = .running ∧ x.step = r.step + 1 ∧
      x.delta = r.delta + ceilDiv (s.now - r.stallAt) 1024 ∧ u.mem = s.mem) ∧
  (∀ (s : State) (r : Run) (q : Recipe) (st : StepRec) (held t0 c : Nat), Tidy s → Awake s → runStep s = some (r, q, st) → r.state = .running →
    r.t0 = some t0 → lowestCause (r.waiting ||| held ||| standingCauses s) = some c → c ≠ 7 →
    runTime r t0 (st.start + st.window - fromStart r q) < 4 * s.now →
    ∃ u x, exec (.stepDeadline held) s = .next u ∧ u.rcp.run = some x ∧
      x = { r with state := .stalled, stallAt := ceilDiv (runTime r t0 (st.start + st.window - fromStart r q)) 4, cause := c } ∧
      u.mge.stallCause = c ∧ u.mge.stallCtx = q.ctx ∧
      counter u Pg.mge (0xE48 + 8 * (c - 1)) = (counter s Pg.mge (0xE48 + 8 * (c - 1)) + 1) % 2 ^ 64 ∧ u.mem = s.mem) ∧
  (∀ (s : State) (r : Run) (q : Recipe) (st : StepRec), Awake s → runStep s = some (r, q, st) → r.state = .running →
    (∀ row col, tileGood s row col = true →
      ∃ u x, exec (.handshakeTimeout row col) s = .next u ∧ (tileAt u row col).cause = 1 ∧ u.sht.remapDue = true ∧
        u.sht.fault = ⟨1, row, col, logicalCol s row col, st.op.code, q.ctx⟩ ∧ u.rcp.run = some x ∧ x.state = .ending ∧
        x.outcome = .runFaulted ∧ u.mem = s.mem) ∧
    (∀ cause row col, 8 ≤ cause → cause ≤ 0xC →
      ∃ u x, exec (.stepFault cause row col) s = .next u ∧ u.sht.fault = ⟨cause, 0, 0, 127, st.op.code, q.ctx⟩ ∧
        u.rcp.run = some x ∧ x.state = .ending ∧ x.outcome = .runFaulted ∧ u.sht.tiles = s.sht.tiles ∧ u.mem = s.mem)) ∧
  (∀ s : State, Tidy s → Awake s → s.sht.remapDue = true → s.sht.state = .idle →
    ∃ u, exec .rowRemap s = .next u ∧ u.sht.cols = columnsOf s ∧ u.sht.remapDue = false ∧
      u.sht.state = (if columnsOf s < 90 then .unavailable else .idle) ∧ u.sht.tiles = s.sht.tiles ∧
      counter u Pg.sht 0xE20 = (counter s Pg.sht 0xE20 + 1) % 2 ^ 64 ∧ u.mem = s.mem) ∧
  (∀ (s : State) (r : Run), Awake s → s.sht.zeroing = true → s.rcp.run = some r → r.state = .ending → r.afterUnload = false →
    ∃ u, exec .tileStoreZeroDone s = .next u ∧ u.rcp.run = none ∧ u.sht.zeroing = false ∧ u.rcp.runLast.status = r.outcome.code ∧
      u.rcp.recipes = s.rcp.recipes ∧ u.mem = s.mem) ∧
  (∀ (s : State) (w row col : Nat), Tidy s → Owns s w Pg.sht → (pageHdr s Pg.sht).unlocked = true → s.sht.state = .idle →
    s.sht.remapDue = false → tileGood s row col = true →
    ∃ u, exec (.tileTest w (BitVec.ofNat 64 (2 ^ 31 + col * 256 + row))) s = .next u ∧ (tileAt u row col).cause = 7 ∧
      u.sht.remapDue = true ∧ u.sht.testArmed = true ∧ reg u Pg.sht 0x408 = BitVec.ofNat 64 (col * 256 + row) ∧
      u.boot.repairs = s.boot.repairs ∧ u.mem = s.mem)


/-! Recipes -/

/-- LOAD_RECIPE of an image that passes every check enters it under a free handle and completes with that handle; an image that fails one
is refused with its status, which RCP_LOAD_LAST names. ABORT UNLOAD of a recipe that does not run removes it with its stream demand.
RUN arms with the lowest free comparator, without peers for the later of START_NS and the first frame boundary a lead away, and the
comparator starts it then, with the declared tables in the tiles' code caches. ABORT STOP ends its run with RUN_ABORTED.
Choices of the model that it meets: log entries 6, 9, 56, 58. -/
def Obligations.RecipeLoadRunAbort : Prop :=
  (∀ (r : RingCmd) (ctx notify addr bytes bindAddr tag : Nat) (i : Image) (bind : List Nat) (s v : State),
    Tidy v → Begins r Opc.loadRecipe s v → OwnCtx r ctx v → v.rcp.loads.any (fun l => decide (l.r = r)) = false → notify < 16 →
    addr % 64 = 0 → bindAddr % 8 = 0 →
    (∀ h w, staticFail v ctx bytes i bind = none → chooseFrom 16 (fun h => (recipeAt v h).isNone) v = (some h, w) →
      admitFail w (bookStreams h i bind w) = none → fabricFail w i = none → idleDropped w = false →
      ∃ u q, exec (.loadRecipe r ctx notify addr bytes bindAddr tag (.image i bind)) s =
          .next (complete r Opc.loadRecipe .ok h u) ∧
        h < 16 ∧ recipeAt v h = none ∧ recipeAt u h = some q ∧ q.img = i ∧ q.bind = bind ∧ q.ctx = ctx ∧ q.fn = r.fn ∧
        q.ring = notify ∧ q.tag = tag ∧ u.mem = v.mem ∧ u.ple = v.ple) ∧
    (∀ f, staticFail v ctx bytes i bind = some f →
      ∃ u, exec (.loadRecipe r ctx notify addr bytes bindAddr tag (.image i bind)) s =
          .next (complete r Opc.loadRecipe f.status 0 u) ∧
        u = { v with rcp := { v.rcp with loadLast := ⟨f.status.code, f.check, f.index, ctx⟩ }, cnts := u.cnts })) ∧
  (∀ (r : RingCmd) (ctx h : Nat) (q : Recipe) (s v : State), Tidy v → Begins r Opc.abort s v → OwnCtx r ctx v →
    namedRecipe v ctx h = some q → v.rcp.run = none →
    ∃ u, exec (.abortUnload r ctx h) s = .next (complete r Opc.abort .ok 0 u) ∧ recipeAt u h = none ∧
      (∀ k, k ≠ h → (recipeAt u k).isSome = (recipeAt v k).isSome) ∧
      u.rlg.streams = v.rlg.streams.filter (fun d => decide (d.handle ≠ h)) ∧ u.mem = v.mem ∧ u.ple = v.ple) ∧
  (∀ (r : RingCmd) (ctx h fromStep startNs n : Nat) (q : Recipe) (s v : State),
    Begins r Opc.run s v → OwnCtx r ctx v → namedRecipe v ctx h = some q → fromStepOk q.img fromStep = true → q.img.lead = true →
    armRefusal v q fromStep = none → freeComparator v = some n →
    ∃ u x, exec (.run r ctx h fromStep startNs) s = .next u ∧ u.rcp.run = some x ∧ x.state = .armed ∧ x.handle = h ∧
      x.cmd = some r ∧ x.fromStep = fromStep ∧ x.step = fromStep ∧ x.delta = 0 ∧ x.cmp = n ∧
      (claimOf u n).owner = .firmware ∧ (claimOf u n).user = .rcpRun ∧
      x.t0 = (if q.img.peers.isEmpty then some (max startNs (1024 * ceilDiv (v.now + q.img.startLeadNs) 1024)) else none) ∧
      (q.img.peers = [] → tget none u.ftb.cmps n = x.t0) ∧ u.mem = v.mem ∧ u.ple = v.ple) ∧
  (∀ (s : State) (n t : Nat) (x : Run) (q : Recipe), Awake s → n < 16 → tget none s.ftb.cmps n = some t → t ≤ s.now →
    (claimOf s n).user = .rcpRun → runRecipe s = some (x, q) → x.state = .armed → x.t0.isSome = true →
    ∃ u, exec (.comparatorFire n) s = .next u ∧ u.rcp = { s.rcp with run := some { x with state := .running } } ∧
      u = { s with ftb := { s.ftb with cmps := u.ftb.cmps }, rcp := u.rcp, cnts := u.cnts, sht := { s.sht with codeCache := q.img.tables } }) ∧
  (∀ (r : RingCmd) (ctx h : Nat) (q : Recipe) (x : Run) (s v : State), Begins r Opc.abort s v → OwnCtx r ctx v →
    namedRecipe v ctx h = some q → v.rcp.run = some x → x.handle = h → x.state ≠ .ending → runWaits v r = false →
    ∃ u y, exec (.abortStop r ctx h 0) s = .next u ∧ u.rcp.run = some y ∧ y.state = .ending ∧ y.outcome = .runAborted ∧
      y.waiters = x.waiters ++ [(r, Opc.abort)] ∧ u.sht.zeroing = true ∧ u.rcp.recipes = v.rcp.recipes ∧ u.mem = v.mem)

/-- A group starts: ARM is answered by arming, READY of the last peer gives the start, REFUSE or no READY within READY_TIMEOUT_MS ends the start with
RECIPE_PEER, CANCEL disarms, GO sets the start or, too late, ends the run with RUN_PEER_LOST. During the run a BARRIER token carries
the greater offset, an ABORT token ends the run with its outcome and the lowest step, a peer that stays silent for PEER_TIMEOUT_MS ends it with
RUN_PEER_LOST, and a transfer for this step or the next enters the step buffer.
Choices of the model that it meets: log entry 58. -/
def Obligations.GroupStartAndRun : Prop :=
  (∀ (s : State) (fport src group : Nat), Awake s → Arrives s fport src →
    (∀ (h n fromStep : Nat) (q : Recipe), recipeOf s group src = some (h, q) → listsPeer q src = true →
      s.rcp.loads.any (fun l => decide (l.handle = h)) = false → armRefusal s q fromStep = none → freeComparator s = some n →
      ∃ u x, exec (.arm fport src group src fromStep) s = .next u ∧ u.rcp.run = some x ∧ x.state = .armed ∧ x.handle = h ∧
        x.lead = some src ∧ x.cmd = none ∧ x.t0 = none ∧ x.fromStep = fromStep ∧ x.cmp = n ∧ (claimOf u n).user = .rcpRun ∧
        u.rcp.recipes = s.rcp.recipes ∧ u.mem = s.mem) ∧
    (∀ (r : Run) (q : Recipe), leading s group src = some (r, q) → r.readyBy.contains src = false →
      ((∃ p ∈ q.img.peers, p.dev ≠ src ∧ r.readyBy.contains p.dev = false) →
        ∃ u, exec (.ready fport src group) s = .next u ∧ u.rcp = { s.rcp with run := some { r with readyBy := r.readyBy ++ [src] } }) ∧
      ((∀ p ∈ q.img.peers, p.dev = src ∨ r.readyBy.contains p.dev = true) →
        ∃ u, exec (.ready fport src group) s = .next u ∧
          u.rcp = { s.rcp with run := some { r with readyBy := r.readyBy ++ [src], t0 := some (chooseT0 s.now r.startNs q.img.startLeadNs) } } ∧
          tget none u.ftb.cmps r.cmp = some (chooseT0 s.now r.startNs q.img.startLeadNs))) ∧
    (∀ (r : Run) (q : Recipe) (c : RingCmd) (status : Nat), leading s group src = some (r, q) → r.cmd = some c →
      (∃ u, exec (.refuse fport src group status) s = .next (complete c Opc.run .recipePeer 0 u) ∧ u.rcp = { s.rcp with run := none } ∧
        u.mem = s.mem) ∧
      (r.armedAt + 1000000 * fld s Pg.rcp 0x400 47 32 ≤ s.now →
        ∃ u, exec .readyTimeout s = .next (complete c Opc.run .recipePeer 0 u) ∧ u.rcp = { s.rcp with run := none } ∧ u.mem = s.mem)) ∧
    (∀ (r : Run) (t0 : Nat), following s group src = some r →
      (∃ u, exec (.groupCancel fport src group) s = .next u ∧ u.rcp = { s.rcp with run := none } ∧ u.mem = s.mem) ∧
      (s.now < t0 → ∃ u, exec (.go fport src group t0) s = .next u ∧ u.rcp = { s.rcp with run := some { r with t0 := some t0 } } ∧
        tget none u.ftb.cmps r.cmp = some t0) ∧
      (t0 ≤ s.now → ∃ u x, exec (.go fport src group t0) s = .next u ∧ u.rcp.run = some x ∧ x.state = .ending ∧
        x.outcome = .runPeerLost))) ∧
  (∀ (s : State) (fport src group : Nat) (r : Run) (q : Recipe), Awake s → Arrives s fport src → runFor s fport src group = some (r, q) →
    r.state ≠ .ending →
    (∀ step delta, ∃ u, exec (.barrier fport src group step delta) s = .next u ∧ u.mem = s.mem ∧
      u.rcp = { s.rcp with run := some { r with heard := tins r.heard src s.now, adopted := r.adopted || decide (step = r.step),
                                                delta := max r.delta delta } }) ∧
    (∀ step outcome st, tokenOutcome outcome = some st → st ≠ .ok →
      ∃ u x, exec (.abortToken fport src group step outcome) s = .next u ∧ u.rcp.run = some x ∧ x.state = .ending ∧ x.outcome = st ∧
        x.lowest = min (min r.lowest step) r.step ∧ u.sht.zeroing = true ∧ u.mem = s.mem) ∧
    (∀ dev, stepRuns s = true → r.waiting.testBit 7 = true → listsPeer q dev = true →
      lastHeard r dev + 1000000 * fld s Pg.rcp 0x400 15 0 ≤ s.now →
      ∃ u x, exec (.peerTimeout dev) s = .next u ∧ u.rcp.run = some x ∧ x.state = .ending ∧ x.outcome = .runPeerLost ∧ u.mem = s.mem) ∧
    (∀ (step delta : Nat) (data : List Byte), step = r.step ∨ step = r.step + 1 →
      ∃ u, exec (.rcpData fport src group step delta data) s = .next u ∧ u.mem = s.mem ∧
        u.rcp = { s.rcp with run := some { r with heard := tins r.heard src s.now, delta := max r.delta delta,
                                                  buffer := r.buffer ++ [{ fport := fport, step := step, data := data }] } }))


/-! The fabric -/

/-- Bring-up of a link: trained lanes, HELLO and its roles, the certificate, IDENT, and the sixteenth time exchange bring the port to
AUTH, TIME and UP; no signal, a refusal or a step beyond its bound sends it back with its reason, and waits end in TRAINING once they
are over.
Choices of the model that it meets: log entries 7, 60, 61. -/
def Obligations.FabricBringUp : Prop :=
  ∀ (s : State) (p : Nat), Tidy s → Awake s → p < 8 →
    (mayTrain s p = true → (fportAt s p).state = .training →
      (∀ lanes, lanes < 256 → widthOf lanes ≠ 0 →
        ∃ u n, exec (.linkTrain p lanes) s = .next u ∧
          fportAt u p = { fportAt s p with
            state := .auth, lanes := lanes, width := keptWidth (fportAt s p) (widthOf lanes), nonce := some n, stepAt := s.now,
            half := if keptWidth (fportAt s p) (widthOf lanes) = 3 then 0 else keptWidth (fportAt s p) (widthOf lanes) } ∧
          (∀ q, q ≠ p → fportAt u q = fportAt s q) ∧ u = { s with fports := u.fports, sent := s.sent ++ [.hello p n], draws := u.draws }) ∧
      (∃ u, exec (.linkTrain p 0) s = .next u ∧ (fportAt u p).state = .down ∧ (fportAt u p).reason = 1 ∧
        (fportAt u p).retryAt = s.now + 1000000000)) ∧
    (∀ own nonce, (fportAt s p).nonce = some own → (fportAt s p).state = .auth →
      (own ≠ nonce → ∃ u, exec (.hello p nonce) s = .next u ∧ (fportAt u p).nonce = none ∧ (fportAt u p).state = .auth ∧
        (fportAt u p).responder = decide (own < nonce) ∧
        u.sent = s.sent ++ (if own < nonce then [] else [.spdmLink p (.negotiate true)])) ∧
      (own = nonce → ∃ u n, exec (.hello p nonce) s = .next u ∧ (fportAt u p).nonce = some n ∧ u.sent = s.sent ++ [.hello p n])) ∧
    (∀ (root cert : Nat) (namesHjx verified : Bool), (fportAt s p).state = .auth → (fportAt s p).nonce = none →
      (fportAt s p).spdmDone = false →
      (chainOk s p root namesHjx verified = true →
        ∃ u, exec (.spdm p (.finish root namesHjx cert verified)) s = .next u ∧ (fportAt u p).state = .auth ∧
          (fportAt u p).spdmDone = true ∧ (fportAt u p).partner.root = root ∧ (fportAt u p).partner.cert = cert ∧
          (fportAt u p).partner.accelerator = decide (root ≠ 0) ∧ (fportAt u p).keyedAt = s.now) ∧
      (chainOk s p root namesHjx verified = false →
        ∃ u, exec (.spdm p (.finish root namesHjx cert verified)) s = .next u ∧ (fportAt u p).state = .authFailed ∧
          (fportAt u p).reason = 3 ∧ (fportAt u p).fails = (fportAt s p).fails + 1 ∧
          (fportAt u p).retryAt = s.now + min (2 ^ (fportAt s p).fails) (fld s (fptPage p) 0x400 31 24) * 1000000000)) ∧
    (∀ (dev slots : Nat) (acc decode rootEl : Bool), (fportAt s p).state = .auth → (fportAt s p).spdmDone = true →
      (identRefusal s p dev = none →
        ∃ u, exec (.ident p dev acc decode rootEl slots) s = .next u ∧ (fportAt u p).state = .time ∧
          (fportAt u p).partner = { (fportAt s p).partner with dev := dev % 131072, decode := decode, rootEligible := rootEl,
                                                               slots := slots % 8192 } ∧
          (fportAt u p).syncs = 0 ∧ (fportAt u p).fails = 0) ∧
      (∀ why, identRefusal s p dev = some why →
        ∃ u, exec (.ident p dev acc decode rootEl slots) s = .next u ∧ (fportAt u p).state = .authFailed ∧ (fportAt u p).reason = why)) ∧
    ((fportAt s p).state = .time → (fportAt s p).syncs = 15 →
      ∀ t1 t2 t3 t4 rootId hops : Nat, ∃ u e, exec (.timeSync p t1 t2 t3 t4 rootId hops) s = .next u ∧ (fportAt u p).state = .up ∧
        (∀ k, k < 6 → tget 0 (fportAt u p).credits k = creditPool (k / 2)) ∧ u.router = s.router ++ [e] ∧ e.page = fptPage p) ∧
    (mayTrain s p = true →
      ((fportAt s p).state = .authFailed → (fportAt s p).retryAt ≤ s.now → ∃ u, exec (.authBackoffExpiry p) s = .next u ∧
        fportAt u p = { fportAt s p with state := .training, retryAt := 0, trainAt := s.now, stepAt := s.now } ∧ u = { s with fports := u.fports }) ∧
      ((fportAt s p).state = .down → (fportAt s p).retryAt ≠ 0 → (fportAt s p).retryAt ≤ s.now →
        ∃ u, exec (.trainingRetry p) s = .next u ∧
        fportAt u p = { fportAt s p with state := .training, retryAt := 0, trainAt := s.now, stepAt := s.now } ∧ u = { s with fports := u.fports })) ∧
    ((fportAt s p).state = .training → ∀ step, step = 1 ∨ step = 2 → (fportAt s p).stepAt + stepBoundUs step * 1000 ≤ s.now →
      ∃ u, exec (.linkBringupTimeout p step) s = .next u ∧
      (fportAt u p).state = .down ∧ (fportAt u p).reason = 1) ∧
    ((fportAt s p).state = .auth → ∀ step, (step = 5 ∧ (fportAt s p).spdmDone = false ∧ (fportAt s p).nonce = none) ∨
        (step = 6 ∧ (fportAt s p).spdmDone = true) → (fportAt s p).stepAt + stepBoundUs step * 1000 ≤ s.now →
      ∃ u, exec (.linkBringupTimeout p step) s = .next u ∧ (fportAt u p).state = .authFailed ∧ (fportAt u p).reason = 3) ∧
    ((fportAt s p).state = .time → ∀ step, step = 7 ∨ step = 8 →
      (if step = 8 then (fportAt s p).trainAt else (fportAt s p).stepAt) + stepBoundUs step * 1000 ≤ s.now → ∃ u, exec (.linkBringupTimeout p step) s = .next u ∧
      (fportAt u p).state = .training)

/-- Upkeep of a link in session: keys are updated, codewords acknowledged or asked for again, credit returned, an x8 link falls back
to half its lanes with an event whose code is the model's choice (log entry 10), and what ends the session sends the port to TRAINING or DOWN with its reason and makes the partner's grants stale.
The time base sends its exchange each SYNC_US and leaves holdover; the identity changes while every port is DOWN.
Choices of the model that it meets: log entries 6, 60, 61, 62. -/
def Obligations.FabricUpkeep : Prop :=
  (∀ (s : State) (p : Nat), Tidy s → Awake s → p < 8 → linked (fportAt s p) = true →
    ((fportAt s p).spdmDone = true →
      (∃ u, exec (.keyUpdate p true) s = .next u ∧ fportAt u p = { fportAt s p with rxPackets := 0 } ∧ u = { s with fports := u.fports }) ∧
      (2 ^ 36 ≤ (fportAt s p).txPackets → ∃ u, exec (.keyUpdate p false) s = .next u ∧
        fportAt u p = { fportAt s p with txPackets := 0, keyedAt := s.now } ∧
        u = { s with fports := u.fports, sent := s.sent ++ [.spdmLink p .keyUpdate] }) ∧
      (∃ u, exec (.heartbeatTimeout p) s = .next u ∧ (fportAt u p).state = .training ∧ (fportAt u p).reason = 9 ∧
        (fportAt u p).spdmDone = false ∧ u.mem = s.mem ∧
        ((fportAt s p).state = .up → ∀ i g, grantAt s i = some g → g.remoteDev = (fportAt s p).partner.dev →
          (grantAt u i).any (·.stale) = true))) ∧
    (∀ lane, lane < 8 → (fportAt s p).width = 3 → ∃ u e, exec (.laneFault p lane) s = .next u ∧
      fportAt u p = { fportAt s p with lanes := (fportAt s p).lanes &&& (255 - 2 ^ lane), width := if lane < 4 then 2 else 1, half := if lane < 4 then 2 else 1,
                                         reason := 2 } ∧ e.sev = .contained ∧ e.page = fptPage p ∧
      counter u (fptPage p) 0xE68 = (counter s (fptPage p) 0xE68 + 1) % 2 ^ 64 ∧
      u = { s with fports := u.fports, cnts := u.cnts, pages := u.pages, router := s.router ++ [e] }) ∧
    (∃ u, exec (.fabricSignalLoss p) s = .next u ∧ (fportAt u p).state = .down ∧ (fportAt u p).reason = 1 ∧ (fportAt u p).lanes = 0 ∧
      (fportAt u p).retryAt = s.now + 1000000000) ∧
    (3 ≤ ((fportAt s p).tagFails.filter (fun t => decide (s.now < t + ms))).length →
      ∃ u, exec (.malformedPacket p .tag) s = .next u ∧ (fportAt u p).state = .training ∧
        counter u (fptPage p) 0xE38 = (counter s (fptPage p) 0xE38 + 1) % 2 ^ 64) ∧
    (((fportAt s p).badPkts.filter (fun t => decide (s.now < t + ms))).length + 1 < fld s (fptPage p) 0x400 23 16 →
      ∃ u, exec (.malformedPacket p .malformed) s = .next u ∧ (fportAt u p).state = (fportAt s p).state ∧
        counter u (fptPage p) 0xE40 = (counter s (fptPage p) 0xE40 + 1) % 2 ^ 64 ∧ u = { s with fports := u.fports, cnts := u.cnts }) ∧
    (∀ fill, (fportAt s p).rxSeq < 4096 → ∃ u, exec (.codewordRx p (fportAt s p).rxSeq true fill) s = .next u ∧
      (fportAt u p).rxSeq = ((fportAt s p).rxSeq + 1) % 4096 ∧ (fportAt u p).nakOut = false) ∧
    (∀ fill, (fportAt s p).nakOut = false → ∃ u, exec (.codewordRx p (fportAt s p).rxSeq false fill) s = .next u ∧
      (fportAt u p).rxSeq = (fportAt s p).rxSeq ∧ (fportAt u p).nakOut = true ∧
      u.sent = s.sent ++ [.linkCtl p (.nak (fportAt s p).rxSeq)] ∧
      counter u (fptPage p) 0xE28 = (counter s (fptPage p) 0xE28 + 1) % 2 ^ 64) ∧
    (∀ seq, ∃ u, exec (.link p (.ack seq)) s = .next u ∧ (fportAt u p).ackedSeq = (seq + 1) % 4096 ∧ (fportAt u p).replays = 0 ∧
      u.sent = s.sent) ∧
    (∀ cls vl units, (fportAt s p).state = .up → cls < 4 → (fportAt s p).queued = [] →
      ∃ u, exec (.link p (.credit cls vl units)) s = .next u ∧ u.sent = s.sent ∧
        (fportAt u p).credits = tput 0 (fportAt s p).credits (2 * cls + vl % 2)
          (min (poolOf s cls) (tget 0 (fportAt s p).credits (2 * cls + vl % 2) + units))) ∧
    (∀ cls vl, (fportAt s p).state = .up → queuedFor (fportAt s p) (2 * cls + vl % 2) = true →
      tget 0 (fportAt s p).stalled (2 * cls + vl % 2) + 1000 * fld s (fptPage p) 0x400 63 48 ≤ s.now →
      ∃ u, exec (.creditStall p cls vl) s = .next u ∧ (fportAt u p).state = .training ∧ (fportAt u p).reason = 7) ∧
    ((fportAt s p).state = .time → (fportAt s p).syncAt = 0 ∨ (fportAt s p).syncAt + 1000 * fld s Pg.ftb 0x400 15 0 ≤ s.now + 1 →
      ∃ u q, exec (.timeSyncSend p) s = .next u ∧ q.type = 0x30 ∧
      q.spec = s.ftb.rootId + 2 ^ 17 * s.ftb.hops ∧
      u.sent = s.sent ++ [.packet p q (leBytes 8 (s.now * 1000 + s.ftb.frac * 1000 / 256) ++ leBytes 8 (fportAt s p).lastT2 ++ leBytes 8 (fportAt s p).lastT3)]) ∧
    (∀ w, Owns s w (fptPage p) → ∃ u, exec (.retrain w p) s = .next u ∧ (fportAt u p).state = .training ∧ (fportAt u p).reason = 0 ∧
      (fportAt u p).credits = [] ∧ (fportAt u p).spdmDone = false)) ∧
  (∀ (s : State) (d : Nat), Awake s → s.ftb.holdover = some d → d ≤ s.now →
    exec .holdoverExpiry s = .next { s with ftb := { s.ftb with holdover := none, locked := false, good := 0 } }) ∧
  (∀ (s : State) (w id : Nat), Tidy s → Owns s w Pg.ftb → id < 2 ^ 17 →
    ((∀ p, p < 8 → (fportAt s p).state = .down) →
      ∃ u, exec (.ftbIdentityWrite w (BitVec.ofNat 64 (2 ^ 31 + id))) s = .next u ∧ ownId u = id ∧ idValid u = true ∧
        RegOnly Pg.ftb 0x40 s u ∧ HdrOnly Pg.ftb s u) ∧
    ((∃ p, p < 8 ∧ (fportAt s p).state ≠ .down) →
      ∃ u, exec (.ftbIdentityWrite w (BitVec.ofNat 64 (2 ^ 31 + id))) s = .next u ∧ u = { s with pages := u.pages } ∧
        pageHdr u Pg.ftb = refusedHdr kindRefusedState .accessDenied 0x40 w (accessed w (pageHdr s Pg.ftb))))

/-- Packets: one for another device is relayed with a hop less, or dropped and counted when its hops are spent; a READ under a grant
of a slab that reads as zeros is answered with zeros, one without a grant is refused and counted; a WRITE is stored in its block
alone; TABLE_SLOTS, PROBE and PROBE_REPLY do what they say.
Choices of the model that it meets: log entries 59, 62, 75, 89. -/
def Obligations.FabricPackets : Prop :=
  ∀ (s : State) (p : Nat) (k : Pkt), Tidy s → Awake s → Arrives s p k.src → 
    (∀ (out : Nat) (data : List Byte), k.dst ≠ ownId s → pktClass k.type < 3 → routePort s k.dst = some out →
      SendsAtOnce (fportAt s out) → data.length ≤ 4096 →
      (1 < k.hops → ∃ u q, exec (.packetRelay p k data) s = .next u ∧ q.hops = k.hops - 1 ∧ q.dst = k.dst ∧ q.src = k.src ∧
        q.type = k.type ∧ q.tag = k.tag ∧ q.addr = k.addr ∧
        u.sent = s.sent ++ [.linkCtl p (.credit (pktClass k.type) (k.flags % 2) (creditUnits data.length)), .packet out q data] ∧
        counter u (fptPage out) 0xE18 = (counter s (fptPage out) 0xE18 + 1) % 2 ^ 64 ∧ u.mem = s.mem) ∧
      (k.hops ≤ 1 → ∃ u, exec (.packetRelay p k data) s = .next u ∧
        u.sent = s.sent ++ [.linkCtl p (.credit (pktClass k.type) (k.flags % 2) (creditUnits data.length))] ∧
        counter u (fptPage p) 0xE58 = (counter s (fptPage p) 0xE58 + 1) % 2 ^ 64 ∧ u.mem = s.mem)) ∧
    (∀ (g : Grant) (slab : Nat), k.type = 0x01 → k.dst = ownId s → partOk k.addr (k.spec % 8192) = true →
      matchGrant k false s = .ok (g, slab) → accessCheck s ⟨3, ctxFn s k.dstCtx, k.dstCtx, none, false, false⟩ slab = none →
      readsZero (mapAt s slab) = true → (fportAt s p).partner.dev = k.src → SendsAtOnce (fportAt s p) →
      ∃ u q, exec (.read p k) s = .next u ∧ q.type = 0x03 ∧ q.dst = k.src ∧ q.tag = k.tag ∧ u.mem = s.mem ∧
        u.sent = s.sent ++ [.linkCtl p (.credit 0 (k.flags % 2) 1), .packet p q (List.replicate (k.spec % 8192) 0)]) ∧
    (∀ st, k.type = 0x01 → k.dst = ownId s → partOk k.addr (k.spec % 8192) = true → matchGrant k false s = .error st →
      ∃ u, exec (.read p k) s = .next u ∧ u.mem = s.mem ∧ u.descs = s.descs ∧
        counter u (fptPage p) 0xE50 = (counter s (fptPage p) 0xE50 + 1) % 2 ^ 64) ∧
    (∀ (g : Grant) (slab : Nat) (t : Tier) (data : List Byte), k.type = 0x02 → k.dst = ownId s → partOk k.addr data.length = true →
      matchGrant k true s = .ok (g, slab) → accessCheck s ⟨3, ctxFn s k.dstCtx, k.dstCtx, none, true, false⟩ slab = none →
      TakesWrites s slab t → ZeroBlock s slab (k.addr % 2 ^ 24 / 4096) (homeKey t (mapAt s slab).frame (k.addr % 2 ^ 24 / 4096)) →
      (fportAt s p).partner.dev = k.src → SendsAtOnce (fportAt s p) →
      ∃ u q, exec (.write p k data) s = .next u ∧ q.type = 0x05 ∧ q.dst = k.src ∧ q.tag = k.tag ∧ .packet p q [] ∈ u.sent ∧
        MemOutside (homeKey t (mapAt s slab).frame (k.addr % 2 ^ 24 / 4096)) s u ∧ u.mge.held = s.mge.held) ∧
    (∀ slots, ∃ u, exec (.tableSlots p slots) s = .next u ∧
      (fportAt u p).partner = { (fportAt s p).partner with slots := slots % 8192 } ∧ (∀ q, q ≠ p → fportAt u q = fportAt s q)) ∧
    (k.dst = ownId s → k.type = 0x31 → (fportAt s p).partner.dev = k.src → SendsAtOnce (fportAt s p) →
      ∃ u q, exec (.probe p k) s = .next u ∧ q.type = 0x32 ∧ q.dst = k.src ∧ q.tag = k.tag ∧ .packet p q [] ∈ u.sent ∧ u.mem = s.mem) ∧
    (k.dst = ownId s →
      ∃ u, exec (.probeReply p k) s = .next u ∧
        u.ftb = { s.ftb with members := tins s.ftb.members k.src s.now, probes := s.ftb.probes.filter (fun d => decide (d ≠ k.src)) })

/-- A fabric grant that passes its tests is entered at its index; a destroyed one is stale until its requests have drained. A device
that a loaded recipe reaches by relay is probed each 250 ms.
Choices of the model that it meets: log entries 19, 62. -/
def Obligations.FabricGrants : Prop :=
  (∀ (s x : State) (w i : Nat), Tidy s → Owns s w Pg.ftb → i < 16384 → x = selectGrant i (dropHalf w Pg.ftb s) →
    (grantAt s i = none → grantRunOk x w (grantFields x).localCtx (grantFields x).wr (grantFields x).first (grantFields x).length = true →
      admitFail x (setGrant i (some (grantFields x)) x) = none →
      ∃ u, exec (.grantCreate w i) s = .next u ∧ grantAt u i = some (grantFields x) ∧ (∀ j, j ≠ i → grantAt u j = grantAt s j) ∧
        u.ftb.grantStatus = Status.ok.code ∧ u.mem = s.mem ∧ u.ple = s.ple) ∧
    (∀ g, grantAt s i = some g → fnPort (ctxFn s g.localCtx) = fnPort w →
      ∃ u, exec (.grantDestroy w i) s = .next u ∧ grantAt u i = some { g with stale := true } ∧
        (∀ j, j ≠ i → grantAt u j = grantAt s j) ∧ u.ftb.grantStatus = Status.ok.code ∧ u.mem = s.mem)) ∧
  (∀ (s : State) (i : Nat) (g : Grant), Tidy s → Awake s → grantAt s i = some g → g.stale = true → outstanding s g = 0 →
    ∃ u, exec (.grantDrainEnd i) s = .next u ∧ grantAt u i = none ∧ (∀ j, j ≠ i → grantAt u j = grantAt s j) ∧
      u = { s with grants := u.grants }) ∧
  (∀ (s : State) (dev h : Nat) (q : Recipe), Awake s → (h, some q) ∈ s.rcp.recipes → (∃ x ∈ q.img.peers, x.dev = dev ∧ x.ports = 0) →
    tget 0 s.ftb.probedAt dev = 0 ∨ tget 0 s.ftb.probedAt dev + 250000000 ≤ s.now + 1 →
    ∃ u, exec (.probeSend dev) s = .next u ∧
      u.ftb.probes = (if s.ftb.probes.contains dev then s.ftb.probes else s.ftb.probes ++ [dev]) ∧ u.mem = s.mem ∧ u.rcp = s.rcp)

/-! The host interface -/

/-- Ring registers and commands: doorbell and completion head within the ring's sizes, else the ring fails with ACCESS_DENIED; an
enabled ring starts empty with phase 1; a fetched entry is in progress, one with an unknown opcode completes with ACCESS_DENIED, a
fetch without an answer fails the ring; a completion carries the submission head and the phase of the pass; the end of the
delay since the first unsignalled entry interrupts.
Choices of the model that it meets: log entries 63, 65. -/
def Obligations.HostRings : Prop :=
  (∀ (s : State) (f n x : Nat), Tidy s → RingOwner s f → n < 16 → (ringOf s f n).state = .active →
    (x < sqSize (ringOf s f n) → ∃ u t, exec (.doorbell f n x) s = .next u ∧
      ringOf u f n = { ringOf s f n with sqTail := x, fetchTag := t } ∧ (∀ m, m < 16 → m ≠ n → ringOf u f m = ringOf s f m) ∧
      u.sent = s.sent ∧ u.mem = s.mem) ∧
    (sqSize (ringOf s f n) ≤ x → ∃ u, exec (.doorbell f n x) s = .next u ∧
      ringOf u f n = { ringOf s f n with state := .error, err := Status.accessDenied.code, kept := [], fetchTag := none }) ∧
    (x < cqSize (ringOf s f n) →
      (x + cqSize (ringOf s f n) - (ringOf s f n).cqHead) % cqSize (ringOf s f n) ≤ cqUsed (ringOf s f n) →
      ∃ u t, exec (.cqHeadWrite f n x) s = .next u ∧
        ringOf u f n = { ringOf s f n with cqHead := x, fetchTag := t, unsignalled := (min (ringOf s f n).unsignalled
          (((ringOf s f n).cqTail + cqSize (ringOf s f n) - x) % cqSize (ringOf s f n))) } ∧ u.mem = s.mem) ∧
    (cqSize (ringOf s f n) ≤ x → ∃ u, exec (.cqHeadWrite f n x) s = .next u ∧
      ringOf u f n = { ringOf s f n with state := .error, err := Status.accessDenied.code, kept := [], fetchTag := none })) ∧
  (∀ (s : State) (f n : Nat) (cfg : Word), Tidy s → RingOwner s f → n < 16 →
    ((ringOf s f n).state = .disabled → (ringOf s f n).running = [] → ringConfigOk f (ringConfig cfg (ringOf s f n)) = true →
      ∃ u, exec (.ringEnable f n cfg) s = .next u ∧
        ringOf u f n = { ringConfig cfg (ringOf s f n) with
          state := if (func s f).bme && !(func s f).d3hot then .active else .stopped, err := 0, sqHead := 0, sqTail := 0, cqHead := 0,
          cqTail := 0, phase := true, unsignalled := 0, kept := [], fetchTag := none, enableWaits := false } ∧
        (∀ m, m < 16 → m ≠ n → ringOf u f m = ringOf s f m)) ∧
    (∃ u, exec (.ringDisable f n cfg) s = .next u ∧ (ringOf u f n).state = .disabled ∧
      (ringOf u f n).running = (ringOf s f n).running ∧ (∀ m, m < 16 → m ≠ n → ringOf u f m = ringOf s f m)) ∧
    (7 ≤ bits cfg 4 0 → bits cfg 4 0 ≤ 16 → (func s f).evtOn = false →
      ∃ u, exec (.evtRingEnable f cfg) s = .next u ∧ func u f = { func s f with
        evtLog := bits cfg 4 0, evtVector := bits cfg 15 5, evtOverflow := (func s f).evtOverflow && !bitOf cfg 30, evtOn := true,
        evtHead := 0, evtIdx := 0, evtPhase := true })) ∧
  (∀ (s : State) (f n : Nat) (e : SubEntry), Tidy s → Awake s → canFetch s f n = true →
    (e.flags = 0 → e.reservedZero = true → e.opcode ∈ opcodes → readsHost e.opcode = false → s.dev.memEnabled = true →
      ∃ u, exec (.commandFetch f n (.entry e)) s = .next u ∧ inProgress u ⟨f, n, e.cid % 65536⟩ e.opcode = true ∧
        (ringOf u f n).sqHead = ((ringOf s f n).sqHead + 1) % sqSize (ringOf s f n) ∧ u.mem = s.mem) ∧
    (e.flags = 0 → e.opcode ∉ opcodes →
      ∃ u c, exec (.commandFetch f n (.entry e)) s = .next u ∧ .completion f n c ∈ u.sent ∧ c.cid = e.cid % 65536 ∧
        c.status = .accessDenied ∧ u.mem = s.mem) ∧
    (∃ u, exec (.commandFetch f n .timeout) s = .next u ∧ (ringOf u f n).state = .error ∧
      (ringOf u f n).err = Status.dmaTimeout.code ∧
      counter u (Pg.hiu + fnPort f) 0xE28 = (counter s (Pg.hiu + fnPort f) 0xE28 + 1) % 2 ^ 64)) ∧
  (∀ (s : State) (r : RingCmd) (op res : Nat) (st : Status), Tidy s → inProgress s r op = true →
    (let q := ringOf s r.fn r.ring
     let c : Cpl := ⟨r.cid, st, q.sqHead, q.phase, 0, op, res % 2 ^ 64⟩
     (q.state = .active → ∃ more, (complete r op st res s).sent = s.sent ++ .completion r.fn r.ring c :: more) ∧
     (q.state = .stopped → q.enableWaits = false → (complete r op st res s).sent = s.sent ∧
       (ringOf (complete r op st res s) r.fn r.ring).kept = q.kept ++ [{ c with sqHead := 0, phase := false }]))) ∧
  (∀ (s : State) (f n : Nat), Tidy s → Awake s → n < 16 → (ringOf s f n).unsignalled ≠ 0 → (ringOf s f n).intDelay ≠ 0 →
    (ringOf s f n).firstAt + 1000 * (ringOf s f n).intDelay ≤ s.now →
    (func s f).bme = true → (func s f).msix = true → (func s f).masked.contains (ringOf s f n).vector = false →
    ∃ u, exec (.intDelayExpiry f n) s = .next u ∧ u.sent = s.sent ++ [.interrupt f (ringOf s f n).vector .msix] ∧
      ringOf u f n = { ringOf s f n with unsignalled := 0 } ∧ u = { s with hiu := { s.hiu with rings := u.hiu.rings }, sent := u.sent })

/-- QUERY writes its record and completes; configuration requests are answered by the function, with CRS while it is not ready and UR
where it does not exist; host reads that fail or get no answer within the Completion Timeout end what
waited for them, and their tags rest; without Bus Master Enable the rings
stop; a failed IDE stream ends and is reported; the mailboxes answer.
Choices of the model that it meets: log entries 6, 11, 64, 66, 75, 89. -/
def Obligations.HostRequests : Prop :=
  (∀ (r : RingCmd) (ctx addr result : Nat) (s v : State), started r Opc.query s = some v → result % 64 = 0 →
    exec (.query r ctx 0 addr result) s =
      .next (complete r Opc.query .ok 0 { v with sent := v.sent ++ [.hostWrite r.fn result (deviceRecord v)] }) ∧
    (v.dev.memEnabled = true → OwnCtx r ctx v →
      exec (.query r ctx 1 addr result) s =
        .next (complete r Opc.query .ok 0 { v with sent := v.sent ++ [.hostWrite r.fn result (ctxRecord v ctx)] }) ∧
      (addr < 2 ^ 48 → accessCheck v (ringAsk r.fn ctx false false) (addr / 2 ^ 24) = none →
        exec (.query r ctx 2 addr result) s =
          .next (complete r Opc.query .ok 0 { v with sent := v.sent ++ [.hostWrite r.fn result (slabRecord v ctx (addr / 2 ^ 24))] }) ∧
        exec (.query r ctx 3 addr result) s =
          .next (complete r Opc.query .ok 0 { v with sent := v.sent ++
            [.hostWrite r.fn result (blockRecord v (addr / 2 ^ 24) (addr % 2 ^ 24 / 4096))] })))) ∧
  (∀ (s : State) (f : Nat), Tidy s → f < 4096 → portUp s (fnPort f) = true →
    (fnExists s f = false → ∀ req, exec (.configRequest f req) s = .next { s with sent := s.sent ++ [.configResp f .ur] }) ∧
    (fnExists s f = true → (func s f).phase ≠ .ready → s.sss.state = .watch →
      ∀ req, exec (.configRequest f req) s = .next { s with sent := s.sent ++ [.configResp f .crs] }) ∧
    (fnExists s f = true → (func s f).phase = .ready →
      exec (.configRequest f (.read .deviceId)) s =
        .next { s with sent := s.sent ++ [.configResp f .ok, .config f (if f % 2048 = 0 then s.dev.deviceId else s.dev.deviceId + 1)] } ∧
      (∃ u, exec (.configRequest f .setBme) s = .next u ∧ func u f = { func s f with bme := true } ∧
        (∀ g, g ≠ f → func u g = func s g) ∧ u.sent = s.sent ++ [.configResp f .ok]) ∧
      (Awake s → ∃ u, exec (.bmeClear f) s = .next u ∧ func u f = { func s f with bme := false } ∧
        (∀ n, n < 16 → (ringOf s f n).state = .active → (ringOf u f n).state = .stopped) ∧
        (∀ g n, g ≠ f → n < 16 → ringOf u g n = ringOf s g n) ∧ u.mem = s.mem))) ∧
  (∀ (s : State) (port t : Nat), Tidy s → Awake s → port < 2 →
    (∀ f n, tfind (hport s port).tags t = some (.fetch f n) → (ringOf s f n).state = .active →
      (∃ u, exec (.dmaCompletion port t .data) s = .next u ∧ (ringOf u f n) = { ringOf s f n with fetchTag := none } ∧
        (hport u port).tags = tdel (hport s port).tags t) ∧
      (∃ u, exec (.dmaCompletion port t .ur) s = .next u ∧ (ringOf u f n).state = .error ∧
        (ringOf u f n).err = Status.dmaError.code ∧ (hport u port).tags = tdel (hport s port).tags t) ∧
      (tget 0 (hport s port).tagAt t + tagBound s port ≤ s.now → ∃ u, exec (.completionTimeout port t) s = .next u ∧ (ringOf u f n).state = .error ∧
        (ringOf u f n).err = Status.dmaTimeout.code ∧ tfind (hport u port).tags t = some .quarantine ∧
        counter u (Pg.hiu + port) 0xE28 = (counter s (Pg.hiu + port) 0xE28 + 1) % 2 ^ 64)) ∧
    (tfind (hport s port).tags t = some .quarantine →
      (tget 0 (hport s port).tagAt t + 2000 * (func s (pfOf port)).ctoUs ≤ s.now → ∃ u, exec (.tagQuarantineEnd port t) s = .next u ∧ (hport u port).tags = tdel (hport s port).tags t ∧
        u = { s with hiu := u.hiu }) ∧
      (∃ u, exec (.dmaCompletion port t .data) s = .next u ∧ (hport u port).tags = (hport s port).tags ∧
        counter u (Pg.hiu + port) 0xE30 = (counter s (Pg.hiu + port) 0xE30 + 1) % 2 ^ 64)) ∧
    (∀ stream, (hport s port).ide.contains stream = true →
      ∃ u e, exec (.ideFailure port stream) s = .next u ∧ stream ∉ (hport u port).ide ∧ u.router = s.router ++ [e] ∧
        e.code = .dmaError ∧ e.dests = [pfOf port] ∧
        counter u (Pg.hiu + port) 0xE50 = (counter s (Pg.hiu + port) 0xE50 + 1) % 2 ^ 64) ∧
    (portUp s port = true → (func s (pfOf port)).phase = .ready →
      (∀ v, ∃ u x, exec (.cxlMailboxCommand port (.setTimestamp v)) s = .next u ∧ u.sent = s.sent ++ [.mailbox port 0 []] ∧
        exec (.cxlMailboxCommand port .getTimestamp) u = .next x ∧ x.sent = u.sent ++ [.mailbox port 0 [v]]) ∧
      (∀ stream, stream < 6 → s.otp.life ≠ .scrapped →
        ∃ u, exec (.spdmDoe (pfOf port) (.ideKeyProg stream)) s = .next u ∧ stream ∈ (hport u port).ide ∧
          u.sent = s.sent ++ [.doe (pfOf port) true []])))

/-! Events, control cores, the safe-state sequencer and firmware slots -/

/-- The oldest event goes to the log and to the event rings of its functions; a unit that hangs is reported and, where it takes a unit reset,
reset; a core is restarted; a FATAL trigger is recorded, and every page and shared resource becomes the sequencer's; only the code 0x5AFE in SAFE state
asks for the reset; firmware is staged, selected and committed as its image and slots allow, and a
trial that is not ended by 10 s goes back.
Choices of the model that it meets: log entries 6, 10, 16, 68, 69, 70, 72, 76. -/
def Obligations.EventsCoresFirmware : Prop :=
  (∀ (s : State) (e : Evt) (rest : List Evt), Tidy s → Awake s → s.router = e :: rest →
    (∃ u, exec .eventRoute s = .next u ∧ u.router = rest ∧ counter u Pg.ccx 0xE18 = (counter s Pg.ccx 0xE18 + 1) % 2 ^ 64 ∧
      (logged e = true → s.ccx.log.length < 220 → u.ccx.log = s.ccx.log ++ [e]) ∧ (logged e = false → u.ccx.log = s.ccx.log) ∧
      u.mem = s.mem) ∧
    (∀ f, e.dests = [f] → (func s f).evtOn = true → (func s f).bme = true → (func s f).d3hot = false →
      ((func s f).evtIdx + 1) % 2 ^ (func s f).evtLog ≠ (func s f).evtHead % 2 ^ (func s f).evtLog →
      ∃ u, exec .eventRoute s = .next u ∧ .eventRecord f (func s f).evtIdx (func s f).evtPhase e ∈ u.sent ∧
        (func u f).evtIdx = ((func s f).evtIdx + 1) % 2 ^ (func s f).evtLog)) ∧
  (∀ (s : State) (page n : Nat) (t : PageType), Tidy s → Awake s → pageOf page = some (t, n) → hangs t = true →
    ∃ u e, exec (.unitHang page true) s = .next u ∧ (resettable t = true → (pageHdr u page).resetting = true) ∧ e ∈ u.router ∧ e.page = page ∧
      e.sev = .contained ∧ e.dests = pfs ∧ counter u Pg.ccx 0xE40 = (counter s Pg.ccx 0xE40 + 1) % 2 ^ 64) ∧
  (∀ (s : State) (n why again : Nat), Tidy s → Awake s → trising 0 s.ccx.cores = true → n < 16 →
    ((coreAt s n).state = .online → 1 ≤ why → why ≤ 3 →
      ((coreAt s n).recent.filter (fun t => decide (s.now < t + dayNs))).length + 1 < fld s Pg.ccx 0x400 15 12 →
      ∃ u, exec (.coreWatchdog n why) s = .next u ∧ (coreAt u n).state = .restarting ∧ (coreAt u n).lastCause = why ∧
        (coreAt u n).restarts = (coreAt s n).restarts + 1 ∧ (∀ m, m ≠ n → coreAt u m = coreAt s m) ∧
        counter u Pg.ccx 0xE08 = (counter s Pg.ccx 0xE08 + 1) % 2 ^ 64) ∧
    ((coreAt s n).state = .restarting → ∃ u, exec (.coreRestartDone n again) s = .next u ∧
      coreAt u n = { coreAt s n with state := .online } ∧ (∀ m, m ≠ n → coreAt u m = coreAt s m) ∧
      counter u Pg.ccx 0xE38 = (counter s Pg.ccx 0xE38 + again) % 2 ^ 64)) ∧
  (∀ (s : State) (cause : Nat), Tidy s → 1 ≤ cause → cause < 8 →
    (Awake s → ∃ u, exec (.fatalTrigger cause) s = .next u ∧ u.sss.cause = cause ∧ u.sss.time = s.now % 2 ^ 56 ∧ u.sss.fault = true ∧
      u.sss.state = (if s.ccx.trial then .takingOver else .safe) ∧
      (∀ p, p < 4096 → (pageOf p).isSome = true → (pageHdr u p).owner = .sss ∧ (pageHdr u p).unlocked = false) ∧
      (∀ n, n < 19 → (claimOf u n).owner = .sss) ∧ (∀ p, p < 8 → (fportAt u p).state = .disabled) ∧ u.sht.state = .frozen ∧
      u.mem = s.mem ∧ u.ple = s.ple) ∧
    (s.boot.halted = false → s.sss.state = .safe → s.sss.second = 0 →
      exec (.fatalTrigger cause) s = .next { s with sss := { s.sss with second := cause } })) ∧
  (∀ (s : State) (w code : Nat), Tidy s → isPf w = true → w < 4096 → portUp s (fnPort w) = true → s.boot.halted = false →
    (s.sss.state = .safe → code = 0x5AFE →
      exec (.sssResetReq w code) s = .next { s with sss := { s.sss with resetAsked := true } }) ∧
    (s.sss.state ≠ .safe ∨ code ≠ 0x5AFE → ∃ u, exec (.sssResetReq w code) s = .next u ∧ u = { s with pages := u.pages } ∧
      (pageHdr u Pg.sss).ignored = min (2 ^ 32 - 1) ((pageHdr s Pg.sss).ignored + 1)) ∧
    (∀ value, Owns s w Pg.sss → (pageHdr s Pg.sss).unlocked = true → value % 2 = 1 →
      (openLife s = true → ∃ u, exec (.sssForce w value) s = .next u ∧ u.sss.cause = 6 ∧ u.sss.state ≠ .watch) ∧
      (openLife s = false → ∃ u, exec (.sssForce w value) s = .next u ∧ u = { s with pages := u.pages } ∧
        pageHdr u Pg.sss = refusedHdr kindRefusedState .accessDenied 0x400 w (accessed w (pageHdr s Pg.sss))))) ∧
  (∀ (s : State) (w : Nat), Tidy s → Owns s w Pg.ccx →
    (s.ccx.busy = false → 4096 ≤ fld s Pg.ccx 0x70 25 0 → fld s Pg.ccx 0x70 25 0 ≤ 33554432 → (func s w).bme = true →
      ∃ u, exec (.fwStage w) s = .next u ∧ u = { s with pages := u.pages, ccx := { s.ccx with busy := true, stager := w, result := 0 } }) ∧
    (∃ u, exec (.fwSelect w) s = .next u ∧ u = { s with pages := u.pages, ccx := u.ccx } ∧
      u.ccx = (if (otherSlot s).state = .valid ∧ s.otp.minSvn ≤ (otherSlot s).svn then
        { s.ccx with nextB := !s.ccx.activeB, result := 1 } else { s.ccx with result := 7 })) ∧
    ((activeSlot s).state = .active →
      ∃ u, exec (.fwCommit w) s = .next u ∧ u.otp = { s.otp with minSvn := max s.otp.minSvn (activeSlot s).svn } ∧ u.ccx.result = 1)) ∧
  (∀ (s : State) (i : FwImage), Tidy s → Awake s →
    (s.ccx.busy = true → i.authentic = true → s.otp.revoked.contains i.keyIndex = false → i.keyIndex < 4 → s.otp.minSvn ≤ i.svn →
      i.written = true → ∃ u, exec (.fwStageDone (.image i)) s = .next u ∧ (otherSlot u).state = .staged ∧
        (otherSlot u).version = i.version ∧ (otherSlot u).svn = i.svn ∧ activeSlot u = activeSlot s ∧ u.ccx.busy = false ∧
        u.ccx.nextB = !s.ccx.activeB ∧ u.ccx.result = 1 ∧ u.otp = s.otp) ∧
    (s.ccx.busy = true → i.authentic = false → ∃ u, exec (.fwStageDone (.image i)) s = .next u ∧
      u = { s with ccx := { s.ccx with busy := false, result := 2 } }) ∧
    (s.ccx.trial = true → 10000000000 ≤ s.now → ∃ u, exec .fwTrialTimeout s = .next u ∧ u.sss.trialReset = true ∧
      (activeSlot u).trials = (activeSlot s).trials + 1 ∧ otherSlot u = otherSlot s))

/-! Lifecycle, keys and trust -/

/-- A token that passes its checks makes its transition pending, one that fails changes nothing but the result; key slots are allocated,
loaded and destroyed; a trust store that is formed, fits and is signed comes into force, and a commit raises its least version; a
debug grant answers a fresh nonce, and its end releases what was claimed under it.
Choices of the model that it meets: log entries 9, 21, 73, 74, 76. -/
def Obligations.LifecycleKeysTrust : Prop :=
  (∀ (s : State) (w : Nat), Tidy s → Owns s w Pg.lcc → s.lcc.busy = false →
    (∃ u, exec (.lccSubmit w) s = .next u ∧
      u = { s with pages := u.pages, lcc := { s.lcc with busy := true, two := flag s Pg.lcc 0x48 0, submitter := w, result := 0 } }) ∧
    (∃ u, exec (.lccCancel w) s = .next u ∧ u = { s with pages := u.pages, lcc := { s.lcc with pending := none } })) ∧
  (∀ (s : State) (d : List Byte), Tidy s → Awake s → s.lcc.busy = true → s.lcc.two = false → (func s s.lcc.submitter).bme = true →
    d.length = 256 →
    ∃ u, exec (.lccTokenChecked (.bytes d)) s = .next u ∧
      (∀ p, checkTokens s [d] = .ok p → u = { s with lcc := { s.lcc with busy := false, result := 1, pending := some p } }) ∧
      (∀ r, checkTokens s [d] = .error r → u = { s with lcc := { s.lcc with busy := false, result := r }, cnts := u.cnts } ∧
        counter u Pg.lcc 0xE08 = (counter s Pg.lcc 0xE08 + 1) % 2 ^ 64)) ∧
  (∀ (s : State) (w : Nat), Tidy s → Owns s w Pg.sec → s.sec.done = true →
    ((∃ k, k < 65536 ∧ (keyAt s k).state = .free) →
      ∃ u k, exec (.keyAlloc w) s = .next u ∧ k < 65536 ∧ (keyAt s k).state = .free ∧
        keyAt u k = { KeySlot.reset with state := .empty, port := fnPort w } ∧ (∀ j, j ≠ k → keyAt u j = keyAt s j) ∧
        u.sec.slot = k ∧ u.sec.result = 1) ∧
    (∀ k b, k < 65536 → (keyAt s k).state = .empty → (keyAt s k).port = fnPort w → (func s w).bme = true →
      ∃ u, exec (.keyImport w k (.bytes b)) s = .next u ∧ (∀ j, j ≠ k → keyAt u j = keyAt s j) ∧
        (∀ key, blobKey s k b = some key → keyAt u k = { keyAt s k with state := .loaded, key := key } ∧ u.sec.result = 1) ∧
        (blobKey s k b = none → keyAt u k = keyAt s k ∧ u.sec.result = 3)) ∧
    (∀ k, k < 65536 → (keyAt s k).port = fnPort w →
      ((keyAt s k).state = .loaded → ∃ u, exec (.keyDestroy w k) s = .next u ∧ keyAt u k = KeySlot.reset ∧
        (∀ j, j ≠ k → keyAt u j = keyAt s j) ∧ u.sec.result = 1 ∧ u.sec.done = true) ∧
      ((keyAt s k).state = .bound → ∃ u, exec (.keyDestroy w k) s = .next u ∧ keyAt u k = { keyAt s k with dying := true } ∧
        u.sec.done = false ∧ u.mem = s.mem ∧ u.ple = s.ple)) ∧
    (∀ b, (func s w).bme = true →
      (∀ p, p < 8 → (fportAt s p).spdmDone = false) →
      ∃ u, exec (.trustStage w (.bytes b)) s = .next u ∧
        (trustRefusal s b = none → u = { s with pages := u.pages, sec := { s.sec with trust := b, trustResult := 1 } }) ∧
        (∀ r, trustRefusal s b = some r → u = { s with pages := u.pages, sec := { s.sec with trustResult := r } })) ∧
    (∃ u, exec (.trustCommit w) s = .next u ∧
      u = { s with pages := u.pages, otp := { s.otp with trustMin := max s.otp.trustMin (trustVersion s) },
                   sec := { s.sec with trustResult := 1 } }) ∧
    (∃ u v, exec (.grantNonceRead w) s = .next u ∧ u.sec.nonce = some v ∧ u.sec.nonceUsed = false ∧ v < 2 ^ 64 ∧
      u.sent = s.sent ++ [.readData Pg.sec 0x68 v] ∧ u.sec.grant = s.sec.grant) ∧
    (∀ addr b, (func s w).bme = true →
      ∃ u, exec (.debugGrantSubmit w addr (.bytes b)) s = .next u ∧
        (grantGood s b = true → u.sec.grant = some
          { port := fnPort w, ends := s.now + field b 24 4 * 1000000000, signer := field b 4 1, lifetime := field b 24 4 } ∧ u.sec.nonceUsed = true) ∧
        (grantGood s b = false → u.sec = s.sec ∧ u.tmx = s.tmx)) ∧
    (∃ u, exec (.debugGrantRevoke w) s = .next u ∧ u.sec.grant = none ∧
      (s.sec.grant.isSome = true → ∀ n, n < 19 → (claimOf u n).owner ≠ .debug))) ∧
  (∀ s : State, Tidy s → Awake s → s.sec.grant.any (fun g => decide (g.ends ≤ s.now)) = true →
    ∃ u, exec .debugGrantExpiry s = .next u ∧ u.sec.grant = none ∧ (∀ n, n < 19 → (claimOf u n).owner ≠ .debug) ∧ u.mem = s.mem) ∧
  (∀ (s : State) (k c : Nat), Tidy s → Awake s → (keyAt s k).dying = true → k < 65536 → boundTo s k = [c] → slabsOf s c = [] →
    ∃ u, exec (.keyDestroyDone k) s = .next u ∧ keyAt u k = KeySlot.reset ∧ ctxAt u c = { ctxAt s c with key := 0xFFFF } ∧
      (∀ d, d ≠ c → ctxAt u d = ctxAt s d) ∧ u.sec.result = 1 ∧ u.sec.done = true ∧ u.mem = s.mem)

/-! Ends of contexts and functions -/

/-- CTX_DESTROY takes the context out of service with its windows, partitions and guarantees; FLR of a VF resets it, its rings and its
contexts, and one of a function that is not ready is answered CRS; VF_ENABLE_CLEAR resets every VF; TDISP locks, starts and stops.
Choices of the model that it meets: log entries 1, 27, 77, 78. -/
def Obligations.ContextAndFunctionEnds : Prop :=
  (∀ (s : State) (w c : Nat), Tidy s → Owns s w Pg.ple → s.ple.ctxDone = true → c < 1048576 → (ctxAt s c).state = .active →
    fnPort (ctxFn s c) = fnPort w →
    ∃ u, exec (.ctxDestroy w c) s = .next u ∧ (ctxAt u c).state ≠ .active ∧ u.ple.ctxStatus = Status.ok.code ∧ u.ple.ctxDone = true ∧
      (∀ d, d ≠ c → (ctxAt s d).state = .active → (ctxAt u d).state = .active) ∧
      (∀ n x, windowAt u n = some x → x.ctx = c → x.stale = true) ∧ (∀ n, (partAt u n).ctx = c → (partAt u n).valid = false) ∧
      (resvOf u c).b1 = 0 ∧ (resvOf u c).b2 = 0 ∧ (resvOf u c).b3 = 0) ∧
  (∀ (s : State) (f : Nat), Tidy s → Awake s → f < 4096 → portUp s (fnPort f) = true →
    (fnExists s f = true → (func s f).phase = .ready → isPf f = false →
      ∃ u, exec (.flr f) s = .next u ∧ func u f = { Func.reset with phase := .inFlr } ∧ (∀ n, n < 16 → ringOf u f n = Ring.reset) ∧
        (∀ c, (ctxAt u c).fn = f → (ctxAt u c).state ≠ .active) ∧
        counter u (Pg.hiu + fnPort f) 0xE40 = (counter s (Pg.hiu + fnPort f) 0xE40 + 1) % 2 ^ 64) ∧
    (fnExists s f = true → (func s f).phase ≠ .ready →
      exec (.flr f) s = .next { s with sent := s.sent ++ [.configResp f .crs] }) ∧
    (fnExists s f = false → exec (.flr f) s = .next { s with sent := s.sent ++ [.configResp f .ur] })) ∧
  (∀ (s : State) (port : Nat), Tidy s → Awake s → port < 2 → portUp s port = true → (func s (pfOf port)).phase = .ready →
    (func s (pfOf port)).vfEnable = true → (func s (pfOf port)).numVfs ≤ 2047 →
    ∃ u, exec (.vfEnableClear port) s = .next u ∧ (func u (pfOf port)).vfEnable = false ∧
      ∀ i, 1 ≤ i → i ≤ (func s (pfOf port)).numVfs →
        (func u (pfOf port + i)).phase = .retry ∧ (func u (pfOf port + i)).bme = false ∧
        ∀ n, n < 16 → ringOf u (pfOf port + i) n = Ring.reset) ∧
  (∀ (s : State) (f : Nat), Tidy s → Awake s → fnLive s f = true → (func s f).phase = .ready → isPf f = false → s.otp.life ≠ .scrapped →
    ((func s f).tdi = .unlocked → ∃ u, exec (.tdispRequest f .lock) s = .next u ∧ func u f = { func s f with tdi := .locked } ∧
      u.sent = s.sent ++ [.tdisp f true]) ∧
    ((func s f).tdi = .locked → ∃ u, exec (.tdispRequest f .start) s = .next u ∧ func u f = { func s f with tdi := .run } ∧
      u.sent = s.sent ++ [.tdisp f true]) ∧
    ((func s f).tdi = .run → ∃ u, exec (.tdispRequest f .stop) s = .next u ∧ func u f = { Func.reset with phase := .inFlr } ∧
      .tdisp f true ∈ u.sent))

/-! Start-up and reset -/

/-- A start leaves memory empty and counts the time from 0; it enables memory only with a T1 channel online and the self-test's
consent. Power that falls stops the device; cold resets come with their cause and are counted; a port reset takes its link and its
PF with it; links and functions become ready; MEM_ACTIVE ends a trial; a zeroed frame reads as zeros; a finished wipe clears WIPE_DUE.
Choices of the model that it meets: log entries 5, 7, 12, 67, 79, 81, 82. -/
def Obligations.StartAndResets : Prop :=
  (∀ (s : State) (f : Fitted), s.dev.powered = false →
    ∃ u, exec (.powerOnReset f) s = .next u ∧ u.dev.powered = true ∧ u.dev.serial = f.serial ∧ u.mem = [] ∧ u.now = 0 ∧
      u.pending = s.pending ∧ u.otp.minSvn = s.otp.minSvn ∧ u.boot.cause = 0 ∧ u.boot.coldCount = 0 ∧
      (u.dev.memEnabled = true → 0 < onlineCount u 0 256 ∧ u.boot.noMemory = false) ∧
      (f.sssOk = false → u.boot.halted = true)) ∧
  (∀ s : State, s.dev.powered = true →
    (∃ u, exec .pwrOkFall s = .next u ∧ u.dev.powered = false ∧ u.dev.memEnabled = false ∧ u.boot.halted = true ∧
      u.sent = s.sent ++ [.pins true true] ∧ u.otp = s.otp ∧ u.hiu.p0.link = .detect ∧ u.hiu.p1.link = .detect) ∧
    (∀ sram, exec (.brownOut sram) s = exec .pwrOkFall s) ∧
    (∀ f : Fitted,
      (s.sss.resetAsked = true → ∃ u, exec (.coldReset .sssRequest f) s = .next u ∧ u.boot.cause = 1 ∧
        u.boot.coldCount = min 65535 (s.boot.coldCount + 1) ∧ u.mem = [] ∧ u.now = 0) ∧
      (s.sss.trialReset = true → ∃ u, exec (.coldReset .trialTakeover f) s = .next u ∧ u.boot.cause = 2 ∧
        u.boot.coldCount = min 65535 (s.boot.coldCount + 1) ∧ u.mem = []) ∧
      (∀ w, Owns s w Pg.iox → ∃ u, exec (.coldReset (.ioxWrite w 0xC01D) f) s = .next u ∧ u.boot.cause = 3 ∧ u.mem = []) ∧
      (s.hiu.p0.perst = true → s.hiu.p1.perst = true → flag s Pg.iox 0x68 1 = true →
        ∃ u, exec (.coldReset .bothPerst f) s = .next u ∧ u.boot.cause = 4 ∧ u.mem = []))) ∧
  (∀ (s : State) (port : Nat), Tidy s → port < 2 →
    (Awake s → (hport s port).perst = false → ∃ u, exec (.portReset port .perst) s = .next u ∧ (hport u port).link = .inReset ∧
      (hport u port).perst = true ∧ (hport u port).memActive = false ∧ (func u (pfOf port)).phase = .retry ∧
      (func u (pfOf port)).bme = false) ∧
    (s.boot.halted = false → (hport s port).perst = true → ∃ u, exec (.perstDeassert port) s = .next u ∧
      (hport u port).link = .training ∧ (hport u port).perst = false ∧ u = { s with hiu := u.hiu }) ∧
    (Awake s → (hport s port).link = .training → (func s (pfOf port)).phase ≠ .ready →
      ∃ u, exec (.functionReady (pfOf port)) s = .next u ∧ (hport u port).link = .l0 ∧ (func u (pfOf port)).phase = .ready ∧
        u.sent = s.sent ++ [.ready (pfOf port)] ∧ u.mem = s.mem) ∧
    (Awake s → s.dev.memEnabled = true → portUp s port = true → (func s (pfOf port)).phase = .ready →
      (hport s port).memActive = false → s.boot.cfg.parts = [] →
      ∃ u, exec (.memActiveSet port) s = .next u ∧ (hport u port).memActive = true ∧ u.ccx.trial = false ∧
        (s.ccx.trial = true → (activeSlot u).state = .active) ∧ u.mem = s.mem ∧ u.ple = s.ple)) ∧
  (∀ (s : State) (t : Tier) (n : Nat), Tidy s → Awake s → s.mge.zeroing.contains (t, n) = true → s.mge.held = [] →
    (∀ m ∈ s.mge.moves, m.cls = 3 → m.phase ≠ .queued) →
    ∃ u, exec (.frameZeroed t n) s = .next u ∧ u.mge.zeroing = s.mge.zeroing.erase (t, n) ∧
      (∀ a, homeKey t n 0 ≤ a / 4096 → a / 4096 < homeKey t n 0 + 4096 → tget 0 u.mem a = 0) ∧
      (∀ a, a / 4096 < homeKey t n 0 ∨ homeKey t n 0 + 4096 ≤ a / 4096 → tget 0 u.mem a = tget 0 s.mem a)) ∧
  (∀ s : State, Tidy s → Awake s → s.lcc.wiping = true →
    ∃ u, exec (.lifecycleWipeDone [] []) s = .next u ∧ u.lcc.wiping = false ∧ u.otp.wipeDue = false ∧
      u.dev.memEnabled = mayEnable s ∧ counter u Pg.lcc 0xE10 = (counter s Pg.lcc 0xE10 + 1) % 2 ^ 64)

/-! Claims, multiplexer, trace and test port -/

/-- A free shared resource goes to the PF that asks, and one that is held is denied; its holder releases it, selects what the
multiplexer allows, and starts and stops the trace; the trace reads 8 bytes at a time; the test port gives its ID, refuses pin
instructions while the device is in use, and lets go of its claims at its reset.
Choices of the model that it meets: log entries 21, 71. -/
def Obligations.ClaimsAndTest : Prop :=
  (∀ (s : State) (w res : Nat), Tidy s → Owns s w Pg.tmx → res = 17 ∨ res = 18 →
    (claimLimited s (.fn w) .pf res = false →
      ((claimOf s res).owner = .free → ∃ u, exec (.claimTake (.fn w) 2 res) s = .next u ∧ (claimOf u res).owner = .pf ∧
        (claimOf u res).port = fnPort w ∧ (∀ n, n ≠ res → claimOf u n = claimOf s n) ∧ u.tmx.resultStatus = Status.ok.code ∧
        u.tmx.resultResource = res ∧ counter u Pg.tmx 0xE08 = (counter s Pg.tmx 0xE08 + 1) % 2 ^ 64) ∧
      ((claimOf s res).owner ≠ .free → ∃ u, exec (.claimTake (.fn w) 2 res) s = .next u ∧ (∀ n, claimOf u n = claimOf s n) ∧
        u.tmx.resultStatus = Status.claimDenied.code ∧ counter u Pg.tmx 0xE10 = (counter s Pg.tmx 0xE10 + 1) % 2 ^ 64)) ∧
    ((claimOf s res).owner = .pf → (claimOf s res).tap = false → (claimOf s res).port = fnPort w → s.tmx.trigCmp = none →
      ∃ u, exec (.claimRelease (.fn w) 2 res) s = .next u ∧ claimOf u res = ClaimRec.free ∧ (∀ n, n ≠ res → claimOf u n = claimOf s n) ∧
        u.tmx.resultStatus = Status.ok.code)) ∧
  (∀ (s : State) (w : Nat) (v : Word), Tidy s → Owns s w Pg.tmx →
    (writerHolds s (.fn w) resPins = true →
      (∀ c, muxClass (bits v 7 0) (bits v 15 8) = some c → muxAllowed s c = true →
        ∃ u, exec (.muxSelWrite (.fn w) v) s = .next u ∧
          u = { s with pages := u.pages, tmx := { s.tmx with muxSel := bits v 7 0, muxArg := bits v 15 8 } }) ∧
      (muxClass (bits v 7 0) (bits v 15 8) = none → ∃ u, exec (.muxSelWrite (.fn w) v) s = .next u ∧ u = { s with pages := u.pages } ∧
        pageHdr u Pg.tmx = refusedHdr kindRefusedValue .accessDenied 0x50 w (accessed w (pageHdr s Pg.tmx)))) ∧
    (writerHolds s (.fn w) resTrace = true → bits v 29 28 = 0 → s.tmx.trigCmp = none →
      (∃ u, exec (.traceStart (.fn w) v) s = .next u ∧ u.tmx.traceState = .capturing ∧ u.tmx.records = [] ∧ u.tmx.readPos = 0 ∧
        u.tmx.claims = s.tmx.claims ∧ u.mem = s.mem) ∧
      (s.tmx.traceState = .capturing → ∃ u, exec (.traceStop (.fn w) v) s = .next u ∧ u.tmx.traceState = .done ∧
        u.tmx.records = s.tmx.records ∧ u.tmx.claims = s.tmx.claims)) ∧
    (∀ b rest, s.tmx.records = b :: rest → s.tmx.readPos < 3 →
      ∃ u, exec (.traceDataRead (.fn w)) s = .next u ∧ u.tmx = { s.tmx with readPos := s.tmx.readPos + 1 } ∧
        u.sent = s.sent ++ [.readData Pg.tmx 0x68 (leNat ((b.drop (8 * s.tmx.readPos)).take 8))])) ∧
  (∀ s : State, Tidy s →
    (∃ u n, exec (.jtagInstruction .idcode) s = .next u ∧ u.tmx = { s.tmx with tapIr := .idcode, tapOwner := .free } ∧
      u.sent = s.sent ++ [.tdo n] ∧ n / 2 ^ 12 = 0x27200 ∧ n % 2 = 1) ∧
    (inUse s = true → ∃ u, exec (.jtagInstruction .extest) s = .next u ∧ u.tmx = { s.tmx with tapIr := .bypass, tapOwner := .free } ∧
      counter u Pg.tmx 0xE18 = (counter s Pg.tmx 0xE18 + 1) % 2 ^ 64) ∧
    (∃ u, exec .tapReset s = .next u ∧ u.tmx.tapIr = .idcode ∧ (∀ n, n < 19 → (claimOf u n).tap = false) ∧
      u.tmx.resetDue = (s.tmx.resetDue || s.tmx.testEntered) ∧ u.mem = s.mem))
end

