-- ==== Sys2Proof/Laws/Store.lean ====
section
/-! SUPPORT. Sys2Proof/Laws/Store.lean: the laws of the sparse table: a read after a write, and the canonical form, which every
operation on memory and on the other tables keeps. -/

set_option Elab.async false

namespace Sys2Proof.Machine

variable {α : Type}

theorem trising_mono {lo lo' : Nat} {t : Tbl α} (hle : lo ≤ lo') (h : trising lo' t = true) : trising lo t = true := by
  cases t with
  | nil => rfl
  | cons e t => simp [trising] at h ⊢; exact ⟨by omega, h.2⟩

theorem trising_lower {lo : Nat} {t : Tbl α} (h : trising lo t = true) : ∀ e ∈ t, lo ≤ e.1 := by
  induction t generalizing lo with
  | nil => simp
  | cons a t ih =>
    simp [trising] at h
    intro e he
    rcases List.mem_cons.1 he with rfl | he
    · exact h.1
    · have := ih h.2 e he; omega

/-- A key below the first one is not listed. -/
theorem tfind_below {lo k : Nat} {t : Tbl α} (h : trising lo t = true) (hk : k < lo) : tfind t k = none := by
  cases t with
  | nil => rfl
  | cons e t => simp [trising] at h; simp [tfind, show k ≠ e.1 by omega, show k < e.1 by omega]

@[simp] theorem tfind_tins_same (t : Tbl α) (k : Nat) (v : α) : tfind (tins t k v) k = some v := by
  induction t with
  | nil => simp [tins, tfind]
  | cons e t ih =>
    by_cases h1 : k < e.1
    · simp [tins, tfind, h1]
    · by_cases h2 : k = e.1
      · simp [tins, tfind, h2]
      · simp [tins, tfind, h1, h2, ih]

theorem tfind_tins_ne {t : Tbl α} {k j : Nat} {v : α} (hj : j ≠ k) : tfind (tins t k v) j = tfind t j := by
  induction t with
  | nil => simp only [tins, tfind, hj, if_false]; split <;> rfl
  | cons e t ih =>
    by_cases h1 : k < e.1
    · by_cases hj1 : j < k
      · simp [tins, tfind, h1, hj, hj1, show j < e.1 by omega, show j ≠ e.1 by omega]
      · simp [tins, tfind, h1, hj, hj1]
    · by_cases h2 : k = e.1
      · subst h2
        simp [tins, tfind, hj]
      · simp [tins, tfind, h1, h2, ih]

theorem tfind_tdel_same {lo : Nat} {t : Tbl α} (h : trising lo t = true) (k : Nat) : tfind (tdel t k) k = none := by
  induction t generalizing lo with
  | nil => rfl
  | cons e t ih =>
    simp [trising] at h
    by_cases h1 : k < e.1
    · simp [tdel, tfind, h1, show k ≠ e.1 by omega]
    · by_cases h2 : k = e.1
      · subst h2; simpa [tdel] using tfind_below h.2 (Nat.lt_succ_self _)
      · simpa [tdel, tfind, h1, h2] using ih h.2

theorem tfind_tdel_ne {lo : Nat} {t : Tbl α} (h : trising lo t = true) {k j : Nat} (hj : j ≠ k) :
    tfind (tdel t k) j = tfind t j := by
  induction t generalizing lo with
  | nil => rfl
  | cons e t ih =>
    simp [trising] at h
    by_cases h1 : k < e.1
    · simp [tdel, h1]
    · by_cases h2 : k = e.1
      · subst h2
        by_cases hj1 : j < e.1
        · simp [tdel, tfind, hj, hj1, tfind_below h.2 (show j < e.1 + 1 by omega)]
        · simp [tdel, tfind, hj, hj1]
      · simp [tdel, tfind, h1, h2, ih h.2]

theorem trising_tins {lo : Nat} {t : Tbl α} {k : Nat} (v : α) (h : trising lo t = true) (hk : lo ≤ k) :
    trising lo (tins t k v) = true := by
  induction t generalizing lo with
  | nil => simp [tins, trising, hk]
  | cons e t ih =>
    simp [trising] at h
    by_cases h1 : k < e.1
    · simp [tins, trising, h1, hk, h.2] <;> omega
    · by_cases h2 : k = e.1
      · subst h2; simp [tins, trising, h]
      · simp [tins, trising, h1, h2, h.1, ih h.2 (by omega)]

theorem trising_tdel {lo : Nat} {t : Tbl α} (k : Nat) (h : trising lo t = true) : trising lo (tdel t k) = true := by
  induction t generalizing lo with
  | nil => rfl
  | cons e t ih =>
    simp [trising] at h
    by_cases h1 : k < e.1
    · simp [tdel, trising, h1, h]
    · by_cases h2 : k = e.1
      · subst h2; simpa [tdel] using trising_mono (by omega) h.2
      · simp [tdel, trising, h1, h2, h.1, ih h.2]

theorem trising_filter {lo : Nat} {t : Tbl α} (p : Nat × α → Bool) (h : trising lo t = true) :
    trising lo (t.filter p) = true := by
  induction t generalizing lo with
  | nil => rfl
  | cons e t ih =>
    simp [trising] at h
    by_cases hp : p e
    · simp [hp, trising, h.1, ih h.2]
    · simp only [List.filter_cons, hp]; exact trising_mono (by omega) (ih h.2)

theorem trising_map {lo : Nat} {t : Tbl α} {β : Type} (f : Nat × α → β) (h : trising lo t = true) :
    trising lo (t.map (fun e => (e.1, f e))) = true := by
  induction t generalizing lo with
  | nil => rfl
  | cons e t ih => simp [trising] at h; simp [trising, h.1, ih h.2]

/-- A run of rising keys from `k`. -/
theorem trising_range {lo : Nat} (f : Nat → α) (n k : Nat) (hk : lo ≤ k) :
    trising lo ((List.range' k n).map (fun i => (i, f i))) = true := by
  induction n generalizing lo k with
  | zero => rfl
  | succ n ih => simp [List.range'_succ, trising, hk, ih (k + 1) (Nat.le_refl _)]

theorem twf_iff [DecidableEq α] {d : α} {t : Tbl α} :
    twf d t = true ↔ trising 0 t = true ∧ ∀ e ∈ t, e.2 ≠ d := by
  simp [twf]

@[simp] theorem twf_nil [DecidableEq α] (d : α) : twf d ([] : Tbl α) = true := rfl

theorem mem_tins {t : Tbl α} {k : Nat} {v : α} {e : Nat × α} (h : e ∈ tins t k v) : e = (k, v) ∨ e ∈ t := by
  induction t with
  | nil => simp [tins] at h; exact .inl h
  | cons a t ih =>
    by_cases h1 : k < a.1
    · simpa [tins, h1] using h
    · by_cases h2 : k = a.1
      · simp only [tins, h2, Nat.lt_irrefl, if_true, if_false, List.mem_cons] at h ⊢
        exact h.imp_right .inr
      · simp only [tins, h1, h2, if_false, List.mem_cons] at h ⊢
        exact h.elim (fun h => .inr (.inl h)) (fun h => (ih h).imp_right .inr)

theorem mem_tdel {t : Tbl α} {k : Nat} {e : Nat × α} (h : e ∈ tdel t k) : e ∈ t := by
  induction t with
  | nil => exact h
  | cons a t ih =>
    by_cases h1 : k < a.1
    · simpa only [tdel, h1, if_true] using h
    · by_cases h2 : k = a.1
      · simp only [tdel, h2, Nat.lt_irrefl, if_true, if_false] at h
        exact List.mem_cons.2 (.inr h)
      · simp only [tdel, h1, h2, if_false, List.mem_cons] at h ⊢
        exact h.imp_right ih

/-- A write keeps the canonical form. -/
theorem twf_tput [DecidableEq α] {d : α} {t : Tbl α} (k : Nat) (v : α) (h : twf d t = true) :
    twf d (tput d t k v) = true := by
  rw [twf_iff] at h ⊢
  unfold tput
  split
  · exact ⟨trising_tdel k h.1, fun e he => h.2 e (mem_tdel he)⟩
  · refine ⟨trising_tins v h.1 (Nat.zero_le _), fun e he => ?_⟩
    rcases mem_tins he with rfl | he
    · assumption
    · exact h.2 e he

theorem trising_tput [DecidableEq α] {d : α} {t : Tbl α} {lo : Nat} (k : Nat) (v : α) (h : trising lo t = true)
    (hk : lo ≤ k) : trising lo (tput d t k v) = true := by
  unfold tput
  split
  · exact trising_tdel k h
  · exact trising_tins v h hk

theorem mem_tcells [DecidableEq α] {d : α} (vs : List α) {k j : Nat} {v : α} :
    (j, v) ∈ tcells d k vs ↔ k ≤ j ∧ vs[j - k]? = some v ∧ v ≠ d := by
  induction vs generalizing k with
  | nil => simp [tcells]
  | cons w vs ih =>
    have step : (j, v) ∈ tcells d (k + 1) vs ↔ k < j ∧ (w :: vs)[j - k]? = some v ∧ v ≠ d := by
      rw [ih]
      constructor
      · rintro ⟨h, e, n⟩
        exact ⟨h, by rw [show j - k = j - (k + 1) + 1 by omega]; exact e, n⟩
      · rintro ⟨h, e, n⟩
        exact ⟨h, by rw [show j - k = j - (k + 1) + 1 by omega] at e; exact e, n⟩
    by_cases hw : w = d
    · subst hw
      simp only [tcells, if_true, step]
      constructor
      · rintro ⟨h, e⟩; exact ⟨by omega, e⟩
      · rintro ⟨h, e, n⟩
        by_cases hj : j = k
        · subst hj; simp at e; exact absurd e.symm n
        · exact ⟨by omega, e, n⟩
    · simp only [tcells, hw, if_false, List.mem_cons, step, Prod.mk.injEq]
      constructor
      · rintro (⟨rfl, rfl⟩ | ⟨h, e⟩)
        · exact ⟨Nat.le_refl _, by simp, hw⟩
        · exact ⟨by omega, e⟩
      · rintro ⟨h, e, n⟩
        by_cases hj : j = k
        · subst hj; simp at e; exact .inl ⟨rfl, e.symm⟩
        · exact .inr ⟨by omega, e, n⟩

theorem trising_tcells [DecidableEq α] {d : α} (vs : List α) (k : Nat) : trising k (tcells d k vs) = true := by
  induction vs generalizing k with
  | nil => rfl
  | cons v vs ih =>
    unfold tcells
    split
    · exact trising_mono (Nat.le_succ k) (ih (k + 1))
    · simp [trising, ih (k + 1)]

theorem trising_append {lo m : Nat} {t u : Tbl α} (h : trising lo t = true) (ht : ∀ e ∈ t, e.1 < m) (hu : trising m u = true)
    (hm : lo ≤ m) : trising lo (t ++ u) = true := by
  induction t generalizing lo with
  | nil => exact trising_mono hm hu
  | cons e t ih =>
    simp [trising] at h ⊢
    exact ⟨h.1, ih h.2 (fun x hx => ht x (List.mem_cons_of_mem _ hx)) (ht e (List.mem_cons_self ..))⟩

theorem trising_raise {lo m : Nat} {t : Tbl α} (h : trising lo t = true) (hm : ∀ e ∈ t, m ≤ e.1) : trising m t = true := by
  cases t with
  | nil => rfl
  | cons e t => simp [trising] at h ⊢; exact ⟨hm e (List.mem_cons_self ..), h.2⟩

theorem trising_tputs [DecidableEq α] {d : α} (vs : List α) {t : Tbl α} (k : Nat) (h : trising 0 t = true) :
    trising 0 (tputs d t k vs) = true := by
  unfold tputs
  refine trising_append (trising_filter _ h) (fun e he => ?_) (trising_append (m := k + vs.length) (trising_tcells vs k) (fun e he => ?_)
    (trising_raise (trising_filter _ h) fun e he => ?_) (Nat.le_add_right ..)) (Nat.zero_le k)
  · simpa using (List.mem_filter.1 he).2
  · obtain ⟨hk, hi, _⟩ := (mem_tcells vs (j := e.1) (v := e.2)).1 he
    have := (List.getElem?_eq_some_iff.1 hi).1
    omega
  · simpa using (List.mem_filter.1 he).2

/-- A run of writes keeps the canonical form. -/
theorem twf_tputs [DecidableEq α] {d : α} (vs : List α) {t : Tbl α} (k : Nat) (h : twf d t = true) :
    twf d (tputs d t k vs) = true := by
  rw [twf_iff] at h ⊢
  refine ⟨trising_tputs vs k h.1, fun e he => ?_⟩
  rcases List.mem_append.1 he with he | he
  · exact h.2 e (List.mem_filter.1 he).1
  · rcases List.mem_append.1 he with he | he
    · exact ((mem_tcells vs (j := e.1) (v := e.2)).1 he).2.2
    · exact h.2 e (List.mem_filter.1 he).1

theorem twf_filter [DecidableEq α] {d : α} {t : Tbl α} (p : Nat × α → Bool) (h : twf d t = true) :
    twf d (t.filter p) = true := by
  rw [twf_iff] at h ⊢
  exact ⟨trising_filter p h.1, fun e he => h.2 e (List.mem_filter.1 he).1⟩

/-- Dropping entries keeps the canonical form. -/
theorem twf_tkeep [DecidableEq α] {d : α} {t : Tbl α} (p : Nat → Bool) (h : twf d t = true) :
    twf d (tkeep p t) = true := twf_filter _ h

/-- Changing every entry keeps the canonical form. -/
theorem twf_tmap [DecidableEq α] {d : α} {t : Tbl α} (f : Nat → α → α) (h : twf d t = true) :
    twf d (tmap d f t) = true := by
  rw [twf_iff] at h ⊢
  refine ⟨trising_filter _ (trising_map (fun e => f e.1 e.2) h.1), fun e he => ?_⟩
  simpa using (List.mem_filter.1 he).2

/-- A table listed key by key, without the entries that equal the default, is in canonical form. -/
theorem twf_listed [DecidableEq α] {d : α} (f : Nat → α) (n : Nat) :
    twf d (((List.range n).map (fun k => (k, f k))).filter (fun e => decide (e.2 ≠ d))) = true := by
  rw [twf_iff]
  refine ⟨trising_filter _ ?_, fun e he => by simpa using (List.mem_filter.1 he).2⟩
  simpa [List.range_eq_range'] using trising_range f n 0 (Nat.le_refl 0)

theorem twf_foldl_tput [DecidableEq α] {d : α} {β : Type} (k : β → Nat) (v : β → α) (l : List β) {t : Tbl α}
    (h : twf d t = true) : twf d (l.foldl (fun t x => tput d t (k x) (v x)) t) = true := by
  induction l generalizing t with
  | nil => exact h
  | cons x l ih => exact ih (twf_tput _ _ h)

/-- A read after a write to the same key gives the value written. -/
theorem tget_tput_same [DecidableEq α] {d : α} {t : Tbl α} (k : Nat) (v : α) (h : trising 0 t = true) :
    tget d (tput d t k v) k = v := by
  unfold tget tput
  split
  · next hv => rw [tfind_tdel_same h, hv]; rfl
  · rw [tfind_tins_same]; rfl

/-- A value other than the default reads back whatever the table's form. -/
theorem tget_tput_listed [DecidableEq α] {d : α} (t : Tbl α) (k : Nat) {v : α} (hv : v ≠ d) :
    tget d (tput d t k v) k = v := by
  simp [tget, tput, hv]

/-- A write leaves every other key alone. -/
theorem tget_tput_ne [DecidableEq α] {d : α} {t : Tbl α} {k j : Nat} (v : α) (h : trising 0 t = true) (hj : j ≠ k) :
    tget d (tput d t k v) j = tget d t j := by
  unfold tget tput
  split
  · rw [tfind_tdel_ne h hj]
  · rw [tfind_tins_ne hj]

/-- In a table with rising keys an entry is found just when it is listed. -/
theorem tfind_iff {lo : Nat} {t : Tbl α} (h : trising lo t = true) {k : Nat} {v : α} : tfind t k = some v ↔ (k, v) ∈ t := by
  induction t generalizing lo with
  | nil => simp [tfind]
  | cons e t ih =>
    have low := trising_lower h
    simp [trising] at h
    have low' := trising_lower h.2
    by_cases hk : k = e.1
    · subst hk
      constructor
      · intro hf; simp only [tfind, if_true, Option.some.injEq] at hf; rw [← hf]; exact List.mem_cons_self ..
      · intro hm
        rcases List.mem_cons.1 hm with he | hm
        · rw [← he]; simp [tfind]
        · have := low' _ hm; simp at this <;> omega
    · by_cases hl : k < e.1
      · simp only [tfind, hk, if_false, hl, if_true]
        constructor
        · intro hf; cases hf
        · intro hm
          rcases List.mem_cons.1 hm with he | hm
          · exact absurd (congrArg Prod.fst he) hk
          · have := low' _ hm; simp at this <;> omega
      · simp only [tfind, hk, if_false, hl, ih h.2]
        constructor
        · exact List.mem_cons_of_mem _
        · intro hm
          rcases List.mem_cons.1 hm with he | hm
          · exact absurd (congrArg Prod.fst he) hk
          · exact hm

/-- A run of writes leaves every key outside it alone. -/
theorem tget_tputs_outside [DecidableEq α] {d : α} (vs : List α) {t : Tbl α} {k j : Nat} (h : trising 0 t = true)
    (hj : j < k ∨ k + vs.length ≤ j) : tget d (tputs d t k vs) j = tget d t j := by
  unfold tget
  congr 1
  refine Option.ext fun v => ?_
  rw [tfind_iff (trising_tputs vs k h), tfind_iff h]
  simp only [tputs, List.mem_append, List.mem_filter, mem_tcells, decide_eq_true_eq]
  constructor
  · rintro (⟨hm, _⟩ | ⟨hk, hi, _⟩ | ⟨hm, _⟩)
    · exact hm
    · have := (List.getElem?_eq_some_iff.1 hi).1; omega
    · exact hm
  · intro hm
    rcases hj with hj | hj
    · exact .inl ⟨hm, hj⟩
    · exact .inr (.inr ⟨hm, hj⟩)

/-- A run of writes reads back inside it. -/
theorem tget_tputs_inside [DecidableEq α] {d : α} (vs : List α) {t : Tbl α} {k i : Nat} (h : trising 0 t = true)
    (hi : i < vs.length) : tget d (tputs d t k vs) (k + i) = vs[i] := by
  have listed : ∀ v, tfind (tputs d t k vs) (k + i) = some v ↔ vs[i] = v ∧ v ≠ d := fun v => by
    rw [tfind_iff (trising_tputs vs k h)]
    simp only [tputs, List.mem_append, List.mem_filter, mem_tcells, decide_eq_true_eq, Nat.add_sub_cancel_left]
    constructor
    · rintro (⟨_, hl⟩ | ⟨_, e, n⟩ | ⟨_, hl⟩)
      · omega
      · exact ⟨by simpa [hi] using e, n⟩
      · omega
    · rintro ⟨e, n⟩
      exact .inr (.inl ⟨Nat.le_add_right .., by simp [hi, e], n⟩)
  unfold tget
  cases hf : tfind (tputs d t k vs) (k + i) with
  | some v => exact ((listed v).1 hf).1.symm
  | none =>
    by_cases hd : vs[i] = d
    · exact hd.symm
    · rw [(listed _).2 ⟨rfl, hd⟩] at hf; cases hf

/-- Dropping entries: a kept key reads as before. -/
theorem tget_tkeep {d : α} {t : Tbl α} {lo : Nat} (p : Nat → Bool) {k : Nat} (h : trising lo t = true) (hk : p k = true) :
    tget d (tkeep p t) k = tget d t k := by
  unfold tget tkeep
  congr 1
  induction t generalizing lo with
  | nil => rfl
  | cons e t ih =>
    simp [trising] at h
    by_cases h1 : k = e.1
    · subst h1; simp [hk, tfind]
    · by_cases hp : p e.1
      · simp only [List.filter_cons, hp, if_true, tfind, h1, if_false, ih h.2]
      · simp only [List.filter_cons, hp, tfind, h1, if_false, Bool.false_eq_true]
        rw [ih h.2]
        split
        · next hlt => exact tfind_below h.2 (by omega)
        · rfl

@[simp] theorem tread_length (d : α) (n k : Nat) (t : Tbl α) : (tread d t k n).length = n := by
  induction n generalizing t k with
  | zero => cases t <;> rfl
  | succ n ih =>
    cases t with
    | nil => simp [tread, ih]
    | cons e t => unfold tread; split <;> simp [ih]

@[simp] theorem tgets_length (d : α) (t : Tbl α) (k n : Nat) : (tgets d t k n).length = n := tread_length ..

theorem getElem?_tread (d : α) (n : Nat) {t : Tbl α} {k i : Nat} (h : trising k t = true) (hi : i < n) :
    (tread d t k n)[i]? = some (tget d t (k + i)) := by
  induction n generalizing t k i with
  | zero => omega
  | succ n ih =>
    cases t with
    | nil =>
      cases i with
      | zero => rfl
      | succ i =>
        have := ih (t := ([] : Tbl α)) (k := k + 1) rfl (i := i) (by omega)
        simpa [tread, tget, tfind] using this
    | cons e t =>
      simp [trising] at h
      unfold tread
      split
      · next he =>
        subst he
        cases i with
        | zero => simp [tget, tfind]
        | succ i =>
          have := ih h.2 (i := i) (by omega)
          simp only [List.getElem?_cons_succ, this, tget, tfind, show ¬ e.1 + (i + 1) = e.1 by omega,
            show ¬ e.1 + (i + 1) < e.1 by omega, if_false, show e.1 + 1 + i = e.1 + (i + 1) by omega]
      · next he =>
        cases i with
        | zero => simp [tget, tfind, he, show k < e.1 by omega]
        | succ i =>
          have := ih (t := e :: t) (k := k + 1) (by simp [trising]; exact ⟨by omega, h.2⟩) (i := i) (by omega)
          simpa [show k + 1 + i = k + (i + 1) by omega] using this

/-- A run of reads reads each key. -/
theorem getElem?_tgets (d : α) {t : Tbl α} {k n i : Nat} (h : trising 0 t = true) (hi : i < n) :
    (tgets d t k n)[i]? = some (tget d t (k + i)) := by
  unfold tgets tkeep
  rw [getElem?_tread d n (trising_raise (trising_filter _ h) fun e he => ?_) hi]
  · exact congrArg some (tget_tkeep (fun j => decide (k ≤ j) && decide (j < k + n)) h (by simp; omega))
  · have := (List.mem_filter.1 he).2
    simp at this; exact this.1

end Sys2Proof.Machine
end

