-- ==== Sys2Proof/Laws/Keeps.lean ====
section
/-! SUPPORT. Sys2Proof/Laws/Keeps.lean: what every operation of the block keeps: the canonical form of its tables, the queue of
waiting commands, and what the fuses hold. -/

set_option Elab.async false

namespace Sys2Proof

open Machine

theorem FusesKept.refl (s : State) : FusesKept s s :=
  ⟨Nat.le_refl _, Nat.le_refl _, fun _ h => h, Nat.le_refl _⟩

theorem FusesKept.trans {s t u : State} (h : FusesKept s t) (k : FusesKept t u) : FusesKept s u :=
  ⟨Nat.le_trans h.1 k.1, Nat.le_trans h.2.1 k.2.1, fun x hx => k.2.2.1 x (h.2.2.1 x hx), Nat.le_trans h.2.2.2 k.2.2.2⟩

theorem FusesKept.of_otp {s t : State} (h : t.otp = s.otp) : FusesKept s t := by
  unfold FusesKept
  rw [h]
  exact FusesKept.refl s

end Sys2Proof

namespace Sys2Proof.Machine

/-- From `s` to `t`, tables stay tidy, the queue stays as it is, and no fuse is taken back. -/
structure Keeps (s t : State) : Prop where
  tidy : Tidy s → Tidy t
  pending : t.pending = s.pending
  fuses : FusesKept s t

theorem Keeps.refl (s : State) : Keeps s s := ⟨fun h => h, rfl, FusesKept.refl s⟩

theorem Keeps.trans {s t u : State} (h : Keeps s t) (k : Keeps t u) : Keeps s u :=
  ⟨fun x => k.tidy (h.tidy x), k.pending.trans h.pending, h.fuses.trans k.fuses⟩

variable {s0 s t : State}

/-- A change that leaves the queue and the fuses alone and keeps the tables tidy. -/
theorem Keeps.step (h : Keeps s0 s) (ht : Tidy s → Tidy t) (hp : t.pending = s.pending) (ho : t.otp = s.otp) : Keeps s0 t :=
  h.trans ⟨ht, hp, FusesKept.of_otp ho⟩

/-- A change of other fields than the tables, the queue and the fuses. -/
theorem Keeps.upd (h : Keeps s0 s)
    {sent : List Output} {draws : Nat} {now : Nat} {router : List Evt} {dev : Dev} {hiu : Hiu} {ple : Ple} {rlg : Rlg}
      {bwr : Bwr} {cdc : Cdc} {ppu : Ppu} {mge : Mge} {fmg : Fmg} {dram : Dram} {ice : Ice} {tfl : Tfl} {sram : Sram}
      {checks : List RingCmd} {tmx : Tmx} {ppm : Ppm} {sht : Sht} {rcp : Rcp} {ftb : Ftb} {ccx : Ccx} {sss : Sss} {sec
      : Sec} {lcc : Lcc} {boot : Boot}
    (e_ple_map : ple.map = s.ple.map := by rfl) (e_ple_ctxs : ple.ctxs = s.ple.ctxs := by rfl) (e_ple_groups :
      ple.groups = s.ple.groups := by rfl) (e_ple_members : ple.members = s.ple.members := by rfl) (e_ple_windows :
      ple.windows = s.ple.windows := by rfl) (e_ple_parts : ple.parts = s.ple.parts := by rfl) (e_ppu_tables :
      ppu.tables = s.ppu.tables := by rfl) (e_dram_chans : dram.chans = s.dram.chans := by rfl) (e_dram_ctrls :
      dram.ctrls = s.dram.ctrls := by rfl) (e_hiu_fns : hiu.fns = s.hiu.fns := by rfl) (e_hiu_rings : hiu.rings =
      s.hiu.rings := by rfl) (e_tmx_claims : tmx.claims = s.tmx.claims := by rfl) (e_sec_keys : sec.keys = s.sec.keys
      := by rfl) (e_rcp_recipes : rcp.recipes = s.rcp.recipes := by rfl) (e_rlg_resv : rlg.resv = s.rlg.resv := by
      rfl) (e_fmg_slots : fmg.slots = s.fmg.slots := by rfl) (e_fmg_flcs : fmg.flcs = s.fmg.flcs := by rfl)
      (e_mge_votes : mge.votes = s.mge.votes := by rfl) (e_sram_upsets : sram.upsets = s.sram.upsets := by rfl)
      (e_sram_lost : sram.lost = s.sram.lost := by rfl) :
    Keeps s0 (State.mk s.pending sent draws s.mem s.descs s.plants s.regs s.pages s.cnts s.snaps now router dev hiu
      ple rlg bwr cdc ppu mge fmg dram ice tfl sram s.cvus checks tmx s.grants ppm sht rcp s.fports ftb ccx sss sec
      s.otp lcc boot) := by
  refine h.step (fun x => ?_) rfl rfl
  exact ⟨⟨e_sram_upsets ▸ x.sound.1, e_sram_lost ▸ x.sound.2⟩, x.mem, x.descs, x.plants, x.regs, x.pages, x.cnts,
      x.snaps, e_ple_map ▸ x.map, e_ple_ctxs ▸ x.ctxs,
    e_ple_groups ▸ x.groups, e_ple_members ▸ x.members, e_ple_windows ▸ x.windows, e_ple_parts ▸ x.parts,
    e_ppu_tables ▸ x.tables, e_dram_chans ▸ x.chans, e_dram_ctrls ▸ x.ctrls, e_hiu_fns ▸ x.fns, e_hiu_rings ▸ x.rings,
    x.fports, e_tmx_claims ▸ x.claims, e_sec_keys ▸ x.keys, x.grants, e_rcp_recipes ▸ x.recipes, x.cvus, e_rlg_resv ▸
      x.resv,
    e_fmg_slots ▸ x.slots, e_fmg_flcs ▸ x.flcs, e_mge_votes ▸ x.votes⟩

theorem Keeps.foldl {α : Type} {f : State → α → State} {l : List α} (hf : ∀ s a, Keeps s0 s → Keeps s0 (f s a))
    (h : Keeps s0 s) : Keeps s0 (l.foldl f s) := by
  induction l generalizing s with
  | nil => exact h
  | cons a l ih => exact ih (hf _ _ h)

theorem Keeps.foldl_snd {α β : Type} {f : β × State → α → β × State} {l : List α} {p : β × State}
    (hf : ∀ p a, Keeps s0 p.2 → Keeps s0 (f p a).2) (h : Keeps s0 p.2) : Keeps s0 (l.foldl f p).2 := by
  induction l generalizing p with
  | nil => exact h
  | cons a l ih => exact ih (hf _ _ h)

theorem Keeps.of_snd {α : Type} {p : α × State} {a : α} (e : p = (a, t)) (h : Keeps s0 p.2) : Keeps s0 t := by
  subst e; exact h

theorem Keeps.of_snd_snd {α β : Type} {p : α × β × State} {a : α} {b : β} (e : p = (a, b, t)) (h : Keeps s0 p.2.2) :
    Keeps s0 t := by
  subst e; exact h

theorem Keeps.of_some {o : Option State} (e : o = some t) (h : ∀ t, o = some t → Keeps s0 t) : Keeps s0 t := h t e

theorem Keeps.of_some_snd {α : Type} {o : Option (α × State)} {a : α} (e : o = some (a, t))
    (h : ∀ a t, o = some (a, t) → Keeps s0 t) : Keeps s0 t := h a t e

theorem Keeps.of_error {α : Type} {o : Except State α} (e : o = .error t) (h : ∀ t, o = .error t → Keeps s0 t) :
    Keeps s0 t := h t e

theorem Keeps.of_error_snd {α β : Type} {o : Except (α × State) β} {a : α} (e : o = .error (a, t))
    (h : ∀ a t, o = .error (a, t) → Keeps s0 t) : Keeps s0 t := h a t e

end Sys2Proof.Machine
end

