-- ==== Sys2Proof/Laws/KeepsData.lean ====
section
/-! SUPPORT. Sys2Proof/Laws/KeepsData.lean: operations on registers, counters, rings, placement and blocks
keep the canonical form of the tables, the queue of waiting commands, and what the fuses hold. -/

set_option Elab.async false
set_option linter.unusedSimpArgs false

namespace Sys2Proof.Machine

variable {s0 : State}

theorem keeps_setPage (p : Nat) (v : Page) (s : State) (hk : Keeps s0 s) : Keeps s0 (setPage p v s) :=
  hk.step (fun x => { x with pages := twf_tput _ _ x.pages }) rfl rfl

theorem keeps_setReg (p off : Nat) (w : Word) (s : State) (hk : Keeps s0 s) : Keeps s0 (setReg p off w s) :=
  hk.step (fun x => { x with regs := trising_tput _ _ x.regs (Nat.zero_le _) }) rfl rfl

theorem keeps_countBy (p off n : Nat) (s : State) (hk : Keeps s0 s) : Keeps s0 (countBy p off n s) :=
  hk.step (fun x => { x with cnts := twf_tput _ _ x.cnts }) rfl rfl

theorem keeps_count (p : Nat) (off : Nat) (s : State) (hk : Keeps s0 s) :
    Keeps s0 (count p off s) := by
  unfold count
  with_reducible repeat' first | assumption | apply keeps_countBy | split

theorem keeps_modPage (p : Nat) (f : Page → Page) (s : State) (hk : Keeps s0 s) :
    Keeps s0 (modPage p f s) := by
  unfold modPage
  with_reducible repeat' first | assumption | apply keeps_setPage | split

theorem keeps_noteErr (p : Nat) (kind : Nat) (st : Status) (off : Nat) (fn : Nat) (s : State) (hk : Keeps s0 s) :
    Keeps s0 (noteErr p kind st off fn s) := by
  unfold noteErr
  with_reducible repeat' first | assumption | apply keeps_modPage | split

theorem keeps_draw (s : State) (hk : Keeps s0 s) :
    Keeps s0 (draw s).2 := by
  unfold draw
  with_reducible repeat'
    first
    | assumption | exact Keeps.refl _ | apply Keeps.foldl | apply Keeps.foldl_snd | intro _ | split
    | (refine Keeps.upd ?_; first | assumption) | dsimp only

theorem keeps_errCorr (p : Nat) (s : State) (hk : Keeps s0 s) :
    Keeps s0 (errCorr p s) := by
  unfold errCorr
  with_reducible repeat' first | assumption | apply keeps_modPage | split

theorem keeps_ignoreWrite (p : Nat) (s : State) (hk : Keeps s0 s) :
    Keeps s0 (ignoreWrite p s) := by
  unfold ignoreWrite
  with_reducible repeat' first | assumption | apply keeps_modPage | split

theorem keeps_emit (o : Output) (s : State) (hk : Keeps s0 s) :
    Keeps s0 (emit o s) := by
  unfold emit
  with_reducible repeat'
    first
    | assumption | exact Keeps.refl _ | apply Keeps.foldl | apply Keeps.foldl_snd | intro _ | split
    | (refine Keeps.upd ?_; first | assumption) | dsimp only

theorem keeps_errUncorr (p : Nat) (s : State) (hk : Keeps s0 s) :
    Keeps s0 (errUncorr p s) := by
  unfold errUncorr
  with_reducible repeat' first | assumption | apply keeps_modPage | split

theorem keeps_countMax (p off n : Nat) (s : State) (hk : Keeps s0 s) : Keeps s0 (countMax p off n s) :=
  hk.step (fun x => { x with cnts := twf_tput _ _ x.cnts }) rfl rfl

theorem keeps_raise (p : Nat) (code : Status) (sev : Sev) (cause : Nat) (ctx : Nat) (block : Nat) (detail : Nat) (dests :
    List Nat) (integrity : Bool) (s : State) (hk : Keeps s0 s) :
    Keeps s0 (raise p code sev cause ctx block detail dests integrity s) := by
  unfold raise
  with_reducible repeat'
    first
    | assumption | apply keeps_modPage | exact Keeps.refl _ | apply Keeps.foldl | apply Keeps.foldl_snd | intro _ | split
    | (refine Keeps.upd ?_; first | assumption | apply keeps_modPage) | dsimp only

theorem keeps_takeSnapshot (p : Nat) (s : State) (hk : Keeps s0 s) : Keeps s0 (takeSnapshot p s) := by
  unfold takeSnapshot
  refine keeps_modPage _ _ _ (hk.step (fun x => { x with snaps := ?_ }) rfl rfl)
  exact twf_foldl_tput _ _ _ (twf_tkeep _ x.snaps)

theorem keeps_setRing (f n : Nat) (v : Ring) (s : State) (hk : Keeps s0 s) : Keeps s0 (setRing f n v s) :=
  hk.step (fun x => { x with rings := twf_tput _ _ x.rings }) rfl rfl

theorem keeps_modRing (f : Nat) (n : Nat) (g : Ring → Ring) (s : State) (hk : Keeps s0 s) :
    Keeps s0 (modRing f n g s) := by
  unfold modRing
  with_reducible repeat' first | assumption | apply keeps_setRing | split

theorem keeps_takeEntry (f : Nat) (n : Nat) (cid : Nat) (op : Nat) (s : State) (hk : Keeps s0 s) :
    Keeps s0 (takeEntry f n cid op s) := by
  unfold takeEntry
  with_reducible repeat' first | assumption | apply keeps_modRing | split

theorem keeps_started (r : RingCmd) (op : Nat) (s : State) (hk : Keeps s0 s) :
    ∀ t, started r op s = some t → Keeps s0 t := by
  unfold started
  intros
  rename_i ee
  repeat' (first | (simp only [Option.some.injEq, Prod.mk.injEq, reduceCtorEq, Except.error.injEq] at ee) | split at ee)
  all_goals try (have hq := Eq.symm ee; subst hq)
  all_goals try (have hq := Eq.symm ee.2; subst hq)
  with_reducible repeat' first | assumption | apply keeps_takeEntry | split

theorem keeps_setHport (port : Nat) (v : HPort) (s : State) (hk : Keeps s0 s) :
    Keeps s0 (setHport port v s) := by
  unfold setHport
  with_reducible repeat'
    first
    | assumption | exact Keeps.refl _ | apply Keeps.foldl | apply Keeps.foldl_snd | intro _ | split
    | (refine Keeps.upd ?_; first | assumption) | dsimp only

theorem keeps_modHport (port : Nat) (g : HPort → HPort) (s : State) (hk : Keeps s0 s) :
    Keeps s0 (modHport port g s) := by
  unfold modHport
  with_reducible repeat' first | assumption | apply keeps_setHport | split

theorem keeps_dropTag (port : Nat) (t : Nat) (s : State) (hk : Keeps s0 s) :
    Keeps s0 (dropTag port t s) := by
  unfold dropTag
  with_reducible repeat' first | assumption | apply keeps_modHport | split

theorem keeps_dropHalf (w : Nat) (p : Nat) (s : State) (hk : Keeps s0 s) :
    Keeps s0 (dropHalf w p s) := by
  unfold dropHalf
  with_reducible repeat' first | assumption | apply keeps_modPage | split

theorem keeps_setFunc (f : Nat) (v : Func) (s : State) (hk : Keeps s0 s) : Keeps s0 (setFunc f v s) :=
  hk.step (fun x => { x with fns := twf_tput _ _ x.fns }) rfl rfl

theorem keeps_modFunc (f : Nat) (g : Func → Func) (s : State) (hk : Keeps s0 s) :
    Keeps s0 (modFunc f g s) := by
  unfold modFunc
  with_reducible repeat' first | assumption | apply keeps_setFunc | split

theorem keeps_noteAer (fn : Nat) (cond : Nat) (s : State) (hk : Keeps s0 s) :
    Keeps s0 (noteAer fn cond s) := by
  unfold noteAer
  with_reducible repeat' first | assumption | apply keeps_modFunc | split

theorem keeps_poisonCxl (port : Nat) (dpa : Nat) (s : State) (hk : Keeps s0 s) :
    Keeps s0 (poisonCxl port dpa s) := by
  unfold poisonCxl
  with_reducible repeat' first | assumption | apply keeps_emit | apply keeps_count | split

theorem keeps_whenPowered (s : State) (f : State → State) (hk : Keeps s0 s) (hf2 : ∀ u0, Keeps s0 u0 → Keeps s0 (f u0)) :
    Keeps s0 (whenPowered s f) := by
  unfold whenPowered
  with_reducible repeat' first | assumption | apply hf2 | split

theorem keeps_interrupt (f : Nat) (vector : Nat) (s : State) (hk : Keeps s0 s) :
    Keeps s0 (interrupt f vector s) := by
  unfold interrupt
  with_reducible repeat'
    first
    | assumption | apply keeps_modFunc | apply keeps_emit | exact Keeps.refl _ | apply Keeps.foldl | apply Keeps.foldl_snd
    | intro _ | split | (refine Keeps.upd ?_; first | assumption | apply keeps_modFunc | apply keeps_emit) | dsimp only

theorem keeps_signalRing (f : Nat) (n : Nat) (s : State) (hk : Keeps s0 s) :
    Keeps s0 (signalRing f n s) := by
  unfold signalRing
  with_reducible repeat' first | assumption | apply keeps_interrupt | apply keeps_modRing | split

theorem keeps_ownedWrite (w : Nat) (p : Nat) (body : State → State) (s : State) (hf3 : ∀ u0, Keeps s0 u0 → Keeps s0 (body
    u0)) (hk4 : Keeps s0 s) :
    Keeps s0 (ownedWrite w p body s) := by
  unfold ownedWrite
  with_reducible repeat'
    first
    | assumption | refine Keeps.of_snd (by assumption) ?_ | refine Keeps.of_snd_snd (by assumption) ?_ | apply keeps_dropHalf
    | apply keeps_ignoreWrite | apply hf3 | exact Keeps.refl _ | apply Keeps.foldl | apply Keeps.foldl_snd | intro _ | split
    | (refine Keeps.upd ?_; first | assumption | apply keeps_dropHalf | apply keeps_ignoreWrite | apply hf3) | dsimp only

theorem keeps_writeCpl (f : Nat) (n : Nat) (c : Cpl) (s : State) (hk : Keeps s0 s) :
    Keeps s0 (writeCpl f n c s) := by
  unfold writeCpl
  with_reducible repeat'
    first
    | assumption | apply keeps_emit | apply keeps_setRing | apply keeps_signalRing | exact Keeps.refl _ | apply Keeps.foldl
    | apply Keeps.foldl_snd | intro _ | split
    | (refine Keeps.upd ?_; first | assumption | apply keeps_emit | apply keeps_setRing | apply keeps_signalRing) | dsimp only

theorem keeps_settleRing (f : Nat) (n : Nat) (s : State) (hk : Keeps s0 s) :
    Keeps s0 (settleRing f n s) := by
  unfold settleRing
  with_reducible repeat'
    first
    | assumption | apply keeps_setRing | exact Keeps.refl _ | apply Keeps.foldl | apply Keeps.foldl_snd | intro _ | split
    | (refine Keeps.upd ?_; first | assumption | apply keeps_setRing) | dsimp only

theorem keeps_complete (r : RingCmd) (op : Nat) (st : Status) (result : Nat) (s : State) (hk : Keeps s0 s) :
    Keeps s0 (complete r op st result s) := by
  unfold complete
  with_reducible repeat'
    first
    | assumption | apply keeps_setRing | apply keeps_count | apply keeps_writeCpl | apply keeps_modRing
    | apply keeps_settleRing | split

theorem keeps_finish (r : RingCmd) (op : Nat) (x : Status × Nat × State) (hk : Keeps s0 x.2.2) : Keeps s0 (finish r op x) :=
  keeps_complete _ _ _ _ _ hk

theorem keeps_ringRun (r : RingCmd) (op : Nat) (body : State → State) (s : State) (hf3 : ∀ u0, Keeps s0 u0 → Keeps s0 (body
    u0)) (hk4 : Keeps s0 s) :
    Keeps s0 (ringRun r op body s) := by
  unfold ringRun
  with_reducible repeat'
    first
    | assumption | refine Keeps.of_snd (by assumption) ?_ | refine Keeps.of_snd_snd (by assumption) ?_
    | refine keeps_started _ _ _ ?_ _ (by assumption) | apply keeps_complete | apply hf3 | exact Keeps.refl _
    | apply Keeps.foldl | apply Keeps.foldl_snd | intro _ | split
    | (refine Keeps.upd ?_; first | assumption | apply keeps_complete | apply hf3) | dsimp only

theorem keeps_bumpGen (f : Nat) (s : State) (hk : Keeps s0 s) :
    Keeps s0 (bumpGen f s) := by
  unfold bumpGen
  with_reducible repeat' first | assumption | apply keeps_modFunc | split

theorem keeps_stopRing (f : Nat) (n : Nat) (s : State) (hk : Keeps s0 s) :
    Keeps s0 (stopRing f n s) := by
  unfold stopRing
  with_reducible repeat' first | assumption | apply keeps_modRing | split

theorem keeps_denyClaim (s : State) (hk : Keeps s0 s) :
    Keeps s0 (denyClaim s) := by
  unfold denyClaim
  with_reducible repeat' first | assumption | apply keeps_count | split

theorem keeps_setClaim (res : Nat) (c : ClaimRec) (s : State) (hk : Keeps s0 s) : Keeps s0 (setClaim res c s) :=
  hk.step (fun x => { x with claims := twf_tput _ _ x.claims }) rfl rfl

theorem keeps_takeClaim (res : Nat) (c : ClaimRec) (s : State) (hk : Keeps s0 s) :
    ∀ t, takeClaim res c s = some t → Keeps s0 t := by
  unfold takeClaim
  intros
  rename_i ee
  repeat' (first | (simp only [Option.some.injEq, Prod.mk.injEq, reduceCtorEq, Except.error.injEq] at ee) | split at ee)
  all_goals try (have hq := Eq.symm ee; subst hq)
  all_goals try (have hq := Eq.symm ee.2; subst hq)
  with_reducible repeat' first | assumption | apply keeps_count | apply keeps_setClaim | split

theorem keeps_holdScan (u : User) (s : State) (hk : Keeps s0 s) : ∀ t, holdScan u s = some t → Keeps s0 t := by
  unfold holdScan
  intro t e
  split at e
  · cases e; exact hk
  · exact keeps_takeClaim _ _ _ hk _ e

theorem keeps_tdiError (f : Nat) (s : State) (hk : Keeps s0 s) :
    Keeps s0 (tdiError f s) := by
  unfold tdiError
  with_reducible repeat'
    first
    | assumption | apply keeps_stopRing | apply keeps_modFunc | exact Keeps.refl _ | apply Keeps.foldl | apply Keeps.foldl_snd
    | intro _ | split | (refine Keeps.upd ?_; first | assumption | apply keeps_stopRing | apply keeps_modFunc) | dsimp only

theorem keeps_quarantineTag (port : Nat) (t : Nat) (s : State) (hk : Keeps s0 s) :
    Keeps s0 (quarantineTag port t s) := by
  unfold quarantineTag
  with_reducible repeat' first | assumption | apply keeps_modHport | split

theorem keeps_expertGate (w : Nat) (p : Nat) (off : Nat) (body : State → State) (s : State) (hf4 : ∀ u0, Keeps s0 u0 → Keeps
    s0 (body u0)) (hk5 : Keeps s0 s) :
    Keeps s0 (expertGate w p off body s) := by
  unfold expertGate
  with_reducible repeat'
    first
    | assumption | refine Keeps.of_snd (by assumption) ?_ | refine Keeps.of_snd_snd (by assumption) ?_
    | apply keeps_ownedWrite | apply keeps_noteErr | apply hf4 | exact Keeps.refl _ | apply Keeps.foldl
    | apply Keeps.foldl_snd | intro _ | split
    | (refine Keeps.upd ?_; first | assumption | apply keeps_ownedWrite | apply keeps_noteErr | apply hf4) | dsimp only

theorem keeps_whenAwake (s : State) (f : State → State) (hk : Keeps s0 s) (hf2 : ∀ u0, Keeps s0 u0 → Keeps s0 (f u0)) :
    Keeps s0 (whenAwake s f) := by
  unfold whenAwake
  with_reducible repeat' first | assumption | apply hf2 | split

theorem keeps_answerBar (fn : Nat) (off : Nat) (r : Resp) (s : State) (hk : Keeps s0 s) :
    Keeps s0 (answerBar fn off r s) := by
  unfold answerBar
  with_reducible repeat' first | assumption | apply keeps_emit | apply keeps_count | split

theorem keeps_freeClaim (res : Nat) (s : State) (hk : Keeps s0 s) :
    Keeps s0 (freeClaim res s) := by
  unfold freeClaim
  with_reducible repeat' first | assumption | apply keeps_setClaim | split

theorem keeps_setResv (c : Nat) (v : Resv) (s : State) (hk : Keeps s0 s) : Keeps s0 (setResv c v s) :=
  hk.step (fun x => { x with resv := twf_tput _ _ x.resv }) rfl rfl

theorem keeps_setMap (k : Nat) (e : MapEntry) (s : State) (hk : Keeps s0 s) : Keeps s0 (setMap k e s) :=
  hk.step (fun x => { x with map := trising_tput _ _ x.map (Nat.zero_le _) }) rfl rfl

theorem keeps_modMap (slab : Nat) (f : MapEntry → MapEntry) (s : State) (hk : Keeps s0 s) :
    Keeps s0 (modMap slab f s) := by
  unfold modMap
  with_reducible repeat' first | assumption | apply keeps_setMap | split

theorem keeps_trimPresented (n : Nat) (s : State) (hk : Keeps s0 s) : Keeps s0 (trimPresented n s) := by
  induction n generalizing s with
  | zero => exact hk
  | succ n ih =>
    unfold trimPresented
    split
    · exact ih _ (hk.step (fun x => { x with map := trising_tdel _ x.map }) rfl rfl)
    · exact hk

theorem keeps_admitted (s : State) (hk : Keeps s0 s) :
    Keeps s0 (admitted s) := by
  unfold admitted
  with_reducible repeat' first | assumption | apply keeps_count | split

theorem keeps_setCtx (c : Nat) (v : Ctx) (s : State) (hk : Keeps s0 s) : Keeps s0 (setCtx c v s) :=
  hk.step (fun x => { x with ctxs := twf_tput _ _ x.ctxs }) rfl rfl

theorem keeps_setCtrl (c : Nat) (v : Ctrl) (s : State) (hk : Keeps s0 s) : Keeps s0 (setCtrl c v s) :=
  hk.step (fun x => { x with ctrls := twf_tput _ _ x.ctrls }) rfl rfl

theorem keeps_retireFrom (k n : Nat) (s : State) (hk : Keeps s0 s) : Keeps s0 (retireFrom k n s) := by
  induction k generalizing n s with
  | zero => cases n <;> exact hk
  | succ k ih =>
    cases n with
    | zero => exact hk
    | succ n =>
      unfold retireFrom
      split
      · exact ih _ _ (keeps_setMap _ _ _ hk)
      · exact ih _ _ hk

theorem keeps_retireSlabs (s : State) (hk : Keeps s0 s) :
    Keeps s0 (retireSlabs s) := by
  unfold retireSlabs
  with_reducible repeat'
    first
    | assumption | apply keeps_retireFrom | apply keeps_trimPresented | exact Keeps.refl _ | apply Keeps.foldl
    | apply Keeps.foldl_snd | intro _ | split
    | (refine Keeps.upd ?_; first | assumption | apply keeps_retireFrom | apply keeps_trimPresented) | dsimp only

theorem keeps_recountSlabs (s : State) (hk : Keeps s0 s) : Keeps s0 (recountSlabs s) := by
  unfold recountSlabs
  exact keeps_retireSlabs _ (hk.step (fun x => { x with map := trising_filter _ x.map }) rfl rfl)

theorem keeps_noteRefusal (st : Status) (ctrl : Nat) (requested : Nat) (headroom : Nat) (s : State) (hk : Keeps s0 s) :
    Keeps s0 (noteRefusal st ctrl requested headroom s) := by
  unfold noteRefusal
  with_reducible repeat'
    first
    | assumption | exact Keeps.refl _ | apply Keeps.foldl | apply Keeps.foldl_snd | intro _ | split
    | (refine Keeps.upd ?_; first | assumption) | dsimp only

theorem keeps_setPart (n : Nat) (v : Part) (s : State) (hk : Keeps s0 s) : Keeps s0 (setPart n v s) :=
  hk.step (fun x => { x with parts := twf_tput _ _ x.parts }) rfl rfl

theorem keeps_setChan (k : Nat) (v : Chan) (s : State) (hk : Keeps s0 s) : Keeps s0 (setChan k v s) :=
  hk.step (fun x => { x with chans := twf_tput _ _ x.chans }) rfl rfl

theorem keeps_refusedAdmission (s : State) (hk : Keeps s0 s) :
    Keeps s0 (refusedAdmission s) := by
  unfold refusedAdmission
  with_reducible repeat' first | assumption | apply keeps_count | split

theorem keeps_updateScales (s : State) (hk : Keeps s0 s) :
    Keeps s0 (updateScales s) := by
  unfold updateScales
  with_reducible repeat'
    first
    | assumption | apply keeps_count | apply keeps_raise | exact Keeps.refl _ | apply Keeps.foldl | apply Keeps.foldl_snd
    | intro _ | split | (refine Keeps.upd ?_; first | assumption | apply keeps_count | apply keeps_raise) | dsimp only

theorem keeps_setSlot (frame : Nat) (v : Option Slot) (s : State) (hk : Keeps s0 s) : Keeps s0 (setSlot frame v s) :=
  hk.step (fun x => { x with slots := twf_tput _ _ x.slots }) rfl rfl

theorem keeps_setFgroup (g : Nat) (v : Group) (s : State) (hk : Keeps s0 s) :
    Keeps s0 (setFgroup g v s) := by
  unfold setFgroup
  with_reducible repeat'
    first
    | assumption | exact Keeps.refl _ | apply Keeps.foldl | apply Keeps.foldl_snd | intro _ | split
    | (refine Keeps.upd ?_; first | assumption) | dsimp only

theorem keeps_startMount (s : State) (hk : Keeps s0 s) :
    Keeps s0 (startMount s) := by
  unfold startMount
  with_reducible repeat'
    first
    | assumption | exact Keeps.refl _ | apply Keeps.foldl | apply Keeps.foldl_snd | intro _ | split
    | (refine Keeps.upd ?_; first | assumption) | dsimp only

theorem keeps_setFlc (c : Nat) (f : Flc) (s : State) (hk : Keeps s0 s) : Keeps s0 (setFlc c f s) :=
  hk.step (fun x => { x with flcs := twf_tput _ _ x.flcs }) rfl rfl

theorem keeps_noteFault (channel : Nat) (block : Nat) (s : State) (hk : Keeps s0 s) :
    Keeps s0 (noteFault channel block s) := by
  unfold noteFault
  with_reducible repeat'
    first
    | assumption | apply keeps_setFlc | exact Keeps.refl _ | apply Keeps.foldl | apply Keeps.foldl_snd | intro _ | split
    | (refine Keeps.upd ?_; first | assumption | apply keeps_setFlc) | dsimp only

theorem keeps_sparingEvent (page : Nat) (s : State) (hk : Keeps s0 s) :
    Keeps s0 (sparingEvent page s) := by
  unfold sparingEvent
  with_reducible repeat' first | assumption | apply keeps_raise | split

theorem keeps_markDirty (slab : Nat) (b : Nat) (s : State) (hk : Keeps s0 s) :
    Keeps s0 (markDirty slab b s) := by
  unfold markDirty
  with_reducible repeat'
    first
    | assumption | exact Keeps.refl _ | apply Keeps.foldl | apply Keeps.foldl_snd | intro _ | split
    | (refine Keeps.upd ?_; first | assumption) | dsimp only

theorem keeps_setTable (id : Nat) (e : TableEnt) (s : State) (hk : Keeps s0 s) : Keeps s0 (setTable id e s) :=
  hk.step (fun x => { x with tables := twf_tput _ _ x.tables }) rfl rfl

theorem keeps_modTable (id : Nat) (f : TableEnt → TableEnt) (s : State) (hk : Keeps s0 s) :
    Keeps s0 (modTable id f s) := by
  unfold modTable
  with_reducible repeat' first | assumption | apply keeps_setTable | split

theorem keeps_pinTable (id : Nat) (s : State) (hk : Keeps s0 s) :
    Keeps s0 (pinTable id s) := by
  unfold pinTable
  with_reducible repeat' first | assumption | apply keeps_modTable | split

theorem keeps_integrityEvent (d : Det) (cause : Nat) (code : Status) (slab : Nat) (b : Nat) (s : State) (hk : Keeps s0 s) :
    Keeps s0 (integrityEvent d cause code slab b s) := by
  unfold integrityEvent
  with_reducible repeat'
    first
    | assumption | apply keeps_raise | exact Keeps.refl _ | apply Keeps.foldl | apply Keeps.foldl_snd | intro _ | split
    | (refine Keeps.upd ?_; first | assumption | apply keeps_raise) | dsimp only

theorem keeps_dropTray (slab : Nat) (b : Nat) (s : State) (hk : Keeps s0 s) :
    Keeps s0 (dropTray slab b s) := by
  unfold dropTray
  with_reducible repeat'
    first
    | assumption | exact Keeps.refl _ | apply Keeps.foldl | apply Keeps.foldl_snd | intro _ | split
    | (refine Keeps.upd ?_; first | assumption) | dsimp only

theorem keeps_setDesc (hb : Nat) (d : Desc) (s : State) (hk : Keeps s0 s) : Keeps s0 (setDesc hb d s) :=
  hk.step (fun x => { x with descs := twf_tput _ _ x.descs }) rfl rfl

theorem keeps_spoil (slab : Nat) (b : Nat) (hb : Nat) (st : BlockState) (s : State) (hk : Keeps s0 s) :
    Keeps s0 (spoil slab b hb st s) := by
  unfold spoil
  with_reducible repeat' first | assumption | apply keeps_markDirty | apply keeps_dropTray | apply keeps_setDesc | split

theorem keeps_poisonBlock (d : Det) (cause : Nat) (slab : Nat) (b : Nat) (hb : Nat) (s : State) (hk : Keeps s0 s) :
    Keeps s0 (poisonBlock d cause slab b hb s) := by
  unfold poisonBlock
  with_reducible repeat' first | assumption | apply keeps_integrityEvent | apply keeps_spoil | split

theorem keeps_noteDecodeFault (check : Nat) (path : Nat) (sub : Nat) (table : Nat) (slab : Nat) (b : Nat) (s : State) (hk :
    Keeps s0 s) :
    Keeps s0 (noteDecodeFault check path sub table slab b s) := by
  unfold noteDecodeFault
  with_reducible repeat'
    first
    | assumption | apply keeps_count | exact Keeps.refl _ | apply Keeps.foldl | apply Keeps.foldl_snd | intro _ | split
    | (refine Keeps.upd ?_; first | assumption | apply keeps_count) | dsimp only

theorem keeps_setPlant (hb : Nat) (p : Plant) (s : State) (hk : Keeps s0 s) : Keeps s0 (setPlant hb p s) :=
  hk.step (fun x => { x with plants := twf_tput _ _ x.plants }) rfl rfl

theorem keeps_loseDesc (d : Det) (slab : Nat) (b : Nat) (hb : Nat) (s : State) (hk : Keeps s0 s) :
    Keeps s0 (loseDesc d slab b hb s) := by
  unfold loseDesc
  with_reducible repeat'
    first
    | assumption | apply keeps_setDesc | apply keeps_setPlant | apply keeps_markDirty | apply keeps_dropTray
    | apply keeps_integrityEvent | apply keeps_count | exact Keeps.refl _ | apply Keeps.foldl | apply Keeps.foldl_snd
    | intro _ | split
    | (refine Keeps.upd ?_; first
          | assumption | apply keeps_setDesc | apply keeps_setPlant | apply keeps_markDirty | apply keeps_dropTray
          | apply keeps_integrityEvent | apply keeps_count)
    | dsimp only

theorem keeps_meetDesc (slab : Nat) (b : Nat) (s : State) (hk : Keeps s0 s) :
    Keeps s0 (meetDesc slab b s) := by
  unfold meetDesc
  with_reducible repeat'
    first
    | assumption | apply keeps_loseDesc | exact Keeps.refl _ | apply Keeps.foldl | apply Keeps.foldl_snd | intro _ | split
    | (refine Keeps.upd ?_; first | assumption | apply keeps_loseDesc) | dsimp only

theorem keeps_putHome (hb : Nat) (bs : List Byte) (s : State) (hk : Keeps s0 s) : Keeps s0 (putHome hb bs s) :=
  hk.step (fun x => { x with mem := twf_tputs _ _ x.mem }) rfl rfl

theorem keeps_refTable (id : Nat) (s : State) (hk : Keeps s0 s) :
    Keeps s0 (refTable id s) := by
  unfold refTable
  with_reducible repeat' first | assumption | apply keeps_modTable | split

theorem keeps_releaseTables (s : State) (hk : Keeps s0 s) :
    Keeps s0 (releaseTables s) := by
  unfold releaseTables
  with_reducible repeat'
    first
    | assumption | apply keeps_countBy | apply keeps_setTable | exact Keeps.refl _ | apply Keeps.foldl | apply Keeps.foldl_snd
    | intro _ | split | (refine Keeps.upd ?_; first | assumption | apply keeps_countBy | apply keeps_setTable) | dsimp only

theorem keeps_setFport (p : Nat) (v : FPort) (s : State) (hk : Keeps s0 s) : Keeps s0 (setFport p v s) :=
  hk.step (fun x => { x with fports := twf_tput _ _ x.fports }) rfl rfl

theorem keeps_transmit (port : Nat) (p : Pkt) (data : List Byte) (s : State) (hk : Keeps s0 s) :
    Keeps s0 (transmit port p data s) := by
  unfold transmit
  with_reducible repeat' first | assumption | apply keeps_emit | apply keeps_countBy | apply keeps_setFport | split

theorem keeps_sendPkt (port : Nat) (p : Pkt) (data : List Byte) (s : State) (hk : Keeps s0 s) :
    Keeps s0 (sendPkt port p data s) := by
  unfold sendPkt
  with_reducible repeat'
    first
    | assumption | apply keeps_transmit | apply keeps_setFport | exact Keeps.refl _ | apply Keeps.foldl
    | apply Keeps.foldl_snd | intro _ | split
    | (refine Keeps.upd ?_; first | assumption | apply keeps_transmit | apply keeps_setFport) | dsimp only

theorem keeps_modFport (p : Nat) (f : FPort → FPort) (s : State) (hk : Keeps s0 s) :
    Keeps s0 (modFport p f s) := by
  unfold modFport
  with_reducible repeat' first | assumption | apply keeps_setFport | split

theorem keeps_sendRetires (id : Nat) (epoch : Nat) (peers : List Nat) (s : State) (hk : Keeps s0 s) :
    Keeps s0 (sendRetires id epoch peers s) := by
  unfold sendRetires
  with_reducible repeat'
    first
    | assumption | apply keeps_sendPkt | apply keeps_modFport | exact Keeps.refl _ | apply Keeps.foldl | apply Keeps.foldl_snd
    | intro _ | split | (refine Keeps.upd ?_; first | assumption | apply keeps_sendPkt | apply keeps_modFport) | dsimp only

theorem keeps_settleTable (id : Nat) (s : State) (hk : Keeps s0 s) :
    Keeps s0 (settleTable id s) := by
  unfold settleTable
  with_reducible repeat'
    first
    | assumption | apply keeps_setTable | apply keeps_releaseTables | apply keeps_sendRetires | exact Keeps.refl _
    | apply Keeps.foldl | apply Keeps.foldl_snd | intro _ | split
    | (refine Keeps.upd ?_; first | assumption | apply keeps_setTable | apply keeps_releaseTables | apply keeps_sendRetires)
    | dsimp only

theorem keeps_unrefTable (id : Nat) (s : State) (hk : Keeps s0 s) :
    Keeps s0 (unrefTable id s) := by
  unfold unrefTable
  with_reducible repeat' first | assumption | apply keeps_settleTable | apply keeps_modTable | split

theorem keeps_freshCrumbs (hb : Nat) (n : Nat) (s : State) (hk : Keeps s0 s) :
    Keeps s0 (freshCrumbs hb n s) := by
  unfold freshCrumbs
  with_reducible repeat'
    first
    | assumption | apply keeps_countBy | apply keeps_setPlant | exact Keeps.refl _ | apply Keeps.foldl | apply Keeps.foldl_snd
    | intro _ | split | (refine Keeps.upd ?_; first | assumption | apply keeps_countBy | apply keeps_setPlant) | dsimp only

theorem keeps_countWrite (d : Desc) (fallback : Bool) (s : State) (hk : Keeps s0 s) :
    Keeps s0 (countWrite d fallback s) := by
  unfold countWrite
  with_reducible repeat' first | assumption | apply keeps_count | apply keeps_countBy | split

theorem keeps_storeBlock (slab : Nat) (b : Nat) (format : Nat) (table : Option Nat) (flags : Nat) (data : List Byte) (s :
    State) (hk : Keeps s0 s) :
    Keeps s0 (storeBlock slab b format table flags data s) := by
  unfold storeBlock
  with_reducible repeat'
    first
    | assumption | apply keeps_meetDesc | apply keeps_putHome | apply keeps_setDesc | apply keeps_refTable
    | apply keeps_unrefTable | apply keeps_markDirty | apply keeps_dropTray | apply keeps_freshCrumbs | apply keeps_countWrite
    | exact Keeps.refl _ | apply Keeps.foldl | apply Keeps.foldl_snd | intro _ | split
    | (refine Keeps.upd ?_; first
          | assumption | apply keeps_meetDesc | apply keeps_putHome | apply keeps_setDesc | apply keeps_refTable
          | apply keeps_unrefTable | apply keeps_markDirty | apply keeps_dropTray | apply keeps_freshCrumbs
          | apply keeps_countWrite)
    | dsimp only

theorem keeps_noteCorrection (word : Nat) (s : State) (hk : Keeps s0 s) :
    Keeps s0 (noteCorrection word s) := by
  unfold noteCorrection
  with_reducible repeat'
    first
    | assumption | apply keeps_count | exact Keeps.refl _ | apply Keeps.foldl | apply Keeps.foldl_snd | intro _ | split
    | (refine Keeps.upd ?_; first | assumption | apply keeps_count) | dsimp only

theorem keeps_noteCorrections (t : Tier) (frame : Nat) (hb : Nat) (crumbs : Nat) (s : State) (hk : Keeps s0 s) :
    Keeps s0 (noteCorrections t frame hb crumbs s) := by
  unfold noteCorrections
  with_reducible repeat'
    first
    | assumption | apply keeps_errCorr | apply keeps_noteCorrection | exact Keeps.refl _ | apply Keeps.foldl
    | apply Keeps.foldl_snd | intro _ | split
    | (refine Keeps.upd ?_; first | assumption | apply keeps_errCorr | apply keeps_noteCorrection) | dsimp only

theorem keeps_noteDeny (path : Nat) (step : Nat) (fn : Nat) (ctx : Nat) (slab : Nat) (s : State) (hk : Keeps s0 s) :
    Keeps s0 (noteDeny path step fn ctx slab s) := by
  unfold noteDeny
  with_reducible repeat'
    first
    | assumption | exact Keeps.refl _ | apply Keeps.foldl | apply Keeps.foldl_snd | intro _ | split
    | (refine Keeps.upd ?_; first | assumption) | dsimp only

theorem keeps_touchMap (slab : Nat) (s : State) (hk : Keeps s0 s) :
    Keeps s0 (touchMap slab s) := by
  unfold touchMap
  with_reducible repeat'
    first
    | assumption | exact Keeps.refl _ | apply Keeps.foldl | apply Keeps.foldl_snd | intro _ | split
    | (refine Keeps.upd ?_; first | assumption) | dsimp only

theorem keeps_retireTable (id : Nat) (s : State) (hk : Keeps s0 s) :
    Keeps s0 (retireTable id s) := by
  unfold retireTable
  with_reducible repeat'
    first
    | assumption | apply keeps_settleTable | apply keeps_setTable | exact Keeps.refl _ | apply Keeps.foldl
    | apply Keeps.foldl_snd | intro _ | split
    | (refine Keeps.upd ?_; first | assumption | apply keeps_settleTable | apply keeps_setTable) | dsimp only

theorem keeps_dropUpset (word : Nat) (s : State) (hk : Keeps s0 s) : Keeps s0 (dropUpset word s) :=
  hk.step (fun x => { x with sound := ⟨by simp [dropUpset, x.sound.1], x.sound.2⟩ }) rfl rfl

theorem keeps_meetSram (k : SramKind) (idx : Nat) (s : State) (hk : Keeps s0 s) : Keeps s0 (meetSram k idx s) := by
  unfold meetSram
  dsimp only
  split
  · exact hk
  · split
    · exact hk
    · next u e =>
      split
      · exact keeps_noteCorrection _ _ (keeps_errCorr _ _ hk)
      · have h1 := keeps_errUncorr (sramPage k) _ hk
        split
        · split
          · exact h1
          · refine ⟨fun x => ?_, h1.pending, h1.fuses⟩
            rw [upsetAt, (hk.tidy x).sound.1] at e
            cases e
        · refine keeps_dropUpset _ _ ?_
          split
          · exact h1
          · exact keeps_count _ _ _ h1

theorem keeps_openRecovery (det : Nat) (rebuild : Bool) (slab : Nat) (b : Nat) (s : State) (hk : Keeps s0 s) :
    Keeps s0 (openRecovery det rebuild slab b s) := by
  unfold openRecovery
  with_reducible repeat'
    first
    | assumption | exact Keeps.refl _ | apply Keeps.foldl | apply Keeps.foldl_snd | intro _ | split
    | (refine Keeps.upd ?_; first | assumption) | dsimp only

theorem keeps_startLadder (det : Nat) (slab : Nat) (b : Nat) (s : State) (hk : Keeps s0 s) :
    Keeps s0 (startLadder det slab b s) := by
  unfold startLadder
  with_reducible repeat' first | assumption | apply keeps_noteFault | apply keeps_openRecovery | apply keeps_count | split

theorem keeps_startMates (det : Nat) (slab : Nat) (b : Nat) (s : State) (hk : Keeps s0 s) :
    Keeps s0 (startMates det slab b s) := by
  unfold startMates
  with_reducible repeat'
    first
    | assumption | apply keeps_startLadder | exact Keeps.refl _ | apply Keeps.foldl | apply Keeps.foldl_snd | intro _ | split
    | (refine Keeps.upd ?_; first | assumption | apply keeps_startLadder) | dsimp only

theorem keeps_startRecovery (d : Det) (slab : Nat) (b : Nat) (s : State) (hk : Keeps s0 s) :
    Keeps s0 (startRecovery d slab b s) := by
  unfold startRecovery
  with_reducible repeat'
    first
    | assumption | apply keeps_startMates | apply keeps_openRecovery | apply keeps_startLadder | split

theorem keeps_countRebuild (t : Tier) (frame : Nat) (b : Nat) (s : State) (hk : Keeps s0 s) :
    Keeps s0 (countRebuild t frame b s) := by
  unfold countRebuild
  with_reducible repeat' first | assumption | apply keeps_count | split

theorem keeps_checkSix (d : Det) (t : Tier) (slab : Nat) (b : Nat) (frame : Nat) (hb : Nat) (out : List Byte) (s : State)
    (hk : Keeps s0 s) :
    Keeps s0 (checkSix d t slab b frame hb out s).2 := by
  unfold checkSix
  with_reducible repeat'
    first
    | assumption | apply keeps_markDirty | apply keeps_count | apply keeps_setDesc | apply keeps_setPlant
    | apply keeps_noteDecodeFault | apply keeps_integrityEvent | apply keeps_spoil | exact Keeps.refl _ | apply Keeps.foldl
    | apply Keeps.foldl_snd | intro _ | split
    | (refine Keeps.upd ?_; first
          | assumption | apply keeps_markDirty | apply keeps_count | apply keeps_setDesc | apply keeps_setPlant
          | apply keeps_noteDecodeFault | apply keeps_integrityEvent | apply keeps_spoil)
    | dsimp only

theorem keeps_readHome (d : Det) (slab : Nat) (b : Nat) (s : State) (hk : Keeps s0 s) :
    Keeps s0 (readHome d slab b s).2 := by
  unfold readHome
  with_reducible repeat'
    first
    | assumption | refine Keeps.of_snd (by assumption) ?_ | apply keeps_loseDesc | apply keeps_count
    | apply keeps_startRecovery | apply keeps_poisonBlock | apply keeps_errUncorr | apply keeps_noteCorrections
    | apply keeps_countRebuild | apply keeps_meetSram | apply keeps_checkSix | apply keeps_noteDecodeFault
    | exact Keeps.refl _ | apply Keeps.foldl | apply Keeps.foldl_snd | intro _ | split
    | (refine Keeps.upd ?_; first
          | assumption | apply keeps_loseDesc | apply keeps_count | apply keeps_startRecovery | apply keeps_poisonBlock
          | apply keeps_errUncorr | apply keeps_noteCorrections | apply keeps_countRebuild | apply keeps_meetSram
          | apply keeps_checkSix | apply keeps_noteDecodeFault)
    | dsimp only

theorem keeps_logRepair (k : RepairKind) (t : Tier) (x : TflLast) (serial : Nat) (s : State) (hk : Keeps s0 s) :
    Keeps s0 (logRepair k t x serial s) := by
  unfold logRepair
  with_reducible repeat'
    first
    | assumption | exact Keeps.refl _ | apply Keeps.foldl | apply Keeps.foldl_snd | intro _ | split
    | (refine Keeps.upd ?_; first | assumption) | dsimp only

theorem keeps_sampleTick (s : State) (hk : Keeps s0 s) :
    Keeps s0 (sampleTick s) := by
  unfold sampleTick
  with_reducible repeat'
    first
    | assumption | apply keeps_count | exact Keeps.refl _ | apply Keeps.foldl | apply Keeps.foldl_snd | intro _ | split
    | (refine Keeps.upd ?_; first | assumption | apply keeps_count) | dsimp only

theorem keeps_meetTray (slab : Nat) (b : Nat) (s : State) (hk : Keeps s0 s) :
    Keeps s0 (meetTray slab b s) := by
  unfold meetTray
  with_reducible repeat'
    first
    | assumption | apply keeps_dropTray | apply keeps_errUncorr | apply keeps_dropUpset | apply keeps_noteCorrection
    | apply keeps_errCorr | exact Keeps.refl _ | apply Keeps.foldl | apply Keeps.foldl_snd | intro _ | split
    | (refine Keeps.upd ?_; first
          | assumption | apply keeps_dropTray | apply keeps_errUncorr | apply keeps_dropUpset | apply keeps_noteCorrection
          | apply keeps_errCorr)
    | dsimp only

theorem keeps_unpinTable (id : Nat) (s : State) (hk : Keeps s0 s) :
    Keeps s0 (unpinTable id s) := by
  unfold unpinTable
  with_reducible repeat' first | assumption | apply keeps_settleTable | apply keeps_modTable | split

theorem keeps_fetchBlock (d : Det) (slab : Nat) (b : Nat) (s : State) (hk : Keeps s0 s) :
    Keeps s0 (fetchBlock d slab b s).2 := by
  unfold fetchBlock
  with_reducible repeat'
    first
    | assumption | refine Keeps.of_snd (by assumption) ?_ | apply keeps_readHome | exact Keeps.refl _ | apply Keeps.foldl
    | apply Keeps.foldl_snd | intro _ | split | (refine Keeps.upd ?_; first | assumption | apply keeps_readHome) | dsimp only

theorem keeps_trayFill (slab : Nat) (b : Nat) (data : List Byte) (s : State) (hk : Keeps s0 s) :
    Keeps s0 (trayFill slab b data s) := by
  unfold trayFill
  with_reducible repeat'
    first
    | assumption | exact Keeps.refl _ | apply Keeps.foldl | apply Keeps.foldl_snd | intro _ | split
    | (refine Keeps.upd ?_; first | assumption) | dsimp only

theorem keeps_serviceRead (d : Det) (slab : Nat) (b : Nat) (s : State) (hk : Keeps s0 s) :
    Keeps s0 (serviceRead d slab b s).2 := by
  unfold serviceRead
  with_reducible repeat'
    first
    | assumption | refine Keeps.of_snd (by assumption) ?_ | apply keeps_meetTray | apply keeps_count | apply keeps_fetchBlock
    | apply keeps_trayFill | exact Keeps.refl _ | apply Keeps.foldl | apply Keeps.foldl_snd | intro _ | split
    | (refine Keeps.upd ?_; first
          | assumption | apply keeps_meetTray | apply keeps_count | apply keeps_fetchBlock | apply keeps_trayFill)
    | dsimp only

theorem keeps_clearFrame (t : Tier) (frame : Nat) (s : State) (hk : Keeps s0 s) : Keeps s0 (clearFrame t frame s) := by
  unfold clearFrame
  refine hk.step (fun x => { x with mem := ?_, descs := ?_, plants := ?_ }) rfl rfl
  · exact twf_filter _ x.mem
  · exact twf_filter _ x.descs
  · exact twf_filter _ x.plants

theorem keeps_meetArray (k : SramKind) (s : State) (hk : Keeps s0 s) :
    Keeps s0 (meetArray k s) := by
  unfold meetArray
  with_reducible repeat'
    first
    | assumption | apply keeps_meetSram | exact Keeps.refl _ | apply Keeps.foldl | apply Keeps.foldl_snd | intro _ | split
    | (refine Keeps.upd ?_; first | assumption | apply keeps_meetSram) | dsimp only

theorem keeps_touch (slab : Nat) (s : State) (hk : Keeps s0 s) :
    Keeps s0 (touch slab s) := by
  unfold touch
  with_reducible repeat'
    first
    | assumption | apply keeps_touchMap | apply keeps_modMap | apply keeps_sampleTick | exact Keeps.refl _ | apply Keeps.foldl
    | apply Keeps.foldl_snd | intro _ | split
    | (refine Keeps.upd ?_; first | assumption | apply keeps_touchMap | apply keeps_modMap | apply keeps_sampleTick)
    | dsimp only

theorem keeps_meetAccess (y0 : Ask) (slab : Nat) (s : State) (hk : Keeps s0 s) :
    Keeps s0 (meetAccess y0 slab s) := by
  unfold meetAccess
  with_reducible repeat'
    first
    | assumption | apply keeps_meetSram | apply keeps_meetArray | exact Keeps.refl _ | apply Keeps.foldl
    | apply Keeps.foldl_snd | intro _ | split
    | (refine Keeps.upd ?_; first | assumption | apply keeps_meetSram | apply keeps_meetArray) | dsimp only

theorem keeps_dropTraySlab (slab : Nat) (s : State) (hk : Keeps s0 s) :
    Keeps s0 (dropTraySlab slab s) := by
  unfold dropTraySlab
  with_reducible repeat'
    first
    | assumption | exact Keeps.refl _ | apply Keeps.foldl | apply Keeps.foldl_snd | intro _ | split
    | (refine Keeps.upd ?_; first | assumption) | dsimp only

theorem keeps_checkAccess (y0 : Ask) (slab : Nat) (s : State) (hk : Keeps s0 s) :
    Keeps s0 (checkAccess y0 slab s).2 := by
  unfold checkAccess
  with_reducible repeat'
    first
    | assumption | apply keeps_meetAccess | apply keeps_noteDeny | exact Keeps.refl _ | apply Keeps.foldl
    | apply Keeps.foldl_snd | intro _ | split
    | (refine Keeps.upd ?_; first | assumption | apply keeps_meetAccess | apply keeps_noteDeny) | dsimp only

theorem keeps_checkRun (a : Ask) (first n : Nat) (s : State) (hk : Keeps s0 s) : Keeps s0 (checkRun a first n s).2 := by
  induction n generalizing first s with
  | zero => exact hk
  | succ n ih =>
    unfold checkRun
    split
    · next e => exact Keeps.of_snd e (keeps_checkAccess _ _ _ hk)
    · next e => exact ih _ _ (Keeps.of_snd e (keeps_checkAccess _ _ _ hk))

theorem keeps_sendLink (port : Nat) (m : LinkMsg) (s : State) (hk : Keeps s0 s) :
    Keeps s0 (sendLink port m s) := by
  unfold sendLink
  with_reducible repeat' first | assumption | apply keeps_emit | apply keeps_countBy | apply keeps_setFport | split

theorem keeps_rxPacket (port : Nat) (type : Nat) (vl : Nat) (len : Nat) (s : State) (hk : Keeps s0 s) :
    Keeps s0 (rxPacket port type vl len s) := by
  unfold rxPacket
  with_reducible repeat'
    first
    | assumption | apply keeps_countBy | apply keeps_setFport | apply keeps_sendLink | exact Keeps.refl _ | apply Keeps.foldl
    | apply Keeps.foldl_snd | intro _ | split
    | (refine Keeps.upd ?_; first | assumption | apply keeps_countBy | apply keeps_setFport | apply keeps_sendLink)
    | dsimp only

theorem keeps_unitEvent (page : Nat) (detail : Nat) (s : State) (hk : Keeps s0 s) :
    Keeps s0 (unitEvent page detail s) := by
  unfold unitEvent
  with_reducible repeat' first | assumption | apply keeps_raise | split

theorem keeps_meetBuffer (path : Nat) (s : State) (hk : Keeps s0 s) :
    Keeps s0 (meetBuffer path s).2 := by
  unfold meetBuffer
  with_reducible repeat'
    first
    | assumption | apply keeps_unitEvent | apply keeps_errUncorr | apply keeps_dropUpset | apply keeps_noteCorrection
    | apply keeps_errCorr | exact Keeps.refl _ | apply Keeps.foldl | apply Keeps.foldl_snd | intro _ | split
    | (refine Keeps.upd ?_; first
          | assumption | apply keeps_unitEvent | apply keeps_errUncorr | apply keeps_dropUpset | apply keeps_noteCorrection
          | apply keeps_errCorr)
    | dsimp only

theorem keeps_arrive (port : Nat) (type : Nat) (src : Nat) (vl : Nat) (len : Nat) (body : State → State) (s : State) (hf6 :
    ∀ u0, Keeps s0 u0 → Keeps s0 (body u0)) (hk7 : Keeps s0 s) :
    Keeps s0 (arrive port type src vl len body s) := by
  unfold arrive
  with_reducible repeat' first | assumption | apply keeps_rxPacket | apply keeps_count | apply hf6 | split

theorem keeps_storeWrite (slab : Nat) (b : Nat) (data : List Byte) (s : State) (hk : Keeps s0 s) :
    Keeps s0 (storeWrite slab b data s) := by
  unfold storeWrite
  with_reducible repeat' first | assumption | apply keeps_storeBlock | split

theorem keeps_writeInPlace (d : Det) (full : Bool) (slab : Nat) (b : Nat) (off : Nat) (data : List Byte) (s : State) (hk :
    Keeps s0 s) :
    Keeps s0 (writeInPlace d full slab b off data s).2 := by
  unfold writeInPlace
  with_reducible repeat'
    first
    | assumption | refine Keeps.of_snd (by assumption) ?_ | apply keeps_storeWrite | apply keeps_meetDesc
    | apply keeps_fetchBlock | exact Keeps.refl _ | apply Keeps.foldl | apply Keeps.foldl_snd | intro _ | split
    | (refine Keeps.upd ?_; first | assumption | apply keeps_storeWrite | apply keeps_meetDesc | apply keeps_fetchBlock)
    | dsimp only

theorem keeps_sendTo (p : Pkt) (data : List Byte) (s : State) (hk : Keeps s0 s) :
    Keeps s0 (sendTo p data s) := by
  unfold sendTo
  with_reducible repeat' first | assumption | apply keeps_sendPkt | apply keeps_count | split

theorem keeps_answer (fport : Nat) (p : Pkt) (data : List Byte) (s : State) (hk : Keeps s0 s) :
    Keeps s0 (answer fport p data s) := by
  unfold answer
  with_reducible repeat' first | assumption | apply keeps_sendPkt | apply keeps_sendTo | split

theorem keeps_sendError (fport : Nat) (src : Nat) (tag : Nat) (st : Status) (s : State) (hk : Keeps s0 s) :
    Keeps s0 (sendError fport src tag st s) := by
  unfold sendError
  with_reducible repeat'
    first
    | assumption | apply keeps_answer | apply keeps_modFport | exact Keeps.refl _ | apply Keeps.foldl | apply Keeps.foldl_snd
    | intro _ | split | (refine Keeps.upd ?_; first | assumption | apply keeps_answer | apply keeps_modFport) | dsimp only

theorem keeps_refuseFabric (fport : Nat) (p : Pkt) (st : Status) (s : State) (hk : Keeps s0 s) :
    Keeps s0 (refuseFabric fport p st s) := by
  unfold refuseFabric
  with_reducible repeat'
    first
    | assumption | apply keeps_sendError | apply keeps_count | exact Keeps.refl _ | apply Keeps.foldl | apply Keeps.foldl_snd
    | intro _ | split | (refine Keeps.upd ?_; first | assumption | apply keeps_sendError | apply keeps_count) | dsimp only

end Sys2Proof.Machine
end

