-- ==== Sys2Proof/Laws/KeepsMemory.lean ====
section
/-! SUPPORT. Sys2Proof/Laws/KeepsMemory.lean: operations on moves, accesses to presented memory, flash logs and migration
keep the canonical form of the tables, the queue of waiting commands, and what the fuses hold. -/

set_option Elab.async false
set_option linter.unusedSimpArgs false

namespace Sys2Proof.Machine

variable {s0 : State}

theorem keeps_setRun (r : Option Run) (s : State) (hk : Keeps s0 s) :
    Keeps s0 (setRun r s) := by
  unfold setRun
  with_reducible repeat'
    first
    | assumption | exact Keeps.refl _ | apply Keeps.foldl | apply Keeps.foldl_snd | intro _ | split
    | (refine Keeps.upd ?_; first | assumption) | dsimp only

theorem keeps_endStall (s : State) (hk : Keeps s0 s) :
    Keeps s0 (endStall s) := by
  unfold endStall
  with_reducible repeat' first | assumption | apply keeps_countBy | apply keeps_setRun | split

theorem keeps_setSht (v : Sht) (s : State) (hk : Keeps s0 s) :
    Keeps s0 (setSht v s) := by
  unfold setSht
  with_reducible repeat'
    first
    | assumption | exact Keeps.refl _ | apply Keeps.foldl | apply Keeps.foldl_snd | intro _ | split
    | (refine Keeps.upd ?_; first | assumption) | dsimp only

theorem keeps_zeroTileStores (s : State) (hk : Keeps s0 s) :
    Keeps s0 (zeroTileStores s) := by
  unfold zeroTileStores
  with_reducible repeat' first | assumption | apply keeps_setSht | split

theorem keeps_modRun (f : Run → Run) (s : State) (hk : Keeps s0 s) :
    Keeps s0 (modRun f s) := by
  unfold modRun
  with_reducible repeat' first | assumption | apply keeps_setRun | split

theorem keeps_dropTransfers (q : Recipe) (s : State) (hk : Keeps s0 s) :
    Keeps s0 (dropTransfers q s) := by
  unfold dropTransfers
  with_reducible repeat'
    first
    | assumption | apply keeps_modFport | exact Keeps.refl _ | apply Keeps.foldl | apply Keeps.foldl_snd | intro _ | split
    | (refine Keeps.upd ?_; first | assumption | apply keeps_modFport) | dsimp only

theorem keeps_poolCredits (q : Recipe) (on : Bool) (s : State) (hk : Keeps s0 s) :
    Keeps s0 (poolCredits q on s) := by
  unfold poolCredits
  with_reducible repeat'
    first
    | assumption | apply keeps_modFport | exact Keeps.refl _ | apply Keeps.foldl | apply Keeps.foldl_snd | intro _ | split
    | (refine Keeps.upd ?_; first | assumption | apply keeps_modFport) | dsimp only

theorem keeps_sendTokens (type : Nat) (outcome : Nat) (except : Option Nat) (s : State) (hk : Keeps s0 s) :
    Keeps s0 (sendTokens type outcome except s) := by
  unfold sendTokens
  with_reducible repeat'
    first
    | assumption | apply keeps_count | apply keeps_sendPkt | exact Keeps.refl _ | apply Keeps.foldl | apply Keeps.foldl_snd
    | intro _ | split | (refine Keeps.upd ?_; first | assumption | apply keeps_count | apply keeps_sendPkt) | dsimp only

theorem keeps_endRun (outcome : Status) (s : State) (hk : Keeps s0 s) :
    Keeps s0 (endRun outcome s) := by
  unfold endRun
  with_reducible repeat'
    first
    | assumption | apply keeps_endStall | apply keeps_sendTokens | apply keeps_dropTransfers | apply keeps_zeroTileStores
    | apply keeps_modRun | split

theorem keeps_stepFault (cause : Nat) (row : Nat) (phys : Nat) (logical : Nat) (s : State) (hk : Keeps s0 s) :
    Keeps s0 (stepFault cause row phys logical s) := by
  unfold stepFault
  with_reducible repeat' first | assumption | apply keeps_endRun | apply keeps_count | apply keeps_setSht | split

theorem keeps_stepFaultAt (cause : Nat) (s : State) (hk : Keeps s0 s) :
    Keeps s0 (stepFaultAt cause s) := by
  unfold stepFaultAt
  with_reducible repeat' first | assumption | apply keeps_stepFault | split

theorem keeps_refuseStreams (c : Nat) (s : State) (hk : Keeps s0 s) : Keeps s0 (refuseStreams c s) := by
  have step (f : Nat → Option Recipe → Option Recipe) :
      Keeps s0 { s with rcp := { s.rcp with recipes := tmap none f s.rcp.recipes } } :=
    hk.step (fun x => { x with recipes := twf_tmap _ x.recipes }) rfl rfl
  unfold refuseStreams
  dsimp only
  split
  · split
    · exact keeps_stepFaultAt _ _ (step _)
    · exact step _
  · exact step _

theorem keeps_returnStep (l : List Transfer) (s : State) (hk : Keeps s0 s) :
    Keeps s0 (returnStep l s) := by
  unfold returnStep
  with_reducible repeat'
    first
    | assumption | apply keeps_sendLink | exact Keeps.refl _ | apply Keeps.foldl | apply Keeps.foldl_snd | intro _ | split
    | (refine Keeps.upd ?_; first | assumption | apply keeps_sendLink) | dsimp only

theorem keeps_settleScales (s : State) (hk : Keeps s0 s) :
    Keeps s0 (settleScales s) := by
  unfold settleScales
  with_reducible repeat'
    first
    | assumption | apply keeps_refuseStreams | apply keeps_updateScales | exact Keeps.refl _ | apply Keeps.foldl
    | apply Keeps.foldl_snd | intro _ | split
    | (refine Keeps.upd ?_; first | assumption | apply keeps_refuseStreams | apply keeps_updateScales) | dsimp only

theorem keeps_setTile (row : Nat) (col : Nat) (t : Tile) (s : State) (hk : Keeps s0 s) :
    Keeps s0 (setTile row col t s) := by
  unfold setTile
  with_reducible repeat' first | assumption | apply keeps_setSht | split

theorem keeps_setRecipe (h : Nat) (q : Option Recipe) (s : State) (hk : Keeps s0 s) : Keeps s0 (setRecipe h q s) :=
  hk.step (fun x => { x with recipes := twf_tput _ _ x.recipes }) rfl rfl

theorem keeps_takeFrame (t : Tier) (s : State) (hk : Keeps s0 s) : ∀ f u, takeFrame t s = some (f, u) → Keeps s0 u := by
  unfold takeFrame
  intro f u e
  split at e
  · cases e; exact hk
  · split at e
    · cases e; exact keeps_clearFrame _ _ _ (Keeps.upd hk)
    · cases e

theorem keeps_moveShare (slab : Nat) (t : Tier) (g : Nat) (s : State) (hk : Keeps s0 s) :
    Keeps s0 (moveShare slab t g s) := by
  unfold moveShare
  with_reducible repeat'
    first
    | assumption | exact Keeps.refl _ | apply Keeps.foldl | apply Keeps.foldl_snd | intro _ | split
    | (refine Keeps.upd ?_; first | assumption) | dsimp only

theorem keeps_targetFrame (slab : Nat) (t : Tier) (s : State) (hk : Keeps s0 s) :
    ∀ f u, targetFrame slab t s = some (f, u) → Keeps s0 u := by
  unfold targetFrame
  intro f u e
  split at e
  · exact keeps_takeFrame _ _ hk _ _ e
  · dsimp only at e
    split at e
    · cases e; exact hk
    · split at e
      · cases e; exact hk
      · exact keeps_takeFrame _ _ hk _ _ e

theorem keeps_firstFrame (slab : Nat) (t : Tier) (s : State) (hk : Keeps s0 s) :
    ∀ f u, firstFrame slab t s = some (f, u) → Keeps s0 u := by
  unfold firstFrame
  intro f u e
  split at e
  · exact keeps_takeFrame _ _ hk _ _ e
  · split at e
    · cases e; exact hk
    · obtain ⟨x, hx, e⟩ := Option.map_eq_some_iff.1 e
      cases e
      exact keeps_settleScales _ (keeps_moveShare _ _ _ _ (keeps_targetFrame _ _ _ hk _ _ hx))

theorem keeps_setMoves (l : List Move) (s : State) (hk : Keeps s0 s) :
    Keeps s0 (setMoves l s) := by
  unfold setMoves
  with_reducible repeat'
    first
    | assumption | exact Keeps.refl _ | apply Keeps.foldl | apply Keeps.foldl_snd | intro _ | split
    | (refine Keeps.upd ?_; first | assumption) | dsimp only

theorem keeps_modMove (slab : Nat) (f : Move → Move) (s : State) (hk : Keeps s0 s) :
    Keeps s0 (modMove slab f s) := by
  unfold modMove
  with_reducible repeat' first | assumption | apply keeps_setMoves | split

theorem keeps_setVote (slab ctx : Nat) (v : Option Vote) (s : State) (hk : Keeps s0 s) : Keeps s0 (setVote slab ctx v s) :=
  hk.step (fun x => { x with votes := twf_tput _ _ x.votes }) rfl rfl

theorem keeps_settleHints (s : State) (hk : Keeps s0 s) :
    Keeps s0 (settleHints s) := by
  unfold settleHints
  with_reducible repeat'
    first
    | assumption | apply keeps_complete | exact Keeps.refl _ | apply Keeps.foldl | apply Keeps.foldl_snd | intro _ | split
    | (refine Keeps.upd ?_; first | assumption | apply keeps_complete) | dsimp only

theorem keeps_resolveSlab (id : Nat) (slab : Nat) (st : Status) (s : State) (hk : Keeps s0 s) :
    Keeps s0 (resolveSlab id slab st s) := by
  unfold resolveSlab
  with_reducible repeat'
    first
    | assumption | apply keeps_count | apply keeps_settleHints | exact Keeps.refl _ | apply Keeps.foldl
    | apply Keeps.foldl_snd | intro _ | split
    | (refine Keeps.upd ?_; first | assumption | apply keeps_count | apply keeps_settleHints) | dsimp only

theorem keeps_removeVote (slab : Nat) (ctx : Nat) (st : Status) (s : State) (hk : Keeps s0 s) :
    Keeps s0 (removeVote slab ctx st s) := by
  unfold removeVote
  with_reducible repeat' first | assumption | apply keeps_setVote | apply keeps_resolveSlab | split

theorem keeps_failVotes (slab : Nat) (st : Status) (s : State) (hk : Keeps s0 s) :
    Keeps s0 (failVotes slab st s) := by
  unfold failVotes
  with_reducible repeat'
    first
    | assumption | apply keeps_removeVote | exact Keeps.refl _ | apply Keeps.foldl | apply Keeps.foldl_snd | intro _ | split
    | (refine Keeps.upd ?_; first | assumption | apply keeps_removeVote) | dsimp only

theorem keeps_dropMove (slab : Nat) (s : State) (hk : Keeps s0 s) :
    Keeps s0 (dropMove slab s) := by
  unfold dropMove
  with_reducible repeat' first | assumption | apply keeps_setMoves | split

theorem keeps_freeToZeroing (t : Tier) (frame : Nat) (s : State) (hk : Keeps s0 s) : Keeps s0 (freeToZeroing t frame s) := by
  unfold freeToZeroing
  split
  · exact keeps_clearFrame _ _ _ (hk.step (fun x => { x with slots := twf_tput frame none x.slots }) rfl rfl)
  · exact Keeps.upd hk

theorem keeps_abandonMove (slab : Nat) (s : State) (hk : Keeps s0 s) :
    Keeps s0 (abandonMove slab s) := by
  unfold abandonMove
  with_reducible repeat'
    first
    | assumption | apply keeps_dropMove | apply keeps_modMap | apply keeps_count | apply keeps_freeToZeroing
    | exact Keeps.refl _ | apply Keeps.foldl | apply Keeps.foldl_snd | intro _ | split
    | (refine Keeps.upd ?_; first
          | assumption | apply keeps_dropMove | apply keeps_modMap | apply keeps_count | apply keeps_freeToZeroing)
    | dsimp only

theorem keeps_requestMove (slab : Nat) (cls : Nat) (target : Tier) (toPool : Bool) (onWrite : Bool) (s : State) (hk : Keeps
    s0 s) :
    Keeps s0 (requestMove slab cls target toPool onWrite s).2 := by
  unfold requestMove
  with_reducible repeat'
    first
    | assumption | apply keeps_modMove | apply keeps_count | apply keeps_failVotes | apply keeps_abandonMove
    | apply keeps_setMoves | split

theorem keeps_assignFrame (slab : Nat) (s : State) (hk : Keeps s0 s) : ∀ t, assignFrame slab s = some t → Keeps s0 t := by
  have place (t : Tier) (g : Nat → MapEntry → MapEntry) : ∀ u,
      (match firstFrame slab t s with
        | some (f, s1) => some (modMap slab (g f) s1)
        | none => none) = some u → Keeps s0 u := by
    intro u e
    split at e
    · next f s1 h1 => cases e; exact keeps_modMap _ _ _ (keeps_firstFrame _ _ _ hk _ _ h1)
    · cases e
  unfold assignFrame
  intro t e
  dsimp only at e
  split at e
  · generalize (if tierBit (mapAt s slab).tmask .t2 then Tier.t2 else Tier.t1) = q at e
    split at e
    · split at e
      · next s1 h1 =>
        cases e
        exact keeps_requestMove _ _ _ _ _ _ (place q (fun f e => MapEntry.mk (if e.sealBit then .sealed else .resident)
          (some q) e.tmask e.heat e.shared e.owner e.sealBit e.releasing true f) _ h1)
      · cases e
    · cases e
  · exact place _ (fun f e => MapEntry.mk (if e.sealBit then .sealed else .resident) (some _) e.tmask e.heat e.shared
      e.owner e.sealBit e.releasing false f) _ e
  · cases e

theorem keeps_promoteOnWrite (slab : Nat) (s : State) (hk : Keeps s0 s) :
    Keeps s0 (promoteOnWrite slab s) := by
  unfold promoteOnWrite
  with_reducible repeat'
    first
    | assumption | refine Keeps.of_snd (by assumption) ?_ | apply keeps_modMove | apply keeps_requestMove | apply keeps_count
    | exact Keeps.refl _ | apply Keeps.foldl | apply Keeps.foldl_snd | intro _ | split
    | (refine Keeps.upd ?_; first | assumption | apply keeps_modMove | apply keeps_requestMove | apply keeps_count)
    | dsimp only

theorem keeps_prepareWrite (slab : Nat) (s : State) (hk : Keeps s0 s) :
    Keeps s0 (prepareWrite slab s).2 := by
  unfold prepareWrite
  with_reducible repeat'
    first
    | assumption | refine keeps_assignFrame _ _ ?_ _ (by assumption) | apply keeps_promoteOnWrite | exact Keeps.refl _
    | apply Keeps.foldl | apply Keeps.foldl_snd | intro _ | split
    | (refine Keeps.upd ?_; first | assumption | apply keeps_promoteOnWrite) | dsimp only

theorem keeps_endDrain (d : Drain) (s : State) (hk : Keeps s0 s) :
    Keeps s0 (endDrain d s) := by
  unfold endDrain
  with_reducible repeat'
    first
    | assumption | apply keeps_complete | exact Keeps.refl _ | apply Keeps.foldl | apply Keeps.foldl_snd | intro _ | split
    | (refine Keeps.upd ?_; first | assumption | apply keeps_complete) | dsimp only

theorem keeps_settleDrains (s : State) (hk : Keeps s0 s) :
    Keeps s0 (settleDrains s) := by
  unfold settleDrains
  with_reducible repeat'
    first
    | assumption | apply keeps_endDrain | exact Keeps.refl _ | apply Keeps.foldl | apply Keeps.foldl_snd | intro _ | split
    | (refine Keeps.upd ?_; first | assumption | apply keeps_endDrain) | dsimp only

theorem keeps_ackWrite (src : WriteSrc) (s : State) (hk : Keeps s0 s) :
    Keeps s0 (ackWrite src s) := by
  unfold ackWrite
  with_reducible repeat' first | assumption | apply keeps_emit | apply keeps_answer | split

theorem keeps_refuseWrite (src : WriteSrc) (st : Status) (ctx : Nat) (block : Nat) (s : State) (hk : Keeps s0 s) :
    Keeps s0 (refuseWrite src st ctx block s) := by
  unfold refuseWrite
  with_reducible repeat'
    first
    | assumption | apply keeps_emit | apply keeps_raise | apply keeps_noteAer | apply keeps_sendError | split

theorem keeps_applyWrite (w : HeldStore) (s : State) (hk : Keeps s0 s) :
    Keeps s0 (applyWrite w s) := by
  unfold applyWrite
  with_reducible repeat'
    first
    | assumption | refine Keeps.of_snd (by assumption) ?_ | apply keeps_writeInPlace | apply keeps_ackWrite
    | apply keeps_refuseWrite | exact Keeps.refl _ | apply Keeps.foldl | apply Keeps.foldl_snd | intro _ | split
    | (refine Keeps.upd ?_; first | assumption | apply keeps_writeInPlace | apply keeps_ackWrite | apply keeps_refuseWrite)
    | dsimp only

theorem keeps_dropPartner (cold : Nat) (s : State) (hk : Keeps s0 s) :
    Keeps s0 (dropPartner cold s) := by
  unfold dropPartner
  with_reducible repeat'
    first
    | assumption | apply keeps_failVotes | apply keeps_dropMove | exact Keeps.refl _ | apply Keeps.foldl
    | apply Keeps.foldl_snd | intro _ | split
    | (refine Keeps.upd ?_; first | assumption | apply keeps_failVotes | apply keeps_dropMove) | dsimp only

theorem keeps_resolveTmask (slab : Nat) (st : Status) (s : State) (hk : Keeps s0 s) :
    Keeps s0 (resolveTmask slab st s) := by
  unfold resolveTmask
  with_reducible repeat'
    first
    | assumption | apply keeps_resolveSlab | exact Keeps.refl _ | apply Keeps.foldl | apply Keeps.foldl_snd | intro _ | split
    | (refine Keeps.upd ?_; first | assumption | apply keeps_resolveSlab) | dsimp only

theorem keeps_settleCtx (c : Nat) (s : State) (hk : Keeps s0 s) :
    Keeps s0 (settleCtx c s) := by
  unfold settleCtx
  with_reducible repeat'
    first
    | assumption | apply keeps_bumpGen | apply keeps_setCtx | apply keeps_setResv | exact Keeps.refl _ | apply Keeps.foldl
    | apply Keeps.foldl_snd | intro _ | split
    | (refine Keeps.upd ?_; first | assumption | apply keeps_bumpGen | apply keeps_setCtx | apply keeps_setResv) | dsimp only

theorem keeps_slabFree (slab : Nat) (s : State) (hk : Keeps s0 s) :
    Keeps s0 (slabFree slab s) := by
  unfold slabFree
  with_reducible repeat'
    first
    | assumption | apply keeps_setMap | apply keeps_setResv | apply keeps_settleCtx | apply keeps_retireSlabs | split

theorem keeps_dropHome (lo : Nat) (s : State) (hk : Keeps s0 s) : Keeps s0 { s with
    descs := tkeep (fun k => decide (k < lo) || decide (lo + 4096 ≤ k)) s.descs,
    plants := tkeep (fun k => decide (k < lo) || decide (lo + 4096 ≤ k)) s.plants } :=
  hk.step (fun x => { x with descs := twf_filter _ x.descs, plants := twf_filter _ x.plants }) rfl rfl

theorem keeps_releaseNow (slab : Nat) (s : State) (hk : Keeps s0 s) : Keeps s0 (releaseNow slab s) := by
  have h1 := keeps_resolveTmask slab .moveAbandoned _ (keeps_failVotes slab .moveAbandoned _ (keeps_abandonMove slab _ hk))
  unfold releaseNow
  dsimp only
  generalize (resolveTmask slab .moveAbandoned _) = t1 at h1
  have h2 : Keeps s0 (settleDrains ((List.filter (fun w => decide (w.block / 4096 = slab)) s.mge.held).foldl (fun s w =>
      ackWrite w.src s)
      { t1 with mge := { t1.mge with held := t1.mge.held.filter (fun w => decide (w.block / 4096 ≠ slab)) } })) :=
    keeps_settleDrains _ (Keeps.foldl (fun _ w h => keeps_ackWrite w.src _ h) (Keeps.upd h1))
  generalize (settleDrains _ : State) = t2 at h2 ⊢
  have h3 (ids : List Nat) (u : State) (hu : Keeps s0 u) :
      Keeps s0 (ids.foldl (fun s id => unrefTable id s) u) := Keeps.foldl (fun _ _ h => keeps_unrefTable _ _ h) hu
  have h4 (u : State) (hu : Keeps s0 u) : Keeps s0 (dropTraySlab slab { u with
      fmg := { u.fmg with poisonRec := u.fmg.poisonRec.filter (fun k => decide (k / 4096 ≠ slab)),
                           recoveries := u.fmg.recoveries.filter (fun r => decide (r.block / 4096 ≠ slab)) },
      mge := { u.mge with votes := tkeep (fun k => decide (k / 2 ^ 20 ≠ slab)) u.mge.votes } }) :=
    keeps_dropTraySlab _ _ (hu.step (fun x => { x with votes := twf_filter _ x.votes }) rfl rfl)
  split
  · refine keeps_slabFree _ _ (keeps_setMap _ _ _ (h4 _ (h3 _ _ ?_)))
    split
    · exact keeps_dropHome _ _ h2
    · exact h2
  · refine keeps_slabFree _ _ (keeps_freeToZeroing _ _ _ (keeps_setMap _ _ _ (h4 _ (h3 _ _ ?_))))
    split
    · exact keeps_dropHome _ _ h2
    · exact h2
  · refine keeps_setMap _ _ _ (h4 _ (h3 _ _ ?_))
    split
    · exact keeps_dropHome _ _ h2
    · exact h2

theorem keeps_readsEnded (s : State) (hk : Keeps s0 s) :
    Keeps s0 (readsEnded s) := by
  unfold readsEnded
  with_reducible repeat'
    first
    | assumption | apply keeps_releaseTables | apply keeps_settleDrains | apply keeps_releaseNow | exact Keeps.refl _
    | apply Keeps.foldl | apply Keeps.foldl_snd | intro _ | split
    | (refine Keeps.upd ?_; first
          | assumption | apply keeps_releaseTables | apply keeps_settleDrains | apply keeps_releaseNow)
    | dsimp only

theorem keeps_settleVotes (slab : Nat) (s : State) (hk : Keeps s0 s) :
    Keeps s0 (settleVotes slab s) := by
  unfold settleVotes
  with_reducible repeat'
    first
    | assumption | apply keeps_resolveSlab | apply keeps_setVote | exact Keeps.refl _ | apply Keeps.foldl
    | apply Keeps.foldl_snd | intro _ | split
    | (refine Keeps.upd ?_; first | assumption | apply keeps_resolveSlab | apply keeps_setVote) | dsimp only

theorem keeps_offerWrite (w : HeldStore) (s : State) (hk : Keeps s0 s) : Keeps s0 (offerWrite w s) := by
  unfold offerWrite
  split
  · next e => exact keeps_applyWrite _ _ (Keeps.of_snd e (keeps_prepareWrite _ _ hk))
  · next e => exact Keeps.upd (Keeps.of_snd e (keeps_prepareWrite _ _ hk))

theorem keeps_releaseHeld (slab : Nat) (s : State) (hk : Keeps s0 s) :
    Keeps s0 (releaseHeld slab s) := by
  unfold releaseHeld
  with_reducible repeat'
    first
    | assumption | apply keeps_settleDrains | apply keeps_offerWrite | exact Keeps.refl _ | apply Keeps.foldl
    | apply Keeps.foldl_snd | intro _ | split
    | (refine Keeps.upd ?_; first | assumption | apply keeps_settleDrains | apply keeps_offerWrite) | dsimp only

theorem keeps_askMove (slab : Nat) (cls : Nat) (target : Tier) (toPool : Bool) (onWrite : Bool) (s : State) (hk : Keeps s0 s) :
    Keeps s0 (askMove slab cls target toPool onWrite s).2 := by
  unfold askMove
  with_reducible repeat'
    first
    | assumption | refine Keeps.of_snd (by assumption) ?_ | apply keeps_requestMove | apply keeps_releaseHeld
    | exact Keeps.refl _ | apply Keeps.foldl | apply Keeps.foldl_snd | intro _ | split
    | (refine Keeps.upd ?_; first | assumption | apply keeps_requestMove | apply keeps_releaseHeld) | dsimp only

theorem keeps_answerBad (src : ReadSrc) (st : Status) (s : State) (hk : Keeps s0 s) :
    Keeps s0 (answerBad src st s) := by
  unfold answerBad
  with_reducible repeat' first | assumption | apply keeps_poisonCxl | apply keeps_answerBar | apply keeps_sendError | split

theorem keeps_dropRightless (s : State) (hk : Keeps s0 s) :
    Keeps s0 (dropRightless s) := by
  unfold dropRightless
  with_reducible repeat'
    first
    | assumption | apply keeps_removeVote | exact Keeps.refl _ | apply Keeps.foldl | apply Keeps.foldl_snd | intro _ | split
    | (refine Keeps.upd ?_; first | assumption | apply keeps_removeVote) | dsimp only

theorem keeps_releaseSlab (slab : Nat) (s : State) (hk : Keeps s0 s) :
    Keeps s0 (releaseSlab slab s) := by
  unfold releaseSlab
  with_reducible repeat'
    first
    | assumption | apply keeps_releaseNow | exact Keeps.refl _ | apply Keeps.foldl | apply Keeps.foldl_snd | intro _ | split
    | (refine Keeps.upd ?_; first | assumption | apply keeps_releaseNow) | dsimp only

theorem keeps_retryHeld (s : State) (hk : Keeps s0 s) :
    Keeps s0 (retryHeld s) := by
  unfold retryHeld
  with_reducible repeat'
    first
    | assumption | apply keeps_releaseHeld | exact Keeps.refl _ | apply Keeps.foldl | apply Keeps.foldl_snd | intro _ | split
    | (refine Keeps.upd ?_; first | assumption | apply keeps_releaseHeld) | dsimp only

theorem keeps_cxlDenied (port : Nat) (part : Option Nat) (step : Nat) (ctx : Nat) (block : Nat) (s : State) (hk : Keeps s0 s) :
    Keeps s0 (cxlDenied port part step ctx block s) := by
  unfold cxlDenied
  with_reducible repeat' first | assumption | apply keeps_raise | split

theorem keeps_cxlCheck (port dpa : Nat) (write : Bool) (s : State) (hk : Keeps s0 s) :
    ∀ t, cxlCheck port dpa write s = .error t → Keeps s0 t := by
  unfold cxlCheck
  intro t e
  split at e
  · cases e; exact keeps_cxlDenied _ _ _ _ _ _ (keeps_noteDeny _ _ _ _ _ _ hk)
  · dsimp only at e
    split at e
    · next h => cases e; exact keeps_cxlDenied _ _ _ _ _ _ (Keeps.of_snd h (keeps_checkAccess _ _ _ hk))
    · cases e

theorem keeps_cxlCheck_ok (port dpa : Nat) (write : Bool) (s : State) (hk : Keeps s0 s) :
    ∀ a t, cxlCheck port dpa write s = .ok (a, t) → Keeps s0 t := by
  unfold cxlCheck
  intro a t e
  split at e
  · cases e
  · dsimp only at e
    split at e
    · cases e
    · next h => cases e; exact Keeps.of_snd h (keeps_checkAccess _ _ _ hk)

theorem keeps_barCheck (fn off : Nat) (write : Bool) (s : State) (hk : Keeps s0 s) :
    ∀ a t, barCheck fn off write s = .error (a, t) → Keeps s0 t := by
  unfold barCheck
  intro a t e
  split at e
  · cases e; exact keeps_noteDeny _ _ _ _ _ _ hk
  · dsimp only at e
    split at e
    · next h => cases e; exact Keeps.of_snd h (keeps_checkAccess _ _ _ hk)
    · cases e

theorem keeps_barCheck_ok (fn off : Nat) (write : Bool) (s : State) (hk : Keeps s0 s) :
    ∀ a t, barCheck fn off write s = .ok (a, t) → Keeps s0 t := by
  unfold barCheck
  intro a t e
  split at e
  · cases e
  · dsimp only at e
    split at e
    · cases e
    · next h => cases e; exact Keeps.of_snd h (keeps_checkAccess _ _ _ hk)

theorem keeps_barParts (fn : Nat) (l : List (Nat × Nat)) (s : State) (hk : Keeps s0 s) : Keeps s0 (barParts fn l s).2 := by
  induction l generalizing s with
  | nil => exact hk
  | cons p ps ih =>
    unfold barParts
    split
    · next h => exact ih _ (keeps_barCheck _ _ _ _ hk _ _ h)
    · next h => exact ih _ (keeps_barCheck_ok _ _ _ _ hk _ _ h)

theorem keeps_barError (fn : Nat) (r : Resp) (s : State) (hk : Keeps s0 s) :
    Keeps s0 (barError fn r s) := by
  unfold barError
  with_reducible repeat' first | assumption | apply keeps_noteAer | split

theorem keeps_barReadPart (fn : Nat) (p : Nat × Nat × Nat) (g : BarGot) (s : State) (hk : Keeps s0 s) :
    Keeps s0 (barReadPart fn p g s).2 := by
  unfold barReadPart
  with_reducible repeat'
    first
    | assumption | refine Keeps.of_snd (by assumption) ?_ | apply keeps_serviceRead | exact Keeps.refl _ | apply Keeps.foldl
    | apply Keeps.foldl_snd | intro _ | split | (refine Keeps.upd ?_; first | assumption | apply keeps_serviceRead)
    | dsimp only

theorem keeps_barReadParts (fn : Nat) (parts : List (Nat × Nat × Nat)) (s : State) (hk : Keeps s0 s) :
    Keeps s0 (barReadParts fn parts s).2 := by
  unfold barReadParts
  with_reducible repeat'
    first
    | assumption | refine Keeps.of_snd (by assumption) ?_ | apply keeps_barReadPart | exact Keeps.refl _ | apply Keeps.foldl
    | apply Keeps.foldl_snd | intro _ | split | (refine Keeps.upd ?_; first | assumption | apply keeps_barReadPart)
    | dsimp only

theorem keeps_awaitFlash (slab : Nat) (b : Nat) (src : ReadSrc) (s : State) (hk : Keeps s0 s) :
    Keeps s0 (awaitFlash slab b src s) := by
  unfold awaitFlash
  with_reducible repeat'
    first
    | assumption | exact Keeps.refl _ | apply Keeps.foldl | apply Keeps.foldl_snd | intro _ | split
    | (refine Keeps.upd ?_; first | assumption) | dsimp only

theorem keeps_barServeParts (fn : Nat) (off : Nat) (parts : List (Nat × Nat × Nat)) (s : State) (hk : Keeps s0 s) :
    Keeps s0 (barServeParts fn off parts s) := by
  unfold barServeParts
  with_reducible repeat'
    first
    | assumption | refine Keeps.of_snd (by assumption) ?_ | apply keeps_barReadParts | apply keeps_answerBar
    | apply keeps_barError | apply keeps_awaitFlash | apply keeps_meetBuffer | apply keeps_emit | exact Keeps.refl _
    | apply Keeps.foldl | apply Keeps.foldl_snd | intro _ | split
    | (refine Keeps.upd ?_; first
          | assumption | apply keeps_barReadParts | apply keeps_answerBar | apply keeps_barError | apply keeps_awaitFlash
          | apply keeps_meetBuffer | apply keeps_emit)
    | dsimp only

theorem keeps_barServe (fn off len : Nat) (s : State) (hk : Keeps s0 s) : Keeps s0 (barServe fn off len s) := by
  have h := Keeps.foldl (f := fun s (p : Nat × Nat × Nat) => touch (p.1 / 4096) s)
    (l := (barParts fn (blockParts (len + 1) off len) s).1.2) (fun _ _ h => keeps_touch _ _ h) (keeps_barParts fn (blockParts (len + 1) off len) s hk)
  unfold barServe
  dsimp only
  split
  · exact keeps_answerBar _ _ _ _ (keeps_barError _ _ _ (keeps_barReadParts _ _ _ h))
  · exact keeps_barServeParts _ _ _ _ h

theorem keeps_barWritePart (fn : Nat) (p : Nat × List Byte) (s : State) (hk : Keeps s0 s) : Keeps s0 (barWritePart fn p s) := by
  unfold barWritePart
  split
  · next h => exact keeps_barError _ _ _ (keeps_barCheck _ _ _ _ hk _ _ h)
  · next h => exact keeps_offerWrite _ _ (keeps_touch _ _ (keeps_barCheck_ok _ _ _ _ hk _ _ h))

theorem keeps_cxlServe (port : Nat) (dpa : Nat) (slab : Nat) (byte : Nat) (s : State) (hk : Keeps s0 s) :
    Keeps s0 (cxlServe port dpa slab byte s) := by
  unfold cxlServe
  with_reducible repeat'
    first
    | assumption | refine Keeps.of_snd (by assumption) ?_ | apply keeps_serviceRead | apply keeps_meetBuffer
    | apply keeps_poisonCxl | apply keeps_emit | apply keeps_awaitFlash | exact Keeps.refl _ | apply Keeps.foldl
    | apply Keeps.foldl_snd | intro _ | split
    | (refine Keeps.upd ?_; first
          | assumption | apply keeps_serviceRead | apply keeps_meetBuffer | apply keeps_poisonCxl | apply keeps_emit
          | apply keeps_awaitFlash)
    | dsimp only

theorem keeps_startFlush (s : State) (hk : Keeps s0 s) :
    Keeps s0 (startFlush s) := by
  unfold startFlush
  with_reducible repeat'
    first
    | assumption | exact Keeps.refl _ | apply Keeps.foldl | apply Keeps.foldl_snd | intro _ | split
    | (refine Keeps.upd ?_; first | assumption) | dsimp only

theorem keeps_settleTray (s : State) (hk : Keeps s0 s) :
    Keeps s0 (settleTray s) := by
  unfold settleTray
  with_reducible repeat'
    first
    | assumption | apply keeps_setReg | exact Keeps.refl _ | apply Keeps.foldl | apply Keeps.foldl_snd | intro _ | split
    | (refine Keeps.upd ?_; first | assumption | apply keeps_setReg) | dsimp only

theorem keeps_storeCtxCmd (hi : Nat) (lo : Nat) (v : Nat) (s : State) (hk : Keeps s0 s) :
    Keeps s0 (storeCtxCmd hi lo v s) := by
  unfold storeCtxCmd
  with_reducible repeat'
    first
    | assumption | exact Keeps.refl _ | apply Keeps.foldl | apply Keeps.foldl_snd | intro _ | split
    | (refine Keeps.upd ?_; first | assumption) | dsimp only

theorem keeps_ctxDone (st : Status) (result : Nat) (s : State) (hk : Keeps s0 s) :
    Keeps s0 (ctxDone st result s) := by
  unfold ctxDone
  with_reducible repeat'
    first
    | assumption | exact Keeps.refl _ | apply Keeps.foldl | apply Keeps.foldl_snd | intro _ | split
    | (refine Keeps.upd ?_; first | assumption) | dsimp only

theorem keeps_chooseFrom (n : Nat) (p : Nat → Bool) (s : State) (hk : Keeps s0 s) :
    Keeps s0 (chooseFrom n p s).2 := by
  unfold chooseFrom
  with_reducible repeat' first | assumption | apply keeps_draw | split

theorem keeps_setKey (k : Nat) (v : KeySlot) (s : State) (hk : Keeps s0 s) : Keeps s0 (setKey k v s) :=
  hk.step (fun x => { x with keys := twf_tput _ _ x.keys }) rfl rfl

theorem keeps_createCtx (fn : Nat) (key : Nat) (s : State) (hk : Keeps s0 s) :
    Keeps s0 (createCtx fn key s).2 := by
  unfold createCtx
  with_reducible repeat'
    first
    | assumption | refine Keeps.of_snd (by assumption) ?_ | apply keeps_chooseFrom | apply keeps_bumpGen | apply keeps_setCtx
    | apply keeps_setKey | exact Keeps.refl _ | apply Keeps.foldl | apply Keeps.foldl_snd | intro _ | split
    | (refine Keeps.upd ?_; first
          | assumption | apply keeps_chooseFrom | apply keeps_bumpGen | apply keeps_setCtx | apply keeps_setKey)
    | dsimp only

theorem keeps_gateCtx (r : RingCmd) (ctx : Nat) (s : State) (hk : Keeps s0 s) :
    Keeps s0 (gateCtx r ctx s).2 := by
  unfold gateCtx
  with_reducible repeat'
    first
    | assumption | apply keeps_meetSram | apply keeps_noteDeny | exact Keeps.refl _ | apply Keeps.foldl
    | apply Keeps.foldl_snd | intro _ | split
    | (refine Keeps.upd ?_; first | assumption | apply keeps_meetSram | apply keeps_noteDeny) | dsimp only

theorem keeps_withCtx (r : RingCmd) (ctx : Nat) (body : State → Status × Nat × State) (s : State) (hf3 : ∀ u0, Keeps s0 u0 →
    Keeps s0 (body u0).2.2) (hk4 : Keeps s0 s) :
    Keeps s0 (withCtx r ctx body s).2.2 := by
  unfold withCtx
  with_reducible repeat'
    first
    | assumption | refine Keeps.of_snd (by assumption) ?_ | refine Keeps.of_snd_snd (by assumption) ?_ | apply keeps_gateCtx
    | apply hf3 | exact Keeps.refl _ | apply Keeps.foldl | apply Keeps.foldl_snd | intro _ | split
    | (refine Keeps.upd ?_; first | assumption | apply keeps_gateCtx | apply hf3) | dsimp only

theorem keeps_denyRun (fn : Nat) (ctx : Nat) (first : Nat) (n : Nat) (s : State) (hk : Keeps s0 s) :
    Keeps s0 (denyRun fn ctx first n s).2.2 := by
  unfold denyRun
  with_reducible repeat' first | assumption | apply keeps_checkRun | split

theorem keeps_addResv (c : Nat) (f : Tier → Nat) (b : Tier → Nat) (s : State) (hk : Keeps s0 s) :
    Keeps s0 (addResv c f b s) := by
  unfold addResv
  with_reducible repeat' first | assumption | apply keeps_setResv | split

theorem keeps_setWindow (n : Nat) (v : Option Window) (s : State) (hk : Keeps s0 s) : Keeps s0 (setWindow n v s) :=
  hk.step (fun x => { x with windows := twf_tput _ _ x.windows }) rfl rfl

theorem keeps_makeStale (ws : List Nat) (s : State) (hk : Keeps s0 s) :
    Keeps s0 (makeStale ws s) := by
  unfold makeStale
  with_reducible repeat'
    first
    | assumption | apply keeps_setWindow | exact Keeps.refl _ | apply Keeps.foldl | apply Keeps.foldl_snd | intro _ | split
    | (refine Keeps.upd ?_; first | assumption | apply keeps_setWindow) | dsimp only

theorem keeps_setMember (k : Nat) (v : Option Member) (s : State) (hk : Keeps s0 s) : Keeps s0 (setMember k v s) :=
  hk.step (fun x => { x with members := twf_tput _ _ x.members }) rfl rfl

theorem keeps_removeMember (g : Nat) (c : Nat) (s : State) (hk : Keeps s0 s) :
    Keeps s0 (removeMember g c s).2 := by
  unfold removeMember
  with_reducible repeat' first | assumption | apply keeps_dropRightless | apply keeps_makeStale | apply keeps_setMember | split

theorem keeps_drainRevoked (ws : List Nat) (ctxs : List Nat) (slabs : List Nat) (cmd : Option (RingCmd × Nat)) (s : State)
    (hk : Keeps s0 s) :
    Keeps s0 (drainRevoked ws ctxs slabs cmd s) := by
  unfold drainRevoked
  with_reducible repeat' first | assumption | apply keeps_endDrain | split

theorem keeps_mapBody (fn : Nat) (ctx : Nat) (rights : Nat) (aptBase : Nat) (first : Nat) (len : Nat) (s : State) (hk :
    Keeps s0 s) :
    Keeps s0 (mapBody fn ctx rights aptBase first len s).2.2 := by
  unfold mapBody
  with_reducible repeat'
    first
    | assumption | refine Keeps.of_snd (by assumption) ?_ | apply keeps_noteDeny | apply keeps_chooseFrom
    | apply keeps_setWindow | exact Keeps.refl _ | apply Keeps.foldl | apply Keeps.foldl_snd | intro _ | split
    | (refine Keeps.upd ?_; first | assumption | apply keeps_noteDeny | apply keeps_chooseFrom | apply keeps_setWindow)
    | dsimp only

theorem keeps_setGroup (g : Nat) (v : Option Nat) (s : State) (hk : Keeps s0 s) : Keeps s0 (setGroup g v s) :=
  hk.step (fun x => { x with groups := twf_tput _ _ x.groups }) rfl rfl

theorem keeps_subResv (c : Nat) (f : Tier → Nat) (b : Tier → Nat) (s : State) (hk : Keeps s0 s) :
    Keeps s0 (subResv c f b s) := by
  unfold subResv
  with_reducible repeat' first | assumption | apply keeps_setResv | split

theorem keeps_releaseBody (fn : Nat) (ctx : Nat) (first : Nat) (count : Nat) (f : Tier → Nat) (b : Tier → Nat) (s : State)
    (hk : Keeps s0 s) :
    Keeps s0 (releaseBody fn ctx first count f b s).2.2 := by
  unfold releaseBody
  with_reducible repeat'
    first
    | assumption | refine Keeps.of_snd_snd (by assumption) ?_ | apply keeps_denyRun | apply keeps_refusedAdmission
    | apply keeps_releaseSlab | apply keeps_subResv | apply keeps_noteRefusal | apply keeps_settleScales
    | apply keeps_admitted | exact Keeps.refl _ | apply Keeps.foldl | apply Keeps.foldl_snd | intro _ | split
    | (refine Keeps.upd ?_; first
          | assumption | apply keeps_denyRun | apply keeps_refusedAdmission | apply keeps_releaseSlab | apply keeps_subResv
          | apply keeps_noteRefusal | apply keeps_settleScales | apply keeps_admitted)
    | dsimp only

theorem keeps_nameSlabs (c : Nat) (first : Nat) (n : Nat) (tmask : Nat) (s : State) (hk : Keeps s0 s) :
    Keeps s0 (nameSlabs c first n tmask s) := by
  unfold nameSlabs
  with_reducible repeat'
    first
    | assumption | apply keeps_setMap | exact Keeps.refl _ | apply Keeps.foldl | apply Keeps.foldl_snd | intro _ | split
    | (refine Keeps.upd ?_; first | assumption | apply keeps_setMap) | dsimp only

theorem keeps_releaseOutcome (r : RingCmd) (ctx : Nat) (dest : Nat) (count : Nat) (f : Tier → Nat) (b : Tier → Nat) (s :
    State) (hk : Keeps s0 s) :
    Keeps s0 (releaseOutcome r ctx dest count f b s).2.2 := by
  unfold releaseOutcome
  with_reducible repeat' first | assumption | apply keeps_noteDeny | apply keeps_releaseBody | split

theorem keeps_notePromotion (slabs : List Nat) (s : State) (hk : Keeps s0 s) :
    Keeps s0 (notePromotion slabs s) := by
  unfold notePromotion
  with_reducible repeat' first | assumption | apply keeps_noteRefusal | split

theorem keeps_promoteSlabs (slabs : List Nat) (s : State) (hk : Keeps s0 s) :
    Keeps s0 (promoteSlabs slabs s) := by
  unfold promoteSlabs
  with_reducible repeat'
    first
    | assumption | refine Keeps.of_snd (by assumption) ?_ | apply keeps_askMove | exact Keeps.refl _ | apply Keeps.foldl
    | apply Keeps.foldl_snd | intro _ | split | (refine Keeps.upd ?_; first | assumption | apply keeps_askMove) | dsimp only

theorem keeps_barDemotions (slabs : List Nat) (s : State) (hk : Keeps s0 s) :
    Keeps s0 (barDemotions slabs s) := by
  unfold barDemotions
  with_reducible repeat'
    first
    | assumption | apply keeps_dropPartner | apply keeps_failVotes | apply keeps_abandonMove | exact Keeps.refl _
    | apply Keeps.foldl | apply Keeps.foldl_snd | intro _ | split
    | (refine Keeps.upd ?_; first | assumption | apply keeps_dropPartner | apply keeps_failVotes | apply keeps_abandonMove)
    | dsimp only

theorem keeps_writePart (w : Nat) (n : Nat) (v : Part) (s : State) (hk : Keeps s0 s) :
    Keeps s0 (writePart w n v s) := by
  unfold writePart
  with_reducible repeat'
    first
    | assumption | apply keeps_noteErr | apply keeps_notePromotion | apply keeps_setPart | apply keeps_promoteSlabs
    | apply keeps_barDemotions | exact Keeps.refl _ | apply Keeps.foldl | apply Keeps.foldl_snd | intro _ | split
    | (refine Keeps.upd ?_; first
          | assumption | apply keeps_noteErr | apply keeps_notePromotion | apply keeps_setPart | apply keeps_promoteSlabs
          | apply keeps_barDemotions)
    | dsimp only

theorem keeps_tdiWindows (ws : List Nat) (s : State) (hk : Keeps s0 s) :
    Keeps s0 (tdiWindows ws s) := by
  unfold tdiWindows
  with_reducible repeat'
    first
    | assumption | apply keeps_tdiError | exact Keeps.refl _ | apply Keeps.foldl | apply Keeps.foldl_snd | intro _ | split
    | (refine Keeps.upd ?_; first | assumption | apply keeps_tdiError) | dsimp only

theorem keeps_drainStep (window : Nat) (d : Drain) (s : State) (hk : Keeps s0 s) :
    Keeps s0 (drainStep window d s) := by
  unfold drainStep
  with_reducible repeat'
    first
    | assumption | apply keeps_endDrain | apply keeps_setWindow | exact Keeps.refl _ | apply Keeps.foldl
    | apply Keeps.foldl_snd | intro _ | split
    | (refine Keeps.upd ?_; first | assumption | apply keeps_endDrain | apply keeps_setWindow) | dsimp only

theorem keeps_leaveGroup (r : RingCmd) (g : Nat) (member : Nat) (s : State) (hk : Keeps s0 s) :
    Keeps s0 (leaveGroup r g member s) := by
  unfold leaveGroup
  with_reducible repeat'
    first
    | assumption | apply keeps_complete | apply keeps_removeMember | apply keeps_drainRevoked | apply keeps_tdiWindows | split

theorem keeps_destroyGroup (g : Nat) (s : State) (hk : Keeps s0 s) :
    Keeps s0 (destroyGroup g s).2 := by
  unfold destroyGroup
  with_reducible repeat'
    first
    | assumption | refine Keeps.of_snd (by assumption) ?_ | apply keeps_removeMember | apply keeps_setGroup
    | apply keeps_modMap | exact Keeps.refl _ | apply Keeps.foldl | apply Keeps.foldl_snd | intro _ | split
    | (refine Keeps.upd ?_; first | assumption | apply keeps_removeMember | apply keeps_setGroup | apply keeps_modMap)
    | dsimp only

theorem keeps_drainWindows (ws : List Nat) (free : Bool) (cmd : Option (RingCmd × Nat)) (s : State) (hk : Keeps s0 s) :
    Keeps s0 (drainWindows ws free cmd s) := by
  unfold drainWindows
  with_reducible repeat'
    first
    | assumption | apply keeps_endDrain | exact Keeps.refl _ | apply Keeps.foldl | apply Keeps.foldl_snd | intro _ | split
    | (refine Keeps.upd ?_; first | assumption | apply keeps_endDrain) | dsimp only

theorem keeps_reserveBody (ctx : Nat) (slabs : Nat) (tmask : Nat) (f : Tier → Nat) (b : Tier → Nat) (s : State) (hk : Keeps
    s0 s) :
    Keeps s0 (reserveBody ctx slabs tmask f b s).2.2 := by
  unfold reserveBody
  with_reducible repeat'
    first
    | assumption | apply keeps_refusedAdmission | apply keeps_noteRefusal | apply keeps_addResv | apply keeps_settleScales
    | apply keeps_admitted | apply keeps_nameSlabs | exact Keeps.refl _ | apply Keeps.foldl | apply Keeps.foldl_snd | intro _
    | split
    | (refine Keeps.upd ?_; first
          | assumption | apply keeps_refusedAdmission | apply keeps_noteRefusal | apply keeps_addResv
          | apply keeps_settleScales | apply keeps_admitted | apply keeps_nameSlabs)
    | dsimp only

theorem keeps_writePartSize (w : Nat) (n : Nat) (value : Word) (s : State) (hk : Keeps s0 s) :
    Keeps s0 (writePartSize w n value s) := by
  unfold writePartSize
  with_reducible repeat'
    first
    | assumption | apply keeps_ignoreWrite | apply keeps_setPart | exact Keeps.refl _ | apply Keeps.foldl
    | apply Keeps.foldl_snd | intro _ | split
    | (refine Keeps.upd ?_; first | assumption | apply keeps_ignoreWrite | apply keeps_setPart) | dsimp only

theorem keeps_setGrant (i : Nat) (g : Option Grant) (s : State) (hk : Keeps s0 s) : Keeps s0 (setGrant i g s) :=
  hk.step (fun x => { x with grants := twf_tput _ _ x.grants }) rfl rfl

theorem keeps_sendCoded (fport : Nat) (p : Pkt) (slab : Nat) (b : Nat) (s : State) (hk : Keeps s0 s) :
    Keeps s0 (sendCoded fport p slab b s) := by
  unfold sendCoded
  with_reducible repeat'
    first
    | assumption | apply keeps_answer | exact Keeps.refl _ | apply Keeps.foldl | apply Keeps.foldl_snd | intro _ | split
    | (refine Keeps.upd ?_; first | assumption | apply keeps_answer) | dsimp only

theorem keeps_answerRead (fport : Nat) (p : Pkt) (data : List Byte) (s : State) (hk : Keeps s0 s) :
    Keeps s0 (answerRead fport p data s) := by
  unfold answerRead
  with_reducible repeat'
    first
    | assumption | refine Keeps.of_snd (by assumption) ?_ | apply keeps_meetBuffer | apply keeps_sendError
    | apply keeps_answer | exact Keeps.refl _ | apply Keeps.foldl | apply Keeps.foldl_snd | intro _ | split
    | (refine Keeps.upd ?_; first | assumption | apply keeps_meetBuffer | apply keeps_sendError | apply keeps_answer)
    | dsimp only

theorem keeps_pushTable (fport : Nat) (id : Nat) (s : State) (hk : Keeps s0 s) :
    Keeps s0 (pushTable fport id s) := by
  unfold pushTable
  with_reducible repeat'
    first
    | assumption | apply keeps_count | apply keeps_sendPkt | apply keeps_setTable | apply keeps_setFport | split

theorem keeps_serveFabric (fport : Nat) (p : Pkt) (slab : Nat) (s : State) (hk : Keeps s0 s) :
    Keeps s0 (serveFabric fport p slab s) := by
  unfold serveFabric
  with_reducible repeat'
    first
    | assumption | refine Keeps.of_snd (by assumption) ?_ | apply keeps_serviceRead | apply keeps_fetchBlock
    | apply keeps_sendError | apply keeps_awaitFlash | apply keeps_answerRead | apply keeps_sendCoded | apply keeps_pushTable
    | exact Keeps.refl _ | apply Keeps.foldl | apply Keeps.foldl_snd | intro _ | split
    | (refine Keeps.upd ?_; first
          | assumption | apply keeps_serviceRead | apply keeps_fetchBlock | apply keeps_sendError | apply keeps_awaitFlash
          | apply keeps_answerRead | apply keeps_sendCoded | apply keeps_pushTable)
    | dsimp only

theorem keeps_fabricRead (fport : Nat) (p : Pkt) (s : State) (hk : Keeps s0 s) :
    Keeps s0 (fabricRead fport p s) := by
  unfold fabricRead
  with_reducible repeat'
    first
    | assumption | refine Keeps.of_snd (by assumption) ?_ | apply keeps_count | apply keeps_refuseFabric
    | apply keeps_checkAccess | apply keeps_serveFabric | apply keeps_touch | exact Keeps.refl _ | apply Keeps.foldl
    | apply Keeps.foldl_snd | intro _ | split
    | (refine Keeps.upd ?_; first
          | assumption | apply keeps_count | apply keeps_refuseFabric | apply keeps_checkAccess | apply keeps_serveFabric
          | apply keeps_touch)
    | dsimp only

theorem keeps_fabricWrite (fport : Nat) (p : Pkt) (data : List Byte) (s : State) (hk : Keeps s0 s) :
    Keeps s0 (fabricWrite fport p data s) := by
  unfold fabricWrite
  with_reducible repeat'
    first
    | assumption | refine Keeps.of_snd (by assumption) ?_ | apply keeps_count | apply keeps_refuseFabric
    | apply keeps_checkAccess | apply keeps_offerWrite | apply keeps_touch | exact Keeps.refl _ | apply Keeps.foldl
    | apply Keeps.foldl_snd | intro _ | split
    | (refine Keeps.upd ?_; first
          | assumption | apply keeps_count | apply keeps_refuseFabric | apply keeps_checkAccess | apply keeps_offerWrite
          | apply keeps_touch)
    | dsimp only

theorem keeps_serveWaiter (slab : Nat) (b : Nat) (w : FlashWaiter) (s : State) (hk : Keeps s0 s) :
    Keeps s0 (serveWaiter slab b w s) := by
  unfold serveWaiter
  with_reducible repeat' first | assumption | apply keeps_cxlServe | apply keeps_barServeParts | apply keeps_serveFabric | split

theorem keeps_settleSpare (s : State) (hk : Keeps s0 s) :
    Keeps s0 (settleSpare s) := by
  unfold settleSpare
  with_reducible repeat'
    first
    | assumption | apply keeps_retireSlabs | exact Keeps.refl _ | apply Keeps.foldl | apply Keeps.foldl_snd | intro _ | split
    | (refine Keeps.upd ?_; first | assumption | apply keeps_retireSlabs) | dsimp only

theorem twf_eraseAt (l : LogRows) (x : Nat × Nat) (h : twf Flc.reset l.flcs = true) : twf Flc.reset (eraseAt l x).flcs = true :=
  twf_tput _ _ h

theorem twf_returnAt (l : LogRows) (x : Nat × Nat) (h : twf Flc.reset l.flcs = true) : twf Flc.reset (returnAt l x).flcs =
    true := by
  unfold returnAt
  dsimp only
  split
  · exact h
  · exact twf_tput _ _ h

theorem twf_logs {α : Type} {f : LogRows → α → LogRows} (hf : ∀ l a, twf Flc.reset l.flcs = true → twf Flc.reset (f l
    a).flcs = true)
    (xs : List α) (l : LogRows) (h : twf Flc.reset l.flcs = true) : twf Flc.reset (xs.foldl f l).flcs = true := by
  induction xs generalizing l with
  | nil => exact h
  | cons a xs ih => exact ih _ (hf _ _ h)

theorem twf_freeSb (l : LogRows) (k : Nat) (h : twf Flc.reset l.flcs = true) : twf Flc.reset (freeSb l k).flcs = true := by
  unfold freeSb
  exact twf_logs twf_eraseAt _ _ h

theorem twf_closeSb (l : LogRows) (k : Nat) (h : twf Flc.reset l.flcs = true) : twf Flc.reset (closeSb l k).flcs = true := by
  unfold closeSb
  split
  · exact h
  · exact twf_logs twf_returnAt _ _ h
  · exact h

theorem twf_addBlock (a : Option (List Nat × LogRows)) (i : Nat) (h : ∀ y, a = some y → twf Flc.reset y.2.flcs = true) :
    ∀ y, addBlock a i = some y → twf Flc.reset y.2.flcs = true := by
  unfold addBlock
  intro y e
  split at e
  · cases e
  · next bs l =>
    dsimp only at e
    split at e
    · cases e
    · cases e; exact twf_tput _ _ (h _ rfl)

theorem twf_addBlocks (xs : List Nat) (a : Option (List Nat × LogRows)) (h : ∀ y, a = some y → twf Flc.reset y.2.flcs = true) :
    ∀ y, xs.foldl addBlock a = some y → twf Flc.reset y.2.flcs = true := by
  induction xs generalizing a with
  | nil => exact h
  | cons i xs ih => exact ih _ (twf_addBlock _ _ h)

theorem twf_formSb (st : SbState) (l : LogRows) (h : twf Flc.reset l.flcs = true) :
    ∀ y, formSb st l = some y → twf Flc.reset y.2.flcs = true := by
  unfold formSb
  intro y e
  split at e
  · cases e
  · next bs l1 h1 =>
    obtain ⟨k, -, e⟩ := Option.map_eq_some_iff.1 e
    cases e
    exact twf_addBlocks _ _ (fun y e => by cases e; exact h) _ h1

theorem twf_openNext (l : LogRows) (h : twf Flc.reset l.flcs = true) :
    ∀ y, openNext l = some y → twf Flc.reset y.2.flcs = true := by
  unfold openNext
  intro y e
  split at e
  · cases e; exact h
  · exact twf_formSb _ _ h _ e

theorem twf_takeRows (fuel n : Nat) (l : LogRows) (h : twf Flc.reset l.flcs = true) :
    ∀ y, takeRows fuel n l = some y → twf Flc.reset y.flcs = true := by
  induction fuel generalizing n l with
  | zero =>
    unfold takeRows
    intro y e
    split at e
    · cases e; exact h
    · cases e
  | succ fuel ih =>
    unfold takeRows
    intro y e
    split at e
    · cases e; exact h
    · split at e
      · split at e
        · refine ih _ _ ?_ _ e; exact h
        · refine ih _ _ ?_ _ e; exact h
      · split at e
        · cases e
        · next h1 => refine ih _ _ ?_ _ e; exact twf_openNext _ h _ h1

theorem twf_preErase (n : Nat) (l : LogRows) (h : twf Flc.reset l.flcs = true) : twf Flc.reset (preErase n l).flcs = true := by
  induction n generalizing l with
  | zero => exact h
  | succ n ih =>
    have e : preErase (n + 1) l = (match formSb .erased l with | some (_, l1) => preErase n l1 | none => l) := rfl
    cases hf : formSb .erased l with
    | none => rw [e, hf]; exact h
    | some y => rw [e, hf]; exact ih _ (twf_formSb _ _ h _ hf)

theorem keeps_putLog (g : Nat) (l : LogRows) (s : State) (hl : Tidy s → twf Flc.reset l.flcs = true) (hk : Keeps s0 s) :
    Keeps s0 (putLog g l s) := by
  unfold putLog
  exact keeps_countBy _ _ _ _ (keeps_countBy _ _ _ _ (keeps_setFgroup _ _ _
    (hk.step (fun x => { x with flcs := hl x }) rfl rfl)))

theorem keeps_appendRows (g n : Nat) (s : State) (hk : Keeps s0 s) : ∀ a t, appendRows g n s = some (a, t) → Keeps s0 t := by
  unfold appendRows
  intro a t e
  split at e
  · cases e
  · next h => cases e; exact keeps_putLog _ _ _ (fun x => twf_takeRows _ _ _ x.flcs _ h) hk

theorem keeps_programSlot (frame : Nat) (copied : List Nat) (rewrite : List Nat) (s : State) (hk : Keeps s0 s) :
    ∀ t, programSlot frame copied rewrite s = some t → Keeps s0 t := by
  unfold programSlot
  intros
  rename_i ee
  repeat' (first | (simp only [Option.some.injEq, Prod.mk.injEq, reduceCtorEq, Except.error.injEq] at ee) | split at ee)
  all_goals try (have hq := Eq.symm ee; subst hq)
  all_goals try (have hq := Eq.symm ee.2; subst hq)
  with_reducible repeat'
    first
    | assumption | refine keeps_appendRows _ _ _ ?_ _ _ (by assumption) | apply keeps_setSlot | exact Keeps.refl _
    | apply Keeps.foldl | apply Keeps.foldl_snd | intro _ | split
    | (refine Keeps.upd ?_; first | assumption | apply keeps_setSlot) | dsimp only

theorem keeps_newSlot (frame : Nat) (slab : Nat) (s : State) (hk : Keeps s0 s) :
    Keeps s0 (newSlot frame slab s) := by
  unfold newSlot
  with_reducible repeat'
    first
    | assumption | apply keeps_setSlot | exact Keeps.refl _ | apply Keeps.foldl | apply Keeps.foldl_snd | intro _ | split
    | (refine Keeps.upd ?_; first | assumption | apply keeps_setSlot) | dsimp only

theorem keeps_closeSbs (g : Nat) (ks : List Nat) (s : State) (hk : Keeps s0 s) : Keeps s0 (closeSbs g ks s) :=
  keeps_putLog _ _ _ (fun x => twf_logs twf_closeSb _ _ x.flcs) hk

theorem keeps_retireBlock (channel : Nat) (n : Nat) (s : State) (hk : Keeps s0 s) :
    Keeps s0 (retireBlock channel n s) := by
  unfold retireBlock
  with_reducible repeat'
    first
    | assumption | apply keeps_setFlc | apply keeps_settleSpare | apply keeps_closeSbs | apply keeps_count | split

theorem keeps_freeEmptySbs (g : Nat) (s : State) (hk : Keeps s0 s) : Keeps s0 (freeEmptySbs g s) :=
  keeps_putLog _ _ _ (fun x => twf_logs twf_freeSb _ _ x.flcs) hk

theorem keeps_queueUrgent (frame : Nat) (s : State) (hk : Keeps s0 s) :
    Keeps s0 (queueUrgent frame s) := by
  unfold queueUrgent
  with_reducible repeat'
    first
    | assumption | exact Keeps.refl _ | apply Keeps.foldl | apply Keeps.foldl_snd | intro _ | split
    | (refine Keeps.upd ?_; first | assumption) | dsimp only

theorem keeps_endSwap (slab : Nat) (s : State) (hk : Keeps s0 s) :
    Keeps s0 (endSwap slab s) := by
  unfold endSwap
  with_reducible repeat'
    first
    | assumption | apply keeps_count | apply keeps_modMap | exact Keeps.refl _ | apply Keeps.foldl | apply Keeps.foldl_snd
    | intro _ | split | (refine Keeps.upd ?_; first | assumption | apply keeps_count | apply keeps_modMap) | dsimp only

theorem keeps_scanFlash (slab : Nat) (frame : Nat) (b : Nat) (s : State) (hk : Keeps s0 s) :
    Keeps s0 (scanFlash slab frame b s).1 := by
  unfold scanFlash
  with_reducible repeat'
    first
    | assumption | apply keeps_startRecovery | apply keeps_noteCorrections | apply keeps_countRebuild | exact Keeps.refl _
    | apply Keeps.foldl | apply Keeps.foldl_snd | intro _ | split
    | (refine Keeps.upd ?_; first
          | assumption | apply keeps_startRecovery | apply keeps_noteCorrections | apply keeps_countRebuild)
    | dsimp only

theorem keeps_scanBlock (slab : Nat) (t : Tier) (frame : Nat) (b : Nat) (s : State) (hk : Keeps s0 s) :
    Keeps s0 (scanBlock slab t frame b s).1 := by
  unfold scanBlock
  with_reducible repeat'
    first
    | assumption | apply keeps_scanFlash | apply keeps_loseDesc | apply keeps_noteCorrections | apply keeps_poisonBlock
    | apply keeps_errUncorr | exact Keeps.refl _ | apply Keeps.foldl | apply Keeps.foldl_snd | intro _ | split
    | (refine Keeps.upd ?_; first
          | assumption | apply keeps_scanFlash | apply keeps_loseDesc | apply keeps_noteCorrections | apply keeps_poisonBlock
          | apply keeps_errUncorr)
    | dsimp only

theorem keeps_scanBlocksOf (slab : Nat) (t : Tier) (frame : Nat) (p : Nat → Bool) (s : State) (hk : Keeps s0 s) :
    Keeps s0 (scanBlocksOf slab t frame p s).1 := by
  have go (l : List Nat) (x : State × Bool) (hx : Keeps s0 x.1) :
      Keeps s0 (l.foldl (fun x b => let y := scanBlock slab t frame b x.1; (y.1, x.2 && y.2)) x).1 := by
    induction l generalizing x with
    | nil => exact hx
    | cons b l ih => exact ih _ (keeps_scanBlock _ _ _ _ _ hx)
  exact go _ _ hk

theorem keeps_rebuildPages (frame : Nat) (s : State) (hk : Keeps s0 s) :
    Keeps s0 (rebuildPages frame s) := by
  unfold rebuildPages
  with_reducible repeat'
    first
    | assumption | apply keeps_setPlant | exact Keeps.refl _ | apply Keeps.foldl | apply Keeps.foldl_snd | intro _ | split
    | (refine Keeps.upd ?_; first | assumption | apply keeps_setPlant) | dsimp only

theorem keeps_scanCopy (slab : Nat) (m : Move) (s : State) (hk : Keeps s0 s) :
    Keeps s0 (scanCopy slab m s).1 := by
  unfold scanCopy
  with_reducible repeat'
    first
    | assumption | apply keeps_scanBlocksOf | apply keeps_rebuildPages | exact Keeps.refl _ | apply Keeps.foldl
    | apply Keeps.foldl_snd | intro _ | split
    | (refine Keeps.upd ?_; first | assumption | apply keeps_scanBlocksOf | apply keeps_rebuildPages) | dsimp only

theorem keeps_queueSwap (cold slab cls : Nat) (target : Tier) (s : State) (hk : Keeps s0 s) :
    Keeps s0 (queueSwap cold slab cls target s).2 := by
  unfold queueSwap
  split
  · exact hk
  · split
    · next e =>
      have h1 := Keeps.of_snd e (keeps_askMove _ _ _ _ _ _ hk)
      split
      · next e => exact keeps_dropMove _ _ (Keeps.of_snd e (keeps_askMove _ _ _ _ _ _ h1))
      · next e => exact Keeps.upd (Keeps.of_snd e (keeps_askMove _ _ _ _ _ _ h1))
    · next e => exact Keeps.of_snd e (keeps_askMove _ _ _ _ _ _ hk)

theorem keeps_requestHome (slab : Nat) (home : Tier) (s : State) (hk : Keeps s0 s) : Keeps s0 (requestHome slab home s).2 := by
  unfold requestHome
  dsimp only
  have h1 (o : Option (Queued × State)) (h : ∀ y, o = some y → Keeps s0 y.2) :
      Keeps s0 (match o with
        | none => (Status.noCapacity, s)
        | some (.busy, s1) => (.moveBusy, s1)
        | some (_, s1) => (.ok, s1)).2 := by
    split
    · exact hk
    · exact h _ rfl
    · exact h _ rfl
  refine h1 _ (fun y e => ?_)
  split at e
  · cases e; exact keeps_askMove _ _ _ _ _ _ hk
  · obtain ⟨x, -, e⟩ := Option.map_eq_some_iff.1 e
    cases e
    exact keeps_queueSwap _ _ _ _ _ hk

theorem keeps_castVote (id : Nat) (slab : Nat) (ctx : Nat) (want : Tier) (s : State) (hk : Keeps s0 s) :
    Keeps s0 (castVote id slab ctx want s) := by
  unfold castVote
  with_reducible repeat'
    first
    | assumption | refine Keeps.of_snd (by assumption) ?_ | apply keeps_setVote | apply keeps_resolveSlab
    | apply keeps_requestHome | apply keeps_removeVote | exact Keeps.refl _ | apply Keeps.foldl | apply Keeps.foldl_snd
    | intro _ | split
    | (refine Keeps.upd ?_; first
          | assumption | apply keeps_setVote | apply keeps_resolveSlab | apply keeps_requestHome | apply keeps_removeVote)
    | dsimp only

theorem keeps_copyBlock (slab : Nat) (t : Tier) (t' : Tier) (f : Nat) (g : Nat) (p : Nat × Desc) (s : State) (hk : Keeps s0 s) :
    Keeps s0 (copyBlock slab t t' f g p s) := by
  unfold copyBlock
  with_reducible repeat'
    first
    | assumption | apply keeps_setPlant | apply keeps_setDesc | apply keeps_putHome | exact Keeps.refl _ | apply Keeps.foldl
    | apply Keeps.foldl_snd | intro _ | split
    | (refine Keeps.upd ?_; first | assumption | apply keeps_setPlant | apply keeps_setDesc | apply keeps_putHome)
    | dsimp only

theorem keeps_moveIntoMask (slab : Nat) (s : State) (hk : Keeps s0 s) :
    Keeps s0 (moveIntoMask slab s) := by
  unfold moveIntoMask
  with_reducible repeat'
    first
    | assumption | refine Keeps.of_snd (by assumption) ?_ | apply keeps_askMove | exact Keeps.refl _ | apply Keeps.foldl
    | apply Keeps.foldl_snd | intro _ | split | (refine Keeps.upd ?_; first | assumption | apply keeps_askMove) | dsimp only

theorem keeps_takeUp (slab : Nat) (s : State) (hk : Keeps s0 s) :
    Keeps s0 (takeUp slab s) := by
  unfold takeUp
  with_reducible repeat'
    first
    | assumption | refine Keeps.of_snd (by assumption) ?_ | apply keeps_moveIntoMask | apply keeps_promoteSlabs
    | apply keeps_requestHome | apply keeps_failVotes | exact Keeps.refl _ | apply Keeps.foldl | apply Keeps.foldl_snd
    | intro _ | split
    | (refine Keeps.upd ?_; first
          | assumption | apply keeps_moveIntoMask | apply keeps_promoteSlabs | apply keeps_requestHome | apply keeps_failVotes)
    | dsimp only

theorem keeps_giveUp (slab : Nat) (s : State) (hk : Keeps s0 s) :
    Keeps s0 (giveUp slab s) := by
  unfold giveUp
  with_reducible repeat'
    first
    | assumption | apply keeps_abandonMove | apply keeps_releaseHeld | apply keeps_takeUp | apply keeps_dropPartner
    | apply keeps_failVotes | apply keeps_count | apply keeps_setMoves | exact Keeps.refl _ | apply Keeps.foldl
    | apply Keeps.foldl_snd | intro _ | split
    | (refine Keeps.upd ?_; first
          | assumption | apply keeps_abandonMove | apply keeps_releaseHeld | apply keeps_takeUp | apply keeps_dropPartner
          | apply keeps_failVotes | apply keeps_count | apply keeps_setMoves)
    | dsimp only

theorem keeps_passEnd (m : Move) (fromT3 : Bool) (s : State) (hk : Keeps s0 s) :
    Keeps s0 (passEnd m fromT3 s) := by
  unfold passEnd
  with_reducible repeat'
    first
    | assumption | apply keeps_modMove | apply keeps_giveUp | exact Keeps.refl _ | apply Keeps.foldl | apply Keeps.foldl_snd
    | intro _ | split | (refine Keeps.upd ?_; first | assumption | apply keeps_modMove | apply keeps_giveUp) | dsimp only

theorem keeps_abandonToward (slab : Nat) (p : Tier → Bool) (s : State) (hk : Keeps s0 s) :
    Keeps s0 (abandonToward slab p s) := by
  unfold abandonToward
  with_reducible repeat' first | assumption | apply keeps_releaseHeld | apply keeps_abandonMove | split

theorem keeps_supersede (slab : Nat) (l : List (Nat × Vote)) (s : State) (hk : Keeps s0 s) :
    Keeps s0 (supersede slab l s) := by
  unfold supersede
  with_reducible repeat'
    first
    | assumption | apply keeps_removeVote | exact Keeps.refl _ | apply Keeps.foldl | apply Keeps.foldl_snd | intro _ | split
    | (refine Keeps.upd ?_; first | assumption | apply keeps_removeVote) | dsimp only

theorem keeps_resolveHint (id : Nat) (ctx : Nat) (slab : Nat) (action : Nat) (target : Tier) (s00 : State) (hk : Keeps s0 s00) :
    Keeps s0 (resolveHint id ctx slab action target s00) := by
  unfold resolveHint
  with_reducible repeat'
    first
    | assumption | apply keeps_removeVote | apply keeps_resolveSlab | apply keeps_setVote | apply keeps_castVote
    | apply keeps_abandonToward | apply keeps_supersede | exact Keeps.refl _ | apply Keeps.foldl | apply Keeps.foldl_snd
    | intro _ | split
    | (refine Keeps.upd ?_; first
          | assumption | apply keeps_removeVote | apply keeps_resolveSlab | apply keeps_setVote | apply keeps_castVote
          | apply keeps_abandonToward | apply keeps_supersede)
    | dsimp only

theorem keeps_openHint (r : RingCmd) (tmask : Bool) (target : Option Tier) (waiting : List Nat) (s : State) (hk : Keeps s0 s) :
    Keeps s0 (openHint r tmask target waiting s) := by
  unfold openHint
  with_reducible repeat'
    first
    | assumption | exact Keeps.refl _ | apply Keeps.foldl | apply Keeps.foldl_snd | intro _ | split
    | (refine Keeps.upd ?_; first | assumption) | dsimp only

theorem keeps_hintBody (r : RingCmd) (ctx : Nat) (first : Nat) (count : Nat) (action : Nat) (target : Nat) (s : State) (hk :
    Keeps s0 s) :
    Keeps s0 (hintBody r ctx first count action target s) := by
  unfold hintBody
  with_reducible repeat'
    first
    | assumption | apply keeps_complete | apply keeps_takeUp | apply keeps_resolveHint | apply keeps_openHint
    | exact Keeps.refl _ | apply Keeps.foldl | apply Keeps.foldl_snd | intro _ | split
    | (refine Keeps.upd ?_; first
          | assumption | apply keeps_complete | apply keeps_takeUp | apply keeps_resolveHint | apply keeps_openHint)
    | dsimp only

theorem keeps_dropMaskVotes (slab : Nat) (s : State) (hk : Keeps s0 s) :
    Keeps s0 (dropMaskVotes slab s) := by
  unfold dropMaskVotes
  with_reducible repeat' first | assumption | apply keeps_supersede | split

theorem keeps_settleTmask (slab : Nat) (s : State) (hk : Keeps s0 s) :
    Keeps s0 (settleTmask slab s) := by
  unfold settleTmask
  with_reducible repeat' first | assumption | apply keeps_resolveTmask | split

theorem keeps_changeMask (tmask : Nat) (slab : Nat) (s : State) (hk : Keeps s0 s) :
    Keeps s0 (changeMask tmask slab s) := by
  unfold changeMask
  with_reducible repeat'
    first
    | assumption | apply keeps_dropMaskVotes | apply keeps_modMap | apply keeps_releaseHeld | apply keeps_abandonMove
    | apply keeps_moveIntoMask | apply keeps_settleTmask | exact Keeps.refl _ | apply Keeps.foldl | apply Keeps.foldl_snd
    | intro _ | split
    | (refine Keeps.upd ?_; first
          | assumption | apply keeps_dropMaskVotes | apply keeps_modMap | apply keeps_releaseHeld | apply keeps_abandonMove
          | apply keeps_moveIntoMask | apply keeps_settleTmask)
    | dsimp only

theorem keeps_tmaskBody (r : RingCmd) (ctx : Nat) (first : Nat) (count : Nat) (tmask : Nat) (s : State) (hk : Keeps s0 s) :
    Keeps s0 (tmaskBody r ctx first count tmask s) := by
  unfold tmaskBody
  with_reducible repeat'
    first
    | assumption | apply keeps_modMap | apply keeps_complete | apply keeps_refusedAdmission | apply keeps_noteRefusal
    | apply keeps_settleHints | apply keeps_changeMask | apply keeps_openHint | apply keeps_admitted | exact Keeps.refl _
    | apply Keeps.foldl | apply Keeps.foldl_snd | intro _ | split
    | (refine Keeps.upd ?_; first
          | assumption | apply keeps_modMap | apply keeps_complete | apply keeps_refusedAdmission | apply keeps_noteRefusal
          | apply keeps_settleHints | apply keeps_changeMask | apply keeps_openHint | apply keeps_admitted)
    | dsimp only

theorem keeps_noteStall (slab : Nat) (s : State) (hk : Keeps s0 s) :
    Keeps s0 (noteStall slab s) := by
  unfold noteStall
  with_reducible repeat'
    first
    | assumption | apply keeps_countMax | exact Keeps.refl _ | apply Keeps.foldl | apply Keeps.foldl_snd | intro _ | split
    | (refine Keeps.upd ?_; first | assumption | apply keeps_countMax) | dsimp only

theorem keeps_policyDemote (c n : Nat) (s : State) (hk : Keeps s0 s) : Keeps s0 (policyDemote c n s) := by
  induction n generalizing s with
  | zero => exact hk
  | succ n ih =>
    unfold policyDemote
    split
    · exact hk
    · split
      · exact hk
      · exact ih _ (keeps_askMove _ _ _ _ _ _ hk)

theorem keeps_endRecoveries (slab : Nat) (s : State) (hk : Keeps s0 s) :
    Keeps s0 (endRecoveries slab s) := by
  unfold endRecoveries
  with_reducible repeat'
    first
    | assumption | apply keeps_readsEnded | apply keeps_serveWaiter | exact Keeps.refl _ | apply Keeps.foldl
    | apply Keeps.foldl_snd | intro _ | split
    | (refine Keeps.upd ?_; first | assumption | apply keeps_readsEnded | apply keeps_serveWaiter) | dsimp only

theorem keeps_expireVotes (s : State) (hk : Keeps s0 s) :
    Keeps s0 (expireVotes s) := by
  unfold expireVotes
  with_reducible repeat'
    first
    | assumption | apply keeps_setVote | exact Keeps.refl _ | apply Keeps.foldl | apply Keeps.foldl_snd | intro _ | split
    | (refine Keeps.upd ?_; first | assumption | apply keeps_setVote) | dsimp only

theorem keeps_leaveHome (slab : Nat) (t : Tier) (frame : Nat) (s : State) (hk : Keeps s0 s) :
    Keeps s0 (leaveHome slab t frame s) := by
  unfold leaveHome
  with_reducible repeat'
    first
    | assumption | apply keeps_freeToZeroing | exact Keeps.refl _ | apply Keeps.foldl | apply Keeps.foldl_snd | intro _
    | split | (refine Keeps.upd ?_; first | assumption | apply keeps_freeToZeroing) | dsimp only

theorem keeps_policyPromote (c : Nat) (slab : Nat) (s : State) (hk : Keeps s0 s) :
    Keeps s0 (policyPromote c slab s) := by
  unfold policyPromote
  with_reducible repeat'
    first
    | assumption | refine Keeps.of_snd (by assumption) ?_ | apply keeps_askMove | apply keeps_queueSwap | exact Keeps.refl _
    | apply Keeps.foldl | apply Keeps.foldl_snd | intro _ | split
    | (refine Keeps.upd ?_; first | assumption | apply keeps_askMove | apply keeps_queueSwap) | dsimp only

theorem keeps_policyCtx (c : Nat) (s : State) (hk : Keeps s0 s) :
    Keeps s0 (policyCtx c s) := by
  unfold policyCtx
  with_reducible repeat'
    first
    | assumption | apply keeps_policyPromote | apply keeps_policyDemote | exact Keeps.refl _ | apply Keeps.foldl
    | apply Keeps.foldl_snd | intro _ | split
    | (refine Keeps.upd ?_; first | assumption | apply keeps_policyPromote | apply keeps_policyDemote) | dsimp only

theorem keeps_copySlab (slab : Nat) (t : Tier) (t' : Tier) (f : Nat) (g : Nat) (s : State) (hk : Keeps s0 s) :
    Keeps s0 (copySlab slab t t' f g s) := by
  unfold copySlab
  with_reducible repeat'
    first
    | assumption | apply keeps_copyBlock | exact Keeps.refl _ | apply Keeps.foldl | apply Keeps.foldl_snd | intro _ | split
    | (refine Keeps.upd ?_; first | assumption | apply keeps_copyBlock) | dsimp only

theorem keeps_startFrame (m : Move) (s : State) (hk : Keeps s0 s) : ∀ f u, startFrame m s = some (f, u) → Keeps s0 u := by
  unfold startFrame
  intro f u e
  dsimp only at e
  split at e
  · cases e
  · split at e
    · split at e
      · exact keeps_takeFrame _ _ hk _ _ e
      · cases e
    · split at e
      · exact keeps_targetFrame _ _ _ hk _ _ e
      · cases e

theorem keeps_startMove (m : Move) (g : Nat) (s : State) (hk : Keeps s0 s) :
    Keeps s0 (startMove m g s) := by
  unfold startMove
  with_reducible repeat' first | assumption | apply keeps_modMap | apply keeps_modMove | apply keeps_newSlot | split

theorem keeps_settleMasks (s : State) (hk : Keeps s0 s) :
    Keeps s0 (settleMasks s) := by
  unfold settleMasks
  with_reducible repeat'
    first
    | assumption | apply keeps_moveIntoMask | exact Keeps.refl _ | apply Keeps.foldl | apply Keeps.foldl_snd | intro _ | split
    | (refine Keeps.upd ?_; first | assumption | apply keeps_moveIntoMask) | dsimp only

theorem keeps_flipMove (m : Move) (g : Nat) (s : State) (hk : Keeps s0 s) :
    Keeps s0 (flipMove m g s) := by
  unfold flipMove
  with_reducible repeat'
    first
    | assumption | apply keeps_copySlab | apply keeps_modMap | apply keeps_leaveHome | apply keeps_dropMove
    | apply keeps_count | apply keeps_dropTraySlab | apply keeps_moveShare | apply keeps_endSwap | apply keeps_noteStall
    | apply keeps_retryHeld | apply keeps_endRecoveries | apply keeps_settleMasks | apply keeps_takeUp
    | apply keeps_settleTmask | apply keeps_settleVotes | apply keeps_settleScales | apply keeps_releaseHeld
    | exact Keeps.refl _ | apply Keeps.foldl | apply Keeps.foldl_snd | intro _ | split
    | (refine Keeps.upd ?_; first
          | assumption | apply keeps_copySlab | apply keeps_modMap | apply keeps_leaveHome | apply keeps_dropMove
          | apply keeps_count | apply keeps_dropTraySlab | apply keeps_moveShare | apply keeps_endSwap | apply keeps_noteStall
          | apply keeps_retryHeld | apply keeps_endRecoveries | apply keeps_settleMasks | apply keeps_takeUp
          | apply keeps_settleTmask | apply keeps_settleVotes | apply keeps_settleScales | apply keeps_releaseHeld)
    | dsimp only

theorem keeps_armRun (h : Nat) (q : Recipe) (cmd : Option RingCmd) (lead : Option Nat) (fromStep startNs : Nat) (s : State)
    (hk : Keeps s0 s) : ∀ t, armRun h q cmd lead fromStep startNs s = some t → Keeps s0 t := by
  unfold armRun
  intro t e
  split at e
  · cases e
  · obtain ⟨u, hu, e⟩ := Option.map_eq_some_iff.1 e
    cases e
    exact keeps_poolCredits _ _ _ (keeps_setRun _ _ (keeps_takeClaim _ _ _ hk _ hu))

theorem keeps_sendGroup (type : Nat) (dst : Nat) (group : Nat) (x : Nat) (s : State) (hk : Keeps s0 s) :
    Keeps s0 (sendGroup type dst group x s) := by
  unfold sendGroup
  with_reducible repeat' first | assumption | apply keeps_sendTo | split

theorem keeps_answerArm (y0 : HeldArm) (s : State) (hk : Keeps s0 s) :
    Keeps s0 (answerArm y0 s) := by
  unfold answerArm
  with_reducible repeat'
    first
    | assumption | refine keeps_armRun _ _ _ _ _ _ _ ?_ _ (by assumption) | apply keeps_sendGroup | apply keeps_denyClaim
    | exact Keeps.refl _ | apply Keeps.foldl | apply Keeps.foldl_snd | intro _ | split
    | (refine Keeps.upd ?_; first | assumption | apply keeps_sendGroup | apply keeps_denyClaim) | dsimp only

end Sys2Proof.Machine
end

