-- ==== Sys2Proof/Laws/KeepsUnits.lean ====
section
/-! SUPPORT. Sys2Proof/Laws/KeepsUnits.lean: operations of the controllers, regulators, integrity, check-value units, sheet and recipes
keep the canonical form of the tables, the queue of waiting commands, and what the fuses hold. -/

set_option Elab.async false
set_option linter.unusedSimpArgs false

namespace Sys2Proof.Machine

variable {s0 : State}

theorem keeps_enterSr (chan : Nat) (s : State) (hk : Keeps s0 s) :
    Keeps s0 (enterSr chan s) := by
  unfold enterSr
  with_reducible repeat'
    first
    | assumption | apply keeps_setChan | apply keeps_count | exact Keeps.refl _ | apply Keeps.foldl | apply Keeps.foldl_snd
    | intro _ | split | (refine Keeps.upd ?_; first | assumption | apply keeps_setChan | apply keeps_count) | dsimp only

theorem keeps_withPins (f : State → State) (s : State) (hf1 : ∀ u0, Keeps s0 u0 → Keeps s0 (f u0)) (hk2 : Keeps s0 s) :
    Keeps s0 (withPins f s) := by
  unfold withPins
  with_reducible repeat'
    first
    | assumption | refine Keeps.of_snd (by assumption) ?_ | refine Keeps.of_snd_snd (by assumption) ?_ | apply keeps_emit
    | apply hf1 | exact Keeps.refl _ | apply Keeps.foldl | apply Keeps.foldl_snd | intro _ | split
    | (refine Keeps.upd ?_; first | assumption | apply keeps_emit | apply hf1) | dsimp only

theorem keeps_modChan (k : Nat) (f : Chan → Chan) (s : State) (hk : Keeps s0 s) :
    Keeps s0 (modChan k f s) := by
  unfold modChan
  with_reducible repeat' first | assumption | apply keeps_setChan | split

theorem keeps_acceptReq (chan : Nat) (r : DramReq) (s : State) (hk : Keeps s0 s) :
    Keeps s0 (acceptReq chan r s) := by
  unfold acceptReq
  with_reducible repeat'
    first
    | assumption | apply keeps_setChan | exact Keeps.refl _ | apply Keeps.foldl | apply Keeps.foldl_snd | intro _ | split
    | (refine Keeps.upd ?_; first | assumption | apply keeps_setChan) | dsimp only

theorem keeps_admitMasks (w : Nat) (p : Nat) (off : Nat) (s : State) (t : State) (hk : Keeps s0 s) (hk5 : Keeps s0 t) :
    Keeps s0 (admitMasks w p off s t) := by
  unfold admitMasks
  with_reducible repeat'
    first
    | assumption | apply keeps_noteErr | apply keeps_refusedAdmission | apply keeps_noteRefusal | apply keeps_admitted | split

theorem keeps_putMask (t2 : Bool) (n : Nat) (m : Nat) (s : State) (hk : Keeps s0 s) :
    Keeps s0 (putMask t2 n m s) := by
  unfold putMask
  with_reducible repeat' first | assumption | apply keeps_setReg | split

theorem keeps_writeMask (w : Nat) (t2 : Bool) (n : Nat) (value : Word) (s : State) (hk : Keeps s0 s) :
    Keeps s0 (writeMask w t2 n value s) := by
  unfold writeMask
  with_reducible repeat'
    first
    | assumption | apply keeps_noteErr | apply keeps_admitMasks | apply keeps_putMask | exact Keeps.refl _ | apply Keeps.foldl
    | apply Keeps.foldl_snd | intro _ | split
    | (refine Keeps.upd ?_; first | assumption | apply keeps_noteErr | apply keeps_admitMasks | apply keeps_putMask)
    | dsimp only

theorem keeps_meetSelfRefresh (chan : Nat) (s : State) (hk : Keeps s0 s) :
    Keeps s0 (meetSelfRefresh chan s) := by
  unfold meetSelfRefresh
  with_reducible repeat' first | assumption | apply keeps_count | apply keeps_modChan | split

theorem keeps_settleDeferred (chan : Nat) (s : State) (hk : Keeps s0 s) :
    Keeps s0 (settleDeferred chan s) := by
  unfold settleDeferred
  with_reducible repeat'
    first
    | assumption | apply keeps_countBy | exact Keeps.refl _ | apply Keeps.foldl | apply Keeps.foldl_snd | intro _ | split
    | (refine Keeps.upd ?_; first | assumption | apply keeps_countBy) | dsimp only

theorem keeps_issueRefresh (chan : Nat) (rank : Nat) (s : State) (hk : Keeps s0 s) :
    Keeps s0 (issueRefresh chan rank s) := by
  unfold issueRefresh
  with_reducible repeat'
    first
    | assumption | apply keeps_count | apply keeps_setChan | exact Keeps.refl _ | apply Keeps.foldl | apply Keeps.foldl_snd
    | intro _ | split | (refine Keeps.upd ?_; first | assumption | apply keeps_count | apply keeps_setChan) | dsimp only

theorem keeps_serveReq (chan : Nat) (r : DramReq) (s : State) (hk : Keeps s0 s) :
    Keeps s0 (serveReq chan r s) := by
  unfold serveReq
  with_reducible repeat' first | assumption | apply keeps_count | apply keeps_setChan | split

theorem keeps_applyRange (ctrl : Nat) (r : Nat) (s : State) (hk : Keeps s0 s) :
    Keeps s0 (applyRange ctrl r s) := by
  unfold applyRange
  with_reducible repeat'
    first
    | assumption | apply keeps_modChan | apply keeps_setCtrl | apply keeps_count | apply keeps_whenAwake
    | apply keeps_settleScales | exact Keeps.refl _ | apply Keeps.foldl | apply Keeps.foldl_snd | intro _ | split
    | (refine Keeps.upd ?_; first
          | assumption | apply keeps_modChan | apply keeps_setCtrl | apply keeps_count | apply keeps_whenAwake
          | apply keeps_settleScales)
    | dsimp only

theorem keeps_loseBlock (page : Nat) (slab : Nat) (hb : Nat) (b : Nat) (s : State) (hk : Keeps s0 s) :
    Keeps s0 (loseBlock page slab hb b s) := by
  unfold loseBlock
  with_reducible repeat' first | assumption | apply keeps_raise | apply keeps_spoil | split

theorem keeps_loseSlab (page : Nat) (slab : Nat) (t : Tier) (frame : Nat) (s : State) (hk : Keeps s0 s) :
    Keeps s0 (loseSlab page slab t frame s) := by
  unfold loseSlab
  with_reducible repeat'
    first
    | assumption | apply keeps_loseBlock | exact Keeps.refl _ | apply Keeps.foldl | apply Keeps.foldl_snd | intro _ | split
    | (refine Keeps.upd ?_; first | assumption | apply keeps_loseBlock) | dsimp only

theorem keeps_loseChannels (page : Nat) (inst : Nat) (chans : List Nat) (s : State) (hk : Keeps s0 s) :
    Keeps s0 (loseChannels page inst chans s) := by
  unfold loseChannels
  with_reducible repeat'
    first
    | assumption | refine Keeps.of_snd (by assumption) ?_ | apply keeps_modChan | apply keeps_loseSlab | apply keeps_raise
    | apply keeps_askMove | apply keeps_releaseHeld | apply keeps_abandonMove | apply keeps_settleScales
    | apply keeps_retireSlabs | exact Keeps.refl _ | apply Keeps.foldl | apply Keeps.foldl_snd | intro _ | split
    | (refine Keeps.upd ?_; first
          | assumption | apply keeps_modChan | apply keeps_loseSlab | apply keeps_raise | apply keeps_askMove
          | apply keeps_releaseHeld | apply keeps_abandonMove | apply keeps_settleScales | apply keeps_retireSlabs)
    | dsimp only

theorem keeps_writeHashPreset (w : Nat) (t2 : Bool) (preset : Nat) (s : State) (hk : Keeps s0 s) :
    Keeps s0 (writeHashPreset w t2 preset s) := by
  unfold writeHashPreset
  with_reducible repeat'
    first
    | assumption | apply keeps_noteErr | apply keeps_admitMasks | apply keeps_putMask | apply keeps_setReg
    | exact Keeps.refl _ | apply Keeps.foldl | apply Keeps.foldl_snd | intro _ | split
    | (refine Keeps.upd ?_; first
          | assumption | apply keeps_noteErr | apply keeps_admitMasks | apply keeps_putMask | apply keeps_setReg)
    | dsimp only

theorem keeps_settleLoads (s : State) (hk : Keeps s0 s) : Keeps s0 (settleLoads s) := by
  unfold settleLoads
  split
  · exact hk
  · exact Keeps.foldl (fun _ _ h => keeps_answerArm _ _ h)
      (Keeps.upd (Keeps.foldl (fun _ _ h => keeps_complete _ _ _ _ _ h) (Keeps.upd hk)))

theorem keeps_settleAvs (s : State) (hk : Keeps s0 s) :
    Keeps s0 (settleAvs s) := by
  unfold settleAvs
  with_reducible repeat'
    first
    | assumption | apply keeps_whenAwake | apply keeps_raise | exact Keeps.refl _ | apply Keeps.foldl | apply Keeps.foldl_snd
    | intro _ | split | (refine Keeps.upd ?_; first | assumption | apply keeps_whenAwake | apply keeps_raise) | dsimp only

theorem keeps_settleExceeded (s : State) (hk : Keeps s0 s) :
    Keeps s0 (settleExceeded s) := by
  unfold settleExceeded
  with_reducible repeat'
    first
    | assumption | apply keeps_whenAwake | apply keeps_raise | exact Keeps.refl _ | apply Keeps.foldl | apply Keeps.foldl_snd
    | intro _ | split | (refine Keeps.upd ?_; first | assumption | apply keeps_whenAwake | apply keeps_raise) | dsimp only

theorem keeps_settleEnvelope (s : State) (hk : Keeps s0 s) : Keeps s0 (settleEnvelope s) := by
  unfold settleEnvelope
  dsimp only
  split
  · exact hk
  · split
    · cases s.ppm.envCmp
      · exact Keeps.upd hk
      · exact keeps_freeClaim _ _ (Keeps.upd hk)
    · exact Keeps.upd hk

theorem keeps_masterWindow (t : Traffic) (rest : Nat) (s00 : State) (m : Nat) (s : State) (_hk : Keeps s0 s00) (hk5 : Keeps
    s0 s) :
    Keeps s0 (masterWindow t rest s00 m s) := by
  unfold masterWindow
  with_reducible repeat'
    first
    | assumption | apply keeps_count | exact Keeps.refl _ | apply Keeps.foldl | apply Keeps.foldl_snd | intro _ | split
    | (refine Keeps.upd ?_; first | assumption | apply keeps_count) | dsimp only

theorem keeps_settleScan (s : State) (hk : Keeps s0 s) :
    Keeps s0 (settleScan s) := by
  unfold settleScan
  with_reducible repeat' first | assumption | apply keeps_freeClaim | split

theorem keeps_setPpu (v : Ppu) (s : State) (e : Tidy s0 → twf TableEnt.free v.tables = true) (hk : Keeps s0 s) : Keeps s0
    (setPpu v s) :=
  ⟨fun x => { hk.tidy x with tables := e x }, hk.pending, hk.fuses.trans (FusesKept.of_otp rfl)⟩

theorem keeps_fillQueue (s : State) (hk : Keeps s0 s) :
    Keeps s0 (fillQueue s) := by
  unfold fillQueue
  with_reducible repeat' first | assumption | refine keeps_setPpu _ _ (fun x => (Keeps.tidy ?_ x).tables) ?_ | split

theorem keeps_endPassCmd (r : RingCmd) (op : Nat) (st : Status) (s : State) (hk : Keeps s0 s) :
    Keeps s0 (endPassCmd r op st s) := by
  unfold endPassCmd
  with_reducible repeat'
    first
    | assumption | apply keeps_complete | apply keeps_settleScan | apply keeps_fillQueue
    | refine keeps_setPpu _ _ (fun x => (Keeps.tidy ?_ x).tables) ?_ | split

theorem keeps_passDone (cmd : Option (RingCmd × Nat)) (s : State) (hk : Keeps s0 s) :
    Keeps s0 (passDone cmd s) := by
  unfold passDone
  with_reducible repeat'
    first
    | assumption | apply keeps_endPassCmd | refine keeps_setPpu _ _ (fun x => (Keeps.tidy ?_ x).tables) ?_ | split

theorem keeps_endPass (s : State) (hk : Keeps s0 s) :
    Keeps s0 (endPass s) := by
  unfold endPass
  with_reducible repeat'
    first
    | assumption | apply keeps_settleScan | apply keeps_fillQueue
    | refine keeps_setPpu _ _ (fun x => (Keeps.tidy ?_ x).tables) ?_ | split

theorem keeps_countSkip (recode : Bool) (n : Nat) (s : State) (hk : Keeps s0 s) :
    Keeps s0 (countSkip recode n s) := by
  unfold countSkip
  with_reducible repeat' first | assumption | apply keeps_countBy | split

theorem keeps_countSkips (p : Pass) (s : State) (hk : Keeps s0 s) :
    Keeps s0 (countSkips p s) := by
  unfold countSkips
  with_reducible repeat' first | assumption | apply keeps_countSkip | split

theorem keeps_modPass (f : Pass → Pass) (s : State) (hk : Keeps s0 s) :
    Keeps s0 (modPass f s) := by
  unfold modPass
  with_reducible repeat' first | assumption | refine keeps_setPpu _ _ (fun x => (Keeps.tidy ?_ x).tables) ?_ | split

theorem keeps_refusePass (r : RingCmd) (op : Nat) (st : Status) (s : State) (hk : Keeps s0 s) :
    Keeps s0 (refusePass r op st s) := by
  unfold refusePass
  with_reducible repeat' first | assumption | apply keeps_complete | apply keeps_count | split

theorem keeps_endTag (r : RingCmd) (op : Nat) (timedOut : Bool) (s : State) (hk : Keeps s0 s) :
    Keeps s0 (endTag r op timedOut s) := by
  unfold endTag
  with_reducible repeat' first | assumption | apply keeps_quarantineTag | apply keeps_dropTag | split

theorem keeps_prepareAll (slabs : List Nat) (s : State) (hk : Keeps s0 s) :
    Keeps s0 (prepareAll slabs s).2 := by
  unfold prepareAll
  with_reducible repeat'
    first
    | assumption | refine Keeps.of_snd (by assumption) ?_ | apply keeps_prepareWrite | exact Keeps.refl _ | apply Keeps.foldl
    | apply Keeps.foldl_snd | intro _ | split | (refine Keeps.upd ?_; first | assumption | apply keeps_prepareWrite)
    | dsimp only

theorem keeps_queuePasses (r : RingCmd) (op : Nat) (ctx : Nat) (fmt : Nat) (recode : Bool) (scopes : List (Nat × Nat))
    (result : Nat) (s : State) (hk : Keeps s0 s) :
    Keeps s0 (queuePasses r op ctx fmt recode scopes result s) := by
  unfold queuePasses
  with_reducible repeat'
    first
    | assumption | apply keeps_fillQueue | refine keeps_setPpu _ _ (fun x => (Keeps.tidy ?_ x).tables) ?_ | split

theorem keeps_storeRun (fmt : Nat) (table : Option Nat) (b : Nat) (ds : List (List Byte)) (s : State) (hk : Keeps s0 s) :
    Keeps s0 (storeRun fmt table b ds s) := by
  induction ds generalizing b s with
  | nil => exact hk
  | cons d ds ih => exact ih _ _ (keeps_storeBlock _ _ _ _ _ _ _ (keeps_touch _ _ hk))

theorem keeps_joinLine (r : RingCmd) (op : Nat) (s : State) (hk : Keeps s0 s) :
    Keeps s0 (joinLine r op s) := by
  unfold joinLine
  with_reducible repeat' first | assumption | refine keeps_setPpu _ _ (fun x => (Keeps.tidy ?_ x).tables) ?_ | split

theorem keeps_passGate (r : RingCmd) (op : Nat) (s : State) (hk : Keeps s0 s) : ∀ t, passGate r op s = .open_ t → Keeps s0 t
    := by
  unfold passGate
  intro t e
  dsimp only at e
  split at e
  · cases e
  · split at e
    · cases e
    · split at e
      · cases e
      · next u h =>
        cases e
        have h1 := keeps_holdScan .ppu _ hk _ h
        exact keeps_setPpu _ _ (fun x => (h1.tidy x).tables) h1

theorem keeps_compressStart (r : RingCmd) (ctx b len fmt scope : Nat) (build : Bool) (table : Option Nat) (blocks : List
    (List Byte))
    (s : State) (hk : Keeps s0 s) : Keeps s0
      (match prepareAll (runSlabs b len) s with
      | (false, s1) => s1
      | (true, s1) =>
        if build then
          queuePasses r Opc.compressIn ctx fmt false (scopesOf scope (len + 1) b len) len
            (storeRun fmt none b blocks (endTag r Opc.compressIn false s1))
        else complete r Opc.compressIn .ok 0 (storeRun fmt table b blocks (endTag r Opc.compressIn false s1))) := by
  split
  · next e => exact Keeps.of_snd e (keeps_prepareAll _ _ hk)
  · next e =>
    have h := keeps_endTag r Opc.compressIn false _ (Keeps.of_snd e (keeps_prepareAll _ _ hk))
    split
    · exact keeps_queuePasses _ _ _ _ _ _ _ _ (keeps_storeRun _ _ _ _ _ h)
    · exact keeps_complete _ _ _ _ _ (keeps_storeRun _ _ _ _ _ h)

theorem keeps_compressBody (r : RingCmd) (ctx b len fmt mode table scope : Nat) (data : List Byte) (s : State)
    (hk : Keeps s0 s) : Keeps s0 (compressBody r ctx b len fmt mode table scope data s) := by
  unfold compressBody
  dsimp only
  generalize (!decide (s.dev.profile.compression = 0) && (decide (mode = 0) || decide (s.dev.profile.compression = 2))) = build
  cases build
  · exact keeps_compressStart r ctx b len fmt scope false _ _ _ hk
  · simp only [if_true]
    split
    · exact keeps_refusePass _ _ _ _ hk
    · exact keeps_joinLine _ _ _ hk
    · next t e => exact keeps_settleScan _ (keeps_compressStart r ctx b len fmt scope true none _ _ (keeps_passGate _ _ _ hk _ e))

theorem keeps_recodeBlock (c : Coding) (slab : Nat) (b : Nat) (s : State) (hk : Keeps s0 s) :
    Keeps s0 (recodeBlock c slab b s) := by
  unfold recodeBlock
  with_reducible repeat'
    first
    | assumption | refine Keeps.of_snd (by assumption) ?_ | apply keeps_countSkip | apply keeps_fetchBlock
    | apply keeps_storeBlock | exact Keeps.refl _ | apply Keeps.foldl | apply Keeps.foldl_snd | intro _ | split
    | (refine Keeps.upd ?_; first | assumption | apply keeps_countSkip | apply keeps_fetchBlock | apply keeps_storeBlock)
    | dsimp only

theorem keeps_recodeRun (c : Coding) (lo : Nat) (n : Nat) (s : State) (hk : Keeps s0 s) :
    Keeps s0 (recodeRun c lo n s) := by
  unfold recodeRun
  with_reducible repeat'
    first
    | assumption | apply keeps_recodeBlock | exact Keeps.refl _ | apply Keeps.foldl | apply Keeps.foldl_snd | intro _ | split
    | (refine Keeps.upd ?_; first | assumption | apply keeps_recodeBlock) | dsimp only

theorem keeps_touchSlabs (first : Nat) (n : Nat) (s : State) (hk : Keeps s0 s) :
    Keeps s0 (touchSlabs first n s) := by
  unfold touchSlabs
  with_reducible repeat'
    first
    | assumption | apply keeps_touchMap | exact Keeps.refl _ | apply Keeps.foldl | apply Keeps.foldl_snd | intro _ | split
    | (refine Keeps.upd ?_; first | assumption | apply keeps_touchMap) | dsimp only

theorem keeps_bgRecode (slab : Nat) (s00 : State) (hk : Keeps s0 s00) :
    Keeps s0 (bgRecode slab s00) := by
  unfold bgRecode
  with_reducible repeat'
    first
    | assumption | refine keeps_holdScan _ _ ?_ _ (by assumption)
    | refine keeps_setPpu _ _ (fun x => (Keeps.tidy ?_ x).tables) ?_ | apply keeps_recodeRun | apply keeps_fillQueue
    | exact Keeps.refl _ | apply Keeps.foldl | apply Keeps.foldl_snd | intro _ | split
    | (refine Keeps.upd ?_; first
          | assumption | refine keeps_setPpu _ _ (fun x => (Keeps.tidy ?_ x).tables) ?_ | apply keeps_recodeRun
          | apply keeps_fillQueue)
    | dsimp only

theorem keeps_encodeScope (p : Pass) (id : Nat) (s : State) (hk : Keeps s0 s) :
    Keeps s0 (encodeScope p id s).2 := by
  unfold encodeScope
  with_reducible repeat'
    first
    | assumption | apply keeps_recodeRun | apply keeps_countSkip | exact Keeps.refl _ | apply Keeps.foldl
    | apply Keeps.foldl_snd | intro _ | split
    | (refine Keeps.upd ?_; first | assumption | apply keeps_recodeRun | apply keeps_countSkip) | dsimp only

theorem keeps_recodeUse (r : RingCmd) (first : Nat) (len : Nat) (fmt : Nat) (table : Nat) (rawOnly : Bool) (s : State) (hk :
    Keeps s0 s) :
    Keeps s0 (recodeUse r first len fmt table rawOnly s) := by
  unfold recodeUse
  with_reducible repeat'
    first
    | assumption | refine Keeps.of_snd (by assumption) ?_ | apply keeps_prepareAll | apply keeps_complete
    | apply keeps_recodeRun | exact Keeps.refl _ | apply Keeps.foldl | apply Keeps.foldl_snd | intro _ | split
    | (refine Keeps.upd ?_; first | assumption | apply keeps_prepareAll | apply keeps_complete | apply keeps_recodeRun)
    | dsimp only

theorem keeps_dropPassTable (p : Pass) (s : State) (hk : Keeps s0 s) :
    Keeps s0 (dropPassTable p s) := by
  unfold dropPassTable
  with_reducible repeat' first | assumption | apply keeps_count | apply keeps_setTable | apply keeps_unpinTable | split

theorem keeps_dropPasses (ctx : Nat) (s : State) (hk : Keeps s0 s) :
    Keeps s0 (dropPasses ctx s) := by
  unfold dropPasses
  with_reducible repeat'
    first
    | assumption | apply keeps_dropPassTable | refine keeps_setPpu _ _ (fun x => (Keeps.tidy ?_ x).tables) ?_
    | apply keeps_settleScan | apply keeps_fillQueue | apply keeps_endPassCmd | exact Keeps.refl _ | apply Keeps.foldl
    | apply Keeps.foldl_snd | intro _ | split
    | (refine Keeps.upd ?_; first
          | assumption | apply keeps_dropPassTable | refine keeps_setPpu _ _ (fun x => (Keeps.tidy ?_ x).tables) ?_
          | apply keeps_settleScan | apply keeps_fillQueue | apply keeps_endPassCmd)
    | dsimp only

theorem keeps_endDecode (fport : Nat) (s : State) (hk : Keeps s0 s) : Keeps s0 (endDecode fport s) := by
  have h (t : State) (f : Nat → TableEnt → TableEnt) (ht : Keeps s0 t) :
      Keeps s0 (setPpu { s.ppu with tables := tmap TableEnt.free f s.ppu.tables } t) :=
    keeps_setPpu _ _ (fun x => twf_tmap _ (hk.tidy x).tables) ht
  unfold endDecode
  exact keeps_releaseTables _ (h _ _ (keeps_modFport _ _ _ hk))

theorem keeps_stopPasses (s : State) (hk : Keeps s0 s) :
    Keeps s0 (stopPasses s) := by
  unfold stopPasses
  with_reducible repeat'
    first
    | assumption | refine keeps_setPpu _ _ (fun x => (Keeps.tidy ?_ x).tables) ?_ | apply keeps_settleScan
    | apply keeps_endPassCmd | exact Keeps.refl _ | apply Keeps.foldl | apply Keeps.foldl_snd | intro _ | split
    | (refine Keeps.upd ?_; first
          | assumption | refine keeps_setPpu _ _ (fun x => (Keeps.tidy ?_ x).tables) ?_ | apply keeps_settleScan
          | apply keeps_endPassCmd)
    | dsimp only

theorem keeps_setCvu (n : Nat) (v : Cvu) (s : State) (hk : Keeps s0 s) : Keeps s0 (setCvu n v s) :=
  hk.step (fun x => { x with cvus := twf_tput _ _ x.cvus }) rfl rfl

theorem keeps_modCvu (n : Nat) (f : Cvu → Cvu) (s : State) (hk : Keeps s0 s) :
    Keeps s0 (modCvu n f s) := by
  unfold modCvu
  with_reducible repeat' first | assumption | apply keeps_setCvu | split

theorem keeps_refuseJob (n : Nat) (st : Status) (s : State) (hk : Keeps s0 s) :
    Keeps s0 (refuseJob n st s) := by
  unfold refuseJob
  with_reducible repeat' first | assumption | apply keeps_modCvu | split

theorem keeps_startJob (w : Nat) (n : Nat) (s : State) (hk : Keeps s0 s) :
    Keeps s0 (startJob w n s) := by
  unfold startJob
  with_reducible repeat'
    first
    | assumption | refine keeps_holdScan _ _ ?_ _ (by assumption) | apply keeps_refuseJob | apply keeps_setCvu
    | apply keeps_count | apply keeps_denyClaim | exact Keeps.refl _ | apply Keeps.foldl | apply Keeps.foldl_snd | intro _
    | split
    | (refine Keeps.upd ?_; first
          | assumption | apply keeps_refuseJob | apply keeps_setCvu | apply keeps_count | apply keeps_denyClaim)
    | dsimp only

theorem keeps_endCvuJobs (s : State) (hk : Keeps s0 s) : Keeps s0 (endCvuJobs s) := by
  unfold endCvuJobs
  refine hk.step (fun x => { x with cvus := ?_ }) rfl rfl
  dsimp only
  exact twf_tmap _ x.cvus

theorem keeps_storeJobCtrl (w : Nat) (n : Nat) (value : Word) (s : State) (hk : Keeps s0 s) :
    Keeps s0 (storeJobCtrl w n value s) := by
  unfold storeJobCtrl
  with_reducible repeat'
    first
    | assumption | apply keeps_setReg | apply keeps_noteErr | exact Keeps.refl _ | apply Keeps.foldl | apply Keeps.foldl_snd
    | intro _ | split | (refine Keeps.upd ?_; first | assumption | apply keeps_setReg | apply keeps_noteErr) | dsimp only

theorem keeps_checkGate (r : RingCmd) (ctx : Nat) (preset : Nat) (mode : Nat) (flags : Nat) (width : Nat) (addr : Nat)
    (result : Nat) (length : Nat) (poly : Word) (init : Word) (s : State) (hk : Keeps s0 s) :
    Keeps s0 (checkGate r ctx preset mode flags width addr result length poly init s).2 := by
  unfold checkGate
  with_reducible repeat'
    first
    | assumption | refine Keeps.of_snd (by assumption) ?_ | apply keeps_gateCtx | exact Keeps.refl _ | apply Keeps.foldl
    | apply Keeps.foldl_snd | intro _ | split | (refine Keeps.upd ?_; first | assumption | apply keeps_gateCtx) | dsimp only

theorem keeps_settleCvuScan (s : State) (hk : Keeps s0 s) :
    Keeps s0 (settleCvuScan s) := by
  unfold settleCvuScan
  with_reducible repeat'
    first
    | assumption | apply keeps_freeClaim | exact Keeps.refl _ | apply Keeps.foldl | apply Keeps.foldl_snd | intro _ | split
    | (refine Keeps.upd ?_; first | assumption | apply keeps_freeClaim) | dsimp only

theorem keeps_acceptCheck (r : RingCmd) (s : State) (hk : Keeps s0 s) : ∀ t, acceptCheck r s = .error t → Keeps s0 t := by
  unfold acceptCheck
  intro t e
  split at e
  · cases e
  · split at e
    · cases e; exact hk
    · split at e
      · cases e; exact keeps_count _ _ _ (keeps_denyClaim _ hk)
      · cases e

theorem keeps_acceptCheck_ok (r : RingCmd) (s : State) (hk : Keeps s0 s) : ∀ t, acceptCheck r s = .ok t → Keeps s0 t := by
  unfold acceptCheck
  intro t e
  split at e
  · cases e; exact hk
  · split at e
    · cases e
    · split at e
      · cases e
      · next h => cases e; exact Keeps.upd (keeps_holdScan _ _ hk _ h)

theorem keeps_noteScanDeny (ask : Ask) (apt : Option Nat) (y2 : Nat) (s : State) (hk : Keeps s0 s) :
    Keeps s0 (noteScanDeny ask apt y2 s) := by
  unfold noteScanDeny
  with_reducible repeat' first | assumption | apply keeps_noteDeny | split

theorem keeps_scanBlocks (ask : Ask) (apt : Option Nat) (p : CvuPar) (per : Bool) (n a left : Nat) (x : Scan) (s : State)
    (hk : Keeps s0 s) : Keeps s0 (scanBlocks ask apt p per n a left x s).2 := by
  induction n generalizing a left x s with
  | zero => exact hk
  | succ n ih =>
    unfold scanBlocks
    split
    · exact hk
    · split
      · exact keeps_noteScanDeny _ _ _ _ hk
      · next slab hs =>
        split
        · next e => exact Keeps.of_snd e (keeps_checkAccess _ _ _ hk)
        · next e =>
          have h1 := keeps_touchMap slab _ (Keeps.of_snd e (keeps_checkAccess _ _ _ hk))
          dsimp only
          split <;> next e =>
            split at e
            · cases e <;> first | exact h1 | exact ih _ _ _ _ h1
            · first
              | exact Keeps.of_snd e (keeps_fetchBlock _ _ _ _ h1)
              | exact ih _ _ _ _ (Keeps.of_snd e (keeps_fetchBlock _ _ _ _ h1))

theorem keeps_writeResults (fn : Nat) (addr : Nat) (l : List Nat) (s : State) (hk : Keeps s0 s) :
    Keeps s0 (writeResults fn addr l s) := by
  unfold writeResults
  with_reducible repeat' first | assumption | apply keeps_emit | split

theorem keeps_runCheck (r : RingCmd) (ctx : Nat) (mode : Nat) (flags : Nat) (addr : Nat) (result : Nat) (length : Nat) (n :
    Nat) (p : CvuPar) (s : State) (hk : Keeps s0 s) :
    Keeps s0 (runCheck r ctx mode flags addr result length n p s) := by
  unfold runCheck
  with_reducible repeat'
    first
    | assumption | refine Keeps.of_snd (by assumption) ?_ | apply keeps_countBy | apply keeps_scanBlocks
    | apply keeps_settleCvuScan | apply keeps_complete | apply keeps_writeResults | apply keeps_count | exact Keeps.refl _
    | apply Keeps.foldl | apply Keeps.foldl_snd | intro _ | split
    | (refine Keeps.upd ?_; first
          | assumption | apply keeps_countBy | apply keeps_scanBlocks | apply keeps_settleCvuScan | apply keeps_complete
          | apply keeps_writeResults | apply keeps_count)
    | dsimp only

theorem keeps_freshRow (word : Nat) (s : State) (hk : Keeps s0 s) : Keeps s0 (freshRow word s) := by
  unfold freshRow
  refine hk.step (fun x => { x with plants := ?_ }) rfl rfl
  dsimp only
  exact twf_tmap _ x.plants

theorem keeps_noteSparing (word : Nat) (action : Nat) (s : State) (hk : Keeps s0 s) :
    Keeps s0 (noteSparing word action s) := by
  unfold noteSparing
  with_reducible repeat'
    first
    | assumption | apply keeps_sparingEvent | exact Keeps.refl _ | apply Keeps.foldl | apply Keeps.foldl_snd | intro _ | split
    | (refine Keeps.upd ?_; first | assumption | apply keeps_sparingEvent) | dsimp only

theorem keeps_noteSram (word : Nat) (s : State) (hk : Keeps s0 s) :
    Keeps s0 (noteSram word s) := by
  unfold noteSram
  with_reducible repeat'
    first
    | assumption | apply keeps_noteSparing | apply keeps_logRepair | apply keeps_count | apply keeps_dropUpset | split

theorem keeps_correctWord (word : Nat) (s : State) (hk : Keeps s0 s) :
    Keeps s0 (correctWord word s) := by
  unfold correctWord
  with_reducible repeat' first | assumption | apply keeps_dropUpset | apply keeps_setPlant | split

theorem keeps_failTile (row : Nat) (col : Nat) (cause : Nat) (s : State) (hk : Keeps s0 s) :
    Keeps s0 (failTile row col cause s) := by
  unfold failTile
  with_reducible repeat'
    first
    | assumption | apply keeps_count | apply keeps_setTile | apply keeps_unitEvent | apply keeps_setSht
    | apply keeps_logRepair | split

theorem keeps_spareTile (row : Nat) (col : Nat) (s : State) (hk : Keeps s0 s) :
    Keeps s0 (spareTile row col s) := by
  unfold spareTile
  with_reducible repeat'
    first
    | assumption | apply keeps_noteSram | apply keeps_setTile | apply keeps_failTile | exact Keeps.refl _ | apply Keeps.foldl
    | apply Keeps.foldl_snd | intro _ | split
    | (refine Keeps.upd ?_; first | assumption | apply keeps_noteSram | apply keeps_setTile | apply keeps_failTile)
    | dsimp only

theorem keeps_spareSram (word : Nat) (s : State) (hk : Keeps s0 s) :
    Keeps s0 (spareSram word s) := by
  unfold spareSram
  with_reducible repeat'
    first
    | assumption | apply keeps_spareTile | apply keeps_dropTray | apply keeps_dropUpset | apply keeps_noteSram
    | apply keeps_sparingEvent | exact Keeps.refl _ | apply Keeps.foldl | apply Keeps.foldl_snd | intro _ | split
    | (refine Keeps.upd ?_; first
          | assumption | apply keeps_spareTile | apply keeps_dropTray | apply keeps_dropUpset | apply keeps_noteSram
          | apply keeps_sparingEvent)
    | dsimp only

theorem keeps_setToffee (word : Nat) (f : Toffee → Toffee) (s : State) (hk : Keeps s0 s) :
    Keeps s0 (setToffee word f s) := by
  unfold setToffee
  with_reducible repeat'
    first
    | assumption | exact Keeps.refl _ | apply Keeps.foldl | apply Keeps.foldl_snd | intro _ | split
    | (refine Keeps.upd ?_; first | assumption) | dsimp only

theorem keeps_setPatrol (t : Tier) (p : Patrol) (s : State) (hk : Keeps s0 s) :
    Keeps s0 (setPatrol t p s) := by
  unfold setPatrol
  with_reducible repeat'
    first
    | assumption | exact Keeps.refl _ | apply Keeps.foldl | apply Keeps.foldl_snd | intro _ | split
    | (refine Keeps.upd ?_; first | assumption) | dsimp only

theorem keeps_settleLag (t : Tier) (s : State) (hk : Keeps s0 s) :
    Keeps s0 (settleLag t s) := by
  unfold settleLag
  with_reducible repeat'
    first
    | assumption | apply keeps_setPatrol | exact Keeps.refl _ | apply Keeps.foldl | apply Keeps.foldl_snd | intro _ | split
    | (refine Keeps.upd ?_; first | assumption | apply keeps_setPatrol) | dsimp only

theorem keeps_writeBack (slab : Nat) (b : Nat) (hb : Nat) (words : List Nat) (again : Bool) (s : State) (hk : Keeps s0 s) :
    Keeps s0 (writeBack slab b hb words again s) := by
  unfold writeBack
  with_reducible repeat'
    first
    | assumption | apply keeps_setPlant | apply keeps_markDirty | apply keeps_countBy | apply keeps_noteCorrection
    | exact Keeps.refl _ | apply Keeps.foldl | apply Keeps.foldl_snd | intro _ | split
    | (refine Keeps.upd ?_; first
          | assumption | apply keeps_setPlant | apply keeps_markDirty | apply keeps_countBy | apply keeps_noteCorrection)
    | dsimp only

theorem keeps_iceBlock (t : Tier) (slab : Nat) (b : Nat) (hb : Nat) (again : Bool) (s : State) (hk : Keeps s0 s) :
    Keeps s0 (iceBlock t slab b hb again s) := by
  unfold iceBlock
  with_reducible repeat'
    first
    | assumption | refine Keeps.of_snd (by assumption) ?_ | apply keeps_count | apply keeps_readHome | apply keeps_countBy
    | apply keeps_queueUrgent | apply keeps_writeBack | exact Keeps.refl _ | apply Keeps.foldl | apply Keeps.foldl_snd
    | intro _ | split
    | (refine Keeps.upd ?_; first
          | assumption | apply keeps_count | apply keeps_readHome | apply keeps_countBy | apply keeps_queueUrgent
          | apply keeps_writeBack)
    | dsimp only

theorem keeps_logRow (k : RepairKind) (word : Nat) (frame : Nat) (s : State) (hk : Keeps s0 s) :
    Keeps s0 (logRow k word frame s) := by
  unfold logRow
  with_reducible repeat' first | assumption | apply keeps_logRepair | split

theorem keeps_putRemap (t : Tier) (row : Nat) (s : State) (hk : Keeps s0 s) :
    Keeps s0 (putRemap t row s) := by
  unfold putRemap
  with_reducible repeat'
    first
    | assumption | exact Keeps.refl _ | apply Keeps.foldl | apply Keeps.foldl_snd | intro _ | split
    | (refine Keeps.upd ?_; first | assumption) | dsimp only

theorem keeps_retireFrame (t : Tier) (frame : Nat) (s : State) (hk : Keeps s0 s) :
    Keeps s0 (retireFrame t frame s) := by
  unfold retireFrame
  with_reducible repeat'
    first
    | assumption | refine Keeps.of_snd (by assumption) ?_ | apply keeps_askMove | apply keeps_retireSlabs | exact Keeps.refl _
    | apply Keeps.foldl | apply Keeps.foldl_snd | intro _ | split
    | (refine Keeps.upd ?_; first | assumption | apply keeps_askMove | apply keeps_retireSlabs) | dsimp only

theorem keeps_spareWord (word : Nat) (sppr : Bool) (remap : Bool) (s : State) (hk : Keeps s0 s) :
    Keeps s0 (spareWord word sppr remap s) := by
  unfold spareWord
  with_reducible repeat'
    first
    | assumption | apply keeps_noteSparing | apply keeps_logRow | apply keeps_count | apply keeps_freshRow
    | apply keeps_putRemap | apply keeps_retireFrame | exact Keeps.refl _ | apply Keeps.foldl | apply Keeps.foldl_snd
    | intro _ | split
    | (refine Keeps.upd ?_; first
          | assumption | apply keeps_noteSparing | apply keeps_logRow | apply keeps_count | apply keeps_freshRow
          | apply keeps_putRemap | apply keeps_retireFrame)
    | dsimp only

theorem keeps_spareAny (word : Nat) (sppr : Bool) (remap : Bool) (s : State) (hk : Keeps s0 s) :
    Keeps s0 (spareAny word sppr remap s) := by
  unfold spareAny
  with_reducible repeat' first | assumption | apply keeps_spareSram | apply keeps_spareWord | split

theorem keeps_rewriteWord (word : Nat) (s : State) (hk : Keeps s0 s) :
    Keeps s0 (rewriteWord word s) := by
  unfold rewriteWord
  with_reducible repeat' first | assumption | apply keeps_markDirty | split

theorem keeps_wrongValue (c : BitVec 32) (s : State) (hk : Keeps s0 s) :
    Keeps s0 (wrongValue c s).2 := by
  unfold wrongValue
  with_reducible repeat' first | assumption | apply keeps_draw | split

theorem keeps_plantError (kind : Nat) (crumb : Nat) (hb : Nat) (s : State) (hk : Keeps s0 s) :
    Keeps s0 (plantError kind crumb hb s) := by
  unfold plantError
  with_reducible repeat' first | assumption | apply keeps_setPlant | apply keeps_wrongValue | apply keeps_setDesc | split

theorem keeps_unloadRecipe (h : Nat) (s : State) (hk : Keeps s0 s) :
    Keeps s0 (unloadRecipe h s) := by
  unfold unloadRecipe
  with_reducible repeat'
    first
    | assumption | apply keeps_setRecipe | apply keeps_unpinTable | apply keeps_settleScales | apply keeps_complete
    | exact Keeps.refl _ | apply Keeps.foldl | apply Keeps.foldl_snd | intro _ | split
    | (refine Keeps.upd ?_; first
          | assumption | apply keeps_setRecipe | apply keeps_unpinTable | apply keeps_settleScales | apply keeps_complete)
    | dsimp only

theorem keeps_endAndUnload (h : Nat) (outcome : Status) (s : State) (hk : Keeps s0 s) :
    Keeps s0 (endAndUnload h outcome s) := by
  unfold endAndUnload
  with_reducible repeat'
    first
    | assumption | apply keeps_modRun | apply keeps_endRun | apply keeps_unloadRecipe | exact Keeps.refl _ | apply Keeps.foldl
    | apply Keeps.foldl_snd | intro _ | split
    | (refine Keeps.upd ?_; first | assumption | apply keeps_modRun | apply keeps_endRun | apply keeps_unloadRecipe)
    | dsimp only

theorem keeps_freeRunComparator (n : Nat) (s : State) (hk : Keeps s0 s) :
    Keeps s0 (freeRunComparator n s) := by
  unfold freeRunComparator
  with_reducible repeat'
    first
    | assumption | apply keeps_freeClaim | exact Keeps.refl _ | apply Keeps.foldl | apply Keeps.foldl_snd | intro _ | split
    | (refine Keeps.upd ?_; first | assumption | apply keeps_freeClaim) | dsimp only

theorem keeps_postNotice (fn : Nat) (ring : Nat) (tag : Nat) (last : Nat) (st : Status) (s : State) (hk : Keeps s0 s) :
    Keeps s0 (postNotice fn ring tag last st s) := by
  unfold postNotice
  with_reducible repeat'
    first
    | assumption | apply keeps_writeCpl | apply keeps_count | exact Keeps.refl _ | apply Keeps.foldl | apply Keeps.foldl_snd
    | intro _ | split | (refine Keeps.upd ?_; first | assumption | apply keeps_writeCpl | apply keeps_count) | dsimp only

theorem keeps_finishRun (s : State) (hk : Keeps s0 s) :
    Keeps s0 (finishRun s) := by
  unfold finishRun
  with_reducible repeat'
    first
    | assumption | apply keeps_count | apply keeps_countBy | apply keeps_freeRunComparator | apply keeps_complete
    | apply keeps_postNotice | apply keeps_poolCredits | apply keeps_unloadRecipe | exact Keeps.refl _ | apply Keeps.foldl
    | apply Keeps.foldl_snd | intro _ | split
    | (refine Keeps.upd ?_; first
          | assumption | apply keeps_count | apply keeps_countBy | apply keeps_freeRunComparator | apply keeps_complete
          | apply keeps_postNotice | apply keeps_poolCredits | apply keeps_unloadRecipe)
    | dsimp only

theorem keeps_disarm (s : State) (hk : Keeps s0 s) :
    Keeps s0 (disarm s) := by
  unfold disarm
  with_reducible repeat'
    first
    | assumption | apply keeps_freeRunComparator | apply keeps_setRun | apply keeps_poolCredits | split

theorem keeps_readStreamBlock (q : Recipe) (b : Nat) (s : State) (hk : Keeps s0 s) : Keeps s0 (readStreamBlock q b s).2 := by
  unfold readStreamBlock
  dsimp only
  have h1 (asked : Bool) : Keeps s0 (if asked then ((none : Option (Nat × Status)), s) else checkAccess (streamAsk s q.ctx
      false) (b / 4096) s).2 := by
    cases asked
    · exact keeps_checkAccess _ _ _ hk
    · exact hk
  split
  · next e => exact Keeps.of_snd e (h1 _)
  · next s1 e =>
    have h2 := Keeps.of_snd e (h1 _)
    have h3 : Keeps s0 (if (s.rcp.run.bind (·.asked)).isSome then s1
        else modRun (fun r => { r with asked := some s1.ppu.current.toNat }) (touch (b / 4096) s1)) := by
      split
      · exact h2
      · exact keeps_modRun _ _ (keeps_touch _ _ h2)
    generalize (if (s.rcp.run.bind (·.asked)).isSome then s1
        else modRun (fun r => { r with asked := some s1.ppu.current.toNat }) (touch (b / 4096) s1)) = s2 at h3 ⊢
    split
    · exact keeps_modRun _ _ h3
    · split
      · exact h3
      · split
        · exact Keeps.upd h3
        · have h4 := keeps_fetchBlock ⟨1, ctxFn s2 q.ctx, 1⟩ (b / 4096) (b % 4096) s2 h3
          split
          · next e =>
            refine keeps_releaseTables _ (keeps_modRun _ _ ?_)
            have h5 := Keeps.of_snd e h4
            split <;> (try split) <;> first | exact h5 | exact keeps_count _ _ _ h5
          · next e => exact Keeps.of_snd e h4
          · next e => exact Keeps.of_snd e h4



theorem keeps_nextBlock (q : Recipe) (b : Nat) (s : State) (hk : Keeps s0 s) : Keeps s0 (nextBlock q b s).2 := by
  unfold nextBlock
  split
  · exact keeps_modRun _ _ hk
  · exact keeps_readStreamBlock _ _ _ hk

theorem keeps_readStreamBlocks (q : Recipe) (b n : Nat) (s : State) (hk : Keeps s0 s) :
    Keeps s0 (readStreamBlocks q b n s).2 := by
  induction n generalizing b s with
  | zero => exact hk
  | succ n ih =>
    unfold readStreamBlocks
    split
    · next e => exact Keeps.of_snd e (keeps_nextBlock _ _ _ hk)
    · next e =>
      have h1 := Keeps.of_snd e (keeps_nextBlock _ _ _ hk)
      split <;> next e => exact Keeps.of_snd e (ih _ _ h1)

theorem keeps_readSends (q : Recipe) (l : List SendRec) (s : State) (hk : Keeps s0 s) : Keeps s0 (readSends q l s).2 := by
  induction l generalizing s with
  | nil => exact hk
  | cons x l ih =>
    unfold readSends
    split
    · next e => exact Keeps.of_snd e (keeps_readStreamBlocks _ _ _ _ hk)
    · next e =>
      have h1 := Keeps.of_snd e (keeps_readStreamBlocks _ _ _ _ hk)
      split <;> next e => exact Keeps.of_snd e (ih _ h1)

theorem keeps_sendTransfer (fport : Nat) (step : Nat) (data : List Byte) (s : State) (hk : Keeps s0 s) :
    Keeps s0 (sendTransfer fport step data s) := by
  unfold sendTransfer
  with_reducible repeat'
    first
    | assumption | apply keeps_sendPkt | exact Keeps.refl _ | apply Keeps.foldl | apply Keeps.foldl_snd | intro _ | split
    | (refine Keeps.upd ?_; first | assumption | apply keeps_sendPkt) | dsimp only

theorem keeps_sendStep (r : Run) (q : Recipe) (st : StepRec) (s : State) (hk : Keeps s0 s) :
    Keeps s0 (sendStep r q st s).2 := by
  unfold sendStep
  with_reducible repeat'
    first
    | assumption | refine Keeps.of_snd (by assumption) ?_ | apply keeps_readSends | apply keeps_modRun
    | apply keeps_sendTransfer | exact Keeps.refl _ | apply Keeps.foldl | apply Keeps.foldl_snd | intro _ | split
    | (refine Keeps.upd ?_; first | assumption | apply keeps_readSends | apply keeps_modRun | apply keeps_sendTransfer)
    | dsimp only

theorem keeps_holdStep (h : Hold) (s : State) (hk : Keeps s0 s) :
    Keeps s0 (holdStep h s) := by
  unfold holdStep
  with_reducible repeat'
    first
    | assumption | apply keeps_modRun | apply keeps_stepFaultAt | exact Keeps.refl _ | apply Keeps.foldl
    | apply Keeps.foldl_snd | intro _ | split
    | (refine Keeps.upd ?_; first | assumption | apply keeps_modRun | apply keeps_stepFaultAt) | dsimp only

theorem keeps_readOperand (r : Run) (q : Recipe) (src : Src) (n : Nat) (s : State) (hk : Keeps s0 s) :
    Keeps s0 (readOperand r q src n s).2 := by
  unfold readOperand
  with_reducible repeat'
    first
    | assumption | refine Keeps.of_snd (by assumption) ?_ | apply keeps_readStreamBlocks | exact Keeps.refl _
    | apply Keeps.foldl | apply Keeps.foldl_snd | intro _ | split
    | (refine Keeps.upd ?_; first | assumption | apply keeps_readStreamBlocks) | dsimp only

theorem keeps_readOperands (r : Run) (q : Recipe) (l : List (Src × Nat)) (s : State) (hk : Keeps s0 s) :
    Keeps s0 (readOperands r q l s).2 := by
  induction l generalizing s with
  | nil => exact hk
  | cons x l ih =>
    unfold readOperands
    split
    · next e => exact Keeps.of_snd e (keeps_readOperand _ _ _ _ _ hk)
    · next e =>
      have h1 := Keeps.of_snd e (keeps_readOperand _ _ _ _ _ hk)
      split <;> next e => exact Keeps.of_snd e (ih _ h1)

theorem keeps_dstAllowed (q : Recipe) (dst : Dst) (n : Nat) (s : State) (hk : Keeps s0 s) :
    Keeps s0 (dstAllowed q dst n s).2 := by
  unfold dstAllowed
  with_reducible repeat'
    first
    | assumption | refine Keeps.of_snd (by assumption) ?_ | apply keeps_checkRun | exact Keeps.refl _ | apply Keeps.foldl
    | apply Keeps.foldl_snd | intro _ | split | (refine Keeps.upd ?_; first | assumption | apply keeps_checkRun) | dsimp only

theorem keeps_allAllowed (q : Recipe) (l : List (Dst × Nat)) (s : State) (hk : Keeps s0 s) :
    Keeps s0 (allAllowed q l s).2 := by
  unfold allAllowed
  with_reducible repeat'
    first
    | assumption | refine Keeps.of_snd (by assumption) ?_ | apply keeps_dstAllowed | exact Keeps.refl _ | apply Keeps.foldl
    | apply Keeps.foldl_snd | intro _ | split | (refine Keeps.upd ?_; first | assumption | apply keeps_dstAllowed)
    | dsimp only

theorem keeps_meetTile (row col : Nat) (u : Upset) (a : Option (Nat × Nat) × State) (hk : Keeps s0 a.2) :
    Keeps s0 (meetTile row col u a).2 := by
  unfold meetTile
  split
  · exact hk
  · split
    · split <;> exact hk
    · exact keeps_noteCorrection _ _ (keeps_errCorr _ _ (keeps_setTile _ _ _ _ hk))

theorem keeps_meetTiles (s : State) (hk : Keeps s0 s) : Keeps s0 (meetTiles s).2 := by
  unfold meetTiles
  exact Keeps.foldl_snd (fun p u hp => keeps_meetTile _ _ _ _ hp) hk

theorem keeps_tileFault (cause : Nat) (row : Nat) (col : Nat) (fails : Bool) (s : State) (hk : Keeps s0 s) :
    Keeps s0 (tileFault cause row col fails s) := by
  unfold tileFault
  with_reducible repeat' first | assumption | apply keeps_stepFault | apply keeps_failTile | split

theorem keeps_storeFault (row : Nat) (col : Nat) (s : State) (hk : Keeps s0 s) :
    Keeps s0 (storeFault row col s) := by
  unfold storeFault
  with_reducible repeat' first | assumption | apply keeps_tileFault | apply keeps_errUncorr | apply keeps_setTile | split

theorem keeps_throughTiles (body : State → State) (s : State) (hf1 : ∀ u0, Keeps s0 u0 → Keeps s0 (body u0)) (hk2 : Keeps s0
    s) :
    Keeps s0 (throughTiles body s) := by
  unfold throughTiles
  with_reducible repeat'
    first
    | assumption | refine Keeps.of_snd (by assumption) ?_ | refine Keeps.of_snd_snd (by assumption) ?_ | apply keeps_meetTiles
    | apply keeps_storeFault | apply hf1 | exact Keeps.refl _ | apply Keeps.foldl | apply Keeps.foldl_snd | intro _ | split
    | (refine Keeps.upd ?_; first | assumption | apply keeps_meetTiles | apply keeps_storeFault | apply hf1) | dsimp only

theorem keeps_settleElems (bytes : Nat) (l : List (Option Out)) (s : State) (hk : Keeps s0 s) :
    Keeps s0 (settleElems bytes l s).2 := by
  induction l generalizing s with
  | nil => exact hk
  | cons x l ih =>
    cases x with
    | none => exact ih _ (Keeps.upd hk)
    | some o =>
      unfold settleElems
      refine ih _ ?_
      split <;> split <;> first
        | exact hk
        | exact keeps_count _ _ _ hk
        | exact keeps_count _ _ _ (keeps_count _ _ _ hk)

theorem keeps_settleResults (l : List Result) (s : State) (hk : Keeps s0 s) : Keeps s0 (settleResults l s).2 := by
  induction l generalizing s with
  | nil => exact hk
  | cons x l ih => exact ih _ (keeps_settleElems _ _ _ hk)

theorem keeps_stepFormed (q : Recipe) (st : StepRec) (s : State) (hk : Keeps s0 s) :
    Keeps s0 (stepFormed q st s) := by
  unfold stepFormed
  with_reducible repeat' first | assumption | apply keeps_modRun | apply keeps_setSht | split

theorem keeps_storeStream (fmt : Nat) (table : Option Nat) (b : Nat) (ds : List (List Byte)) (s : State) (hk : Keeps s0 s) :
    Keeps s0 (storeStream fmt table b ds s) := by
  induction ds generalizing b s with
  | nil => exact hk
  | cons d ds ih => exact ih _ _ (keeps_storeBlock _ _ _ _ _ _ _ (keeps_meetDesc _ _ _ (keeps_touch _ _ hk)))

theorem keeps_putResult (q : Recipe) (step : Nat) (dst : Dst) (bytes : Nat) (elems : List Nat) (s : State) (hk : Keeps s0 s) :
    Keeps s0 (putResult q step dst bytes elems s) := by
  unfold putResult
  with_reducible repeat'
    first
    | assumption | apply keeps_storeStream | apply keeps_sendTransfer | exact Keeps.refl _ | apply Keeps.foldl
    | apply Keeps.foldl_snd | intro _ | split
    | (refine Keeps.upd ?_; first | assumption | apply keeps_storeStream | apply keeps_sendTransfer) | dsimp only

theorem keeps_storeResults (q : Recipe) (st : StepRec) (step : Nat) (l : List Result) (keep : List (List Nat) → State →
    State) (s : State) (hf5 : ∀ u0 u1, Keeps s0 u1 → Keeps s0 (keep u0 u1)) (hk6 : Keeps s0 s) :
    Keeps s0 (storeResults q st step l keep s) := by
  unfold storeResults
  with_reducible repeat'
    first
    | assumption | refine Keeps.of_snd (by assumption) ?_ | refine Keeps.of_snd_snd (by assumption) ?_
    | apply keeps_allAllowed | apply keeps_stepFaultAt | apply keeps_prepareAll | apply keeps_holdStep
    | apply keeps_throughTiles | apply keeps_settleResults | apply keeps_stepFormed | apply keeps_putResult | apply hf5
    | exact Keeps.refl _ | apply Keeps.foldl | apply Keeps.foldl_snd | intro _ | split
    | (refine Keeps.upd ?_; first
          | assumption | apply keeps_allAllowed | apply keeps_stepFaultAt | apply keeps_prepareAll | apply keeps_holdStep
          | apply keeps_throughTiles | apply keeps_settleResults | apply keeps_stepFormed | apply keeps_putResult | apply hf5)
    | dsimp only

theorem keeps_sheetStep (code : Nat) (lens : StepRec → List Nat) (form : Bool → StepRec → State → List Operand → Formed)
    (keep : StepRec → List (List Nat) → State → State) (s : State) (hf4 : ∀ u0 u1 u2, Keeps s0 u2 → Keeps s0 (keep u0 u1
    u2)) (hk5 : Keeps s0 s) :
    Keeps s0 (sheetStep code lens form keep s) := by
  unfold sheetStep
  with_reducible repeat'
    first
    | assumption | refine Keeps.of_snd (by assumption) ?_ | refine Keeps.of_snd_snd (by assumption) ?_ | apply keeps_sendStep
    | apply keeps_holdStep | apply keeps_readOperands | apply keeps_stepFaultAt | apply keeps_storeResults | apply hf4
    | exact Keeps.refl _ | apply Keeps.foldl | apply Keeps.foldl_snd | intro _ | split
    | (refine Keeps.upd ?_; first
          | assumption | apply keeps_sendStep | apply keeps_holdStep | apply keeps_readOperands | apply keeps_stepFaultAt
          | apply keeps_storeResults | apply hf4)
    | dsimp only

theorem keeps_keepScores (st : StepRec) (vals : List (List Nat)) (s : State) (hk : Keeps s0 s) :
    Keeps s0 (keepScores st vals s) := by
  unfold keepScores
  with_reducible repeat' first | assumption | apply keeps_setSht | split

theorem keeps_noteTransit (s : State) (hk : Keeps s0 s) :
    Keeps s0 (noteTransit s) := by
  unfold noteTransit
  with_reducible repeat'
    first
    | assumption | refine Keeps.of_snd (by assumption) ?_ | apply keeps_draw | apply keeps_count | exact Keeps.refl _
    | apply Keeps.foldl | apply Keeps.foldl_snd | intro _ | split
    | (refine Keeps.upd ?_; first | assumption | apply keeps_draw | apply keeps_count) | dsimp only

theorem keeps_keepNothing (x : StepRec) (l : List (List Nat)) (s : State) (hk : Keeps s0 s) : Keeps s0 (keepNothing x l s) := hk

theorem keeps_nextStep (q : Recipe) (s : State) (hk : Keeps s0 s) :
    Keeps s0 (nextStep q s) := by
  unfold nextStep
  with_reducible repeat' first | assumption | apply keeps_returnStep | apply keeps_setRun | apply keeps_endRun | split

theorem keeps_countFree (p : Nat) (off : Nat) (s : State) (hk : Keeps s0 s) :
    Keeps s0 (countFree p off s) := by
  unfold countFree
  with_reducible repeat' first | assumption | apply keeps_draw | apply keeps_countBy | split

theorem keeps_readRaw (r : Run) (q : Recipe) (src : Src) (n : Nat) (s : State) (hk : Keeps s0 s) :
    Keeps s0 (readRaw r q src n s).2 := by
  unfold readRaw
  with_reducible repeat'
    first
    | assumption | refine Keeps.of_snd (by assumption) ?_ | apply keeps_readStreamBlocks | exact Keeps.refl _
    | apply Keeps.foldl | apply Keeps.foldl_snd | intro _ | split
    | (refine Keeps.upd ?_; first | assumption | apply keeps_readStreamBlocks) | dsimp only

theorem keeps_putEncoded (q : Recipe) (step : Nat) (dst : Dst) (id : Nat) (fmt : Nat) (bs : List (List Byte)) (s : State)
    (hk : Keeps s0 s) :
    Keeps s0 (putEncoded q step dst id fmt bs s) := by
  unfold putEncoded
  with_reducible repeat'
    first
    | assumption | apply keeps_storeStream | apply keeps_sendTransfer | exact Keeps.refl _ | apply Keeps.foldl
    | apply Keeps.foldl_snd | intro _ | split
    | (refine Keeps.upd ?_; first | assumption | apply keeps_storeStream | apply keeps_sendTransfer) | dsimp only

theorem keeps_encodeStep (r : Run) (q : Recipe) (st : StepRec) (len : Nat) (id : Nat) (s : State) (hk : Keeps s0 s) :
    Keeps s0 (encodeStep r q st len id s) := by
  unfold encodeStep
  with_reducible repeat'
    first
    | assumption | refine Keeps.of_snd (by assumption) ?_ | apply keeps_readRaw | apply keeps_holdStep
    | apply keeps_dstAllowed | apply keeps_stepFaultAt | apply keeps_prepareAll | apply keeps_throughTiles
    | apply keeps_stepFormed | apply keeps_putEncoded | exact Keeps.refl _ | apply Keeps.foldl | apply Keeps.foldl_snd
    | intro _ | split
    | (refine Keeps.upd ?_; first
          | assumption | apply keeps_readRaw | apply keeps_holdStep | apply keeps_dstAllowed | apply keeps_stepFaultAt
          | apply keeps_prepareAll | apply keeps_throughTiles | apply keeps_stepFormed | apply keeps_putEncoded)
    | dsimp only

theorem keeps_abortRun (r : RingCmd) (h : Nat) (unload : Bool) (s : State) (hk : Keeps s0 s) :
    Keeps s0 (abortRun r h unload s) := by
  unfold abortRun
  with_reducible repeat'
    first
    | assumption | apply keeps_modRun | apply keeps_endRun | apply keeps_complete | apply keeps_unloadRecipe
    | exact Keeps.refl _ | apply Keeps.foldl | apply Keeps.foldl_snd | intro _ | split
    | (refine Keeps.upd ?_; first
          | assumption | apply keeps_modRun | apply keeps_endRun | apply keeps_complete | apply keeps_unloadRecipe)
    | dsimp only

theorem keeps_assignHome (slab : Nat) (s : State) (hk : Keeps s0 s) :
    Keeps s0 (assignHome slab s) := by
  unfold assignHome
  with_reducible repeat'
    first
    | assumption | exact Keeps.refl _ | apply Keeps.foldl | apply Keeps.foldl_snd | intro _ | split
    | (refine Keeps.upd ?_; first | assumption) | dsimp only

theorem keeps_bookStream (h : Nat) (k : Nat) (bind : Nat) (d : StreamRec) (s : State) (hk : Keeps s0 s) :
    Keeps s0 (bookStream h k bind d s) := by
  unfold bookStream
  with_reducible repeat'
    first
    | assumption | apply keeps_assignHome | exact Keeps.refl _ | apply Keeps.foldl | apply Keeps.foldl_snd | intro _ | split
    | (refine Keeps.upd ?_; first | assumption | apply keeps_assignHome) | dsimp only

theorem keeps_setStart (t0 : Nat) (s : State) (hk : Keeps s0 s) :
    Keeps s0 (setStart t0 s) := by
  unfold setStart
  with_reducible repeat'
    first
    | assumption | apply keeps_setRun | exact Keeps.refl _ | apply Keeps.foldl | apply Keeps.foldl_snd | intro _ | split
    | (refine Keeps.upd ?_; first | assumption | apply keeps_setRun) | dsimp only

theorem keeps_giveStart (s : State) (hk : Keeps s0 s) :
    Keeps s0 (giveStart s) := by
  unfold giveStart
  with_reducible repeat'
    first
    | assumption | apply keeps_setStart | apply keeps_sendGroup | exact Keeps.refl _ | apply Keeps.foldl
    | apply Keeps.foldl_snd | intro _ | split
    | (refine Keeps.upd ?_; first | assumption | apply keeps_setStart | apply keeps_sendGroup) | dsimp only

theorem keeps_runBody (r : RingCmd) (h : Nat) (fromStep : Nat) (startNs : Nat) (q : Recipe) (s : State) (hk : Keeps s0 s) :
    Keeps s0 (runBody r h fromStep startNs q s) := by
  unfold runBody
  with_reducible repeat'
    first
    | assumption | refine keeps_armRun _ _ _ _ _ _ _ ?_ _ (by assumption) | apply keeps_complete | apply keeps_denyClaim
    | apply keeps_giveStart | apply keeps_sendTo | exact Keeps.refl _ | apply Keeps.foldl | apply Keeps.foldl_snd | intro _
    | split
    | (refine Keeps.upd ?_; first
          | assumption | apply keeps_complete | apply keeps_denyClaim | apply keeps_giveStart | apply keeps_sendTo)
    | dsimp only

theorem keeps_foreign (fport : Nat) (s : State) (hk : Keeps s0 s) :
    Keeps s0 (foreign fport s) := by
  unfold foreign
  with_reducible repeat' first | assumption | apply keeps_count | split

theorem keeps_adopt (fport : Nat) (delta : Nat) (s : State) (hk : Keeps s0 s) :
    Keeps s0 (adopt fport delta s) := by
  unfold adopt
  with_reducible repeat' first | assumption | apply keeps_sendTokens | apply keeps_setRun | split

theorem keeps_failStart (r : Run) (q : Recipe) (s : State) (hk : Keeps s0 s) :
    Keeps s0 (failStart r q s) := by
  unfold failStart
  with_reducible repeat'
    first
    | assumption | apply keeps_sendGroup | apply keeps_disarm | apply keeps_complete | exact Keeps.refl _ | apply Keeps.foldl
    | apply Keeps.foldl_snd | intro _ | split
    | (refine Keeps.upd ?_; first | assumption | apply keeps_sendGroup | apply keeps_disarm | apply keeps_complete)
    | dsimp only

theorem keeps_sendProbe (dev : Nat) (s : State) (hk : Keeps s0 s) :
    Keeps s0 (sendProbe dev s) := by
  unfold sendProbe
  with_reducible repeat'
    first
    | assumption | apply keeps_sendTo | exact Keeps.refl _ | apply Keeps.foldl | apply Keeps.foldl_snd | intro _ | split
    | (refine Keeps.upd ?_; first | assumption | apply keeps_sendTo) | dsimp only

theorem keeps_refuseLoad (r : RingCmd) (ctx : Nat) (f : LoadFail) (s : State) (hk : Keeps s0 s) :
    Keeps s0 (refuseLoad r ctx f s) := by
  unfold refuseLoad
  with_reducible repeat'
    first
    | assumption | apply keeps_complete | apply keeps_count | exact Keeps.refl _ | apply Keeps.foldl | apply Keeps.foldl_snd
    | intro _ | split | (refine Keeps.upd ?_; first | assumption | apply keeps_complete | apply keeps_count) | dsimp only

theorem keeps_bookStreams (h : Nat) (i : Image) (bind : List Nat) (s : State) (hk : Keeps s0 s) :
    Keeps s0 (bookStreams h i bind s) := by
  unfold bookStreams
  with_reducible repeat'
    first
    | assumption | apply keeps_bookStream | exact Keeps.refl _ | apply Keeps.foldl | apply Keeps.foldl_snd | intro _ | split
    | (refine Keeps.upd ?_; first | assumption | apply keeps_bookStream) | dsimp only

theorem keeps_installTables (i : Image) (s : State) (hk : Keeps s0 s) :
    Keeps s0 (installTables i s) := by
  unfold installTables
  with_reducible repeat'
    first
    | assumption | apply keeps_count | apply keeps_setTable | apply keeps_pinTable | exact Keeps.refl _ | apply Keeps.foldl
    | apply Keeps.foldl_snd | intro _ | split
    | (refine Keeps.upd ?_; first | assumption | apply keeps_count | apply keeps_setTable | apply keeps_pinTable) | dsimp only

theorem keeps_enterRecipe (r : RingCmd) (h : Nat) (ctx : Nat) (notify : Nat) (tag : Nat) (i : Image) (bind : List Nat)
    (dropped : Bool) (s : State) (hk : Keeps s0 s) :
    Keeps s0 (enterRecipe r h ctx notify tag i bind dropped s) := by
  unfold enterRecipe
  with_reducible repeat'
    first
    | assumption | apply keeps_settleScales | apply keeps_admitted | apply keeps_count | apply keeps_installTables
    | apply keeps_setRecipe | apply keeps_endTag | apply keeps_complete | exact Keeps.refl _ | apply Keeps.foldl
    | apply Keeps.foldl_snd | intro _ | split
    | (refine Keeps.upd ?_; first
          | assumption | apply keeps_settleScales | apply keeps_admitted | apply keeps_count | apply keeps_installTables
          | apply keeps_setRecipe | apply keeps_endTag | apply keeps_complete)
    | dsimp only

theorem keeps_loadImage (r : RingCmd) (ctx notify bytes tag : Nat) (i : Image) (bind : List Nat) (s : State) (hk : Keeps s0 s) :
    Keeps s0 (loadImage r ctx notify bytes tag i bind s) := by
  unfold loadImage
  split
  · exact keeps_refuseLoad _ _ _ _ hk
  · split
    · next e => exact keeps_refuseLoad _ _ _ _ (Keeps.of_snd e (keeps_chooseFrom _ _ _ hk))
    · next e =>
      have h1 := Keeps.of_snd e (keeps_chooseFrom _ _ _ hk)
      dsimp only
      split
      · exact keeps_refuseLoad _ _ _ _ (keeps_refusedAdmission _ (keeps_noteRefusal _ _ _ _ _ h1))
      · split
        · split
          · exact Keeps.foldl (fun _ _ h => keeps_sendProbe _ _ h) hk
          · exact keeps_refuseLoad _ _ _ _ (Keeps.upd h1)
        · exact keeps_enterRecipe _ _ _ _ _ _ _ _ _ (keeps_bookStreams _ _ _ _ h1)

theorem keeps_startRun (s : State) (hk : Keeps s0 s) :
    Keeps s0 (startRun s) := by
  unfold startRun
  with_reducible repeat' first | assumption | apply keeps_count | apply keeps_setSht | apply keeps_setRun | split

theorem keeps_setTmx (v : Tmx) (s : State) (e : Tidy s0 → twf ClaimRec.free v.claims = true) (hk : Keeps s0 s) : Keeps s0
    (setTmx v s) :=
  ⟨fun x => { hk.tidy x with claims := e x }, hk.pending, hk.fuses.trans (FusesKept.of_otp rfl)⟩

theorem keeps_freeTrigger (s : State) (hk : Keeps s0 s) :
    Keeps s0 (freeTrigger s) := by
  unfold freeTrigger
  with_reducible repeat'
    first
    | assumption | refine keeps_setTmx _ _ (fun x => (Keeps.tidy ?_ x).claims) ?_ | apply keeps_freeClaim | split

theorem keeps_clearTrace (s : State) (hk : Keeps s0 s) :
    Keeps s0 (clearTrace s) := by
  unfold clearTrace
  with_reducible repeat'
    first
    | assumption | apply keeps_freeTrigger | refine keeps_setTmx _ _ (fun x => (Keeps.tidy ?_ x).claims) ?_ | split

theorem keeps_releaseClaim (res : Nat) (s : State) (hk : Keeps s0 s) :
    Keeps s0 (releaseClaim res s) := by
  unfold releaseClaim
  with_reducible repeat'
    first
    | assumption | apply keeps_freeClaim | apply keeps_clearTrace
    | refine keeps_setTmx _ _ (fun x => (Keeps.tidy ?_ x).claims) ?_ | exact Keeps.refl _ | apply Keeps.foldl
    | apply Keeps.foldl_snd | intro _ | split
    | (refine Keeps.upd ?_; first
          | assumption | apply keeps_freeClaim | apply keeps_clearTrace
          | refine keeps_setTmx _ _ (fun x => (Keeps.tidy ?_ x).claims) ?_)
    | dsimp only

theorem keeps_releaseClaims (p : ClaimRec → Bool) (s : State) (hk : Keeps s0 s) :
    Keeps s0 (releaseClaims p s) := by
  unfold releaseClaims
  with_reducible repeat'
    first
    | assumption | apply keeps_releaseClaim | exact Keeps.refl _ | apply Keeps.foldl | apply Keeps.foldl_snd | intro _ | split
    | (refine Keeps.upd ?_; first | assumption | apply keeps_releaseClaim) | dsimp only

theorem keeps_tmxWrite (w : Writer) (body : State → State) (s : State) (hf2 : ∀ u0, Keeps s0 u0 → Keeps s0 (body u0)) (hk3 :
    Keeps s0 s) :
    Keeps s0 (tmxWrite w body s) := by
  unfold tmxWrite
  with_reducible repeat' first | assumption | apply keeps_ownedWrite | apply hf2 | split

theorem keeps_claimResult (res : Nat) (st : Status) (s : State) (hk : Keeps s0 s) :
    Keeps s0 (claimResult res st s) := by
  unfold claimResult
  with_reducible repeat' first | assumption | refine keeps_setTmx _ _ (fun x => (Keeps.tidy ?_ x).claims) ?_ | split

theorem keeps_traceRead (s : State) (hk : Keeps s0 s) :
    Keeps s0 (traceRead s).2 := by
  unfold traceRead
  with_reducible repeat' first | assumption | refine keeps_setTmx _ _ (fun x => (Keeps.tidy ?_ x).claims) ?_ | split

theorem keeps_armTrigger (w : Writer) (s : State) (hk : Keeps s0 s) :
    Keeps s0 (armTrigger w s) := by
  unfold armTrigger
  with_reducible repeat'
    first
    | assumption | refine keeps_takeClaim _ _ _ ?_ _ (by assumption) | apply keeps_noteErr | apply keeps_denyClaim
    | refine keeps_setTmx _ _ (fun x => (Keeps.tidy ?_ x).claims) ?_ | exact Keeps.refl _ | apply Keeps.foldl
    | apply Keeps.foldl_snd | intro _ | split
    | (refine Keeps.upd ?_; first
          | assumption | apply keeps_noteErr | apply keeps_denyClaim
          | refine keeps_setTmx _ _ (fun x => (Keeps.tidy ?_ x).claims) ?_)
    | dsimp only

theorem keeps_endCapture (s : State) (hk : Keeps s0 s) :
    Keeps s0 (endCapture s) := by
  unfold endCapture
  with_reducible repeat'
    first
    | assumption | apply keeps_freeTrigger | refine keeps_setTmx _ _ (fun x => (Keeps.tidy ?_ x).claims) ?_ | split

theorem keeps_startCapture (s : State) (hk : Keeps s0 s) :
    Keeps s0 (startCapture s) := by
  unfold startCapture
  with_reducible repeat' first | assumption | refine keeps_setTmx _ _ (fun x => (Keeps.tidy ?_ x).claims) ?_ | split

theorem keeps_traceCtrl (w : Writer) (value : Word) (s : State) (hk : Keeps s0 s) :
    Keeps s0 (traceCtrl w value s) := by
  unfold traceCtrl
  with_reducible repeat'
    first
    | assumption | apply keeps_noteErr | refine keeps_setTmx _ _ (fun x => (Keeps.tidy ?_ x).claims) ?_
    | apply keeps_endCapture | apply keeps_startCapture | apply keeps_armTrigger | apply keeps_freeTrigger
    | exact Keeps.refl _ | apply Keeps.foldl | apply Keeps.foldl_snd | intro _ | split
    | (refine Keeps.upd ?_; first
          | assumption | apply keeps_noteErr | refine keeps_setTmx _ _ (fun x => (Keeps.tidy ?_ x).claims) ?_
          | apply keeps_endCapture | apply keeps_startCapture | apply keeps_armTrigger | apply keeps_freeTrigger)
    | dsimp only

theorem keeps_holderWrite (w : Writer) (res : Nat) (body : State → State) (s : State) (hf3 : ∀ u0, Keeps s0 u0 → Keeps s0
    (body u0)) (hk4 : Keeps s0 s) :
    Keeps s0 (holderWrite w res body s) := by
  unfold holderWrite
  with_reducible repeat'
    first
    | assumption | refine Keeps.of_snd (by assumption) ?_ | refine Keeps.of_snd_snd (by assumption) ?_ | apply keeps_tmxWrite
    | apply keeps_ignoreWrite | apply hf3 | exact Keeps.refl _ | apply Keeps.foldl | apply Keeps.foldl_snd | intro _ | split
    | (refine Keeps.upd ?_; first | assumption | apply keeps_tmxWrite | apply keeps_ignoreWrite | apply hf3) | dsimp only

theorem keeps_traceStore (b : List Byte) (s : State) (hk : Keeps s0 s) :
    Keeps s0 (traceStore b s) := by
  unfold traceStore
  with_reducible repeat'
    first
    | assumption | apply keeps_count | refine keeps_setTmx _ _ (fun x => (Keeps.tidy ?_ x).claims) ?_ | apply keeps_endCapture
    | exact Keeps.refl _ | apply Keeps.foldl | apply Keeps.foldl_snd | intro _ | split
    | (refine Keeps.upd ?_; first
          | assumption | apply keeps_count | refine keeps_setTmx _ _ (fun x => (Keeps.tidy ?_ x).claims) ?_
          | apply keeps_endCapture)
    | dsimp only

theorem keeps_endGrant (s : State) (hk : Keeps s0 s) :
    Keeps s0 (endGrant s) := by
  unfold endGrant
  with_reducible repeat'
    first
    | assumption | apply keeps_releaseClaims | exact Keeps.refl _ | apply Keeps.foldl | apply Keeps.foldl_snd | intro _
    | split | (refine Keeps.upd ?_; first | assumption | apply keeps_releaseClaims) | dsimp only

end Sys2Proof.Machine
end

