-- ==== Sys2Proof/Laws/KeepsPorts.lean ====
section
/-! SUPPORT. Sys2Proof/Laws/KeepsPorts.lean: operations of the fabric, flash recovery, host interface, control, security and register pages
keep the canonical form of the tables, the queue of waiting commands, and what the fuses hold. -/

set_option Elab.async false
set_option linter.unusedSimpArgs false

namespace Sys2Proof.Machine

variable {s0 : State}

theorem keeps_ownRegister (f : Nat) (body : State → State) (s : State) (hf2 : ∀ u0, Keeps s0 u0 → Keeps s0 (body u0)) (hk3 :
    Keeps s0 s) :
    Keeps s0 (ownRegister f body s) := by
  unfold ownRegister
  with_reducible repeat' first | assumption | apply keeps_ownedWrite | apply hf2 | split

theorem keeps_ringError (f : Nat) (n : Nat) (st : Status) (s : State) (hk : Keeps s0 s) :
    Keeps s0 (ringError f n st s) := by
  unfold ringError
  with_reducible repeat' first | assumption | apply keeps_modRing | split

theorem keeps_takeTag (port : Nat) (use : TagUse) (s : State) (hk : Keeps s0 s) :
    ∀ a t, takeTag port use s = some (a, t) → Keeps s0 t := by
  unfold takeTag
  intros
  rename_i ee
  repeat' (first | (simp only [Option.some.injEq, Prod.mk.injEq, reduceCtorEq, Except.error.injEq] at ee) | split at ee)
  all_goals try (have hq := Eq.symm ee; subst hq)
  all_goals try (have hq := Eq.symm ee.2; subst hq)
  with_reducible repeat'
    first
    | assumption | refine Keeps.of_snd (by assumption) ?_ | apply keeps_chooseFrom | apply keeps_modHport | exact Keeps.refl _
    | apply Keeps.foldl | apply Keeps.foldl_snd | intro _ | split
    | (refine Keeps.upd ?_; first | assumption | apply keeps_chooseFrom | apply keeps_modHport) | dsimp only

theorem keeps_issueFetch (f : Nat) (n : Nat) (s : State) (hk : Keeps s0 s) :
    Keeps s0 (issueFetch f n s) := by
  unfold issueFetch
  with_reducible repeat'
    first
    | assumption | refine keeps_takeTag _ _ _ ?_ _ _ (by assumption) | apply keeps_modRing | exact Keeps.refl _
    | apply Keeps.foldl | apply Keeps.foldl_snd | intro _ | split
    | (refine Keeps.upd ?_; first | assumption | apply keeps_modRing) | dsimp only

theorem keeps_settleIntx (f : Nat) (s : State) (hk : Keeps s0 s) :
    Keeps s0 (settleIntx f s) := by
  unfold settleIntx
  with_reducible repeat' first | assumption | apply keeps_modFunc | split

theorem keeps_unmask (fn : Nat) (v : Nat) (s : State) (hk : Keeps s0 s) :
    Keeps s0 (unmask fn v s) := by
  unfold unmask
  with_reducible repeat'
    first
    | assumption | apply keeps_setFunc | apply keeps_interrupt | exact Keeps.refl _ | apply Keeps.foldl
    | apply Keeps.foldl_snd | intro _ | split
    | (refine Keeps.upd ?_; first | assumption | apply keeps_setFunc | apply keeps_interrupt) | dsimp only

theorem keeps_freezeRings (fn : Nat) (s : State) (hk : Keeps s0 s) :
    Keeps s0 (freezeRings fn s) := by
  unfold freezeRings
  with_reducible repeat'
    first
    | assumption | apply keeps_settleCvuScan | apply keeps_stopRing | apply keeps_complete | exact Keeps.refl _
    | apply Keeps.foldl | apply Keeps.foldl_snd | intro _ | split
    | (refine Keeps.upd ?_; first | assumption | apply keeps_settleCvuScan | apply keeps_stopRing | apply keeps_complete)
    | dsimp only

theorem keeps_cfgTake (fn : Nat) (req : CfgReq) (s : State) (hk : Keeps s0 s) :
    Keeps s0 (cfgTake fn req s) := by
  unfold cfgTake
  with_reducible repeat'
    first
    | assumption | apply keeps_emit | apply keeps_modFunc | apply keeps_unmask | apply keeps_modHport
    | apply keeps_freezeRings | split

theorem keeps_writeRecord (r : RingCmd) (result : Nat) (b : List Byte) (s : State) (hk : Keeps s0 s) :
    Keeps s0 (writeRecord r result b s) := by
  unfold writeRecord
  with_reducible repeat' first | assumption | apply keeps_complete | apply keeps_emit | split

theorem keeps_endTagged (r : RingCmd) (st : Status) (s : State) (hk : Keeps s0 s) :
    Keeps s0 (endTagged r st s) := by
  unfold endTagged
  with_reducible repeat' first | assumption | apply keeps_complete | split

theorem keeps_giveTag (f : Nat) (n : Nat) (cid : Nat) (op : Nat) (s : State) (hk : Keeps s0 s) :
    Keeps s0 (giveTag f n cid op s) := by
  unfold giveTag
  with_reducible repeat'
    first
    | assumption | refine keeps_takeTag _ _ _ ?_ _ _ (by assumption) | apply keeps_modRing | exact Keeps.refl _
    | apply Keeps.foldl | apply Keeps.foldl_snd | intro _ | split
    | (refine Keeps.upd ?_; first | assumption | apply keeps_modRing) | dsimp only

theorem keeps_startEntry (f : Nat) (n : Nat) (e : SubEntry) (s : State) (hk : Keeps s0 s) :
    Keeps s0 (startEntry f n e s) := by
  unfold startEntry
  with_reducible repeat' first | assumption | apply keeps_takeEntry | apply keeps_complete | apply keeps_giveTag | split

theorem keeps_unstatedValues (n : Nat) (s : State) (hk : Keeps s0 s) : Keeps s0 (unstatedValues n s).2 := by
  unfold unstatedValues draw
  exact Keeps.upd (Keeps.upd hk)

theorem keeps_mailbox (port : Nat) (cmd : Mailbox) (s : State) (hk : Keeps s0 s) :
    Keeps s0 (mailbox port cmd s).2.2 := by
  unfold mailbox
  with_reducible repeat' first | assumption | apply keeps_setHport | apply keeps_unstatedValues | split

theorem keeps_rearm (fn : Nat) (n : Nat) (s : State) (hk : Keeps s0 s) :
    Keeps s0 (rearm fn n s) := by
  unfold rearm
  with_reducible repeat'
    first
    | assumption | apply keeps_issueFetch | apply keeps_count | apply keeps_writeCpl | apply keeps_setRing
    | exact Keeps.refl _ | apply Keeps.foldl | apply Keeps.foldl_snd | intro _ | split
    | (refine Keeps.upd ?_; first
          | assumption | apply keeps_issueFetch | apply keeps_count | apply keeps_writeCpl | apply keeps_setRing)
    | dsimp only

theorem keeps_staleGrants (p : Grant → Bool) (s : State) (hk : Keeps s0 s) : Keeps s0 (staleGrants p s) := by
  have h (f : Nat → Option Grant → Option Grant) : Keeps s0 { s with grants := tmap none f s.grants } :=
    hk.step (fun x => { x with grants := twf_tmap _ x.grants }) rfl rfl
  unfold staleGrants
  exact h _

theorem keeps_setFtb (v : Ftb) (s : State) (hk : Keeps s0 s) :
    Keeps s0 (setFtb v s) := by
  unfold setFtb
  with_reducible repeat'
    first
    | assumption | exact Keeps.refl _ | apply Keeps.foldl | apply Keeps.foldl_snd | intro _ | split
    | (refine Keeps.upd ?_; first | assumption) | dsimp only

theorem keeps_settleParent (s : State) (hk : Keeps s0 s) :
    Keeps s0 (settleParent s) := by
  unfold settleParent
  with_reducible repeat'
    first
    | assumption | apply keeps_setFtb | apply keeps_count | exact Keeps.refl _ | apply Keeps.foldl | apply Keeps.foldl_snd
    | intro _ | split | (refine Keeps.upd ?_; first | assumption | apply keeps_setFtb | apply keeps_count) | dsimp only

theorem keeps_leavePort (p : Nat) (st : FpState) (reason : Nat) (retryAt : Nat) (s : State) (hk : Keeps s0 s) :
    Keeps s0 (leavePort p st reason retryAt s) := by
  unfold leavePort
  with_reducible repeat'
    first
    | assumption | apply keeps_endDecode | apply keeps_staleGrants | apply keeps_setFport | apply keeps_settleParent
    | apply keeps_settleScales | exact Keeps.refl _ | apply Keeps.foldl | apply Keeps.foldl_snd | intro _ | split
    | (refine Keeps.upd ?_; first
          | assumption | apply keeps_endDecode | apply keeps_staleGrants | apply keeps_setFport | apply keeps_settleParent
          | apply keeps_settleScales)
    | dsimp only

theorem keeps_downPort (p : Nat) (reason : Nat) (s : State) (hk : Keeps s0 s) :
    Keeps s0 (downPort p reason s) := by
  unfold downPort
  with_reducible repeat' first | assumption | apply keeps_leavePort | split

theorem keeps_sendHello (p : Nat) (s : State) (hk : Keeps s0 s) :
    Keeps s0 (sendHello p s) := by
  unfold sendHello
  with_reducible repeat' first | assumption | apply keeps_draw | apply keeps_emit | apply keeps_modFport | split

theorem keeps_startTraining (fport : Nat) (s : State) (hk : Keeps s0 s) :
    Keeps s0 (startTraining fport s) := by
  unfold startTraining
  with_reducible repeat' first | assumption | apply keeps_modFport | split

theorem keeps_relay (fport : Nat) (p : Pkt) (data : List Byte) (s : State) (hk : Keeps s0 s) :
    Keeps s0 (relay fport p data s) := by
  unfold relay
  with_reducible repeat' first | assumption | apply keeps_count | apply keeps_sendError | apply keeps_sendPkt | split

theorem keeps_selectGrant (index : Nat) (s : State) (hk : Keeps s0 s) :
    Keeps s0 (selectGrant index s) := by
  unfold selectGrant
  with_reducible repeat' first | assumption | apply keeps_setReg | split

theorem keeps_grantResult (st : Status) (s : State) (hk : Keeps s0 s) :
    Keeps s0 (grantResult st s) := by
  unfold grantResult
  with_reducible repeat' first | assumption | apply keeps_setFtb | split

theorem keeps_retrainPort (p : Nat) (reason : Nat) (s : State) (hk : Keeps s0 s) :
    Keeps s0 (retrainPort p reason s) := by
  unfold retrainPort
  with_reducible repeat' first | assumption | apply keeps_leavePort | split

theorem keeps_badPacket (fport : Nat) (s : State) (hk : Keeps s0 s) :
    Keeps s0 (badPacket fport s) := by
  unfold badPacket
  with_reducible repeat'
    first
    | assumption | apply keeps_count | apply keeps_setFport | apply keeps_retrainPort | exact Keeps.refl _ | apply Keeps.foldl
    | apply Keeps.foldl_snd | intro _ | split
    | (refine Keeps.upd ?_; first | assumption | apply keeps_count | apply keeps_setFport | apply keeps_retrainPort)
    | dsimp only

theorem keeps_endSession (p : Nat) (s : State) (hk : Keeps s0 s) :
    Keeps s0 (endSession p s) := by
  unfold endSession
  with_reducible repeat' first | assumption | apply keeps_retrainPort | split

theorem keeps_authFail (p : Nat) (reason : Nat) (s : State) (hk : Keeps s0 s) :
    Keeps s0 (authFail p reason s) := by
  unfold authFail
  with_reducible repeat' first | assumption | apply keeps_leavePort | apply keeps_modFport | apply keeps_count | split

theorem keeps_sessionStep (p : Nat) (m : SpdmMsg) (s : State) (hk : Keeps s0 s) :
    Keeps s0 (sessionStep p m s) := by
  unfold sessionStep
  with_reducible repeat' first | assumption | apply keeps_modFport | apply keeps_endSession | apply keeps_authFail | split

theorem keeps_sendIdent (p : Nat) (s : State) (hk : Keeps s0 s) :
    Keeps s0 (sendIdent p s) := by
  unfold sendIdent
  with_reducible repeat' first | assumption | apply keeps_draw | apply keeps_sendPkt | split

theorem keeps_authStep (p : Nat) (m : SpdmMsg) (s : State) (hk : Keeps s0 s) :
    Keeps s0 (authStep p m s) := by
  unfold authStep
  with_reducible repeat'
    first
    | assumption | apply keeps_authFail | apply keeps_emit | apply keeps_sendIdent | apply keeps_modFport | exact Keeps.refl _
    | apply Keeps.foldl | apply Keeps.foldl_snd | intro _ | split
    | (refine Keeps.upd ?_; first
          | assumption | apply keeps_authFail | apply keeps_emit | apply keeps_sendIdent | apply keeps_modFport)
    | dsimp only

theorem keeps_follow (off : Int) (s : State) (hk : Keeps s0 s) :
    Keeps s0 (follow off s) := by
  unfold follow
  with_reducible repeat'
    first
    | assumption | exact Keeps.refl _ | apply Keeps.foldl | apply Keeps.foldl_snd | intro _ | split
    | (refine Keeps.upd ?_; first | assumption) | dsimp only

theorem keeps_sample (p : Nat) (off : Int) (s : State) (hk : Keeps s0 s) :
    Keeps s0 (sample p off s) := by
  unfold sample
  with_reducible repeat'
    first
    | assumption | apply keeps_count | apply keeps_setFtb | apply keeps_settleParent | apply keeps_modFport
    | apply keeps_follow | exact Keeps.refl _ | apply Keeps.foldl | apply Keeps.foldl_snd | intro _ | split
    | (refine Keeps.upd ?_; first
          | assumption | apply keeps_count | apply keeps_setFtb | apply keeps_settleParent | apply keeps_modFport
          | apply keeps_follow)
    | dsimp only

theorem keeps_refuseGrant (st : Status) (s : State) (hk : Keeps s0 s) :
    Keeps s0 (refuseGrant st s) := by
  unfold refuseGrant
  with_reducible repeat' first | assumption | apply keeps_grantResult | apply keeps_count | split

theorem keeps_linkUp (p : Nat) (s : State) (hk : Keeps s0 s) :
    Keeps s0 (linkUp p s) := by
  unfold linkUp
  with_reducible repeat' first | assumption | apply keeps_raise | apply keeps_setFport | split

theorem keeps_flushKey (port k n : Nat) (s : State) (hk : Keeps s0 s) : Keeps s0 (flushKey port k n s) := by
  induction n generalizing s with
  | zero => exact hk
  | succ n ih =>
    unfold flushKey
    dsimp only
    split
    · exact hk
    · split
      · exact ih _ (keeps_transmit _ _ _ _ (keeps_setFport _ _ _ hk))
      · exact hk

theorem keeps_flushQueue (port : Nat) (s : State) (hk : Keeps s0 s) :
    Keeps s0 (flushQueue port s) := by
  unfold flushQueue
  with_reducible repeat'
    first
    | assumption | apply keeps_flushKey | exact Keeps.refl _ | apply Keeps.foldl | apply Keeps.foldl_snd | intro _ | split
    | (refine Keeps.upd ?_; first | assumption | apply keeps_flushKey) | dsimp only

theorem keeps_keyCommand (w : Nat) (body : State → State) (s : State) (hf2 : ∀ u0, Keeps s0 u0 → Keeps s0 (body u0)) (hk3 :
    Keeps s0 s) :
    Keeps s0 (keyCommand w body s) := by
  unfold keyCommand
  with_reducible repeat'
    first
    | assumption | refine Keeps.of_snd (by assumption) ?_ | refine Keeps.of_snd_snd (by assumption) ?_
    | apply keeps_ownedWrite | apply keeps_ignoreWrite | apply hf2 | exact Keeps.refl _ | apply Keeps.foldl
    | apply Keeps.foldl_snd | intro _ | split
    | (refine Keeps.upd ?_; first | assumption | apply keeps_ownedWrite | apply keeps_ignoreWrite | apply hf2) | dsimp only

theorem keeps_setSec (v : Sec) (s : State) (e : Tidy s0 → twf KeySlot.reset v.keys = true) (hk : Keeps s0 s) : Keeps s0
    (setSec v s) :=
  ⟨fun x => { hk.tidy x with keys := e x }, hk.pending, hk.fuses.trans (FusesKept.of_otp rfl)⟩

theorem keeps_keyResult (r : Nat) (slot : Nat) (s : State) (hk : Keeps s0 s) :
    Keeps s0 (keyResult r slot s) := by
  unfold keyResult
  with_reducible repeat' first | assumption | refine keeps_setSec _ _ (fun x => (Keeps.tidy ?_ x).keys) ?_ | split

theorem keeps_badBlob (r : Nat) (slot : Nat) (s : State) (hk : Keeps s0 s) :
    Keeps s0 (badBlob r slot s) := by
  unfold badBlob
  with_reducible repeat' first | assumption | apply keeps_keyResult | apply keeps_count | split

theorem keeps_setLcc (v : Lcc) (s : State) (hk : Keeps s0 s) :
    Keeps s0 (setLcc v s) := by
  unfold setLcc
  with_reducible repeat'
    first
    | assumption | exact Keeps.refl _ | apply Keeps.foldl | apply Keeps.foldl_snd | intro _ | split
    | (refine Keeps.upd ?_; first | assumption) | dsimp only

theorem keeps_putGrant (w : Nat) (b : List Byte) (s : State) (hk : Keeps s0 s) :
    Keeps s0 (putGrant w b s) := by
  unfold putGrant
  with_reducible repeat'
    first
    | assumption | apply keeps_endGrant | apply keeps_count | refine keeps_setSec _ _ (fun x => (Keeps.tidy ?_ x).keys) ?_
    | split

theorem keeps_installTrust (b : List Byte) (s : State) (hk : Keeps s0 s) :
    Keeps s0 (installTrust b s) := by
  unfold installTrust
  with_reducible repeat'
    first
    | assumption | apply keeps_endSession | refine keeps_setSec _ _ (fun x => (Keeps.tidy ?_ x).keys) ?_ | exact Keeps.refl _
    | apply Keeps.foldl | apply Keeps.foldl_snd | intro _ | split
    | (refine Keeps.upd ?_; first
          | assumption | apply keeps_endSession | refine keeps_setSec _ _ (fun x => (Keeps.tidy ?_ x).keys) ?_)
    | dsimp only

theorem keeps_trustResult (r : Nat) (s : State) (hk : Keeps s0 s) :
    Keeps s0 (trustResult r s) := by
  unfold trustResult
  with_reducible repeat' first | assumption | refine keeps_setSec _ _ (fun x => (Keeps.tidy ?_ x).keys) ?_ | split

theorem keeps_eraseKey (slot : Nat) (s : State) (hk : Keeps s0 s) :
    Keeps s0 (eraseKey slot s) := by
  unfold eraseKey
  with_reducible repeat'
    first
    | assumption | apply keeps_setCtx | apply keeps_count | apply keeps_setKey | exact Keeps.refl _ | apply Keeps.foldl
    | apply Keeps.foldl_snd | intro _ | split
    | (refine Keeps.upd ?_; first | assumption | apply keeps_setCtx | apply keeps_count | apply keeps_setKey) | dsimp only

theorem keeps_tokenFails (r : Nat) (s : State) (hk : Keeps s0 s) :
    Keeps s0 (tokenFails r s) := by
  unfold tokenFails
  with_reducible repeat' first | assumption | apply keeps_count | apply keeps_setLcc | split

theorem keeps_returnWindows (f : Nat) (s : State) (hk : Keeps s0 s) :
    Keeps s0 (returnWindows f s) := by
  unfold returnWindows
  with_reducible repeat' first | assumption | apply keeps_drainWindows | apply keeps_makeStale | split

theorem keeps_orphanTags (f : Nat) (s : State) (hk : Keeps s0 s) :
    Keeps s0 (orphanTags f s) := by
  unfold orphanTags
  with_reducible repeat' first | assumption | apply keeps_modHport | split

theorem keeps_dropKey (c : Nat) (s : State) (hk : Keeps s0 s) :
    Keeps s0 (dropKey c s) := by
  unfold dropKey
  with_reducible repeat'
    first
    | assumption | apply keeps_eraseKey | apply keeps_keyResult | exact Keeps.refl _ | apply Keeps.foldl
    | apply Keeps.foldl_snd | intro _ | split
    | (refine Keeps.upd ?_; first | assumption | apply keeps_eraseKey | apply keeps_keyResult) | dsimp only

theorem keeps_clearParts (c : Nat) (s : State) (hk : Keeps s0 s) : Keeps s0 (clearParts c s) := by
  have h (f : Nat → Part → Part) : Keeps s0 { s with ple := { s.ple with parts := tmap Part.reset f s.ple.parts } } :=
    hk.step (fun x => { x with parts := twf_tmap _ x.parts }) rfl rfl
  unfold clearParts
  exact h _

theorem keeps_dropVotes (c : Nat) (s : State) (hk : Keeps s0 s) :
    Keeps s0 (dropVotes c s) := by
  unfold dropVotes
  with_reducible repeat'
    first
    | assumption | apply keeps_removeVote | exact Keeps.refl _ | apply Keeps.foldl | apply Keeps.foldl_snd | intro _ | split
    | (refine Keeps.upd ?_; first | assumption | apply keeps_removeVote) | dsimp only

theorem keeps_staleWindows (c : Nat) (s : State) (hk : Keeps s0 s) :
    Keeps s0 (staleWindows c s) := by
  unfold staleWindows
  with_reducible repeat' first | assumption | apply keeps_drainWindows | apply keeps_makeStale | split

theorem keeps_leaveGroups (c : Nat) (s : State) (hk : Keeps s0 s) :
    Keeps s0 (leaveGroups c s) := by
  unfold leaveGroups
  with_reducible repeat'
    first
    | assumption | refine Keeps.of_snd (by assumption) ?_ | apply keeps_removeMember | apply keeps_destroyGroup
    | apply keeps_drainWindows | exact Keeps.refl _ | apply Keeps.foldl | apply Keeps.foldl_snd | intro _ | split
    | (refine Keeps.upd ?_; first
          | assumption | apply keeps_removeMember | apply keeps_destroyGroup | apply keeps_drainWindows)
    | dsimp only

theorem keeps_retireOwned (c : Nat) (s : State) (hk : Keeps s0 s) :
    Keeps s0 (retireOwned c s) := by
  unfold retireOwned
  with_reducible repeat'
    first
    | assumption | apply keeps_retireTable | exact Keeps.refl _ | apply Keeps.foldl | apply Keeps.foldl_snd | intro _ | split
    | (refine Keeps.upd ?_; first | assumption | apply keeps_retireTable) | dsimp only

theorem keeps_returnResv (c : Nat) (s : State) (hk : Keeps s0 s) :
    Keeps s0 (returnResv c s) := by
  unfold returnResv
  with_reducible repeat' first | assumption | apply keeps_setResv | split

theorem keeps_drainCtx (c : Nat) (s : State) (hk : Keeps s0 s) :
    Keeps s0 (drainCtx c s) := by
  unfold drainCtx
  with_reducible repeat'
    first
    | assumption | apply keeps_endAndUnload | apply keeps_dropKey | apply keeps_clearParts | apply keeps_bumpGen
    | apply keeps_setCtx | apply keeps_resolveTmask | apply keeps_failVotes | apply keeps_abandonMove
    | apply keeps_staleGrants | apply keeps_dropVotes | apply keeps_staleWindows | apply keeps_leaveGroups
    | apply keeps_retireOwned | apply keeps_dropPasses | apply keeps_returnResv | apply keeps_settleScales
    | apply keeps_settleCtx | apply keeps_releaseSlab | exact Keeps.refl _ | apply Keeps.foldl | apply Keeps.foldl_snd
    | intro _ | split
    | (refine Keeps.upd ?_; first
          | assumption | apply keeps_endAndUnload | apply keeps_dropKey | apply keeps_clearParts | apply keeps_bumpGen
          | apply keeps_setCtx | apply keeps_resolveTmask | apply keeps_failVotes | apply keeps_abandonMove
          | apply keeps_staleGrants | apply keeps_dropVotes | apply keeps_staleWindows | apply keeps_leaveGroups
          | apply keeps_retireOwned | apply keeps_dropPasses | apply keeps_returnResv | apply keeps_settleScales
          | apply keeps_settleCtx | apply keeps_releaseSlab)
    | dsimp only

theorem keeps_forgetCommands (f : Nat) (s : State) (hk : Keeps s0 s) :
    Keeps s0 (forgetCommands f s) := by
  unfold forgetCommands
  with_reducible repeat'
    first
    | assumption | exact Keeps.refl _ | apply Keeps.foldl | apply Keeps.foldl_snd | intro _ | split
    | (refine Keeps.upd ?_; first | assumption) | dsimp only

theorem keeps_closeRun (f : Nat) (s : State) (hk : Keeps s0 s) :
    Keeps s0 (closeRun f s) := by
  unfold closeRun
  with_reducible repeat' first | assumption | apply keeps_finishRun | split

theorem keeps_resetFn (f : Nat) (phase : FnPhase) (s : State) (hk : Keeps s0 s) : Keeps s0 (resetFn f phase s) := by
  have h1 : Keeps s0 { s with hiu := { s.hiu with rings := tkeep (fun k => decide (k / 16 ≠ f)) s.hiu.rings } } :=
    hk.step (fun x => { x with rings := twf_filter _ x.rings }) rfl rfl
  have h2 (t : State) (g : Nat → Page → Page) (h : Keeps s0 t) : Keeps s0 { t with pages := tmap Page.reset g t.pages } :=
    h.step (fun x => { x with pages := twf_tmap _ x.pages }) rfl rfl
  unfold resetFn
  exact keeps_count _ _ _ (keeps_setFunc _ _ _ (h2 _ _ (keeps_settleCvuScan _ (keeps_forgetCommands _ _ (keeps_closeRun _ _
    (keeps_returnWindows _ _ (Keeps.foldl (fun _ _ h => keeps_drainCtx _ _ h) (keeps_orphanTags _ _ h1))))))))

theorem keeps_releasePages (port : Nat) (s : State) (hk : Keeps s0 s) : Keeps s0 (releasePages port s) := by
  have h (f : Nat → Page → Page) : Keeps s0 { s with pages := tmap Page.reset f s.pages } :=
    hk.step (fun x => { x with pages := twf_tmap _ x.pages }) rfl rfl
  unfold releasePages
  exact h _

theorem keeps_resetVfs (port : Nat) (s : State) (hk : Keeps s0 s) :
    Keeps s0 (resetVfs port s) := by
  unfold resetVfs
  with_reducible repeat'
    first
    | assumption | apply keeps_resetFn | exact Keeps.refl _ | apply Keeps.foldl | apply Keeps.foldl_snd | intro _ | split
    | (refine Keeps.upd ?_; first | assumption | apply keeps_resetFn) | dsimp only

theorem keeps_resetPf (port : Nat) (phase : FnPhase) (s : State) (hk : Keeps s0 s) :
    Keeps s0 (resetPf port phase s) := by
  unfold resetPf
  with_reducible repeat'
    first
    | assumption | apply keeps_releasePages | apply keeps_releaseClaims | apply keeps_resetFn | apply keeps_resetVfs | split

theorem keeps_rewriteRows (slab : Nat) (ks : List Nat) (s : State) (hk : Keeps s0 s) :
    Keeps s0 (rewriteRows slab ks s) := by
  unfold rewriteRows
  with_reducible repeat' first | assumption | apply keeps_modMove | split

theorem keeps_mountGroup (g : Nat) (r : FlashReport) (s : State) (hk : Keeps s0 s) : Keeps s0 (mountGroup g r s) := by
  unfold mountGroup
  dsimp only
  split
  · exact keeps_putLog _ _ _ (fun x => twf_preErase _ _ x.flcs) (keeps_setFlc _ _ _ (keeps_setFgroup _ _ _ hk))
  · exact keeps_setFgroup _ _ _ hk

theorem twf_placed {α : Type} (f : α → Flc) (l : List (α × Nat)) (t : Tbl Flc) (h : twf Flc.reset t = true) :
    twf Flc.reset (l.foldl (fun t x => tput Flc.reset t x.2 (f x.1)) t) = true := twf_foldl_tput _ _ _ h

theorem keeps_mountChans (r : FlashReport) (s : State) (hk : Keeps s0 s) : Keeps s0 (mountChans r s) :=
  hk.step (fun x => { x with flcs := twf_placed _ _ _ x.flcs }) rfl rfl

theorem keeps_noteMount (s : State) (hk : Keeps s0 s) :
    Keeps s0 (noteMount s) := by
  unfold noteMount
  with_reducible repeat' first | assumption | apply keeps_emit | split

theorem keeps_relocate (frame : Nat) (x : Slot) (s : State) (hk : Keeps s0 s) : Keeps s0 (relocate frame x s) := by
  unfold relocate
  have h1 := keeps_scanBlocksOf x.slab .t3 frame (fun _ => true) _ (keeps_rebuildPages frame s hk)
  split
  · next e => rw [e] at h1; exact h1
  · next e =>
    rw [e] at h1
    split
    · exact h1
    · next e =>
      have h2 := keeps_appendRows _ _ _ h1 _ _ e
      exact keeps_count _ _ _ (keeps_freeEmptySbs _ _ (Keeps.upd (keeps_setSlot _ _ _
        (Keeps.foldl (fun _ _ h => keeps_setPlant _ _ _ h) h2))))

theorem keeps_setRecovery (slab : Nat) (b : Nat) (f : Recovery → Recovery) (s : State) (hk : Keeps s0 s) :
    Keeps s0 (setRecovery slab b f s) := by
  unfold setRecovery
  with_reducible repeat'
    first
    | assumption | exact Keeps.refl _ | apply Keeps.foldl | apply Keeps.foldl_snd | intro _ | split
    | (refine Keeps.upd ?_; first | assumption) | dsimp only

theorem keeps_dropRecovery (slab : Nat) (b : Nat) (s : State) (hk : Keeps s0 s) :
    Keeps s0 (dropRecovery slab b s) := by
  unfold dropRecovery
  with_reducible repeat'
    first
    | assumption | exact Keeps.refl _ | apply Keeps.foldl | apply Keeps.foldl_snd | intro _ | split
    | (refine Keeps.upd ?_; first | assumption) | dsimp only

theorem keeps_recovered (slab : Nat) (b : Nat) (r : Recovery) (counter : Nat) (s : State) (hk : Keeps s0 s) :
    Keeps s0 (recovered slab b r counter s) := by
  unfold recovered
  with_reducible repeat'
    first
    | assumption | apply keeps_queueUrgent | apply keeps_setPlant | apply keeps_count | apply keeps_dropRecovery
    | apply keeps_readsEnded | apply keeps_serveWaiter | exact Keeps.refl _ | apply Keeps.foldl | apply Keeps.foldl_snd
    | intro _ | split
    | (refine Keeps.upd ?_; first
          | assumption | apply keeps_queueUrgent | apply keeps_setPlant | apply keeps_count | apply keeps_dropRecovery
          | apply keeps_readsEnded | apply keeps_serveWaiter)
    | dsimp only

theorem keeps_poisonFlash (det : Nat) (slab : Nat) (b : Nat) (waiters : List FlashWaiter) (s : State) (hk : Keeps s0 s) :
    Keeps s0 (poisonFlash det slab b waiters s) := by
  unfold poisonFlash
  with_reducible repeat'
    first
    | assumption | apply keeps_count | apply keeps_raise | apply keeps_readsEnded | apply keeps_answerBad
    | apply keeps_dropTray | exact Keeps.refl _ | apply Keeps.foldl | apply Keeps.foldl_snd | intro _ | split
    | (refine Keeps.upd ?_; first
          | assumption | apply keeps_count | apply keeps_raise | apply keeps_readsEnded | apply keeps_answerBad
          | apply keeps_dropTray)
    | dsimp only

theorem keeps_failRecovery (slab : Nat) (b : Nat) (s : State) (hk : Keeps s0 s) :
    Keeps s0 (failRecovery slab b s) := by
  unfold failRecovery
  with_reducible repeat' first | assumption | apply keeps_dropRecovery | apply keeps_poisonFlash | split

theorem keeps_ladderEnds (slab : Nat) (b : Nat) (r : Recovery) (s : State) (hk : Keeps s0 s) :
    Keeps s0 (ladderEnds slab b r s) := by
  unfold ladderEnds
  with_reducible repeat'
    first
    | assumption | apply keeps_startMates | apply keeps_setRecovery | apply keeps_failRecovery | exact Keeps.refl _
    | apply Keeps.foldl | apply Keeps.foldl_snd | intro _ | split
    | (refine Keeps.upd ?_; first
          | assumption | apply keeps_startMates | apply keeps_setRecovery | apply keeps_failRecovery)
    | dsimp only

theorem keeps_retireDie (channel : Nat) (die : Nat) (s : State) (hk : Keeps s0 s) :
    Keeps s0 (retireDie channel die s) := by
  unfold retireDie
  with_reducible repeat'
    first
    | assumption | apply keeps_setFlc | apply keeps_sparingEvent | apply keeps_settleSpare | apply keeps_queueUrgent
    | apply keeps_closeSbs | exact Keeps.refl _ | apply Keeps.foldl | apply Keeps.foldl_snd | intro _ | split
    | (refine Keeps.upd ?_; first
          | assumption | apply keeps_setFlc | apply keeps_sparingEvent | apply keeps_settleSpare | apply keeps_queueUrgent
          | apply keeps_closeSbs)
    | dsimp only

theorem keeps_restChan (k : Nat) (s : State) (hk : Keeps s0 s) :
    Keeps s0 (restChan k s) := by
  unfold restChan
  with_reducible repeat' first | assumption | apply keeps_countBy | apply keeps_setChan | split

theorem keeps_dropRecoveries (channel : Nat) (s : State) (hk : Keeps s0 s) :
    Keeps s0 (dropRecoveries channel s) := by
  unfold dropRecoveries
  with_reducible repeat'
    first
    | assumption | apply keeps_readsEnded | apply keeps_answerBad | exact Keeps.refl _ | apply Keeps.foldl
    | apply Keeps.foldl_snd | intro _ | split
    | (refine Keeps.upd ?_; first | assumption | apply keeps_readsEnded | apply keeps_answerBad) | dsimp only

theorem keeps_dropJob (n : Nat) (s : State) (hk : Keeps s0 s) :
    Keeps s0 (dropJob n s) := by
  unfold dropJob
  with_reducible repeat'
    first
    | assumption | apply keeps_settleCvuScan | apply keeps_setCvu | exact Keeps.refl _ | apply Keeps.foldl
    | apply Keeps.foldl_snd | intro _ | split
    | (refine Keeps.upd ?_; first | assumption | apply keeps_settleCvuScan | apply keeps_setCvu) | dsimp only

theorem keeps_dropAllPasses (s : State) (hk : Keeps s0 s) :
    Keeps s0 (dropAllPasses s) := by
  unfold dropAllPasses
  with_reducible repeat'
    first
    | assumption | apply keeps_dropPassTable | refine keeps_setPpu _ _ (fun x => (Keeps.tidy ?_ x).tables) ?_
    | apply keeps_settleScan | apply keeps_endPassCmd | exact Keeps.refl _ | apply Keeps.foldl | apply Keeps.foldl_snd
    | intro _ | split
    | (refine Keeps.upd ?_; first
          | assumption | apply keeps_dropPassTable | refine keeps_setPpu _ _ (fun x => (Keeps.tidy ?_ x).tables) ?_
          | apply keeps_settleScan | apply keeps_endPassCmd)
    | dsimp only

theorem keeps_resetInside (t : PageType) (n : Nat) (s : State) (hk : Keeps s0 s) :
    Keeps s0 (resetInside t n s) := by
  unfold resetInside
  with_reducible repeat'
    first
    | assumption | apply keeps_restChan | apply keeps_dropRecoveries | apply keeps_dropJob | apply keeps_dropAllPasses
    | apply keeps_retrainPort | exact Keeps.refl _ | apply Keeps.foldl | apply Keeps.foldl_snd | intro _ | split
    | (refine Keeps.upd ?_; first
          | assumption | apply keeps_restChan | apply keeps_dropRecoveries | apply keeps_dropJob | apply keeps_dropAllPasses
          | apply keeps_retrainPort)
    | dsimp only

theorem keeps_startReset (p : Nat) (s : State) (hk : Keeps s0 s) :
    Keeps s0 (startReset p s) := by
  unfold startReset
  with_reducible repeat' first | assumption | apply keeps_emit | apply keeps_resetInside | apply keeps_modPage | split

theorem keeps_setEnable (p : Nat) (on : Bool) (s : State) (hk : Keeps s0 s) :
    Keeps s0 (setEnable p on s) := by
  unfold setEnable
  with_reducible repeat'
    first
    | assumption | apply keeps_modPage | apply keeps_stopPasses | apply keeps_settleCvuScan | apply keeps_complete
    | exact Keeps.refl _ | apply Keeps.foldl | apply Keeps.foldl_snd | intro _ | split
    | (refine Keeps.upd ?_; first
          | assumption | apply keeps_modPage | apply keeps_stopPasses | apply keeps_settleCvuScan | apply keeps_complete)
    | dsimp only

theorem keeps_takeOffline (t : PageType) (p n : Nat) (s : State) (hk : Keeps s0 s) : Keeps s0 (takeOffline t p n s) := by
  unfold takeOffline
  split
  · dsimp only
    split
    · exact hk
    · exact keeps_loseChannels _ _ _ _ hk
  · dsimp only
    split
    · exact hk
    · exact keeps_loseChannels _ _ _ _ hk
  · exact keeps_setEnable _ _ _ hk
  · exact keeps_setEnable _ _ _ hk
  · exact keeps_settleSpare _ (hk.step (fun x => { x with flcs := twf_tput n _ x.flcs }) rfl rfl)
  · exact Keeps.upd hk
  · exact hk

theorem keeps_wakeChan (k : Nat) (s : State) (hk : Keeps s0 s) :
    Keeps s0 (wakeChan k s) := by
  unfold wakeChan
  with_reducible repeat' first | assumption | apply keeps_modChan | split

theorem keeps_endReset (p : Nat) (s : State) (hk : Keeps s0 s) :
    Keeps s0 (endReset p s) := by
  unfold endReset
  with_reducible repeat'
    first
    | assumption | apply keeps_modPage | apply keeps_wakeChan | exact Keeps.refl _ | apply Keeps.foldl | apply Keeps.foldl_snd
    | intro _ | split | (refine Keeps.upd ?_; first | assumption | apply keeps_modPage | apply keeps_wakeChan) | dsimp only

theorem keeps_setPortEnable (n : Nat) (on : Bool) (s : State) (hk : Keeps s0 s) :
    Keeps s0 (setPortEnable n on s) := by
  unfold setPortEnable
  with_reducible repeat'
    first
    | assumption | apply keeps_setReg | apply keeps_setFport | apply keeps_leavePort | exact Keeps.refl _ | apply Keeps.foldl
    | apply Keeps.foldl_snd | intro _ | split
    | (refine Keeps.upd ?_; first | assumption | apply keeps_setReg | apply keeps_setFport | apply keeps_leavePort)
    | dsimp only

theorem keeps_setCcx (v : Ccx) (s : State) (hk : Keeps s0 s) :
    Keeps s0 (setCcx v s) := by
  unfold setCcx
  with_reducible repeat'
    first
    | assumption | exact Keeps.refl _ | apply Keeps.foldl | apply Keeps.foldl_snd | intro _ | split
    | (refine Keeps.upd ?_; first | assumption) | dsimp only

theorem keeps_logEvent (e : Evt) (s : State) (hk : Keeps s0 s) :
    Keeps s0 (logEvent e s) := by
  unfold logEvent
  with_reducible repeat'
    first
    | assumption | apply keeps_setCcx | apply keeps_count | exact Keeps.refl _ | apply Keeps.foldl | apply Keeps.foldl_snd
    | intro _ | split | (refine Keeps.upd ?_; first | assumption | apply keeps_setCcx | apply keeps_count) | dsimp only

theorem keeps_seizeClaims (s : State) (hk : Keeps s0 s) : Keeps s0 (seizeClaims s) := by
  have h (n : Nat) (f : Nat → Page) : Keeps s0 { s with
      pages := ((List.range n).map (fun p => (p, f p))).filter (fun e => decide (e.2 ≠ Page.reset)) } :=
    hk.step (fun x => { x with pages := twf_listed f n }) rfl rfl
  unfold seizeClaims
  exact Keeps.foldl (fun _ _ h => keeps_setClaim _ _ _ h) (keeps_releaseClaims _ _ (h 4096 _))

theorem keeps_cxlRecord (port : Nat) (log : Nat) (dpa : Option Nat) (s : State) (hk : Keeps s0 s) :
    Keeps s0 (cxlRecord port log dpa s) := by
  unfold cxlRecord
  with_reducible repeat' first | assumption | apply keeps_modHport | split

theorem keeps_reportEvent (e : Evt) (port : Nat) (s : State) (hk : Keeps s0 s) :
    Keeps s0 (reportEvent e port s) := by
  unfold reportEvent
  with_reducible repeat' first | assumption | apply keeps_cxlRecord | apply keeps_emit | apply keeps_noteAer | split

theorem keeps_writeEvent (e : Evt) (f : Nat) (s : State) (hk : Keeps s0 s) :
    Keeps s0 (writeEvent e f s) := by
  unfold writeEvent
  with_reducible repeat'
    first
    | assumption | apply keeps_interrupt | apply keeps_emit | apply keeps_setFunc | apply keeps_count | exact Keeps.refl _
    | apply Keeps.foldl | apply Keeps.foldl_snd | intro _ | split
    | (refine Keeps.upd ?_; first
          | assumption | apply keeps_interrupt | apply keeps_emit | apply keeps_setFunc | apply keeps_count)
    | dsimp only

theorem keeps_deliver (e : Evt) (s : State) (hk : Keeps s0 s) :
    Keeps s0 (deliver e s) := by
  unfold deliver
  with_reducible repeat'
    first
    | assumption | apply keeps_reportEvent | apply keeps_writeEvent | exact Keeps.refl _ | apply Keeps.foldl
    | apply Keeps.foldl_snd | intro _ | split
    | (refine Keeps.upd ?_; first | assumption | apply keeps_reportEvent | apply keeps_writeEvent) | dsimp only

theorem keeps_setOtherSlot (v : FwSlot) (s : State) (hk : Keeps s0 s) :
    Keeps s0 (setOtherSlot v s) := by
  unfold setOtherSlot
  with_reducible repeat' first | assumption | apply keeps_setCcx | split

theorem keeps_setActiveSlot (v : FwSlot) (s : State) (hk : Keeps s0 s) :
    Keeps s0 (setActiveSlot v s) := by
  unfold setActiveSlot
  with_reducible repeat' first | assumption | apply keeps_setCcx | split

theorem keeps_firmwareLost (s : State) (hk : Keeps s0 s) :
    Keeps s0 (firmwareLost s) := by
  unfold firmwareLost
  with_reducible repeat'
    first
    | assumption | apply keeps_setOtherSlot | apply keeps_setCcx | apply keeps_setActiveSlot | exact Keeps.refl _
    | apply Keeps.foldl | apply Keeps.foldl_snd | intro _ | split
    | (refine Keeps.upd ?_; first | assumption | apply keeps_setOtherSlot | apply keeps_setCcx | apply keeps_setActiveSlot)
    | dsimp only

theorem keeps_endWaiting (s : State) (hk : Keeps s0 s) : Keeps s0 (endWaiting s) := by
  unfold endWaiting
  refine Keeps.foldl (fun s w h => ?_) (Keeps.upd (Keeps.foldl (fun s w h => ?_) (Keeps.upd hk)))
  · split
    · exact keeps_emit _ _ h
    · exact h
  · split
    · exact keeps_poisonCxl _ _ _ h
    · exact keeps_answerBar _ _ _ _ h
    · exact h

theorem keeps_reportFatal (port : Nat) (s : State) (hk : Keeps s0 s) :
    Keeps s0 (reportFatal port s) := by
  unfold reportFatal
  with_reducible repeat'
    first
    | assumption | apply keeps_emit | apply keeps_noteAer | apply keeps_modHport | apply keeps_cxlRecord | split

theorem keeps_takeover (cause : Nat) (s : State) (hk : Keeps s0 s) : Keeps s0 (takeover cause s) := by
  have ports (t : State) (sht : Sht) (ftb : Ftb) (ccx : Ccx) (lcc : Lcc) (h : Keeps s0 t) : Keeps s0 { t with
      sht := sht, fports := (List.range 8).map (fun p => (p, { FPort.reset with state := .disabled })), ftb := ftb,
      ccx := ccx, lcc := lcc } :=
    h.step (fun x => { x with fports := rfl }) rfl rfl
  unfold takeover
  split
  · dsimp only
    refine keeps_emit _ _ (Keeps.upd (s := reportFatal 1 (reportFatal 0 (endWaiting _)))
      (keeps_reportFatal _ _ (keeps_reportFatal _ _ (keeps_endWaiting _ (ports _ _ _ _ _ ?_)))))
    have h1 := keeps_endCvuJobs _ (keeps_seizeClaims _ (keeps_firmwareLost _ (keeps_logEvent
      (Evt.mk (Config.fatalCode cause) .fatal 0 noCtx 0 s.now (fatalPage cause) 0 [] false) _
      (keeps_count Pg.ccx 0xE18 _ (keeps_modPage (fatalPage cause) (setEvtBit 3) s hk)))))
    split
    · exact keeps_emit _ _ (Keeps.upd h1)
    · exact h1
  · split
    · exact Keeps.upd hk
    · exact hk

theorem keeps_setCore (n : Nat) (c : Core) (s : State) (hk : Keeps s0 s) :
    Keeps s0 (setCore n c s) := by
  unfold setCore
  with_reducible repeat' first | assumption | apply keeps_setCcx | split

theorem keeps_retireCore (n : Nat) (s : State) (hk : Keeps s0 s) :
    Keeps s0 (retireCore n s) := by
  unfold retireCore
  with_reducible repeat'
    first
    | assumption | apply keeps_setCore | apply keeps_count | apply keeps_raise | apply keeps_takeover | exact Keeps.refl _
    | apply Keeps.foldl | apply Keeps.foldl_snd | intro _ | split
    | (refine Keeps.upd ?_; first
          | assumption | apply keeps_setCore | apply keeps_count | apply keeps_raise | apply keeps_takeover)
    | dsimp only

theorem keeps_fwResult (r : Nat) (s : State) (hk : Keeps s0 s) :
    Keeps s0 (fwResult r s) := by
  unfold fwResult
  with_reducible repeat' first | assumption | apply keeps_setCcx | split

theorem keeps_stageImage (i : FwImage) (s : State) (hk : Keeps s0 s) :
    Keeps s0 (stageImage i s) := by
  unfold stageImage
  with_reducible repeat'
    first
    | assumption | apply keeps_fwResult | apply keeps_setOtherSlot | apply keeps_count | apply keeps_setCcx | split

theorem keeps_clearPend (p : Nat) (value : Nat) (s : State) (hk : Keeps s0 s) :
    Keeps s0 (clearPend p value s) := by
  unfold clearPend
  with_reducible repeat' first | assumption | apply keeps_modPage | split

theorem keeps_lockGroup (first : Nat) (s : State) (hk : Keeps s0 s) : Keeps s0 (lockGroup first s) := by
  have h (f : Nat → Page → Page) : Keeps s0 { s with pages := tmap Page.reset f s.pages } :=
    hk.step (fun x => { x with pages := twf_tmap _ x.pages }) rfl rfl
  unfold lockGroup
  exact h _

theorem keeps_enableUnit (p : Nat) (on : Bool) (s : State) (hk : Keeps s0 s) :
    Keeps s0 (enableUnit p on s) := by
  unfold enableUnit
  with_reducible repeat' first | assumption | apply keeps_setPortEnable | apply keeps_setEnable | split

theorem keeps_unlockPage (w : Nat) (p : Nat) (key : Nat) (s : State) (hk : Keeps s0 s) :
    Keeps s0 (unlockPage w p key s) := by
  unfold unlockPage
  with_reducible repeat' first | assumption | apply keeps_modPage | apply keeps_noteErr | split

theorem keeps_relockPage (p : Nat) (s : State) (hk : Keeps s0 s) :
    Keeps s0 (relockPage p s) := by
  unfold relockPage
  with_reducible repeat' first | assumption | apply keeps_modPage | split

theorem keeps_writeUnitCtrl (w : Nat) (p : Nat) (v : Word) (s : State) (hk : Keeps s0 s) :
    Keeps s0 (writeUnitCtrl w p v s) := by
  unfold writeUnitCtrl
  with_reducible repeat'
    first
    | assumption | apply keeps_noteErr | apply keeps_enableUnit | apply keeps_unlockPage | apply keeps_relockPage
    | apply keeps_ignoreWrite | apply keeps_startReset | exact Keeps.refl _ | apply Keeps.foldl | apply Keeps.foldl_snd
    | intro _ | split
    | (refine Keeps.upd ?_; first
          | assumption | apply keeps_noteErr | apply keeps_enableUnit | apply keeps_unlockPage | apply keeps_relockPage
          | apply keeps_ignoreWrite | apply keeps_startReset)
    | dsimp only

theorem keeps_putCatchup (w : Nat) (v : Word) (s : State) (hk : Keeps s0 s) :
    Keeps s0 (putCatchup w v s) := by
  unfold putCatchup
  with_reducible repeat'
    first
    | assumption | apply keeps_setReg | apply keeps_settleScales | apply keeps_noteErr | apply keeps_refusedAdmission
    | apply keeps_noteRefusal | apply keeps_admitted | exact Keeps.refl _ | apply Keeps.foldl | apply Keeps.foldl_snd
    | intro _ | split
    | (refine Keeps.upd ?_; first
          | assumption | apply keeps_setReg | apply keeps_settleScales | apply keeps_noteErr | apply keeps_refusedAdmission
          | apply keeps_noteRefusal | apply keeps_admitted)
    | dsimp only

theorem keeps_reload (w : Nat) (p : Nat) (t : PageType) (x : Nat × Nat) (s : State) (hk : Keeps s0 s) :
    Keeps s0 (reload w p t x s) := by
  unfold reload
  with_reducible repeat' first | assumption | apply keeps_setReg | apply keeps_putCatchup | split

theorem keeps_cvuChanged (n : Nat) (s : State) (hk : Keeps s0 s) :
    Keeps s0 (cvuChanged n s) := by
  unfold cvuChanged
  with_reducible repeat' first | assumption | apply keeps_modCvu | split

theorem keeps_loadPreset (w : Nat) (p : Nat) (v : Word) (s : State) (hk : Keeps s0 s) :
    Keeps s0 (loadPreset w p v s) := by
  unfold loadPreset
  with_reducible repeat'
    first
    | assumption | apply keeps_noteErr | apply keeps_reload | apply keeps_setReg | apply keeps_cvuChanged
    | apply keeps_writeHashPreset | exact Keeps.refl _ | apply Keeps.foldl | apply Keeps.foldl_snd | intro _ | split
    | (refine Keeps.upd ?_; first
          | assumption | apply keeps_noteErr | apply keeps_reload | apply keeps_setReg | apply keeps_cvuChanged
          | apply keeps_writeHashPreset)
    | dsimp only



theorem keeps_stopEvents (f : Nat) (v : Word) (s : State) (hk : Keeps s0 s) :
    Keeps s0 (stopEvents f v s) := by
  unfold stopEvents
  with_reducible repeat'
    first
    | assumption | apply keeps_modFunc | apply keeps_noteErr | exact Keeps.refl _ | apply Keeps.foldl | apply Keeps.foldl_snd
    | intro _ | split | (refine Keeps.upd ?_; first | assumption | apply keeps_modFunc | apply keeps_noteErr) | dsimp only

theorem keeps_writeMaskReg (p : Nat) (v : Word) (s : State) (hk : Keeps s0 s) :
    Keeps s0 (writeMaskReg p v s) := by
  unfold writeMaskReg
  with_reducible repeat' first | assumption | apply keeps_modPage | split

theorem keeps_storeOperands (t : PageType) (o : Nat) (v : Word) (s : State) (hk : Keeps s0 s) :
    Keeps s0 (storeOperands t o v s) := by
  unfold storeOperands
  with_reducible repeat' first | assumption | apply keeps_storeCtxCmd | apply keeps_setReg | split

theorem keeps_writeOp (w : Nat) (p : Nat) (t : PageType) (o : Nat) (f : Nat × Nat × Nat) (v : Word) (s : State) (hk : Keeps
    s0 s) :
    Keeps s0 (writeOp w p t o f v s) := by
  unfold writeOp
  with_reducible repeat'
    first
    | assumption | apply keeps_storeOperands | apply keeps_noteErr | exact Keeps.refl _ | apply Keeps.foldl
    | apply Keeps.foldl_snd | intro _ | split
    | (refine Keeps.upd ?_; first | assumption | apply keeps_storeOperands | apply keeps_noteErr) | dsimp only

theorem keeps_writeRoute (v : Word) (s : State) (hk : Keeps s0 s) :
    Keeps s0 (writeRoute v s) := by
  unfold writeRoute
  with_reducible repeat'
    first
    | assumption | exact Keeps.refl _ | apply Keeps.foldl | apply Keeps.foldl_snd | intro _ | split
    | (refine Keeps.upd ?_; first | assumption) | dsimp only

theorem keeps_afterBasic (t : PageType) (n : Nat) (o : Nat) (old : Word) (s : State) (hk : Keeps s0 s) :
    Keeps s0 (afterBasic t n o old s) := by
  unfold afterBasic
  with_reducible repeat'
    first
    | assumption | apply keeps_setPortEnable | apply keeps_settleParent | apply keeps_settleTray | split

theorem keeps_writeBasic (w : Nat) (p : Nat) (t : PageType) (n : Nat) (d : RegDef) (o : Nat) (v : Word) (s : State) (hk :
    Keeps s0 s) :
    Keeps s0 (writeBasic w p t n d o v s) := by
  unfold writeBasic
  with_reducible repeat'
    first
    | assumption | apply keeps_writeOp | apply keeps_writePartSize | apply keeps_writeRoute | apply keeps_afterBasic
    | apply keeps_setReg | apply keeps_startFlush | apply keeps_noteErr | split

theorem keeps_putExpert (w : Nat) (p : Nat) (t : PageType) (n : Nat) (o : Nat) (v : Word) (s : State) (hk : Keeps s0 s) :
    Keeps s0 (putExpert w p t n o v s) := by
  unfold putExpert
  with_reducible repeat' first | assumption | apply keeps_putCatchup | apply keeps_cvuChanged | apply keeps_setReg | split

theorem keeps_writeExpert (w : Nat) (p : Nat) (t : PageType) (n : Nat) (d : RegDef) (o : Nat) (v : Word) (s : State) (hk :
    Keeps s0 s) :
    Keeps s0 (writeExpert w p t n d o v s) := by
  unfold writeExpert
  with_reducible repeat'
    first
    | assumption | apply keeps_noteErr | apply keeps_putExpert | exact Keeps.refl _ | apply Keeps.foldl
    | apply Keeps.foldl_snd | intro _ | split
    | (refine Keeps.upd ?_; first | assumption | apply keeps_noteErr | apply keeps_putExpert) | dsimp only

theorem keeps_accessReg (w p : Nat) (find : Nat → Option Target) (half : Nat → Option Word) (off : Nat) (wide : Bool) (v : Word)
    (s : State) (hf : ∀ o t, find o = some t → ∀ v s, Keeps s0 s → Keeps s0 (t.write v s)) (hk : Keeps s0 s) :
    Keeps s0 (accessReg w p find half off wide v s) := by
  have narrow (off : Nat) (v : Word) (s : State) (hk : Keeps s0 s) : Keeps s0
      (match find off with
      | none => s
      | some t =>
        if !t.wide then t.write v s
        else if off = t.off then
          modPage p (fun h => { h with halves := h.halves ++ [HeldWrite.mk w t.off false v] }) s
        else match half t.off with
          | some lo => t.write (lo + BitVec.ofNat 64 (v.toNat * 2 ^ 32)) s
          | none => if isPf w then noteErr p kindRefusedValue .accessDenied off w s else s) := by
    split
    · exact hk
    · next t e =>
      split
      · exact hf _ _ e _ _ hk
      · split
        · exact keeps_modPage _ _ _ hk
        · split
          · exact hf _ _ e _ _ hk
          · split
            · exact keeps_noteErr _ _ _ _ _ _ hk
            · exact hk
  unfold accessReg
  extract_lets low nar
  have hn : ∀ off v s, Keeps s0 s → Keeps s0 (nar off v s) := narrow
  split
  · exact hn _ _ _ hk
  · split
    · next t e =>
      split
      · exact hf _ _ e _ _ hk
      · exact hn _ _ _ (hf _ _ e _ _ hk)
    · exact hn _ _ _ hk

theorem keeps_fnRegister (f o : Nat) : ∀ b g, fnRegister f o = some (b, g) → ∀ v s, Keeps s0 s → Keeps s0 (g v s) := by
  unfold fnRegister
  intro b g e v s hk
  dsimp only at e
  split at e
  · cases e; exact keeps_modFunc _ _ _ hk
  split at e
  · cases e
    dsimp only
    split
    · exact hk
    · exact keeps_stopEvents _ _ _ hk
  split at e
  · cases e; exact keeps_settleIntx _ _ (keeps_modFunc _ _ _ hk)
  split at e
  · cases e; exact keeps_modFunc _ _ _ hk
  split at e
  · cases e; exact keeps_modRing _ _ _ _ hk
  split at e
  · cases e; exact keeps_modRing _ _ _ _ hk
  · cases e

theorem keeps_target (w p : Nat) (expert : Bool) (o : Nat) :
    ∀ t, target w p expert o = some t → ∀ v s, Keeps s0 s → Keeps s0 (t.write v s) := by
  unfold target
  intro t e v s hk
  split at e
  · cases e
  · split at e
    · cases e; exact keeps_writeMaskReg _ _ _ hk
    · split at e
      · obtain ⟨x, hx, e⟩ := Option.map_eq_some_iff.1 e
        cases e
        exact keeps_fnRegister _ _ _ _ hx _ _ hk
      · split at e
        · cases e
        · split at e
          · cases e
          · cases e
            cases expert
            · exact keeps_writeBasic _ _ _ _ _ _ _ _ hk
            · exact keeps_writeExpert _ _ _ _ _ _ _ _ hk

theorem keeps_vfTarget (w o : Nat) : ∀ t, vfTarget w o = some t → ∀ v s, Keeps s0 s → Keeps s0 (t.write v s) := by
  unfold vfTarget
  intro t e v s hk
  dsimp only at e
  split at e
  · next h =>
    split at e
    · cases e; exact keeps_fnRegister _ _ _ _ h _ _ hk
    · cases e
  · cases e

theorem keeps_applyAccess (expert : Bool) (w p : Nat) (half : Nat → Option Word) (off : Nat) (wide : Bool) (v : Word) (s :
    State)
    (hk : Keeps s0 s) : Keeps s0 (applyAccess expert w p half off wide v s) :=
  keeps_accessReg _ _ _ _ _ _ _ _ (keeps_target _ _ _) hk

theorem keeps_applyHeldWrite (p : Nat) (x : HeldWrite) (s : State) (hk : Keeps s0 s) :
    Keeps s0 (applyHeldWrite p x s) := by
  unfold applyHeldWrite
  with_reducible repeat'
    first
    | assumption | apply keeps_writeUnitCtrl | apply keeps_clearPend | apply keeps_loadPreset | apply keeps_dropHalf
    | apply keeps_applyAccess | exact Keeps.refl _ | apply Keeps.foldl | apply Keeps.foldl_snd | intro _ | split
    | (refine Keeps.upd ?_; first
          | assumption | apply keeps_writeUnitCtrl | apply keeps_clearPend | apply keeps_loadPreset | apply keeps_dropHalf
          | apply keeps_applyAccess)
    | dsimp only

theorem keeps_pageWrite (w : Nat) (p : Nat) (off : Nat) (wide : Bool) (v : Word) (s : State) (hk : Keeps s0 s) :
    Keeps s0 (pageWrite w p off wide v s) := by
  unfold pageWrite
  with_reducible repeat'
    first
    | assumption | apply keeps_dropHalf | apply keeps_ignoreWrite | apply keeps_modPage | apply keeps_applyHeldWrite
    | apply keeps_applyAccess | exact Keeps.refl _ | apply Keeps.foldl | apply Keeps.foldl_snd | intro _ | split
    | (refine Keeps.upd ?_; first
          | assumption | apply keeps_dropHalf | apply keeps_ignoreWrite | apply keeps_modPage | apply keeps_applyHeldWrite
          | apply keeps_applyAccess)
    | dsimp only

theorem keeps_vfWrite (w off : Nat) (wide : Bool) (v : Word) (s : State) (hk : Keeps s0 s) : Keeps s0 (vfWrite w off wide v
    s) := by
  unfold vfWrite
  dsimp only
  split
  · exact keeps_accessReg _ _ _ _ _ _ _ _ (keeps_vfTarget _) (keeps_dropHalf _ _ _ hk)
  · exact hk

end Sys2Proof.Machine
end

