-- ==== Sys2Proof/Laws/KeepsDevice.lean ====
section
/-! SUPPORT. Sys2Proof/Laws/KeepsDevice.lean: operations of the operating profile, of resets and of the passing of time
keep the canonical form of the tables, the queue of waiting commands, and what the fuses hold. -/

set_option Elab.async false
set_option linter.unusedSimpArgs false

namespace Sys2Proof.Machine

variable {s0 : State}

theorem keeps_restoreCrash (s : State) (hk : Keeps s0 s) :
    Keeps s0 (restoreCrash s) := by
  unfold restoreCrash
  with_reducible repeat'
    first
    | assumption | apply keeps_emit | exact Keeps.refl _ | apply Keeps.foldl | apply Keeps.foldl_snd | intro _ | split
    | (refine Keeps.upd ?_; first | assumption | apply keeps_emit) | dsimp only

theorem keeps_loadCfg (f : Fitted) (s : State) (hk : Keeps s0 s) :
    Keeps s0 (loadCfg f s) := by
  unfold loadCfg
  with_reducible repeat'
    first
    | assumption | apply keeps_noteErr | apply keeps_setReg | exact Keeps.refl _ | apply Keeps.foldl | apply Keeps.foldl_snd
    | intro _ | split | (refine Keeps.upd ?_; first | assumption | apply keeps_noteErr | apply keeps_setReg) | dsimp only

theorem keeps_trainLink (port : Nat) (s : State) (hk : Keeps s0 s) :
    Keeps s0 (trainLink port s) := by
  unfold trainLink
  with_reducible repeat' first | assumption | apply keeps_modHport | split

theorem keeps_powerLost (s : State) (hk : Keeps s0 s) :
    Keeps s0 (powerLost s) := by
  unfold powerLost
  with_reducible repeat'
    first
    | assumption | apply keeps_setOtherSlot | apply keeps_emit | exact Keeps.refl _ | apply Keeps.foldl
    | apply Keeps.foldl_snd | intro _ | split
    | (refine Keeps.upd ?_; first | assumption | apply keeps_setOtherSlot | apply keeps_emit) | dsimp only

theorem keeps_revoke (v : FwSlot) (s : State) (hk : Keeps s0 s) : Keeps s0 (revoke v s) := by
  unfold revoke
  split
  · refine ⟨fun x => { hk.tidy x with }, hk.pending, hk.fuses.trans ⟨Nat.le_refl _, Nat.le_refl _, fun k h => ?_, Nat.le_refl _⟩⟩
    dsimp only
    split
    · exact h
    · exact List.mem_append_left _ h
  · exact hk

theorem keeps_activate (s : State) (hk : Keeps s0 s) :
    Keeps s0 (activate s) := by
  unfold activate
  with_reducible repeat' first | assumption | apply keeps_revoke | apply keeps_setOtherSlot | apply keeps_setActiveSlot | split

theorem keeps_selectSlot (f : Fitted) (s : State) (hk : Keeps s0 s) :
    ∀ t, selectSlot f s = some t → Keeps s0 t := by
  unfold selectSlot
  intros
  rename_i ee
  repeat' (first | (simp only [Option.some.injEq, Prod.mk.injEq, reduceCtorEq, Except.error.injEq] at ee) | split at ee)
  all_goals try (have hq := Eq.symm ee; subst hq)
  all_goals try (have hq := Eq.symm ee.2; subst hq)
  with_reducible repeat'
    first
    | assumption | apply keeps_setCcx | apply keeps_setActiveSlot | apply keeps_activate | apply keeps_setOtherSlot
    | apply keeps_count | exact Keeps.refl _ | apply Keeps.foldl | apply Keeps.foldl_snd | intro _ | split
    | (refine Keeps.upd ?_; first
          | assumption | apply keeps_setCcx | apply keeps_setActiveSlot | apply keeps_activate | apply keeps_setOtherSlot
          | apply keeps_count)
    | dsimp only

theorem keeps_endTrial (s : State) (hk : Keeps s0 s) :
    Keeps s0 (endTrial s) := by
  unfold endTrial
  with_reducible repeat' first | assumption | apply keeps_activate | apply keeps_setCcx | split

theorem keeps_resetLink (port : Nat) (kind : PortResetKind) (s : State) (hk : Keeps s0 s) :
    Keeps s0 (resetLink port kind s) := by
  unfold resetLink
  with_reducible repeat' first | assumption | apply keeps_modHport | apply keeps_trainLink | split

theorem keeps_tearPort (port : Nat) (s : State) (hk : Keeps s0 s) :
    Keeps s0 (tearPort port s) := by
  unfold tearPort
  with_reducible repeat' first | assumption | apply keeps_modHport | apply keeps_resetPf | split

theorem keeps_startCheckers (f : Fitted) (s : State) (hk : Keeps s0 s) :
    Keeps s0 (startCheckers f s) := by
  unfold startCheckers
  with_reducible repeat'
    first
    | assumption | apply keeps_settleTray | exact Keeps.refl _ | apply Keeps.foldl | apply Keeps.foldl_snd | intro _ | split
    | (refine Keeps.upd ?_; first | assumption | apply keeps_settleTray) | dsimp only

theorem keeps_noteStep (n : Nat) (s : State) (hk : Keeps s0 s) :
    Keeps s0 (noteStep n s) := by
  unfold noteStep
  with_reducible repeat' first | assumption | apply keeps_emit | split

theorem keeps_openMemory (s : State) (hk : Keeps s0 s) :
    Keeps s0 (openMemory s) := by
  unfold openMemory
  with_reducible repeat'
    first
    | assumption | apply keeps_startMount | apply keeps_noteStep | exact Keeps.refl _ | apply Keeps.foldl
    | apply Keeps.foldl_snd | intro _ | split
    | (refine Keeps.upd ?_; first | assumption | apply keeps_startMount | apply keeps_noteStep) | dsimp only

theorem keeps_uartReceive (b : Byte) (s : State) (hk : Keeps s0 s) :
    Keeps s0 (uartReceive b s) := by
  unfold uartReceive
  with_reducible repeat'
    first
    | assumption | exact Keeps.refl _ | apply Keeps.foldl | apply Keeps.foldl_snd | intro _ | split
    | (refine Keeps.upd ?_; first | assumption) | dsimp only

theorem keeps_survivors (cause coldCount : Nat) (f : Fitted) (s : State) (hk : Keeps s0 s) :
    Keeps s0 (survivors cause coldCount f s) := by
  refine ⟨fun x => ?_, hk.pending, hk.fuses.trans (FusesKept.of_otp rfl)⟩
  have h := twf_tmap (fun _ f => keptFlc f) (hk.tidy x).flcs
  constructor <;> first | exact h | exact ⟨rfl, rfl⟩ | rfl

theorem keeps_scrap (s : State) (hk : Keeps s0 s) : Keeps s0 (scrap s) :=
  ⟨fun x => { hk.tidy x with }, hk.pending, hk.fuses.trans ⟨Nat.le_refl _, Nat.le_refl _, fun _ h => h, Nat.le_refl _⟩⟩

theorem keeps_applyPending (s : State) (hk : Keeps s0 s) : Keeps s0 (applyPending s) := by
  have step (o : Otp) (v : Lcc) (h : FusesKept s { s with otp := o, lcc := v }) :
      Keeps s0 { s with otp := o, lcc := v } :=
    ⟨fun x => { hk.tidy x with }, hk.pending, hk.fuses.trans h⟩
  have f (o : Otp) (v : Lcc) (h1 : o.minSvn = s.otp.minSvn) (h2 : o.trustMin = s.otp.trustMin)
      (h3 : o.revoked = s.otp.revoked) (h4 : o.transitions = s.otp.transitions + 1) :
      Keeps s0 { s with otp := o, lcc := v } :=
    step o v ⟨Nat.le_of_eq h1.symm, Nat.le_of_eq h2.symm, fun k h => h3 ▸ h, by dsimp only; omega⟩
  unfold applyPending
  split
  · exact hk
  · dsimp only
    split
    · exact f _ _ rfl rfl rfl rfl
    · exact f _ _ rfl rfl rfl rfl
    · exact keeps_scrap _ (f _ _ rfl rfl rfl rfl)
    · exact f _ _ rfl rfl rfl rfl

theorem keeps_startTime (s : State) (hk : Keeps s0 s) :
    Keeps s0 (startTime s) := by
  unfold startTime
  with_reducible repeat' first | assumption | apply keeps_setReg | apply keeps_settleParent | apply keeps_setClaim | split

theorem keeps_newKeys (s : State) (hk : Keeps s0 s) : Keeps s0 (newKeys s) := by
  unfold newKeys draw
  exact Keeps.upd (Keeps.upd (Keeps.upd hk))

theorem keeps_startCores (f : Fitted) (s : State) (hk : Keeps s0 s) :
    Keeps s0 (startCores f s) := by
  unfold startCores
  with_reducible repeat'
    first
    | assumption | apply keeps_setCore | apply keeps_setCcx | exact Keeps.refl _ | apply Keeps.foldl | apply Keeps.foldl_snd
    | intro _ | split | (refine Keeps.upd ?_; first | assumption | apply keeps_setCore | apply keeps_setCcx) | dsimp only

theorem keeps_startLink (port : Nat) (s : State) (hk : Keeps s0 s) :
    Keeps s0 (startLink port s) := by
  unfold startLink
  with_reducible repeat' first | assumption | apply keeps_modHport | apply keeps_trainLink | split

theorem keeps_applyRepair (hppr : Bool) (r : Repair) (s : State) (hk : Keeps s0 s) :
    Keeps s0 (applyRepair hppr r s) := by
  unfold applyRepair
  with_reducible repeat'
    first
    | assumption | apply keeps_putRemap | exact Keeps.refl _ | apply Keeps.foldl | apply Keeps.foldl_snd | intro _ | split
    | (refine Keeps.upd ?_; first | assumption | apply keeps_putRemap) | dsimp only

theorem keeps_applyRepairs (f : Fitted) (s : State) (hk : Keeps s0 s) :
    Keeps s0 (applyRepairs f s) := by
  unfold applyRepairs
  with_reducible repeat'
    first
    | assumption | apply keeps_applyRepair | exact Keeps.refl _ | apply Keeps.foldl | apply Keeps.foldl_snd | intro _ | split
    | (refine Keeps.upd ?_; first | assumption | apply keeps_applyRepair) | dsimp only

theorem twf_filtered {α : Type} [DecidableEq α] (d : α) (f : Nat → α) (n : Nat) :
    twf d (((List.range n).map (fun k => (k, f k))).filter (fun x => decide (x.2 ≠ d))) = true := twf_listed _ _

theorem keeps_startChans (f : Fitted) (s : State) (hk : Keeps s0 s) : Keeps s0 (startChans f s) := by
  unfold startChans
  refine hk.step (fun x => { x with chans := ?_, ctrls := ?_ }) rfl rfl
  · exact twf_filtered Chan.reset _ _
  · rfl

theorem keeps_startSheet (f : Fitted) (s : State) (hk : Keeps s0 s) :
    Keeps s0 (startSheet f s) := by
  unfold startSheet
  with_reducible repeat'
    first
    | assumption | apply keeps_setTile | apply keeps_logRepair | apply keeps_setSht | exact Keeps.refl _ | apply Keeps.foldl
    | apply Keeps.foldl_snd | intro _ | split
    | (refine Keeps.upd ?_; first | assumption | apply keeps_setTile | apply keeps_logRepair | apply keeps_setSht)
    | dsimp only

theorem keeps_startMemory (f : Fitted) (s : State) (hk : Keeps s0 s) :
    Keeps s0 (startMemory f s) := by
  unfold startMemory
  with_reducible repeat'
    first
    | assumption | apply keeps_noteStep | apply keeps_settleScales | apply keeps_recountSlabs | apply keeps_applyRepairs
    | apply keeps_startChans | apply keeps_startSheet | apply keeps_startCheckers | apply keeps_openMemory
    | exact Keeps.refl _ | apply Keeps.foldl | apply Keeps.foldl_snd | intro _ | split
    | (refine Keeps.upd ?_; first
          | assumption | apply keeps_noteStep | apply keeps_settleScales | apply keeps_recountSlabs | apply keeps_applyRepairs
          | apply keeps_startChans | apply keeps_startSheet | apply keeps_startCheckers | apply keeps_openMemory)
    | dsimp only

theorem keeps_start (cause coldCount : Nat) (f : Fitted) (s : State) (hk : Keeps s0 s) : Keeps s0 (start cause coldCount f
    s) := by
  have h0 := keeps_survivors cause coldCount f s hk
  have h1 : Keeps s0 (emit (.pins true true) (loadCfg f (applyPending (survivors cause coldCount f s)))) :=
    keeps_emit _ _ (keeps_loadCfg _ _ (keeps_applyPending _ h0))
  unfold start
  dsimp only
  split
  · exact h0
  · split
    · exact h1
    · next s2 e =>
      have h2 : Keeps s0 s2 := by
        split at e
        · cases e; exact h1
        · exact keeps_selectSlot _ _ h1 _ e
      have hb (v : State) (hv : Keeps s0 v) : Keeps s0 (startLink 1 (startLink 0 (noteStep 5 { v with boot := { v.boot with
          halted := false } }))) :=
        keeps_startLink _ _ (keeps_startLink _ _ (keeps_noteStep _ _ (Keeps.upd hv)))
      have h3 := hb _ (keeps_startTime _ (keeps_restoreCrash _ (keeps_newKeys _ (keeps_startCores f _ h2))))
      split
      · exact keeps_takeover _ _ h3
      · exact keeps_startMemory _ _ h3

theorem keeps_coldStart (cause : Nat) (f : Fitted) (s : State) (hk : Keeps s0 s) :
    Keeps s0 (coldStart cause f s) := by
  unfold coldStart
  with_reducible repeat' first | assumption | apply keeps_start | apply keeps_setOtherSlot | split

theorem keeps_raiseLink (port : Nat) (s : State) (hk : Keeps s0 s) :
    Keeps s0 (raiseLink port s) := by
  unfold raiseLink
  with_reducible repeat' first | assumption | apply keeps_modHport | split

theorem keeps_skipPart (b : BootPart) (s : State) (hk : Keeps s0 s) :
    Keeps s0 (skipPart b s) := by
  unfold skipPart
  with_reducible repeat' first | assumption | apply keeps_raise | split

theorem keeps_bootPart (i : Nat) (b : BootPart) (s : State) (hk : Keeps s0 s) :
    Keeps s0 (bootPart i b s) := by
  unfold bootPart
  with_reducible repeat'
    first
    | assumption | refine Keeps.of_snd (by assumption) ?_ | refine Keeps.of_snd_snd (by assumption) ?_ | apply keeps_skipPart
    | apply keeps_createCtx | apply keeps_reserveBody | apply keeps_setPart | apply keeps_setCtx | exact Keeps.refl _
    | apply Keeps.foldl | apply Keeps.foldl_snd | intro _ | split
    | (refine Keeps.upd ?_; first
          | assumption | apply keeps_skipPart | apply keeps_createCtx | apply keeps_reserveBody | apply keeps_setPart
          | apply keeps_setCtx)
    | dsimp only

theorem keeps_createParts (port : Nat) (s : State) (hk : Keeps s0 s) :
    Keeps s0 (createParts port s) := by
  unfold createParts
  with_reducible repeat'
    first
    | assumption | apply keeps_bootPart | exact Keeps.refl _ | apply Keeps.foldl | apply Keeps.foldl_snd | intro _ | split
    | (refine Keeps.upd ?_; first | assumption | apply keeps_bootPart) | dsimp only

theorem keeps_startFlashUse (v : Nat) (s : State) (hk : Keeps s0 s) :
    Keeps s0 (startFlashUse v s) := by
  unfold startFlashUse
  with_reducible repeat'
    first
    | assumption | apply keeps_startMount | apply keeps_promoteSlabs | apply keeps_barDemotions | apply keeps_retryHeld
    | apply keeps_settleScales | apply keeps_recountSlabs | apply keeps_retireSlabs | exact Keeps.refl _ | apply Keeps.foldl
    | apply Keeps.foldl_snd | intro _ | split
    | (refine Keeps.upd ?_; first
          | assumption | apply keeps_startMount | apply keeps_promoteSlabs | apply keeps_barDemotions | apply keeps_retryHeld
          | apply keeps_settleScales | apply keeps_recountSlabs | apply keeps_retireSlabs)
    | dsimp only

theorem keeps_applyPlacement (v : Nat) (s : State) (hk : Keeps s0 s) :
    Keeps s0 (applyPlacement v s) := by
  unfold applyPlacement
  with_reducible repeat'
    first
    | assumption | apply keeps_takeUp | apply keeps_releaseHeld | apply keeps_failVotes | apply keeps_abandonMove
    | exact Keeps.refl _ | apply Keeps.foldl | apply Keeps.foldl_snd | intro _ | split
    | (refine Keeps.upd ?_; first
          | assumption | apply keeps_takeUp | apply keeps_releaseHeld | apply keeps_failVotes | apply keeps_abandonMove)
    | dsimp only

theorem keeps_startEnvelope (e : Nat) (s : State) (hk : Keeps s0 s) :
    Keeps s0 (startEnvelope e s) := by
  unfold startEnvelope
  with_reducible repeat'
    first
    | assumption | apply keeps_count | apply keeps_setClaim | exact Keeps.refl _ | apply Keeps.foldl | apply Keeps.foldl_snd
    | intro _ | split | (refine Keeps.upd ?_; first | assumption | apply keeps_count | apply keeps_setClaim) | dsimp only

theorem keeps_countWhile (on : Bool) (p : Nat) (off : Nat) (s : State) (hk : Keeps s0 s) :
    Keeps s0 (countWhile on p off s) := by
  unfold countWhile
  with_reducible repeat' first | assumption | apply keeps_count | split

theorem keeps_tickCtrl (s : State) (c : Nat) (hk : Keeps s0 s) :
    Keeps s0 (tickCtrl s c) := by
  unfold tickCtrl
  with_reducible repeat' first | assumption | apply keeps_countWhile | split

theorem keeps_tickPower (s : State) (hk : Keeps s0 s) :
    Keeps s0 (tickPower s) := by
  unfold tickPower
  with_reducible repeat' first | assumption | apply keeps_countWhile | split

theorem keeps_tickCounters (s : State) (hk : Keeps s0 s) :
    Keeps s0 (tickCounters s) := by
  unfold tickCounters
  with_reducible repeat'
    first
    | assumption | apply keeps_tickCtrl | apply keeps_tickPower | apply keeps_countWhile | exact Keeps.refl _
    | apply Keeps.foldl | apply Keeps.foldl_snd | intro _ | split
    | (refine Keeps.upd ?_; first | assumption | apply keeps_tickCtrl | apply keeps_tickPower | apply keeps_countWhile)
    | dsimp only

theorem keeps_tickTime (s : State) (hk : Keeps s0 s) :
    Keeps s0 (tickTime s) := by
  unfold tickTime
  with_reducible repeat'
    first
    | assumption | exact Keeps.refl _ | apply Keeps.foldl | apply Keeps.foldl_snd | intro _ | split
    | (refine Keeps.upd ?_; first | assumption) | dsimp only

theorem keeps_tick (s : State) (hk : Keeps s0 s) :
    Keeps s0 (tick s) := by
  unfold tick
  with_reducible repeat'
    first
    | assumption | apply keeps_takeover | apply keeps_tickCounters | apply keeps_settleLag | apply keeps_tickTime | split

end Sys2Proof.Machine
end

