-- ==== Sys2Proof/Laws/PerInstr.lean ====
section
/-! SUPPORT. Sys2Proof/Laws/PerInstr.lean: the family Formed: a well-formed command names only functions, contexts, slabs, ring
pairs and fabric ports that the spec's number spaces hold. -/

set_option Elab.async false

namespace Sys2Proof.Laws.Formed

/-- Functions that a command names: its sender, or the function it acts on. -/
def fnsNamed : Instr → List Nat
  | .registerWrite w _ _ _ _ => [w]
  | .expertUnlock w _ _ => [w]
  | .relock w _ => [w]
  | .unitReset w _ => [w]
  | .unitEnable w _ _ => [w]
  | .presetWrite w _ _ => [w]
  | .expertWrite w _ _ _ _ => [w]
  | .claimWrite w _ _ => [w]
  | .snap w _ => [w]
  | .evtPendClear w _ _ => [w]
  | .profileWrite w _ => [w]
  | .reserve r _ _ _ _ _ _ _ _ _ => [r.fn]
  | .release r _ _ _ _ _ _ _ _ _ => [r.fn]
  | .ctxCreate w fn _ => [w, fn]
  | .ctxDestroy w _ => [w]
  | .shareCreate r _ => [r.fn]
  | .shareAddSlabs r _ _ _ _ => [r.fn]
  | .shareAddMember r _ _ _ _ => [r.fn]
  | .shareRemoveMember r _ _ _ => [r.fn]
  | .shareDestroy r _ _ => [r.fn]
  | .shareLeave r _ _ => [r.fn]
  | .mapWindow r _ _ _ _ _ => [r.fn]
  | .unmapWindow r _ _ => [r.fn]
  | .ldBaseWrite w _ _ => [w]
  | .sealSlabs r _ _ _ => [r.fn]
  | .barRead fn _ _ _ => [fn]
  | .barWrite fn _ _ _ => [fn]
  | .trayFlush w => [w]
  | .compressIn r _ _ _ _ _ _ _ _ _ => [r.fn]
  | .recode r _ _ _ _ _ _ _ => [r.fn]
  | .retire w _ => [w]
  | .hint r _ _ _ _ _ => [r.fn]
  | .hintTmask r _ _ _ _ => [r.fn]
  | .mgeGuaranteeWrite w _ => [w]
  | .hashMaskWrite w _ _ _ => [w]
  | .iceInject w _ => [w]
  | .cvuJobStart w _ _ => [w]
  | .cvuDataWrite w _ _ => [w]
  | .cvuJobFinish w _ _ => [w]
  | .check r _ _ _ _ _ _ _ _ _ _ => [r.fn]
  | .tileTest w _ => [w]
  | .loadRecipe r _ _ _ _ _ _ _ => [r.fn]
  | .run r _ _ _ _ => [r.fn]
  | .abortStop r _ _ _ => [r.fn]
  | .abortUnload r _ _ => [r.fn]
  | .retrain w _ => [w]
  | .grantCreate w _ => [w]
  | .grantDestroy w _ => [w]
  | .ftbIdentityWrite w _ => [w]
  | .configRequest fn _ => [fn]
  | .doorbell fn _ _ => [fn]
  | .commandFetch fn _ _ => [fn]
  | .cqHeadWrite fn _ _ => [fn]
  | .ringEnable fn _ _ => [fn]
  | .ringDisable fn _ _ => [fn]
  | .evtRingEnable fn _ => [fn]
  | .query r _ _ _ _ => [r.fn]
  | .intDelayExpiry fn _ => [fn]
  | .bmeClear fn => [fn]
  | .flr fn => [fn]
  | .tdispRequest fn _ => [fn]
  | .spdmDoe fn _ => [fn]
  | .sssResetReq w _ => [w]
  | .sssForce w _ => [w]
  | .fwStage w => [w]
  | .fwSelect w => [w]
  | .fwCommit w => [w]
  | .lccSubmit w => [w]
  | .lccCancel w => [w]
  | .keyAlloc w => [w]
  | .keyImport w _ _ => [w]
  | .keyDestroy w _ => [w]
  | .trustStage w _ => [w]
  | .trustCommit w => [w]
  | .grantNonceRead w => [w]
  | .debugGrantSubmit w _ _ => [w]
  | .debugGrantRevoke w => [w]
  | .functionReady fn => [fn]
  | _ => []

/-- Contexts that a command names. -/
def ctxsNamed : Instr → List Nat
  | .reserve _ ctx _ _ _ _ _ _ _ _ => [ctx]
  | .release _ ctx _ _ _ _ _ _ _ _ => [ctx]
  | .ctxDestroy _ ctx => [ctx]
  | .shareCreate _ ctx => [ctx]
  | .shareAddSlabs _ ctx _ _ _ => [ctx]
  | .shareAddMember _ ctx _ member _ => [ctx, member]
  | .shareRemoveMember _ ctx _ member => [ctx, member]
  | .shareDestroy _ ctx _ => [ctx]
  | .shareLeave _ ctx _ => [ctx]
  | .mapWindow _ ctx _ _ _ _ => [ctx]
  | .unmapWindow _ ctx _ => [ctx]
  | .sealSlabs _ ctx _ _ => [ctx]
  | .compressIn _ ctx _ _ _ _ _ _ _ _ => [ctx]
  | .recode _ ctx _ _ _ _ _ _ => [ctx]
  | .hint _ ctx _ _ _ _ => [ctx]
  | .hintTmask _ ctx _ _ _ => [ctx]
  | .check _ ctx _ _ _ _ _ _ _ _ _ => [ctx]
  | .loadRecipe _ ctx _ _ _ _ _ _ => [ctx]
  | .run _ ctx _ _ _ => [ctx]
  | .abortStop _ ctx _ _ => [ctx]
  | .abortUnload _ ctx _ => [ctx]
  | .query _ ctx _ _ _ => [ctx]
  | _ => []

/-- Slabs that a command names by number. -/
def slabsNamed : Instr → List Nat
  | .mapWindow _ _ _ _ firstSlab _ => [firstSlab]
  | .moveStart slab => [slab]
  | .copyPassDone slab => [slab]
  | .moveFlip slab => [slab]
  | .holdTimeout slab => [slab]
  | .oldFrameRelease slab => [slab]
  | .poolDwellExpiry slab => [slab]
  | .flashProgramDone slab => [slab]
  | .programFailure slab _ _ => [slab]
  | .retryStepDone slab _ _ => [slab]
  | .rebuildDone slab _ _ => [slab]
  | _ => []

/-- Ring pairs that a command names. -/
def ringsNamed : Instr → List Nat
  | .reserve r _ _ _ _ _ _ _ _ _ => [r.ring]
  | .release r _ _ _ _ _ _ _ _ _ => [r.ring]
  | .shareCreate r _ => [r.ring]
  | .shareAddSlabs r _ _ _ _ => [r.ring]
  | .shareAddMember r _ _ _ _ => [r.ring]
  | .shareRemoveMember r _ _ _ => [r.ring]
  | .shareDestroy r _ _ => [r.ring]
  | .shareLeave r _ _ => [r.ring]
  | .mapWindow r _ _ _ _ _ => [r.ring]
  | .unmapWindow r _ _ => [r.ring]
  | .sealSlabs r _ _ _ => [r.ring]
  | .compressIn r _ _ _ _ _ _ _ _ _ => [r.ring]
  | .recode r _ _ _ _ _ _ _ => [r.ring]
  | .hint r _ _ _ _ _ => [r.ring]
  | .hintTmask r _ _ _ _ => [r.ring]
  | .check r _ _ _ _ _ _ _ _ _ _ => [r.ring]
  | .loadRecipe r _ _ _ _ _ _ _ => [r.ring]
  | .run r _ _ _ _ => [r.ring]
  | .abortStop r _ _ _ => [r.ring]
  | .abortUnload r _ _ => [r.ring]
  | .doorbell _ ring _ => [ring]
  | .commandFetch _ ring _ => [ring]
  | .cqHeadWrite _ ring _ => [ring]
  | .ringEnable _ ring _ => [ring]
  | .ringDisable _ ring _ => [ring]
  | .query r _ _ _ _ => [r.ring]
  | .intDelayExpiry _ ring => [ring]
  | _ => []

/-- Fabric ports that a command names. -/
def fportsNamed : Instr → List Nat
  | .tableRetireAck fport _ _ => [fport]
  | .peerAckTimeout fport => [fport]
  | .arm fport _ _ _ _ => [fport]
  | .ready fport _ _ => [fport]
  | .refuse fport _ _ _ => [fport]
  | .groupCancel fport _ _ => [fport]
  | .go fport _ _ _ => [fport]
  | .barrier fport _ _ _ _ => [fport]
  | .abortToken fport _ _ _ _ => [fport]
  | .rcpData fport _ _ _ _ _ => [fport]
  | .linkTrain fport _ => [fport]
  | .hello fport _ => [fport]
  | .spdm fport _ => [fport]
  | .ident fport _ _ _ _ _ => [fport]
  | .timeSync fport _ _ _ _ _ _ => [fport]
  | .timeSyncSend fport => [fport]
  | .authBackoffExpiry fport => [fport]
  | .trainingRetry fport => [fport]
  | .keyUpdate fport _ => [fport]
  | .heartbeatTimeout fport => [fport]
  | .laneFault fport _ => [fport]
  | .retrain _ fport => [fport]
  | .codewordRx fport _ _ _ => [fport]
  | .link fport _ => [fport]
  | .creditStall fport _ _ => [fport]
  | .packetRelay fport _ _ => [fport]
  | .read fport _ => [fport]
  | .write fport _ _ => [fport]
  | .tableSlots fport _ => [fport]
  | .probe fport _ => [fport]
  | .probeReply fport _ => [fport]
  | .linkBringupTimeout fport _ => [fport]
  | .fabricSignalLoss fport => [fport]
  | .malformedPacket fport _ => [fport]
  | _ => []

/-- What a well-formed command names lies within the number spaces of the spec. -/
def Statement (i : Instr) : Prop :=
  i.wellFormed = true →
    (∀ n ∈ fnsNamed i, n < 4096) ∧
    (∀ n ∈ ctxsNamed i, n < 1048576) ∧
    (∀ n ∈ slabsNamed i, n < 16777216) ∧
    (∀ n ∈ ringsNamed i, n < 16) ∧
    (∀ n ∈ fportsNamed i, n < 8)

theorem registerWrite (w : Nat) (page : Nat) (off : Nat) (wide : Bool) (value : Word) : Statement (.registerWrite w page off wide value) := by
  simp +contextual [Statement, Instr.wellFormed, fits, fnsNamed, ctxsNamed, slabsNamed, ringsNamed, fportsNamed]

theorem expertUnlock (w : Nat) (page : Nat) (key : Nat) : Statement (.expertUnlock w page key) := by
  simp +contextual [Statement, Instr.wellFormed, fits, fnsNamed, ctxsNamed, slabsNamed, ringsNamed, fportsNamed]

theorem relock (w : Nat) (page : Nat) : Statement (.relock w page) := by
  simp +contextual [Statement, Instr.wellFormed, fits, fnsNamed, ctxsNamed, slabsNamed, ringsNamed, fportsNamed]

theorem unitReset (w : Nat) (page : Nat) : Statement (.unitReset w page) := by
  simp +contextual [Statement, Instr.wellFormed, fits, fnsNamed, ctxsNamed, slabsNamed, ringsNamed, fportsNamed]

theorem unitResetDone (page : Nat) : Statement (.unitResetDone page) := by
  simp [Statement, fnsNamed, ctxsNamed, slabsNamed, ringsNamed, fportsNamed]

theorem unitEnable (w : Nat) (page : Nat) (on : Bool) : Statement (.unitEnable w page on) := by
  simp +contextual [Statement, Instr.wellFormed, fits, fnsNamed, ctxsNamed, slabsNamed, ringsNamed, fportsNamed]

theorem presetWrite (w : Nat) (page : Nat) (value : Word) : Statement (.presetWrite w page value) := by
  simp +contextual [Statement, Instr.wellFormed, fits, fnsNamed, ctxsNamed, slabsNamed, ringsNamed, fportsNamed]

theorem expertWrite (w : Nat) (page : Nat) (off : Nat) (wide : Bool) (value : Word) : Statement (.expertWrite w page off wide value) := by
  simp +contextual [Statement, Instr.wellFormed, fits, fnsNamed, ctxsNamed, slabsNamed, ringsNamed, fportsNamed]

theorem claimWrite (w : Nat) (page : Nat) (value : Nat) : Statement (.claimWrite w page value) := by
  simp +contextual [Statement, Instr.wellFormed, fits, fnsNamed, ctxsNamed, slabsNamed, ringsNamed, fportsNamed]

theorem snap (w : Nat) (page : Nat) : Statement (.snap w page) := by
  simp +contextual [Statement, Instr.wellFormed, fits, fnsNamed, ctxsNamed, slabsNamed, ringsNamed, fportsNamed]

theorem evtPendClear (w : Nat) (page : Nat) (value : Nat) : Statement (.evtPendClear w page value) := by
  simp +contextual [Statement, Instr.wellFormed, fits, fnsNamed, ctxsNamed, slabsNamed, ringsNamed, fportsNamed]

theorem profileWrite (w : Nat) (value : Word) : Statement (.profileWrite w value) := by
  simp +contextual [Statement, Instr.wellFormed, fits, fnsNamed, ctxsNamed, slabsNamed, ringsNamed, fportsNamed]

theorem profileApplied : Statement .profileApplied := by
  simp [Statement, fnsNamed, ctxsNamed, slabsNamed, ringsNamed, fportsNamed]

theorem reserve (r : RingCmd) (ctx : Nat) (slabs : Nat) (tmask : Nat) (f1 : Nat) (f2 : Nat) (f3 : Nat) (b1 : Nat) (b2 : Nat) (b3 : Nat) : Statement (.reserve r ctx slabs tmask f1 f2 f3 b1 b2 b3) := by
  simp +contextual [Statement, Instr.wellFormed, fits, ringOk, fnsNamed, ctxsNamed, slabsNamed, ringsNamed, fportsNamed]

theorem release (r : RingCmd) (ctx : Nat) (dest : Nat) (count : Nat) (f1 : Nat) (f2 : Nat) (f3 : Nat) (b1 : Nat) (b2 : Nat) (b3 : Nat) : Statement (.release r ctx dest count f1 f2 f3 b1 b2 b3) := by
  simp +contextual [Statement, Instr.wellFormed, fits, ringOk, fnsNamed, ctxsNamed, slabsNamed, ringsNamed, fportsNamed]

theorem ctxCreate (w : Nat) (fn : Nat) (key : Nat) : Statement (.ctxCreate w fn key) := by
  simp +contextual [Statement, Instr.wellFormed, fits, fnsNamed, ctxsNamed, slabsNamed, ringsNamed, fportsNamed]

theorem ctxDestroy (w : Nat) (ctx : Nat) : Statement (.ctxDestroy w ctx) := by
  simp +contextual [Statement, Instr.wellFormed, fits, fnsNamed, ctxsNamed, slabsNamed, ringsNamed, fportsNamed]

theorem shareCreate (r : RingCmd) (ctx : Nat) : Statement (.shareCreate r ctx) := by
  simp +contextual [Statement, Instr.wellFormed, fits, ringOk, fnsNamed, ctxsNamed, slabsNamed, ringsNamed, fportsNamed]

theorem shareAddSlabs (r : RingCmd) (ctx : Nat) (group : Nat) (dest : Nat) (count : Nat) : Statement (.shareAddSlabs r ctx group dest count) := by
  simp +contextual [Statement, Instr.wellFormed, fits, ringOk, fnsNamed, ctxsNamed, slabsNamed, ringsNamed, fportsNamed]

theorem shareAddMember (r : RingCmd) (ctx : Nat) (group : Nat) (member : Nat) (right : Nat) : Statement (.shareAddMember r ctx group member right) := by
  simp +contextual [Statement, Instr.wellFormed, fits, ringOk, fnsNamed, ctxsNamed, slabsNamed, ringsNamed, fportsNamed]

theorem shareRemoveMember (r : RingCmd) (ctx : Nat) (group : Nat) (member : Nat) : Statement (.shareRemoveMember r ctx group member) := by
  simp +contextual [Statement, Instr.wellFormed, fits, ringOk, fnsNamed, ctxsNamed, slabsNamed, ringsNamed, fportsNamed]

theorem shareDestroy (r : RingCmd) (ctx : Nat) (group : Nat) : Statement (.shareDestroy r ctx group) := by
  simp +contextual [Statement, Instr.wellFormed, fits, ringOk, fnsNamed, ctxsNamed, slabsNamed, ringsNamed, fportsNamed]

theorem shareLeave (r : RingCmd) (ctx : Nat) (group : Nat) : Statement (.shareLeave r ctx group) := by
  simp +contextual [Statement, Instr.wellFormed, fits, ringOk, fnsNamed, ctxsNamed, slabsNamed, ringsNamed, fportsNamed]

theorem mapWindow (r : RingCmd) (ctx : Nat) (rights : Nat) (aptBase : Nat) (firstSlab : Nat) (length : Nat) : Statement (.mapWindow r ctx rights aptBase firstSlab length) := by
  simp +contextual [Statement, Instr.wellFormed, fits, ringOk, fnsNamed, ctxsNamed, slabsNamed, ringsNamed, fportsNamed]

theorem unmapWindow (r : RingCmd) (ctx : Nat) (window : Nat) : Statement (.unmapWindow r ctx window) := by
  simp +contextual [Statement, Instr.wellFormed, fits, ringOk, fnsNamed, ctxsNamed, slabsNamed, ringsNamed, fportsNamed]

theorem windowDrainEnd (window : Nat) : Statement (.windowDrainEnd window) := by
  simp [Statement, fnsNamed, ctxsNamed, slabsNamed, ringsNamed, fportsNamed]

theorem ldBaseWrite (w : Nat) (n : Nat) (value : Word) : Statement (.ldBaseWrite w n value) := by
  simp +contextual [Statement, Instr.wellFormed, fits, fnsNamed, ctxsNamed, slabsNamed, ringsNamed, fportsNamed]

theorem sealSlabs (r : RingCmd) (ctx : Nat) (dest : Nat) (count : Nat) : Statement (.sealSlabs r ctx dest count) := by
  simp +contextual [Statement, Instr.wellFormed, fits, ringOk, fnsNamed, ctxsNamed, slabsNamed, ringsNamed, fportsNamed]

theorem cxlMemRead (port : Nat) (dpa : Nat) : Statement (.cxlMemRead port dpa) := by
  simp [Statement, fnsNamed, ctxsNamed, slabsNamed, ringsNamed, fportsNamed]

theorem cxlMemWrite (port : Nat) (dpa : Nat) (data : List Byte) : Statement (.cxlMemWrite port dpa data) := by
  simp [Statement, fnsNamed, ctxsNamed, slabsNamed, ringsNamed, fportsNamed]

theorem barRead (fn : Nat) (off : Nat) (len : Nat) (secure : Bool) : Statement (.barRead fn off len secure) := by
  simp +contextual [Statement, Instr.wellFormed, fits, fnsNamed, ctxsNamed, slabsNamed, ringsNamed, fportsNamed]

theorem barWrite (fn : Nat) (off : Nat) (data : List Byte) (secure : Bool) : Statement (.barWrite fn off data secure) := by
  simp +contextual [Statement, Instr.wellFormed, fits, fnsNamed, ctxsNamed, slabsNamed, ringsNamed, fportsNamed]

theorem trayFlush (w : Nat) : Statement (.trayFlush w) := by
  simp +contextual [Statement, Instr.wellFormed, fits, fnsNamed, ctxsNamed, slabsNamed, ringsNamed, fportsNamed]

theorem trayFlushDone : Statement .trayFlushDone := by
  simp [Statement, fnsNamed, ctxsNamed, slabsNamed, ringsNamed, fportsNamed]

theorem compressIn (r : RingCmd) (ctx : Nat) (dest : Nat) (src : Nat) (len : Nat) (fmt : Nat) (mode : Nat) (table : Nat) (scope : Nat) (data : Dma) : Statement (.compressIn r ctx dest src len fmt mode table scope data) := by
  simp +contextual [Statement, Instr.wellFormed, fits, ringOk, fnsNamed, ctxsNamed, slabsNamed, ringsNamed, fportsNamed]

theorem recode (r : RingCmd) (ctx : Nat) (dest : Nat) (len : Nat) (fmt : Nat) (mode : Nat) (table : Nat) (scope : Nat) : Statement (.recode r ctx dest len fmt mode table scope) := by
  simp +contextual [Statement, Instr.wellFormed, fits, ringOk, fnsNamed, ctxsNamed, slabsNamed, ringsNamed, fportsNamed]

theorem passStart : Statement .passStart := by
  simp [Statement, fnsNamed, ctxsNamed, slabsNamed, ringsNamed, fportsNamed]

theorem passHistogramDone : Statement .passHistogramDone := by
  simp [Statement, fnsNamed, ctxsNamed, slabsNamed, ringsNamed, fportsNamed]

theorem tableBuildDone : Statement .tableBuildDone := by
  simp [Statement, fnsNamed, ctxsNamed, slabsNamed, ringsNamed, fportsNamed]

theorem passComplete : Statement .passComplete := by
  simp [Statement, fnsNamed, ctxsNamed, slabsNamed, ringsNamed, fportsNamed]

theorem retire (w : Nat) (id : Nat) : Statement (.retire w id) := by
  simp +contextual [Statement, Instr.wellFormed, fits, fnsNamed, ctxsNamed, slabsNamed, ringsNamed, fportsNamed]

theorem tableRetireAck (fport : Nat) (id : Nat) (epoch : Nat) : Statement (.tableRetireAck fport id epoch) := by
  simp +contextual [Statement, Instr.wellFormed, fits, fnsNamed, ctxsNamed, slabsNamed, ringsNamed, fportsNamed]

theorem peerAckTimeout (fport : Nat) : Statement (.peerAckTimeout fport) := by
  simp +contextual [Statement, Instr.wellFormed, fits, fnsNamed, ctxsNamed, slabsNamed, ringsNamed, fportsNamed]

theorem bgRecodeWalk : Statement .bgRecodeWalk := by
  simp [Statement, fnsNamed, ctxsNamed, slabsNamed, ringsNamed, fportsNamed]

theorem decayTick : Statement .decayTick := by
  simp [Statement, fnsNamed, ctxsNamed, slabsNamed, ringsNamed, fportsNamed]

theorem touchMapSwap : Statement .touchMapSwap := by
  simp [Statement, fnsNamed, ctxsNamed, slabsNamed, ringsNamed, fportsNamed]

theorem policyPeriod : Statement .policyPeriod := by
  simp [Statement, fnsNamed, ctxsNamed, slabsNamed, ringsNamed, fportsNamed]

theorem hint (r : RingCmd) (ctx : Nat) (dest : Nat) (count : Nat) (action : Nat) (target : Nat) : Statement (.hint r ctx dest count action target) := by
  simp +contextual [Statement, Instr.wellFormed, fits, ringOk, fnsNamed, ctxsNamed, slabsNamed, ringsNamed, fportsNamed]

theorem hintTmask (r : RingCmd) (ctx : Nat) (dest : Nat) (count : Nat) (tmask : Nat) : Statement (.hintTmask r ctx dest count tmask) := by
  simp +contextual [Statement, Instr.wellFormed, fits, ringOk, fnsNamed, ctxsNamed, slabsNamed, ringsNamed, fportsNamed]

theorem moveStart (slab : Nat) : Statement (.moveStart slab) := by
  simp +contextual [Statement, Instr.wellFormed, fits, fnsNamed, ctxsNamed, slabsNamed, ringsNamed, fportsNamed]

theorem copyPassDone (slab : Nat) : Statement (.copyPassDone slab) := by
  simp +contextual [Statement, Instr.wellFormed, fits, fnsNamed, ctxsNamed, slabsNamed, ringsNamed, fportsNamed]

theorem moveFlip (slab : Nat) : Statement (.moveFlip slab) := by
  simp +contextual [Statement, Instr.wellFormed, fits, fnsNamed, ctxsNamed, slabsNamed, ringsNamed, fportsNamed]

theorem holdTimeout (slab : Nat) : Statement (.holdTimeout slab) := by
  simp +contextual [Statement, Instr.wellFormed, fits, fnsNamed, ctxsNamed, slabsNamed, ringsNamed, fportsNamed]

theorem oldFrameRelease (slab : Nat) : Statement (.oldFrameRelease slab) := by
  simp +contextual [Statement, Instr.wellFormed, fits, fnsNamed, ctxsNamed, slabsNamed, ringsNamed, fportsNamed]

theorem poolDwellExpiry (slab : Nat) : Statement (.poolDwellExpiry slab) := by
  simp +contextual [Statement, Instr.wellFormed, fits, fnsNamed, ctxsNamed, slabsNamed, ringsNamed, fportsNamed]

theorem mgeGuaranteeWrite (w : Nat) (value : Word) : Statement (.mgeGuaranteeWrite w value) := by
  simp +contextual [Statement, Instr.wellFormed, fits, fnsNamed, ctxsNamed, slabsNamed, ringsNamed, fportsNamed]

theorem flashMountDone (report : FlashReport) : Statement (.flashMountDone report) := by
  simp [Statement, fnsNamed, ctxsNamed, slabsNamed, ringsNamed, fportsNamed]

theorem flashProgramDone (slab : Nat) : Statement (.flashProgramDone slab) := by
  simp +contextual [Statement, Instr.wellFormed, fits, fnsNamed, ctxsNamed, slabsNamed, ringsNamed, fportsNamed]

theorem programFailure (slab : Nat) (channel : Nat) (sb : Nat) : Statement (.programFailure slab channel sb) := by
  simp +contextual [Statement, Instr.wellFormed, fits, fnsNamed, ctxsNamed, slabsNamed, ringsNamed, fportsNamed]

theorem eraseFailure (group : Nat) (channel : Nat) (block : Nat) : Statement (.eraseFailure group channel block) := by
  simp [Statement, fnsNamed, ctxsNamed, slabsNamed, ringsNamed, fportsNamed]

theorem gcRelocate (group : Nat) : Statement (.gcRelocate group) := by
  simp [Statement, fnsNamed, ctxsNamed, slabsNamed, ringsNamed, fportsNamed]

theorem dieRetire (loss : DieLoss) : Statement (.dieRetire loss) := by
  simp [Statement, fnsNamed, ctxsNamed, slabsNamed, ringsNamed, fportsNamed]

theorem retryStepDone (slab : Nat) (block : Nat) (ok : Bool) : Statement (.retryStepDone slab block ok) := by
  simp +contextual [Statement, Instr.wellFormed, fits, fnsNamed, ctxsNamed, slabsNamed, ringsNamed, fportsNamed]

theorem rebuildDone (slab : Nat) (block : Nat) (ok : Bool) : Statement (.rebuildDone slab block ok) := by
  simp +contextual [Statement, Instr.wellFormed, fits, fnsNamed, ctxsNamed, slabsNamed, ringsNamed, fportsNamed]

theorem cxlFlashDeadline (port : Nat) (dpa : Nat) : Statement (.cxlFlashDeadline port dpa) := by
  simp [Statement, fnsNamed, ctxsNamed, slabsNamed, ringsNamed, fportsNamed]

theorem controllerIssue (chan : Nat) (arrivals : List DramReq) : Statement (.controllerIssue chan arrivals) := by
  simp [Statement, fnsNamed, ctxsNamed, slabsNamed, ringsNamed, fportsNamed]

theorem agePromote (chan : Nat) (id : Nat) : Statement (.agePromote chan id) := by
  simp [Statement, fnsNamed, ctxsNamed, slabsNamed, ringsNamed, fportsNamed]

theorem panicRaise (ctrl : Nat) (fill : Nat) : Statement (.panicRaise ctrl fill) := by
  simp [Statement, fnsNamed, ctxsNamed, slabsNamed, ringsNamed, fportsNamed]

theorem panicClear (ctrl : Nat) (fill : Nat) : Statement (.panicClear ctrl fill) := by
  simp [Statement, fnsNamed, ctxsNamed, slabsNamed, ringsNamed, fportsNamed]

theorem refreshInterval (chan : Nat) (rank : Nat) : Statement (.refreshInterval chan rank) := by
  simp [Statement, fnsNamed, ctxsNamed, slabsNamed, ringsNamed, fportsNamed]

theorem refreshIssue (chan : Nat) (rank : Nat) : Statement (.refreshIssue chan rank) := by
  simp [Statement, fnsNamed, ctxsNamed, slabsNamed, ringsNamed, fportsNamed]

theorem rangeReading (ctrl : Nat) (readings : List Nat) : Statement (.rangeReading ctrl readings) := by
  simp [Statement, fnsNamed, ctxsNamed, slabsNamed, ringsNamed, fportsNamed]

theorem srEntry (chan : Nat) : Statement (.srEntry chan) := by
  simp [Statement, fnsNamed, ctxsNamed, slabsNamed, ringsNamed, fportsNamed]

theorem srExit (chan : Nat) : Statement (.srExit chan) := by
  simp [Statement, fnsNamed, ctxsNamed, slabsNamed, ringsNamed, fportsNamed]

theorem hashMaskWrite (w : Nat) (page : Nat) (off : Nat) (value : Word) : Statement (.hashMaskWrite w page off value) := by
  simp +contextual [Statement, Instr.wellFormed, fits, fnsNamed, ctxsNamed, slabsNamed, ringsNamed, fportsNamed]

theorem channelLost (chan : Nat) : Statement (.channelLost chan) := by
  simp [Statement, fnsNamed, ctxsNamed, slabsNamed, ringsNamed, fportsNamed]

theorem icingBlock (read : IcingRead) : Statement (.icingBlock read) := by
  simp [Statement, fnsNamed, ctxsNamed, slabsNamed, ringsNamed, fportsNamed]

theorem iceDeferExpiry (chan : Nat) (id : Nat) : Statement (.iceDeferExpiry chan id) := by
  simp [Statement, fnsNamed, ctxsNamed, slabsNamed, ringsNamed, fportsNamed]

theorem toffeeRewrite (word : Nat) (again : Bool) (sppr : Bool) (remap : Bool) : Statement (.toffeeRewrite word again sppr remap) := by
  simp [Statement, fnsNamed, ctxsNamed, slabsNamed, ringsNamed, fportsNamed]

theorem toffeeExpire (word : Nat) : Statement (.toffeeExpire word) := by
  simp [Statement, fnsNamed, ctxsNamed, slabsNamed, ringsNamed, fportsNamed]

theorem iceInject (w : Nat) (value : Word) : Statement (.iceInject w value) := by
  simp +contextual [Statement, Instr.wellFormed, fits, fnsNamed, ctxsNamed, slabsNamed, ringsNamed, fportsNamed]

theorem refsRecountDone : Statement .refsRecountDone := by
  simp [Statement, fnsNamed, ctxsNamed, slabsNamed, ringsNamed, fportsNamed]

theorem cvuJobStart (w : Nat) (n : Nat) (value : Word) : Statement (.cvuJobStart w n value) := by
  simp +contextual [Statement, Instr.wellFormed, fits, fnsNamed, ctxsNamed, slabsNamed, ringsNamed, fportsNamed]

theorem cvuDataWrite (w : Nat) (n : Nat) (data : Word) : Statement (.cvuDataWrite w n data) := by
  simp +contextual [Statement, Instr.wellFormed, fits, fnsNamed, ctxsNamed, slabsNamed, ringsNamed, fportsNamed]

theorem cvuJobFinish (w : Nat) (n : Nat) (value : Word) : Statement (.cvuJobFinish w n value) := by
  simp +contextual [Statement, Instr.wellFormed, fits, fnsNamed, ctxsNamed, slabsNamed, ringsNamed, fportsNamed]

theorem cvuJobDone (n : Nat) : Statement (.cvuJobDone n) := by
  simp [Statement, fnsNamed, ctxsNamed, slabsNamed, ringsNamed, fportsNamed]

theorem check (r : RingCmd) (ctx : Nat) (preset : Nat) (mode : Nat) (flags : Nat) (width : Nat) (addr : Nat) (result : Nat) (length : Nat) (poly : Word) (init : Word) : Statement (.check r ctx preset mode flags width addr result length poly init) := by
  simp +contextual [Statement, Instr.wellFormed, fits, ringOk, fnsNamed, ctxsNamed, slabsNamed, ringsNamed, fportsNamed]

theorem bwrWindow (traffic : Traffic) : Statement (.bwrWindow traffic) := by
  simp [Statement, fnsNamed, ctxsNamed, slabsNamed, ringsNamed, fportsNamed]

theorem paceSample (r : PaceReading) : Statement (.paceSample r) := by
  simp [Statement, fnsNamed, ctxsNamed, slabsNamed, ringsNamed, fportsNamed]

theorem paceShortfall : Statement .paceShortfall := by
  simp [Statement, fnsNamed, ctxsNamed, slabsNamed, ringsNamed, fportsNamed]

theorem voltageStep : Statement .voltageStep := by
  simp [Statement, fnsNamed, ctxsNamed, slabsNamed, ringsNamed, fportsNamed]

theorem powerSample (r : PowerReading) : Statement (.powerSample r) := by
  simp [Statement, fnsNamed, ctxsNamed, slabsNamed, ringsNamed, fportsNamed]

theorem thermalCheck (tj : Nat) (sensor : Nat) (stackMax : Nat) : Statement (.thermalCheck tj sensor stackMax) := by
  simp [Statement, fnsNamed, ctxsNamed, slabsNamed, ringsNamed, fportsNamed]

theorem ceilingStep : Statement .ceilingStep := by
  simp [Statement, fnsNamed, ctxsNamed, slabsNamed, ringsNamed, fportsNamed]

theorem thermalTrip : Statement .thermalTrip := by
  simp [Statement, fnsNamed, ctxsNamed, slabsNamed, ringsNamed, fportsNamed]

theorem comparatorFire (n : Nat) : Statement (.comparatorFire n) := by
  simp [Statement, fnsNamed, ctxsNamed, slabsNamed, ringsNamed, fportsNamed]

theorem gemm : Statement .gemm := by
  simp [Statement, fnsNamed, ctxsNamed, slabsNamed, ringsNamed, fportsNamed]

theorem bdot : Statement .bdot := by
  simp [Statement, fnsNamed, ctxsNamed, slabsNamed, ringsNamed, fportsNamed]

theorem swsum : Statement .swsum := by
  simp [Statement, fnsNamed, ctxsNamed, slabsNamed, ringsNamed, fportsNamed]

theorem topk : Statement .topk := by
  simp [Statement, fnsNamed, ctxsNamed, slabsNamed, ringsNamed, fportsNamed]

theorem reduce : Statement .reduce := by
  simp [Statement, fnsNamed, ctxsNamed, slabsNamed, ringsNamed, fportsNamed]

theorem update : Statement .update := by
  simp [Statement, fnsNamed, ctxsNamed, slabsNamed, ringsNamed, fportsNamed]

theorem encode : Statement .encode := by
  simp [Statement, fnsNamed, ctxsNamed, slabsNamed, ringsNamed, fportsNamed]

theorem stepComplete : Statement .stepComplete := by
  simp [Statement, fnsNamed, ctxsNamed, slabsNamed, ringsNamed, fportsNamed]

theorem stepDeadline (held : Nat) : Statement (.stepDeadline held) := by
  simp [Statement, fnsNamed, ctxsNamed, slabsNamed, ringsNamed, fportsNamed]

theorem handshakeTimeout (row : Nat) (col : Nat) : Statement (.handshakeTimeout row col) := by
  simp [Statement, fnsNamed, ctxsNamed, slabsNamed, ringsNamed, fportsNamed]

theorem stepFault (cause : Nat) (row : Nat) (col : Nat) : Statement (.stepFault cause row col) := by
  simp [Statement, fnsNamed, ctxsNamed, slabsNamed, ringsNamed, fportsNamed]

theorem rowRemap : Statement .rowRemap := by
  simp [Statement, fnsNamed, ctxsNamed, slabsNamed, ringsNamed, fportsNamed]

theorem tileStoreZeroDone : Statement .tileStoreZeroDone := by
  simp [Statement, fnsNamed, ctxsNamed, slabsNamed, ringsNamed, fportsNamed]

theorem tileTest (w : Nat) (value : Word) : Statement (.tileTest w value) := by
  simp +contextual [Statement, Instr.wellFormed, fits, fnsNamed, ctxsNamed, slabsNamed, ringsNamed, fportsNamed]

theorem loadRecipe (r : RingCmd) (ctx : Nat) (notify : Nat) (imageAddr : Nat) (imageBytes : Nat) (bindAddr : Nat) (tag : Nat) (data : RecipeData) : Statement (.loadRecipe r ctx notify imageAddr imageBytes bindAddr tag data) := by
  simp +contextual [Statement, Instr.wellFormed, fits, ringOk, fnsNamed, ctxsNamed, slabsNamed, ringsNamed, fportsNamed]

theorem run (r : RingCmd) (ctx : Nat) (handle : Nat) (fromStep : Nat) (startNs : Nat) : Statement (.run r ctx handle fromStep startNs) := by
  simp +contextual [Statement, Instr.wellFormed, fits, ringOk, fnsNamed, ctxsNamed, slabsNamed, ringsNamed, fportsNamed]

theorem abortStop (r : RingCmd) (ctx : Nat) (handle : Nat) (mode : Nat) : Statement (.abortStop r ctx handle mode) := by
  simp +contextual [Statement, Instr.wellFormed, fits, ringOk, fnsNamed, ctxsNamed, slabsNamed, ringsNamed, fportsNamed]

theorem abortUnload (r : RingCmd) (ctx : Nat) (handle : Nat) : Statement (.abortUnload r ctx handle) := by
  simp +contextual [Statement, Instr.wellFormed, fits, ringOk, fnsNamed, ctxsNamed, slabsNamed, ringsNamed, fportsNamed]

theorem arm (fport : Nat) (src : Nat) (group : Nat) (leadId : Nat) (fromStep : Nat) : Statement (.arm fport src group leadId fromStep) := by
  simp +contextual [Statement, Instr.wellFormed, fits, fnsNamed, ctxsNamed, slabsNamed, ringsNamed, fportsNamed]

theorem ready (fport : Nat) (src : Nat) (group : Nat) : Statement (.ready fport src group) := by
  simp +contextual [Statement, Instr.wellFormed, fits, fnsNamed, ctxsNamed, slabsNamed, ringsNamed, fportsNamed]

theorem refuse (fport : Nat) (src : Nat) (group : Nat) (status : Nat) : Statement (.refuse fport src group status) := by
  simp +contextual [Statement, Instr.wellFormed, fits, fnsNamed, ctxsNamed, slabsNamed, ringsNamed, fportsNamed]

theorem groupCancel (fport : Nat) (src : Nat) (group : Nat) : Statement (.groupCancel fport src group) := by
  simp +contextual [Statement, Instr.wellFormed, fits, fnsNamed, ctxsNamed, slabsNamed, ringsNamed, fportsNamed]

theorem go (fport : Nat) (src : Nat) (group : Nat) (t0 : Nat) : Statement (.go fport src group t0) := by
  simp +contextual [Statement, Instr.wellFormed, fits, fnsNamed, ctxsNamed, slabsNamed, ringsNamed, fportsNamed]

theorem readyTimeout : Statement .readyTimeout := by
  simp [Statement, fnsNamed, ctxsNamed, slabsNamed, ringsNamed, fportsNamed]

theorem barrier (fport : Nat) (src : Nat) (group : Nat) (step : Nat) (delta : Nat) : Statement (.barrier fport src group step delta) := by
  simp +contextual [Statement, Instr.wellFormed, fits, fnsNamed, ctxsNamed, slabsNamed, ringsNamed, fportsNamed]

theorem abortToken (fport : Nat) (src : Nat) (group : Nat) (step : Nat) (outcome : Nat) : Statement (.abortToken fport src group step outcome) := by
  simp +contextual [Statement, Instr.wellFormed, fits, fnsNamed, ctxsNamed, slabsNamed, ringsNamed, fportsNamed]

theorem peerTimeout (dev : Nat) : Statement (.peerTimeout dev) := by
  simp [Statement, fnsNamed, ctxsNamed, slabsNamed, ringsNamed, fportsNamed]

theorem rcpData (fport : Nat) (src : Nat) (group : Nat) (step : Nat) (delta : Nat) (data : List Byte) : Statement (.rcpData fport src group step delta data) := by
  simp +contextual [Statement, Instr.wellFormed, fits, fnsNamed, ctxsNamed, slabsNamed, ringsNamed, fportsNamed]

theorem linkTrain (fport : Nat) (lanes : Nat) : Statement (.linkTrain fport lanes) := by
  simp +contextual [Statement, Instr.wellFormed, fits, fnsNamed, ctxsNamed, slabsNamed, ringsNamed, fportsNamed]

theorem hello (fport : Nat) (nonce : Nat) : Statement (.hello fport nonce) := by
  simp +contextual [Statement, Instr.wellFormed, fits, fnsNamed, ctxsNamed, slabsNamed, ringsNamed, fportsNamed]

theorem spdm (fport : Nat) (msg : SpdmMsg) : Statement (.spdm fport msg) := by
  simp +contextual [Statement, Instr.wellFormed, fits, fnsNamed, ctxsNamed, slabsNamed, ringsNamed, fportsNamed]

theorem ident (fport : Nat) (dev : Nat) (accelerator : Bool) (decode : Bool) (rootEligible : Bool) (slots : Nat) : Statement (.ident fport dev accelerator decode rootEligible slots) := by
  simp +contextual [Statement, Instr.wellFormed, fits, fnsNamed, ctxsNamed, slabsNamed, ringsNamed, fportsNamed]

theorem timeSync (fport : Nat) (t1 : Nat) (t2 : Nat) (t3 : Nat) (t4 : Nat) (rootId : Nat) (hops : Nat) : Statement (.timeSync fport t1 t2 t3 t4 rootId hops) := by
  simp +contextual [Statement, Instr.wellFormed, fits, fnsNamed, ctxsNamed, slabsNamed, ringsNamed, fportsNamed]

theorem timeSyncSend (fport : Nat) : Statement (.timeSyncSend fport) := by
  simp +contextual [Statement, Instr.wellFormed, fits, fnsNamed, ctxsNamed, slabsNamed, ringsNamed, fportsNamed]

theorem holdoverExpiry : Statement .holdoverExpiry := by
  simp [Statement, fnsNamed, ctxsNamed, slabsNamed, ringsNamed, fportsNamed]

theorem authBackoffExpiry (fport : Nat) : Statement (.authBackoffExpiry fport) := by
  simp +contextual [Statement, Instr.wellFormed, fits, fnsNamed, ctxsNamed, slabsNamed, ringsNamed, fportsNamed]

theorem trainingRetry (fport : Nat) : Statement (.trainingRetry fport) := by
  simp +contextual [Statement, Instr.wellFormed, fits, fnsNamed, ctxsNamed, slabsNamed, ringsNamed, fportsNamed]

theorem keyUpdate (fport : Nat) (receive : Bool) : Statement (.keyUpdate fport receive) := by
  simp +contextual [Statement, Instr.wellFormed, fits, fnsNamed, ctxsNamed, slabsNamed, ringsNamed, fportsNamed]

theorem heartbeatTimeout (fport : Nat) : Statement (.heartbeatTimeout fport) := by
  simp +contextual [Statement, Instr.wellFormed, fits, fnsNamed, ctxsNamed, slabsNamed, ringsNamed, fportsNamed]

theorem laneFault (fport : Nat) (lane : Nat) : Statement (.laneFault fport lane) := by
  simp +contextual [Statement, Instr.wellFormed, fits, fnsNamed, ctxsNamed, slabsNamed, ringsNamed, fportsNamed]

theorem retrain (w : Nat) (fport : Nat) : Statement (.retrain w fport) := by
  simp +contextual [Statement, Instr.wellFormed, fits, fnsNamed, ctxsNamed, slabsNamed, ringsNamed, fportsNamed]

theorem codewordRx (fport : Nat) (seq : Nat) (good : Bool) (fill : Bool) : Statement (.codewordRx fport seq good fill) := by
  simp +contextual [Statement, Instr.wellFormed, fits, fnsNamed, ctxsNamed, slabsNamed, ringsNamed, fportsNamed]

theorem link (fport : Nat) (msg : LinkMsg) : Statement (.link fport msg) := by
  simp +contextual [Statement, Instr.wellFormed, fits, fnsNamed, ctxsNamed, slabsNamed, ringsNamed, fportsNamed]

theorem creditStall (fport : Nat) (cls : Nat) (vl : Nat) : Statement (.creditStall fport cls vl) := by
  simp +contextual [Statement, Instr.wellFormed, fits, fnsNamed, ctxsNamed, slabsNamed, ringsNamed, fportsNamed]

theorem packetRelay (fport : Nat) (p : Pkt) (data : List Byte) : Statement (.packetRelay fport p data) := by
  simp +contextual [Statement, Instr.wellFormed, fits, fnsNamed, ctxsNamed, slabsNamed, ringsNamed, fportsNamed]

theorem read (fport : Nat) (p : Pkt) : Statement (.read fport p) := by
  simp +contextual [Statement, Instr.wellFormed, fits, fnsNamed, ctxsNamed, slabsNamed, ringsNamed, fportsNamed]

theorem write (fport : Nat) (p : Pkt) (data : List Byte) : Statement (.write fport p data) := by
  simp +contextual [Statement, Instr.wellFormed, fits, fnsNamed, ctxsNamed, slabsNamed, ringsNamed, fportsNamed]

theorem tableSlots (fport : Nat) (slots : Nat) : Statement (.tableSlots fport slots) := by
  simp +contextual [Statement, Instr.wellFormed, fits, fnsNamed, ctxsNamed, slabsNamed, ringsNamed, fportsNamed]

theorem probe (fport : Nat) (p : Pkt) : Statement (.probe fport p) := by
  simp +contextual [Statement, Instr.wellFormed, fits, fnsNamed, ctxsNamed, slabsNamed, ringsNamed, fportsNamed]

theorem probeReply (fport : Nat) (p : Pkt) : Statement (.probeReply fport p) := by
  simp +contextual [Statement, Instr.wellFormed, fits, fnsNamed, ctxsNamed, slabsNamed, ringsNamed, fportsNamed]

theorem probeSend (dev : Nat) : Statement (.probeSend dev) := by
  simp [Statement, fnsNamed, ctxsNamed, slabsNamed, ringsNamed, fportsNamed]

theorem grantCreate (w : Nat) (index : Nat) : Statement (.grantCreate w index) := by
  simp +contextual [Statement, Instr.wellFormed, fits, fnsNamed, ctxsNamed, slabsNamed, ringsNamed, fportsNamed]

theorem grantDestroy (w : Nat) (index : Nat) : Statement (.grantDestroy w index) := by
  simp +contextual [Statement, Instr.wellFormed, fits, fnsNamed, ctxsNamed, slabsNamed, ringsNamed, fportsNamed]

theorem ftbIdentityWrite (w : Nat) (value : Word) : Statement (.ftbIdentityWrite w value) := by
  simp +contextual [Statement, Instr.wellFormed, fits, fnsNamed, ctxsNamed, slabsNamed, ringsNamed, fportsNamed]

theorem grantDrainEnd (index : Nat) : Statement (.grantDrainEnd index) := by
  simp [Statement, fnsNamed, ctxsNamed, slabsNamed, ringsNamed, fportsNamed]

theorem linkBringupTimeout (fport : Nat) (step : Nat) : Statement (.linkBringupTimeout fport step) := by
  simp +contextual [Statement, Instr.wellFormed, fits, fnsNamed, ctxsNamed, slabsNamed, ringsNamed, fportsNamed]

theorem fabricSignalLoss (fport : Nat) : Statement (.fabricSignalLoss fport) := by
  simp +contextual [Statement, Instr.wellFormed, fits, fnsNamed, ctxsNamed, slabsNamed, ringsNamed, fportsNamed]

theorem malformedPacket (fport : Nat) (kind : BadPkt) : Statement (.malformedPacket fport kind) := by
  simp +contextual [Statement, Instr.wellFormed, fits, fnsNamed, ctxsNamed, slabsNamed, ringsNamed, fportsNamed]

theorem configRequest (fn : Nat) (req : CfgReq) : Statement (.configRequest fn req) := by
  simp +contextual [Statement, Instr.wellFormed, fits, fnsNamed, ctxsNamed, slabsNamed, ringsNamed, fportsNamed]

theorem doorbell (fn : Nat) (ring : Nat) (tail : Nat) : Statement (.doorbell fn ring tail) := by
  simp +contextual [Statement, Instr.wellFormed, fits, fnsNamed, ctxsNamed, slabsNamed, ringsNamed, fportsNamed]

theorem commandFetch (fn : Nat) (ring : Nat) (res : FetchResult) : Statement (.commandFetch fn ring res) := by
  simp +contextual [Statement, Instr.wellFormed, fits, fnsNamed, ctxsNamed, slabsNamed, ringsNamed, fportsNamed]

theorem cqHeadWrite (fn : Nat) (ring : Nat) (head : Nat) : Statement (.cqHeadWrite fn ring head) := by
  simp +contextual [Statement, Instr.wellFormed, fits, fnsNamed, ctxsNamed, slabsNamed, ringsNamed, fportsNamed]

theorem ringEnable (fn : Nat) (ring : Nat) (cfg : Word) : Statement (.ringEnable fn ring cfg) := by
  simp +contextual [Statement, Instr.wellFormed, fits, fnsNamed, ctxsNamed, slabsNamed, ringsNamed, fportsNamed]

theorem ringDisable (fn : Nat) (ring : Nat) (cfg : Word) : Statement (.ringDisable fn ring cfg) := by
  simp +contextual [Statement, Instr.wellFormed, fits, fnsNamed, ctxsNamed, slabsNamed, ringsNamed, fportsNamed]

theorem evtRingEnable (fn : Nat) (cfg : Word) : Statement (.evtRingEnable fn cfg) := by
  simp +contextual [Statement, Instr.wellFormed, fits, fnsNamed, ctxsNamed, slabsNamed, ringsNamed, fportsNamed]

theorem query (r : RingCmd) (ctx : Nat) (kind : Nat) (addr : Nat) (result : Nat) : Statement (.query r ctx kind addr result) := by
  simp +contextual [Statement, Instr.wellFormed, fits, ringOk, fnsNamed, ctxsNamed, slabsNamed, ringsNamed, fportsNamed]

theorem intDelayExpiry (fn : Nat) (ring : Nat) : Statement (.intDelayExpiry fn ring) := by
  simp +contextual [Statement, Instr.wellFormed, fits, fnsNamed, ctxsNamed, slabsNamed, ringsNamed, fportsNamed]

theorem dmaCompletion (port : Nat) (tag : Nat) (kind : CplKind) : Statement (.dmaCompletion port tag kind) := by
  simp [Statement, fnsNamed, ctxsNamed, slabsNamed, ringsNamed, fportsNamed]

theorem completionTimeout (port : Nat) (tag : Nat) : Statement (.completionTimeout port tag) := by
  simp [Statement, fnsNamed, ctxsNamed, slabsNamed, ringsNamed, fportsNamed]

theorem tagQuarantineEnd (port : Nat) (tag : Nat) : Statement (.tagQuarantineEnd port tag) := by
  simp [Statement, fnsNamed, ctxsNamed, slabsNamed, ringsNamed, fportsNamed]

theorem bmeClear (fn : Nat) : Statement (.bmeClear fn) := by
  simp +contextual [Statement, Instr.wellFormed, fits, fnsNamed, ctxsNamed, slabsNamed, ringsNamed, fportsNamed]

theorem vfEnableClear (port : Nat) : Statement (.vfEnableClear port) := by
  simp [Statement, fnsNamed, ctxsNamed, slabsNamed, ringsNamed, fportsNamed]

theorem flr (fn : Nat) : Statement (.flr fn) := by
  simp +contextual [Statement, Instr.wellFormed, fits, fnsNamed, ctxsNamed, slabsNamed, ringsNamed, fportsNamed]

theorem ideFailure (port : Nat) (stream : Nat) : Statement (.ideFailure port stream) := by
  simp [Statement, fnsNamed, ctxsNamed, slabsNamed, ringsNamed, fportsNamed]

theorem tdispRequest (fn : Nat) (req : TdispReq) : Statement (.tdispRequest fn req) := by
  simp +contextual [Statement, Instr.wellFormed, fits, fnsNamed, ctxsNamed, slabsNamed, ringsNamed, fportsNamed]

theorem cxlMailboxCommand (port : Nat) (cmd : Mailbox) : Statement (.cxlMailboxCommand port cmd) := by
  simp [Statement, fnsNamed, ctxsNamed, slabsNamed, ringsNamed, fportsNamed]

theorem spdmDoe (fn : Nat) (req : DoeReq) : Statement (.spdmDoe fn req) := by
  simp +contextual [Statement, Instr.wellFormed, fits, fnsNamed, ctxsNamed, slabsNamed, ringsNamed, fportsNamed]

theorem eventRoute : Statement .eventRoute := by
  simp [Statement, fnsNamed, ctxsNamed, slabsNamed, ringsNamed, fportsNamed]

theorem unitHang (page : Nat) (recovered : Bool) : Statement (.unitHang page recovered) := by
  simp [Statement, fnsNamed, ctxsNamed, slabsNamed, ringsNamed, fportsNamed]

theorem coreWatchdog (core : Nat) (cause : Nat) : Statement (.coreWatchdog core cause) := by
  simp [Statement, fnsNamed, ctxsNamed, slabsNamed, ringsNamed, fportsNamed]

theorem coreRestartDone (core : Nat) (reissued : Nat) : Statement (.coreRestartDone core reissued) := by
  simp [Statement, fnsNamed, ctxsNamed, slabsNamed, ringsNamed, fportsNamed]

theorem fatalTrigger (cause : Nat) : Statement (.fatalTrigger cause) := by
  simp [Statement, fnsNamed, ctxsNamed, slabsNamed, ringsNamed, fportsNamed]

theorem sssResetReq (w : Nat) (code : Nat) : Statement (.sssResetReq w code) := by
  simp +contextual [Statement, Instr.wellFormed, fits, fnsNamed, ctxsNamed, slabsNamed, ringsNamed, fportsNamed]

theorem sssForce (w : Nat) (value : Nat) : Statement (.sssForce w value) := by
  simp +contextual [Statement, Instr.wellFormed, fits, fnsNamed, ctxsNamed, slabsNamed, ringsNamed, fportsNamed]

theorem fwStage (w : Nat) : Statement (.fwStage w) := by
  simp +contextual [Statement, Instr.wellFormed, fits, fnsNamed, ctxsNamed, slabsNamed, ringsNamed, fportsNamed]

theorem fwStageDone (data : FwData) : Statement (.fwStageDone data) := by
  simp [Statement, fnsNamed, ctxsNamed, slabsNamed, ringsNamed, fportsNamed]

theorem fwSelect (w : Nat) : Statement (.fwSelect w) := by
  simp +contextual [Statement, Instr.wellFormed, fits, fnsNamed, ctxsNamed, slabsNamed, ringsNamed, fportsNamed]

theorem fwCommit (w : Nat) : Statement (.fwCommit w) := by
  simp +contextual [Statement, Instr.wellFormed, fits, fnsNamed, ctxsNamed, slabsNamed, ringsNamed, fportsNamed]

theorem fwTrialTimeout : Statement .fwTrialTimeout := by
  simp [Statement, fnsNamed, ctxsNamed, slabsNamed, ringsNamed, fportsNamed]

theorem lccSubmit (w : Nat) : Statement (.lccSubmit w) := by
  simp +contextual [Statement, Instr.wellFormed, fits, fnsNamed, ctxsNamed, slabsNamed, ringsNamed, fportsNamed]

theorem lccTokenChecked (tokens : Dma) : Statement (.lccTokenChecked tokens) := by
  simp [Statement, fnsNamed, ctxsNamed, slabsNamed, ringsNamed, fportsNamed]

theorem lccCancel (w : Nat) : Statement (.lccCancel w) := by
  simp +contextual [Statement, Instr.wellFormed, fits, fnsNamed, ctxsNamed, slabsNamed, ringsNamed, fportsNamed]

theorem lifecycleWipeDone (bad1 : List Nat) (bad2 : List Nat) : Statement (.lifecycleWipeDone bad1 bad2) := by
  simp [Statement, fnsNamed, ctxsNamed, slabsNamed, ringsNamed, fportsNamed]

theorem keyAlloc (w : Nat) : Statement (.keyAlloc w) := by
  simp +contextual [Statement, Instr.wellFormed, fits, fnsNamed, ctxsNamed, slabsNamed, ringsNamed, fportsNamed]

theorem keyImport (w : Nat) (slot : Nat) (blob : Dma) : Statement (.keyImport w slot blob) := by
  simp +contextual [Statement, Instr.wellFormed, fits, fnsNamed, ctxsNamed, slabsNamed, ringsNamed, fportsNamed]

theorem keyDestroy (w : Nat) (slot : Nat) : Statement (.keyDestroy w slot) := by
  simp +contextual [Statement, Instr.wellFormed, fits, fnsNamed, ctxsNamed, slabsNamed, ringsNamed, fportsNamed]

theorem keyDestroyDone (slot : Nat) : Statement (.keyDestroyDone slot) := by
  simp [Statement, fnsNamed, ctxsNamed, slabsNamed, ringsNamed, fportsNamed]

theorem trustStage (w : Nat) (image : Dma) : Statement (.trustStage w image) := by
  simp +contextual [Statement, Instr.wellFormed, fits, fnsNamed, ctxsNamed, slabsNamed, ringsNamed, fportsNamed]

theorem trustCommit (w : Nat) : Statement (.trustCommit w) := by
  simp +contextual [Statement, Instr.wellFormed, fits, fnsNamed, ctxsNamed, slabsNamed, ringsNamed, fportsNamed]

theorem grantNonceRead (w : Nat) : Statement (.grantNonceRead w) := by
  simp +contextual [Statement, Instr.wellFormed, fits, fnsNamed, ctxsNamed, slabsNamed, ringsNamed, fportsNamed]

theorem debugGrantSubmit (w : Nat) (addr : Nat) (grant : Dma) : Statement (.debugGrantSubmit w addr grant) := by
  simp +contextual [Statement, Instr.wellFormed, fits, fnsNamed, ctxsNamed, slabsNamed, ringsNamed, fportsNamed]

theorem debugGrantRevoke (w : Nat) : Statement (.debugGrantRevoke w) := by
  simp +contextual [Statement, Instr.wellFormed, fits, fnsNamed, ctxsNamed, slabsNamed, ringsNamed, fportsNamed]

theorem debugGrantExpiry : Statement .debugGrantExpiry := by
  simp [Statement, fnsNamed, ctxsNamed, slabsNamed, ringsNamed, fportsNamed]

theorem powerOnReset (f : Fitted) : Statement (.powerOnReset f) := by
  simp [Statement, fnsNamed, ctxsNamed, slabsNamed, ringsNamed, fportsNamed]

theorem pwrOkFall : Statement .pwrOkFall := by
  simp [Statement, fnsNamed, ctxsNamed, slabsNamed, ringsNamed, fportsNamed]

theorem brownOut (sram : Bool) : Statement (.brownOut sram) := by
  simp [Statement, fnsNamed, ctxsNamed, slabsNamed, ringsNamed, fportsNamed]

theorem coldReset (cause : ColdCause) (f : Fitted) : Statement (.coldReset cause f) := by
  simp [Statement, fnsNamed, ctxsNamed, slabsNamed, ringsNamed, fportsNamed]

theorem portReset (port : Nat) (kind : PortResetKind) : Statement (.portReset port kind) := by
  simp [Statement, fnsNamed, ctxsNamed, slabsNamed, ringsNamed, fportsNamed]

theorem perstDeassert (port : Nat) : Statement (.perstDeassert port) := by
  simp [Statement, fnsNamed, ctxsNamed, slabsNamed, ringsNamed, fportsNamed]

theorem functionReady (fn : Nat) : Statement (.functionReady fn) := by
  simp +contextual [Statement, Instr.wellFormed, fits, fnsNamed, ctxsNamed, slabsNamed, ringsNamed, fportsNamed]

theorem memActiveSet (port : Nat) : Statement (.memActiveSet port) := by
  simp [Statement, fnsNamed, ctxsNamed, slabsNamed, ringsNamed, fportsNamed]

theorem frameZeroed (tier : Tier) (frame : Nat) : Statement (.frameZeroed tier frame) := by
  simp [Statement, fnsNamed, ctxsNamed, slabsNamed, ringsNamed, fportsNamed]

theorem claimTake (w : Writer) (owner : Nat) (resource : Nat) : Statement (.claimTake w owner resource) := by
  simp [Statement, fnsNamed, ctxsNamed, slabsNamed, ringsNamed, fportsNamed]

theorem claimRelease (w : Writer) (owner : Nat) (resource : Nat) : Statement (.claimRelease w owner resource) := by
  simp [Statement, fnsNamed, ctxsNamed, slabsNamed, ringsNamed, fportsNamed]

theorem muxSelWrite (w : Writer) (value : Word) : Statement (.muxSelWrite w value) := by
  simp [Statement, fnsNamed, ctxsNamed, slabsNamed, ringsNamed, fportsNamed]

theorem traceStart (w : Writer) (value : Word) : Statement (.traceStart w value) := by
  simp [Statement, fnsNamed, ctxsNamed, slabsNamed, ringsNamed, fportsNamed]

theorem traceStop (w : Writer) (value : Word) : Statement (.traceStop w value) := by
  simp [Statement, fnsNamed, ctxsNamed, slabsNamed, ringsNamed, fportsNamed]

theorem traceDataRead (w : Writer) : Statement (.traceDataRead w) := by
  simp [Statement, fnsNamed, ctxsNamed, slabsNamed, ringsNamed, fportsNamed]

theorem jtagInstruction (i : JtagInstr) : Statement (.jtagInstruction i) := by
  simp [Statement, fnsNamed, ctxsNamed, slabsNamed, ringsNamed, fportsNamed]

theorem tapReset : Statement .tapReset := by
  simp [Statement, fnsNamed, ctxsNamed, slabsNamed, ringsNamed, fportsNamed]

end Sys2Proof.Laws.Formed
end

