-- ==== Sys2Proof/Laws/State.lean ====
section
/-! SUPPORT. Sys2Proof/Laws/State.lean: what each update of the state leaves as it was, and what it reads back as. -/

namespace Sys2Proof.Machine

variable (s : State)

@[simp] theorem setPage_pending (p : Nat) (v : Page) : (setPage p v s).pending = s.pending := rfl
@[simp] theorem setPage_sent (p : Nat) (v : Page) : (setPage p v s).sent = s.sent := rfl
@[simp] theorem setPage_draws (p : Nat) (v : Page) : (setPage p v s).draws = s.draws := rfl
@[simp] theorem setPage_mem (p : Nat) (v : Page) : (setPage p v s).mem = s.mem := rfl
@[simp] theorem setPage_descs (p : Nat) (v : Page) : (setPage p v s).descs = s.descs := rfl
@[simp] theorem setPage_plants (p : Nat) (v : Page) : (setPage p v s).plants = s.plants := rfl
@[simp] theorem setPage_regs (p : Nat) (v : Page) : (setPage p v s).regs = s.regs := rfl
@[simp] theorem setPage_cnts (p : Nat) (v : Page) : (setPage p v s).cnts = s.cnts := rfl
@[simp] theorem setPage_snaps (p : Nat) (v : Page) : (setPage p v s).snaps = s.snaps := rfl
@[simp] theorem setPage_now (p : Nat) (v : Page) : (setPage p v s).now = s.now := rfl
@[simp] theorem setPage_router (p : Nat) (v : Page) : (setPage p v s).router = s.router := rfl
@[simp] theorem setPage_dev (p : Nat) (v : Page) : (setPage p v s).dev = s.dev := rfl
@[simp] theorem setPage_hiu (p : Nat) (v : Page) : (setPage p v s).hiu = s.hiu := rfl
@[simp] theorem setPage_ple (p : Nat) (v : Page) : (setPage p v s).ple = s.ple := rfl
@[simp] theorem setPage_rlg (p : Nat) (v : Page) : (setPage p v s).rlg = s.rlg := rfl
@[simp] theorem setPage_bwr (p : Nat) (v : Page) : (setPage p v s).bwr = s.bwr := rfl
@[simp] theorem setPage_cdc (p : Nat) (v : Page) : (setPage p v s).cdc = s.cdc := rfl
@[simp] theorem setPage_ppu (p : Nat) (v : Page) : (setPage p v s).ppu = s.ppu := rfl
@[simp] theorem setPage_mge (p : Nat) (v : Page) : (setPage p v s).mge = s.mge := rfl
@[simp] theorem setPage_fmg (p : Nat) (v : Page) : (setPage p v s).fmg = s.fmg := rfl
@[simp] theorem setPage_dram (p : Nat) (v : Page) : (setPage p v s).dram = s.dram := rfl
@[simp] theorem setPage_ice (p : Nat) (v : Page) : (setPage p v s).ice = s.ice := rfl
@[simp] theorem setPage_tfl (p : Nat) (v : Page) : (setPage p v s).tfl = s.tfl := rfl
@[simp] theorem setPage_sram (p : Nat) (v : Page) : (setPage p v s).sram = s.sram := rfl
@[simp] theorem setPage_cvus (p : Nat) (v : Page) : (setPage p v s).cvus = s.cvus := rfl
@[simp] theorem setPage_checks (p : Nat) (v : Page) : (setPage p v s).checks = s.checks := rfl
@[simp] theorem setPage_tmx (p : Nat) (v : Page) : (setPage p v s).tmx = s.tmx := rfl
@[simp] theorem setPage_grants (p : Nat) (v : Page) : (setPage p v s).grants = s.grants := rfl
@[simp] theorem setPage_ppm (p : Nat) (v : Page) : (setPage p v s).ppm = s.ppm := rfl
@[simp] theorem setPage_sht (p : Nat) (v : Page) : (setPage p v s).sht = s.sht := rfl
@[simp] theorem setPage_rcp (p : Nat) (v : Page) : (setPage p v s).rcp = s.rcp := rfl
@[simp] theorem setPage_fports (p : Nat) (v : Page) : (setPage p v s).fports = s.fports := rfl
@[simp] theorem setPage_ftb (p : Nat) (v : Page) : (setPage p v s).ftb = s.ftb := rfl
@[simp] theorem setPage_ccx (p : Nat) (v : Page) : (setPage p v s).ccx = s.ccx := rfl
@[simp] theorem setPage_sss (p : Nat) (v : Page) : (setPage p v s).sss = s.sss := rfl
@[simp] theorem setPage_sec (p : Nat) (v : Page) : (setPage p v s).sec = s.sec := rfl
@[simp] theorem setPage_otp (p : Nat) (v : Page) : (setPage p v s).otp = s.otp := rfl
@[simp] theorem setPage_lcc (p : Nat) (v : Page) : (setPage p v s).lcc = s.lcc := rfl
@[simp] theorem setPage_boot (p : Nat) (v : Page) : (setPage p v s).boot = s.boot := rfl

@[simp] theorem modPage_pending (p : Nat) (f : Page → Page) : (modPage p f s).pending = s.pending := rfl
@[simp] theorem modPage_sent (p : Nat) (f : Page → Page) : (modPage p f s).sent = s.sent := rfl
@[simp] theorem modPage_draws (p : Nat) (f : Page → Page) : (modPage p f s).draws = s.draws := rfl
@[simp] theorem modPage_mem (p : Nat) (f : Page → Page) : (modPage p f s).mem = s.mem := rfl
@[simp] theorem modPage_descs (p : Nat) (f : Page → Page) : (modPage p f s).descs = s.descs := rfl
@[simp] theorem modPage_plants (p : Nat) (f : Page → Page) : (modPage p f s).plants = s.plants := rfl
@[simp] theorem modPage_regs (p : Nat) (f : Page → Page) : (modPage p f s).regs = s.regs := rfl
@[simp] theorem modPage_cnts (p : Nat) (f : Page → Page) : (modPage p f s).cnts = s.cnts := rfl
@[simp] theorem modPage_snaps (p : Nat) (f : Page → Page) : (modPage p f s).snaps = s.snaps := rfl
@[simp] theorem modPage_now (p : Nat) (f : Page → Page) : (modPage p f s).now = s.now := rfl
@[simp] theorem modPage_router (p : Nat) (f : Page → Page) : (modPage p f s).router = s.router := rfl
@[simp] theorem modPage_dev (p : Nat) (f : Page → Page) : (modPage p f s).dev = s.dev := rfl
@[simp] theorem modPage_hiu (p : Nat) (f : Page → Page) : (modPage p f s).hiu = s.hiu := rfl
@[simp] theorem modPage_ple (p : Nat) (f : Page → Page) : (modPage p f s).ple = s.ple := rfl
@[simp] theorem modPage_rlg (p : Nat) (f : Page → Page) : (modPage p f s).rlg = s.rlg := rfl
@[simp] theorem modPage_bwr (p : Nat) (f : Page → Page) : (modPage p f s).bwr = s.bwr := rfl
@[simp] theorem modPage_cdc (p : Nat) (f : Page → Page) : (modPage p f s).cdc = s.cdc := rfl
@[simp] theorem modPage_ppu (p : Nat) (f : Page → Page) : (modPage p f s).ppu = s.ppu := rfl
@[simp] theorem modPage_mge (p : Nat) (f : Page → Page) : (modPage p f s).mge = s.mge := rfl
@[simp] theorem modPage_fmg (p : Nat) (f : Page → Page) : (modPage p f s).fmg = s.fmg := rfl
@[simp] theorem modPage_dram (p : Nat) (f : Page → Page) : (modPage p f s).dram = s.dram := rfl
@[simp] theorem modPage_ice (p : Nat) (f : Page → Page) : (modPage p f s).ice = s.ice := rfl
@[simp] theorem modPage_tfl (p : Nat) (f : Page → Page) : (modPage p f s).tfl = s.tfl := rfl
@[simp] theorem modPage_sram (p : Nat) (f : Page → Page) : (modPage p f s).sram = s.sram := rfl
@[simp] theorem modPage_cvus (p : Nat) (f : Page → Page) : (modPage p f s).cvus = s.cvus := rfl
@[simp] theorem modPage_checks (p : Nat) (f : Page → Page) : (modPage p f s).checks = s.checks := rfl
@[simp] theorem modPage_tmx (p : Nat) (f : Page → Page) : (modPage p f s).tmx = s.tmx := rfl
@[simp] theorem modPage_grants (p : Nat) (f : Page → Page) : (modPage p f s).grants = s.grants := rfl
@[simp] theorem modPage_ppm (p : Nat) (f : Page → Page) : (modPage p f s).ppm = s.ppm := rfl
@[simp] theorem modPage_sht (p : Nat) (f : Page → Page) : (modPage p f s).sht = s.sht := rfl
@[simp] theorem modPage_rcp (p : Nat) (f : Page → Page) : (modPage p f s).rcp = s.rcp := rfl
@[simp] theorem modPage_fports (p : Nat) (f : Page → Page) : (modPage p f s).fports = s.fports := rfl
@[simp] theorem modPage_ftb (p : Nat) (f : Page → Page) : (modPage p f s).ftb = s.ftb := rfl
@[simp] theorem modPage_ccx (p : Nat) (f : Page → Page) : (modPage p f s).ccx = s.ccx := rfl
@[simp] theorem modPage_sss (p : Nat) (f : Page → Page) : (modPage p f s).sss = s.sss := rfl
@[simp] theorem modPage_sec (p : Nat) (f : Page → Page) : (modPage p f s).sec = s.sec := rfl
@[simp] theorem modPage_otp (p : Nat) (f : Page → Page) : (modPage p f s).otp = s.otp := rfl
@[simp] theorem modPage_lcc (p : Nat) (f : Page → Page) : (modPage p f s).lcc = s.lcc := rfl
@[simp] theorem modPage_boot (p : Nat) (f : Page → Page) : (modPage p f s).boot = s.boot := rfl

@[simp] theorem setReg_pending (p off : Nat) (w : Word) : (setReg p off w s).pending = s.pending := rfl
@[simp] theorem setReg_sent (p off : Nat) (w : Word) : (setReg p off w s).sent = s.sent := rfl
@[simp] theorem setReg_draws (p off : Nat) (w : Word) : (setReg p off w s).draws = s.draws := rfl
@[simp] theorem setReg_mem (p off : Nat) (w : Word) : (setReg p off w s).mem = s.mem := rfl
@[simp] theorem setReg_descs (p off : Nat) (w : Word) : (setReg p off w s).descs = s.descs := rfl
@[simp] theorem setReg_plants (p off : Nat) (w : Word) : (setReg p off w s).plants = s.plants := rfl
@[simp] theorem setReg_pages (p off : Nat) (w : Word) : (setReg p off w s).pages = s.pages := rfl
@[simp] theorem setReg_cnts (p off : Nat) (w : Word) : (setReg p off w s).cnts = s.cnts := rfl
@[simp] theorem setReg_snaps (p off : Nat) (w : Word) : (setReg p off w s).snaps = s.snaps := rfl
@[simp] theorem setReg_now (p off : Nat) (w : Word) : (setReg p off w s).now = s.now := rfl
@[simp] theorem setReg_router (p off : Nat) (w : Word) : (setReg p off w s).router = s.router := rfl
@[simp] theorem setReg_dev (p off : Nat) (w : Word) : (setReg p off w s).dev = s.dev := rfl
@[simp] theorem setReg_hiu (p off : Nat) (w : Word) : (setReg p off w s).hiu = s.hiu := rfl
@[simp] theorem setReg_ple (p off : Nat) (w : Word) : (setReg p off w s).ple = s.ple := rfl
@[simp] theorem setReg_rlg (p off : Nat) (w : Word) : (setReg p off w s).rlg = s.rlg := rfl
@[simp] theorem setReg_bwr (p off : Nat) (w : Word) : (setReg p off w s).bwr = s.bwr := rfl
@[simp] theorem setReg_cdc (p off : Nat) (w : Word) : (setReg p off w s).cdc = s.cdc := rfl
@[simp] theorem setReg_ppu (p off : Nat) (w : Word) : (setReg p off w s).ppu = s.ppu := rfl
@[simp] theorem setReg_mge (p off : Nat) (w : Word) : (setReg p off w s).mge = s.mge := rfl
@[simp] theorem setReg_fmg (p off : Nat) (w : Word) : (setReg p off w s).fmg = s.fmg := rfl
@[simp] theorem setReg_dram (p off : Nat) (w : Word) : (setReg p off w s).dram = s.dram := rfl
@[simp] theorem setReg_ice (p off : Nat) (w : Word) : (setReg p off w s).ice = s.ice := rfl
@[simp] theorem setReg_tfl (p off : Nat) (w : Word) : (setReg p off w s).tfl = s.tfl := rfl
@[simp] theorem setReg_sram (p off : Nat) (w : Word) : (setReg p off w s).sram = s.sram := rfl
@[simp] theorem setReg_cvus (p off : Nat) (w : Word) : (setReg p off w s).cvus = s.cvus := rfl
@[simp] theorem setReg_checks (p off : Nat) (w : Word) : (setReg p off w s).checks = s.checks := rfl
@[simp] theorem setReg_tmx (p off : Nat) (w : Word) : (setReg p off w s).tmx = s.tmx := rfl
@[simp] theorem setReg_grants (p off : Nat) (w : Word) : (setReg p off w s).grants = s.grants := rfl
@[simp] theorem setReg_ppm (p off : Nat) (w : Word) : (setReg p off w s).ppm = s.ppm := rfl
@[simp] theorem setReg_sht (p off : Nat) (w : Word) : (setReg p off w s).sht = s.sht := rfl
@[simp] theorem setReg_rcp (p off : Nat) (w : Word) : (setReg p off w s).rcp = s.rcp := rfl
@[simp] theorem setReg_fports (p off : Nat) (w : Word) : (setReg p off w s).fports = s.fports := rfl
@[simp] theorem setReg_ftb (p off : Nat) (w : Word) : (setReg p off w s).ftb = s.ftb := rfl
@[simp] theorem setReg_ccx (p off : Nat) (w : Word) : (setReg p off w s).ccx = s.ccx := rfl
@[simp] theorem setReg_sss (p off : Nat) (w : Word) : (setReg p off w s).sss = s.sss := rfl
@[simp] theorem setReg_sec (p off : Nat) (w : Word) : (setReg p off w s).sec = s.sec := rfl
@[simp] theorem setReg_otp (p off : Nat) (w : Word) : (setReg p off w s).otp = s.otp := rfl
@[simp] theorem setReg_lcc (p off : Nat) (w : Word) : (setReg p off w s).lcc = s.lcc := rfl
@[simp] theorem setReg_boot (p off : Nat) (w : Word) : (setReg p off w s).boot = s.boot := rfl

@[simp] theorem countBy_pending (p off n : Nat) : (countBy p off n s).pending = s.pending := rfl
@[simp] theorem countBy_sent (p off n : Nat) : (countBy p off n s).sent = s.sent := rfl
@[simp] theorem countBy_draws (p off n : Nat) : (countBy p off n s).draws = s.draws := rfl
@[simp] theorem countBy_mem (p off n : Nat) : (countBy p off n s).mem = s.mem := rfl
@[simp] theorem countBy_descs (p off n : Nat) : (countBy p off n s).descs = s.descs := rfl
@[simp] theorem countBy_plants (p off n : Nat) : (countBy p off n s).plants = s.plants := rfl
@[simp] theorem countBy_regs (p off n : Nat) : (countBy p off n s).regs = s.regs := rfl
@[simp] theorem countBy_pages (p off n : Nat) : (countBy p off n s).pages = s.pages := rfl
@[simp] theorem countBy_snaps (p off n : Nat) : (countBy p off n s).snaps = s.snaps := rfl
@[simp] theorem countBy_now (p off n : Nat) : (countBy p off n s).now = s.now := rfl
@[simp] theorem countBy_router (p off n : Nat) : (countBy p off n s).router = s.router := rfl
@[simp] theorem countBy_dev (p off n : Nat) : (countBy p off n s).dev = s.dev := rfl
@[simp] theorem countBy_hiu (p off n : Nat) : (countBy p off n s).hiu = s.hiu := rfl
@[simp] theorem countBy_ple (p off n : Nat) : (countBy p off n s).ple = s.ple := rfl
@[simp] theorem countBy_rlg (p off n : Nat) : (countBy p off n s).rlg = s.rlg := rfl
@[simp] theorem countBy_bwr (p off n : Nat) : (countBy p off n s).bwr = s.bwr := rfl
@[simp] theorem countBy_cdc (p off n : Nat) : (countBy p off n s).cdc = s.cdc := rfl
@[simp] theorem countBy_ppu (p off n : Nat) : (countBy p off n s).ppu = s.ppu := rfl
@[simp] theorem countBy_mge (p off n : Nat) : (countBy p off n s).mge = s.mge := rfl
@[simp] theorem countBy_fmg (p off n : Nat) : (countBy p off n s).fmg = s.fmg := rfl
@[simp] theorem countBy_dram (p off n : Nat) : (countBy p off n s).dram = s.dram := rfl
@[simp] theorem countBy_ice (p off n : Nat) : (countBy p off n s).ice = s.ice := rfl
@[simp] theorem countBy_tfl (p off n : Nat) : (countBy p off n s).tfl = s.tfl := rfl
@[simp] theorem countBy_sram (p off n : Nat) : (countBy p off n s).sram = s.sram := rfl
@[simp] theorem countBy_cvus (p off n : Nat) : (countBy p off n s).cvus = s.cvus := rfl
@[simp] theorem countBy_checks (p off n : Nat) : (countBy p off n s).checks = s.checks := rfl
@[simp] theorem countBy_tmx (p off n : Nat) : (countBy p off n s).tmx = s.tmx := rfl
@[simp] theorem countBy_grants (p off n : Nat) : (countBy p off n s).grants = s.grants := rfl
@[simp] theorem countBy_ppm (p off n : Nat) : (countBy p off n s).ppm = s.ppm := rfl
@[simp] theorem countBy_sht (p off n : Nat) : (countBy p off n s).sht = s.sht := rfl
@[simp] theorem countBy_rcp (p off n : Nat) : (countBy p off n s).rcp = s.rcp := rfl
@[simp] theorem countBy_fports (p off n : Nat) : (countBy p off n s).fports = s.fports := rfl
@[simp] theorem countBy_ftb (p off n : Nat) : (countBy p off n s).ftb = s.ftb := rfl
@[simp] theorem countBy_ccx (p off n : Nat) : (countBy p off n s).ccx = s.ccx := rfl
@[simp] theorem countBy_sss (p off n : Nat) : (countBy p off n s).sss = s.sss := rfl
@[simp] theorem countBy_sec (p off n : Nat) : (countBy p off n s).sec = s.sec := rfl
@[simp] theorem countBy_otp (p off n : Nat) : (countBy p off n s).otp = s.otp := rfl
@[simp] theorem countBy_lcc (p off n : Nat) : (countBy p off n s).lcc = s.lcc := rfl
@[simp] theorem countBy_boot (p off n : Nat) : (countBy p off n s).boot = s.boot := rfl

@[simp] theorem count_pending (p off : Nat) : (count p off s).pending = s.pending := rfl
@[simp] theorem count_sent (p off : Nat) : (count p off s).sent = s.sent := rfl
@[simp] theorem count_draws (p off : Nat) : (count p off s).draws = s.draws := rfl
@[simp] theorem count_mem (p off : Nat) : (count p off s).mem = s.mem := rfl
@[simp] theorem count_descs (p off : Nat) : (count p off s).descs = s.descs := rfl
@[simp] theorem count_plants (p off : Nat) : (count p off s).plants = s.plants := rfl
@[simp] theorem count_regs (p off : Nat) : (count p off s).regs = s.regs := rfl
@[simp] theorem count_pages (p off : Nat) : (count p off s).pages = s.pages := rfl
@[simp] theorem count_snaps (p off : Nat) : (count p off s).snaps = s.snaps := rfl
@[simp] theorem count_now (p off : Nat) : (count p off s).now = s.now := rfl
@[simp] theorem count_router (p off : Nat) : (count p off s).router = s.router := rfl
@[simp] theorem count_dev (p off : Nat) : (count p off s).dev = s.dev := rfl
@[simp] theorem count_hiu (p off : Nat) : (count p off s).hiu = s.hiu := rfl
@[simp] theorem count_ple (p off : Nat) : (count p off s).ple = s.ple := rfl
@[simp] theorem count_rlg (p off : Nat) : (count p off s).rlg = s.rlg := rfl
@[simp] theorem count_bwr (p off : Nat) : (count p off s).bwr = s.bwr := rfl
@[simp] theorem count_cdc (p off : Nat) : (count p off s).cdc = s.cdc := rfl
@[simp] theorem count_ppu (p off : Nat) : (count p off s).ppu = s.ppu := rfl
@[simp] theorem count_mge (p off : Nat) : (count p off s).mge = s.mge := rfl
@[simp] theorem count_fmg (p off : Nat) : (count p off s).fmg = s.fmg := rfl
@[simp] theorem count_dram (p off : Nat) : (count p off s).dram = s.dram := rfl
@[simp] theorem count_ice (p off : Nat) : (count p off s).ice = s.ice := rfl
@[simp] theorem count_tfl (p off : Nat) : (count p off s).tfl = s.tfl := rfl
@[simp] theorem count_sram (p off : Nat) : (count p off s).sram = s.sram := rfl
@[simp] theorem count_cvus (p off : Nat) : (count p off s).cvus = s.cvus := rfl
@[simp] theorem count_checks (p off : Nat) : (count p off s).checks = s.checks := rfl
@[simp] theorem count_tmx (p off : Nat) : (count p off s).tmx = s.tmx := rfl
@[simp] theorem count_grants (p off : Nat) : (count p off s).grants = s.grants := rfl
@[simp] theorem count_ppm (p off : Nat) : (count p off s).ppm = s.ppm := rfl
@[simp] theorem count_sht (p off : Nat) : (count p off s).sht = s.sht := rfl
@[simp] theorem count_rcp (p off : Nat) : (count p off s).rcp = s.rcp := rfl
@[simp] theorem count_fports (p off : Nat) : (count p off s).fports = s.fports := rfl
@[simp] theorem count_ftb (p off : Nat) : (count p off s).ftb = s.ftb := rfl
@[simp] theorem count_ccx (p off : Nat) : (count p off s).ccx = s.ccx := rfl
@[simp] theorem count_sss (p off : Nat) : (count p off s).sss = s.sss := rfl
@[simp] theorem count_sec (p off : Nat) : (count p off s).sec = s.sec := rfl
@[simp] theorem count_otp (p off : Nat) : (count p off s).otp = s.otp := rfl
@[simp] theorem count_lcc (p off : Nat) : (count p off s).lcc = s.lcc := rfl
@[simp] theorem count_boot (p off : Nat) : (count p off s).boot = s.boot := rfl

@[simp] theorem emit_pending (o : Output) : (emit o s).pending = s.pending := rfl
@[simp] theorem emit_draws (o : Output) : (emit o s).draws = s.draws := rfl
@[simp] theorem emit_mem (o : Output) : (emit o s).mem = s.mem := rfl
@[simp] theorem emit_descs (o : Output) : (emit o s).descs = s.descs := rfl
@[simp] theorem emit_plants (o : Output) : (emit o s).plants = s.plants := rfl
@[simp] theorem emit_regs (o : Output) : (emit o s).regs = s.regs := rfl
@[simp] theorem emit_pages (o : Output) : (emit o s).pages = s.pages := rfl
@[simp] theorem emit_cnts (o : Output) : (emit o s).cnts = s.cnts := rfl
@[simp] theorem emit_snaps (o : Output) : (emit o s).snaps = s.snaps := rfl
@[simp] theorem emit_now (o : Output) : (emit o s).now = s.now := rfl
@[simp] theorem emit_router (o : Output) : (emit o s).router = s.router := rfl
@[simp] theorem emit_dev (o : Output) : (emit o s).dev = s.dev := rfl
@[simp] theorem emit_hiu (o : Output) : (emit o s).hiu = s.hiu := rfl
@[simp] theorem emit_ple (o : Output) : (emit o s).ple = s.ple := rfl
@[simp] theorem emit_rlg (o : Output) : (emit o s).rlg = s.rlg := rfl
@[simp] theorem emit_bwr (o : Output) : (emit o s).bwr = s.bwr := rfl
@[simp] theorem emit_cdc (o : Output) : (emit o s).cdc = s.cdc := rfl
@[simp] theorem emit_ppu (o : Output) : (emit o s).ppu = s.ppu := rfl
@[simp] theorem emit_mge (o : Output) : (emit o s).mge = s.mge := rfl
@[simp] theorem emit_fmg (o : Output) : (emit o s).fmg = s.fmg := rfl
@[simp] theorem emit_dram (o : Output) : (emit o s).dram = s.dram := rfl
@[simp] theorem emit_ice (o : Output) : (emit o s).ice = s.ice := rfl
@[simp] theorem emit_tfl (o : Output) : (emit o s).tfl = s.tfl := rfl
@[simp] theorem emit_sram (o : Output) : (emit o s).sram = s.sram := rfl
@[simp] theorem emit_cvus (o : Output) : (emit o s).cvus = s.cvus := rfl
@[simp] theorem emit_checks (o : Output) : (emit o s).checks = s.checks := rfl
@[simp] theorem emit_tmx (o : Output) : (emit o s).tmx = s.tmx := rfl
@[simp] theorem emit_grants (o : Output) : (emit o s).grants = s.grants := rfl
@[simp] theorem emit_ppm (o : Output) : (emit o s).ppm = s.ppm := rfl
@[simp] theorem emit_sht (o : Output) : (emit o s).sht = s.sht := rfl
@[simp] theorem emit_rcp (o : Output) : (emit o s).rcp = s.rcp := rfl
@[simp] theorem emit_fports (o : Output) : (emit o s).fports = s.fports := rfl
@[simp] theorem emit_ftb (o : Output) : (emit o s).ftb = s.ftb := rfl
@[simp] theorem emit_ccx (o : Output) : (emit o s).ccx = s.ccx := rfl
@[simp] theorem emit_sss (o : Output) : (emit o s).sss = s.sss := rfl
@[simp] theorem emit_sec (o : Output) : (emit o s).sec = s.sec := rfl
@[simp] theorem emit_otp (o : Output) : (emit o s).otp = s.otp := rfl
@[simp] theorem emit_lcc (o : Output) : (emit o s).lcc = s.lcc := rfl
@[simp] theorem emit_boot (o : Output) : (emit o s).boot = s.boot := rfl

@[simp] theorem setFunc_pending (f : Nat) (v : Func) : (setFunc f v s).pending = s.pending := rfl
@[simp] theorem setFunc_sent (f : Nat) (v : Func) : (setFunc f v s).sent = s.sent := rfl
@[simp] theorem setFunc_draws (f : Nat) (v : Func) : (setFunc f v s).draws = s.draws := rfl
@[simp] theorem setFunc_mem (f : Nat) (v : Func) : (setFunc f v s).mem = s.mem := rfl
@[simp] theorem setFunc_descs (f : Nat) (v : Func) : (setFunc f v s).descs = s.descs := rfl
@[simp] theorem setFunc_plants (f : Nat) (v : Func) : (setFunc f v s).plants = s.plants := rfl
@[simp] theorem setFunc_regs (f : Nat) (v : Func) : (setFunc f v s).regs = s.regs := rfl
@[simp] theorem setFunc_pages (f : Nat) (v : Func) : (setFunc f v s).pages = s.pages := rfl
@[simp] theorem setFunc_cnts (f : Nat) (v : Func) : (setFunc f v s).cnts = s.cnts := rfl
@[simp] theorem setFunc_snaps (f : Nat) (v : Func) : (setFunc f v s).snaps = s.snaps := rfl
@[simp] theorem setFunc_now (f : Nat) (v : Func) : (setFunc f v s).now = s.now := rfl
@[simp] theorem setFunc_router (f : Nat) (v : Func) : (setFunc f v s).router = s.router := rfl
@[simp] theorem setFunc_dev (f : Nat) (v : Func) : (setFunc f v s).dev = s.dev := rfl
@[simp] theorem setFunc_ple (f : Nat) (v : Func) : (setFunc f v s).ple = s.ple := rfl
@[simp] theorem setFunc_rlg (f : Nat) (v : Func) : (setFunc f v s).rlg = s.rlg := rfl
@[simp] theorem setFunc_bwr (f : Nat) (v : Func) : (setFunc f v s).bwr = s.bwr := rfl
@[simp] theorem setFunc_cdc (f : Nat) (v : Func) : (setFunc f v s).cdc = s.cdc := rfl
@[simp] theorem setFunc_ppu (f : Nat) (v : Func) : (setFunc f v s).ppu = s.ppu := rfl
@[simp] theorem setFunc_mge (f : Nat) (v : Func) : (setFunc f v s).mge = s.mge := rfl
@[simp] theorem setFunc_fmg (f : Nat) (v : Func) : (setFunc f v s).fmg = s.fmg := rfl
@[simp] theorem setFunc_dram (f : Nat) (v : Func) : (setFunc f v s).dram = s.dram := rfl
@[simp] theorem setFunc_ice (f : Nat) (v : Func) : (setFunc f v s).ice = s.ice := rfl
@[simp] theorem setFunc_tfl (f : Nat) (v : Func) : (setFunc f v s).tfl = s.tfl := rfl
@[simp] theorem setFunc_sram (f : Nat) (v : Func) : (setFunc f v s).sram = s.sram := rfl
@[simp] theorem setFunc_cvus (f : Nat) (v : Func) : (setFunc f v s).cvus = s.cvus := rfl
@[simp] theorem setFunc_checks (f : Nat) (v : Func) : (setFunc f v s).checks = s.checks := rfl
@[simp] theorem setFunc_tmx (f : Nat) (v : Func) : (setFunc f v s).tmx = s.tmx := rfl
@[simp] theorem setFunc_grants (f : Nat) (v : Func) : (setFunc f v s).grants = s.grants := rfl
@[simp] theorem setFunc_ppm (f : Nat) (v : Func) : (setFunc f v s).ppm = s.ppm := rfl
@[simp] theorem setFunc_sht (f : Nat) (v : Func) : (setFunc f v s).sht = s.sht := rfl
@[simp] theorem setFunc_rcp (f : Nat) (v : Func) : (setFunc f v s).rcp = s.rcp := rfl
@[simp] theorem setFunc_fports (f : Nat) (v : Func) : (setFunc f v s).fports = s.fports := rfl
@[simp] theorem setFunc_ftb (f : Nat) (v : Func) : (setFunc f v s).ftb = s.ftb := rfl
@[simp] theorem setFunc_ccx (f : Nat) (v : Func) : (setFunc f v s).ccx = s.ccx := rfl
@[simp] theorem setFunc_sss (f : Nat) (v : Func) : (setFunc f v s).sss = s.sss := rfl
@[simp] theorem setFunc_sec (f : Nat) (v : Func) : (setFunc f v s).sec = s.sec := rfl
@[simp] theorem setFunc_otp (f : Nat) (v : Func) : (setFunc f v s).otp = s.otp := rfl
@[simp] theorem setFunc_lcc (f : Nat) (v : Func) : (setFunc f v s).lcc = s.lcc := rfl
@[simp] theorem setFunc_boot (f : Nat) (v : Func) : (setFunc f v s).boot = s.boot := rfl

@[simp] theorem setRing_pending (f n : Nat) (v : Ring) : (setRing f n v s).pending = s.pending := rfl
@[simp] theorem setRing_sent (f n : Nat) (v : Ring) : (setRing f n v s).sent = s.sent := rfl
@[simp] theorem setRing_draws (f n : Nat) (v : Ring) : (setRing f n v s).draws = s.draws := rfl
@[simp] theorem setRing_mem (f n : Nat) (v : Ring) : (setRing f n v s).mem = s.mem := rfl
@[simp] theorem setRing_descs (f n : Nat) (v : Ring) : (setRing f n v s).descs = s.descs := rfl
@[simp] theorem setRing_plants (f n : Nat) (v : Ring) : (setRing f n v s).plants = s.plants := rfl
@[simp] theorem setRing_regs (f n : Nat) (v : Ring) : (setRing f n v s).regs = s.regs := rfl
@[simp] theorem setRing_pages (f n : Nat) (v : Ring) : (setRing f n v s).pages = s.pages := rfl
@[simp] theorem setRing_cnts (f n : Nat) (v : Ring) : (setRing f n v s).cnts = s.cnts := rfl
@[simp] theorem setRing_snaps (f n : Nat) (v : Ring) : (setRing f n v s).snaps = s.snaps := rfl
@[simp] theorem setRing_now (f n : Nat) (v : Ring) : (setRing f n v s).now = s.now := rfl
@[simp] theorem setRing_router (f n : Nat) (v : Ring) : (setRing f n v s).router = s.router := rfl
@[simp] theorem setRing_dev (f n : Nat) (v : Ring) : (setRing f n v s).dev = s.dev := rfl
@[simp] theorem setRing_ple (f n : Nat) (v : Ring) : (setRing f n v s).ple = s.ple := rfl
@[simp] theorem setRing_rlg (f n : Nat) (v : Ring) : (setRing f n v s).rlg = s.rlg := rfl
@[simp] theorem setRing_bwr (f n : Nat) (v : Ring) : (setRing f n v s).bwr = s.bwr := rfl
@[simp] theorem setRing_cdc (f n : Nat) (v : Ring) : (setRing f n v s).cdc = s.cdc := rfl
@[simp] theorem setRing_ppu (f n : Nat) (v : Ring) : (setRing f n v s).ppu = s.ppu := rfl
@[simp] theorem setRing_mge (f n : Nat) (v : Ring) : (setRing f n v s).mge = s.mge := rfl
@[simp] theorem setRing_fmg (f n : Nat) (v : Ring) : (setRing f n v s).fmg = s.fmg := rfl
@[simp] theorem setRing_dram (f n : Nat) (v : Ring) : (setRing f n v s).dram = s.dram := rfl
@[simp] theorem setRing_ice (f n : Nat) (v : Ring) : (setRing f n v s).ice = s.ice := rfl
@[simp] theorem setRing_tfl (f n : Nat) (v : Ring) : (setRing f n v s).tfl = s.tfl := rfl
@[simp] theorem setRing_sram (f n : Nat) (v : Ring) : (setRing f n v s).sram = s.sram := rfl
@[simp] theorem setRing_cvus (f n : Nat) (v : Ring) : (setRing f n v s).cvus = s.cvus := rfl
@[simp] theorem setRing_checks (f n : Nat) (v : Ring) : (setRing f n v s).checks = s.checks := rfl
@[simp] theorem setRing_tmx (f n : Nat) (v : Ring) : (setRing f n v s).tmx = s.tmx := rfl
@[simp] theorem setRing_grants (f n : Nat) (v : Ring) : (setRing f n v s).grants = s.grants := rfl
@[simp] theorem setRing_ppm (f n : Nat) (v : Ring) : (setRing f n v s).ppm = s.ppm := rfl
@[simp] theorem setRing_sht (f n : Nat) (v : Ring) : (setRing f n v s).sht = s.sht := rfl
@[simp] theorem setRing_rcp (f n : Nat) (v : Ring) : (setRing f n v s).rcp = s.rcp := rfl
@[simp] theorem setRing_fports (f n : Nat) (v : Ring) : (setRing f n v s).fports = s.fports := rfl
@[simp] theorem setRing_ftb (f n : Nat) (v : Ring) : (setRing f n v s).ftb = s.ftb := rfl
@[simp] theorem setRing_ccx (f n : Nat) (v : Ring) : (setRing f n v s).ccx = s.ccx := rfl
@[simp] theorem setRing_sss (f n : Nat) (v : Ring) : (setRing f n v s).sss = s.sss := rfl
@[simp] theorem setRing_sec (f n : Nat) (v : Ring) : (setRing f n v s).sec = s.sec := rfl
@[simp] theorem setRing_otp (f n : Nat) (v : Ring) : (setRing f n v s).otp = s.otp := rfl
@[simp] theorem setRing_lcc (f n : Nat) (v : Ring) : (setRing f n v s).lcc = s.lcc := rfl
@[simp] theorem setRing_boot (f n : Nat) (v : Ring) : (setRing f n v s).boot = s.boot := rfl

@[simp] theorem setClaim_pending (r : Nat) (c : ClaimRec) : (setClaim r c s).pending = s.pending := rfl
@[simp] theorem setClaim_sent (r : Nat) (c : ClaimRec) : (setClaim r c s).sent = s.sent := rfl
@[simp] theorem setClaim_draws (r : Nat) (c : ClaimRec) : (setClaim r c s).draws = s.draws := rfl
@[simp] theorem setClaim_mem (r : Nat) (c : ClaimRec) : (setClaim r c s).mem = s.mem := rfl
@[simp] theorem setClaim_descs (r : Nat) (c : ClaimRec) : (setClaim r c s).descs = s.descs := rfl
@[simp] theorem setClaim_plants (r : Nat) (c : ClaimRec) : (setClaim r c s).plants = s.plants := rfl
@[simp] theorem setClaim_regs (r : Nat) (c : ClaimRec) : (setClaim r c s).regs = s.regs := rfl
@[simp] theorem setClaim_pages (r : Nat) (c : ClaimRec) : (setClaim r c s).pages = s.pages := rfl
@[simp] theorem setClaim_cnts (r : Nat) (c : ClaimRec) : (setClaim r c s).cnts = s.cnts := rfl
@[simp] theorem setClaim_snaps (r : Nat) (c : ClaimRec) : (setClaim r c s).snaps = s.snaps := rfl
@[simp] theorem setClaim_now (r : Nat) (c : ClaimRec) : (setClaim r c s).now = s.now := rfl
@[simp] theorem setClaim_router (r : Nat) (c : ClaimRec) : (setClaim r c s).router = s.router := rfl
@[simp] theorem setClaim_dev (r : Nat) (c : ClaimRec) : (setClaim r c s).dev = s.dev := rfl
@[simp] theorem setClaim_hiu (r : Nat) (c : ClaimRec) : (setClaim r c s).hiu = s.hiu := rfl
@[simp] theorem setClaim_ple (r : Nat) (c : ClaimRec) : (setClaim r c s).ple = s.ple := rfl
@[simp] theorem setClaim_rlg (r : Nat) (c : ClaimRec) : (setClaim r c s).rlg = s.rlg := rfl
@[simp] theorem setClaim_bwr (r : Nat) (c : ClaimRec) : (setClaim r c s).bwr = s.bwr := rfl
@[simp] theorem setClaim_cdc (r : Nat) (c : ClaimRec) : (setClaim r c s).cdc = s.cdc := rfl
@[simp] theorem setClaim_ppu (r : Nat) (c : ClaimRec) : (setClaim r c s).ppu = s.ppu := rfl
@[simp] theorem setClaim_mge (r : Nat) (c : ClaimRec) : (setClaim r c s).mge = s.mge := rfl
@[simp] theorem setClaim_fmg (r : Nat) (c : ClaimRec) : (setClaim r c s).fmg = s.fmg := rfl
@[simp] theorem setClaim_dram (r : Nat) (c : ClaimRec) : (setClaim r c s).dram = s.dram := rfl
@[simp] theorem setClaim_ice (r : Nat) (c : ClaimRec) : (setClaim r c s).ice = s.ice := rfl
@[simp] theorem setClaim_tfl (r : Nat) (c : ClaimRec) : (setClaim r c s).tfl = s.tfl := rfl
@[simp] theorem setClaim_sram (r : Nat) (c : ClaimRec) : (setClaim r c s).sram = s.sram := rfl
@[simp] theorem setClaim_cvus (r : Nat) (c : ClaimRec) : (setClaim r c s).cvus = s.cvus := rfl
@[simp] theorem setClaim_checks (r : Nat) (c : ClaimRec) : (setClaim r c s).checks = s.checks := rfl
@[simp] theorem setClaim_grants (r : Nat) (c : ClaimRec) : (setClaim r c s).grants = s.grants := rfl
@[simp] theorem setClaim_ppm (r : Nat) (c : ClaimRec) : (setClaim r c s).ppm = s.ppm := rfl
@[simp] theorem setClaim_sht (r : Nat) (c : ClaimRec) : (setClaim r c s).sht = s.sht := rfl
@[simp] theorem setClaim_rcp (r : Nat) (c : ClaimRec) : (setClaim r c s).rcp = s.rcp := rfl
@[simp] theorem setClaim_fports (r : Nat) (c : ClaimRec) : (setClaim r c s).fports = s.fports := rfl
@[simp] theorem setClaim_ftb (r : Nat) (c : ClaimRec) : (setClaim r c s).ftb = s.ftb := rfl
@[simp] theorem setClaim_ccx (r : Nat) (c : ClaimRec) : (setClaim r c s).ccx = s.ccx := rfl
@[simp] theorem setClaim_sss (r : Nat) (c : ClaimRec) : (setClaim r c s).sss = s.sss := rfl
@[simp] theorem setClaim_sec (r : Nat) (c : ClaimRec) : (setClaim r c s).sec = s.sec := rfl
@[simp] theorem setClaim_otp (r : Nat) (c : ClaimRec) : (setClaim r c s).otp = s.otp := rfl
@[simp] theorem setClaim_lcc (r : Nat) (c : ClaimRec) : (setClaim r c s).lcc = s.lcc := rfl
@[simp] theorem setClaim_boot (r : Nat) (c : ClaimRec) : (setClaim r c s).boot = s.boot := rfl

@[simp] theorem setMap_pending (k : Nat) (e : MapEntry) : (setMap k e s).pending = s.pending := rfl
@[simp] theorem setMap_sent (k : Nat) (e : MapEntry) : (setMap k e s).sent = s.sent := rfl
@[simp] theorem setMap_draws (k : Nat) (e : MapEntry) : (setMap k e s).draws = s.draws := rfl
@[simp] theorem setMap_mem (k : Nat) (e : MapEntry) : (setMap k e s).mem = s.mem := rfl
@[simp] theorem setMap_descs (k : Nat) (e : MapEntry) : (setMap k e s).descs = s.descs := rfl
@[simp] theorem setMap_plants (k : Nat) (e : MapEntry) : (setMap k e s).plants = s.plants := rfl
@[simp] theorem setMap_regs (k : Nat) (e : MapEntry) : (setMap k e s).regs = s.regs := rfl
@[simp] theorem setMap_pages (k : Nat) (e : MapEntry) : (setMap k e s).pages = s.pages := rfl
@[simp] theorem setMap_cnts (k : Nat) (e : MapEntry) : (setMap k e s).cnts = s.cnts := rfl
@[simp] theorem setMap_snaps (k : Nat) (e : MapEntry) : (setMap k e s).snaps = s.snaps := rfl
@[simp] theorem setMap_now (k : Nat) (e : MapEntry) : (setMap k e s).now = s.now := rfl
@[simp] theorem setMap_router (k : Nat) (e : MapEntry) : (setMap k e s).router = s.router := rfl
@[simp] theorem setMap_dev (k : Nat) (e : MapEntry) : (setMap k e s).dev = s.dev := rfl
@[simp] theorem setMap_hiu (k : Nat) (e : MapEntry) : (setMap k e s).hiu = s.hiu := rfl
@[simp] theorem setMap_rlg (k : Nat) (e : MapEntry) : (setMap k e s).rlg = s.rlg := rfl
@[simp] theorem setMap_bwr (k : Nat) (e : MapEntry) : (setMap k e s).bwr = s.bwr := rfl
@[simp] theorem setMap_cdc (k : Nat) (e : MapEntry) : (setMap k e s).cdc = s.cdc := rfl
@[simp] theorem setMap_ppu (k : Nat) (e : MapEntry) : (setMap k e s).ppu = s.ppu := rfl
@[simp] theorem setMap_mge (k : Nat) (e : MapEntry) : (setMap k e s).mge = s.mge := rfl
@[simp] theorem setMap_fmg (k : Nat) (e : MapEntry) : (setMap k e s).fmg = s.fmg := rfl
@[simp] theorem setMap_dram (k : Nat) (e : MapEntry) : (setMap k e s).dram = s.dram := rfl
@[simp] theorem setMap_ice (k : Nat) (e : MapEntry) : (setMap k e s).ice = s.ice := rfl
@[simp] theorem setMap_tfl (k : Nat) (e : MapEntry) : (setMap k e s).tfl = s.tfl := rfl
@[simp] theorem setMap_sram (k : Nat) (e : MapEntry) : (setMap k e s).sram = s.sram := rfl
@[simp] theorem setMap_cvus (k : Nat) (e : MapEntry) : (setMap k e s).cvus = s.cvus := rfl
@[simp] theorem setMap_checks (k : Nat) (e : MapEntry) : (setMap k e s).checks = s.checks := rfl
@[simp] theorem setMap_tmx (k : Nat) (e : MapEntry) : (setMap k e s).tmx = s.tmx := rfl
@[simp] theorem setMap_grants (k : Nat) (e : MapEntry) : (setMap k e s).grants = s.grants := rfl
@[simp] theorem setMap_ppm (k : Nat) (e : MapEntry) : (setMap k e s).ppm = s.ppm := rfl
@[simp] theorem setMap_sht (k : Nat) (e : MapEntry) : (setMap k e s).sht = s.sht := rfl
@[simp] theorem setMap_rcp (k : Nat) (e : MapEntry) : (setMap k e s).rcp = s.rcp := rfl
@[simp] theorem setMap_fports (k : Nat) (e : MapEntry) : (setMap k e s).fports = s.fports := rfl
@[simp] theorem setMap_ftb (k : Nat) (e : MapEntry) : (setMap k e s).ftb = s.ftb := rfl
@[simp] theorem setMap_ccx (k : Nat) (e : MapEntry) : (setMap k e s).ccx = s.ccx := rfl
@[simp] theorem setMap_sss (k : Nat) (e : MapEntry) : (setMap k e s).sss = s.sss := rfl
@[simp] theorem setMap_sec (k : Nat) (e : MapEntry) : (setMap k e s).sec = s.sec := rfl
@[simp] theorem setMap_otp (k : Nat) (e : MapEntry) : (setMap k e s).otp = s.otp := rfl
@[simp] theorem setMap_lcc (k : Nat) (e : MapEntry) : (setMap k e s).lcc = s.lcc := rfl
@[simp] theorem setMap_boot (k : Nat) (e : MapEntry) : (setMap k e s).boot = s.boot := rfl

@[simp] theorem setCtx_pending (c : Nat) (v : Ctx) : (setCtx c v s).pending = s.pending := rfl
@[simp] theorem setCtx_sent (c : Nat) (v : Ctx) : (setCtx c v s).sent = s.sent := rfl
@[simp] theorem setCtx_draws (c : Nat) (v : Ctx) : (setCtx c v s).draws = s.draws := rfl
@[simp] theorem setCtx_mem (c : Nat) (v : Ctx) : (setCtx c v s).mem = s.mem := rfl
@[simp] theorem setCtx_descs (c : Nat) (v : Ctx) : (setCtx c v s).descs = s.descs := rfl
@[simp] theorem setCtx_plants (c : Nat) (v : Ctx) : (setCtx c v s).plants = s.plants := rfl
@[simp] theorem setCtx_regs (c : Nat) (v : Ctx) : (setCtx c v s).regs = s.regs := rfl
@[simp] theorem setCtx_pages (c : Nat) (v : Ctx) : (setCtx c v s).pages = s.pages := rfl
@[simp] theorem setCtx_cnts (c : Nat) (v : Ctx) : (setCtx c v s).cnts = s.cnts := rfl
@[simp] theorem setCtx_snaps (c : Nat) (v : Ctx) : (setCtx c v s).snaps = s.snaps := rfl
@[simp] theorem setCtx_now (c : Nat) (v : Ctx) : (setCtx c v s).now = s.now := rfl
@[simp] theorem setCtx_router (c : Nat) (v : Ctx) : (setCtx c v s).router = s.router := rfl
@[simp] theorem setCtx_dev (c : Nat) (v : Ctx) : (setCtx c v s).dev = s.dev := rfl
@[simp] theorem setCtx_hiu (c : Nat) (v : Ctx) : (setCtx c v s).hiu = s.hiu := rfl
@[simp] theorem setCtx_rlg (c : Nat) (v : Ctx) : (setCtx c v s).rlg = s.rlg := rfl
@[simp] theorem setCtx_bwr (c : Nat) (v : Ctx) : (setCtx c v s).bwr = s.bwr := rfl
@[simp] theorem setCtx_cdc (c : Nat) (v : Ctx) : (setCtx c v s).cdc = s.cdc := rfl
@[simp] theorem setCtx_ppu (c : Nat) (v : Ctx) : (setCtx c v s).ppu = s.ppu := rfl
@[simp] theorem setCtx_mge (c : Nat) (v : Ctx) : (setCtx c v s).mge = s.mge := rfl
@[simp] theorem setCtx_fmg (c : Nat) (v : Ctx) : (setCtx c v s).fmg = s.fmg := rfl
@[simp] theorem setCtx_dram (c : Nat) (v : Ctx) : (setCtx c v s).dram = s.dram := rfl
@[simp] theorem setCtx_ice (c : Nat) (v : Ctx) : (setCtx c v s).ice = s.ice := rfl
@[simp] theorem setCtx_tfl (c : Nat) (v : Ctx) : (setCtx c v s).tfl = s.tfl := rfl
@[simp] theorem setCtx_sram (c : Nat) (v : Ctx) : (setCtx c v s).sram = s.sram := rfl
@[simp] theorem setCtx_cvus (c : Nat) (v : Ctx) : (setCtx c v s).cvus = s.cvus := rfl
@[simp] theorem setCtx_checks (c : Nat) (v : Ctx) : (setCtx c v s).checks = s.checks := rfl
@[simp] theorem setCtx_tmx (c : Nat) (v : Ctx) : (setCtx c v s).tmx = s.tmx := rfl
@[simp] theorem setCtx_grants (c : Nat) (v : Ctx) : (setCtx c v s).grants = s.grants := rfl
@[simp] theorem setCtx_ppm (c : Nat) (v : Ctx) : (setCtx c v s).ppm = s.ppm := rfl
@[simp] theorem setCtx_sht (c : Nat) (v : Ctx) : (setCtx c v s).sht = s.sht := rfl
@[simp] theorem setCtx_rcp (c : Nat) (v : Ctx) : (setCtx c v s).rcp = s.rcp := rfl
@[simp] theorem setCtx_fports (c : Nat) (v : Ctx) : (setCtx c v s).fports = s.fports := rfl
@[simp] theorem setCtx_ftb (c : Nat) (v : Ctx) : (setCtx c v s).ftb = s.ftb := rfl
@[simp] theorem setCtx_ccx (c : Nat) (v : Ctx) : (setCtx c v s).ccx = s.ccx := rfl
@[simp] theorem setCtx_sss (c : Nat) (v : Ctx) : (setCtx c v s).sss = s.sss := rfl
@[simp] theorem setCtx_sec (c : Nat) (v : Ctx) : (setCtx c v s).sec = s.sec := rfl
@[simp] theorem setCtx_otp (c : Nat) (v : Ctx) : (setCtx c v s).otp = s.otp := rfl
@[simp] theorem setCtx_lcc (c : Nat) (v : Ctx) : (setCtx c v s).lcc = s.lcc := rfl
@[simp] theorem setCtx_boot (c : Nat) (v : Ctx) : (setCtx c v s).boot = s.boot := rfl

@[simp] theorem setTable_pending (id : Nat) (e : TableEnt) : (setTable id e s).pending = s.pending := rfl
@[simp] theorem setTable_sent (id : Nat) (e : TableEnt) : (setTable id e s).sent = s.sent := rfl
@[simp] theorem setTable_draws (id : Nat) (e : TableEnt) : (setTable id e s).draws = s.draws := rfl
@[simp] theorem setTable_mem (id : Nat) (e : TableEnt) : (setTable id e s).mem = s.mem := rfl
@[simp] theorem setTable_descs (id : Nat) (e : TableEnt) : (setTable id e s).descs = s.descs := rfl
@[simp] theorem setTable_plants (id : Nat) (e : TableEnt) : (setTable id e s).plants = s.plants := rfl
@[simp] theorem setTable_regs (id : Nat) (e : TableEnt) : (setTable id e s).regs = s.regs := rfl
@[simp] theorem setTable_pages (id : Nat) (e : TableEnt) : (setTable id e s).pages = s.pages := rfl
@[simp] theorem setTable_cnts (id : Nat) (e : TableEnt) : (setTable id e s).cnts = s.cnts := rfl
@[simp] theorem setTable_snaps (id : Nat) (e : TableEnt) : (setTable id e s).snaps = s.snaps := rfl
@[simp] theorem setTable_now (id : Nat) (e : TableEnt) : (setTable id e s).now = s.now := rfl
@[simp] theorem setTable_router (id : Nat) (e : TableEnt) : (setTable id e s).router = s.router := rfl
@[simp] theorem setTable_dev (id : Nat) (e : TableEnt) : (setTable id e s).dev = s.dev := rfl
@[simp] theorem setTable_hiu (id : Nat) (e : TableEnt) : (setTable id e s).hiu = s.hiu := rfl
@[simp] theorem setTable_ple (id : Nat) (e : TableEnt) : (setTable id e s).ple = s.ple := rfl
@[simp] theorem setTable_rlg (id : Nat) (e : TableEnt) : (setTable id e s).rlg = s.rlg := rfl
@[simp] theorem setTable_bwr (id : Nat) (e : TableEnt) : (setTable id e s).bwr = s.bwr := rfl
@[simp] theorem setTable_cdc (id : Nat) (e : TableEnt) : (setTable id e s).cdc = s.cdc := rfl
@[simp] theorem setTable_mge (id : Nat) (e : TableEnt) : (setTable id e s).mge = s.mge := rfl
@[simp] theorem setTable_fmg (id : Nat) (e : TableEnt) : (setTable id e s).fmg = s.fmg := rfl
@[simp] theorem setTable_dram (id : Nat) (e : TableEnt) : (setTable id e s).dram = s.dram := rfl
@[simp] theorem setTable_ice (id : Nat) (e : TableEnt) : (setTable id e s).ice = s.ice := rfl
@[simp] theorem setTable_tfl (id : Nat) (e : TableEnt) : (setTable id e s).tfl = s.tfl := rfl
@[simp] theorem setTable_sram (id : Nat) (e : TableEnt) : (setTable id e s).sram = s.sram := rfl
@[simp] theorem setTable_cvus (id : Nat) (e : TableEnt) : (setTable id e s).cvus = s.cvus := rfl
@[simp] theorem setTable_checks (id : Nat) (e : TableEnt) : (setTable id e s).checks = s.checks := rfl
@[simp] theorem setTable_tmx (id : Nat) (e : TableEnt) : (setTable id e s).tmx = s.tmx := rfl
@[simp] theorem setTable_grants (id : Nat) (e : TableEnt) : (setTable id e s).grants = s.grants := rfl
@[simp] theorem setTable_ppm (id : Nat) (e : TableEnt) : (setTable id e s).ppm = s.ppm := rfl
@[simp] theorem setTable_sht (id : Nat) (e : TableEnt) : (setTable id e s).sht = s.sht := rfl
@[simp] theorem setTable_rcp (id : Nat) (e : TableEnt) : (setTable id e s).rcp = s.rcp := rfl
@[simp] theorem setTable_fports (id : Nat) (e : TableEnt) : (setTable id e s).fports = s.fports := rfl
@[simp] theorem setTable_ftb (id : Nat) (e : TableEnt) : (setTable id e s).ftb = s.ftb := rfl
@[simp] theorem setTable_ccx (id : Nat) (e : TableEnt) : (setTable id e s).ccx = s.ccx := rfl
@[simp] theorem setTable_sss (id : Nat) (e : TableEnt) : (setTable id e s).sss = s.sss := rfl
@[simp] theorem setTable_sec (id : Nat) (e : TableEnt) : (setTable id e s).sec = s.sec := rfl
@[simp] theorem setTable_otp (id : Nat) (e : TableEnt) : (setTable id e s).otp = s.otp := rfl
@[simp] theorem setTable_lcc (id : Nat) (e : TableEnt) : (setTable id e s).lcc = s.lcc := rfl
@[simp] theorem setTable_boot (id : Nat) (e : TableEnt) : (setTable id e s).boot = s.boot := rfl

@[simp] theorem setFport_pending (p : Nat) (v : FPort) : (setFport p v s).pending = s.pending := rfl
@[simp] theorem setFport_sent (p : Nat) (v : FPort) : (setFport p v s).sent = s.sent := rfl
@[simp] theorem setFport_draws (p : Nat) (v : FPort) : (setFport p v s).draws = s.draws := rfl
@[simp] theorem setFport_mem (p : Nat) (v : FPort) : (setFport p v s).mem = s.mem := rfl
@[simp] theorem setFport_descs (p : Nat) (v : FPort) : (setFport p v s).descs = s.descs := rfl
@[simp] theorem setFport_plants (p : Nat) (v : FPort) : (setFport p v s).plants = s.plants := rfl
@[simp] theorem setFport_regs (p : Nat) (v : FPort) : (setFport p v s).regs = s.regs := rfl
@[simp] theorem setFport_pages (p : Nat) (v : FPort) : (setFport p v s).pages = s.pages := rfl
@[simp] theorem setFport_cnts (p : Nat) (v : FPort) : (setFport p v s).cnts = s.cnts := rfl
@[simp] theorem setFport_snaps (p : Nat) (v : FPort) : (setFport p v s).snaps = s.snaps := rfl
@[simp] theorem setFport_now (p : Nat) (v : FPort) : (setFport p v s).now = s.now := rfl
@[simp] theorem setFport_router (p : Nat) (v : FPort) : (setFport p v s).router = s.router := rfl
@[simp] theorem setFport_dev (p : Nat) (v : FPort) : (setFport p v s).dev = s.dev := rfl
@[simp] theorem setFport_hiu (p : Nat) (v : FPort) : (setFport p v s).hiu = s.hiu := rfl
@[simp] theorem setFport_ple (p : Nat) (v : FPort) : (setFport p v s).ple = s.ple := rfl
@[simp] theorem setFport_rlg (p : Nat) (v : FPort) : (setFport p v s).rlg = s.rlg := rfl
@[simp] theorem setFport_bwr (p : Nat) (v : FPort) : (setFport p v s).bwr = s.bwr := rfl
@[simp] theorem setFport_cdc (p : Nat) (v : FPort) : (setFport p v s).cdc = s.cdc := rfl
@[simp] theorem setFport_ppu (p : Nat) (v : FPort) : (setFport p v s).ppu = s.ppu := rfl
@[simp] theorem setFport_mge (p : Nat) (v : FPort) : (setFport p v s).mge = s.mge := rfl
@[simp] theorem setFport_fmg (p : Nat) (v : FPort) : (setFport p v s).fmg = s.fmg := rfl
@[simp] theorem setFport_dram (p : Nat) (v : FPort) : (setFport p v s).dram = s.dram := rfl
@[simp] theorem setFport_ice (p : Nat) (v : FPort) : (setFport p v s).ice = s.ice := rfl
@[simp] theorem setFport_tfl (p : Nat) (v : FPort) : (setFport p v s).tfl = s.tfl := rfl
@[simp] theorem setFport_sram (p : Nat) (v : FPort) : (setFport p v s).sram = s.sram := rfl
@[simp] theorem setFport_cvus (p : Nat) (v : FPort) : (setFport p v s).cvus = s.cvus := rfl
@[simp] theorem setFport_checks (p : Nat) (v : FPort) : (setFport p v s).checks = s.checks := rfl
@[simp] theorem setFport_tmx (p : Nat) (v : FPort) : (setFport p v s).tmx = s.tmx := rfl
@[simp] theorem setFport_grants (p : Nat) (v : FPort) : (setFport p v s).grants = s.grants := rfl
@[simp] theorem setFport_ppm (p : Nat) (v : FPort) : (setFport p v s).ppm = s.ppm := rfl
@[simp] theorem setFport_sht (p : Nat) (v : FPort) : (setFport p v s).sht = s.sht := rfl
@[simp] theorem setFport_rcp (p : Nat) (v : FPort) : (setFport p v s).rcp = s.rcp := rfl
@[simp] theorem setFport_ftb (p : Nat) (v : FPort) : (setFport p v s).ftb = s.ftb := rfl
@[simp] theorem setFport_ccx (p : Nat) (v : FPort) : (setFport p v s).ccx = s.ccx := rfl
@[simp] theorem setFport_sss (p : Nat) (v : FPort) : (setFport p v s).sss = s.sss := rfl
@[simp] theorem setFport_sec (p : Nat) (v : FPort) : (setFport p v s).sec = s.sec := rfl
@[simp] theorem setFport_otp (p : Nat) (v : FPort) : (setFport p v s).otp = s.otp := rfl
@[simp] theorem setFport_lcc (p : Nat) (v : FPort) : (setFport p v s).lcc = s.lcc := rfl
@[simp] theorem setFport_boot (p : Nat) (v : FPort) : (setFport p v s).boot = s.boot := rfl

@[simp] theorem setChan_pending (k : Nat) (v : Chan) : (setChan k v s).pending = s.pending := rfl
@[simp] theorem setChan_sent (k : Nat) (v : Chan) : (setChan k v s).sent = s.sent := rfl
@[simp] theorem setChan_draws (k : Nat) (v : Chan) : (setChan k v s).draws = s.draws := rfl
@[simp] theorem setChan_mem (k : Nat) (v : Chan) : (setChan k v s).mem = s.mem := rfl
@[simp] theorem setChan_descs (k : Nat) (v : Chan) : (setChan k v s).descs = s.descs := rfl
@[simp] theorem setChan_plants (k : Nat) (v : Chan) : (setChan k v s).plants = s.plants := rfl
@[simp] theorem setChan_regs (k : Nat) (v : Chan) : (setChan k v s).regs = s.regs := rfl
@[simp] theorem setChan_pages (k : Nat) (v : Chan) : (setChan k v s).pages = s.pages := rfl
@[simp] theorem setChan_cnts (k : Nat) (v : Chan) : (setChan k v s).cnts = s.cnts := rfl
@[simp] theorem setChan_snaps (k : Nat) (v : Chan) : (setChan k v s).snaps = s.snaps := rfl
@[simp] theorem setChan_now (k : Nat) (v : Chan) : (setChan k v s).now = s.now := rfl
@[simp] theorem setChan_router (k : Nat) (v : Chan) : (setChan k v s).router = s.router := rfl
@[simp] theorem setChan_dev (k : Nat) (v : Chan) : (setChan k v s).dev = s.dev := rfl
@[simp] theorem setChan_hiu (k : Nat) (v : Chan) : (setChan k v s).hiu = s.hiu := rfl
@[simp] theorem setChan_ple (k : Nat) (v : Chan) : (setChan k v s).ple = s.ple := rfl
@[simp] theorem setChan_rlg (k : Nat) (v : Chan) : (setChan k v s).rlg = s.rlg := rfl
@[simp] theorem setChan_bwr (k : Nat) (v : Chan) : (setChan k v s).bwr = s.bwr := rfl
@[simp] theorem setChan_cdc (k : Nat) (v : Chan) : (setChan k v s).cdc = s.cdc := rfl
@[simp] theorem setChan_ppu (k : Nat) (v : Chan) : (setChan k v s).ppu = s.ppu := rfl
@[simp] theorem setChan_mge (k : Nat) (v : Chan) : (setChan k v s).mge = s.mge := rfl
@[simp] theorem setChan_fmg (k : Nat) (v : Chan) : (setChan k v s).fmg = s.fmg := rfl
@[simp] theorem setChan_ice (k : Nat) (v : Chan) : (setChan k v s).ice = s.ice := rfl
@[simp] theorem setChan_tfl (k : Nat) (v : Chan) : (setChan k v s).tfl = s.tfl := rfl
@[simp] theorem setChan_sram (k : Nat) (v : Chan) : (setChan k v s).sram = s.sram := rfl
@[simp] theorem setChan_cvus (k : Nat) (v : Chan) : (setChan k v s).cvus = s.cvus := rfl
@[simp] theorem setChan_checks (k : Nat) (v : Chan) : (setChan k v s).checks = s.checks := rfl
@[simp] theorem setChan_tmx (k : Nat) (v : Chan) : (setChan k v s).tmx = s.tmx := rfl
@[simp] theorem setChan_grants (k : Nat) (v : Chan) : (setChan k v s).grants = s.grants := rfl
@[simp] theorem setChan_ppm (k : Nat) (v : Chan) : (setChan k v s).ppm = s.ppm := rfl
@[simp] theorem setChan_sht (k : Nat) (v : Chan) : (setChan k v s).sht = s.sht := rfl
@[simp] theorem setChan_rcp (k : Nat) (v : Chan) : (setChan k v s).rcp = s.rcp := rfl
@[simp] theorem setChan_fports (k : Nat) (v : Chan) : (setChan k v s).fports = s.fports := rfl
@[simp] theorem setChan_ftb (k : Nat) (v : Chan) : (setChan k v s).ftb = s.ftb := rfl
@[simp] theorem setChan_ccx (k : Nat) (v : Chan) : (setChan k v s).ccx = s.ccx := rfl
@[simp] theorem setChan_sss (k : Nat) (v : Chan) : (setChan k v s).sss = s.sss := rfl
@[simp] theorem setChan_sec (k : Nat) (v : Chan) : (setChan k v s).sec = s.sec := rfl
@[simp] theorem setChan_otp (k : Nat) (v : Chan) : (setChan k v s).otp = s.otp := rfl
@[simp] theorem setChan_lcc (k : Nat) (v : Chan) : (setChan k v s).lcc = s.lcc := rfl
@[simp] theorem setChan_boot (k : Nat) (v : Chan) : (setChan k v s).boot = s.boot := rfl

@[simp] theorem setCtrl_pending (c : Nat) (v : Ctrl) : (setCtrl c v s).pending = s.pending := rfl
@[simp] theorem setCtrl_sent (c : Nat) (v : Ctrl) : (setCtrl c v s).sent = s.sent := rfl
@[simp] theorem setCtrl_draws (c : Nat) (v : Ctrl) : (setCtrl c v s).draws = s.draws := rfl
@[simp] theorem setCtrl_mem (c : Nat) (v : Ctrl) : (setCtrl c v s).mem = s.mem := rfl
@[simp] theorem setCtrl_descs (c : Nat) (v : Ctrl) : (setCtrl c v s).descs = s.descs := rfl
@[simp] theorem setCtrl_plants (c : Nat) (v : Ctrl) : (setCtrl c v s).plants = s.plants := rfl
@[simp] theorem setCtrl_regs (c : Nat) (v : Ctrl) : (setCtrl c v s).regs = s.regs := rfl
@[simp] theorem setCtrl_pages (c : Nat) (v : Ctrl) : (setCtrl c v s).pages = s.pages := rfl
@[simp] theorem setCtrl_cnts (c : Nat) (v : Ctrl) : (setCtrl c v s).cnts = s.cnts := rfl
@[simp] theorem setCtrl_snaps (c : Nat) (v : Ctrl) : (setCtrl c v s).snaps = s.snaps := rfl
@[simp] theorem setCtrl_now (c : Nat) (v : Ctrl) : (setCtrl c v s).now = s.now := rfl
@[simp] theorem setCtrl_router (c : Nat) (v : Ctrl) : (setCtrl c v s).router = s.router := rfl
@[simp] theorem setCtrl_dev (c : Nat) (v : Ctrl) : (setCtrl c v s).dev = s.dev := rfl
@[simp] theorem setCtrl_hiu (c : Nat) (v : Ctrl) : (setCtrl c v s).hiu = s.hiu := rfl
@[simp] theorem setCtrl_ple (c : Nat) (v : Ctrl) : (setCtrl c v s).ple = s.ple := rfl
@[simp] theorem setCtrl_rlg (c : Nat) (v : Ctrl) : (setCtrl c v s).rlg = s.rlg := rfl
@[simp] theorem setCtrl_bwr (c : Nat) (v : Ctrl) : (setCtrl c v s).bwr = s.bwr := rfl
@[simp] theorem setCtrl_cdc (c : Nat) (v : Ctrl) : (setCtrl c v s).cdc = s.cdc := rfl
@[simp] theorem setCtrl_ppu (c : Nat) (v : Ctrl) : (setCtrl c v s).ppu = s.ppu := rfl
@[simp] theorem setCtrl_mge (c : Nat) (v : Ctrl) : (setCtrl c v s).mge = s.mge := rfl
@[simp] theorem setCtrl_fmg (c : Nat) (v : Ctrl) : (setCtrl c v s).fmg = s.fmg := rfl
@[simp] theorem setCtrl_ice (c : Nat) (v : Ctrl) : (setCtrl c v s).ice = s.ice := rfl
@[simp] theorem setCtrl_tfl (c : Nat) (v : Ctrl) : (setCtrl c v s).tfl = s.tfl := rfl
@[simp] theorem setCtrl_sram (c : Nat) (v : Ctrl) : (setCtrl c v s).sram = s.sram := rfl
@[simp] theorem setCtrl_cvus (c : Nat) (v : Ctrl) : (setCtrl c v s).cvus = s.cvus := rfl
@[simp] theorem setCtrl_checks (c : Nat) (v : Ctrl) : (setCtrl c v s).checks = s.checks := rfl
@[simp] theorem setCtrl_tmx (c : Nat) (v : Ctrl) : (setCtrl c v s).tmx = s.tmx := rfl
@[simp] theorem setCtrl_grants (c : Nat) (v : Ctrl) : (setCtrl c v s).grants = s.grants := rfl
@[simp] theorem setCtrl_ppm (c : Nat) (v : Ctrl) : (setCtrl c v s).ppm = s.ppm := rfl
@[simp] theorem setCtrl_sht (c : Nat) (v : Ctrl) : (setCtrl c v s).sht = s.sht := rfl
@[simp] theorem setCtrl_rcp (c : Nat) (v : Ctrl) : (setCtrl c v s).rcp = s.rcp := rfl
@[simp] theorem setCtrl_fports (c : Nat) (v : Ctrl) : (setCtrl c v s).fports = s.fports := rfl
@[simp] theorem setCtrl_ftb (c : Nat) (v : Ctrl) : (setCtrl c v s).ftb = s.ftb := rfl
@[simp] theorem setCtrl_ccx (c : Nat) (v : Ctrl) : (setCtrl c v s).ccx = s.ccx := rfl
@[simp] theorem setCtrl_sss (c : Nat) (v : Ctrl) : (setCtrl c v s).sss = s.sss := rfl
@[simp] theorem setCtrl_sec (c : Nat) (v : Ctrl) : (setCtrl c v s).sec = s.sec := rfl
@[simp] theorem setCtrl_otp (c : Nat) (v : Ctrl) : (setCtrl c v s).otp = s.otp := rfl
@[simp] theorem setCtrl_lcc (c : Nat) (v : Ctrl) : (setCtrl c v s).lcc = s.lcc := rfl
@[simp] theorem setCtrl_boot (c : Nat) (v : Ctrl) : (setCtrl c v s).boot = s.boot := rfl

@[simp] theorem setCvu_pending (n : Nat) (v : Cvu) : (setCvu n v s).pending = s.pending := rfl
@[simp] theorem setCvu_sent (n : Nat) (v : Cvu) : (setCvu n v s).sent = s.sent := rfl
@[simp] theorem setCvu_draws (n : Nat) (v : Cvu) : (setCvu n v s).draws = s.draws := rfl
@[simp] theorem setCvu_mem (n : Nat) (v : Cvu) : (setCvu n v s).mem = s.mem := rfl
@[simp] theorem setCvu_descs (n : Nat) (v : Cvu) : (setCvu n v s).descs = s.descs := rfl
@[simp] theorem setCvu_plants (n : Nat) (v : Cvu) : (setCvu n v s).plants = s.plants := rfl
@[simp] theorem setCvu_regs (n : Nat) (v : Cvu) : (setCvu n v s).regs = s.regs := rfl
@[simp] theorem setCvu_pages (n : Nat) (v : Cvu) : (setCvu n v s).pages = s.pages := rfl
@[simp] theorem setCvu_cnts (n : Nat) (v : Cvu) : (setCvu n v s).cnts = s.cnts := rfl
@[simp] theorem setCvu_snaps (n : Nat) (v : Cvu) : (setCvu n v s).snaps = s.snaps := rfl
@[simp] theorem setCvu_now (n : Nat) (v : Cvu) : (setCvu n v s).now = s.now := rfl
@[simp] theorem setCvu_router (n : Nat) (v : Cvu) : (setCvu n v s).router = s.router := rfl
@[simp] theorem setCvu_dev (n : Nat) (v : Cvu) : (setCvu n v s).dev = s.dev := rfl
@[simp] theorem setCvu_hiu (n : Nat) (v : Cvu) : (setCvu n v s).hiu = s.hiu := rfl
@[simp] theorem setCvu_ple (n : Nat) (v : Cvu) : (setCvu n v s).ple = s.ple := rfl
@[simp] theorem setCvu_rlg (n : Nat) (v : Cvu) : (setCvu n v s).rlg = s.rlg := rfl
@[simp] theorem setCvu_bwr (n : Nat) (v : Cvu) : (setCvu n v s).bwr = s.bwr := rfl
@[simp] theorem setCvu_cdc (n : Nat) (v : Cvu) : (setCvu n v s).cdc = s.cdc := rfl
@[simp] theorem setCvu_ppu (n : Nat) (v : Cvu) : (setCvu n v s).ppu = s.ppu := rfl
@[simp] theorem setCvu_mge (n : Nat) (v : Cvu) : (setCvu n v s).mge = s.mge := rfl
@[simp] theorem setCvu_fmg (n : Nat) (v : Cvu) : (setCvu n v s).fmg = s.fmg := rfl
@[simp] theorem setCvu_dram (n : Nat) (v : Cvu) : (setCvu n v s).dram = s.dram := rfl
@[simp] theorem setCvu_ice (n : Nat) (v : Cvu) : (setCvu n v s).ice = s.ice := rfl
@[simp] theorem setCvu_tfl (n : Nat) (v : Cvu) : (setCvu n v s).tfl = s.tfl := rfl
@[simp] theorem setCvu_sram (n : Nat) (v : Cvu) : (setCvu n v s).sram = s.sram := rfl
@[simp] theorem setCvu_checks (n : Nat) (v : Cvu) : (setCvu n v s).checks = s.checks := rfl
@[simp] theorem setCvu_tmx (n : Nat) (v : Cvu) : (setCvu n v s).tmx = s.tmx := rfl
@[simp] theorem setCvu_grants (n : Nat) (v : Cvu) : (setCvu n v s).grants = s.grants := rfl
@[simp] theorem setCvu_ppm (n : Nat) (v : Cvu) : (setCvu n v s).ppm = s.ppm := rfl
@[simp] theorem setCvu_sht (n : Nat) (v : Cvu) : (setCvu n v s).sht = s.sht := rfl
@[simp] theorem setCvu_rcp (n : Nat) (v : Cvu) : (setCvu n v s).rcp = s.rcp := rfl
@[simp] theorem setCvu_fports (n : Nat) (v : Cvu) : (setCvu n v s).fports = s.fports := rfl
@[simp] theorem setCvu_ftb (n : Nat) (v : Cvu) : (setCvu n v s).ftb = s.ftb := rfl
@[simp] theorem setCvu_ccx (n : Nat) (v : Cvu) : (setCvu n v s).ccx = s.ccx := rfl
@[simp] theorem setCvu_sss (n : Nat) (v : Cvu) : (setCvu n v s).sss = s.sss := rfl
@[simp] theorem setCvu_sec (n : Nat) (v : Cvu) : (setCvu n v s).sec = s.sec := rfl
@[simp] theorem setCvu_otp (n : Nat) (v : Cvu) : (setCvu n v s).otp = s.otp := rfl
@[simp] theorem setCvu_lcc (n : Nat) (v : Cvu) : (setCvu n v s).lcc = s.lcc := rfl
@[simp] theorem setCvu_boot (n : Nat) (v : Cvu) : (setCvu n v s).boot = s.boot := rfl

@[simp] theorem setKey_pending (k : Nat) (v : KeySlot) : (setKey k v s).pending = s.pending := rfl
@[simp] theorem setKey_sent (k : Nat) (v : KeySlot) : (setKey k v s).sent = s.sent := rfl
@[simp] theorem setKey_draws (k : Nat) (v : KeySlot) : (setKey k v s).draws = s.draws := rfl
@[simp] theorem setKey_mem (k : Nat) (v : KeySlot) : (setKey k v s).mem = s.mem := rfl
@[simp] theorem setKey_descs (k : Nat) (v : KeySlot) : (setKey k v s).descs = s.descs := rfl
@[simp] theorem setKey_plants (k : Nat) (v : KeySlot) : (setKey k v s).plants = s.plants := rfl
@[simp] theorem setKey_regs (k : Nat) (v : KeySlot) : (setKey k v s).regs = s.regs := rfl
@[simp] theorem setKey_pages (k : Nat) (v : KeySlot) : (setKey k v s).pages = s.pages := rfl
@[simp] theorem setKey_cnts (k : Nat) (v : KeySlot) : (setKey k v s).cnts = s.cnts := rfl
@[simp] theorem setKey_snaps (k : Nat) (v : KeySlot) : (setKey k v s).snaps = s.snaps := rfl
@[simp] theorem setKey_now (k : Nat) (v : KeySlot) : (setKey k v s).now = s.now := rfl
@[simp] theorem setKey_router (k : Nat) (v : KeySlot) : (setKey k v s).router = s.router := rfl
@[simp] theorem setKey_dev (k : Nat) (v : KeySlot) : (setKey k v s).dev = s.dev := rfl
@[simp] theorem setKey_hiu (k : Nat) (v : KeySlot) : (setKey k v s).hiu = s.hiu := rfl
@[simp] theorem setKey_ple (k : Nat) (v : KeySlot) : (setKey k v s).ple = s.ple := rfl
@[simp] theorem setKey_rlg (k : Nat) (v : KeySlot) : (setKey k v s).rlg = s.rlg := rfl
@[simp] theorem setKey_bwr (k : Nat) (v : KeySlot) : (setKey k v s).bwr = s.bwr := rfl
@[simp] theorem setKey_cdc (k : Nat) (v : KeySlot) : (setKey k v s).cdc = s.cdc := rfl
@[simp] theorem setKey_ppu (k : Nat) (v : KeySlot) : (setKey k v s).ppu = s.ppu := rfl
@[simp] theorem setKey_mge (k : Nat) (v : KeySlot) : (setKey k v s).mge = s.mge := rfl
@[simp] theorem setKey_fmg (k : Nat) (v : KeySlot) : (setKey k v s).fmg = s.fmg := rfl
@[simp] theorem setKey_dram (k : Nat) (v : KeySlot) : (setKey k v s).dram = s.dram := rfl
@[simp] theorem setKey_ice (k : Nat) (v : KeySlot) : (setKey k v s).ice = s.ice := rfl
@[simp] theorem setKey_tfl (k : Nat) (v : KeySlot) : (setKey k v s).tfl = s.tfl := rfl
@[simp] theorem setKey_sram (k : Nat) (v : KeySlot) : (setKey k v s).sram = s.sram := rfl
@[simp] theorem setKey_cvus (k : Nat) (v : KeySlot) : (setKey k v s).cvus = s.cvus := rfl
@[simp] theorem setKey_checks (k : Nat) (v : KeySlot) : (setKey k v s).checks = s.checks := rfl
@[simp] theorem setKey_tmx (k : Nat) (v : KeySlot) : (setKey k v s).tmx = s.tmx := rfl
@[simp] theorem setKey_grants (k : Nat) (v : KeySlot) : (setKey k v s).grants = s.grants := rfl
@[simp] theorem setKey_ppm (k : Nat) (v : KeySlot) : (setKey k v s).ppm = s.ppm := rfl
@[simp] theorem setKey_sht (k : Nat) (v : KeySlot) : (setKey k v s).sht = s.sht := rfl
@[simp] theorem setKey_rcp (k : Nat) (v : KeySlot) : (setKey k v s).rcp = s.rcp := rfl
@[simp] theorem setKey_fports (k : Nat) (v : KeySlot) : (setKey k v s).fports = s.fports := rfl
@[simp] theorem setKey_ftb (k : Nat) (v : KeySlot) : (setKey k v s).ftb = s.ftb := rfl
@[simp] theorem setKey_ccx (k : Nat) (v : KeySlot) : (setKey k v s).ccx = s.ccx := rfl
@[simp] theorem setKey_sss (k : Nat) (v : KeySlot) : (setKey k v s).sss = s.sss := rfl
@[simp] theorem setKey_otp (k : Nat) (v : KeySlot) : (setKey k v s).otp = s.otp := rfl
@[simp] theorem setKey_lcc (k : Nat) (v : KeySlot) : (setKey k v s).lcc = s.lcc := rfl
@[simp] theorem setKey_boot (k : Nat) (v : KeySlot) : (setKey k v s).boot = s.boot := rfl

@[simp] theorem setDesc_pending (hb : Nat) (d : Desc) : (setDesc hb d s).pending = s.pending := rfl
@[simp] theorem setDesc_sent (hb : Nat) (d : Desc) : (setDesc hb d s).sent = s.sent := rfl
@[simp] theorem setDesc_draws (hb : Nat) (d : Desc) : (setDesc hb d s).draws = s.draws := rfl
@[simp] theorem setDesc_mem (hb : Nat) (d : Desc) : (setDesc hb d s).mem = s.mem := rfl
@[simp] theorem setDesc_plants (hb : Nat) (d : Desc) : (setDesc hb d s).plants = s.plants := rfl
@[simp] theorem setDesc_regs (hb : Nat) (d : Desc) : (setDesc hb d s).regs = s.regs := rfl
@[simp] theorem setDesc_pages (hb : Nat) (d : Desc) : (setDesc hb d s).pages = s.pages := rfl
@[simp] theorem setDesc_cnts (hb : Nat) (d : Desc) : (setDesc hb d s).cnts = s.cnts := rfl
@[simp] theorem setDesc_snaps (hb : Nat) (d : Desc) : (setDesc hb d s).snaps = s.snaps := rfl
@[simp] theorem setDesc_now (hb : Nat) (d : Desc) : (setDesc hb d s).now = s.now := rfl
@[simp] theorem setDesc_router (hb : Nat) (d : Desc) : (setDesc hb d s).router = s.router := rfl
@[simp] theorem setDesc_dev (hb : Nat) (d : Desc) : (setDesc hb d s).dev = s.dev := rfl
@[simp] theorem setDesc_hiu (hb : Nat) (d : Desc) : (setDesc hb d s).hiu = s.hiu := rfl
@[simp] theorem setDesc_ple (hb : Nat) (d : Desc) : (setDesc hb d s).ple = s.ple := rfl
@[simp] theorem setDesc_rlg (hb : Nat) (d : Desc) : (setDesc hb d s).rlg = s.rlg := rfl
@[simp] theorem setDesc_bwr (hb : Nat) (d : Desc) : (setDesc hb d s).bwr = s.bwr := rfl
@[simp] theorem setDesc_cdc (hb : Nat) (d : Desc) : (setDesc hb d s).cdc = s.cdc := rfl
@[simp] theorem setDesc_ppu (hb : Nat) (d : Desc) : (setDesc hb d s).ppu = s.ppu := rfl
@[simp] theorem setDesc_mge (hb : Nat) (d : Desc) : (setDesc hb d s).mge = s.mge := rfl
@[simp] theorem setDesc_fmg (hb : Nat) (d : Desc) : (setDesc hb d s).fmg = s.fmg := rfl
@[simp] theorem setDesc_dram (hb : Nat) (d : Desc) : (setDesc hb d s).dram = s.dram := rfl
@[simp] theorem setDesc_ice (hb : Nat) (d : Desc) : (setDesc hb d s).ice = s.ice := rfl
@[simp] theorem setDesc_tfl (hb : Nat) (d : Desc) : (setDesc hb d s).tfl = s.tfl := rfl
@[simp] theorem setDesc_sram (hb : Nat) (d : Desc) : (setDesc hb d s).sram = s.sram := rfl
@[simp] theorem setDesc_cvus (hb : Nat) (d : Desc) : (setDesc hb d s).cvus = s.cvus := rfl
@[simp] theorem setDesc_checks (hb : Nat) (d : Desc) : (setDesc hb d s).checks = s.checks := rfl
@[simp] theorem setDesc_tmx (hb : Nat) (d : Desc) : (setDesc hb d s).tmx = s.tmx := rfl
@[simp] theorem setDesc_grants (hb : Nat) (d : Desc) : (setDesc hb d s).grants = s.grants := rfl
@[simp] theorem setDesc_ppm (hb : Nat) (d : Desc) : (setDesc hb d s).ppm = s.ppm := rfl
@[simp] theorem setDesc_sht (hb : Nat) (d : Desc) : (setDesc hb d s).sht = s.sht := rfl
@[simp] theorem setDesc_rcp (hb : Nat) (d : Desc) : (setDesc hb d s).rcp = s.rcp := rfl
@[simp] theorem setDesc_fports (hb : Nat) (d : Desc) : (setDesc hb d s).fports = s.fports := rfl
@[simp] theorem setDesc_ftb (hb : Nat) (d : Desc) : (setDesc hb d s).ftb = s.ftb := rfl
@[simp] theorem setDesc_ccx (hb : Nat) (d : Desc) : (setDesc hb d s).ccx = s.ccx := rfl
@[simp] theorem setDesc_sss (hb : Nat) (d : Desc) : (setDesc hb d s).sss = s.sss := rfl
@[simp] theorem setDesc_sec (hb : Nat) (d : Desc) : (setDesc hb d s).sec = s.sec := rfl
@[simp] theorem setDesc_otp (hb : Nat) (d : Desc) : (setDesc hb d s).otp = s.otp := rfl
@[simp] theorem setDesc_lcc (hb : Nat) (d : Desc) : (setDesc hb d s).lcc = s.lcc := rfl
@[simp] theorem setDesc_boot (hb : Nat) (d : Desc) : (setDesc hb d s).boot = s.boot := rfl

@[simp] theorem setPlant_pending (hb : Nat) (p : Plant) : (setPlant hb p s).pending = s.pending := rfl
@[simp] theorem setPlant_sent (hb : Nat) (p : Plant) : (setPlant hb p s).sent = s.sent := rfl
@[simp] theorem setPlant_draws (hb : Nat) (p : Plant) : (setPlant hb p s).draws = s.draws := rfl
@[simp] theorem setPlant_mem (hb : Nat) (p : Plant) : (setPlant hb p s).mem = s.mem := rfl
@[simp] theorem setPlant_descs (hb : Nat) (p : Plant) : (setPlant hb p s).descs = s.descs := rfl
@[simp] theorem setPlant_regs (hb : Nat) (p : Plant) : (setPlant hb p s).regs = s.regs := rfl
@[simp] theorem setPlant_pages (hb : Nat) (p : Plant) : (setPlant hb p s).pages = s.pages := rfl
@[simp] theorem setPlant_cnts (hb : Nat) (p : Plant) : (setPlant hb p s).cnts = s.cnts := rfl
@[simp] theorem setPlant_snaps (hb : Nat) (p : Plant) : (setPlant hb p s).snaps = s.snaps := rfl
@[simp] theorem setPlant_now (hb : Nat) (p : Plant) : (setPlant hb p s).now = s.now := rfl
@[simp] theorem setPlant_router (hb : Nat) (p : Plant) : (setPlant hb p s).router = s.router := rfl
@[simp] theorem setPlant_dev (hb : Nat) (p : Plant) : (setPlant hb p s).dev = s.dev := rfl
@[simp] theorem setPlant_hiu (hb : Nat) (p : Plant) : (setPlant hb p s).hiu = s.hiu := rfl
@[simp] theorem setPlant_ple (hb : Nat) (p : Plant) : (setPlant hb p s).ple = s.ple := rfl
@[simp] theorem setPlant_rlg (hb : Nat) (p : Plant) : (setPlant hb p s).rlg = s.rlg := rfl
@[simp] theorem setPlant_bwr (hb : Nat) (p : Plant) : (setPlant hb p s).bwr = s.bwr := rfl
@[simp] theorem setPlant_cdc (hb : Nat) (p : Plant) : (setPlant hb p s).cdc = s.cdc := rfl
@[simp] theorem setPlant_ppu (hb : Nat) (p : Plant) : (setPlant hb p s).ppu = s.ppu := rfl
@[simp] theorem setPlant_mge (hb : Nat) (p : Plant) : (setPlant hb p s).mge = s.mge := rfl
@[simp] theorem setPlant_fmg (hb : Nat) (p : Plant) : (setPlant hb p s).fmg = s.fmg := rfl
@[simp] theorem setPlant_dram (hb : Nat) (p : Plant) : (setPlant hb p s).dram = s.dram := rfl
@[simp] theorem setPlant_ice (hb : Nat) (p : Plant) : (setPlant hb p s).ice = s.ice := rfl
@[simp] theorem setPlant_tfl (hb : Nat) (p : Plant) : (setPlant hb p s).tfl = s.tfl := rfl
@[simp] theorem setPlant_sram (hb : Nat) (p : Plant) : (setPlant hb p s).sram = s.sram := rfl
@[simp] theorem setPlant_cvus (hb : Nat) (p : Plant) : (setPlant hb p s).cvus = s.cvus := rfl
@[simp] theorem setPlant_checks (hb : Nat) (p : Plant) : (setPlant hb p s).checks = s.checks := rfl
@[simp] theorem setPlant_tmx (hb : Nat) (p : Plant) : (setPlant hb p s).tmx = s.tmx := rfl
@[simp] theorem setPlant_grants (hb : Nat) (p : Plant) : (setPlant hb p s).grants = s.grants := rfl
@[simp] theorem setPlant_ppm (hb : Nat) (p : Plant) : (setPlant hb p s).ppm = s.ppm := rfl
@[simp] theorem setPlant_sht (hb : Nat) (p : Plant) : (setPlant hb p s).sht = s.sht := rfl
@[simp] theorem setPlant_rcp (hb : Nat) (p : Plant) : (setPlant hb p s).rcp = s.rcp := rfl
@[simp] theorem setPlant_fports (hb : Nat) (p : Plant) : (setPlant hb p s).fports = s.fports := rfl
@[simp] theorem setPlant_ftb (hb : Nat) (p : Plant) : (setPlant hb p s).ftb = s.ftb := rfl
@[simp] theorem setPlant_ccx (hb : Nat) (p : Plant) : (setPlant hb p s).ccx = s.ccx := rfl
@[simp] theorem setPlant_sss (hb : Nat) (p : Plant) : (setPlant hb p s).sss = s.sss := rfl
@[simp] theorem setPlant_sec (hb : Nat) (p : Plant) : (setPlant hb p s).sec = s.sec := rfl
@[simp] theorem setPlant_otp (hb : Nat) (p : Plant) : (setPlant hb p s).otp = s.otp := rfl
@[simp] theorem setPlant_lcc (hb : Nat) (p : Plant) : (setPlant hb p s).lcc = s.lcc := rfl
@[simp] theorem setPlant_boot (hb : Nat) (p : Plant) : (setPlant hb p s).boot = s.boot := rfl

@[simp] theorem setFunc_hiu_rings (f : Nat) (v : Func) : (setFunc f v s).hiu.rings = s.hiu.rings := rfl
@[simp] theorem setFunc_hiu_p0 (f : Nat) (v : Func) : (setFunc f v s).hiu.p0 = s.hiu.p0 := rfl
@[simp] theorem setFunc_hiu_p1 (f : Nat) (v : Func) : (setFunc f v s).hiu.p1 = s.hiu.p1 := rfl
@[simp] theorem setRing_hiu_fns (f n : Nat) (v : Ring) : (setRing f n v s).hiu.fns = s.hiu.fns := rfl
@[simp] theorem setRing_hiu_p0 (f n : Nat) (v : Ring) : (setRing f n v s).hiu.p0 = s.hiu.p0 := rfl
@[simp] theorem setRing_hiu_p1 (f n : Nat) (v : Ring) : (setRing f n v s).hiu.p1 = s.hiu.p1 := rfl
@[simp] theorem setMap_ple_presented (k : Nat) (e : MapEntry) : (setMap k e s).ple.presented = s.ple.presented := rfl
@[simp] theorem setMap_ple_ctxs (k : Nat) (e : MapEntry) : (setMap k e s).ple.ctxs = s.ple.ctxs := rfl
@[simp] theorem setMap_ple_groups (k : Nat) (e : MapEntry) : (setMap k e s).ple.groups = s.ple.groups := rfl
@[simp] theorem setMap_ple_members (k : Nat) (e : MapEntry) : (setMap k e s).ple.members = s.ple.members := rfl
@[simp] theorem setMap_ple_windows (k : Nat) (e : MapEntry) : (setMap k e s).ple.windows = s.ple.windows := rfl
@[simp] theorem setMap_ple_parts (k : Nat) (e : MapEntry) : (setMap k e s).ple.parts = s.ple.parts := rfl
@[simp] theorem setMap_ple_drains (k : Nat) (e : MapEntry) : (setMap k e s).ple.drains = s.ple.drains := rfl
@[simp] theorem setMap_ple_leaving (k : Nat) (e : MapEntry) : (setMap k e s).ple.leaving = s.ple.leaving := rfl
@[simp] theorem setCtx_ple_presented (c : Nat) (v : Ctx) : (setCtx c v s).ple.presented = s.ple.presented := rfl
@[simp] theorem setCtx_ple_map (c : Nat) (v : Ctx) : (setCtx c v s).ple.map = s.ple.map := rfl
@[simp] theorem setCtx_ple_groups (c : Nat) (v : Ctx) : (setCtx c v s).ple.groups = s.ple.groups := rfl
@[simp] theorem setCtx_ple_members (c : Nat) (v : Ctx) : (setCtx c v s).ple.members = s.ple.members := rfl
@[simp] theorem setCtx_ple_windows (c : Nat) (v : Ctx) : (setCtx c v s).ple.windows = s.ple.windows := rfl
@[simp] theorem setCtx_ple_parts (c : Nat) (v : Ctx) : (setCtx c v s).ple.parts = s.ple.parts := rfl
@[simp] theorem setCtx_ple_drains (c : Nat) (v : Ctx) : (setCtx c v s).ple.drains = s.ple.drains := rfl
@[simp] theorem setCtx_ple_leaving (c : Nat) (v : Ctx) : (setCtx c v s).ple.leaving = s.ple.leaving := rfl
@[simp] theorem setChan_dram_ctrls (k : Nat) (v : Chan) : (setChan k v s).dram.ctrls = s.dram.ctrls := rfl
@[simp] theorem setChan_dram_population (k : Nat) (v : Chan) : (setChan k v s).dram.population = s.dram.population := rfl
@[simp] theorem setChan_dram_ranks (k : Nat) (v : Chan) : (setChan k v s).dram.ranks = s.dram.ranks := rfl
@[simp] theorem setChan_dram_frames1 (k : Nat) (v : Chan) : (setChan k v s).dram.frames1 = s.dram.frames1 := rfl
@[simp] theorem setChan_dram_capFrames2 (k : Nat) (v : Chan) : (setChan k v s).dram.capFrames2 = s.dram.capFrames2 := rfl
@[simp] theorem setChan_dram_frames2 (k : Nat) (v : Chan) : (setChan k v s).dram.frames2 = s.dram.frames2 := rfl
@[simp] theorem setChan_dram_retired1 (k : Nat) (v : Chan) : (setChan k v s).dram.retired1 = s.dram.retired1 := rfl
@[simp] theorem setChan_dram_retired2 (k : Nat) (v : Chan) : (setChan k v s).dram.retired2 = s.dram.retired2 := rfl
@[simp] theorem setChan_dram_serials (k : Nat) (v : Chan) : (setChan k v s).dram.serials = s.dram.serials := rfl
@[simp] theorem setCtrl_dram_chans (c : Nat) (v : Ctrl) : (setCtrl c v s).dram.chans = s.dram.chans := rfl
@[simp] theorem setCtrl_dram_population (c : Nat) (v : Ctrl) : (setCtrl c v s).dram.population = s.dram.population := rfl
@[simp] theorem setCtrl_dram_ranks (c : Nat) (v : Ctrl) : (setCtrl c v s).dram.ranks = s.dram.ranks := rfl
@[simp] theorem setCtrl_dram_frames1 (c : Nat) (v : Ctrl) : (setCtrl c v s).dram.frames1 = s.dram.frames1 := rfl
@[simp] theorem setCtrl_dram_capFrames2 (c : Nat) (v : Ctrl) : (setCtrl c v s).dram.capFrames2 = s.dram.capFrames2 := rfl
@[simp] theorem setCtrl_dram_frames2 (c : Nat) (v : Ctrl) : (setCtrl c v s).dram.frames2 = s.dram.frames2 := rfl
@[simp] theorem setCtrl_dram_retired1 (c : Nat) (v : Ctrl) : (setCtrl c v s).dram.retired1 = s.dram.retired1 := rfl
@[simp] theorem setCtrl_dram_retired2 (c : Nat) (v : Ctrl) : (setCtrl c v s).dram.retired2 = s.dram.retired2 := rfl
@[simp] theorem setCtrl_dram_serials (c : Nat) (v : Ctrl) : (setCtrl c v s).dram.serials = s.dram.serials := rfl

theorem twf_trising {α : Type} [DecidableEq α] {d : α} {t : Tbl α} (h : twf d t = true) : trising 0 t = true := by
  unfold twf at h
  exact (Bool.and_eq_true _ _ ▸ h).1

theorem tfind_tput_ne {α : Type} [DecidableEq α] {d : α} {t : Tbl α} {k j : Nat} {v : α} (h : trising 0 t = true) (hj : j ≠ k) :
    tfind (tput d t k v) j = tfind t j := by
  unfold tput
  split
  · exact tfind_tdel_ne h hj
  · exact tfind_tins_ne hj

variable {s}

theorem pageHdr_setPage (p : Nat) (v : Page) (h : Tidy s) : pageHdr (setPage p v s) p = v := tget_tput_same _ _ (twf_trising h.pages)

theorem pageHdr_setPage_ne (p : Nat) (v : Page) {q : Nat} (h : Tidy s) (e : q ≠ p) : pageHdr (setPage p v s) q = pageHdr s q := tget_tput_ne _ (twf_trising h.pages) e

theorem func_setFunc (f : Nat) (v : Func) (h : Tidy s) : func (setFunc f v s) f = v := tget_tput_same _ _ (twf_trising h.fns)

theorem func_setFunc_ne (f : Nat) (v : Func) {g : Nat} (h : Tidy s) (e : g ≠ f) : func (setFunc f v s) g = func s g := tget_tput_ne _ (twf_trising h.fns) e

theorem claimOf_setClaim (r : Nat) (v : ClaimRec) (h : Tidy s) : claimOf (setClaim r v s) r = v := tget_tput_same _ _ (twf_trising h.claims)

theorem claimOf_setClaim_ne (r : Nat) (v : ClaimRec) {q : Nat} (h : Tidy s) (e : q ≠ r) : claimOf (setClaim r v s) q = claimOf s q := tget_tput_ne _ (twf_trising h.claims) e

theorem tableAt_setTable (k : Nat) (v : TableEnt) (h : Tidy s) : tableAt (setTable k v s) k = v := tget_tput_same _ _ (twf_trising h.tables)

theorem tableAt_setTable_ne (k : Nat) (v : TableEnt) {j : Nat} (h : Tidy s) (e : j ≠ k) : tableAt (setTable k v s) j = tableAt s j := tget_tput_ne _ (twf_trising h.tables) e

theorem ctxAt_setCtx (c : Nat) (v : Ctx) (h : Tidy s) : ctxAt (setCtx c v s) c = v := tget_tput_same _ _ (twf_trising h.ctxs)

theorem ctxAt_setCtx_ne (c : Nat) (v : Ctx) {d : Nat} (h : Tidy s) (e : d ≠ c) : ctxAt (setCtx c v s) d = ctxAt s d := tget_tput_ne _ (twf_trising h.ctxs) e

theorem fportAt_setFport (p : Nat) (v : FPort) (h : Tidy s) : fportAt (setFport p v s) p = v := tget_tput_same _ _ (twf_trising h.fports)

theorem fportAt_setFport_ne (p : Nat) (v : FPort) {q : Nat} (h : Tidy s) (e : q ≠ p) : fportAt (setFport p v s) q = fportAt s q := tget_tput_ne _ (twf_trising h.fports) e

theorem chanAt_setChan (k : Nat) (v : Chan) (h : Tidy s) : chanAt (setChan k v s) k = v := tget_tput_same _ _ (twf_trising h.chans)

theorem chanAt_setChan_ne (k : Nat) (v : Chan) {j : Nat} (h : Tidy s) (e : j ≠ k) : chanAt (setChan k v s) j = chanAt s j := tget_tput_ne _ (twf_trising h.chans) e

theorem ctrlAt_setCtrl (c : Nat) (v : Ctrl) (h : Tidy s) : ctrlAt (setCtrl c v s) c = v := tget_tput_same _ _ (twf_trising h.ctrls)

theorem ctrlAt_setCtrl_ne (c : Nat) (v : Ctrl) {d : Nat} (h : Tidy s) (e : d ≠ c) : ctrlAt (setCtrl c v s) d = ctrlAt s d := tget_tput_ne _ (twf_trising h.ctrls) e

theorem cvuAt_setCvu (n : Nat) (v : Cvu) (h : Tidy s) : cvuAt (setCvu n v s) n = v := tget_tput_same _ _ (twf_trising h.cvus)

theorem cvuAt_setCvu_ne (n : Nat) (v : Cvu) {m : Nat} (h : Tidy s) (e : m ≠ n) : cvuAt (setCvu n v s) m = cvuAt s m := tget_tput_ne _ (twf_trising h.cvus) e

theorem descAt_setDesc (b : Nat) (v : Desc) (h : Tidy s) : descAt (setDesc b v s) b = v := tget_tput_same _ _ (twf_trising h.descs)

theorem descAt_setDesc_ne (b : Nat) (v : Desc) {c : Nat} (h : Tidy s) (e : c ≠ b) : descAt (setDesc b v s) c = descAt s c := tget_tput_ne _ (twf_trising h.descs) e

theorem plantAt_setPlant (b : Nat) (v : Plant) (h : Tidy s) : plantAt (setPlant b v s) b = v := tget_tput_same _ _ (twf_trising h.plants)

theorem plantAt_setPlant_ne (b : Nat) (v : Plant) {c : Nat} (h : Tidy s) (e : c ≠ b) : plantAt (setPlant b v s) c = plantAt s c := tget_tput_ne _ (twf_trising h.plants) e

theorem ringOf_setRing (f n : Nat) (v : Ring) (h : Tidy s) : ringOf (setRing f n v s) f n = v :=
  tget_tput_same _ _ (twf_trising h.rings)

theorem ringOf_setRing_ne (f n : Nat) (v : Ring) {g m : Nat} (h : Tidy s) (e : ringKey g m ≠ ringKey f n) :
    ringOf (setRing f n v s) g m = ringOf s g m := tget_tput_ne _ (twf_trising h.rings) e

theorem mapAt_setMap (k : Nat) (v : MapEntry) (h : Tidy s) : mapAt (setMap k v s) k = v :=
  tget_tput_same _ _ h.map

theorem mapAt_setMap_ne (k : Nat) (v : MapEntry) {j : Nat} (h : Tidy s) (e : j ≠ k) : mapAt (setMap k v s) j = mapAt s j :=
  congrArg (·.getD (mapDefault s j)) (tfind_tput_ne h.map e)

theorem reg_setReg (p off : Nat) (w : Word) (h : Tidy s) : reg (setReg p off w s) p off = w :=
  tget_tput_same _ _ h.regs

theorem reg_setReg_ne (p off : Nat) (w : Word) {q o : Nat} (h : Tidy s) (e : regKey q o ≠ regKey p off) :
    reg (setReg p off w s) q o = reg s q o := congrArg (·.getD (regReset q o)) (tfind_tput_ne h.regs e)

theorem counter_countBy (p off n : Nat) (h : Tidy s) : counter (countBy p off n s) p off = (counter s p off + n) % 2 ^ 64 :=
  tget_tput_same _ _ (twf_trising h.cnts)

theorem counter_countBy_ne (p off n : Nat) {q o : Nat} (h : Tidy s) (e : regKey q o ≠ regKey p off) :
    counter (countBy p off n s) q o = counter s q o := tget_tput_ne _ (twf_trising h.cnts) e

end Sys2Proof.Machine
end

