-- ==== Sys2Proof/Machine/View.lean ====
section
/-! DEFINITION. Sys2Proof/Machine/View.lean: what a read of a register page returns, as a function of the state. Reads that
change state (SEC_GRANT_NONCE, TMX_TRACE_DATA) have rows of their own; every other read is a view and changes nothing. -/

namespace Sys2Proof.Machine

/-- A register word put together from fields (high bit, low bit, value). -/
def word (l : List (Nat × Nat × Nat)) : Nat := listSum (l.map (fun f => place f.2.2 f.2.1 (f.1 + 1 - f.2.1)))

/-- The bits `n` below `k` that satisfy a test, as a bit mask. -/
def maskOf (k : Nat) (p : Nat → Bool) : Nat := listSum ((List.range k).map (fun n => if p n then 2 ^ n else 0))

/-! Presets: DIFFERS (R22) -/

/-- The mask that HASH_PRESET gives an output of a tier (Tables 07-2 and 07-3, R166). -/
def presetHash (s : State) (t2 : Bool) (n : Nat) : Nat :=
  if outputAbsent s t2 n then 0 else presetMask t2 (fld s (maskPage t2) 0x40 2 0) n

/-- A hash mask of the tier differs from the one of its preset. -/
def hashDiffers (s : State) (t2 : Bool) : Bool :=
  (List.range (if t2 then 12 else 13)).any (fun n => decide (hashMask s t2 n ≠ presetHash s t2 n))

/-- DIFFERS of a page with a preset: an expert register differs from the value that the preset gives it. -/
def differs (s : State) (p : Nat) : Bool :=
  match pageOf p with
  | none => false
  | some (t, _) =>
    hasPreset t &&
      (match presetValues t (bits (reg s p 0x40) (presetBits t).1 (presetBits t).2) with
       | some l => l.any (fun x => match regAt p x.1 with
           | some (d, _) => d.flds.any (fun f => decide (bits (reg s p x.1) f.hi f.lo ≠ bits (BitVec.ofNat 64 x.2) f.hi f.lo) &&
               !(decide (t = .ppm) && decide (f.lo ≠ 0)))
           | none => false)
       | none => false) ||
      (decide (t = .smc) && hashDiffers s false) || (decide (t = .dmc) && hashDiffers s true)

/-! Header (R445 – R449) -/

/-- CCX_STATUS.ONLINE. -/
def coresOnline (s : State) : Nat := maskOf 16 (fun n => decide ((coreAt s n).state = .online))

/-- The unit of a page can do its work (R445). -/
def inService (s : State) (p : Nat) : Bool :=
  let started := !s.boot.halted && decide (s.ccx.supState ≠ 0)
  let hdr := pageHdr s p
  !hdr.resetting && (match pageOf p with
    | none => false
    | some (.hiu, n) => portUp s n
    | some (.fpt, n) => fportUp s n
    | some (.smc, n) => (chansOf n).any (fun k => (chanAt s k).online)
    | some (.sch, n) => (chanAt s n).online
    | some (.dmc, n) => (chanAt s (256 + n)).online
    | some (.flc, n) => (flcAt s n).trained && decide ((fgroup s (n / 16)).state = .online)
    | some (.fmg, _) => t3Online s
    | some (.cvu, _) => hdr.enable
    | some (.ppu, _) => hdr.enable
    | some (.sht, _) => sheetAvailable s
    | some (.row, n) => decide (rowFailed s n + s.sht.cols ≤ 102) && decide (0 < s.sht.cols)
    | some (.ccx, _) => started && decide (s.sss.state ≠ .safe) && decide (fld s Pg.ccx 0x400 31 28 ≤ popcount 16 (coresOnline s))
    | some (.ccx1, _) => started && decide (s.sss.state ≠ .safe)
    | some (.bare 0x16, _) => started && decide (s.sss.state ≠ .safe)
    | some _ => started)

/-- Pages in the page group (R446). -/
def groupPages : PageType → Nat
  | .ple | .bare 0x05 | .ccx | .ccx1 | .bare 0x16 => 4
  | .cdc | .bare 0x07 | .rlg | .rlg1 | .lcc | .lcc1 => 2
  | _ => 1

/-- Counters in use at 0xE08 and above: the counter tables of the chapters. -/
def counters : PageType → Nat
  | .dev => 2 | .hiu => 10 | .fpt => 13 | .ftb => 6 | .ftbs => 0 | .ple => 0 | .mge => 22 | .cdc => 8 | .ppu => 9
  | .smc => 11 | .sch => 0 | .dmc => 11 | .fmg => 10 | .flc => 0 | .ice => 10 | .tfl => 9 | .cvu => 4 | .rlg => 3 | .rlg1 => 0
  | .bwr => 3 | .sht => 9 | .row => 0 | .rcp => 11 | .ccx => 8 | .ccx1 => 0 | .sss => 0 | .ppm => 6 | .lcc => 2 | .lcc1 => 0
  | .sec => 4 | .tmx => 5 | .iox => 0 | .bare _ => 0

/-- Owner code of R430. -/
def Owner.code : Owner → Nat
  | .free => 0 | .firmware => 1 | .pf => 2 | .debug => 3 | .test => 4 | .sss => 7

/-- The page has expert registers. -/
def hasExpert (t : PageType) : Bool := (regsOf t).any (fun d => decide (0x400 ≤ d.off))

/-- The common header and CNT_SNAP of a page. -/
def headerWord (s : State) (p off : Nat) : Option Nat :=
  match pageOf p with
  | none => none
  | some (t, n) =>
    let h := pageHdr s p
    let c := pageHdr s (claimPage p)
    let rw := match t with | .fpt | .cvu | .ppu => true | _ => false
    if off = 0x00 then some (word [(31, 24, t.code), (23, 12, n), (11, 0, 1)])
    else if off = 0x04 then
      some (word [(23, 16, counters t), (15, 8, groupPages t), (4, 4, boolNat (decide (claimPage p ≠ p))), (3, 3, boolNat (hasPreset t)),
                  (2, 2, boolNat (hasExpert t)), (1, 1, boolNat rw), (0, 0, boolNat (resettable t))])
    else if off = 0x08 then some (word [(3, 3, if c.owner = .pf then c.port else 0), (2, 0, c.owner.code)])
    else if off = 0x0C then
      some (word [(1, 1, boolNat (if rw then unitEnabled s p else inService s p)), (0, 0, boolNat h.resetting)])
    else if off = 0x10 then
      some (word [(3, 3, boolNat (differs s p)), (2, 2, boolNat h.unlocked), (1, 1, boolNat h.resetting), (0, 0, boolNat (inService s p))])
    else if off = 0x14 then some h.evtRaw.toNat
    else if off = 0x18 then some h.evtMask.toNat
    else if off = 0x1C then some h.evtPend.toNat
    else if off = 0x20 then some h.errCorr
    else if off = 0x24 then some h.errUncorr
    else if off = 0x28 then
      some (word [(63, 48, h.lastErr.status), (47, 44, h.lastErr.kind), (43, 32, h.lastErr.off), (31, 20, h.lastErr.fn)])
    else if off = 0xE00 then some (word [(63, 32, h.ignored), (31, 16, h.seq)])
    else if 0xE08 ≤ off ∧ off ≤ 0xFF8 ∧ off % 8 = 0 then some (tget 0 s.snaps (regKey p off))
    else none

/-! Status registers, unit by unit -/

/-- DEV (chapters 01 and 20). -/
def devWord (s : State) (off : Nat) : Option Nat :=
  let q := s.dev.profile
  if off = 0x40 then some (word [(63, 48, s.dev.vendorId), (47, 32, s.dev.deviceId), (23, 20, s.dev.stepping), (19, 16, s.dev.part)])
  else if off = 0x48 then some s.dev.serial
  else if off = 0x50 then
    some (word [(27, 27, boolNat s.dev.memEnabled), (26, 26, boolNat (sheetAvailable s)),
                (25, 24, maskOf 2 (fun g => decide ((fgroup s g).state = .online))), (23, 8, maskOf 16 (fun n => (chanAt s (256 + n)).online)),
                (7, 0, maskOf 8 (fun c => (chansOf c).any (fun k => (chanAt s k).online)))])
  else if off = 0x58 then
    some (maskOf 28 (fun i => s.pages.any (fun x => decide (x.2.evtPend ≠ 0) && (pageOf x.1).any (fun y => decide (y.1.code = i + 1)))))
  else if off = 0x80 then
    some (word [(21, 20, q.flashUse), (17, 16, q.placement), (13, 12, q.envelope), (9, 8, q.compression), (4, 4, q.determinism), (1, 0, q.split)])
  else if off = 0x84 then
    some (word [(31, 16, s.dev.reason), (10, 8, s.dev.refusedField), (4, 4, (pageHdr s Pg.dev).port),
                (1, 0, match s.dev.state with | .applied => 0 | .inProgress => 1 | .refused => 2)])
  else none

/-- PLE (chapter 02). -/
def pleWord (s : State) (off : Nat) : Option Nat :=
  let n := (off - 0x80) / 16
  if off = 0x40 then some s.ple.presented
  else if off = 0x48 then some s.ple.ctxCmd.toNat
  else if off = 0x50 then some (word [(63, 48, s.ple.ctxStatus), (47, 47, boolNat s.ple.ctxDone), (19, 0, s.ple.ctxResult)])
  else if off = 0x180 then
    some (word [(63, 60, s.ple.deny.path), (59, 56, s.ple.deny.step), (55, 44, s.ple.deny.fn), (43, 24, s.ple.deny.ctx), (23, 0, s.ple.deny.slab)])
  else if 0x80 ≤ off ∧ off < 0x180 ∧ off % 16 = 0 then
    some (word [(63, 63, boolNat (partAt s n).valid), (62, 62, (partAt s n).port), (51, 32, (partAt s n).ctx), (23, 0, (partAt s n).first)])
  else if 0x80 ≤ off ∧ off < 0x180 ∧ off % 16 = 8 then some (word [(24, 0, (partAt s n).count)])
  else none

/-- CDC (chapter 03). -/
def cdcWord (s : State) (off : Nat) : Option Nat :=
  if off = 0x40 then some (word [(2, 2, boolNat s.cdc.flushing), (1, 0, fld s Pg.cdc 0x40 1 0)])
  else if off = 0x48 then
    some (word [(63, 60, s.cdc.fault.check), (59, 57, s.cdc.fault.path), (56, 54, s.cdc.fault.sub), (51, 40, s.cdc.fault.table), (35, 0, s.cdc.fault.block)])
  else if off = 0x50 then some (word [(16, 0, s.cdc.tray.length)])
  else none

/-- STATE of PPU_TABLE_INFO: a table with a pending retirement reads LIVE. -/
def TableEnt.code (e : TableEnt) : Nat :=
  match e.state with | .free => 0 | .building => 1 | .live => 2 | .retiring => if e.pending then 2 else 3 | .quarantine => 4

/-- PPU (chapter 04). FORMAT of a table stands in its image (Table 04-2). -/
def ppuWord (s : State) (off : Nat) : Option Nat :=
  let id := fld s Pg.ppu 0x58 11 0
  let e := tableAt s id
  if off = 0x48 then
    some (word [(27, 16, 0xBFF - (tkeys (fun k x => isDeviceId k && decide (x.state ≠ .free)) s.ppu.tables).length),
                (10, 10, boolNat (decide ((claimOf s resScan).user = .ppu))), (9, 9, boolNat (runningPass s).isSome), (8, 0, queuedPasses s)])
  else if off = 0x50 then some (word [(63, 32, s.ppu.current.toNat), (31, 0, lowWater s)])
  else if off = 0x60 then
    some (word [(63, 61, e.code), (60, 57, (e.data.getD 128 0).toNat / 16), (56, 56, boolNat (isRecipeId id)), (55, 36, e.owner),
                (32, 32, boolNat e.pending), (31, 16, e.pins), (8, 0, e.peers.length)])
  else if off = 0x68 then some (word [(63, 32, e.retireEpoch), (31, 0, e.refs / 256)])
  else if off = 0x70 then some (word [(19, 12, e.refs)])
  else none

/-- MGE (chapter 05). -/
def mgeWord (s : State) (off : Nat) : Option Nat :=
  if off = 0x48 then
    some (word [(43, 23, (tkeys (fun _ v => v.isSome) s.mge.votes).length),
                (18, 6, s.mge.moves.countP (fun m => decide (4 ≤ m.cls) && decide (m.phase = .queued))),
                (5, 0, s.mge.moves.countP (fun m => decide (m.phase ≠ .queued)))])
  else if off = 0x50 then some (word [(63, 60, s.mge.stallCause), (43, 24, s.mge.stallCtx), (23, 0, s.mge.stallSlab)])
  else if off = 0x58 then some (word [(23, 16, poolSize .t3), (15, 8, poolSize .t2), (7, 0, poolSize .t1)])
  else none

def GroupState.code : GroupState → Nat
  | .absent => 0 | .mounting => 1 | .online => 2 | .failed => 3

/-- FMG (chapter 06). -/
def fmgWord (s : State) (off : Nat) : Option Nat :=
  let (slab, b, who, cw, ch) := s.fmg.poisonLast
  if off = 0x48 then
    some (word [(31, 16, s.fmg.reason), (6, 6, boolNat s.fmg.scanned), (5, 5, boolNat s.fmg.spareExhausted), (4, 3, s.fmg.g1.state.code),
                (2, 1, s.fmg.g0.state.code), (0, 0, boolNat (t3Online s))])
  else if off = 0x50 then some (word [(55, 40, freeSbs s 1), (39, 24, freeSbs s 0), (23, 0, s.fmg.usableFrames)])
  else if off = 0x58 then some (word [(63, 59, ch), (58, 57, cw), (56, 36, who), (35, 24, b), (23, 0, slab)])
  else none

/-- FLC (chapter 06). -/
def flcWord (s : State) (n off : Nat) : Option Nat :=
  let f := flcAt s n
  if off = 0x40 then some (word [(31, 24, f.present), (23, 16, f.usable), (15, 8, f.retired.length), (0, 0, boolNat f.trained)])
  else if off = 0x48 then some (word [(63, 48, f.family), (47, 32, f.pagesPerBlock), (31, 8, f.blocksPerLun), (7, 0, f.lunsPerTarget)])
  else none

def SrState.code : SrState → Nat
  | .active => 0 | .entering => 1 | .inSr => 2 | .exiting => 3

/-- SCH_STATUS; in DMC_STATUS bits 30:24 hold REASON (Table 07-8). -/
def chanWord (s : State) (k : Nat) : Nat :=
  let c := chanAt s k
  word [(31, 31, boolNat c.online), (30, 24, if k < 256 then 0 else c.reason), (17, 17, boolNat (inCatchup s k)),
        (16, 16, boolNat (panicApplies s k)), (13, 12, c.sr.code), (9, 8, (ctrlAt s (chanCtrl k)).range), (7, 0, listMax c.debt)]

/-- SMC and DMC (chapter 07), for controller `c`; masks and HASH_PRESET read the tier's values in every instance (R167). -/
def dramWord (s : State) (c off : Nat) : Option Nat :=
  let t2 := decide (8 ≤ c)
  let k := ctrlAt s c
  let debts := if t2 then (chanAt s (256 + (c - 8))).debt else (chansOf c).map (fun x => listMax (chanAt s x).debt)
  if off = 0x40 then
    some (word [(8, 8, boolNat (differs s (ctrlPage c))), (5, 4, fld s (ctrlPage c) 0x40 5 4), (2, 0, fld s (maskPage t2) 0x40 2 0)])
  else if off = 0x48 then some (word [(31, 24, k.fill), (16, 16, boolNat k.panic)])
  else if off = 0x50 then some (word [(47, 32, kPermille s c), (31, 0, floorOf s c)])
  else if off = 0x58 then some (word [(15, 8, if t2 then 0 else k.tempC), (1, 0, k.range)])
  else if off = 0x60 ∧ t2 then some (chanWord s (256 + (c - 8)))
  else if off = 0x68 ∧ t2 then some (word [(15, 0, (chanAt s (256 + (c - 8))).srBoundNs)])
  else if off = 0x140 then
    some (word [(20, 16, (debts.idxOf? (listMax debts)).getD 0), (13, 8, (chansOf c).countP (inCatchup s)), (7, 0, listMax debts)])
  else if 0x400 ≤ off ∧ off < 0x480 ∧ off % 8 = 0 then
    (if (off - 0x400) / 8 < (if t2 then 12 else 13) then some (hashMask s t2 ((off - 0x400) / 8)) else none)
  else none

/-- ICE (chapter 08). -/
def iceWord (s : State) (off : Nat) : Option Nat :=
  let prog (t : Tier) : Nat := word [(63, 32, (patrolOf s t).passes), (31, 16, patrolDone s t), (15, 0, min 1000 (patrolOf s t).lag)]
  let u := s.ice.lastUe
  if off = 0x48 then
    some (word [(10, 8, maskOf 3 (fun i => (patrolOf s (tiers.getD i .t1)).catchup)), (2, 0, maskOf 3 (fun i => (patrolOf s (tiers.getD i .t1)).active))])
  else if off = 0x50 then some (prog .t1)
  else if off = 0x58 then some (prog .t2)
  else if off = 0x60 then some (prog .t3)
  else if off = 0x68 then some (word [(63, 60, u.cause), (59, 58, u.tier), (57, 56, u.detector), (55, 36, u.owner), (35, 0, u.block)])
  else if off = 0x70 then
    some (word [(31, 31, boolNat s.ice.testPass), (30, 30, boolNat s.ice.testDone), (29, 24, s.ice.expandersRemoved), (11, 0, s.ice.testFailed)])
  else none

/-- TFL (chapter 08). -/
def tflWord (s : State) (off : Nat) : Option Nat :=
  let x := s.tfl.last
  if off = 0x40 then some (word [(28, 16, s.tfl.entries.length), (12, 0, s.tfl.entries.countP (fun e => decide (e.state = .hard)))])
  else if off = 0x48 then some (word [(29, 16, s.tfl.remap2.length), (13, 0, s.tfl.remap1.length)])
  else if off = 0x50 then
    some (word [(63, 61, x.action), (60, 59, x.tier), (58, 51, x.unit), (50, 46, x.bank), (45, 28, x.row), (23, 0, x.frame)])
  else if off = 0x58 then some (word [(31, 16, s.boot.repairs.length), (0, 0, boolNat (decide (16384 ≤ s.boot.repairs.length)))])
  else none

/-- CVU (chapter 09). -/
def cvuWord (s : State) (n off : Nat) : Option Nat :=
  let v := cvuAt s n
  if off = 0x60 then some v.result
  else if off = 0x68 then
    some (word [(63, 48, v.reason), (47, 46, match v.state with | .idle => 0 | .running => 1 | .done => 2 | .fault => 3), (40, 0, v.off)])
  else none

/-- RLG0 and RLG1 (chapter 10). -/
def rlgWord (s : State) (off : Nat) : Option Nat :=
  let c := fld s Pg.rlg 0x58 19 0
  let r := resvOf s c
  let tier (t : Tier) : Nat := word [(47, 24, reservedFrames s t), (23, 0, available s t)]
  let q := s.rlg.refusal
  if off = 0x40 then some (tier .t1)
  else if off = 0x48 then some (tier .t2)
  else if off = 0x50 then some (tier .t3)
  else if off = 0x60 then some (word [(63, 40, r.f3), (39, 20, r.f2), (19, 0, r.f1)])
  else if off = 0x68 then some (word [(63, 40, r.b1), (39, 20, r.b2), (19, 0, r.b3)])
  else if off = 0x70 then
    some (word [(56, 32, (slabsOf s c).countP (fun k => (mapAt s k).releasing)), (24, 0, (slabsOf s c).countP (fun k => !(mapAt s k).releasing))])
  else if off = 0x78 then
    some (word [(63, 48, q.status), (47, 43, q.ctrl), (42, 22, min 2097151 q.requested), (21, 1, min 2097151 q.headroom)])
  else none

def rlg1Word (s : State) (off : Nat) : Option Nat :=
  let c := fld s (Pg.rlg + 1) 0x40 4 0
  if off = 0x48 then
    some (word [(63, 63, boolNat (s.rlg.overCtrls.contains c)), (62, 42, heldDemand s c), (41, 21, demandOf s c), (20, 0, floorOf s c)])
  else if off = 0x50 then
    some (word [(26, 17, (scaleOf s c).2), (16, 16, boolNat (decide ((scaleOf s c).1 < 1000) || decide ((scaleOf s c).2 < 1000))),
                (9, 0, (scaleOf s c).1)])
  else none

/-- BWR (chapter 10). DELIVERED is the mean of the bytes of the last 16 windows over the length of a window. -/
def bwrWord (s : State) (off : Nat) : Option Nat :=
  let c := fld s Pg.bwr 0x48 12 8
  let m := fld s Pg.bwr 0x48 4 0
  let w := winAt s c m
  if off = 0x50 then
    some (word [(42, 42, boolNat w.throttled), (41, 21, listSum w.last16 * 1000 / (16 * windowNs s)), (20, 0, masterGuarantee s m c)])
  else none

/-- PPM (chapter 11). -/
def ppmWord (s : State) (off : Nat) : Option Nat :=
  let x := s.ppm
  if off = 0x48 then
    some (word [(7, 7, boolNat x.avsFault), (6, 6, boolNat x.envExceeded), (5, 5, boolNat x.shortfall), (4, 4, boolNat (idleDropped s)),
                (3, 3, boolNat ((List.range 8).any (fun c => decide ((ctrlAt s c).range = 2)))), (2, 2, boolNat x.stop), (1, 1, boolNat x.hot),
                (0, 0, boolNat x.warn)])
  else if off = 0x50 then some (word [(63, 48, x.floorMbeat), (37, 32, x.minSensor), (31, 16, x.paceMean), (15, 0, x.paceMin)])
  else if off = 0x58 then some (word [(63, 48, x.senseMv), (47, 32, x.vreq), (31, 16, powerMean x), (15, 0, x.watts)])
  else if off = 0x60 then some (word [(31, 24, x.tj), (15, 8, x.sensor), (7, 0, x.stackMax)])
  else none

def ShtState.code : ShtState → Nat
  | .idle => 0 | .loading => 1 | .streaming => 2 | .merging => 3 | .draining => 4 | .remapping => 5 | .unavailable => 6 | .frozen => 7

/-- SHT (chapter 12). -/
def shtWord (s : State) (off : Nat) : Option Nat :=
  let x := s.sht
  let f := x.fault
  let least := (List.range 100).foldl (fun m r => min m (102 - rowFailed s r - x.cols)) 2
  if off = 0x48 then
    some (word [(31, 31, boolNat (sheetAvailable s)), (25, 24, if x.tested then least else 0), (23, 16, x.cols),
                (15, 8, if x.tested then 100 else 0), (7, 0, 90)])
  else if off = 0x50 then
    some (word [(31, 28, if x.remapDue && decide (x.state = .idle) then ShtState.remapping.code else x.state.code), (27, 24, x.op), (23, 23, boolNat x.elastic), (22, 22, boolNat x.rtz), (19, 0, x.ctx)])
  else if off = 0x58 then
    some (word [(63, 60, f.cause), (57, 51, f.row), (50, 44, f.physCol), (43, 37, f.logicalCol), (23, 20, f.op), (19, 0, f.ctx)])
  else none

/-- ROW page `r` (chapter 12). -/
def rowWord (s : State) (r off : Nat) : Option Nat :=
  let col := fld s (Pg.row + r) 0x58 6 0
  let t := tileAt s r col
  let good := 102 - rowFailed s r
  if off = 0x40 then some (maskOf 64 (fun n => decide ((tileAt s r n).cause ≠ 0)))
  else if off = 0x48 then some (maskOf 38 (fun n => decide ((tileAt s r (64 + n)).cause ≠ 0)))
  else if off = 0x50 then
    some (word [(31, 24, good), (23, 16, rowFailed s r), (11, 8, if s.sht.tested then good - s.sht.cols else 2),
                (2, 0, (List.range 102).foldl (fun m n => min m (tileAt s r n).spares) 4)])
  else if off = 0x60 then
    some (word [(63, 62, if t.cause = 0 then 0 else if t.cause = 7 then 2 else 1), (61, 58, t.cause), (57, 51, logicalCol s r col),
                (50, 48, t.spares), (47, 44, min 15 (lastDay s t.transit).length), (43, 40, min 15 (lastDay s t.storeUe).length),
                (39, 0, t.corrected)])
  else none

/-- RCP (chapter 13). -/
def rcpWord (s : State) (off : Nat) : Option Nat :=
  let h := fld s Pg.rcp 0x68 3 0
  let st : RunState → Nat := fun x => match x with | .armed => 1 | .running => 2 | .stalled => 3 | .ending => 4
  if off = 0x48 then
    some (match s.rcp.run with
      | none => 0
      | some r => word [(63, 60, st r.state), (59, 56, r.handle), (55, 44, r.step), (39, 20, ((recipeAt s r.handle).map (·.ctx)).getD 0),
                        (19, 0, min 1048575 r.delta)])
  else if off = 0x50 then some (word [(43, 20, 4194304 - rcpUsed s), (15, 0, maskOf 16 (fun n => (recipeAt s n).isSome))])
  else if off = 0x58 then
    some (word [(63, 48, s.rcp.loadLast.status), (47, 44, s.rcp.loadLast.check), (43, 32, s.rcp.loadLast.index), (19, 0, s.rcp.loadLast.ctx)])
  else if off = 0x60 then
    some (word [(63, 48, s.rcp.runLast.status), (47, 44, s.rcp.runLast.handle), (43, 32, s.rcp.runLast.endStep),
                (31, 20, s.rcp.runLast.restart), (19, 0, s.rcp.runLast.delta)])
  else if off = 0x70 then
    some (match recipeAt s h with
      | none => 0
      | some q => word [(63, 63, 1), (62, 62, boolNat q.img.elastic), (61, 61, boolNat q.img.lead), (60, 60, boolNat q.img.shapeFlex),
                        (59, 47, q.img.steps.length), (46, 38, q.img.peers.length), (37, 34, q.img.tables.length), (19, 0, q.ctx)])
  else if off = 0x78 then some (match recipeAt s h with | none => 0 | some q => q.img.group)
  else none

def FpState.code : FpState → Nat
  | .down => 0 | .training => 1 | .auth => 2 | .time => 3 | .up => 4 | .authFailed => 5 | .disabled => 6

/-- FPT page `n` (chapter 14). -/
def fptWord (s : State) (n off : Nat) : Option Nat :=
  let v := fportAt s n
  let p := v.partner
  if off = 0x48 then
    some (word [(31, 24, v.reason), (23, 16, v.lanes), (11, 10, v.width), (9, 9, boolNat v.decode), (8, 8, boolNat v.responder), (3, 0, v.state.code)])
  else if off = 0x50 then
    some (word [(63, 47, p.dev), (46, 46, boolNat p.accelerator), (45, 45, boolNat p.decode), (44, 44, boolNat p.rootEligible),
                (43, 31, p.slots), (30, 28, p.root)])
  else none

/-- FTB (chapter 14). -/
def ftbWord (s : State) (off : Nat) : Option Nat :=
  let x := s.ftb
  if off = 0x48 then some (s.now % 2 ^ 64)
  else if off = 0x50 then
    some (word [(63, 47, x.rootId), (46, 39, x.hops), (38, 36, x.parent.getD 0), (35, 35, boolNat x.isRoot), (34, 34, boolNat x.holdover.isSome),
                (33, 33, boolNat x.locked), (31, 0, (x.offsetPs % 2 ^ 32).toNat)])
  else if off = 0x60 then
    some (word [(31, 16, maskOf 16 (fun n => (tget none x.cmps n).isSome)), (15, 0, maskOf 16 (fun n => decide ((claimOf s n).owner ≠ .free)))])
  else if off = 0x70 then
    let r := routeAt s (routeSel s)
    some (word [(8, 8, boolNat r.valid), (7, 7, boolNat r.altValid), (6, 4, r.alt), (2, 0, r.primary)])
  else if off = 0x78 then some (word [(29, 14, x.grantStatus), (13, 0, fld s Pg.ftb 0x78 13 0)])
  else if off = 0x80 then
    some (word [(63, 63, boolNat (tget none s.grants (fld s Pg.ftb 0x78 13 0)).isSome), (62, 0, (reg s Pg.ftb 0x80).toNat)])
  else none

/-- The recipe that holds a slot of a fabric port, and whether the slot lies in its TOKEN range. -/
def slotOf (s : State) (fport slot : Nat) : Option (Nat × Bool) :=
  s.rcp.recipes.findSome? (fun x => x.2.bind (fun q =>
    (q.img.slots.find? (fun r => decide (r.fport = fport) && decide (r.first ≤ slot) && decide (slot < r.first + r.count))).map
      (fun r => (x.1, r.token))))

/-- FTBS page of fabric port `n` (chapter 14), with the bitmap of the slots in use. -/
def ftbsWord (s : State) (n off : Nat) : Option Nat :=
  if off = 0x48 then
    some (match slotOf s n (fld s (Pg.ftb + 1 + n) 0x40 11 0) with
      | none => 0
      | some (h, token) => word [(6, 6, boolNat token), (5, 5, 1), (3, 0, h)])
  else if off = 0x50 then some (word [(12, 0, countBelow 4096 (fun k => (slotOf s n k).isSome))])
  else if 0x100 ≤ off ∧ off < 0x300 ∧ off % 8 = 0 then some (maskOf 64 (fun k => (slotOf s n (8 * (off - 0x100) + k)).isSome))
  else none

def LinkState.code : LinkState → Nat
  | .detect => 0 | .training => 1 | .l0 => 2 | .l0p => 3 | .recovery => 4 | .disabled => 5 | .inReset => 6 | .failed => 7

def Tdi.code : Tdi → Nat
  | .unlocked => 0 | .locked => 1 | .run => 2 | .error => 3

def RingState.code : RingState → Nat
  | .disabled => 0 | .active => 1 | .stopped => 2 | .error => 3

/-- The event ring and the ring pairs of a function, as its page shows them (Table 15-9). -/
def fnWord (s : State) (f off : Nat) : Option Nat :=
  let u := func s f
  let q := ringOf s f ((off - 0x200) / 32)
  if off = 0x60 then some u.evtBase
  else if off = 0x68 then some (word [(31, 31, boolNat u.evtOn), (30, 30, boolNat u.evtOverflow), (15, 5, u.evtVector), (4, 0, u.evtLog)])
  else if off = 0x70 then some u.evtHead
  else if 0x200 ≤ off ∧ off < 0x400 then
    (if off % 32 = 0 then some q.sqBase
     else if off % 32 = 8 then some q.cqBase
     else if off % 32 = 0x10 then
       some (word [(31, 31, boolNat (decide (q.state = .active) || decide (q.state = .stopped) || q.enableWaits)), (28, 21, q.intDelay),
                   (20, 10, q.vector), (9, 5, q.cqLog), (4, 0, q.sqLog)])
     else if off % 32 = 0x14 then some q.sqTail
     else if off % 32 = 0x18 then some q.cqHead
     else if off % 32 = 0x1C then some (word [(31, 16, q.err), (1, 0, q.state.code)])
     else none)
  else none

/-- Contexts of a function in ACTIVE or DRAINING, in ascending ID. -/
def liveContexts (s : State) (f : Nat) : List Nat := tkeys (fun _ c => decide (c.fn = f) && decide (c.state ≠ .free)) s.ple.ctxs

/-- HIU page of a port (chapter 15). -/
def hiuWord (s : State) (port off : Nat) : Option Nat :=
  let h := hport s port
  let vf := pfOf port + fld s (Pg.hiu + port) 0x48 10 0
  let u := func s vf
  let held := tkeys (fun _ x => decide (x = TagUse.quarantine)) h.tags
  if off = 0x40 then
    some (word [(23, 23, boolNat (s.hiu.fns.any (fun x => decide (fnPort x.1 = port) && !isPf x.1 && decide (x.2.tdi ≠ .unlocked)))),
                (22, 22, boolNat (!h.ide.isEmpty)), (21, 21, boolNat h.memActive), (20, 20, boolNat h.cxl), (19, 19, boolNat h.flit),
                (18, 16, h.speed), (12, 8, h.width), (2, 0, h.link.code)])
  else if off = 0x50 then
    some (word [(43, 24, (tkeys (fun _ c => decide (c.fn = vf) && decide (c.state = .active)) s.ple.ctxs).length), (18, 16, u.tdi.code),
                (4, 4, boolNat u.msix), (3, 3, boolNat (decide (u.phase = .inFlr))), (2, 2, boolNat u.bme)])
  else if off = 0x78 then some (word [(28, 16, held.length), (12, 0, h.tags.length - held.length)])
  else fnWord s (pfOf port) off

/-- The control page of a VF (Table 20-4, R453). -/
def vfWord (s : State) (f off : Nat) : Nat :=
  let u := func s f
  let l := liveContexts s f
  if off = 0x0000 then f
  else if off = 0x0008 then
    word [(5, 5, boolNat s.dev.memEnabled), (4, 2, u.tdi.code), (1, 1, boolNat u.msix), (0, 0, boolNat u.bme)]
  else if off = 0x0400 then word [(47, 32, u.ctxGen), (19, 0, l.length)]
  else if off = 0x0408 then u.ctxIndex
  else if off = 0x0410 then
    (match l[u.ctxIndex]? with
     | none => word [(47, 32, 0xFFFF)]
     | some c => word [(63, 62, if (ctxAt s c).state = .active then 1 else 2), (47, 32, (ctxAt s c).key), (19, 0, c)])
  else (fnWord s f off).getD 0

def CoreState.code : CoreState → Nat
  | .online => 0 | .restarting => 1 | .retired => 2

def SlotState.code : SlotState → Nat
  | .empty => 0 | .valid => 1 | .active => 2 | .staged => 3 | .trial => 4 | .failed => 5

/-- CCX0 (chapter 16). -/
def ccxWord (s : State) (off : Nat) : Option Nat :=
  let x := s.ccx
  let k := coreAt s (fld s Pg.ccx 0x48 3 0)
  let on := coresOnline s
  if off = 0x40 then some (word [(31, 16, on), (10, 8, x.supState), (4, 0, popcount 16 on)])
  else if off = 0x50 then
    some (word [(63, 62, k.state.code), (59, 56, (lastDay s k.recent).length), (55, 48, k.lastCause), (31, 0, k.restarts)])
  else if off = 0x58 then
    some (word [(31, 28, x.result), (23, 23, boolNat x.activeB), (22, 22, boolNat x.nextB), (21, 21, boolNat x.busy), (20, 20, boolNat x.fallback),
                (19, 19, boolNat x.trial), (15, 0, s.otp.minSvn)])
  else none

/-- CCX1 (chapter 16). -/
def ccx1Word (s : State) (off : Nat) : Option Nat :=
  let slot (x : FwSlot) : Nat := word [(63, 32, x.version), (31, 16, x.svn), (2, 0, x.state.code)]
  if off = 0x40 then some (word [(15, 10, s.ccx.fromCrash), (8, 8, boolNat s.ccx.wrapped), (7, 0, s.ccx.logNext)])
  else if off = 0x48 then some (slot s.ccx.slotA)
  else if off = 0x50 then some (slot s.ccx.slotB)
  else none

/-- SSS (chapter 16). -/
def sssWord (s : State) (off : Nat) : Option Nat :=
  let x := s.sss
  if off = 0x40 then
    some (word [(31, 30, match x.state with | .watch => 0 | .takingOver => 1 | .safe => 2), (7, 7, boolNat x.crashSaved), (6, 6, boolNat x.fault),
                (5, 5, boolNat x.trialReset)])
  else if off = 0x48 then some (word [(63, 60, x.cause), (59, 56, x.second), (55, 0, x.time)])
  else none

def Life.code : Life → Nat
  | .blank => 0 | .manufactured => 1 | .provisioned => 2 | .field => 3 | .returned => 4 | .scrapped => 5

/-- LCC0 and LCC1 (chapter 17). -/
def lccWord (s : State) (off : Nat) : Option Nat :=
  if off = 0x40 then some (word [(11, 8, s.otp.transitions), (5, 3, s.otp.ownerSlot), (2, 0, s.otp.life.code)])
  else if off = 0x58 then
    some (word [(31, 28, s.lcc.result), (5, 3, (s.lcc.pending.map (fun x => x.1.code)).getD 0), (2, 2, boolNat s.lcc.pending.isSome),
                (1, 1, boolNat s.otp.wipeDue), (0, 0, boolNat s.lcc.busy)])
  else none

def lcc1Word (s : State) (off : Nat) : Option Nat :=
  if off = 0x40 then some (word [(29, 20, s.lcc.wipe3), (19, 10, s.lcc.wipe2), (9, 0, s.lcc.wipe1)]) else none

/-- SEC (chapter 17). -/
def secWord (s : State) (off : Nat) : Option Nat :=
  let left := (s.sec.grant.map (fun g => ceilDiv (g.ends - s.now) 1000000000)).getD 0
  if off = 0x50 then
    some (word [(63, 60, s.sec.result), (59, 59, boolNat s.sec.done), (58, 57, s.sec.slotState),
                (33, 17, 65536 - (tkeys (fun _ k => decide (k.state ≠ .free)) s.sec.keys).length), (15, 0, s.sec.slot)])
  else if off = 0x60 then some (word [(29, 28, s.sec.trustResult), (15, 0, s.otp.trustMin)])
  else if off = 0x70 then
    some (word [(61, 61, boolNat (grantInForce s)), (60, 17, fld s Pg.sec 0x70 60 17), (16, 0, if grantInForce s then left else 0)])
  else none

def User.code : User → Nat
  | .none => 0 | .rcpRun => 1 | .ppmEnvelope => 2 | .refreshTimer => 3 | .ppu => 4 | .cvuScan => 5 | .traceTrigger => 6 | .gpio => 7
  | .tmux => 8 | .traceCapture => 9 | .sss => 15

/-- TMX (chapter 19). -/
def tmxWord (s : State) (off : Nat) : Option Nat :=
  let x := s.tmx
  let st := match x.traceState with | .idle => 0 | .armed => 1 | .capturing => 2 | .done => 3
  let c := claimOf s ((off - 0x80) / 4)
  if off = 0x48 then some (word [(31, 16, x.resultStatus), (4, 0, x.resultResource)])
  else if off = 0x50 then some (word [(15, 8, x.muxArg), (7, 0, x.muxSel)])
  else if off = 0x58 then
    some (word [(29, 28, x.traceMode), (27, 27, boolNat x.traceWrap), (23, 23, boolNat x.trigCmp.isSome), (3, 0, x.trigCmp.getD 0)])
  else if off = 0x60 then some (word [(31, 30, st), (29, 29, boolNat x.wrapped), (16, 0, x.records.length)])
  else if 0x80 ≤ off ∧ off < 0x80 + 4 * 19 ∧ off % 4 = 0 then
    some (word [(31, 29, c.owner.code), (28, 28, if c.owner = .pf then c.port else 0), (27, 24, c.user.code), (19, 0, c.ctx)])
  else none

/-- IOX (chapter 18). -/
def ioxWord (s : State) (off : Nat) : Option Nat :=
  if off = 0x70 then some (word [(31, 16, min 65535 s.boot.coldCount), (3, 0, s.boot.cause)]) else none

/-- The status part of a page's register. -/
def statusWord (s : State) (t : PageType) (n off : Nat) : Option Nat :=
  match t with
  | .dev => devWord s off
  | .hiu => hiuWord s n off
  | .fpt => fptWord s n off
  | .ftb => ftbWord s off
  | .ftbs => ftbsWord s (n - 1) off
  | .ple => pleWord s off
  | .mge => mgeWord s off
  | .cdc => cdcWord s off
  | .ppu => ppuWord s off
  | .smc => dramWord s n off
  | .sch => if off = 0x40 then some (chanWord s n) else if off = 0x48 then some (word [(15, 0, (chanAt s n).srBoundNs)]) else none
  | .dmc => dramWord s (8 + n) off
  | .fmg => fmgWord s off
  | .flc => flcWord s n off
  | .ice => iceWord s off
  | .tfl => tflWord s off
  | .cvu => cvuWord s n off
  | .rlg => rlgWord s off
  | .rlg1 => rlg1Word s off
  | .bwr => bwrWord s off
  | .sht => shtWord s off
  | .row => rowWord s n off
  | .rcp => rcpWord s off
  | .ccx => ccxWord s off
  | .ccx1 => ccx1Word s off
  | .sss => sssWord s off
  | .ppm => ppmWord s off
  | .lcc => lccWord s off
  | .lcc1 => lcc1Word s off
  | .sec => secWord s off
  | .tmx => tmxWord s off
  | .iox => ioxWord s off
  | .bare _ => none

/-- What a register reads at its own offset: the header, a status register, or the stored fields, to which a preset register
adds DIFFERS. An offset that no chapter defines and an unused page read 0 (R443). -/
def registerValue (s : State) (p off : Nat) : Nat :=
  match pageOf p with
  | none => 0
  | some (t, n) =>
    match headerWord s p off with
    | some v => v
    | none =>
      match statusWord s t n off with
      | some v => v
      | none => (reg s p off).toNat + (if off = 0x40 ∧ hasPreset t then place (boolNat (differs s p)) 8 1 else 0)

end Sys2Proof.Machine
end

