-- ==== Sys2Proof/Tests/Slice0.lean ====
section
/-! SUPPORT. Sys2Proof/Tests/Slice0.lean: the author's tests: a state and operands that meet the hypotheses of each
statement, commands that are not well formed, and values that the spec gives. -/

set_option Elab.async false

namespace Sys2Proof.Tests

open Machine

/-! States that meet the hypotheses of the statements -/

/-- `Tidy` as a computation. -/
def tidyB (s : State) : Bool :=
  decide (Sound s) && Memory.wf s.mem && twf Desc.zero s.descs && twf Plant.none s.plants && trising 0 s.regs && twf Page.reset s.pages &&
  twf 0 s.cnts && twf 0 s.snaps && trising 0 s.ple.map && twf Ctx.reset s.ple.ctxs && twf none s.ple.groups &&
  twf none s.ple.members && twf none s.ple.windows && twf Part.reset s.ple.parts && twf TableEnt.free s.ppu.tables &&
  twf Chan.reset s.dram.chans && twf Ctrl.reset s.dram.ctrls && twf Func.reset s.hiu.fns && twf Ring.reset s.hiu.rings &&
  twf FPort.reset s.fports && twf ClaimRec.free s.tmx.claims && twf KeySlot.reset s.sec.keys && twf none s.grants &&
  twf none s.rcp.recipes && twf Cvu.reset s.cvus && twf Resv.zero s.rlg.resv && twf none s.fmg.slots &&
  twf Flc.reset s.fmg.flcs && twf none s.mge.votes

theorem tidy_of {s : State} (h : tidyB s = true) : Tidy s := by
  simp only [tidyB, Bool.and_eq_true, decide_eq_true_eq, and_assoc] at h
  obtain ⟨a1, a2, a3, a4, a5, a6, a7, a8, a9, a10, a11, a12, a13, a14, a15, a16, a17, a18, a19, a20, a21, a22, a23, a24,
    a25, a26, a27, a28, a29, a30⟩ := h
  exact ⟨⟨a1, a2⟩, a3, a4, a5, a6, a7, a8, a9, a10, a11, a12, a13, a14, a15, a16, a17, a18, a19, a20, a21, a22, a23, a24, a25,
    a26, a27, a28, a29, a30⟩

/-- The device up: one T1 channel with 80 frames online, host port 0 linked, its PF ready, 64 slabs presented, context 1 ACTIVE for the PF. -/
def up : State :=
  { State.reset with
    boot := { Boot.reset with halted := false }
    dev := { Dev.reset with powered := true, memEnabled := true, serial := 7 }
    dram := { Dram.reset with frames1 := 20480, chans := [(0, { Chan.reset with online := true })] }
    ple := { Ple.reset with presented := 64, ctxs := [(1, { Ctx.reset with state := .active })] }
    hiu := { Hiu.reset with p0 := { HPort.reset with link := .l0, perst := false, memActive := true },
                            fns := [(0, { Func.reset with phase := .ready, bme := true })] } }

/-- The PF of port 0 holds page `p`, unlocked. -/
def owning (p : Nat) (s : State) : State :=
  { s with pages := [(p, { Page.reset with owner := .pf, unlocked := true })] }

/-- Ring 0 of the PF has command 1 with opcode `op` in progress. -/
def withCmd (op : Nat) (s : State) : State :=
  { s with hiu := { s.hiu with rings := [(0, { Ring.reset with state := .active, running := [⟨1, op, none⟩] })] } }

/-- The command of `withCmd`. -/
def cmd1 : RingCmd := ⟨0, 0, 1⟩

/-- Slab 0 of context 1 is RESIDENT in T1. -/
def withSlab (s : State) : State :=
  { s with ple := { s.ple with map := [(0, { MapEntry.free with state := .resident, tier := some .t1, tmask := 7, owner := 1 })] } }

/-- The time is `t`. -/
def later (t : Nat) (s : State) : State := { s with now := t }

/-! Register pages -/

theorem wit_StepRunsFrontCommand : ({ up with pending := [.profileApplied, .decayTick] } : State).pending =
    Instr.profileApplied :: [.decayTick] := rfl

theorem wit_StepOnEmptyQueueTicks :
    (up.pending = [] ∧ up.boot.halted = false ∧ ¬ (awake up = true ∧ up.sram.lost = true) ∧ State.reset.boot.halted = true) ∧
    (let s : State := { up with sram := { up.sram with lost := true } }
     s.pending = [] ∧ awake s = true ∧ s.sram.lost = true) := by decide

theorem wit_EveryStepKeepsTidy : Tidy State.reset ∧ step State.reset = .next State.reset := ⟨tidy_of rfl, rfl⟩

theorem wit_EveryStepKeepsFuses : step State.reset = .next State.reset := rfl

theorem wit_BasicRegisterWrite :
    (let s := owning Pg.ppu up
     Tidy s ∧ Owns s 0 Pg.ppu ∧ pageOf Pg.ppu = some (.ppu, 0) ∧ headerRow Pg.ppu 0x40 = false ∧
      (∃ d, regAt Pg.ppu 0x40 = some (d, 0x40) ∧ d.flds ≠ [] ∧ basicRow .ppu 0x40 (written d 0xFFFFFFFF) = false) ∧
      opField .ppu 0x40 = none ∧ PageType.ppu ∉ [PageType.ple, .ftb, .fpt, .hiu, .cdc]) ∧
    (Tidy (owning Pg.cdc up) ∧ Owns (owning Pg.cdc up) 0 Pg.cdc) ∧
    (let s := owning Pg.tmx up
     Tidy s ∧ Owns s 0 Pg.tmx ∧ pageOf Pg.tmx = some (.tmx, 0) ∧ opField .tmx 0x40 = some (31, 30, 2) ∧
      ∃ d, regAt Pg.tmx 0x40 = some (d, 0x40) ∧ 2 < bits (written d 0xC0000000) 31 30) :=
  ⟨⟨tidy_of (by decide), by decide, by decide, by decide, ⟨_, rfl, by decide, by decide⟩, by decide, by decide⟩,
    ⟨tidy_of (by decide), by decide⟩, ⟨tidy_of (by decide), by decide, by decide, rfl, _, rfl, by decide⟩⟩

theorem wit_WideRegisterInHalves :
    let s := owning (fptPage 0) up
    Tidy s ∧ Owns s 0 (fptPage 0) ∧ pageOf (fptPage 0) = some (.fpt, 0) ∧ headerRow (fptPage 0) 0x40 = false ∧
      headerRow (fptPage 0) 0x44 = false ∧
      (∃ d, regAt (fptPage 0) 0x40 = some (d, 0x40) ∧ d.wide = true ∧ regAt (fptPage 0) 0x44 = some (d, 0x40)) ∧
      PageType.fpt ∉ [PageType.hiu, .flc] ∧
      (0xFFFFFFFF : Word).toNat < 2 ^ 32 :=
  ⟨tidy_of (by decide), by decide, by decide, by decide, by decide, ⟨_, rfl, by decide, by decide⟩, by decide, by decide⟩

theorem wit_ExpertRegisterWrite :
    let s := owning Pg.bwr up
    let l : State := { s with pages := [(Pg.bwr, { Page.reset with owner := .pf })] }
    Tidy s ∧ Owns s 0 Pg.bwr ∧ (pageHdr s Pg.bwr).unlocked = true ∧ Tidy l ∧ Owns l 0 Pg.bwr ∧ (pageHdr l Pg.bwr).unlocked = false ∧
      pageOf Pg.bwr = some (.bwr, 0) ∧ expertRow .bwr 0x400 = false ∧ PageType.bwr ∉ [PageType.cvu, .hiu] ∧ ¬ (PageType.bwr = .ice ∧ 0x400 = 0x408) ∧
      ∃ d, regAt Pg.bwr 0x400 = some (d, 0x400) ∧ d.flds ≠ [] ∧
        (d.flds.all (fun f => fldOk f (written d 0x5F0FA0)) && fldsAgree s .bwr 0x400 (written d 0x5F0FA0)) = true ∧
        (d.flds.all (fun f => fldOk f (written d 0x600FA0)) && fldsAgree s .bwr 0x400 (written d 0x600FA0)) = false :=
  ⟨tidy_of (by decide), by decide, by decide, tidy_of (by decide), by decide, by decide, by decide, by decide, by decide,
    by decide, _, rfl, by decide, by decide, by decide⟩

theorem wit_ForeignWritesAreCounted :
    (Tidy up ∧ reaches up 0 Pg.bwr = true ∧ holdsPage up 0 Pg.bwr = false ∧ headerRow Pg.bwr 0x48 = false ∧
      alignedAccess 0x48 false = true) ∧
    (let s := owning (Pg.sch + 31) up
     reaches s 0 (Pg.sch + 31) = true ∧ holdsPage s 0 (Pg.sch + 31) = true ∧ headerRow (Pg.sch + 31) 0x20 = false ∧
      pageOf (Pg.sch + 31) = some (.sch, 31)) :=
  ⟨⟨tidy_of (by decide), by decide, by decide, by decide, by decide⟩, by decide⟩

theorem wit_UnlockEnableAndFlush :
    (Tidy (owning Pg.bwr up) ∧ Owns (owning Pg.bwr up) 0 Pg.bwr ∧ 0xE7A5 < 2 ^ 16 ∧ readOnlyPage Pg.bwr 0x0C 0 = false) ∧
    (Tidy (owning (Pg.cvu + 3) up) ∧ Owns (owning (Pg.cvu + 3) up) 0 (Pg.cvu + 3) ∧ pageOf (Pg.cvu + 3) = some (.cvu, 3)) ∧
    (Tidy (owning Pg.ppu up) ∧ Owns (owning Pg.ppu up) 0 Pg.ppu ∧ pageOf Pg.ppu = some (.ppu, 0)) ∧
    (Tidy (owning Pg.cdc up) ∧ Owns (owning Pg.cdc up) 0 Pg.cdc) :=
  ⟨⟨tidy_of (by decide), by decide, by decide, by decide⟩, ⟨tidy_of (by decide), by decide, by decide⟩,
    ⟨tidy_of (by decide), by decide, by decide⟩, ⟨tidy_of (by decide), by decide⟩⟩

theorem wit_PageHeaderCommands :
    (Tidy up ∧ reaches up 0 Pg.bwr = true ∧ claimPage Pg.bwr = Pg.bwr ∧ (pageHdr up Pg.bwr).owner = .free ∧ 2 % 8 = 2) ∧
    (Tidy (owning Pg.rlg up) ∧ claimPage Pg.rlg = Pg.rlg ∧ holdsPage (owning Pg.rlg up) 0 Pg.rlg = true ∧ 8 % 8 = 0 ∧
      Owns (owning Pg.rlg up) 0 Pg.rlg ∧ readOnlyPage Pg.rlg 0x1C 0 = false) :=
  ⟨⟨tidy_of (by decide), by decide, by decide, by decide, by decide⟩,
    ⟨tidy_of (by decide), by decide, by decide, by decide, by decide, by decide⟩⟩

theorem wit_UnitResetRow :
    (Tidy (owning Pg.bwr up) ∧ Owns (owning Pg.bwr up) 0 Pg.bwr ∧ pageOf Pg.bwr = some (.bwr, 0) ∧ resettable .bwr = false ∧
      (pageHdr (owning Pg.bwr up) Pg.bwr).held = []) ∧
    (Tidy (owning Pg.cvu up) ∧ Owns (owning Pg.cvu up) 0 Pg.cvu ∧ pageOf Pg.cvu = some (.cvu, 0) ∧ resettable .cvu = true) ∧
    (let s : State := { owning Pg.smc up with dram := { Dram.reset with chans := [(31, { Chan.reset with online := true })] } }
     Tidy s ∧ Owns s 0 Pg.smc ∧ pageOf Pg.smc = some (.smc, 0) ∧ resettable .smc = true ∧ 31 ∈ pageChans .smc 0 ∧
       (chanAt s 31).online = true) :=
  ⟨⟨tidy_of (by decide), by decide, by decide, by decide, by decide⟩, ⟨tidy_of (by decide), by decide, by decide, by decide⟩,
    ⟨tidy_of (by decide), by decide, by decide, by decide, by decide, by decide⟩⟩

theorem wit_PresetReload :
    let s := owning Pg.mge up
    Tidy s ∧ Owns s 0 Pg.mge ∧ pageOf Pg.mge = some (.mge, 0) ∧
      (presetValues .mge (bits 2 (presetBits .mge).1 (presetBits .mge).2)).isSome = true ∧
      presetValues .mge (bits 3 (presetBits .mge).1 (presetBits .mge).2) = none :=
  ⟨tidy_of (by decide), by decide, by decide, by decide, by decide⟩

theorem wit_ProfileChange :
    let s : State := { owning Pg.dev up with fmg := { Fmg.reset with g0 := { Group.reset with state := .online } } }
    Tidy s ∧ Owns s 0 Pg.dev ∧ groupMounted s = true ∧ s.dev.state ≠ .inProgress ∧ (profileRefusal s (profileOf 3)).isSome = true ∧
      (profileOf 0x1110).flashUse = s.dev.profile.flashUse ∧ (profileOf 0x1110).placement = s.dev.profile.placement ∧
      (profileOf 0x1110).envelope = s.dev.profile.envelope ∧ profileRefusal s (profileOf 0x1110) = none ∧
      profileSettled { s with dev := { s.dev with target := profileOf 0x1110, state := .inProgress } } = true :=
  ⟨tidy_of (by decide), by decide, by decide, by decide, by decide, by decide, by decide, by decide, by decide, by decide⟩

/-! Presented memory -/

theorem wit_ReserveWholeOrNothing :
    let v := withCmd Opc.reserve up
    Tidy v ∧ Begins cmd1 Opc.reserve v v ∧ fnLive v cmd1.fn = true ∧ pfNames v cmd1 1 = true ∧
      capacityFail v 1 64 1 (byTier 64 0 0) = none ∧ admitFail v (addResv 1 (byTier 64 0 0) (byTier 0 0 0) v) = none ∧
      meteredContexts (addResv 1 (byTier 64 0 0) (byTier 0 0 0) v) ≤ 65536 ∧
      capacityFail v 1 0 1 (byTier 65 0 0) = some (0, 65, 64) ∧
      capacityFail v 1 0 1 (byTier 0 0 0) = none ∧
      (admitFail v (addResv 1 (byTier 0 0 0) (byTier 9000000 0 0) v)).isSome = true :=
  ⟨tidy_of (by decide +kernel), by decide +kernel, by decide +kernel, by decide +kernel, by decide +kernel, by decide +kernel, by decide +kernel, by decide +kernel, by decide +kernel, by decide +kernel⟩

/-- Slab 0 is context 1's, without a frame. -/
def bareSlab (s : State) : State :=
  { s with ple := { s.ple with map := [(0, { MapEntry.free with state := .zeroed, owner := 1, tmask := 7 })] } }

/-- A window of the PF over slab 0 at the start of its aperture. -/
def window0 : Window := { rd := true, wr := true, stale := false, fn := 0, ctx := 1, aptBase := 0, length := 1, first := 0 }

def withWindow (s : State) : State := { s with ple := { s.ple with windows := [(0, some window0)] } }

theorem wit_ReleaseSlabs :
    (let v := bareSlab (withCmd Opc.release up)
     Tidy v ∧ Begins cmd1 Opc.release v v ∧ OwnCtx cmd1 1 v ∧ slabAligned 0 = true ∧
       (∀ k ∈ slabList (0 / 2 ^ 24) 1, owns v 1 (mapAt v k) = true ∧ slabHeld v k = false ∧ readsWait v k = false) ∧
       shortfall v = false ∧ hallFail (runReleased (slabList (0 / 2 ^ 24) 1) v) 1 = none ∧
       hallFail (subResv 1 (byTier 0 0 0) (byTier 0 0 0) (runReleased (slabList (0 / 2 ^ 24) 1) v)) 1 = none ∧
       unusedFrames v 1 .t1 < byTier 1 0 0 .t1) ∧
    (let v := withWindow (bareSlab (withCmd Opc.release up))
     Tidy v ∧ Begins cmd1 Opc.release v v ∧ OwnCtx cmd1 1 v ∧ (∃ k ∈ slabList (0 / 2 ^ 24) 1, slabHeld v k = true) ∧
       (∀ k ∈ slabList (0 / 2 ^ 24) 1, owns v 1 (mapAt v k) = true)) ∧
    (let v : State := { withCmd Opc.release up with rlg := { Rlg.reset with resv := [(1, ⟨2, 0, 0, 5, 0, 0⟩)] } }
     Tidy v ∧ Begins cmd1 Opc.release v v ∧ OwnCtx cmd1 1 v ∧
       (∀ t ∈ tiers, byTier 2 0 0 t ≤ unusedFrames v 1 t ∧ byTier 5 0 0 t ≤ Resv_bw (resvOf v 1) t) ∧
       hallFail (subResv 1 (byTier 2 0 0) (byTier 5 0 0) v) 1 = none) :=
  ⟨⟨tidy_of (by decide +kernel), by decide +kernel, by decide +kernel, by decide +kernel, by decide +kernel, by decide +kernel, by decide +kernel, by decide +kernel, by decide +kernel⟩,
    ⟨tidy_of (by decide +kernel), by decide +kernel, by decide +kernel, by decide +kernel, by decide +kernel⟩,
    ⟨tidy_of (by decide +kernel), by decide +kernel, by decide +kernel, by decide +kernel, by decide +kernel⟩⟩

theorem wit_ContextCreate :
    let s := owning Pg.ple up
    Tidy s ∧ Owns s 0 Pg.ple ∧ s.ple.ctxDone = true ∧ fnPort 0 = fnPort 0 ∧ fnExists s 0 = true ∧
      keyBindable s (fnPort 0) 0xFFFF = true ∧ (∃ c, c < 1048576 ∧ (ctxAt s c).state = .free) :=
  ⟨tidy_of (by decide +kernel), by decide +kernel, by decide +kernel, rfl, by decide +kernel, by decide +kernel, 1048575, by decide +kernel, by decide +kernel⟩

theorem wit_WindowLife :
    (let v := bareSlab (withCmd Opc.mapWindow up)
     Begins cmd1 Opc.mapWindow v v ∧ OwnCtx cmd1 1 v ∧ 0 + 1 ≤ v.ple.presented ∧ (0 + 1) * 2 ^ 24 ≤ 2 ^ apertureLog2 v cmd1.fn ∧
       (∀ k ∈ slabList 0 1, windowRightOk v 1 (Nat.testBit 3 1) k = true) ∧
       windowsWhere v (fun w => decide (w.fn = cmd1.fn) && decide (0 < w.aptBase + w.length) && decide (w.aptBase < 0 + 1)) = [] ∧
       windowsOf v cmd1.fn < (if isPf cmd1.fn then 4096 else 1024) ∧ v.ple.windows.length < 262144 ∧
       (∃ n, n < 262144 ∧ windowAt v n = none)) ∧
    (let v := withWindow (bareSlab (withCmd Opc.unmapWindow up))
     Tidy v ∧ Begins cmd1 Opc.unmapWindow v v ∧ windowLeaving v 0 = false ∧ windowAt v 0 = some window0 ∧ window0.fn = cmd1.fn) ∧
    (let u := withWindow (bareSlab (withCmd Opc.unmapWindow up))
     let s : State := { u with ple := { u.ple with drains := [⟨[0], true, some (cmd1, Opc.unmapWindow), [], []⟩] } }
     Tidy s ∧ Awake s ∧ windowBusy s 0 = false) :=
  ⟨⟨by decide +kernel, by decide +kernel, by decide +kernel, by decide +kernel, by decide +kernel, by decide +kernel, by decide +kernel, by decide +kernel, 262143, by decide +kernel, by decide +kernel⟩,
    ⟨tidy_of (by decide +kernel), by decide +kernel, by decide +kernel, by decide +kernel, by decide +kernel⟩, ⟨tidy_of (by decide +kernel), by decide +kernel, by decide +kernel⟩⟩

/-- Context 1 owns group 0; context 2 is ACTIVE for the same PF. -/
def groupState : State :=
  let u := bareSlab (withCmd Opc.share up)
  { u with ple := { u.ple with
      groups := [(0, some 1)],
      ctxs := [(1, { Ctx.reset with state := .active }), (2, { Ctx.reset with state := .active })] } }

theorem wit_ShareGroupGrows :
    let v := groupState
    Tidy v ∧ Begins cmd1 Opc.share v v ∧ OwnCtx cmd1 1 v ∧
      v.ple.drains.any (fun d => decide (d.cmd = some (cmd1, Opc.share))) = false ∧ (∃ g, g < 65536 ∧ groupOwner v g = none) ∧
      groupOwner v 0 = some 1 ∧ slabAligned 0 = true ∧ (∀ k ∈ slabList (0 / 2 ^ 24) 1, addable v 0 1 k = true) ∧
      (ctxAt v 2).state = .active ∧ memberKey v 0 2 = none ∧ (∃ k, tfree v.ple.members 0 1048576 = some k) :=
  ⟨tidy_of (by decide +kernel), by decide +kernel, by decide +kernel, by decide +kernel, ⟨65535, by decide +kernel, by decide +kernel⟩, by decide +kernel, by decide +kernel, by decide +kernel,
    by decide +kernel, by decide +kernel, 0, by decide +kernel⟩

/-- Group 0, owned by context 1, holds slab 0 and has context 2 as a member, or context 1 as a member of context 2's. -/
def sharedState (own member : Nat) (w : List (Nat × Option Window)) : State :=
  let u := groupState
  { u with ple := { u.ple with
      groups := [(0, some own)], members := [(3, some ⟨0, member, true⟩)], windows := w,
      map := [(0, { MapEntry.free with state := .zeroed, shared := true, owner := 0, tmask := 7 })] } }

theorem wit_ShareGroupShrinks :
    (let v := sharedState 1 2 []
     Tidy v ∧ Begins cmd1 Opc.share v v ∧ OwnCtx cmd1 1 v ∧
       v.ple.drains.any (fun d => decide (d.cmd = some (cmd1, Opc.share))) = false ∧ groupOwner v 0 = some 1 ∧
       memberKey v 0 2 = some 3 ∧ memberWindows v 0 2 = [] ∧ passedWrites v 2 (groupSlabs v 0) = [] ∧
       passedReads v 2 (groupSlabs v 0) = []) ∧
    (let v := sharedState 1 2 [(0, some { window0 with ctx := 2 })]
     Tidy v ∧ Begins cmd1 Opc.share v v ∧ OwnCtx cmd1 1 v ∧
       v.ple.drains.any (fun d => decide (d.cmd = some (cmd1, Opc.share))) = false ∧ groupOwner v 0 = some 1 ∧
       memberKey v 0 2 = some 3 ∧ memberWindows v 0 2 ≠ []) ∧
    (let v := sharedState 2 1 []
     Tidy v ∧ Begins cmd1 Opc.share v v ∧ OwnCtx cmd1 1 v ∧
       v.ple.drains.any (fun d => decide (d.cmd = some (cmd1, Opc.share))) = false ∧
       memberKey v 0 1 = some 3 ∧ memberWindows v 0 1 = [] ∧ passedWrites v 1 (groupSlabs v 0) = [] ∧
       passedReads v 1 (groupSlabs v 0) = []) ∧
    (let v := groupState
     groupOwner v 0 = some 1 ∧ (∀ p ∈ v.ple.members, ∀ m, p.2 = some m → m.group ≠ 0)) :=
  ⟨⟨tidy_of (by decide +kernel), by decide +kernel, by decide +kernel, by decide +kernel, by decide +kernel, by decide +kernel, by decide +kernel, by decide +kernel⟩,
    ⟨tidy_of (by decide +kernel), by decide +kernel, by decide +kernel, by decide +kernel, by decide +kernel, by decide +kernel, by decide +kernel⟩,
    ⟨tidy_of (by decide +kernel), by decide +kernel, by decide +kernel, by decide +kernel, by decide +kernel, by decide +kernel⟩, by decide +kernel, fun p h => nomatch h⟩

theorem wit_SealAndPartitions :
    (let u := bareSlab (withCmd Opc.seal_ up)
     let v : State := { u with ple := { u.ple with ctxs := [(1, { fn := 0, state := .active, key := 5 })] } }
     Tidy v ∧ Begins cmd1 Opc.seal_ v v ∧ OwnCtx cmd1 1 v ∧ slabAligned 0 = true ∧ (ctxAt v 1).key ≠ 0xFFFF ∧
       (∀ k ∈ slabList (0 / 2 ^ 24) 1, sealable v 1 k = true) ∧ (∃ k ∈ slabList (0 / 2 ^ 24) 2, sealable v 1 k = false)) ∧
    (let u := bareSlab (owning Pg.ple up)
     let s : State := { u with ple := { u.ple with parts := [(15, { Part.reset with count := 1 })] } }
     Tidy s ∧ Owns s 0 Pg.ple ∧ fnPort 0 < 2 ∧ fnPort (ctxFn s 1) = fnPort 0 ∧ (partAt s 15).valid = false ∧
       s.dev.profile.flashUse ≠ 1 ∧
       partRefusal s 15 { valid := true, port := fnPort 0, ctx := 1, first := 0, count := (partAt s 15).count } = none) :=
  ⟨⟨tidy_of (by decide +kernel), by decide +kernel, by decide +kernel, by decide +kernel, by decide +kernel, by decide +kernel, 1, by decide +kernel, by decide +kernel⟩,
    ⟨tidy_of (by decide +kernel), by decide +kernel, by decide +kernel, by decide +kernel, by decide +kernel, by decide +kernel, by decide +kernel⟩⟩

/-- CXL.mem service of port 0 over slab 0 in T1. -/
def cxlState : State :=
  let u := withSlab up
  { u with ple := { u.ple with parts := [(0, { valid := true, port := 0, ctx := 1, first := 0, count := 1 })] } }

theorem wit_CxlMemAccess :
    (let s := cxlState
     Tidy s ∧ (List.replicate 64 (1 : Byte)).length = 64 ∧ cxlServed s 0 = true ∧
       cxlCheck 0 (0xFFFFFF / 64 * 64) true s = .ok ((1, 0, 0xFFFFC0), s) ∧ TakesWrites s 0 .t1 ∧
       ZeroBlock s 0 (0xFFFFC0 / 4096) (homeKey .t1 (mapAt s 0).frame (0xFFFFC0 / 4096))) ∧
    (Sound up ∧ cxlServed up 1 = false) ∧
    (∃ x y, cxlCheck 0 (0x1000000 / 64 * 64) false cxlState = .error x ∧ cxlCheck 0 (0x1000000 / 64 * 64) true cxlState = .error y) :=
  ⟨⟨tidy_of (by decide +kernel), by decide +kernel, by decide +kernel, rfl, by decide +kernel, by decide +kernel⟩, by decide +kernel, _, _, rfl, rfl⟩

theorem wit_ApertureAccess :
    (let s := withWindow (withSlab up)
     Tidy s ∧ 4095 % 4096 + 1 ≤ 4096 ∧ apertureOpen s 0 false = true ∧ barCheck 0 4095 true s = .ok ((1, 0), s) ∧
       barCheck 0 4095 false s = .ok ((1, 0), s) ∧ TakesWrites s 0 .t1 ∧
       ZeroBlock s 0 (4095 % 2 ^ 24 / 4096) (homeKey .t1 (mapAt s 0).frame (4095 % 2 ^ 24 / 4096))) ∧
    (let s : State := { up with dev := { up.dev with memEnabled := false } }
     fnExists s 0 = true ∧ s.sss.state = .watch ∧ apertureOpen s 0 false = false) :=
  ⟨⟨tidy_of (by decide +kernel), by decide +kernel, by decide +kernel, rfl, rfl, by decide +kernel, by decide +kernel⟩, by decide +kernel, by decide +kernel, by decide +kernel⟩

/-! Code tables, proof passes, placement and migration -/

/-- The placement map is `l`. -/
def withMap (l : List (Nat × MapEntry)) (s : State) : State := { s with ple := { s.ple with map := l } }

/-- An entry of context 1 in a tier. -/
def entry (t : Tier) : MapEntry := { MapEntry.free with state := .resident, tier := some t, tmask := 7, owner := 1 }

/-- The profile's COMPRESSION and PLACEMENT. -/
def profiled (c p : Nat) (s : State) : State :=
  { s with dev := { s.dev with profile := { s.dev.profile with compression := c, placement := p } } }

/-- Table 5 of context 1. -/
def tabled (e : TableEnt) (s : State) : State := { s with ppu := { s.ppu with tables := [(5, e)] } }

theorem wit_CompressInStores :
    (let v := profiled 0 0 (withSlab (withCmd Opc.compressIn up))
     Tidy v ∧ Begins cmd1 Opc.compressIn v v ∧ OwnCtx cmd1 1 v ∧ passWaits v cmd1 Opc.compressIn = false ∧
       (checkRun (ringAsk cmd1.fn 1 true true) (0xFFF000 / 2 ^ 24) (runSlabs (0xFFF000 / 4096) 1).length v).1 = none ∧
       (∀ k ∈ runSlabs (0xFFF000 / 4096) 1, ∃ t, TakesWrites v k t) ∧ v.dev.profile.compression = 0 ∧ TakesWrites v 0 .t1 ∧
       ZeroBlock v 0 (0xFFF000 / 4096 % 4096) (homeKey .t1 (mapAt v 0).frame (0xFFF000 / 4096 % 4096))) ∧
    (let v := withSlab (withCmd Opc.compressIn up)
     Tidy v ∧ Begins cmd1 Opc.compressIn v v ∧ OwnCtx cmd1 1 v ∧ passWaits v cmd1 Opc.compressIn = false ∧
       (checkRun (ringAsk cmd1.fn 1 true true) (0 / 2 ^ 24) (runSlabs (0 / 4096) 1).length v).1 = none ∧
       (∀ k ∈ runSlabs (0 / 4096) 1, ∃ t, TakesWrites v k t) ∧ v.dev.profile.compression ≠ 0 ∧ (∃ x, passGate cmd1 Opc.compressIn v = .open_ x) ∧
       TakesWrites v 0 .t1 ∧ ZeroBlock v 0 (0 / 4096 % 4096) (homeKey .t1 (mapAt v 0).frame (0 / 4096 % 4096))) ∧
    (let v := tabled { TableEnt.free with state := .live, owner := 1 } (withSlab (withCmd Opc.compressIn up))
     Tidy v ∧ Begins cmd1 Opc.compressIn v v ∧ OwnCtx cmd1 1 v ∧ passWaits v cmd1 Opc.compressIn = false ∧
       (checkRun (ringAsk cmd1.fn 1 true true) (0 / 2 ^ 24) (runSlabs (0 / 4096) 1).length v).1 = none ∧
       (∀ k ∈ runSlabs (0 / 4096) 1, ∃ t, TakesWrites v k t) ∧ v.dev.profile.compression = 1 ∧
       tableUsable v 1 5 (tableFormat []) = true ∧ tableFormat [] ≤ 8) ∧
    ∀ n, (List.replicate (4096 * n) (1 : Byte)).length = 4096 * n :=
  ⟨⟨tidy_of (by decide +kernel), by decide +kernel, by decide +kernel, by decide +kernel, by decide +kernel,
      fun k h => ⟨.t1, by revert k; decide +kernel⟩, by decide +kernel, by decide +kernel, by decide +kernel⟩,
    ⟨tidy_of (by decide +kernel), by decide +kernel, by decide +kernel, by decide +kernel, by decide +kernel,
      fun k h => ⟨.t1, by revert k; decide +kernel⟩, by decide +kernel, ⟨_, rfl⟩, by decide +kernel, by decide +kernel⟩,
    ⟨tidy_of (by decide +kernel), by decide +kernel, by decide +kernel, by decide +kernel, by decide +kernel,
      fun k h => ⟨.t1, by revert k; decide +kernel⟩, by decide +kernel, by decide +kernel, by decide +kernel⟩,
    fun _ => List.length_replicate⟩

theorem wit_RecodeRow :
    (let v := withSlab (withCmd Opc.recode up)
     Begins cmd1 Opc.recode v v ∧ OwnCtx cmd1 1 v ∧ passWaits v cmd1 Opc.recode = false ∧ slabAligned 0 = true ∧
       (checkRun (ringAsk cmd1.fn 1 true true) (0 / 2 ^ 24) 1 v).1 = none ∧ tableUsable v 1 5 8 = false ∧
       v.dev.profile.compression ≠ 0 ∧ ∃ x, passGate cmd1 Opc.recode v = .open_ x) ∧
    (let v := profiled 0 0 (withSlab (withCmd Opc.recode up))
     Begins cmd1 Opc.recode v v ∧ OwnCtx cmd1 1 v ∧ passWaits v cmd1 Opc.recode = false ∧
       (checkRun (ringAsk cmd1.fn 1 true true) (0 / 2 ^ 24) 1 v).1 = none ∧ v.dev.profile.compression = 0) :=
  ⟨⟨by decide +kernel, by decide +kernel, by decide +kernel, by decide +kernel, by decide +kernel, by decide +kernel,
    by decide +kernel, _, rfl⟩, by decide +kernel, by decide +kernel, by decide +kernel, by decide +kernel, by decide +kernel⟩

/-- A pass of context 1 over one block of slab 0. -/
def pass0 (ph : PassPhase) (t : Option Nat) : Pass :=
  { cmd := none, ctx := 1, format := 1, first := 0, count := 1, recode := true, phase := ph, table := t, hist := [1, 3] }

def withPass (p : Pass) (s : State) : State := { s with ppu := { s.ppu with passes := [p] } }

theorem wit_PassPhases :
    (let s := withPass (pass0 .queued none) up
     Awake s ∧ runningPass s = none ∧ ppuOn s = true ∧ s.ppu.passes = pass0 .queued none :: []) ∧
    (let p := pass0 .histogram none
     let s := withPass p (withSlab up)
     Tidy s ∧ Awake s ∧ runningPass s = some p ∧ p.phase = .histogram ∧
       (let x := (List.range p.count).foldl (fun x i => countBlock p (p.first + i) x) (⟨p.hist, false⟩, s)
        x.1.waits = false ∧ listSum x.1.hist ≠ 0 ∧ freeDeviceId x.2 = some 1)) ∧
    (let p := pass0 .build (some 1)
     let s := withPass p up
     Tidy s ∧ Awake s ∧ runningPass s = some p ∧ p.phase = .build ∧ p.table = some 1) ∧
    (let p := pass0 .encode (some 1)
     let s := withPass p (withSlab up)
     Awake s ∧ runningPass s = some p ∧ p.phase = .encode ∧ p.table = some 1 ∧ s.ppu.waiting = [] ∧
       ∀ k ∈ runSlabs p.first p.count, passSlab s p k = true) :=
  ⟨by decide +kernel, ⟨tidy_of (by decide +kernel), by decide +kernel, by decide +kernel, by decide +kernel, by decide +kernel⟩,
    ⟨tidy_of (by decide +kernel), by decide +kernel⟩, by decide +kernel⟩

/-- No block of that state has data, so that its pass codes none. -/
theorem wit_PassPhases_raw (k b : Nat) : codable (withPass (pass0 .encode (some 1)) (withSlab up)) 1 k b = false := by
  have h : blockDesc (withPass (pass0 .encode (some 1)) (withSlab up)) k b = Desc.zero := by
    unfold blockDesc
    cases (mapAt (withPass (pass0 .encode (some 1)) (withSlab up)) k).tier <;> rfl
  unfold codable
  rw [h]
  rfl

/-- Fabric port 0 is UP to device 9. -/
def linkUp (v : FPort) (s : State) : State :=
  { s with fports := [(0, { v with state := .up, partner := { Partner.none with accelerator := true, dev := 9 } })] }

theorem wit_TableRetirement :
    (let s := tabled { TableEnt.free with state := .live, owner := 1, refs := 1 } (owning Pg.ppu up)
     Tidy s ∧ Owns s 0 Pg.ppu ∧ isDeviceId 5 = true ∧ fnPort (ctxFn s (tableAt s 5).owner) = fnPort 0 ∧
       (tableAt s 5).state = .live ∧ 0 < (tableAt s 5).refs) ∧
    (let s := linkUp FPort.reset (tabled { TableEnt.free with state := .quarantine, owner := 1, peers := [0, 3] } up)
     Tidy s ∧ Awake s ∧ (fportAt s 0).state = .up ∧ (tableAt s 5).state = .quarantine ∧ (tableAt s 5).peers ≠ [0] ∧
       0 ∈ (tableAt s 5).peers ∧ (tableAt s 5).peers.Nodup) ∧
    (let s := linkUp { FPort.reset with acksDue := [(5, 0)] } (tabled { TableEnt.free with state := .quarantine, peers := [0] } up)
     Tidy { s with now := 10 ^ 10 } ∧ Awake { s with now := 10 ^ 10 } ∧
       ∃ a ∈ (fportAt s 0).acksDue, a.2 + 1000000 * fld s Pg.ppu 0x400 9 0 ≤ ({ s with now := 10 ^ 10 } : State).now) ∧
    (Awake up ∧ flag up Pg.ppu 0x40 0 = true ∧ ppuOn up = true ∧ 0 < up.ple.presented ∧ queuedPasses up < 256 ∧
      (up.ppu.bgTimes.filter (fun t => decide (up.now < t + 1000000000))).length < fld up Pg.ppu 0x408 15 0 ∧ (mapAt up (up.ppu.walk % up.ple.presented)).state ≠ .resident) :=
  ⟨⟨tidy_of (by decide +kernel), by decide +kernel⟩, ⟨tidy_of (by decide +kernel), by decide +kernel⟩,
    ⟨tidy_of (by decide +kernel), by decide +kernel, by decide +kernel⟩, by decide +kernel⟩

theorem wit_HeatAndPolicy :
    (Awake (withSlab up) ∧ (withSlab up).mge.sweepDue = false ∧ tickLate (withSlab up) = false ∧
      (let s : State := { withSlab up with now := 10 ^ 12, mge := { up.mge with sweepDue := true } }
       Awake s ∧ s.mge.sweepDue = true ∧ tickLate s = true ∧ trising 0 s.cnts = true ∧
         s.mge.lastSwap + 500000 * fld s Pg.mge 0x400 26 16 ≤ s.now) ∧ pinnedMode (profiled 1 2 up) = true ∧ Awake (profiled 1 2 up)) ∧
    (let u := withMap [(0, { entry .t2 with heat := 16 })] (profiled 1 0 up)
     let s : State := { u with rlg := { u.rlg with resv := [(1, ⟨1, 1, 0, 0, 0, 0⟩)] }, now := 10 ^ 12,
                               regs := [(regKey Pg.mge 0x408, BitVec.ofNat 64 (16 + 10 * 2 ^ 16))] }
     Tidy s ∧ Awake s ∧ pinnedMode s = false ∧ tkeys (fun _ c => decide (c.state = .active)) s.ple.ctxs = [1] ∧
       slabsOf s 1 = [0] ∧ fld s Pg.mge 0x408 63 48 = 0 ∧ (mapAt s 0).tier = some .t2 ∧ tierAbove .t2 = some .t1 ∧
       heatMoves s 0 (mapAt s 0) = true ∧ tierBit (mapAt s 0).tmask .t1 = true ∧ dwells s 0 = false ∧ 0 < openFrames s 1 .t1 ∧
       fld s Pg.mge 0x408 7 0 ≤ (mapAt s 0).heat ∧ s.mge.lastPolicy + 1000000 * fld s Pg.mge 0x408 31 16 ≤ s.now ∧
       s.mge.moves.countP (fun m => decide (4 ≤ m.cls) && decide (m.phase = .queued)) < 4096) :=
  ⟨by decide +kernel, tidy_of (by decide +kernel), by decide +kernel⟩

theorem wit_HintAndTmask :
    (let h (s : State) := Tidy s ∧ Begins cmd1 Opc.hint s s ∧ OwnCtx cmd1 1 s ∧ hintWaits s cmd1 = false ∧ slabAligned 0 = true ∧
         (checkRun (ringAsk cmd1.fn 1 false false) 0 1 s).1 = none ∧ votesUsed s < 1048576
     let a := profiled 1 0 (withSlab (withCmd Opc.hint up))
     let b := profiled 1 1 (withMap [(0, { entry .t1 with state := .zeroed, tier := none })] (withCmd Opc.hint up))
     let c0 := profiled 1 1 (withMap [(0, entry .t2)] (withCmd Opc.hint up))
     let c : State := { c0 with rlg := { c0.rlg with resv := [(1, ⟨1, 1, 0, 0, 0, 0⟩)] } }
     hintTier 1 = some .t1 ∧ (h a ∧ a.dev.profile.placement ≠ 1) ∧
     (h b ∧ b.dev.profile.placement = 1 ∧ (mapAt b 0).tier = none ∧ tierBit (mapAt b 0).tmask .t1 = true) ∧
     (h c ∧ c.dev.profile.placement = 1 ∧ (mapAt c 0).tier = some .t2 ∧ tierBit (mapAt c 0).tmask .t1 = true ∧ votesOn c 0 = [] ∧
       rightOf c 1 (mapAt c 0) ≠ .none ∧ moveOf c 0 = none ∧ 0 < openFrames c (ownerOf c (mapAt c 0)) .t1 ∧
       c.mge.moves.countP (fun m => decide (4 ≤ m.cls) && decide (m.phase = .queued)) < 4096)) ∧
    (let v0 := withSlab (withCmd Opc.hint up)
     let v : State := { v0 with rlg := { v0.rlg with resv := [(1, ⟨1, 0, 0, 0, 0, 0⟩)] } }
     Tidy v ∧ Begins cmd1 Opc.hint v v ∧ OwnCtx cmd1 1 v ∧ hintWaits v cmd1 = false ∧
       (checkRun (ringAsk cmd1.fn 1 false false) 0 1 v).1 = none ∧ owns v 1 (mapAt v 0) = true ∧ (mapAt v 0).tier = some .t1 ∧
       tierBit 1 .t1 = true ∧ votesOn v 0 = [] ∧ moveOf v 0 = none ∧
       hallFail (modMap 0 (fun e => { e with tmask := 1 }) v) 1 = none) :=
  ⟨⟨rfl, ⟨⟨tidy_of (by decide +kernel), by decide +kernel⟩, by decide +kernel⟩,
    ⟨⟨tidy_of (by decide +kernel), by decide +kernel⟩, by decide +kernel⟩,
    ⟨⟨tidy_of (by decide +kernel), by decide +kernel⟩, by decide +kernel⟩⟩, tidy_of (by decide +kernel), by decide +kernel⟩

/-- Slab 0 lies in T2 and moves to T1. -/
def moving (m : Move) (s : State) : State :=
  let u := withMap [(0, { entry .t2 with state := if m.phase = .queued then .resident else .moving })] s
  { u with mge := { u.mge with moves := [m] }, rlg := { u.rlg with resv := [(1, ⟨1, 1, 0, 0, 0, 0⟩)] } }

theorem wit_MoveSteps :
    (let m := newMove 0 4 .t1 false false
     let s := moving m up
     Tidy s ∧ Awake s ∧ activeMoves s < fld s Pg.mge 0x410 31 26 ∧
       (queueOrder s).find? (fun m => (startFrame m s).isSome) = some m ∧ (∃ g t, startFrame m s = some (g, t)) ∧ moveOf s m.slab = some m) ∧
    (let m : Move := { newMove 0 4 .t1 false false with phase := .copying, frame := some 3 }
     let s := moving m up
     Awake s ∧ moveOf s 0 = some m ∧ s.plants = [] ∧ (mapAt s 0).tier = some .t2 ∧ m.target ≠ .t3 ∧
       m.dirty.length ≤ fld s Pg.mge 0x410 15 4) ∧
    (let m : Move := { newMove 0 3 .t1 false false with phase := .holding, programmed := true, frame := some 3 }
     let s := moving m up
     let l : State := { s with now := 10 ^ 9 }
     Tidy l ∧ Awake l ∧ m.holdSince + 1000 * fld l Pg.mge 0x410 23 16 ≤ l.now ∧ moveOf l 0 = some m ∧
     Tidy s ∧ Awake s ∧ moveOf s 0 = some m ∧ m.phase = .holding ∧ m.programmed = true ∧ m.frame = some 3 ∧
       (mapAt s 0).tier = some .t2 ∧ (mapAt s 0).state = .moving ∧ s.mge.held = [] ∧ m.cls < 4 ∧ s.mge.moves = [m]) ∧
    (let m : Move := { newMove 0 3 .t1 false false with phase := .holding, programmed := true, frame := some 3 }
     let u := withMap [(0, { entry .t3 with state := .moving, frame := 2 })] up
     let s : State := { u with mge := { u.mge with moves := [m] }, fmg := { u.fmg with slots := [(2, some ⟨0, 1, 0, [⟨0, 0, 69⟩]⟩)] } }
     Tidy s ∧ Awake s ∧ moveOf s 0 = some m ∧ m.phase = .holding ∧ m.programmed = true ∧ m.frame = some 3 ∧
       (mapAt s 0).tier = some .t3 ∧ m.target ≠ .t3 ∧ (slotAt s (mapAt s 0).frame).isSome = true) :=
  ⟨⟨tidy_of (by decide +kernel), by decide +kernel, by decide +kernel, by decide +kernel, ⟨_, _, rfl⟩, by decide +kernel⟩,
    by decide +kernel, ⟨tidy_of (by decide +kernel), by decide +kernel, by decide +kernel, by decide +kernel, tidy_of (by decide +kernel), by decide +kernel⟩,
    tidy_of (by decide +kernel), by decide +kernel⟩

theorem wit_MoveLeftovers :
    (let s : State := { up with mge := { up.mge with oldFrames := [⟨0, .t1, 3⟩] } }
     Awake s ∧ s.mge.oldFrames = [⟨0, .t1, 3⟩] ∧ s.mge.held = [] ∧ s.mge.moves = [] ∧ s.ple.drains = []) ∧
    (let u := withMap [(0, { entry .t1 with pool := true })] up
     let s : State := { u with rlg := { u.rlg with resv := [(1, ⟨1, 0, 0, 0, 0, 0⟩)] }, now := 10 ^ 12 }
     Awake s ∧ (mapAt s 0).pool = true ∧ restedFrom s 0 ≤ s.now ∧ moveOf s 0 = none ∧ s.mge.swaps.any (fun p => decide (p.1 = 0)) = false ∧
       ((permitted s 0).reverse).find? (fun t => decide (0 < openFrames s (ownerOf s (mapAt s 0)) t)) = some .t1) ∧
    (Tidy (owning Pg.mge up) ∧ Owns (owning Pg.mge up) 0 Pg.mge ∧ (pageHdr (owning Pg.mge up) Pg.mge).unlocked = true) :=
  ⟨by decide +kernel, by decide +kernel, tidy_of (by decide +kernel), by decide +kernel⟩

/-! Flash, DRAM, integrity, check-value units -/

/-- A group online in whose superblock 1 erase block 3 of each channel stands. -/
def flashGroup : Group :=
  { Group.reset with state := .online, sbs := [(1, ⟨.opened, List.replicate 16 3⟩)], rowsPerSb := 64, openSb := some 1, rawPages := 6400000 }

/-- A channel with one die of 100 erase blocks of 64 pages. -/
def flashChan : Flc :=
  { Flc.reset with present := 1, usable := 1, trained := true, pagesPerBlock := 64, blocksPerLun := 100, lunsPerTarget := 1,
                   endurance := 1000, blocks := [(3, ⟨.used, false, 1⟩)] }

/-- Both flash groups online. -/
def flashy (f : Fmg) (s : State) : State :=
  { s with fmg := { f with g0 := flashGroup, g1 := flashGroup, usableFrames := 5000, flcs := (List.range 32).map (fun c => (c, flashChan)) } }

/-- Slab 0 moves to T3. -/
def toT3 (s : State) : State :=
  let u := withMap [(0, { entry .t1 with state := .moving })] s
  { u with mge := { u.mge with moves := [{ newMove 0 4 .t3 false false with phase := .holding, frame := some 7 }] } }

theorem wit_FlashMountProgramRetire :
    (let s := flashy { Fmg.reset with mounting := true } up
     Tidy s ∧ Awake s ∧ s.fmg.mounting = true) ∧
    (let s := toT3 (flashy { Fmg.reset with slots := [(7, some ⟨0, 0, 0, []⟩)] } up)
     let m : Move := { newMove 0 4 .t3 false false with phase := .holding, frame := some 7 }
     Awake s ∧ moveOf s 0 = some m ∧ m.frame = some 7 ∧ m.target = .t3 ∧ m.phase ≠ .queued ∧ m.programmed = false ∧
       ∃ t, programSlot 7 m.copied m.rewrite s = some t) ∧
    (let s0 := toT3 (flashy { Fmg.reset with slots := [(7, some ⟨0, 0, 0, []⟩)] } up)
     let s : State := { s0 with fmg := { s0.fmg with g0 := Group.reset, flcs := [] } }
     let m : Move := { newMove 0 4 .t3 false false with phase := .holding, frame := some 7 }
     Awake s ∧ moveOf s 0 = some m ∧ programSlot 7 m.copied m.rewrite s = none) ∧
    (let s := toT3 (flashy { Fmg.reset with slots := [(7, some ⟨0, 0, 1, [⟨1, 0, 64⟩, ⟨2, 0, 5⟩]⟩)] } up)
     let m : Move := { newMove 0 4 .t3 false false with phase := .holding, frame := some 7 }
     Tidy s ∧ Awake s ∧ (sbAt (fgroup s (31 / 16)) 1).blocks[31 % 16]? = some 3 ∧ (blockAt (flcAt s 31) 3).state = .used ∧
       moveOf s 0 = some m ∧ m.target = .t3 ∧ m.phase ≠ .queued ∧ m.frame = some 7 ∧ (slotAt s 7).isSome = true) ∧
    (let s := flashy Fmg.reset up
     Tidy s ∧ Awake s ∧ onDie (flcAt s (16 * 1 + 15)) 99 = true ∧ (blockAt (flcAt s (16 * 1 + 15)) 99).state ≠ .bad) ∧
    (let s := flashy Fmg.reset up
     let f : State := { s with fmg := { s.fmg with flcs := [(31, { flashChan with faults := (List.range 100).map (fun i => (0, i)) })] } }
     Tidy s ∧ Awake s ∧ (fgroup s (31 / 16)).state = .online ∧ 0 ∈ diesOf (flcAt s 31) ∧
       faultyBlocks s (flcAt s 31) 0 < fld s Pg.fmg 0x408 31 24 ∧
     Tidy f ∧ Awake f ∧ (fgroup f (31 / 16)).state = .online ∧ 0 ∈ diesOf (flcAt f 31) ∧
       fld f Pg.fmg 0x408 31 24 ≤ faultyBlocks f (flcAt f 31) 0) :=
  ⟨⟨tidy_of (by decide +kernel), by decide +kernel⟩, ⟨by decide +kernel, by decide +kernel, by decide +kernel, by decide +kernel, by decide +kernel,
    by decide +kernel, _, rfl⟩, by decide +kernel, ⟨tidy_of (by decide +kernel), by decide +kernel⟩,
    ⟨tidy_of (by decide +kernel), by decide +kernel⟩,
    tidy_of (by decide +kernel), by decide +kernel, by decide +kernel, by decide +kernel, by decide +kernel,
    tidy_of (by decide +kernel), by decide +kernel⟩

/-- Slab 0 lies in T3 and a codeword of its block 0 is being recovered. -/
def recovering (r : Recovery) : State :=
  withMap [(0, entry .t3)] (flashy { Fmg.reset with slots := [(0, some ⟨0, 0, 0, [⟨1, 0, 64⟩, ⟨2, 0, 5⟩]⟩)], recoveries := [r] } up)

theorem wit_FlashCollectAndRecover :
    (let s0 := recovering ⟨0, 0, false, false, 1, []⟩
     let s : State := { s0 with fmg := { s0.fmg with relocating := [0] } }
     Tidy s ∧ Awake s ∧ (fgroup s 0).state = .online ∧ movesFirst s = false ∧ gcFrame s 0 = some 0 ∧
       slotAt s 0 = some ⟨0, 0, 0, [⟨1, 0, 64⟩, ⟨2, 0, 5⟩]⟩ ∧ s.plants = [] ∧ scanKeys s .t3 0 = [] ∧
       ∃ rows t, appendRows 0 69 s = some (rows, t)) ∧
    (let s := recovering ⟨0, 0, false, false, 1, []⟩
     Tidy s ∧ Awake s ∧ recoveryOf s 0 0 = some ⟨0, 0, false, false, 1, []⟩ ∧ (mapAt s 0).tier = some .t3 ∧
       0 + 1 < fld s Pg.fmg 0x410 3 0) ∧
    (let s := recovering ⟨0, 7, false, false, 1, []⟩
     Tidy s ∧ Awake s ∧ recoveryOf s 0 0 = some ⟨0, 7, false, false, 1, []⟩ ∧ (mapAt s 0).tier = some .t3 ∧
       fld s Pg.fmg 0x410 3 0 ≤ 7 + 1 ∧ rebuildsOn s 0 0 = [] ∧
       (rowMates 0).any (fun x => pageLost s (mapAt s 0).frame x) = false ∧ s.ple.leaving = []) ∧
    (let s := recovering ⟨0, 7, false, true, 1, []⟩
     Tidy s ∧ Awake s ∧ recoveryOf s 0 0 = some ⟨0, 7, false, true, 1, []⟩ ∧ (mapAt s 0).tier = some .t3 ∧
       (rowMates 0).any (fun x => pageLost s (mapAt s 0).frame x) = false ∧ failingMates s (mapAt s 0).frame 0 = [] ∧
       s.ple.leaving = [] ∧ s.fmg.poisonRec.length < 65536) ∧
    (let r : Recovery := ⟨0, 0, false, false, 1, [⟨.cxl 0 64, 0, 0⟩]⟩
     let s0 := recovering r
     let q : Part := { valid := true, port := 0, ctx := 1, first := 0, count := 1 }
     let s : State := { s0 with ple := { s0.ple with parts := [(0, q)] }, now := 120000 }
     Awake s ∧ s.ple.leaving = [] ∧ s.ple.drains = [] ∧
       s.fmg.recoveries.find? (fun r => r.waiters.any (fun w => decide (w.src = .cxl 0 (127 / 64 * 64)) &&
         decide (w.since + 120000 ≤ s.now))) = some r ∧ dpaOf s 0 (127 / 64 * 64) = some (0, q, 64)) :=
  ⟨⟨tidy_of (by decide +kernel), by decide +kernel, by decide +kernel, by decide +kernel, by decide +kernel, by decide +kernel, by decide +kernel,
      by decide +kernel, _, _, rfl⟩, ⟨tidy_of (by decide +kernel), by decide +kernel⟩,
    ⟨tidy_of (by decide +kernel), by decide +kernel⟩, ⟨tidy_of (by decide +kernel), by decide +kernel⟩, by decide +kernel⟩

/-- The last step of the ladder. -/
def r7 : Recovery := ⟨0, 7, false, false, 1, []⟩

/-- The bytes at the head of slab 0's home, decrypted under whatever media key, and a check value that fits them. -/
def recoverable : State :=
  let s := recovering r7
  { s with descs := [(homeKey .t3 0 0, { Desc.zero with state := .normal, crumbs := 64, table := 0, crcA := crc32c (homeBytes s .t3 0 0) })] }

theorem wit_FlashCollectAndRecover_run : Awake recoverable ∧ recoveryOf recoverable 0 0 = some r7 ∧
    (mapAt recoverable 0).tier = some .t3 ∧ recoverable.ple.leaving = [] := by decide +kernel

theorem wit_FlashCollectAndRecover_ok : recoveredOk recoverable 0 0 = true := by
  show (decide (crc32c (homeBytes (recovering r7) .t3 0 0) = crc32c (homeBytes (recovering r7) .t3 0 0)) ||
    decide (crc32c (homeBytes (recovering r7) .t3 0 0) = 0)) = true
  simp

/-- Channel 0 is `c`. -/
def chan0 (c : Chan) (s : State) : State := { s with dram := { s.dram with chans := [(0, { c with online := true })] } }

def req1 : DramReq := { id := 1, write := false, crumb := 0, bank := 0, row := 0, realTime := false, icing := false, time := 0, seq := 0, aged := false }

theorem wit_PanicAndSelfRefresh :
    (Tidy up ∧ Awake up ∧ 23 < 24 ∧ 24 < fld up (ctrlPage 23) 0x498 7 0 ∧ fld up (ctrlPage 23) 0x498 15 8 ≤ 50) ∧
    (Tidy up ∧ (chanAt up 0).online = true ∧ flag up (dramPage 0) 0x490 0 = true ∧ waitingReqs (chanAt up 0) = [] ∧
      (∀ d ∈ (chanAt up 0).debt, d = 0) ∧ up.rlg.streams = [] ∧
      (let s : State := { up with now := 10 ^ 9 }
       Tidy s ∧ Awake s ∧ (chanAt s 0).lastReq + 1000 * fld s (dramPage 0) 0x490 31 16 ≤ s.now)) :=
  ⟨⟨tidy_of (by decide +kernel), by decide +kernel⟩, tidy_of (by decide +kernel), by decide +kernel, by decide +kernel, by decide +kernel,
    by decide +kernel, by decide +kernel, tidy_of (by decide +kernel), by decide +kernel⟩

theorem wit_RefreshDebtAndRange :
    (let s : State := { up with now := 3900 }
     Tidy s ∧ Awake s ∧ (chanAt s 0).online = true ∧ 0 < (chanAt s 0).debt.length ∧ (chanAt s 0).sr ≠ .inSr ∧
       tget 0 (chanAt s 0).refAt 0 + 3900 / 2 ^ (ctrlAt s (chanCtrl 0)).range ≤ s.now) ∧
    (let s := chan0 { Chan.reset with debt := [5] } up
     let e := chan0 { Chan.reset with debt := [4] } up
     Tidy s ∧ Awake s ∧ (chanAt s 0).online = true ∧ (chanAt s 0).sr = .active ∧ 0 < (chanAt s 0).debt.getD 0 0 ∧
       postponeMax s (chanCtrl 0) < (chanAt s 0).debt.getD 0 0 ∧ Tidy e ∧ Awake e ∧ (chanAt e 0).sr = .active ∧
       (chanAt e 0).debt.getD 0 0 = postponeMax e (chanCtrl 0) ∧ panicApplies e 0 = false) ∧
    (let s : State := { up with dram := { up.dram with ctrls := [(23, { Ctrl.reset with range := 2 })] } }
     Tidy up ∧ Awake up ∧ (ctrlAt up 23).readAt = 0 ∧ (ctrlAt up 23).range < rangeOf 23 [0, 100] ∧ Tidy s ∧ Awake s ∧ (ctrlAt s 23).readAt = 0 ∧
       rangeOf 23 [0, 0] < (ctrlAt s 23).range) :=
  ⟨⟨tidy_of (by decide +kernel), by decide +kernel⟩,
    ⟨tidy_of (by decide +kernel), by decide +kernel, by decide +kernel, by decide +kernel, by decide +kernel, by decide +kernel,
      tidy_of (by decide +kernel), by decide +kernel⟩,
    tidy_of (by decide +kernel), by decide +kernel, by decide +kernel, by decide +kernel, tidy_of (by decide +kernel), by decide +kernel⟩

theorem wit_ControllerServes :
    (let s := chan0 { Chan.reset with queue := [req1] } up
     Tidy s ∧ Awake s ∧ (chanAt s 0).online = true ∧ (chanAt s 0).sr = .active ∧ inCatchup s 0 = false ∧
       nextReq (panicApplies s 0) (chanAt s 0) = some req1 ∧ req1 ∈ waitingReqs (chanAt s 0) ∧
       (let a : State := { s with now := 10 ^ 6 }
        Tidy a ∧ Awake a ∧ req1 ∈ waitingReqs (chanAt a 0) ∧ ripe a 0 req1 = true)) ∧
    (let s := chan0 { Chan.reset with sr := .inSr } up
     Tidy s ∧ Awake s ∧ (chanAt s 0).online = true ∧ (chanAt s 0).sr = .inSr ∧ req1.write = false ∧ (chanAt s 0).wbuf = []) :=
  ⟨⟨tidy_of (by decide +kernel), by decide +kernel, by decide +kernel, by decide +kernel, by decide +kernel, by decide +kernel, by decide +kernel,
    tidy_of (by decide +kernel), by decide +kernel⟩, tidy_of (by decide +kernel), by decide +kernel⟩

theorem wit_HashMasksAndLostChannels :
    (let s := owning Pg.smc up
     let f := owning Pg.smc (withSlab up)
     Tidy s ∧ Owns s 0 Pg.smc ∧ (pageHdr s Pg.smc).unlocked = true ∧ tierEmpty s .t1 = true ∧
       outputAbsent s false 12 = false ∧
       masksOk false (outputAbsent s false) (fun k => if k = 12 then hashMask s false 12 else hashMask s false k) = true ∧
       (∀ c ∈ ctrlIndices, floorOf s c ≤ floorOf (putMask false 12 (hashMask s false 12) s) c) ∧
       masksOk false (outputAbsent s false) (fun k => if k = 12 then 0 else hashMask s false k) = false ∧
       Tidy f ∧ Owns f 0 Pg.smc ∧ (pageHdr f Pg.smc).unlocked = true ∧ tierEmpty f .t1 = false) ∧
    (let s := withSlab up
     Tidy s ∧ Awake s ∧ (chanAt s 0).online = true ∧ s.mge.moves = [] ∧ s.mge.held = [] ∧
       ∃ p ∈ s.ple.map, p.2.tier = some .t1 ∧ p.2.releasing = false ∧ frameChan s .t1 p.2.frame = 0) :=
  ⟨⟨tidy_of (by decide +kernel), by decide +kernel, by decide +kernel, by decide +kernel, by decide +kernel, by decide +kernel,
      by decide +kernel, by decide +kernel, tidy_of (by decide +kernel), by decide +kernel⟩,
    tidy_of (by decide +kernel), by decide +kernel⟩

/-- Block 0 of slab 0 holds raw data. -/
def withData (s : State) : State :=
  { withSlab s with descs := [(homeKey .t1 0 0, { Desc.zero with state := .normal, crumbs := 64, table := 0 })] }

theorem wit_IcingAndToffeeList_patrol :
    (let s : State := { withData up with ice := { Ice.reset with p1 := { Patrol.reset with active := true } } }
     let e : State := { s with ice := { Ice.reset with p1 := { Patrol.reset with active := true, pos := homeKey .t1 0 1 } } }
     Awake s ∧ s.dev.memEnabled = true ∧ (patrolOf s .t1).active = true ∧
       nextPatrolled s .t1 (patrolOf s .t1).pos = some (homeKey .t1 0 0) ∧
       Awake e ∧ e.dev.memEnabled = true ∧ (patrolOf e .t1).active = true ∧ nextPatrolled e .t1 (patrolOf e .t1).pos = none) ∧
    (let u := chan0 { Chan.reset with queue := [{ req1 with icing := true }] } up
     let s : State := { u with now := 10 ^ 9, ice := { Ice.reset with deferred := [(0, 1)], p1 := { Patrol.reset with catchup := true } } }
     Tidy s ∧ Awake s ∧ (0, 1) ∈ s.ice.deferred ∧ (patrolOf s .t1).catchup = true ∧
       { req1 with icing := true } ∈ waitingReqs (chanAt s 0) ∧ req1.time + 1000 * fld s Pg.ice 0x408 31 16 ≤ s.now) ∧
    (let s : State := { up with ice := { Ice.reset with recount := true } }
     Tidy s ∧ Awake s ∧ s.ice.recount = true) :=
  ⟨by decide +kernel, ⟨tidy_of (by decide +kernel), by decide +kernel⟩, tidy_of (by decide +kernel), by decide +kernel⟩

theorem wit_IcingAndToffeeList_list :
    (let e : Toffee := ⟨64 * homeKey .t1 0 0, 3, 0, .counting, false⟩
     let s : State := { withData up with tfl := { Tfl.reset with entries := [e] } }
     Tidy s ∧ Awake s ∧ wordTier e.word ≠ .t3 ∧ s.tfl.entries.find? (fun x => decide (x.word = e.word)) = some e ∧
       rewriteDue s e = true ∧
       (let l : State := { s with now := 10 ^ 18 }
        Awake l ∧ ∃ x ∈ l.tfl.entries, x.word = e.word ∧ x.time + 3600000000000 * fld l Pg.tfl 0x400 15 8 ≤ l.now)) ∧
    (let s := owning Pg.ice (withData up)
     Tidy s ∧ Owns s 0 Pg.ice ∧ (pageHdr s Pg.ice).unlocked = true ∧ injectHome s 0 0 63 0 = some (homeKey .t1 0 0) ∧
       injectHome s 0 4 0 0 = some (homeKey .t1 0 0)) :=
  ⟨⟨tidy_of (by decide +kernel), by decide +kernel, by decide +kernel, by decide +kernel, by decide +kernel, by decide +kernel,
    ⟨64 * homeKey .t1 0 0, 3, 0, .counting, false⟩, by decide +kernel⟩, tidy_of (by decide +kernel), by decide +kernel⟩

theorem wit_CvuJobs_data :
    let s := owning (Pg.cvu + 3) up
    Tidy s ∧ Owns s 0 (Pg.cvu + 3) ∧ (cvuAt s 3).state ≠ .running ∧ cvuOpen s 3 = true :=
  ⟨tidy_of (by decide +kernel), by decide +kernel⟩

theorem wit_CvuJobs_memory :
    (let s0 := bareSlab up
     let s : State := { s0 with cvus := [(0, { Cvu.reset with state := .running, memory := true, ctx := 1, next := 4095, left := 1 })] }
     Sound s ∧ Awake s ∧ (cvuAt s 0).state = .running ∧ (cvuAt s 0).memory = true ∧ 1 ≤ (cvuAt s 0).left ∧
       (cvuAt s 0).next % 4096 + (cvuAt s 0).left ≤ 4096 ∧ (cvuAt s 0).next < 2 ^ 48 ∧
       accessCheck s (ringAsk (ctxFn s (cvuAt s 0).ctx) (cvuAt s 0).ctx false false) ((cvuAt s 0).next / 2 ^ 24) = none ∧
       readsZero (mapAt s ((cvuAt s 0).next / 2 ^ 24)) = true) ∧
    (let v := bareSlab (withCmd Opc.check up)
     Begins cmd1 Opc.check v v ∧ OwnCtx cmd1 1 v ∧ (checkPar 0 0 0 0 0).isSome = true ∧ Nat.testBit 0 0 = false ∧
       checkOperands 0 0 0 0 4096 = true ∧ (List.range 4).all (fun n => !(pageHdr v (Pg.cvu + n)).enable) = false ∧
       (∃ x, acceptCheck cmd1 v = .ok x ∧ checkUnit x cmd1 = some 0) ∧
       (let c : State := { v with tmx := { v.tmx with claims := [(resScan, { ClaimRec.free with owner := .firmware, user := .ppu })] } }
        Begins cmd1 Opc.check c c ∧ OwnCtx cmd1 1 c ∧ (List.range 4).all (fun n => !(pageHdr c (Pg.cvu + n)).enable) = false ∧
          ∃ y, acceptCheck cmd1 c = .error y) ∧
       accessCheck v (ringAsk cmd1.fn 1 false false) (0 / 2 ^ 24) = none ∧ readsZero (mapAt v (0 / 2 ^ 24)) = true) :=
  ⟨by decide +kernel, by decide +kernel, by decide +kernel, by decide +kernel, by decide +kernel, by decide +kernel, by decide +kernel,
    ⟨_, rfl, by decide +kernel⟩, ⟨by decide +kernel, by decide +kernel, by decide +kernel, _, rfl⟩, by decide +kernel, by decide +kernel⟩

/-! Power and the sheet -/

theorem wit_RegulatorPaceAndPower :
    (let s : State := { up with ppm := { up.ppm with unanswered := 2 } }
     Awake s ∧ s.rcp.loads = [] ∧ s.rcp.arms = [] ∧ s.ppm.unanswered = 2 ∧ s.ppm.avsFault = false ∧ idleDropped s = false ∧
       fld s Pg.ppm 0x400 51 41 ≤ fld s Pg.ppm 0x400 62 52 ∧
       (let l : State := { s with now := 10 ^ 9 }
        Awake l ∧ l.ppm.avsFault = false ∧ l.ppm.lastStep + 1000 * fld l Pg.ppm 0x408 6 0 ≤ l.now)) ∧
    (let s : State := { up with now := 10000, ppm := { up.ppm with shortfall := true } }
     Awake s ∧ s.ppm.paceSince + 10000 ≤ s.now ∧ idleDropped s = false ∧ s.ppm.shortfall = decide (s.ppm.floorMbeat ≤ s.ppm.paceMin)) ∧
    (let s : State := { up with ppm := { up.ppm with floorMbeat := 900 } }
     s.ppm.tj < fld s Pg.ppm 0x408 31 24 ∧ s.ppm.paceMin < floorTarget s) ∧
    (let s : State := { up with now := 1000000, ppm := { up.ppm with warn := true, envCmp := some 3 },
                                ftb := { up.ftb with cmps := [(3, some 0)] },
                                tmx := { up.tmx with claims := [(3, { ClaimRec.free with owner := .firmware, user := .ppmEnvelope })] } }
     Awake s ∧ s.ppm.warn = true ∧ s.ppm.lastCeil + 1000000 ≤ s.now ∧ tget none s.ftb.cmps 3 = some 0 ∧ 0 ≤ s.now ∧ (claimOf s 3).user = .ppmEnvelope ∧
       s.ppm.envCmp = some 3) ∧
    (Awake up ∧ trising 0 up.bwr.wins = true ∧ 24 < 25) :=
  ⟨by decide +kernel, by decide +kernel, by decide +kernel, by decide +kernel, by decide +kernel⟩

/-- One step, its results sent on port 0. -/
def step0 (op : StepOp) (ins : List Src) (outs : List Dst) : StepRec :=
  { op := op, rtz := false, restart := true, start := 0, window := 10, declared := 1, statBytes := 0, computeBeats := 0,
    inBytes := 0, outBytes := 0, mergeElems := 0, ins := ins, outs := outs, sends := [], regionsRead := 0, regionsWritten := 0,
    fabricBytes := [] }

/-- A recipe of some steps, without streams. -/
def image0 (steps : List StepRec) : Image :=
  { magic := 0, layout := 0, clean := true, elastic := false, shapeFlex := false, lead := true, imageBytes := 0, rows := 0, cols := 0,
    minCols := 0, paceFloor := 0, self := 0, leadId := 0, keyId := 0, tileBytes := 0, group := 0, rcpBytes := 0, startLeadNs := 0,
    stepBufBytes := 0, tables := [], streams := [], peers := [⟨9, 1⟩], slots := [⟨0, 0, 4, false⟩], steps := steps, sig := [] }

def recipe0 (steps : List StepRec) : Recipe :=
  { img := image0 steps, bind := [], ctx := 1, fn := 0, ring := 0, tag := 0, refused := false }

/-- A run at its first step; 64 bytes of 1 have come in on port 0. -/
def run0 (st : RunState) : Run :=
  { handle := 0, state := st, cmd := none, lead := none, fromStep := 0, step := 0, t0 := some 0, startNs := 0, delta := 0, sent := true,
    computed := false, waiting := 0, waitSlab := 0, got := [], pos := 0, asked := none, stallAt := 0, cause := 0, cmp := 0, readyBy := [], armedAt := 0, heard := [],
    adopted := false, lowest := 0, buffer := [⟨0, 0, List.replicate 64 1⟩], outcome := .ok, afterUnload := false, waiters := [] }

def stepping (r : Run) (steps : List StepRec) : State :=
  { up with rcp := { up.rcp with recipes := [(0, some (recipe0 steps))], run := some r }, sht := { up.sht with state := .idle, cols := 100 },
            now := 100 }

def in0 : Src := .buffer 0 0 0

/-- The step of that state is to compute, and may write the results `l` of the operands `os`. -/
def computes (st : StepRec) (lens : List Nat) (os : List Operand) (l : List Result) : Prop :=
  let s := stepping (run0 .running) [st]
  Awake s ∧ runStep s = some (run0 .running, recipe0 [st], st) ∧ startable s (run0 .running) (recipe0 [st]) st = true ∧
    (run0 .running).sent = true ∧ readOperands (run0 .running) (recipe0 [st]) (st.ins.zip lens) s = (.ok os, s) ∧
    ResultsFit (recipe0 [st]) st l s s s

theorem wit_SheetStepsCompute_gemm :
    let st := step0 (.gemm 1 1 2 false .int32) [in0, in0] [.send 0]
    ∃ os l, computes st [1 * 2, 2 * 1] os l ∧ formGemm false false 1 1 2 false .int32 os = .results l :=
  ⟨_, _, ⟨rfl, rfl, rfl, rfl, rfl, rfl, rfl, rfl⟩, rfl⟩

theorem wit_SheetStepsCompute_bdot :
    let st := step0 (.bdot 1 2 2 64 .fp32 false) [in0, in0] [.send 0]
    ∃ os l, computes st [1 * 2, 2 * 2] os l ∧ formBdot false false 1 2 2 64 .fp32 os = .results l :=
  ⟨_, _, ⟨rfl, rfl, rfl, rfl, rfl, rfl, rfl, rfl⟩, rfl⟩

theorem wit_SheetStepsCompute_swsum :
    let st := step0 (.swsum 1 0 1 false .fp32) [in0, in0] [.send 0]
    let s := stepping (run0 .running) [st]
    ∃ os l, computes st [1, 0 * 1] os l ∧ formSwsum false false 1 0 1 false .fp32
      (fun a b => decodeOut s.sht.scoreFmt (tget 0 s.sht.scores (scoreKey a b))) os = .results l :=
  ⟨_, _, ⟨rfl, rfl, rfl, rfl, rfl, rfl, rfl, rfl⟩, rfl⟩

theorem wit_SheetStepsCompute_topk :
    let st := step0 (.topk 1 2 1 1 0) [in0, in0] [.send 0]
    ∃ os l, computes st [1 * 1, 2 * 1] os l ∧ formTopk 1 2 1 1 0 os = .results l :=
  ⟨_, _, ⟨rfl, rfl, rfl, rfl, rfl, rfl, rfl, rfl⟩, rfl⟩

theorem wit_SheetStepsCompute_reduce :
    let st := step0 (.reduce 2 1 false .int32) [in0, in0] [.send 0]
    ∃ os l, computes st [1, 1] os l ∧ formReduce false false 2 1 false .int32 os = .results l :=
  ⟨_, _, ⟨rfl, rfl, rfl, rfl, rfl, rfl, rfl, rfl⟩, rfl⟩

theorem wit_SheetStepsCompute_update :
    let st := step0 (.update .scaleAdd 1 [0, 0] .fp32) [in0, in0] [.send 0]
    ∃ os l, computes st [1, 1] os l ∧ formUpdate false .scaleAdd 1 [0, 0] .fp32 os = .results l :=
  ⟨_, _, ⟨rfl, rfl, rfl, rfl, rfl, rfl, rfl, rfl⟩, rfl⟩

theorem wit_ExactResults :
    (pairRate ⟨0, 0, [List.replicate 4096 1]⟩ ⟨0, 0, [List.replicate 4096 1]⟩ ≠ 0 ∧
      mxWhole 2 [⟨0, 0, [List.replicate 4096 1]⟩, ⟨0, 0, [List.replicate 4096 1]⟩] = true ∧ 2 < 2 ^ 60 ∧ 0 < 1 * 1) ∧
    ([Val.nan, .inf true].Perm [.inf true, .nan]) ∧
    (∀ e ∈ [TopEntry.mk 0xFFFFFFFF 0xFFFFFFFFFFFF], e.score < 2 ^ 32 ∧ e.index < 2 ^ 48) ∧
    (let st := step0 (.encode 0 5) [in0] [.send 0]
     let s := stepping (run0 .running) [st]
     Awake s ∧ runStep s = some (run0 .running, recipe0 [st], st) ∧ startable s (run0 .running) (recipe0 [st]) st = true ∧
       (∃ fmt bs, readRaw (run0 .running) (recipe0 [st]) in0 0 s = (.ok (fmt, bs), s)) ∧
       dstAllowed (recipe0 [st]) (.send 0) 0 s = (true, s) ∧ prepareAll (dstSlabs (recipe0 [st]) (.send 0) 0) s = (true, s) ∧
       meetTiles s = (none, s)) :=
  ⟨⟨by decide +kernel, by decide, by decide, by decide⟩, List.Perm.swap _ _ _, by decide, rfl, rfl, rfl, ⟨_, _, rfl⟩, rfl, rfl, rfl⟩

theorem wit_StepEndsAndFaults :
    (let st := step0 (.gemm 1 1 2 false .int32) [] []
     let a := stepping { run0 .running with computed := true } [st, st]
     let b := stepping { run0 .running with computed := true } [st]
     let c := stepping { run0 .stalled with computed := true } [st, st]
     Tidy a ∧ Awake a ∧ runRecipe a = some ({ run0 .running with computed := true }, recipe0 [st, st]) ∧
       Tidy b ∧ runRecipe b = some ({ run0 .running with computed := true }, recipe0 [st]) ∧
       Awake c ∧ runRecipe c = some ({ run0 .stalled with computed := true }, recipe0 [st, st])) ∧
    (let st := step0 (.gemm 1 1 2 false .int32) [] []
     let r : Run := { run0 .running with waiting := 2 }
     let s := stepping r [st]
     Tidy s ∧ Awake s ∧ runStep s = some (r, recipe0 [st], st) ∧ lowestCause (r.waiting ||| 0 ||| standingCauses s) = some 1 ∧
       runTime r 0 (st.start + st.window - fromStart r (recipe0 [st])) < 4 * s.now ∧ tileGood s 99 101 = true) ∧
    (let s : State := { up with sht := { up.sht with remapDue := true, state := .idle } }
     Tidy s ∧ Awake s ∧ s.sht.remapDue = true ∧ s.sht.state = .idle) ∧
    (let u := stepping (run0 .ending) []
     let s : State := { u with sht := { u.sht with zeroing := true } }
     Awake s ∧ s.sht.zeroing = true ∧ s.rcp.run = some (run0 .ending) ∧ (run0 .ending).state = .ending) ∧
    (let u := owning Pg.sht up
     let s : State := { u with sht := { u.sht with state := .idle } }
     Tidy s ∧ Owns s 0 Pg.sht ∧ (pageHdr s Pg.sht).unlocked = true ∧ s.sht.state = .idle ∧ s.sht.remapDue = false ∧ tileGood s 99 101 = true) :=
  ⟨⟨tidy_of (by decide +kernel), by decide +kernel, by decide +kernel, tidy_of (by decide +kernel), by decide +kernel⟩,
    ⟨tidy_of (by decide +kernel), by decide +kernel⟩, ⟨tidy_of (by decide +kernel), by decide +kernel⟩, by decide +kernel,
    tidy_of (by decide +kernel), by decide +kernel⟩

/-! Recipes -/

/-- An image that passes every check but the signature's, which its key decides: one step, one READ and one WRITE stream. -/
def imageL : Image :=
  let st := step0 (.gemm 1 1 1 false .int32) [.stream 0 0, .stream 0 0] [.stream 1 0]
  let d : StreamRec := { write := false, format := 0, mxEnc := 0, length := 1, bw := 1, firstStep := 0, lastStep := 0, bytesPerStep := 0 }
  { image0 [{ st with declared := 291, window := 2000 }] with
      magic := 0x48585250, layout := 1, imageBytes := 896, rows := 100, cols := 100, minCols := 100, paceFloor := 900, self := 5,
      leadId := 5, startLeadNs := 1024, streams := [d, { d with write := true }], peers := [], slots := [] }

/-- A device that can load it. -/
def loadState : State :=
  let u := withSlab (withCmd Opc.loadRecipe up)
  { u with ppm := { u.ppm with floorMbeat := 900, paceMin := 1000 }, sht := { u.sht with cols := 100, edgeOk := true, state := .idle },
           regs := [(regKey Pg.ftb 0x40, BitVec.ofNat 64 (2 ^ 31 + 5))], sec := { u.sec with trust := List.replicate 2048 1 } }

theorem wit_RecipeLoadRunAbort_static (hv : Config.recipeVerifies (List.replicate 97 1) imageL = true) :
    staticFail loadState 1 896 imageL [0, 4096] = none := by
  have h1 : imageOk imageL 896 = true := by decide +kernel
  have h2 : recipeKey loadState imageL.keyId = some (List.replicate 97 1) := by decide +kernel
  unfold staticFail
  rw [h1, h2]
  simp only [hv]
  decide +kernel

/-- A device that chooses among some candidates takes one of them. -/
theorem chooseFrom_some {n : Nat} {p : Nat → Bool} {s : State} (k : Nat) (hk : k < n) (h : p k = true) :
    ∃ c, c < n ∧ chooseFrom n p s = (some c, (draw s).2) := by
  have find (q : Nat → Bool) : ∀ m a b, a ≤ b → b < a + m → q b = true → ∃ c, c < a + m ∧ findFrom q a m = some c := by
    intro m
    induction m with
    | zero => intro a b h1 h2 _; omega
    | succ m ih =>
      intro a b h1 h2 h3
      unfold findFrom
      by_cases hq : q a = true
      · exact ⟨a, by omega, by simp [hq]⟩
      · have : a ≠ b := fun e => hq (e ▸ h3)
        simp only [hq, Bool.false_eq_true, if_false]
        obtain ⟨c, h4, h5⟩ := ih (a + 1) b (by omega) (by omega) h3
        exact ⟨c, by omega, h5⟩
  have hn : Config.choice (draw s).1 % n < n := Nat.mod_lt _ (by omega)
  show ∃ c, c < n ∧ ((findFrom p (Config.choice (draw s).1 % n) (n - Config.choice (draw s).1 % n)).orElse
    (fun _ => findFrom p 0 (Config.choice (draw s).1 % n)), (draw s).2) = (some c, (draw s).2)
  generalize Config.choice (draw s).1 % n = a at hn
  by_cases ha : a ≤ k
  · obtain ⟨c, hl, hc⟩ := find p (n - a) a k ha (by omega) h
    exact ⟨c, by omega, by rw [hc]; rfl⟩
  · cases hf : findFrom p a (n - a) with
    | some c =>
      have low : ∀ m b, findFrom p b m = some c → c < b + m := by
        intro m
        induction m with
        | zero => intro b h; simp [findFrom] at h
        | succ m ih =>
          intro b h
          unfold findFrom at h
          split at h
          · cases h; omega
          · have := ih (b + 1) h; omega
      have := low _ _ hf
      exact ⟨c, by omega, rfl⟩
    | none =>
      obtain ⟨c, hl, hc⟩ := find p a 0 k (by omega) (by omega) h
      exact ⟨c, by omega, by simp [hc]⟩

theorem wit_RecipeLoadRunAbort_load :
    Tidy loadState ∧ Begins cmd1 Opc.loadRecipe loadState loadState ∧ OwnCtx cmd1 1 loadState ∧
      loadState.rcp.loads.any (fun l => decide (l.r = cmd1)) = false ∧
      (∃ h w, chooseFrom 16 (fun h => (recipeAt loadState h).isNone) loadState = (some h, w) ∧
        admitFail w (bookStreams h imageL [0, 4096] w) = none ∧ fabricFail w imageL = none ∧ idleDropped w = false) ∧
      staticFail loadState 1 895 imageL [0, 4096] = some ⟨1, 0, .recipeImage⟩ := by
  refine ⟨tidy_of (by decide +kernel), by decide +kernel, by decide +kernel, by decide +kernel, ?_, by decide +kernel⟩
  obtain ⟨c, hl, hc⟩ := chooseFrom_some (s := loadState) (p := fun h => (recipeAt loadState h).isNone) 15 (by decide : 15 < 16)
    (by decide +kernel)
  have all : ∀ h, h < 16 → admitFail (draw loadState).2 (bookStreams h imageL [0, 4096] (draw loadState).2) = none := by decide +kernel
  exact ⟨c, _, hc, all c hl, by decide +kernel, by decide +kernel⟩

theorem wit_RecipeLoadRunAbort :
    (let u := withCmd Opc.abort up
     let v : State := { u with rcp := { u.rcp with recipes := [(15, some (recipe0 []))] } }
     Tidy v ∧ Begins cmd1 Opc.abort v v ∧ OwnCtx cmd1 1 v ∧ namedRecipe v 1 15 = some (recipe0 []) ∧ v.rcp.run = none) ∧
    (let u := { loadState with hiu := (withCmd Opc.run up).hiu }
     let q : Recipe := { recipe0 [] with img := imageL, bind := [0, 4096] }
     let v : State := { u with rcp := { u.rcp with recipes := [(0, some q)] } }
     Begins cmd1 Opc.run v v ∧ OwnCtx cmd1 1 v ∧ namedRecipe v 1 0 = some q ∧ fromStepOk q.img 0 = true ∧ q.img.lead = true ∧
       armRefusal v q 0 = none ∧ freeComparator v = some 0 ∧ q.img.peers = []) ∧
    (let x : Run := { run0 .armed with cmp := 3 }
     let u := stepping x []
     let s : State := { u with ftb := { u.ftb with cmps := [(3, some 100)] },
                               tmx := { u.tmx with claims := [(3, { ClaimRec.free with owner := .firmware, user := .rcpRun })] } }
     Awake s ∧ tget none s.ftb.cmps 3 = some 100 ∧ 100 ≤ s.now ∧ (claimOf s 3).user = .rcpRun ∧ runRecipe s = some (x, recipe0 []) ∧
       x.state = .armed ∧ x.t0.isSome = true) ∧
    (let v := withCmd Opc.abort (stepping (run0 .running) [])
     Begins cmd1 Opc.abort v v ∧ OwnCtx cmd1 1 v ∧ namedRecipe v 1 0 = some (recipe0 []) ∧ v.rcp.run = some (run0 .running) ∧
       (run0 .running).handle = 0 ∧ (run0 .running).state ≠ .ending ∧ runWaits v cmd1 = false) :=
  ⟨⟨tidy_of (by decide +kernel), by decide +kernel⟩, by decide +kernel, by decide +kernel, by decide +kernel⟩

/-- Device 9, at port 0, takes part in the group of recipe 0. -/
def grouped (q : Recipe) (r : Option Run) : State :=
  let u := linkUp FPort.reset (stepping (run0 .armed) [])
  { u with rcp := { u.rcp with recipes := [(0, some q)], run := r }, sht := { u.sht with edgeOk := true } }

theorem wit_GroupStartAndRun :
    (let q : Recipe := { recipe0 [] with img := { image0 [] with leadId := 9, rows := 100, cols := 100 } }
     let s := grouped q none
     Awake s ∧ Arrives s 0 9 ∧ recipeOf s 0 9 = some (0, q) ∧ listsPeer q 9 = true ∧
       s.rcp.loads.any (fun l => decide (l.handle = 0)) = false ∧ armRefusal s q 0 = none ∧ freeComparator s = some 0) ∧
    (let q := recipe0 []
     let q2 : Recipe := { q with img := { q.img with peers := [⟨9, 1⟩, ⟨10, 0⟩] } }
     let r : Run := { run0 .armed with t0 := none, cmd := some cmd1 }
     Awake (grouped q (some r)) ∧ Arrives (grouped q (some r)) 0 9 ∧ leading (grouped q (some r)) 0 9 = some (r, q) ∧
       r.readyBy.contains 9 = false ∧ (∀ p ∈ q.img.peers, p.dev = 9 ∨ r.readyBy.contains p.dev = true) ∧  r.cmd = some cmd1 ∧
       (let l : State := { grouped q (some r) with now := 10 ^ 12 }
        Awake l ∧ Arrives l 0 9 ∧ leading l 0 9 = some (r, q) ∧ r.armedAt + 1000000 * fld l Pg.rcp 0x400 47 32 ≤ l.now) ∧
       leading (grouped q2 (some r)) 0 9 = some (r, q2) ∧ (∃ p ∈ q2.img.peers, p.dev ≠ 9 ∧ r.readyBy.contains p.dev = false)) ∧
    (let r : Run := { run0 .armed with t0 := none, lead := some 9 }
     let s := grouped (recipe0 []) (some r)
     Awake s ∧ Arrives s 0 9 ∧ following s 0 9 = some r ∧ s.now < 101 ∧ 100 ≤ s.now) ∧
    (let r : Run := { run0 .running with waiting := 128 }
     let s := grouped (recipe0 [step0 (.encode 0 5) [in0] [.send 0]]) (some r)
     let q := recipe0 [step0 (.encode 0 5) [in0] [.send 0]]
     Awake s ∧ Arrives s 0 9 ∧ runFor s 0 9 0 = some (r, q) ∧ r.state ≠ .ending ∧ tokenOutcome 0x030E = some .runFaulted ∧
       stepRuns s = true ∧ r.waiting.testBit 7 = true ∧ listsPeer q 9 = true ∧
       (let l : State := { s with now := 10 ^ 12 }
        Awake l ∧ Arrives l 0 9 ∧ runFor l 0 9 0 = some (r, q) ∧ stepRuns l = true ∧
          lastHeard r 9 + 1000000 * fld l Pg.rcp 0x400 15 0 ≤ l.now)) :=
  ⟨by decide +kernel, by decide +kernel, by decide +kernel, by decide +kernel⟩

/-! The fabric -/

/-- Fabric port 0 as given, its page enabled (device ID 5 valid). -/
def porting (v : FPort) (s : State) : State :=
  setReg (fptPage 0) 0x40 1 (setReg Pg.ftb 0x40 (BitVec.ofNat 64 (2 ^ 31 + 5)) { s with fports := [(0, v)] })

/-- A partner of kind accelerator, device 9. -/
def partner9 : Partner := { Partner.none with accelerator := true, dev := 9 }

/-- Credit for every class and VL. -/
def credit0 : Tbl Nat := [(0, 100), (1, 100), (2, 100), (3, 100), (4, 100), (5, 100)]

/-- Fabric port 0 UP to device 9, with credit and a session. -/
def ported (s : State) : State :=
  porting { FPort.reset with state := .up, width := 3, lanes := 255, spdmDone := true, credits := credit0, partner := partner9 } s

theorem wit_FabricBringUp :
    (let s := porting { FPort.reset with state := .training } up
     let l := later (10 ^ 9) s
     Tidy l ∧ Awake l ∧ (fportAt l 0).state = .training ∧ (fportAt l 0).stepAt + stepBoundUs 1 * 1000 ≤ l.now ∧
     (fportAt l 0).stepAt + stepBoundUs 2 * 1000 ≤ l.now ∧
     Tidy s ∧ Awake s ∧ mayTrain s 0 = true ∧ (fportAt s 0).state = .training ∧ widthOf 255 = 3 ∧ widthOf 15 ≠ 0 ∧ widthOf 0xF7 = 2) ∧
    (let s := porting { FPort.reset with state := .auth, nonce := some 5 } up
     Tidy s ∧ Awake s ∧ (fportAt s 0).nonce = some 5 ∧ (fportAt s 0).state = .auth) ∧
    (let s := porting { FPort.reset with state := .auth } up
     let l := later (10 ^ 11) s
     Tidy l ∧ Awake l ∧ (fportAt l 0).state = .auth ∧ (fportAt l 0).spdmDone = false ∧ (fportAt l 0).nonce = none ∧
     (fportAt l 0).stepAt + stepBoundUs 5 * 1000 ≤ l.now ∧
     Tidy s ∧ Awake s ∧ (fportAt s 0).state = .auth ∧ (fportAt s 0).nonce = none ∧ (fportAt s 0).spdmDone = false ∧
       chainOk s 0 0 true true = true ∧ chainOk s 0 0 true false = false ∧ chainOk s 0 1 true true = false) ∧
    (let s := porting { FPort.reset with state := .auth, spdmDone := true } up
     let l := later (10 ^ 11) s
     Tidy l ∧ Awake l ∧ (fportAt l 0).state = .auth ∧ (fportAt l 0).spdmDone = true ∧ (fportAt l 0).stepAt + stepBoundUs 6 * 1000 ≤ l.now ∧
     Tidy s ∧ Awake s ∧ (fportAt s 0).state = .auth ∧ (fportAt s 0).spdmDone = true ∧ identRefusal s 0 9 = none ∧
       identRefusal s 0 5 = some 4) ∧
    (let s := porting { FPort.reset with state := .time, syncs := 15 } up
     let l := later (10 ^ 11) s
     Tidy l ∧ Awake l ∧ (fportAt l 0).state = .time ∧ (fportAt l 0).stepAt + stepBoundUs 7 * 1000 ≤ l.now ∧
     (fportAt l 0).trainAt + stepBoundUs 8 * 1000 ≤ l.now ∧
     Tidy s ∧ Awake s ∧ (fportAt s 0).state = .time ∧ (fportAt s 0).syncs = 15) ∧
    (let s := later 7 (porting { FPort.reset with state := .authFailed, retryAt := 7 } up)
     Tidy s ∧ Awake s ∧ mayTrain s 0 = true ∧ (fportAt s 0).state = .authFailed ∧ (fportAt s 0).retryAt ≤ s.now) ∧
    (let s := later 7 (porting { FPort.reset with state := .down, retryAt := 7 } up)
     Tidy s ∧ Awake s ∧ mayTrain s 0 = true ∧ (fportAt s 0).state = .down ∧ (fportAt s 0).retryAt ≠ 0 ∧ (fportAt s 0).retryAt ≤ s.now) :=
  ⟨⟨tidy_of (by decide +kernel), by decide +kernel, by decide +kernel, by decide +kernel, by decide +kernel, tidy_of (by decide +kernel), by decide +kernel⟩,
    ⟨tidy_of (by decide +kernel), by decide +kernel⟩,
    ⟨tidy_of (by decide +kernel), by decide +kernel, by decide +kernel, by decide +kernel, by decide +kernel, by decide +kernel, tidy_of (by decide +kernel), by decide +kernel⟩,
    ⟨tidy_of (by decide +kernel), by decide +kernel, by decide +kernel, by decide +kernel, by decide +kernel, tidy_of (by decide +kernel), by decide +kernel⟩,
    ⟨tidy_of (by decide +kernel), by decide +kernel, by decide +kernel, by decide +kernel, by decide +kernel, tidy_of (by decide +kernel), by decide +kernel⟩,
    ⟨tidy_of (by decide +kernel), by decide +kernel⟩, ⟨tidy_of (by decide +kernel), by decide +kernel⟩⟩

theorem wit_FabricUpkeep :
    (let v := { FPort.reset with state := FpState.up, width := 3, lanes := 255, spdmDone := true, txPackets := 2 ^ 36, credits := credit0,
                                 tagFails := [2000000, 2000000, 2000000], partner := partner9 }
     let s := setReg (fptPage 0) 0x400 (BitVec.ofNat 64 (2 * 2 ^ 16))
       { owning (fptPage 0) (porting v up) with
         now := 2000000, grants := [(3, some ⟨true, false, false, 9, 0, 1, 0, 1, 0, 0, 0⟩)] }
     Tidy s ∧ Awake s ∧ linked (fportAt s 0) = true ∧ (fportAt s 0).spdmDone = true ∧ 2 ^ 36 ≤ (fportAt s 0).txPackets ∧
       (fportAt s 0).state = .up ∧ (∃ g, grantAt s 3 = some g ∧ g.remoteDev = (fportAt s 0).partner.dev) ∧ (fportAt s 0).width = 3 ∧
       3 ≤ ((fportAt s 0).tagFails.filter (fun t => decide (s.now < t + ms))).length ∧
       ((fportAt s 0).badPkts.filter (fun t => decide (s.now < t + ms))).length + 1 < fld s (fptPage 0) 0x400 23 16 ∧
       (fportAt s 0).rxSeq < 4096 ∧ (fportAt s 0).nakOut = false ∧ (fportAt s 0).queued = [] ∧ Owns s 0 (fptPage 0)) ∧
    (let k : Pkt := ⟨0x03, 0, 9, 5, 0, 0, 0, 64, 8, 0, 0⟩
     let s := later (10 ^ 9) (porting { FPort.reset with state := .up, queued := [(k, [])] } up)
     Tidy s ∧ Awake s ∧ linked (fportAt s 0) = true ∧ (fportAt s 0).state = .up ∧ queuedFor (fportAt s 0) (2 * 1 + 0 % 2) = true ∧
       tget 0 (fportAt s 0).stalled (2 * 1 + 0 % 2) + 1000 * fld s (fptPage 0) 0x400 63 48 ≤ s.now) ∧
    (let s := porting { FPort.reset with state := .time } up
     Tidy s ∧ Awake s ∧ linked (fportAt s 0) = true ∧ (fportAt s 0).state = .time ∧ (fportAt s 0).syncAt = 0) ∧
    (let s := { up with ftb := { up.ftb with holdover := some 0 } }
     Awake s ∧ s.ftb.holdover = some 0 ∧ 0 ≤ s.now) ∧
    (let s := owning Pg.ftb up
     Tidy s ∧ Owns s 0 Pg.ftb ∧ 131071 < 2 ^ 17 ∧ ∀ p, p < 8 → (fportAt s p).state = .down) ∧
    (let s := owning Pg.ftb (ported up)
     Tidy s ∧ Owns s 0 Pg.ftb ∧ ∃ p, p < 8 ∧ (fportAt s p).state ≠ .down) :=
  ⟨⟨tidy_of (by decide +kernel), by decide +kernel, by decide +kernel, by decide +kernel, by decide +kernel, by decide +kernel,
      ⟨_, rfl, rfl⟩, by decide +kernel⟩,
    ⟨tidy_of (by decide +kernel), by decide +kernel⟩, ⟨tidy_of (by decide +kernel), by decide +kernel⟩, by decide +kernel,
    ⟨tidy_of (by decide +kernel), by decide +kernel, by decide, by decide +kernel⟩,
    ⟨tidy_of (by decide +kernel), by decide +kernel, 0, by decide +kernel⟩⟩

/-- A packet of the type from device 9's context 2 to device 5's context 1, of 64 bytes at address 0. -/
def pkt0 (type : Nat) : Pkt := ⟨type, 0, 5, 9, 1, 2, 77, 64, 8, 0, 64⟩

/-- Device 9's context 2 may read and write slab 0 of context 1, which is RESIDENT in T1. -/
def granted : State :=
  { ported (withSlab up) with grants := [(0, some ⟨true, true, false, 9, 2, 1, 0, 1, 0, 0, 0⟩)] }

theorem wit_FabricPackets :
    (let s := ported (withSlab up)
     let s : State := { s with ftb := { s.ftb with routes := [(1, ⟨true, false, 0, 0⟩)] } }
     let k : Pkt := { pkt0 0x01 with dst := 64 }
     Tidy s ∧ Awake s ∧ Arrives s 0 k.src ∧ k.dst ≠ ownId s ∧ pktClass k.type < 3 ∧ routePort s k.dst = some 0 ∧
       SendsAtOnce (fportAt s 0) ∧ 1 < k.hops ∧ ({ k with hops := 1 } : Pkt).hops ≤ 1) ∧
    (let s := { granted with ple := { granted.ple with map := [(0, { entry .t1 with state := .zeroed })] } }
     let k := pkt0 0x01
     Tidy s ∧ Awake s ∧ Arrives s 0 k.src ∧ k.dst = ownId s ∧ partOk k.addr (k.spec % 8192) = true ∧
       (∃ g, matchGrant k false s = .ok (g, 0)) ∧ accessCheck s ⟨3, ctxFn s k.dstCtx, k.dstCtx, none, false, false⟩ 0 = none ∧
       readsZero (mapAt s 0) = true ∧ (fportAt s 0).partner.dev = k.src ∧ SendsAtOnce (fportAt s 0)) ∧
    (let s := ported (withSlab up)
     Tidy s ∧ Awake s ∧ Arrives s 0 9 ∧ matchGrant (pkt0 0x01) false s = .error .accessDenied) ∧
    (let s := granted
     let k := pkt0 0x02
     Tidy s ∧ Awake s ∧ Arrives s 0 k.src ∧ k.dst = ownId s ∧ partOk k.addr 64 = true ∧ (∃ g, matchGrant k true s = .ok (g, 0)) ∧
       accessCheck s ⟨3, ctxFn s k.dstCtx, k.dstCtx, none, true, false⟩ 0 = none ∧ TakesWrites s 0 .t1 ∧
       ZeroBlock s 0 0 (homeKey .t1 (mapAt s 0).frame 0) ∧ (fportAt s 0).partner.dev = k.src ∧ SendsAtOnce (fportAt s 0)) ∧
    (pkt0 0x31).dst = ownId granted :=
  ⟨⟨tidy_of (by decide +kernel), by decide +kernel⟩,
    ⟨tidy_of (by decide +kernel), by decide +kernel, by decide +kernel, by decide +kernel, by decide +kernel, ⟨_, rfl⟩, by decide +kernel⟩,
    ⟨tidy_of (by decide +kernel), by decide +kernel, by decide +kernel, rfl⟩,
    ⟨tidy_of (by decide +kernel), by decide +kernel, by decide +kernel, by decide +kernel, by decide +kernel, ⟨_, rfl⟩, by decide +kernel⟩,
    by decide +kernel⟩

theorem wit_FabricGrants :
    (let s := owning Pg.ftb (withSlab up)
     let r := setReg Pg.ftb 0x80 (BitVec.ofNat 64 (2 ^ 62 + 9 * 2 ^ 40 + 1)) s
     let x := selectGrant 16383 (dropHalf 0 Pg.ftb r)
     Tidy r ∧ Owns r 0 Pg.ftb ∧ grantAt r 16383 = none ∧
       grantRunOk x 0 (grantFields x).localCtx (grantFields x).wr (grantFields x).first (grantFields x).length = true ∧
       admitFail x (setGrant 16383 (some (grantFields x)) x) = none) ∧
    (let s := owning Pg.ftb granted
     Tidy s ∧ Owns s 0 Pg.ftb ∧ ∃ g, grantAt s 0 = some g ∧ fnPort (ctxFn s g.localCtx) = fnPort 0) ∧
    (let s := { granted with grants := [(0, some ⟨true, true, true, 9, 2, 1, 0, 1, 0, 0, 0⟩)] }
     Tidy s ∧ Awake s ∧ ∃ g, grantAt s 0 = some g ∧ g.stale = true ∧ outstanding s g = 0) ∧
    (let q := { recipe0 [] with img := { image0 [] with peers := [⟨12, 0⟩] } }
     let s : State := { up with rcp := { up.rcp with recipes := [(1, some q)] } }
     Awake s ∧ ((1, some q) ∈ s.rcp.recipes) ∧ tget 0 s.ftb.probedAt 12 = 0 ∧ ∃ x ∈ q.img.peers, x.dev = 12 ∧ x.ports = 0) :=
  ⟨⟨tidy_of (by decide +kernel), by decide +kernel⟩, ⟨tidy_of (by decide +kernel), by decide +kernel, _, rfl, by decide +kernel⟩,
    ⟨tidy_of (by decide +kernel), by decide +kernel, _, rfl, by decide +kernel⟩,
    ⟨by decide +kernel, List.mem_cons_self .., rfl, _, List.mem_cons_self .., rfl, rfl⟩⟩

/-! The host interface -/

/-- Ring 0 of the PF as given. -/
def ringed (q : Ring) (s : State) : State := { s with hiu := { s.hiu with rings := [(0, q)] } }

/-- The PF as given. -/
def withPf (f : Func) (s : State) : State := { s with hiu := { s.hiu with fns := [(0, f)] } }

def pfReady : Func := { Func.reset with phase := .ready, bme := true }

theorem wit_HostRings :
    (let s := ringed { Ring.reset with state := .active, cqTail := 3 } (owning Pg.hiu up)
     Tidy s ∧ RingOwner s 0 ∧ (ringOf s 0 0).state = .active ∧ 15 < sqSize (ringOf s 0 0) ∧ sqSize (ringOf s 0 0) ≤ 16 ∧
       3 < cqSize (ringOf s 0 0) ∧
       (3 + cqSize (ringOf s 0 0) - (ringOf s 0 0).cqHead) % cqSize (ringOf s 0 0) ≤ cqUsed (ringOf s 0 0) ∧
       cqSize (ringOf s 0 0) ≤ 16) ∧
    (let s := owning Pg.hiu up
     let cfg : Word := BitVec.ofNat 64 (2 ^ 31 + 4 * 32 + 4)
     Tidy s ∧ RingOwner s 0 ∧ (ringOf s 0 15).state = .disabled ∧ (ringOf s 0 15).running = [] ∧
       ringConfigOk 0 (ringConfig cfg (ringOf s 0 15)) = true) ∧
    (let s := owning Pg.hiu up
     let cfg : Word := BitVec.ofNat 64 (2 ^ 31 + 7)
     Tidy s ∧ RingOwner s 0 ∧ 7 ≤ bits cfg 4 0 ∧ bits cfg 4 0 ≤ 16 ∧ (func s 0).evtOn = false) ∧
    (let s : State := { up with hiu := { up.hiu with
         fns := [(0, { Func.reset with phase := .ready, bme := true, vfEnable := true, numVfs := 1 }), (1, pfReady)] } }
     Tidy s ∧ RingOwner s 1) ∧
    (let s := ringed { Ring.reset with state := .active, sqTail := 1 } up
     let e : SubEntry := ⟨0x02, 0, 7, true⟩
     let x : SubEntry := ⟨0x07, 0, 7, true⟩
     Tidy s ∧ Awake s ∧ canFetch s 0 0 = true ∧ e.flags = 0 ∧ e.reservedZero = true ∧ e.opcode ∈ opcodes ∧ readsHost e.opcode = false ∧
       s.dev.memEnabled = true ∧ x.flags = 0 ∧ x.opcode ∉ opcodes) ∧
    (let s := withCmd 2 up
     Tidy s ∧ inProgress s cmd1 2 = true ∧ (ringOf s cmd1.fn cmd1.ring).state = .active) ∧
    (let s := ringed { Ring.reset with state := .stopped, running := [⟨1, 2, none⟩] } up
     Tidy s ∧ inProgress s cmd1 2 = true ∧ (ringOf s cmd1.fn cmd1.ring).state = .stopped ∧
       (ringOf s cmd1.fn cmd1.ring).enableWaits = false) ∧
    (let s := later 8000 (withPf { pfReady with msix := true } (ringed { Ring.reset with state := .active, unsignalled := 2, intDelay := 8 } up))
     Tidy s ∧ Awake s ∧ (ringOf s 0 0).unsignalled ≠ 0 ∧ (ringOf s 0 0).intDelay ≠ 0 ∧
       (ringOf s 0 0).firstAt + 1000 * (ringOf s 0 0).intDelay ≤ s.now ∧ (func s 0).bme = true ∧ (func s 0).msix = true ∧
       (func s 0).masked.contains (ringOf s 0 0).vector = false) :=
  ⟨⟨tidy_of (by decide +kernel), by decide +kernel⟩, ⟨tidy_of (by decide +kernel), by decide +kernel⟩,
    ⟨tidy_of (by decide +kernel), by decide +kernel⟩, ⟨tidy_of (by decide +kernel), by decide +kernel⟩,
    ⟨tidy_of (by decide +kernel), by decide +kernel⟩, ⟨tidy_of (by decide +kernel), by decide +kernel⟩,
    ⟨tidy_of (by decide +kernel), by decide +kernel⟩, ⟨tidy_of (by decide +kernel), by decide +kernel⟩⟩

theorem wit_HostRequests :
    (let s := withCmd Opc.query (withSlab up)
     started cmd1 Opc.query s = some s ∧ s.dev.memEnabled = true ∧ OwnCtx cmd1 1 s ∧ 4096 < 2 ^ 48 ∧ 64 % 64 = 0 ∧
       accessCheck s (ringAsk cmd1.fn 1 false false) (4096 / 2 ^ 24) = none) ∧
    (Tidy up ∧ 1 < 4096 ∧ portUp up (fnPort 1) = true ∧ fnExists up 1 = false) ∧
    (let s := withPf { Func.reset with numVfs := 1 } up
     Tidy s ∧ portUp s (fnPort 0) = true ∧ fnExists s 0 = true ∧ (func s 0).phase ≠ .ready ∧ s.sss.state = .watch) ∧
    (let s := ringed { Ring.reset with state := .active } up
     Tidy s ∧ Awake s ∧ portUp s (fnPort 0) = true ∧ fnExists s 0 = true ∧ (func s 0).phase = .ready ∧ (ringOf s 0 0).state = .active) ∧
    (let s : State := later (10 ^ 12) { up with hiu := { up.hiu with
         rings := [(0, { Ring.reset with state := .active, fetchTag := some 4 })],
         p0 := { up.hiu.p0 with tags := [(4, .fetch 0 0), (9, .quarantine)], ide := [5] } } }
     Tidy s ∧ Awake s ∧ tfind (hport s 0).tags 4 = some (.fetch 0 0) ∧ (ringOf s 0 0).state = .active ∧
       tget 0 (hport s 0).tagAt 4 + tagBound s 0 ≤ s.now ∧ tget 0 (hport s 0).tagAt 9 + 2000 * (func s (pfOf 0)).ctoUs ≤ s.now ∧
       tfind (hport s 0).tags 9 = some .quarantine ∧ (hport s 0).ide.contains 5 = true ∧ portUp s 0 = true ∧
       (func s (pfOf 0)).phase = .ready ∧ s.otp.life ≠ .scrapped) :=
  ⟨⟨by rfl, by decide +kernel⟩, ⟨tidy_of (by decide +kernel), by decide +kernel⟩, ⟨tidy_of (by decide +kernel), by decide +kernel⟩,
    ⟨tidy_of (by decide +kernel), by decide +kernel⟩, ⟨tidy_of (by decide +kernel), by decide +kernel⟩⟩

/-! Control, security, resets and test -/

/-- An event of the codec to the PF of port 0. -/
def event0 : Evt := ⟨.poisoned, .contained, 1, 1, 0, 5, Pg.cdc, 0, [0], true⟩

def slotActive : FwSlot := { FwSlot.reset with state := .active, version := 1, svn := 2 }

def image1 : FwImage := ⟨4, 3, 1, none, true, true⟩

theorem wit_EventsCoresFirmware :
    (let s := withPf { pfReady with evtOn := true } { up with router := [event0] }
     Tidy s ∧ Awake s ∧ s.router = [event0] ∧ logged event0 = true ∧ s.ccx.log.length < 220 ∧ event0.dests = [0] ∧ (func s 0).evtOn = true ∧
       (func s 0).bme = true ∧ (func s 0).d3hot = false ∧
       ((func s 0).evtIdx + 1) % 2 ^ (func s 0).evtLog ≠ (func s 0).evtHead % 2 ^ (func s 0).evtLog) ∧
    (Tidy up ∧ Awake up ∧ pageOf (Pg.dmc + 7) = some (.dmc, 7) ∧ hangs .dmc = true) ∧
    (let s := setReg Pg.ccx 0x400 (BitVec.ofNat 64 (3 * 2 ^ 12)) up
     Tidy s ∧ Awake s ∧ trising 0 s.ccx.cores = true ∧ (coreAt s 15).state = .online ∧
       ((coreAt s 15).recent.filter (fun t => decide (s.now < t + dayNs))).length + 1 < fld s Pg.ccx 0x400 15 12) ∧
    (let s : State := { up with ccx := { up.ccx with cores := [(15, { Core.reset with state := .restarting })] } }
     Tidy s ∧ Awake s ∧ trising 0 s.ccx.cores = true ∧ (coreAt s 15).state = .restarting) ∧
    (let s : State := { up with sss := { up.sss with state := .safe, cause := 3 } }
     Tidy s ∧ s.boot.halted = false ∧ s.sss.state = .safe ∧ s.sss.second = 0 ∧ isPf 2048 = true ∧ portUp s (fnPort 0) = true) ∧
    (let s := owning Pg.sss up
     Tidy s ∧ portUp s (fnPort 0) = true ∧ s.sss.state ≠ .safe ∧ Owns s 0 Pg.sss ∧ (pageHdr s Pg.sss).unlocked = true ∧
       openLife s = true ∧ openLife { s with otp := { s.otp with life := .field } } = false) ∧
    (let t : State := { up with ccx := { up.ccx with slotA := slotActive, slotB := { FwSlot.reset with state := .valid, svn := 3 } } }
     let s := setReg Pg.ccx 0x70 (BitVec.ofNat 64 4096) (owning Pg.ccx t)
     Tidy s ∧ Owns s 0 Pg.ccx ∧ s.ccx.busy = false ∧ 4096 ≤ fld s Pg.ccx 0x70 25 0 ∧ fld s Pg.ccx 0x70 25 0 ≤ 33554432 ∧
       (func s 0).bme = true ∧ (otherSlot s).state = .valid ∧ s.otp.minSvn ≤ (otherSlot s).svn ∧ (activeSlot s).state = .active) ∧
    (let s := later (10 ^ 10) { up with ccx := { up.ccx with busy := true, trial := true, slotA := slotActive } }
     Tidy s ∧ Awake s ∧ s.ccx.busy = true ∧ image1.authentic = true ∧ s.otp.revoked.contains image1.keyIndex = false ∧
       image1.keyIndex < 4 ∧ s.otp.minSvn ≤ image1.svn ∧ image1.written = true ∧ s.ccx.trial = true ∧ 10000000000 ≤ s.now) :=
  ⟨⟨tidy_of (by decide +kernel), by decide +kernel⟩, ⟨tidy_of (by decide +kernel), by decide +kernel⟩,
    ⟨tidy_of (by decide +kernel), by decide +kernel⟩, ⟨tidy_of (by decide +kernel), by decide +kernel⟩,
    ⟨tidy_of (by decide +kernel), by decide +kernel⟩, ⟨tidy_of (by decide +kernel), by decide +kernel⟩,
    ⟨tidy_of (by decide +kernel), by decide +kernel⟩, ⟨tidy_of (by decide +kernel), by decide +kernel⟩⟩

/-- The token of the transition from BLANK to MANUFACTURED of device 7. -/
def token0 : List Byte :=
  leBytes 4 0x4C435431 ++ leBytes 4 (lifeCode .blank + 256 * lifeCode .manufactured) ++ leBytes 8 7 ++ List.replicate 240 0

def debug0 : List Byte :=
  leBytes 4 0x44475231 ++ leBytes 4 1 ++ leBytes 8 7 ++ leBytes 8 55 ++ leBytes 4 3600 ++ List.replicate 132 0

/-- A page of the security unit with key slots as given. -/
def keyed (l : List (Nat × KeySlot)) (s : State) : State := { s with sec := { s.sec with keys := l } }

theorem wit_LifecycleKeysTrust :
    (let s := owning Pg.lcc up
     Tidy s ∧ Owns s 0 Pg.lcc ∧ s.lcc.busy = false) ∧
    (let s : State := { up with lcc := { up.lcc with busy := true } }
     Tidy s ∧ Awake s ∧ s.lcc.busy = true ∧ s.lcc.two = false ∧ (func s s.lcc.submitter).bme = true ∧ token0.length = 256 ∧
       (List.replicate 256 (0 : Byte)).length = 256) ∧
    (let s := keyed [(3, { KeySlot.reset with state := .empty }), (4, { KeySlot.reset with state := .loaded }),
        (5, { KeySlot.reset with state := .bound })] (owning Pg.sec up)
     Tidy s ∧ Owns s 0 Pg.sec ∧ s.sec.done = true ∧ (∃ k, k < 65536 ∧ (keyAt s k).state = .free) ∧ (keyAt s 3).state = .empty ∧
       (keyAt s 3).port = fnPort 0 ∧ (func s 0).bme = true ∧ (keyAt s 4).state = .loaded ∧ (keyAt s 5).state = .bound ∧
       (∀ p, p < 8 → (fportAt s p).spdmDone = false)) ∧
    (let s : State := { up with sec := { up.sec with grant := some ⟨0, 9, 1, 9⟩ }, tmx := { up.tmx with claims := [(17, { ClaimRec.free with owner := .debug })] } }
     Tidy (later 9 s) ∧ Awake (later 9 s) ∧ s.sec.grant.isSome = true ∧ (later 9 s).sec.grant.any (fun g => decide (g.ends ≤ (later 9 s).now)) = true) ∧
    (let s := keyed [(5, { KeySlot.reset with state := .bound, dying := true })]
       { up with ple := { up.ple with ctxs := [(1, { Ctx.reset with state := .active, key := 5 })] } }
     Tidy s ∧ Awake s ∧ (keyAt s 5).dying = true ∧ boundTo s 5 = [1] ∧ slabsOf s 1 = []) :=
  ⟨⟨tidy_of (by decide +kernel), by decide +kernel⟩, ⟨tidy_of (by decide +kernel), by decide +kernel⟩,
    ⟨tidy_of (by decide +kernel), by decide +kernel, by decide +kernel, ⟨0, by decide +kernel, by decide +kernel⟩, by decide +kernel⟩,
    ⟨tidy_of (by decide +kernel), by decide +kernel⟩, ⟨tidy_of (by decide +kernel), by decide +kernel⟩⟩

/-- With a signature that verifies, the token passes; with another magic number it does not. -/
theorem wit_LifecycleKeysTrust_tokens :
    (Config.verifiesFenavaud (token0.take 160) ((token0.drop 160).take 96) = true → ∃ p, checkTokens up [token0] = .ok p) ∧
      checkTokens up [List.replicate 256 0] = .error lccMagic := by
  refine ⟨fun h => ⟨(.manufactured, (token0.drop 20).take 48), ?_⟩, rfl⟩
  have h' : signedAs up .fenavaud [token0] = true := by simp [signedAs, tokenByFenavaud, h]
  unfold checkTokens
  simp only [List.headD_cons]
  rw [show (tokenTo token0).bind (fun b => (transition up.otp.life b).map (fun g => (b, g))) = some (.manufactured, .fenavaud) from rfl]
  simp only [h']
  rfl

/-- With a signature that verifies, the debug grant for the nonce read before is good. -/
theorem wit_LifecycleKeysTrust_grant :
    let s : State := { up with sec := { up.sec with nonce := some 55 } }
    (Config.verifiesFenavaud (debug0.take 64) ((debug0.drop 64).take 96) = true → grantGood s debug0 = true) ∧ grantGood s [] = false := by
  refine ⟨fun h => ?_, rfl⟩
  unfold grantGood
  simp only [h]
  decide +kernel

/-- A blob of the right form and a store of the right form are accepted where their keys say so. -/
theorem wit_LifecycleKeysTrust_store :
    (∀ key, Config.unwrap up.sec.importKey up.dev.serial 3 (List.replicate 184 0) = some key →
      blobKey up 3 (List.replicate 184 0) = some key) ∧
    blobKey up 3 [] = none ∧
    (let s : State := { up with otp := { up.otp with owners := [[1]] } }
     let b : List Byte := leBytes 4 0x54535431 ++ List.replicate 2396 0
     ∀ h, ownerHash s = some h → Config.verifies h (b.take 2304) ((b.drop 2304).take 96) = true → trustRefusal s b = none) ∧
    trustRefusal up [] = some trustSignature := by
  refine ⟨fun key h => ?_, rfl, fun h e v => ?_, by decide +kernel⟩
  · have e : (List.replicate 184 (0 : Byte)).length = 184 ∧
        (((List.replicate 184 (0 : Byte)).drop 97).take 7).all (fun x => decide (x = 0)) = true := by decide +kernel
    simp only [blobKey, if_pos e, h]
  · have o : ownerSigned { up with otp := { up.otp with owners := [[1]] } } ((leBytes 4 0x54535431 ++ List.replicate 2396 0).take 2304)
        (((leBytes 4 0x54535431 ++ List.replicate 2396 0).drop 2304).take 96) = true := by
      simp only [ownerSigned, e, v]
    simp only [trustRefusal, o]
    decide +kernel

theorem wit_ContextAndFunctionEnds :
    (let s := owning Pg.ple up
     Tidy s ∧ Owns s 0 Pg.ple ∧ s.ple.ctxDone = true ∧ (ctxAt s 1).state = .active ∧ fnPort (ctxFn s 1) = fnPort 0) ∧
    (let s : State := { up with hiu := { up.hiu with fns := [(0, { pfReady with vfEnable := true, numVfs := 2047 }), (1, pfReady)] } }
     Tidy s ∧ Awake s ∧ portUp s (fnPort 1) = true ∧ fnExists s 1 = true ∧ (func s 1).phase = .ready ∧ isPf 1 = false ∧
       fnExists s 2 = true ∧ (func s 2).phase ≠ .ready ∧ portUp s 0 = true ∧ (func s (pfOf 0)).phase = .ready ∧
       (func s (pfOf 0)).vfEnable = true ∧ (func s (pfOf 0)).numVfs ≤ 2047 ∧ fnLive s 1 = true ∧ s.otp.life ≠ .scrapped ∧
       (func s 1).tdi = .unlocked) ∧
    (let s (t : Tdi) : State := { up with hiu := { up.hiu with fns :=
         [(0, { pfReady with vfEnable := true, numVfs := 2047 }), (2047, { pfReady with tdi := t })] } }
     (Tidy (s .locked) ∧ fnLive (s .locked) 2047 = true ∧ (func (s .locked) 2047).tdi = .locked) ∧
       Tidy (s .run) ∧ fnLive (s .run) 2047 = true ∧ (func (s .run) 2047).tdi = .run) ∧
    (Tidy up ∧ Awake up ∧ fnExists up 7 = false) :=
  ⟨⟨tidy_of (by decide +kernel), by decide +kernel⟩, ⟨tidy_of (by decide +kernel), by decide +kernel⟩,
    ⟨⟨tidy_of (by decide +kernel), by decide +kernel⟩, tidy_of (by decide +kernel), by decide +kernel⟩,
    ⟨tidy_of (by decide +kernel), by decide +kernel⟩⟩

theorem wit_StartAndResets :
    State.reset.dev.powered = false ∧
    (let s := owning Pg.iox { up with sss := { up.sss with resetAsked := true, trialReset := true } }
     s.dev.powered = true ∧ s.sss.resetAsked = true ∧ s.sss.trialReset = true ∧ Owns s 0 Pg.iox) ∧
    (let s : State := setReg Pg.iox 0x68 2 { up with hiu := { up.hiu with p0 := HPort.reset } }
     s.dev.powered = true ∧ s.hiu.p0.perst = true ∧ s.hiu.p1.perst = true ∧ flag s Pg.iox 0x68 1 = true) ∧
    (Tidy up ∧ Awake up ∧ (hport up 0).perst = false) ∧
    (let s : State := { up with hiu := { up.hiu with p1 := { HPort.reset with link := .training, perst := false } } }
     Tidy s ∧ s.boot.halted = false ∧ (hport up 1).perst = true ∧ Awake s ∧ (hport s 1).link = .training ∧ (func s (pfOf 1)).phase ≠ .ready) ∧
    (let s : State := { up with hiu := { up.hiu with p0 := { up.hiu.p0 with memActive := false } }, ccx := { up.ccx with trial := true } }
     Tidy s ∧ Awake s ∧ s.dev.memEnabled = true ∧ portUp s 0 = true ∧ (func s (pfOf 0)).phase = .ready ∧ (hport s 0).memActive = false ∧
       s.boot.cfg.parts = [] ∧ s.ccx.trial = true) ∧
    (let s : State := { up with mge := { up.mge with zeroing := [(.t1, 3)] } }
     Tidy s ∧ Awake s ∧ s.mge.zeroing.contains (.t1, 3) = true ∧ s.mge.held = [] ∧ (∀ m ∈ s.mge.moves, m.cls = 3 → m.phase ≠ .queued)) ∧
    (let s : State := { up with lcc := { up.lcc with wiping := true } }
     Tidy s ∧ Awake s ∧ s.lcc.wiping = true) :=
  ⟨by decide +kernel, by decide +kernel, by decide +kernel, ⟨tidy_of (by decide +kernel), by decide +kernel⟩,
    ⟨tidy_of (by decide +kernel), by decide +kernel⟩, ⟨tidy_of (by decide +kernel), by decide +kernel⟩,
    ⟨tidy_of (by decide +kernel), by decide +kernel⟩, ⟨tidy_of (by decide +kernel), by decide +kernel⟩⟩

theorem wit_ClaimsAndTest :
    (let s := owning Pg.tmx { up with tmx := { up.tmx with claims := [(18, { ClaimRec.free with owner := .pf })],
                                                           records := [List.replicate 24 1], traceState := .capturing } }
     Tidy s ∧ Owns s 0 Pg.tmx ∧ claimLimited s (.fn 0) .pf 17 = false ∧ claimLimited s (.fn 0) .pf 18 = false ∧
       (claimOf s 17).owner = .free ∧ (claimOf s 18).owner = .pf ∧ (claimOf s 18).tap = false ∧ (claimOf s 18).port = fnPort 0 ∧
       s.tmx.trigCmp = none ∧ writerHolds s (.fn 0) resPins = true ∧ muxClass 1 63 = some .pace ∧ muxAllowed s .pace = true ∧
       muxClass 1 64 = none ∧ s.tmx.readPos < 3 ∧ inUse s = true) ∧
    (let s := owning Pg.tmx { up with tmx := { up.tmx with claims := [(17, { ClaimRec.free with owner := .pf })], traceState := .capturing } }
     Tidy s ∧ Owns s 0 Pg.tmx ∧ writerHolds s (.fn 0) resTrace = true ∧ s.tmx.trigCmp = none ∧ s.tmx.traceState = .capturing) :=
  ⟨⟨tidy_of (by decide +kernel), by decide +kernel⟩, ⟨tidy_of (by decide +kernel), by decide +kernel⟩⟩

theorem wit_HashOutputs : (39 : Nat) ≤ 48 ∧ 0x4000000 < 2 ^ 39 := by decide

theorem wit_ProfileAcrossResets :
    (Tidy State.reset ∧ State.reset.dev.powered = false) ∧
    (let s := owning Pg.iox { up with sss := { up.sss with resetAsked := true, trialReset := true },
                                      tmx := { up.tmx with resetDue := true } }
     Tidy s ∧ s.dev.powered = true ∧ s.sss.resetAsked = true ∧ s.sss.trialReset = true ∧ s.tmx.resetDue = true ∧
       Owns s 0 Pg.iox) ∧
    (let s : State := setReg Pg.iox 0x68 2 { up with hiu := { up.hiu with p0 := HPort.reset } }
     Tidy s ∧ s.dev.powered = true ∧ s.hiu.p0.perst = true ∧ s.hiu.p1.perst = true ∧ flag s Pg.iox 0x68 1 = true) :=
  ⟨⟨tidy_of rfl, rfl⟩, ⟨tidy_of (by decide +kernel), by decide +kernel⟩, ⟨tidy_of (by decide +kernel), by decide +kernel⟩⟩

/-! Commands that are not well formed: each check refuses one -/

theorem test_fits_refuses : Instr.wellFormed (.relock 4096 0) = false := by decide

theorem test_ringOk_refuses : Instr.wellFormed (.shareCreate ⟨0, 16, 0⟩ 0) = false := by decide

theorem test_pktOk_refuses :
    Instr.wellFormed (.packetRelay 0 ⟨256, 0, 0, 0, 0, 0, 0, 0, 0, 0, 0⟩ []) = false := by decide

theorem test_writerOk_refuses : writerOk (.fn 4096) = false := by decide

theorem test_dmaOk_refuses (n : Nat) (h : 2 ^ 40 < n) : dmaOk (.bytes (List.replicate n 0)) = false := by
  simp only [dmaOk, List.length_replicate, decide_eq_false_iff_not, Nat.not_le]
  exact h

/-- An image with one stream and no steps. -/
def oneStream : Image :=
  ⟨0, 0, true, false, false, false, 0, 1, 1, 1, 0, 0, 0, 0, 0, 0, 0, 0, 0, [], [⟨false, 0, 0, 0, 0, 0, 0, 0⟩], [], [], [], []⟩

theorem test_recipeOk_refuses : recipeOk (.image oneStream []) = false := by decide

theorem test_flashOk_refuses :
    flashOk ⟨List.replicate 33 []⟩ = false := by decide

theorem test_fetchOk_refuses : fetchOk (.entry ⟨256, 0, 0, true⟩) = false := by decide

theorem test_cfgOk_refuses : cfgOk (.msiEnable true 8) = false := by decide

theorem test_cxl_write_is_one_crumb : Instr.wellFormed (.cxlMemWrite 0 0 []) = false := by decide

/-! Values that the spec prints -/

/-- The nine ASCII bytes "123456789" (R217). -/
def nine : List Byte := [0x31, 0x32, 0x33, 0x34, 0x35, 0x36, 0x37, 0x38, 0x39]

/-- The check value of preset `n` over `nine`. -/
def nineCheck (n : Nat) : Option Nat := (cvuPreset n).map (fun p => cvuFinal p (cvuFeed p p.init nine))

/-- The column "Check value" of Table 09-1. -/
theorem test_cvu_presets :
    (List.range 7).map nineCheck =
      [some 0xE3069283, some 0xCBF43926, some 0x0376E6E7, some 0x29B1, some 0x995DC9BBDF1939FA, some 0xF4, none] := by
  decide +kernel

/-- The device's own CRC_A is preset 0, and TABLE_CHECK is preset 3 (Table 09-1). -/
theorem test_block_checks : crc32c nine = 0xE3069283 ∧ crc16 nine = 0x29B1 := by decide +kernel

end Sys2Proof.Tests
end

section
/-! PROOFS. Writes of basic registers (O8): bits of a register word, the header of a page after an access, what an access of the
claim holder comes to, and the writes of fields, of CDC_CODEC_CTRL and of command registers. -/

namespace Sys2Proof.Machine

/-! Bits of a register word -/

theorem bitOf_ofNat (x : Nat) {i : Nat} (h : i < 64) : bitOf (BitVec.ofNat 64 x) i = x.testBit i := by
  rw [bitOf, BitVec.toNat_ofNat, Nat.testBit_mod_two_pow]
  simp [h]

/-- Parts of two words outside and inside a mask add up without a carry. -/
theorem masked_add_eq_or (x y m : Word) : (x &&& ~~~m) + (y &&& m) = (x &&& ~~~m) ||| (y &&& m) := by
  refine BitVec.add_eq_or_of_and_eq_zero _ _ ?_
  ext i hi
  cases h : m[i] <;> simp [h]

theorem sub_and_eq_and_not (x m : Word) : x - (x &&& m) = x &&& ~~~m := by
  have parts : (x &&& ~~~m) + (x &&& m) = x := by
    rw [masked_add_eq_or]
    ext i hi
    cases h : m[i] <;> simp [h]
  have difference := BitVec.add_sub_cancel (x &&& ~~~m) (x &&& m)
  rwa [parts] at difference

/-- The mask of bits `hi` down to `lo`, by which `setBits` replaces them. -/
def fieldMask (hi lo : Nat) : Word := BitVec.ofNat 64 ((2 ^ (hi + 1 - lo) - 1) <<< lo)

theorem setBits_eq_or (w : Word) (hi lo v : Nat) :
    setBits w hi lo v = (w &&& ~~~fieldMask hi lo) ||| (BitVec.ofNat 64 (v <<< lo) &&& fieldMask hi lo) := by
  have rest : BitVec.ofNat 64 (w.toNat - (w.toNat &&& (2 ^ (hi + 1 - lo) - 1) <<< lo)) = w &&& ~~~fieldMask hi lo := by
    have small : w.toNat &&& (2 ^ (hi + 1 - lo) - 1) <<< lo < 2 ^ 64 := Nat.lt_of_le_of_lt Nat.and_le_left w.isLt
    rw [← BitVec.ofNat_sub_ofNat_of_le _ _ small Nat.and_le_left, BitVec.ofNat_and, BitVec.ofNat_toNat, BitVec.setWidth_eq,
      ← sub_and_eq_and_not, fieldMask]
  unfold setBits
  rw [BitVec.ofNat_add, rest, BitVec.ofNat_and, ← fieldMask, masked_add_eq_or]

/-- After a field is replaced, its bits are those of the new value and every other bit is as before. -/
theorem bitOf_setBits (w : Word) (hi lo v : Nat) {i : Nat} (h : i < 64) :
    bitOf (setBits w hi lo v) i = if lo ≤ i ∧ i ≤ hi then v.testBit (i - lo) else bitOf w i := by
  have mask : (fieldMask hi lo).getLsbD i = decide (lo ≤ i ∧ i ≤ hi) := by
    simp only [fieldMask, BitVec.getLsbD_ofNat, Nat.testBit_shiftLeft, Nat.testBit_two_pow_sub_one, h]
    grind
  change (setBits w hi lo v).getLsbD i = if _ then _ else w.getLsbD i
  rw [setBits_eq_or]
  by_cases inside : lo ≤ i ∧ i ≤ hi
  · simp only [BitVec.getLsbD_or, BitVec.getLsbD_and, BitVec.getLsbD_not, BitVec.getLsbD_ofNat, Nat.testBit_shiftLeft, mask, h, inside]
    simp
  · simp only [BitVec.getLsbD_or, BitVec.getLsbD_and, BitVec.getLsbD_not, mask, h, inside]
    simp

@[simp] theorem testBit_bits (w : Word) (hi lo i : Nat) :
    (bits w hi lo).testBit i = (decide (i < hi + 1 - lo) && bitOf w (lo + i)) := by
  simp [bits, bitOf, Nat.testBit_mod_two_pow, Nat.testBit_shiftRight]

/-- What a 32-bit access carries: the low half of the word. -/
theorem bitOf_lowHalf (v : Word) {i : Nat} (h : i < 32) : bitOf (BitVec.ofNat 64 (bits v 31 0)) i = bitOf v i := by
  rw [bitOf_ofNat _ (by omega)]
  simp [h]

/-! The header of a page -/

section
variable {s : State} {w p : Nat}

theorem tidy_modPage (f : Page → Page) (ht : Tidy s) : Tidy (modPage p f s) := (keeps_modPage p f s (.refl s)).tidy ht

theorem tidy_setReg (off : Nat) (v : Word) (ht : Tidy s) : Tidy (setReg p off v s) := (keeps_setReg p off v s (.refl s)).tidy ht

theorem tidy_dropHalf (ht : Tidy s) : Tidy (dropHalf w p s) := tidy_modPage _ ht

theorem pageHdr_congr {t : State} (h : t.pages = s.pages) (q : Nat) : pageHdr t q = pageHdr s q := by
  unfold pageHdr; rw [h]

theorem reg_congr {t : State} (h : t.regs = s.regs) (q o : Nat) : reg t q o = reg s q o := by
  unfold reg; rw [h]

theorem pageHdr_modPage (f : Page → Page) (ht : Tidy s) : pageHdr (modPage p f s) p = f (pageHdr s p) := pageHdr_setPage _ _ ht

theorem hdrOnly_modPage (f : Page → Page) (ht : Tidy s) : HdrOnly p s (modPage p f s) := fun _ hq => pageHdr_setPage_ne _ _ ht hq

theorem pageHdr_dropHalf (ht : Tidy s) : pageHdr (dropHalf w p s) p = accessed w (pageHdr s p) := pageHdr_modPage _ ht

theorem hdrOnly_dropHalf (ht : Tidy s) : HdrOnly p s (dropHalf w p s) := hdrOnly_modPage _ ht

theorem pageHdr_noteErr (kind : Nat) (st : Status) (off : Nat) (ht : Tidy s) :
    pageHdr (noteErr p kind st off w s) p = refusedHdr kind st off w (pageHdr s p) := pageHdr_modPage _ ht

theorem hdrOnly_noteErr (kind : Nat) (st : Status) (off : Nat) (ht : Tidy s) : HdrOnly p s (noteErr p kind st off w s) :=
  hdrOnly_modPage _ ht

theorem hdrOnly_trans {t u : State} (h : HdrOnly p s t) (k : HdrOnly p t u) : HdrOnly p s u :=
  fun q hq => (k q hq).trans (h q hq)

theorem hdrOnly_of_pages {t : State} (e : t.pages = s.pages) : HdrOnly p s t := fun q _ => pageHdr_congr e q

theorem regOnly_trans {off : Nat} {t u : State} (h : RegOnly p off s t) (k : RegOnly p off t u) : RegOnly p off s u :=
  fun q o hk => (k q o hk).trans (h q o hk)

theorem regOnly_of_regs {off : Nat} {t : State} (e : t.regs = s.regs) : RegOnly p off s t := fun q o _ => reg_congr e q o

theorem regOnly_dropHalf (off : Nat) : RegOnly p off s (dropHalf w p s) := regOnly_of_regs rfl

theorem regOnly_noteErr (kind : Nat) (st : Status) (off : Nat) : RegOnly p off s (noteErr p kind st off w s) := regOnly_of_regs rfl

theorem regOnly_setReg (off : Nat) (v : Word) (ht : Tidy s) : RegOnly p off s (setReg p off v s) :=
  fun _ _ hk => reg_setReg_ne p off v ht hk

/-- Dropping the halves of a writer leaves the claims alone. -/
theorem holdsPage_dropHalf (v q : Nat) (ht : Tidy s) : holdsPage (dropHalf w p s) v q = holdsPage s v q := by
  by_cases hq : claimPage q = p
  · subst hq; simp only [holdsPage, pageHdr_dropHalf ht, accessed]
  · simp only [holdsPage, hdrOnly_dropHalf ht _ hq]

end

theorem isPf_of_holdsPage {s : State} {w p : Nat} (h : holdsPage s w p = true) : isPf w = true := by
  simp only [holdsPage, Bool.and_eq_true] at h
  obtain ⟨⟨pf, -⟩, -⟩ := h
  exact pf

/-! A whole access by the holder of the claim (R443, R448) -/

theorem readOnlyPage_of_pageOf {p n off : Nat} {t : PageType} {v : Word} (hp : pageOf p = some (t, n)) (hsch : t ≠ .sch)
    (hflc : t ≠ .flc) : readOnlyPage p off v = false := by
  simp [readOnlyPage, hp, hsch, hflc]

/-- An access of the owner to an offset above the header that has no row of its own is carried out. -/
theorem pageWrite_of_owns {s : State} {w p off : Nat} {wide : Bool} {v : Word} (ht : Tidy s) (ho : Owns s w p)
    (hro : readOnlyPage p off v = false) (hlo : 0x40 ≤ off) (hrow : headerRow p off = false) :
    pageWrite w p off wide v s =
      applyAccess (decide (0x400 ≤ off) && decide (off < 0xE00)) w p (heldHalf s w p) off wide v (dropHalf w p s) := by
  obtain ⟨hreach, hholds, hreset⟩ := ho
  have kept : (pageHdr (dropHalf w p s) p).resetting = false := by rw [pageHdr_dropHalf ht]; exact hreset
  have ctrl : off ≠ 0x0C := by omega
  have pend : off ≠ 0x1C := by omega
  have preset : ¬ (off = 0x40 ∧ (pageOf p).any (fun x => hasPreset x.1) = true) := by
    rintro ⟨h, k⟩; simp [headerRow, h, k] at hrow
  simp [pageWrite, hreach, holdsPage_dropHalf w p ht, hholds, hro, kept, ctrl, pend, preset]

/-- A whole value for a register of its own width reaches the register's write. -/
theorem accessReg_whole {w p off : Nat} {find : Nat → Option Target} {half : Nat → Option Word} {s : State} {v : Word} {x : Target}
    (hf : find off = some x) :
    accessReg w p find half off x.wide v s = x.write (if x.wide then v else BitVec.ofNat 64 (bits v 31 0)) s := by
  cases hw : x.wide <;> simp [accessReg, hf, hw]

theorem target_basic {w p off n : Nat} {t : PageType} {d : RegDef} (hp : pageOf p = some (t, n)) (hr : regAt p off = some (d, off))
    (hlo : 0x40 ≤ off) (hhi : off < 0x400) (ht : t ≠ .hiu) :
    target w p false off = some ⟨off, d.wide, writeBasic w p t n d off⟩ := by
  have mask : off ≠ 0x18 := by omega
  have basic : ¬ 0x400 ≤ off := by omega
  simp [target, hp, hr, ht, mask, basic]

theorem exec_registerWrite (w page off : Nat) (wide : Bool) (v : Word) (s : State) :
    exec (.registerWrite w page off wide v) s = execRegisterWrite w page off wide v s := rfl

/-- REGISTER_WRITE of a whole value by the owner of a page comes to the write of the basic register. -/
theorem exec_registerWrite_owner {s : State} {w p off n : Nat} {t : PageType} {d : RegDef} (v : Word) (hs : Tidy s) (ho : Owns s w p)
    (hp : pageOf p = some (t, n)) (hr : regAt p off = some (d, off)) (hal : off % 8 = 0) (hlo : 0x40 ≤ off) (hhi : off < 0x400)
    (hrow : headerRow p off = false) (hhiu : t ≠ .hiu) (hsch : t ≠ .sch) (hflc : t ≠ .flc) :
    exec (.registerWrite w p off d.wide v) s = .next (writeBasic w p t n d off (written d v) (dropHalf w p s)) := by
  have pf : isPf w = true := isPf_of_holdsPage ho.2.1
  have aligned : alignedAccess off d.wide = true := by cases hw : d.wide <;> simp [alignedAccess] <;> omega
  have expert : ¬ 0x400 ≤ off := by omega
  have access : pageWrite w p off d.wide v s = writeBasic w p t n d off (written d v) (dropHalf w p s) := by
    rw [pageWrite_of_owns hs ho (readOnlyPage_of_pageOf hp hsch hflc) hlo hrow]
    simpa [applyAccess, expert, written] using accessReg_whole (target_basic hp hr hlo hhi hhiu)
  simp [exec_registerWrite, execRegisterWrite, aligned, pf, hrow, expert, access]

theorem mem_regsOf_of_regAt {p n off o : Nat} {t : PageType} {d : RegDef} (hp : pageOf p = some (t, n))
    (hr : regAt p off = some (d, o)) : d ∈ regsOf t := by
  simp only [regAt, hp] at hr
  obtain ⟨d', hmem, hd⟩ := List.exists_of_findSome?_eq_some hr
  obtain ⟨k, -, hk⟩ := List.exists_of_findSome?_eq_some hd
  obtain ⟨-, rfl, -⟩ : _ ∧ d' = d ∧ _ := by simpa using hk
  exact hmem

/-! Fields (R6, R7) -/

/-- The outcome of a write of fields to a basic register: the accepted fields take their values, and a refused one is recorded. -/
def fieldsWritten (w p off : Nat) (d : RegDef) (v : Word) (s : State) : State :=
  let u := setReg p off (mergeFlds d.flds (reg s p off) v) s
  if d.flds.all (fun f => fldOk f v) then u else noteErr p kindRefusedValue .accessDenied off w u

/-- Registers beside those of the PLE, FTB, FPT and CDC pages, without rows or an OP of their own, take their fields and nothing
follows. -/
theorem writeBasic_eq_fieldsWritten {s : State} {w p off n : Nat} {t : PageType} {d : RegDef} {v : Word} (hop : opField t off = none)
    (hrow : basicRow t off v = false) (hf : d.flds ≠ []) (ht : t ∉ [PageType.ple, .ftb, .fpt, .hiu, .cdc]) :
    writeBasic w p t n d off v s = fieldsWritten w p off d v s := by
  simp only [List.mem_cons, List.not_mem_nil, or_false, not_or] at ht
  obtain ⟨hple, hftb, hfpt, -, hcdc⟩ := ht
  have nothing : ∀ old u, afterBasic t n off old u = u := by
    intro old u
    unfold afterBasic
    split
    · exact absurd rfl hfpt
    · exact absurd rfl hftb
    · exact absurd rfl hcdc
    · rfl
  simp [writeBasic, fieldsWritten, hop, hrow, hf, hple, hftb, hcdc, nothing]

/-- The pages of the T1 and flash channels have no field that software writes (R161, R189). -/
theorem flds_of_mem_readOnly {t : PageType} {d : RegDef} (ht : t = .sch ∨ t = .flc) (hd : d ∈ regsOf t) : d.flds = [] := by
  have sch : ∀ r ∈ regsOf .sch, r.flds = [] := by decide
  have flc : ∀ r ∈ regsOf .flc, r.flds = [] := by decide
  rcases ht with rfl | rfl
  · exact sch d hd
  · exact flc d hd

/-- REGISTER_WRITE of a basic register that has fields and no row or OP of its own. -/
theorem exec_registerWrite_fields {s : State} {w p off n : Nat} {t : PageType} {d : RegDef} {v : Word} (hs : Tidy s)
    (ho : Owns s w p) (hp : pageOf p = some (t, n)) (hr : regAt p off = some (d, off)) (hal : off % 8 = 0) (hlo : 0x40 ≤ off)
    (hhi : off < 0x400) (hhdr : headerRow p off = false) (hf : d.flds ≠ []) (hrow : basicRow t off (written d v) = false)
    (hop : opField t off = none) (ht : t ∉ [PageType.ple, .ftb, .fpt, .hiu, .cdc]) :
    exec (.registerWrite w p off d.wide v) s = .next (fieldsWritten w p off d (written d v) (dropHalf w p s)) := by
  have hd := mem_regsOf_of_regAt hp hr
  have hsch : t ≠ .sch := fun h => hf (flds_of_mem_readOnly (.inl h) hd)
  have hflc : t ≠ .flc := fun h => hf (flds_of_mem_readOnly (.inr h) hd)
  have hhiu : t ≠ .hiu := by rintro rfl; simp at ht
  rw [exec_registerWrite_owner v hs ho hp hr hal hlo hhi hhdr hhiu hsch hflc, writeBasic_eq_fieldsWritten hop hrow hf ht]

section
variable {s : State} {w p off : Nat} {d : RegDef} {v : Word}

theorem fieldsWritten_regs :
    (fieldsWritten w p off d v s).regs = (setReg p off (mergeFlds d.flds (reg s p off) v) s).regs := by
  unfold fieldsWritten; dsimp only; split <;> rfl

theorem reg_fieldsWritten (hs : Tidy s) : reg (fieldsWritten w p off d v s) p off = mergeFlds d.flds (reg s p off) v :=
  (reg_congr fieldsWritten_regs _ _).trans (reg_setReg _ _ _ hs)

theorem regOnly_fieldsWritten (hs : Tidy s) : RegOnly p off s (fieldsWritten w p off d v s) :=
  regOnly_trans (regOnly_setReg off _ hs) (regOnly_of_regs fieldsWritten_regs)

theorem pageHdr_fieldsWritten (hs : Tidy s) :
    pageHdr (fieldsWritten w p off d v s) p = if d.flds.all (fun f => fldOk f v) then pageHdr s p
      else refusedHdr kindRefusedValue .accessDenied off w (pageHdr s p) := by
  unfold fieldsWritten; dsimp only; split
  · rfl
  · exact pageHdr_noteErr _ _ _ (tidy_setReg _ _ hs)

theorem hdrOnly_fieldsWritten (hs : Tidy s) : HdrOnly p s (fieldsWritten w p off d v s) := by
  unfold fieldsWritten; dsimp only; split
  · exact fun _ _ => rfl
  · exact hdrOnly_noteErr _ _ _ (tidy_setReg _ _ hs)

theorem fieldsWritten_frame :
    fieldsWritten w p off d v s =
      { s with regs := (fieldsWritten w p off d v s).regs, pages := (fieldsWritten w p off d v s).pages } := by
  unfold fieldsWritten; dsimp only; split <;> rfl

end

/-! CDC_CODEC_CTRL (R81, R83, R214) -/

section
variable {s : State}

theorem settleTray_frame :
    settleTray s = { s with regs := (settleTray s).regs, cdc := { s.cdc with tray := (settleTray s).cdc.tray } } := by
  unfold settleTray; dsimp only; split <;> split <;> rfl

theorem settleTray_regs :
    (settleTray s).regs = (if s.cdc.trayOff then setReg Pg.cdc 0x40 (setBits (reg s Pg.cdc 0x40) 0 0 0) s else s).regs := by
  unfold settleTray; dsimp only; split <;> split <;> rfl

/-- TRAY_ENABLE stays 0 once the self-test has taken the tray cache out; the other bits are as before. -/
theorem flag_settleTray (hs : Tidy s) {i : Nat} (hi : i < 64) :
    flag (settleTray s) Pg.cdc 0x40 i = (flag s Pg.cdc 0x40 i && !(decide (i = 0) && s.cdc.trayOff)) := by
  unfold flag
  rw [reg_congr settleTray_regs]
  cases hoff : s.cdc.trayOff
  · simp
  · simp only [if_true, reg_setReg _ _ _ hs, bitOf_setBits _ _ _ _ hi]
    by_cases h0 : i = 0 <;> simp [h0]

theorem settleTray_tray : (settleTray s).cdc.tray = if flag (settleTray s) Pg.cdc 0x40 0 then s.cdc.tray else [] := by
  unfold flag
  rw [reg_congr settleTray_regs]
  unfold settleTray flag; dsimp only
  split <;> split <;> simp_all

theorem regOnly_settleTray (hs : Tidy s) : RegOnly Pg.cdc 0x40 s (settleTray s) := by
  intro q o hk
  rw [reg_congr settleTray_regs]
  split
  · exact reg_setReg_ne _ _ _ hs hk
  · rfl

end

/-- The definition of CDC_CODEC_CTRL. -/
def codecCtrl : RegDef := ⟨0x40, false, 0, 1, [⟨1, 1, .rw, 1, 0, 1⟩, ⟨0, 0, .rw, 1, 0, 1⟩]⟩

theorem regAt_codecCtrl : regAt Pg.cdc 0x40 = some (codecCtrl, 0x40) := rfl

/-- A field of one bit that accepts 0 and 1 accepts every value. -/
theorem fldOk_bit (i reset : Nat) (a : Acc) (v : Word) : fldOk ⟨i, i, a, reset, 0, 1⟩ v = true := by
  have one : bits v i i < 2 := by simpa [bits] using Nat.mod_lt (v.toNat >>> i) (by decide : 0 < 2)
  simp only [fldOk, Nat.zero_le, decide_true, Bool.true_and, decide_eq_true_eq]
  omega

theorem codecCtrl_accepts (v : Word) : codecCtrl.flds.all (fun f => fldOk f v) = true := by
  simp [codecCtrl, fldOk_bit]

theorem mergeFlds_codecCtrl (old v : Word) :
    mergeFlds codecCtrl.flds old v = setBits (setBits old 1 1 (bits v 1 1)) 0 0 (bits v 0 0) := by
  simp [mergeFlds, codecCtrl, fldOk_bit]

theorem bitOf_mergeFlds_codecCtrl (old v : Word) {i : Nat} (hi : i = 0 ∨ i = 1) :
    bitOf (mergeFlds codecCtrl.flds old v) i = bitOf v i := by
  rw [mergeFlds_codecCtrl, bitOf_setBits _ _ _ _ (by omega), bitOf_setBits _ _ _ _ (by omega)]
  rcases hi with rfl | rfl
  · rw [if_pos (by omega), testBit_bits]; rfl
  · rw [if_neg (by omega), if_pos (by omega), testBit_bits]; rfl

/-- CDC_CODEC_CTRL with a value: the flush that it starts, the stored fields, and the tray cache as they leave it. -/
def codecCtrlWritten (v : Word) (s : State) : State :=
  settleTray (setReg Pg.cdc 0x40 (mergeFlds codecCtrl.flds (reg s Pg.cdc 0x40) v) (if bitOf v 2 then startFlush s else s))

theorem writeBasic_codecCtrl (w n : Nat) (v : Word) (s : State) :
    writeBasic w Pg.cdc .cdc n codecCtrl 0x40 v s = codecCtrlWritten v s := by
  have listed : codecCtrl.flds ≠ [] := by decide
  simp [writeBasic, opField, basicRow, hasPreset, afterBasic, codecCtrlWritten, codecCtrl_accepts, listed]

section
variable {s : State} {v : Word}

theorem tidy_startFlush (hs : Tidy s) : Tidy (startFlush s) := (keeps_startFlush s (.refl s)).tidy hs

theorem flushed_eq :
    (if bitOf v 2 then startFlush s else s) = { s with cdc := { s.cdc with flushing := s.cdc.flushing || bitOf v 2 } } := by
  cases bitOf v 2 <;> simp [startFlush]

theorem tidy_flushed (hs : Tidy s) : Tidy (if bitOf v 2 then startFlush s else s) := by
  split
  · exact tidy_startFlush hs
  · exact hs

theorem flag_codecCtrlWritten (hs : Tidy s) {i : Nat} (hi : i = 0 ∨ i = 1) :
    flag (codecCtrlWritten v s) Pg.cdc 0x40 i = (bitOf v i && !(decide (i = 0) && s.cdc.trayOff)) := by
  have fields := tidy_setReg (p := Pg.cdc) 0x40 (mergeFlds codecCtrl.flds (reg s Pg.cdc 0x40) v) (tidy_flushed (v := v) hs)
  rw [codecCtrlWritten, flag_settleTray fields (by omega), flag, reg_setReg _ _ _ (tidy_flushed hs),
    bitOf_mergeFlds_codecCtrl _ _ hi]
  split <;> rfl

theorem codecCtrlWritten_frame :
    codecCtrlWritten v s = { s with
      regs := (codecCtrlWritten v s).regs
      cdc := { s.cdc with flushing := s.cdc.flushing || bitOf v 2, tray := (codecCtrlWritten v s).cdc.tray } } := by
  unfold codecCtrlWritten
  rw [flushed_eq, settleTray_frame]
  rfl

theorem codecCtrlWritten_pages : (codecCtrlWritten v s).pages = s.pages := by rw [codecCtrlWritten_frame]

theorem codecCtrlWritten_mem : (codecCtrlWritten v s).mem = s.mem := by rw [codecCtrlWritten_frame]

theorem codecCtrlWritten_descs : (codecCtrlWritten v s).descs = s.descs := by rw [codecCtrlWritten_frame]

theorem codecCtrlWritten_flushing : (codecCtrlWritten v s).cdc.flushing = (s.cdc.flushing || bitOf v 2) :=
  congrArg (·.cdc.flushing) codecCtrlWritten_frame

theorem codecCtrlWritten_tray :
    (codecCtrlWritten v s).cdc.tray = if flag (codecCtrlWritten v s) Pg.cdc 0x40 0 then s.cdc.tray else [] := by
  unfold codecCtrlWritten
  rw [settleTray_tray]
  split <;> split <;> rfl

theorem regOnly_codecCtrlWritten (hs : Tidy s) : RegOnly Pg.cdc 0x40 s (codecCtrlWritten v s) := by
  have flushed : RegOnly Pg.cdc 0x40 s (if bitOf v 2 then startFlush s else s) := regOnly_of_regs (by split <;> rfl)
  exact regOnly_trans flushed (regOnly_trans (regOnly_setReg _ _ (tidy_flushed hs))
    (regOnly_settleTray (tidy_setReg _ _ (tidy_flushed hs))))

theorem exec_registerWrite_codecCtrl {w : Nat} (v : Word) (hs : Tidy s) (ho : Owns s w Pg.cdc) :
    exec (.registerWrite w Pg.cdc 0x40 false v) s =
      .next (codecCtrlWritten (BitVec.ofNat 64 (bits v 31 0)) (dropHalf w Pg.cdc s)) := by
  rw [← writeBasic_codecCtrl w 0]
  exact exec_registerWrite_owner v hs ho (n := 0) rfl regAt_codecCtrl (by decide) (by decide) (by decide) (by decide)
    (by decide) (by decide) (by decide)

end

/-! Command registers (R6, R448) -/

/-- Every command register is a basic register without a preset, outside the host interface and the pages that take no write. -/
theorem opField_bounds {t : PageType} {off : Nat} {f : Nat × Nat × Nat} (h : opField t off = some f) :
    off % 8 = 0 ∧ 0x40 ≤ off ∧ off < 0x400 ∧ hasPreset t = false ∧ t ≠ .hiu ∧ t ≠ .sch ∧ t ≠ .flc := by
  unfold opField at h
  split at h <;> simp_all [hasPreset]

theorem headerRow_of_opField {p n off : Nat} {t : PageType} {f : Nat × Nat × Nat} (hp : pageOf p = some (t, n))
    (h : opField t off = some f) : headerRow p off = false := by
  obtain ⟨-, hlo, -, hpre, -⟩ := opField_bounds h
  simp [headerRow, hp, hpre]; omega

/-- Both ways in which a choice equals `x`: by this a chain of choices is gone through once, without a split for each. -/
theorem ite_eq_or {α : Type} {c : Prop} [Decidable c] {a b x : α} : (if c then a else b) = x ↔ c ∧ a = x ∨ ¬c ∧ b = x := by
  by_cases h : c
  · simp only [h, if_true, true_and, not_true_eq_false, false_and, or_false]
  · simp only [h, if_false, false_and, not_false_eq_true, true_and, false_or]

theorem eq_sec_of_pageOf {p n : Nat} (hp : pageOf p = some (.sec, n)) : p = Pg.sec := by
  refine Decidable.byContradiction fun other => ?_
  have other' : p ≠ 0x003 := other
  simp only [pageOf, ite_eq_or, other', Option.some.injEq, Prod.mk.injEq, reduceCtorEq, false_and, and_false, or_false] at hp

theorem writeBasic_reservedOp {w p off n : Nat} {t : PageType} {d : RegDef} {f : Nat × Nat × Nat} {v : Word} {s : State}
    (hop : opField t off = some f) (hres : f.2.2 < bits v f.1 f.2.1) :
    writeBasic w p t n d off v s = noteErr p kindRefusedValue .accessDenied off w (storeOperands t off v s) := by
  have op : bits v f.1 f.2.1 ≠ 0 := by omega
  simp [writeBasic, hop, writeOp, op, hres]

section
variable {s : State} {t : PageType} {off : Nat} {v : Word}

theorem tidy_storeOperands (hs : Tidy s) : Tidy (storeOperands t off v s) := (keeps_storeOperands t off v s (.refl s)).tidy hs

theorem storeOperands_frame :
    storeOperands t off v s = { s with
      regs := (storeOperands t off v s).regs
      ple := { s.ple with ctxCmd := (storeOperands t off v s).ple.ctxCmd } } := by
  unfold storeOperands
  split
  · split <;> rfl
  all_goals rfl

theorem storeOperands_pages : (storeOperands t off v s).pages = s.pages := by rw [storeOperands_frame]

theorem regOnly_storeOperands {p n : Nat} (hs : Tidy s) (hp : pageOf p = some (t, n)) :
    RegOnly p off s (storeOperands t off v s) := by
  unfold storeOperands
  split
  · split <;> exact regOnly_of_regs rfl
  · rw [eq_sec_of_pageOf hp]; exact regOnly_setReg _ _ hs
  · exact regOnly_of_regs rfl

end

end Sys2Proof.Machine

open Sys2Proof Sys2Proof.Machine

/-- Settles O8: each of the three forms comes to one operation on the page's header with the writer's halves dropped, whose
registers, header and frame the lemmas about that operation give. -/
theorem basicRegisterWrite : Obligations.BasicRegisterWrite := by
  unfold Obligations.BasicRegisterWrite
  refine ⟨?fields, ?codecCtrl, ?reservedOp⟩
  case fields =>
    intro s w p off n t d v hs ho hp hr hal hlo hhi hhdr hf hrow hop ht
    have hd : Tidy (dropHalf w p s) := tidy_dropHalf hs
    refine ⟨_, exec_registerWrite_fields hs ho hp hr hal hlo hhi hhdr hf hrow hop ht, ?_, ?_, ?_, ?_, ?_⟩
    · exact reg_fieldsWritten hd
    · rw [pageHdr_fieldsWritten hd, pageHdr_dropHalf hs]
    · exact regOnly_trans (regOnly_dropHalf off) (regOnly_fieldsWritten hd)
    · exact hdrOnly_trans (hdrOnly_dropHalf hs) (hdrOnly_fieldsWritten hd)
    · rw [fieldsWritten_frame]; rfl
  case codecCtrl =>
    intro s w v hs ho
    have hd : Tidy (dropHalf w Pg.cdc s) := tidy_dropHalf hs
    refine ⟨_, exec_registerWrite_codecCtrl v hs ho, ?_, ?_, ?_, ?_, ?_, ?_, ?_, ?_, ?_⟩
    · rw [flag_codecCtrlWritten hd (.inr rfl), bitOf_lowHalf v (by decide)]; simp
    · rw [flag_codecCtrlWritten hd (.inl rfl), bitOf_lowHalf v (by decide)]; rfl
    · rw [codecCtrlWritten_flushing, bitOf_lowHalf v (by decide)]; rfl
    · exact codecCtrlWritten_tray
    · rw [← pageHdr_dropHalf hs]; exact pageHdr_congr codecCtrlWritten_pages _
    · exact regOnly_trans (regOnly_dropHalf 0x40) (regOnly_codecCtrlWritten hd)
    · exact hdrOnly_trans (hdrOnly_dropHalf hs) (hdrOnly_of_pages codecCtrlWritten_pages)
    · exact codecCtrlWritten_mem
    · exact codecCtrlWritten_descs
  case reservedOp =>
    intro s w p off n t d f v hs ho hp hr hop hres
    have hd : Tidy (dropHalf w p s) := tidy_dropHalf hs
    have ho' : Tidy (storeOperands t off (written d v) (dropHalf w p s)) := tidy_storeOperands hd
    obtain ⟨hal, hlo, hhi, -, hhiu, hsch, hflc⟩ := opField_bounds hop
    have run := exec_registerWrite_owner v hs ho hp hr hal hlo hhi (headerRow_of_opField hp hop) hhiu hsch hflc
    rw [writeBasic_reservedOp hop hres] at run
    refine ⟨_, run, ?_, ?_, ?_, ?_⟩
    · rw [pageHdr_noteErr _ _ _ ho', pageHdr_congr storeOperands_pages, pageHdr_dropHalf hs]
    · exact regOnly_trans (regOnly_dropHalf off) (regOnly_trans (regOnly_storeOperands hd hp) (regOnly_noteErr _ _ _))
    · exact hdrOnly_trans (hdrOnly_dropHalf hs) (hdrOnly_trans (hdrOnly_of_pages storeOperands_pages) (hdrOnly_noteErr _ _ _ ho'))
    · rw [storeOperands_frame]; rfl

end

section
/-! PROOFS. Expert registers (O10), and unit control with the tray flush (O12): what an access of the claim holder to an expert
register and to UNIT_CTRL comes to. -/

namespace Sys2Proof.Machine

/-! Expert registers (R21, R23) -/

theorem exec_expertWrite (w page off : Nat) (wide : Bool) (v : Word) (s : State) :
    exec (.expertWrite w page off wide v) s = execExpertWrite w page off wide v s := rfl

theorem target_expert {w p off n : Nat} {t : PageType} {d : RegDef} (hp : pageOf p = some (t, n)) (hr : regAt p off = some (d, off))
    (hlo : 0x400 ≤ off) (hhi : off < 0xE00) :
    target w p true off = some ⟨off, d.wide, writeExpert w p t n d off⟩ := by
  simp [target, hp, hr, hlo, hhi]

theorem headerRow_of_expert {p off : Nat} (hlo : 0x400 ≤ off) : headerRow p off = false := by
  have claim : off ≠ 0x08 := by omega
  have pend : off ≠ 0x1C := by omega
  have preset : off ≠ 0x40 := by omega
  simp [headerRow, claim, pend, preset]

/-- EXPERT_WRITE of a whole value by the owner of a page comes to the write of the expert register. -/
theorem exec_expertWrite_owner {s : State} {w p off n : Nat} {t : PageType} {d : RegDef} (v : Word) (hs : Tidy s) (ho : Owns s w p)
    (hp : pageOf p = some (t, n)) (hr : regAt p off = some (d, off)) (hal : off % 8 = 0) (hlo : 0x400 ≤ off) (hhi : off < 0xE00)
    (hsch : t ≠ .sch) (hflc : t ≠ .flc) :
    exec (.expertWrite w p off d.wide v) s = .next (writeExpert w p t n d off (written d v) (dropHalf w p s)) := by
  have aligned : alignedAccess off d.wide = true := by cases hw : d.wide <;> simp [alignedAccess] <;> omega
  have access : pageWrite w p off d.wide v s = writeExpert w p t n d off (written d v) (dropHalf w p s) := by
    rw [pageWrite_of_owns hs ho (readOnlyPage_of_pageOf hp hsch hflc) (by omega) (headerRow_of_expert hlo)]
    simpa [applyAccess, hlo, hhi, written] using accessReg_whole (target_expert hp hr hlo hhi)
  simp [exec_expertWrite, execExpertWrite, aligned, hlo, hhi, access]

/-- The register holds `x`; a value that it holds already is not stored again. -/
def holdReg (p off : Nat) (x : Word) (s : State) : State := if x = reg s p off then s else setReg p off x s

section
variable {s : State} {p off : Nat} {x : Word}

theorem reg_holdReg (hs : Tidy s) : reg (holdReg p off x s) p off = x := by
  unfold holdReg
  split
  · next same => exact same.symm
  · exact reg_setReg _ _ _ hs

theorem regOnly_holdReg (hs : Tidy s) : RegOnly p off s (holdReg p off x s) := by
  unfold holdReg
  split
  · exact regOnly_of_regs rfl
  · exact regOnly_setReg _ _ hs

theorem tidy_holdReg (hs : Tidy s) : Tidy (holdReg p off x s) := by
  unfold holdReg
  split
  · exact hs
  · exact tidy_setReg _ _ hs

theorem holdReg_frame : holdReg p off x s = { s with regs := (holdReg p off x s).regs } := by
  unfold holdReg; split <;> rfl

theorem holdReg_pages : (holdReg p off x s).pages = s.pages := by rw [holdReg_frame]

end

/-- The outcome of a write to an expert register of an unlocked page: the register holds the value that its fields make of the write,
and a write that is not accepted whole is recorded. -/
def expertWritten (w p off : Nat) (t : PageType) (d : RegDef) (v : Word) (s : State) : State :=
  let u := holdReg p off (expertValue s t d off (reg s p off) v) s
  if expertOk s t d off (reg s p off) v then u else noteErr p kindRefusedValue .accessDenied off w u

section
variable {s : State} {w p off n : Nat} {t : PageType} {d : RegDef} {v : Word}

theorem writeExpert_locked (hrow : expertRow t off = false) (hf : d.flds ≠ []) (hl : (pageHdr s p).unlocked = false) :
    writeExpert w p t n d off v s = noteErr p kindExpertLocked .accessDenied off w s := by
  simp [writeExpert, hrow, hf, hl]

/-- Stored values of expert registers outside the CVU pages and ICE_CATCHUP have no further effect. -/
theorem putExpert_eq_setReg (hcvu : t ≠ .cvu) (hice : ¬ (t = .ice ∧ off = 0x408)) : putExpert w p t n off v s = setReg p off v s := by
  unfold putExpert
  split
  · exact absurd ⟨rfl, rfl⟩ hice
  · exact absurd rfl hcvu
  · rfl

theorem writeExpert_unlocked (hrow : expertRow t off = false) (hf : d.flds ≠ []) (hl : (pageHdr s p).unlocked = true)
    (hcvu : t ≠ .cvu) (hice : ¬ (t = .ice ∧ off = 0x408)) :
    writeExpert w p t n d off v s = expertWritten w p off t d v s := by
  simp [writeExpert, expertWritten, holdReg, hrow, hf, hl, hcvu, putExpert_eq_setReg hcvu hice]

theorem reg_expertWritten (hs : Tidy s) :
    reg (expertWritten w p off t d v s) p off = expertValue s t d off (reg s p off) v := by
  unfold expertWritten; dsimp only; split
  · exact reg_holdReg hs
  · exact (reg_congr rfl _ _).trans (reg_holdReg hs)

theorem regOnly_expertWritten (hs : Tidy s) : RegOnly p off s (expertWritten w p off t d v s) := by
  unfold expertWritten; dsimp only; split
  · exact regOnly_holdReg hs
  · exact regOnly_trans (regOnly_holdReg hs) (regOnly_noteErr _ _ _)

theorem pageHdr_expertWritten (hs : Tidy s) :
    pageHdr (expertWritten w p off t d v s) p = if expertOk s t d off (reg s p off) v then pageHdr s p
      else refusedHdr kindRefusedValue .accessDenied off w (pageHdr s p) := by
  unfold expertWritten; dsimp only; split
  · exact pageHdr_congr holdReg_pages _
  · rw [pageHdr_noteErr _ _ _ (tidy_holdReg hs), pageHdr_congr holdReg_pages]

theorem hdrOnly_expertWritten (hs : Tidy s) : HdrOnly p s (expertWritten w p off t d v s) := by
  unfold expertWritten; dsimp only; split
  · exact hdrOnly_of_pages holdReg_pages
  · exact hdrOnly_trans (hdrOnly_of_pages holdReg_pages) (hdrOnly_noteErr _ _ _ (tidy_holdReg hs))

theorem expertWritten_frame :
    expertWritten w p off t d v s =
      { s with regs := (expertWritten w p off t d v s).regs, pages := (expertWritten w p off t d v s).pages } := by
  unfold expertWritten; dsimp only; rw [holdReg_frame]; split <;> rfl

/-- What two fields have to agree on lies outside the headers of pages. -/
theorem fldsAgree_dropHalf (q : Nat) (x : Word) : fldsAgree (dropHalf w q s) t off x = fldsAgree s t off x := rfl

end

/-! UNIT_CTRL (R21, R449, R450) -/

/-- Where UNIT_CTRL takes writes beside UNIT_RESET, every offset takes writes. -/
theorem readOnlyPage_of_ctrl {p : Nat} (off : Nat) (v : Word) (h : readOnlyPage p 0x0C 0 = false) : readOnlyPage p off v = false := by
  have zero : bitOf (0 : Word) 0 = false := by decide
  simp only [readOnlyPage, zero, Bool.and_false, Bool.not_false, Bool.and_true] at h
  simp [readOnlyPage, h]

/-- An access of the owner to UNIT_CTRL, EVT_PEND or a preset register is carried out. -/
theorem pageWrite_header_of_owns {s : State} {w p off : Nat} {v : Word} (hs : Tidy s) (ho : Owns s w p)
    (hro : readOnlyPage p off v = false) (hoff : off = 0x0C ∨ off = 0x1C ∨ (off = 0x40 ∧ (pageOf p).any (fun x => hasPreset x.1))) :
    pageWrite w p off false v s = applyHeldWrite p ⟨w, off, false, v⟩ (dropHalf w p s) := by
  obtain ⟨hreach, hholds, hreset⟩ := ho
  have kept : (pageHdr (dropHalf w p s) p).resetting = false := by rw [pageHdr_dropHalf hs]; exact hreset
  simp only [pageWrite, hreach, holdsPage_dropHalf w p hs, hholds, hro, kept, if_pos hoff]
  simp

theorem pageWrite_unitCtrl {s : State} {w p : Nat} (v : Word) (hs : Tidy s) (ho : Owns s w p) (hro : readOnlyPage p 0x0C v = false) :
    pageWrite w p 0x0C false v s = writeUnitCtrl w p v (dropHalf w p s) := by
  rw [pageWrite_header_of_owns hs ho hro (.inl rfl)]
  simp [applyHeldWrite]

section
variable {s : State} {w p : Nat} {v : Word}

theorem writeUnitCtrl_unlock (h0 : bitOf v 0 = false) (h2 : bitOf v 2 = true) (h3 : bitOf v 3 = false) :
    writeUnitCtrl w p v s = unlockPage w p (bits v 31 16) (enableUnit p (bitOf v 1) s) := by
  simp [writeUnitCtrl, boolNat, h0, h2, h3]

theorem writeUnitCtrl_relock (h0 : bitOf v 0 = false) (h2 : bitOf v 2 = false) (h3 : bitOf v 3 = true) :
    writeUnitCtrl w p v s = relockPage p (enableUnit p (bitOf v 1) s) := by
  simp [writeUnitCtrl, boolNat, h0, h2, h3]

theorem writeUnitCtrl_plain (h0 : bitOf v 0 = false) (h2 : bitOf v 2 = false) (h3 : bitOf v 3 = false) :
    writeUnitCtrl w p v s = enableUnit p (bitOf v 1) s := by
  simp [writeUnitCtrl, boolNat, h0, h2, h3]

/-- An access with the ENABLE in force does not change it. -/
theorem enableUnit_unitEnabled : enableUnit p (unitEnabled s p) s = s := by
  unfold enableUnit unitEnabled
  split <;> simp_all

theorem unitEnabled_dropHalf (hs : Tidy s) : unitEnabled (dropHalf w p s) p = unitEnabled s p := by
  unfold unitEnabled
  split
  · rfl
  · rw [pageHdr_dropHalf hs]; rfl

/-- UNIT_CTRL of one action as a number, in disjoint fields. -/
theorem unitCtrl_value {key act : Nat} (hk : key < 2 ^ 16) (ha : act < 16) :
    unitCtrl s p key act = BitVec.ofNat 64 (65536 * key + act + 2 * boolNat (unitEnabled s p)) := by
  have enable : boolNat (unitEnabled s p) < 2 := by unfold boolNat; split <;> decide
  have k : key % 2 ^ 16 = key := Nat.mod_eq_of_lt hk
  have a : act % 2 ^ 4 = act := Nat.mod_eq_of_lt ha
  have e : boolNat (unitEnabled s p) % 2 ^ 1 = boolNat (unitEnabled s p) := Nat.mod_eq_of_lt enable
  simp only [unitCtrl, place, k, a, e, Nat.shiftLeft_eq]
  congr 1
  omega


/-- The actions of UNIT_CTRL that a row carries beside ENABLE: bits 2 and 3 alone, with the key above. -/
theorem unitCtrl_bits {key act : Nat} (hk : key < 2 ^ 16) (ha : act = 4 ∨ act = 8) :
    bitOf (unitCtrl s p key act) 0 = false ∧ bitOf (unitCtrl s p key act) 1 = unitEnabled s p ∧
      bitOf (unitCtrl s p key act) 2 = decide (act = 4) ∧ bitOf (unitCtrl s p key act) 3 = decide (act = 8) ∧
      bits (unitCtrl s p key act) 31 16 = key := by
  have enable : boolNat (unitEnabled s p) < 2 ∧ (unitEnabled s p = true ↔ boolNat (unitEnabled s p) = 1) := by
    cases unitEnabled s p <;> decide
  obtain ⟨small, number⟩ := enable
  rw [unitCtrl_value hk (by omega)]
  refine ⟨?_, ?_, ?_, ?_, ?_⟩
  case refine_5 =>
    rw [bits, BitVec.toNat_ofNat, Nat.shiftRight_eq_div_pow]
    omega
  all_goals
    rw [bitOf_ofNat _ (by decide), Nat.testBit_eq_decide_div_mod_eq, Bool.eq_iff_iff, decide_eq_true_iff]
    simp only [number, decide_eq_true_eq, Bool.false_eq_true, iff_false]
    omega

/-- EXPERT_UNLOCK by the owner of a page comes to the comparison of its key. -/
theorem exec_expertUnlock_owner {key : Nat} (hs : Tidy s) (ho : Owns s w p) (hk : key < 2 ^ 16)
    (hro : readOnlyPage p 0x0C 0 = false) :
    exec (.expertUnlock w p key) s = .next (unlockPage w p key (dropHalf w p s)) := by
  obtain ⟨reset, enable, unlock, relock, keyBits⟩ := unitCtrl_bits (s := s) (p := p) hk (.inl rfl)
  have access : pageWrite w p 0x0C false (unitCtrl s p key 4) s = unlockPage w p key (dropHalf w p s) := by
    rw [pageWrite_unitCtrl _ hs ho (readOnlyPage_of_ctrl _ _ hro), writeUnitCtrl_unlock reset unlock relock, enable, keyBits,
      ← unitEnabled_dropHalf hs, enableUnit_unitEnabled]
  exact congrArg _ access

/-- RELOCK by the owner of a page locks it. -/
theorem exec_relock_owner (hs : Tidy s) (ho : Owns s w p) (hro : readOnlyPage p 0x0C 0 = false) :
    exec (.relock w p) s = .next (relockPage p (dropHalf w p s)) := by
  obtain ⟨reset, enable, unlock, relock, -⟩ := unitCtrl_bits (s := s) (p := p) (key := 0) (by decide) (.inr rfl)
  have access : pageWrite w p 0x0C false (unitCtrl s p 0 8) s = relockPage p (dropHalf w p s) := by
    rw [pageWrite_unitCtrl _ hs ho (readOnlyPage_of_ctrl _ _ hro), writeUnitCtrl_relock reset unlock relock, enable,
      ← unitEnabled_dropHalf hs, enableUnit_unitEnabled]
  exact congrArg _ access

theorem pageHdr_unlockPage {key : Nat} (hs : Tidy s) :
    pageHdr (unlockPage w p key s) p = if key = 0xE7A5 then { pageHdr s p with unlocked := true }
      else refusedHdr kindBadUnlock .accessDenied 0x0C w (pageHdr s p) := by
  unfold unlockPage
  split
  · exact pageHdr_modPage _ hs
  · exact pageHdr_noteErr _ _ _ hs

theorem hdrOnly_unlockPage {key : Nat} (hs : Tidy s) : HdrOnly p s (unlockPage w p key s) := by
  unfold unlockPage
  split
  · exact hdrOnly_modPage _ hs
  · exact hdrOnly_noteErr _ _ _ hs

theorem unlockPage_frame {key : Nat} : unlockPage w p key s = { s with pages := (unlockPage w p key s).pages } := by
  unfold unlockPage; split <;> rfl

/-- UNIT_ENABLE 1 in the page of the PPU or of a CVU sets ENABLE; where it is set already nothing is stored. -/
theorem enableUnit_true {n : Nat} {t : PageType} (hp : pageOf p = some (t, n)) (ht : t = .cvu ∨ t = .ppu) :
    enableUnit p true s = if (pageHdr s p).enable then s else modPage p (fun h => { h with enable := true }) s := by
  rcases ht with rfl | rfl <;> simp [enableUnit, hp, setEnable]

theorem pageHdr_enableUnit_true {n : Nat} {t : PageType} (hs : Tidy s) (hp : pageOf p = some (t, n)) (ht : t = .cvu ∨ t = .ppu) :
    pageHdr (enableUnit p true s) p = { pageHdr s p with enable := true } := by
  rw [enableUnit_true hp ht]
  split
  · next on => rw [← on]
  · exact pageHdr_modPage _ hs

theorem hdrOnly_enableUnit_true {n : Nat} {t : PageType} (hs : Tidy s) (hp : pageOf p = some (t, n)) (ht : t = .cvu ∨ t = .ppu) :
    HdrOnly p s (enableUnit p true s) := by
  rw [enableUnit_true hp ht]
  split
  · exact hdrOnly_of_pages rfl
  · exact hdrOnly_modPage _ hs

theorem enableUnit_true_frame {n : Nat} {t : PageType} (hp : pageOf p = some (t, n)) (ht : t = .cvu ∨ t = .ppu) :
    enableUnit p true s = { s with pages := (enableUnit p true s).pages } := by
  rw [enableUnit_true hp ht]; split <;> rfl

theorem exec_unitEnable_owner {n : Nat} {t : PageType} (hs : Tidy s) (ho : Owns s w p) (hp : pageOf p = some (t, n))
    (hsch : t ≠ .sch) (hflc : t ≠ .flc) :
    exec (.unitEnable w p true) s = .next (enableUnit p true (dropHalf w p s)) := by
  have access : pageWrite w p 0x0C false (BitVec.ofNat 64 (place (boolNat true) 1 1)) s = enableUnit p true (dropHalf w p s) := by
    rw [pageWrite_unitCtrl _ hs ho (readOnlyPage_of_pageOf hp hsch hflc), writeUnitCtrl_plain (by decide) (by decide) (by decide)]
    rfl
  exact congrArg _ access

/-! The tray flush (R83) -/

/-- What a command of the owner of a page comes to. -/
theorem ownedWrite_of_owns (body : State → State) (hs : Tidy s) (ho : Owns s w p) :
    ownedWrite w p body s = body (dropHalf w p s) := by
  obtain ⟨hreach, hholds, -⟩ := ho
  simp [ownedWrite, hreach, holdsPage_dropHalf w p hs, hholds]

theorem exec_trayFlush_owner (hs : Tidy s) (ho : Owns s w Pg.cdc) :
    exec (.trayFlush w) s = .next (startFlush (dropHalf w Pg.cdc s)) := congrArg _ (ownedWrite_of_owns startFlush hs ho)

/-- Only a running device takes register accesses. -/
theorem awake_of_reaches (h : reaches s w p = true) : awake s = true := by
  simp only [reaches, Bool.and_eq_true] at h
  obtain ⟨⟨⟨⟨⟨⟨running, -⟩, -⟩, -⟩, -⟩, -⟩, -⟩ := h
  exact running

/-- The end of a flush, whatever else happened to the registers and page headers meanwhile. -/
theorem exec_trayFlushDone (hw : awake s = true) (hf : s.cdc.flushing = true) :
    exec .trayFlushDone s = .next { s with cdc := { s.cdc with flushing := false, tray := [] } } := by
  change Host.Outcome.next (whenAwake s _) = _
  simp [whenAwake, hw, hf]

end
end Sys2Proof.Machine

open Sys2Proof Sys2Proof.Machine

/-- Settles O10: the write comes to that of the expert register with the writer's halves dropped, which records it in a locked page
and holds the fields' value in an unlocked one. -/
theorem expertRegisterWrite : Obligations.ExpertRegisterWrite := by
  unfold Obligations.ExpertRegisterWrite
  intro s w p off n t d v hs ho hp hr hal hlo hhi hf hrow ht hice
  simp only [List.mem_cons, List.not_mem_nil, or_false, not_or] at ht
  obtain ⟨hcvu, -⟩ := ht
  have hd : Tidy (dropHalf w p s) := tidy_dropHalf hs
  have hreg := mem_regsOf_of_regAt hp hr
  have run := exec_expertWrite_owner v hs ho hp hr hal hlo hhi (fun h => hf (flds_of_mem_readOnly (.inl h) hreg))
    (fun h => hf (flds_of_mem_readOnly (.inr h) hreg))
  have lock : (pageHdr (dropHalf w p s) p).unlocked = (pageHdr s p).unlocked := by rw [pageHdr_dropHalf hs]; rfl
  cases hl : (pageHdr s p).unlocked
  case false =>
    rw [writeExpert_locked hrow hf (lock.trans hl)] at run
    refine ⟨_, run, ?_, ?_, ?_, ?_⟩
    · exact regOnly_trans (regOnly_dropHalf off) (regOnly_noteErr _ _ _)
    · exact hdrOnly_trans (hdrOnly_dropHalf hs) (hdrOnly_noteErr _ _ _ hd)
    · rfl
    · simp only [if_true]
      exact ⟨reg_congr rfl _ _, by rw [pageHdr_noteErr _ _ _ hd, pageHdr_dropHalf hs]⟩
  case true =>
    rw [writeExpert_unlocked hrow hf (lock.trans hl) hcvu hice] at run
    refine ⟨_, run, ?_, ?_, ?_, ?_⟩
    · exact regOnly_trans (regOnly_dropHalf off) (regOnly_expertWritten hd)
    · exact hdrOnly_trans (hdrOnly_dropHalf hs) (hdrOnly_expertWritten hd)
    · rw [expertWritten_frame]; rfl
    · simp only [Bool.true_eq_false, if_false]
      exact ⟨reg_expertWritten hd, by rw [pageHdr_expertWritten hd, pageHdr_dropHalf hs]; rfl⟩

/-- Settles O12: each command comes to one operation on the page with the writer's halves dropped. -/
theorem unlockEnableAndFlush : Obligations.UnlockEnableAndFlush := by
  unfold Obligations.UnlockEnableAndFlush
  refine ⟨?lock, ?enable, ?flush⟩
  case lock =>
    intro s w p key hs ho hk hro
    have hd : Tidy (dropHalf w p s) := tidy_dropHalf hs
    refine ⟨⟨_, exec_expertUnlock_owner hs ho hk hro, ?_, ?_, ?_⟩, ⟨_, exec_relock_owner hs ho hro, ?_, ?_, ?_⟩⟩
    · exact hdrOnly_trans (hdrOnly_dropHalf hs) (hdrOnly_unlockPage hd)
    · rw [unlockPage_frame]; rfl
    · rw [pageHdr_unlockPage hd, pageHdr_dropHalf hs]
    · exact hdrOnly_trans (hdrOnly_dropHalf hs) (hdrOnly_modPage _ hd)
    · rfl
    · exact (pageHdr_modPage _ hd).trans (by rw [pageHdr_dropHalf hs])
  case enable =>
    intro s w p n t hs ho hp ht
    have hd : Tidy (dropHalf w p s) := tidy_dropHalf hs
    have run := exec_unitEnable_owner hs ho hp (by rcases ht with rfl | rfl <;> decide) (by rcases ht with rfl | rfl <;> decide)
    refine ⟨_, run, ?_, ?_, ?_⟩
    · exact hdrOnly_trans (hdrOnly_dropHalf hs) (hdrOnly_enableUnit_true hd hp ht)
    · rw [enableUnit_true_frame hp ht]; rfl
    · rw [pageHdr_enableUnit_true hd hp ht, pageHdr_dropHalf hs]
  case flush =>
    intro s w hs ho
    refine ⟨_, _, exec_trayFlush_owner hs ho, rfl, ?_, ?_, ?_, rfl⟩
    · exact hdrOnly_dropHalf hs
    · exact pageHdr_dropHalf hs
    · exact exec_trayFlushDone (awake_of_reaches ho.1) rfl

end

section
/-! PROOFS. Presets (O15): a write of the preset register by the claim holder, and the registers that it reloads. -/

namespace Sys2Proof.Machine

/-! Reloading registers (R22) -/

theorem regKey_inj {q o p off : Nat} (ho : o < 4096) (hoff : off < 4096) : regKey q o = regKey p off ↔ q = p ∧ o = off := by
  unfold regKey; omega

/-- A list of registers of a page, each stored with its value. -/
def storeRegs (p : Nat) (l : List (Nat × Nat)) (s : State) : State := l.foldl (fun s x => setReg p x.1 (BitVec.ofNat 64 x.2) s) s

section
variable {p : Nat}

theorem storeRegs_cons (x : Nat × Nat) (l : List (Nat × Nat)) (s : State) :
    storeRegs p (x :: l) s = storeRegs p l (setReg p x.1 (BitVec.ofNat 64 x.2) s) := rfl

theorem storeRegs_frame (l : List (Nat × Nat)) (s : State) : storeRegs p l s = { s with regs := (storeRegs p l s).regs } := by
  induction l generalizing s with
  | nil => rfl
  | cons x l ih => rw [storeRegs_cons, ih]; rfl

theorem storeRegs_pages (l : List (Nat × Nat)) (s : State) : (storeRegs p l s).pages = s.pages := by rw [storeRegs_frame]

theorem reg_storeRegs_ne {l : List (Nat × Nat)} {s : State} {q o : Nat} (hs : Tidy s) (h : ∀ x ∈ l, regKey q o ≠ regKey p x.1) :
    reg (storeRegs p l s) q o = reg s q o := by
  induction l generalizing s with
  | nil => rfl
  | cons x l ih =>
    simp only [List.forall_mem_cons] at h
    rw [storeRegs_cons, ih (tidy_setReg _ _ hs) h.2, reg_setReg_ne _ _ _ hs h.1]

/-- Where no offset is listed twice, each listed register holds its value. -/
theorem reg_storeRegs_mem {l : List (Nat × Nat)} {s : State} {x : Nat × Nat} (hs : Tidy s) (hnd : (l.map Prod.fst).Nodup)
    (hx : x ∈ l) : reg (storeRegs p l s) p x.1 = BitVec.ofNat 64 x.2 := by
  induction l generalizing s with
  | nil => cases hx
  | cons y l ih =>
    simp only [List.map_cons, List.nodup_cons] at hnd
    obtain ⟨fresh, rest⟩ := hnd
    rw [storeRegs_cons]
    rcases List.mem_cons.1 hx with rfl | hx
    · rw [reg_storeRegs_ne (tidy_setReg _ _ hs), reg_setReg _ _ _ hs]
      intro z hz same
      refine fresh (List.mem_map.2 ⟨z, hz, ?_⟩)
      unfold regKey at same
      omega
    · exact ih (tidy_setReg _ _ hs) rest hx

end

/-- A field reads back as it was replaced. -/
theorem bits_setBits (w v : Word) {hi lo : Nat} (h : hi < 64) : bits (setBits w hi lo (bits v hi lo)) hi lo = bits v hi lo := by
  refine Nat.eq_of_testBit_eq fun i => ?_
  simp only [testBit_bits]
  by_cases inside : i < hi + 1 - lo
  · rw [bitOf_setBits _ _ _ _ (by omega), if_pos (by omega), testBit_bits, Nat.add_sub_cancel_left]
    simp [inside]
  · simp [inside]

/-! The preset register -/

/-- The pages whose presets reload whole registers and nothing else. -/
abbrev plainPresets : List PageType := [.mge, .fmg, .bwr, .sht, .rcp]

/-- Offsets of the expert registers that a preset reloads there. -/
theorem presetValues_offsets {t : PageType} {code : Nat} {l : List (Nat × Nat)} (ht : t ∈ plainPresets)
    (h : presetValues t code = some l) : l.map Prod.fst = [0x400, 0x408, 0x410] ∨ l.map Prod.fst = [0x400] := by
  unfold presetValues at h
  split at h
  all_goals simp_all
  all_goals subst h; simp

theorem hasPreset_of_plain {t : PageType} (ht : t ∈ plainPresets) : hasPreset t = true := by
  revert t; decide

theorem presetBits_of_plain {t : PageType} (ht : t ∈ plainPresets) : (presetBits t).1 < 64 := by
  revert t; decide

section
variable {s : State} {w p n : Nat} {t : PageType} {v : Word}

theorem exec_presetWrite_owner (hs : Tidy s) (ho : Owns s w p) (hp : pageOf p = some (t, n)) (hpre : hasPreset t = true)
    (hsch : t ≠ .sch) (hflc : t ≠ .flc) :
    exec (.presetWrite w p v) s = .next (loadPreset w p v (dropHalf w p s)) := by
  have listed : (pageOf p).any (fun x => hasPreset x.1) = true := by simp [hp, hpre]
  have access := pageWrite_header_of_owns hs ho (readOnlyPage_of_pageOf (v := v) hp hsch hflc) (.inr (.inr ⟨rfl, listed⟩))
  change Host.Outcome.next (if _ then _ else _) = _
  rw [if_pos listed, access]
  simp [applyHeldWrite, listed]

theorem loadPreset_reserved (hp : pageOf p = some (t, n)) (ht : t ∈ plainPresets)
    (hv : presetValues t (bits v (presetBits t).1 (presetBits t).2) = none) :
    loadPreset w p v s = noteErr p kindRefusedValue .accessDenied 0x40 w s := by
  simp only [plainPresets, List.mem_cons, List.not_mem_nil, or_false] at ht
  rcases ht with rfl | rfl | rfl | rfl | rfl <;> simp [loadPreset, hp, hasPreset, hv]

/-- The preset register takes the code, and then each register of the preset its value. -/
theorem loadPreset_plain {l : List (Nat × Nat)} (hp : pageOf p = some (t, n)) (ht : t ∈ plainPresets)
    (hv : presetValues t (bits v (presetBits t).1 (presetBits t).2) = some l) :
    loadPreset w p v s = storeRegs p l (setReg p 0x40
      (setBits (reg s p 0x40) (presetBits t).1 (presetBits t).2 (bits v (presetBits t).1 (presetBits t).2)) s) := by
  simp only [plainPresets, List.mem_cons, List.not_mem_nil, or_false] at ht
  rcases ht with rfl | rfl | rfl | rfl | rfl <;> simp [loadPreset, hp, hasPreset, hv, reload, storeRegs]

end
end Sys2Proof.Machine

open Sys2Proof Sys2Proof.Machine

/-- Settles O15: a reserved code comes to the record of a refusal, any other to a run of stores over offsets that differ from each
other and from the preset register's. -/
theorem presetReload : Obligations.PresetReload := by
  unfold Obligations.PresetReload
  intro s w p n t v hs ho hp ht
  have hd : Tidy (dropHalf w p s) := tidy_dropHalf hs
  have run := exec_presetWrite_owner (v := v) hs ho hp (hasPreset_of_plain ht) (by rintro rfl; simp at ht) (by rintro rfl; simp at ht)
  cases hv : presetValues t (bits v (presetBits t).1 (presetBits t).2) with
  | none =>
    rw [loadPreset_reserved hp ht hv] at run
    refine ⟨_, run, ?_, rfl, ?_, ?_⟩
    · exact hdrOnly_trans (hdrOnly_dropHalf hs) (hdrOnly_noteErr _ _ _ hd)
    · exact fun q o => reg_congr rfl q o
    · rw [pageHdr_noteErr _ _ _ hd, pageHdr_dropHalf hs]
  | some l =>
    have offsets : (l.map Prod.fst).Nodup ∧ ∀ x ∈ l, 0x400 ≤ x.1 ∧ x.1 < 4096 := by
      have listed : ∀ x ∈ l, x.1 ∈ l.map Prod.fst := fun x hx => List.mem_map_of_mem hx
      rcases presetValues_offsets ht hv with h | h <;> rw [h] at listed ⊢ <;>
        exact ⟨by decide, fun x hx => by have := listed x hx; simp at this; omega⟩
    obtain ⟨distinct, range⟩ := offsets
    have hset := tidy_setReg (p := p) 0x40 (setBits (reg (dropHalf w p s) p 0x40) (presetBits t).1 (presetBits t).2
      (bits v (presetBits t).1 (presetBits t).2)) hd
    rw [loadPreset_plain hp ht hv] at run
    refine ⟨_, run, ?_, ?_, ?_, ?_, ?_, ?_⟩
    · exact hdrOnly_trans (hdrOnly_dropHalf hs) (hdrOnly_of_pages (storeRegs_pages l _))
    · rw [storeRegs_frame]; rfl
    · exact fun x hx => reg_storeRegs_mem hset distinct hx
    · rw [reg_storeRegs_ne hset, reg_setReg _ _ _ hd, bits_setBits _ _ (presetBits_of_plain ht)]
      intro x hx same
      obtain ⟨lower, upper⟩ := range x hx
      have := (regKey_inj (by decide) upper).1 same
      omega
    · intro q o hk hq ho
      rw [reg_storeRegs_ne hset, reg_setReg_ne _ _ _ hd]
      · exact reg_congr rfl q o
      · rw [Ne, regKey_inj ho (by decide)]
        omega
      · intro x hx same
        obtain ⟨rfl, rfl⟩ := (regKey_inj ho (range x hx).2).1 same
        rcases hk with hk | ⟨-, hk⟩
        · exact hk rfl
        · exact hk (List.mem_map_of_mem hx)
    · rw [pageHdr_congr (storeRegs_pages l _)]
      exact pageHdr_dropHalf hs

end

section
/-! PROOFS. The values after reset (O7), and the operating profile (O16): a write of DEV_OPERATING_PROFILE and PROFILE_APPLIED. -/

namespace Sys2Proof.Machine

/-! Writes of the operating profile (R16, Table 01-6) -/

section
variable {s : State} {w p : Nat} {v : Word}

/-- What refuses a profile lies outside the headers of pages. -/
theorem profileRefusal_dropHalf (x : Profile) : profileRefusal (dropHalf w p s) x = profileRefusal s x := rfl

/-- A profile refused whole: the record of field and reason, a count, and for partitions that find no room (R124) the ledger's record. -/
def profileRefused (x : Profile) (f r : Nat) (s : State) : State :=
  let t := count Pg.dev 0xE10 { s with dev := { s.dev with state := .refused, refusedField := f, reason := r } }
  if f = 6 ∧ x.flashUse = 1 ∧ r ≠ 0 then notePromotion (partT3Homes s) t else t

theorem profileRefused_frame (x : Profile) (f r : Nat) :
    profileRefused x f r s = { s with
      dev := { s.dev with state := .refused, refusedField := f, reason := r }
      cnts := (profileRefused x f r s).cnts
      rlg := (profileRefused x f r s).rlg } := by
  unfold profileRefused; dsimp only; split <;> rfl

theorem exec_profileWrite_refused {f r : Nat} (hs : Tidy s) (ho : Owns s w Pg.dev) (hst : s.dev.state ≠ .inProgress)
    (hr : profileRefusal s (profileOf v) = some (f, r)) :
    exec (.profileWrite w v) s = .next (profileRefused (profileOf v) f r (dropHalf w Pg.dev s)) := by
  change Host.Outcome.next (ownedWrite w Pg.dev _ s) = _
  have kept : (dropHalf w Pg.dev s).dev.state ≠ .inProgress := hst
  rw [ownedWrite_of_owns _ hs ho, if_neg kept, profileRefusal_dropHalf, hr]
  rfl

theorem startEnvelope_same {e : Nat} (h : e = s.dev.profile.envelope) : startEnvelope e s = s := if_pos h

theorem applyPlacement_same {x : Nat} (h : x = s.dev.profile.placement) : applyPlacement x s = s := if_pos h

/-- A FLASH_USE that stays as it is starts a mount only where ON finds no group mounted (R136). -/
theorem startFlashUse_same {x : Nat} (h : x = s.dev.profile.flashUse) (hm : x = 0 → groupMounted s = true) :
    startFlashUse x s = s := by
  have mounted : ¬ (x = 0 ∧ (!groupMounted s) = true) := by
    rintro ⟨on, unmounted⟩
    simp [hm on] at unmounted
  unfold startFlashUse
  rw [if_pos h, if_neg mounted]

/-- The profile `x` is the target, and its change is in progress. -/
def profileTaken (x : Profile) (s : State) : State :=
  { s with dev := { s.dev with target := x, state := .inProgress, refusedField := 0, reason := 0 } }

theorem exec_profileWrite_accepted (hs : Tidy s) (ho : Owns s w Pg.dev) (hst : s.dev.state ≠ .inProgress)
    (hr : profileRefusal s (profileOf v) = none) (hf : (profileOf v).flashUse = s.dev.profile.flashUse)
    (he : (profileOf v).envelope = s.dev.profile.envelope) (hm : (profileOf v).flashUse = 0 → groupMounted s = true) :
    exec (.profileWrite w v) s = .next (profileTaken (profileOf v) (dropHalf w Pg.dev s)) := by
  change Host.Outcome.next (ownedWrite w Pg.dev _ s) = _
  have kept : (dropHalf w Pg.dev s).dev.state ≠ .inProgress := hst
  have envelope : startEnvelope (profileOf v).envelope (dropHalf w Pg.dev s) = dropHalf w Pg.dev s := startEnvelope_same he
  have flash : startFlashUse (profileOf v).flashUse (dropHalf w Pg.dev s) = dropHalf w Pg.dev s := startFlashUse_same hf hm
  rw [ownedWrite_of_owns _ hs ho, if_neg kept, profileRefusal_dropHalf, hr]
  dsimp only
  rw [envelope, flash]
  rfl

/-- PROFILE_APPLIED of a change that keeps PLACEMENT, once nothing of it is left to do. -/
theorem exec_profileApplied (hw : awake s = true) (hst : s.dev.state = .inProgress) (hset : profileSettled s = true)
    (hpl : s.dev.target.placement = s.dev.profile.placement) :
    exec .profileApplied s = .next (count Pg.dev 0xE08 { s with dev := { s.dev with profile := s.dev.target, state := .applied } }) := by
  change Host.Outcome.next (whenAwake s _) = _
  simp [whenAwake, hw, hst, hset, applyPlacement_same hpl]

end
end Sys2Proof.Machine

open Sys2Proof Sys2Proof.Machine

/-- Settles O7: tables without entries read as their reset values. -/
theorem resetValues : Obligations.ResetValues := by
  unfold Obligations.ResetValues
  exact ⟨rfl, fun _ => rfl, fun _ _ => rfl, fun _ _ => rfl, fun _ => rfl, fun _ _ => rfl, rfl, rfl, rfl⟩

/-- Settles O16: the write comes to the record of a refusal or to the new target, and what PROFILE_APPLIED then finds is that target. -/
theorem profileChange : Obligations.ProfileChange := by
  unfold Obligations.ProfileChange
  intro s w v hs ho hst
  refine ⟨?refused, ?accepted⟩
  case refused =>
    intro f r hr
    refine ⟨_, exec_profileWrite_refused hs ho hst hr, ?_⟩
    rw [profileRefused_frame]
    exact ⟨rfl, rfl, rfl, rfl, rfl, rfl, rfl, rfl⟩
  case accepted =>
    intro hf hpl he hm hr
    refine ⟨_, exec_profileWrite_accepted hs ho hst hr hf he hm, rfl, ?_⟩
    intro hset
    have tidy : Tidy (profileTaken (profileOf v) (dropHalf w Pg.dev s)) := { tidy_dropHalf hs with }
    refine ⟨_, exec_profileApplied (awake_of_reaches ho.1) rfl hset hpl, rfl, rfl, ?_, rfl⟩
    exact counter_countBy _ _ _ { tidy with }

end

section
/-! PROOFS. The operating profile across resets (O17): no operation that a function reset, a port reset or a start of the device is
made of writes the DEV unit, but for the subsystem ID and MEM_ENABLED at a start. Each lemma `<operation>_dev` follows the branches
of its operation's definition and the frame lemmas of the operations in them. -/

namespace Sys2Proof.Machine

/-! Runs over lists -/

theorem foldl_dev {α : Type} {f : State → α → State} (hf : ∀ s a, (f s a).dev = s.dev) (l : List α) (s : State) :
    (l.foldl f s).dev = s.dev := by
  induction l generalizing s with
  | nil => rfl
  | cons a l ih => exact (ih (f s a)).trans (hf s a)

theorem foldl_snd_dev {α β : Type} {f : β × State → α → β × State} (hf : ∀ x a, (f x a).2.dev = x.2.dev) (l : List α)
    (x : β × State) :
    (l.foldl f x).2.dev = x.2.dev := by
  induction l generalizing x with
  | nil => rfl
  | cons a l ih => exact (ih (f x a)).trans (hf x a)

section
variable (s : State)

/-! Events, functions, host ports and command rings -/

@[simp] theorem noteErr_dev (p kind : Nat) (st : Status) (off fn : Nat) : (noteErr p kind st off fn s).dev = s.dev := rfl

@[simp] theorem raise_dev (p : Nat) (code : Status) (sev : Sev) (cause ctx block detail : Nat) (dests : List Nat)
    (integrity : Bool) : (raise p code sev cause ctx block detail dests integrity s).dev = s.dev := rfl

@[simp] theorem draw_dev : (draw s).2.dev = s.dev := rfl

@[simp] theorem modFunc_dev (f : Nat) (g : Func → Func) : (modFunc f g s).dev = s.dev := rfl

@[simp] theorem setHport_dev (port : Nat) (v : HPort) : (setHport port v s).dev = s.dev := by
  unfold setHport
  split <;> rfl

@[simp] theorem modHport_dev (port : Nat) (g : HPort → HPort) : (modHport port g s).dev = s.dev := by simp [modHport]

@[simp] theorem bumpGen_dev (f : Nat) : (bumpGen f s).dev = s.dev := rfl

@[simp] theorem interrupt_dev (f vector : Nat) : (interrupt f vector s).dev = s.dev := by
  unfold interrupt
  dsimp only
  (repeat' split) <;> simp

@[simp] theorem poisonCxl_dev (port dpa : Nat) : (poisonCxl port dpa s).dev = s.dev := rfl

@[simp] theorem answerBar_dev (fn off : Nat) (r : Resp) : (answerBar fn off r s).dev = s.dev := by
  unfold answerBar
  split <;> rfl

@[simp] theorem noteAer_dev (fn cond : Nat) : (noteAer fn cond s).dev = s.dev := rfl

@[simp] theorem modRing_dev (f n : Nat) (g : Ring → Ring) : (modRing f n g s).dev = s.dev := rfl

@[simp] theorem signalRing_dev (f n : Nat) : (signalRing f n s).dev = s.dev := by simp [signalRing]

@[simp] theorem writeCpl_dev (f n : Nat) (c : Cpl) : (writeCpl f n c s).dev = s.dev := by
  unfold writeCpl
  dsimp only
  split <;> simp

@[simp] theorem settleRing_dev (f n : Nat) : (settleRing f n s).dev = s.dev := by
  unfold settleRing
  dsimp only
  split <;> rfl

@[simp] theorem complete_dev (r : RingCmd) (op : Nat) (st : Status) (result : Nat) : (complete r op st result s).dev = s.dev := by
  unfold complete
  dsimp only
  (repeat' split) <;> simp

@[simp] theorem freeClaim_dev (res : Nat) : (freeClaim res s).dev = s.dev := rfl

/-! Slabs, frames and shares of bandwidth -/

@[simp] theorem modMap_dev (slab : Nat) (f : MapEntry → MapEntry) : (modMap slab f s).dev = s.dev := rfl

@[simp] theorem setResv_dev (c : Nat) (v : Resv) : (setResv c v s).dev = s.dev := rfl

@[simp] theorem trimPresented_dev (n : Nat) : (trimPresented n s).dev = s.dev := by
  induction n generalizing s with
  | zero => rfl
  | succ n ih =>
    unfold trimPresented
    split
    · exact ih _
    · rfl

@[simp] theorem retireFrom_dev (k need : Nat) : (retireFrom k need s).dev = s.dev := by
  induction k generalizing s need with
  | zero => rfl
  | succ k ih =>
    cases need with
    | zero => rfl
    | succ need =>
      unfold retireFrom
      split
      · exact ih _ _
      · exact ih _ _

@[simp] theorem retireSlabs_dev : (retireSlabs s).dev = s.dev := by
  unfold retireSlabs
  dsimp only
  split <;> simp

@[simp] theorem recountSlabs_dev : (recountSlabs s).dev = s.dev := by simp [recountSlabs]

@[simp] theorem updateScales_dev : (updateScales s).dev = s.dev := by
  refine foldl_dev (fun s c => ?_) _ _
  dsimp only
  (repeat' split) <;> simp

@[simp] theorem startMount_dev : (startMount s).dev = s.dev := rfl

@[simp] theorem clearFrame_dev (t : Tier) (frame : Nat) : (clearFrame t frame s).dev = s.dev := rfl

/-! Code tables, their retirement, and fabric packets -/

@[simp] theorem modTable_dev (id : Nat) (f : TableEnt → TableEnt) : (modTable id f s).dev = s.dev := rfl

@[simp] theorem releaseTables_dev : (releaseTables s).dev = s.dev := by
  rw [releaseTables, countBy_dev, foldl_dev]
  exact fun s id => setTable_dev s id _

@[simp] theorem modFport_dev (p : Nat) (f : FPort → FPort) : (modFport p f s).dev = s.dev := rfl

@[simp] theorem transmit_dev (port : Nat) (p : Pkt) (data : List Byte) : (transmit port p data s).dev = s.dev := rfl

@[simp] theorem sendPkt_dev (port : Nat) (p : Pkt) (data : List Byte) : (sendPkt port p data s).dev = s.dev := by
  unfold sendPkt
  dsimp only
  split <;> rfl

@[simp] theorem sendRetires_dev (id epoch : Nat) (peers : List Nat) : (sendRetires id epoch peers s).dev = s.dev :=
  foldl_dev (fun s p => (sendPkt_dev _ p _ _).trans (modFport_dev s p _)) _ _

@[simp] theorem settleTable_dev (id : Nat) : (settleTable id s).dev = s.dev := by
  unfold settleTable
  dsimp only
  (repeat' split) <;> simp

@[simp] theorem unrefTable_dev (id : Nat) : (unrefTable id s).dev = s.dev := by simp [unrefTable]

@[simp] theorem unpinTable_dev (id : Nat) : (unpinTable id s).dev = s.dev := by simp [unpinTable]

@[simp] theorem retireTable_dev (id : Nat) : (retireTable id s).dev = s.dev := by
  unfold retireTable
  dsimp only
  (repeat' split) <;> simp

@[simp] theorem dropTraySlab_dev (slab : Nat) : (dropTraySlab slab s).dev = s.dev := rfl

@[simp] theorem logRepair_dev (k : RepairKind) (t : Tier) (x : TflLast) (serial : Nat) :
    (logRepair k t x serial s).dev = s.dev := by
  unfold logRepair
  split <;> rfl

@[simp] theorem sendTo_dev (p : Pkt) (data : List Byte) : (sendTo p data s).dev = s.dev := by
  unfold sendTo
  split <;> simp

@[simp] theorem answer_dev (fport : Nat) (p : Pkt) (data : List Byte) : (answer fport p data s).dev = s.dev := by
  unfold answer
  split <;> simp

/-! Runs of recipes, and the shares that refuse their streams -/

@[simp] theorem setRun_dev (r : Option Run) : (setRun r s).dev = s.dev := rfl

@[simp] theorem modRun_dev (f : Run → Run) : (modRun f s).dev = s.dev := rfl

@[simp] theorem setSht_dev (v : Sht) : (setSht v s).dev = s.dev := rfl

@[simp] theorem setTile_dev (row col : Nat) (t : Tile) : (setTile row col t s).dev = s.dev := rfl

@[simp] theorem setRecipe_dev (h : Nat) (q : Option Recipe) : (setRecipe h q s).dev = s.dev := rfl

@[simp] theorem poolCredits_dev (q : Recipe) (on : Bool) : (poolCredits q on s).dev = s.dev :=
  foldl_dev (fun s p => modFport_dev s p _) _ _

@[simp] theorem dropTransfers_dev (q : Recipe) : (dropTransfers q s).dev = s.dev :=
  foldl_dev (fun s p => modFport_dev s p _) _ _

@[simp] theorem sendTokens_dev (type outcome : Nat) (except : Option Nat) : (sendTokens type outcome except s).dev = s.dev := by
  unfold sendTokens
  split
  · rfl
  · exact foldl_dev (fun s p => (count_dev _ _ _).trans (sendPkt_dev s p _ _)) _ _

@[simp] theorem endStall_dev : (endStall s).dev = s.dev := by
  unfold endStall
  dsimp only
  (repeat' split) <;> simp

@[simp] theorem zeroTileStores_dev : (zeroTileStores s).dev = s.dev := rfl

@[simp] theorem endRun_dev (outcome : Status) : (endRun outcome s).dev = s.dev := by
  unfold endRun
  dsimp only
  (repeat' split) <;> simp

@[simp] theorem stepFault_dev (cause row phys logical : Nat) : (stepFault cause row phys logical s).dev = s.dev := by
  unfold stepFault
  dsimp only
  (repeat' split) <;> simp

@[simp] theorem stepFaultAt_dev (cause : Nat) : (stepFaultAt cause s).dev = s.dev := by simp [stepFaultAt]

@[simp] theorem refuseStreams_dev (c : Nat) : (refuseStreams c s).dev = s.dev := by
  unfold refuseStreams
  dsimp only
  (repeat' split) <;> simp

@[simp] theorem settleScales_dev : (settleScales s).dev = s.dev := by
  refine (foldl_dev (fun s c => ?_) _ _).trans (updateScales_dev s)
  split <;> simp

/-! Moves, votes and hints -/

@[simp] theorem setMoves_dev (l : List Move) : (setMoves l s).dev = s.dev := rfl

@[simp] theorem dropMove_dev (slab : Nat) : (dropMove slab s).dev = s.dev := rfl

@[simp] theorem setVote_dev (slab ctx : Nat) (v : Option Vote) : (setVote slab ctx v s).dev = s.dev := rfl

@[simp] theorem settleHints_dev : (settleHints s).dev = s.dev :=
  foldl_dev (fun s (h : Hint) => complete_dev s h.r _ _ _) _ _

@[simp] theorem resolveSlab_dev (id slab : Nat) (st : Status) : (resolveSlab id slab st s).dev = s.dev := by
  unfold resolveSlab
  split <;> simp

@[simp] theorem resolveTmask_dev (slab : Nat) (st : Status) : (resolveTmask slab st s).dev = s.dev :=
  foldl_dev (fun s (h : Hint) => resolveSlab_dev s h.id slab st) _ _

@[simp] theorem removeVote_dev (slab ctx : Nat) (st : Status) : (removeVote slab ctx st s).dev = s.dev := by
  unfold removeVote
  dsimp only
  (repeat' split) <;> simp

@[simp] theorem failVotes_dev (slab : Nat) (st : Status) : (failVotes slab st s).dev = s.dev := by
  refine foldl_dev (fun s v => ?_) _ _
  split <;> simp

@[simp] theorem dropRightless_dev : (dropRightless s).dev = s.dev := by
  refine foldl_dev (fun s k => ?_) _ _
  split <;> simp

@[simp] theorem freeToZeroing_dev (t : Tier) (frame : Nat) : (freeToZeroing t frame s).dev = s.dev := by
  unfold freeToZeroing
  split <;> rfl

@[simp] theorem abandonMove_dev (slab : Nat) : (abandonMove slab s).dev = s.dev := by
  unfold abandonMove
  dsimp only
  (repeat' split) <;> simp

/-! Slabs and contexts on their way to FREE -/

@[simp] theorem ackWrite_dev (src : WriteSrc) : (ackWrite src s).dev = s.dev := by
  unfold ackWrite
  split <;> simp

@[simp] theorem endDrain_dev (d : Drain) : (endDrain d s).dev = s.dev := by
  unfold endDrain
  dsimp only
  (repeat' split) <;> simp

@[simp] theorem settleDrains_dev : (settleDrains s).dev = s.dev := foldl_dev (fun s d => endDrain_dev s d) _ _

@[simp] theorem settleCtx_dev (c : Nat) : (settleCtx c s).dev = s.dev := by
  unfold settleCtx
  dsimp only
  split <;> rfl

@[simp] theorem slabFree_dev (slab : Nat) : (slabFree slab s).dev = s.dev := by
  unfold slabFree
  dsimp only
  (repeat' split) <;> simp

@[simp] theorem releaseNow_dev (slab : Nat) : (releaseNow slab s).dev = s.dev := by
  unfold releaseNow
  dsimp only
  split
  all_goals
    simp only [slabFree_dev, freeToZeroing_dev, setMap_dev, dropTraySlab_dev]
    rw [foldl_dev (fun s id => unrefTable_dev s id)]
    split
    all_goals exact (settleDrains_dev _).trans ((foldl_dev (fun s (w : HeldStore) => ackWrite_dev s w.src) _ _).trans (by simp))

@[simp] theorem releaseSlab_dev (slab : Nat) : (releaseSlab slab s).dev = s.dev := by
  unfold releaseSlab
  split <;> simp

@[simp] theorem settleTray_dev : (settleTray s).dev = s.dev := by
  unfold settleTray
  dsimp only
  (repeat' split) <;> simp

/-! Windows and sharing groups -/

@[simp] theorem setWindow_dev (n : Nat) (v : Option Window) : (setWindow n v s).dev = s.dev := rfl

@[simp] theorem makeStale_dev (ws : List Nat) : (makeStale ws s).dev = s.dev := by
  refine foldl_dev (fun s n => ?_) _ _
  split <;> simp

@[simp] theorem drainWindows_dev (ws : List Nat) (free : Bool) (cmd : Option (RingCmd × Nat)) :
    (drainWindows ws free cmd s).dev = s.dev := by simp [drainWindows]

@[simp] theorem setMember_dev (k : Nat) (v : Option Member) : (setMember k v s).dev = s.dev := rfl

@[simp] theorem setGroup_dev (g : Nat) (v : Option Nat) : (setGroup g v s).dev = s.dev := rfl

@[simp] theorem removeMember_dev (g c : Nat) : (removeMember g c s).2.dev = s.dev := by
  unfold removeMember
  dsimp only
  split <;> simp

@[simp] theorem destroyGroup_dev (g : Nat) : (destroyGroup g s).2.dev = s.dev := by
  refine (foldl_dev (fun s k => modMap_dev s k _) _ _).trans (foldl_snd_dev (fun x c => ?_) _ _)
  exact removeMember_dev x.2 g c

/-! Shared claims, proof passes and check jobs -/

@[simp] theorem setTmx_dev (v : Tmx) : (setTmx v s).dev = s.dev := rfl

@[simp] theorem freeTrigger_dev : (freeTrigger s).dev = s.dev := by
  unfold freeTrigger
  split <;> rfl

@[simp] theorem clearTrace_dev : (clearTrace s).dev = s.dev := by simp [clearTrace]

@[simp] theorem releaseClaim_dev (res : Nat) : (releaseClaim res s).dev = s.dev := by
  unfold releaseClaim
  dsimp only
  (repeat' split) <;> simp

@[simp] theorem releaseClaims_dev (p : ClaimRec → Bool) : (releaseClaims p s).dev = s.dev := by
  refine foldl_dev (fun s n => ?_) _ _
  split <;> simp

@[simp] theorem setPpu_dev (p : Ppu) : (setPpu p s).dev = s.dev := rfl

@[simp] theorem fillQueue_dev : (fillQueue s).dev = s.dev := rfl

@[simp] theorem settleScan_dev : (settleScan s).dev = s.dev := by
  unfold settleScan
  split <;> rfl

@[simp] theorem endPassCmd_dev (r : RingCmd) (op : Nat) (st : Status) : (endPassCmd r op st s).dev = s.dev := by
  unfold endPassCmd
  split <;> simp

@[simp] theorem dropPassTable_dev (p : Pass) : (dropPassTable p s).dev = s.dev := by
  unfold dropPassTable
  split
  · rfl
  · split <;> simp

@[simp] theorem dropPasses_dev (ctx : Nat) : (dropPasses ctx s).dev = s.dev := by
  rw [dropPasses, settleScan_dev, fillQueue_dev, foldl_dev (fun s c => endPassCmd_dev s _ _ _),
    foldl_dev (fun s p => dropPassTable_dev s p), setPpu_dev]

@[simp] theorem settleCvuScan_dev : (settleCvuScan s).dev = s.dev := by
  unfold settleCvuScan
  dsimp only
  split <;> rfl

@[simp] theorem endCvuJobs_dev : (endCvuJobs s).dev = s.dev := rfl

@[simp] theorem putRemap_dev (t : Tier) (row : Nat) : (putRemap t row s).dev = s.dev := rfl

/-! The end of runs and of recipes -/

@[simp] theorem postNotice_dev (fn ring tag last : Nat) (st : Status) : (postNotice fn ring tag last st s).dev = s.dev := by
  unfold postNotice
  dsimp only
  split <;> simp

@[simp] theorem unloadRecipe_dev (h : Nat) : (unloadRecipe h s).dev = s.dev := by
  unfold unloadRecipe
  split
  · rfl
  · refine (settleScales_dev _).trans ((foldl_dev (fun s l => ?_) _ _).trans (foldl_dev (fun s t => ?_) _ _))
    · exact complete_dev s l.r _ _ _
    · exact unpinTable_dev s t.1

@[simp] theorem freeRunComparator_dev (n : Nat) : (freeRunComparator n s).dev = s.dev := by
  unfold freeRunComparator
  split <;> rfl

@[simp] theorem finishRun_dev : (finishRun s).dev = s.dev := by
  unfold finishRun
  split
  · rfl
  · split
    · rfl
    · dsimp only
      rw [foldl_dev (fun s (w : RingCmd × Nat) => complete_dev s w.1 w.2 _ _)]
      (repeat' split) <;> simp

@[simp] theorem endAndUnload_dev (h : Nat) (outcome : Status) : (endAndUnload h outcome s).dev = s.dev := by
  unfold endAndUnload
  split
  · split <;> simp
  · simp

/-! The takeover by the safe-state sequencer -/

@[simp] theorem setFtb_dev (v : Ftb) : (setFtb v s).dev = s.dev := rfl

@[simp] theorem settleParent_dev : (settleParent s).dev = s.dev := by
  unfold settleParent
  dsimp only
  (repeat' split) <;> simp

@[simp] theorem staleGrants_dev (p : Grant → Bool) : (staleGrants p s).dev = s.dev := rfl

@[simp] theorem setCcx_dev (v : Ccx) : (setCcx v s).dev = s.dev := rfl

@[simp] theorem logEvent_dev (e : Evt) : (logEvent e s).dev = s.dev := by
  unfold logEvent
  dsimp only
  split <;> rfl

@[simp] theorem cxlRecord_dev (port log : Nat) (dpa : Option Nat) : (cxlRecord port log dpa s).dev = s.dev := by simp [cxlRecord]

@[simp] theorem endWaiting_dev : (endWaiting s).dev = s.dev := by
  refine (foldl_dev (fun s w => ?_) _ _).trans (foldl_dev (fun s w => ?_) _ _)
  · split <;> simp
  · split <;> simp

@[simp] theorem setOtherSlot_dev (v : FwSlot) : (setOtherSlot v s).dev = s.dev := rfl

@[simp] theorem setActiveSlot_dev (v : FwSlot) : (setActiveSlot v s).dev = s.dev := rfl

@[simp] theorem firmwareLost_dev : (firmwareLost s).dev = s.dev := by
  unfold firmwareLost
  dsimp only
  (repeat' split) <;> simp

@[simp] theorem seizeClaims_dev : (seizeClaims s).dev = s.dev :=
  (foldl_dev (fun s n => setClaim_dev s n _) _ _).trans (releaseClaims_dev _ _)

@[simp] theorem reportFatal_dev (port : Nat) : (reportFatal port s).dev = s.dev := by
  unfold reportFatal
  split <;> simp

@[simp] theorem takeover_dev (cause : Nat) : (takeover cause s).dev = s.dev := by
  unfold takeover
  dsimp only
  (repeat' split) <;> simp

@[simp] theorem setCore_dev (n : Nat) (c : Core) : (setCore n c s).dev = s.dev := rfl

/-! The reset of functions (R37, R380) -/

@[simp] theorem setSec_dev (v : Sec) : (setSec v s).dev = s.dev := rfl

@[simp] theorem keyResult_dev (r slot : Nat) : (keyResult r slot s).dev = s.dev := rfl

@[simp] theorem eraseKey_dev (slot : Nat) : (eraseKey slot s).dev = s.dev := by
  rw [eraseKey, count_dev, setKey_dev, foldl_dev]
  exact fun s c => setCtx_dev s c _

@[simp] theorem clearParts_dev (c : Nat) : (clearParts c s).dev = s.dev := rfl

@[simp] theorem leaveGroups_dev (c : Nat) : (leaveGroups c s).dev = s.dev := by
  rw [leaveGroups]
  dsimp only
  rw [drainWindows_dev, foldl_snd_dev, foldl_snd_dev]
  · exact fun x g => removeMember_dev x.2 g c
  · exact fun x g => destroyGroup_dev x.2 g

@[simp] theorem staleWindows_dev (c : Nat) : (staleWindows c s).dev = s.dev := by simp [staleWindows]

@[simp] theorem dropKey_dev (c : Nat) : (dropKey c s).dev = s.dev := by
  unfold dropKey
  dsimp only
  (repeat' split) <;> simp

@[simp] theorem returnResv_dev (c : Nat) : (returnResv c s).dev = s.dev := rfl

@[simp] theorem retireOwned_dev (c : Nat) : (retireOwned c s).dev = s.dev := foldl_dev (fun s id => retireTable_dev s id) _ _

@[simp] theorem dropVotes_dev (c : Nat) : (dropVotes c s).dev = s.dev := foldl_dev (fun s _ => removeVote_dev s _ c _) _ _

@[simp] theorem drainCtx_dev (c : Nat) : (drainCtx c s).dev = s.dev := by
  unfold drainCtx
  dsimp only
  split
  · rfl
  · rw [settleScales_dev, settleCtx_dev, foldl_dev (fun s k => releaseSlab_dev s k), returnResv_dev,
      foldl_dev (fun s k => abandonMove_dev s k), retireOwned_dev, dropPasses_dev, staleGrants_dev, dropVotes_dev,
      staleWindows_dev, leaveGroups_dev, foldl_dev, dropKey_dev, clearParts_dev, bumpGen_dev, setCtx_dev,
      foldl_dev (fun s h => endAndUnload_dev s h _)]
    intro s k
    simp

@[simp] theorem orphanTags_dev (f : Nat) : (orphanTags f s).dev = s.dev := by simp [orphanTags]

@[simp] theorem forgetCommands_dev (f : Nat) : (forgetCommands f s).dev = s.dev := rfl

@[simp] theorem returnWindows_dev (f : Nat) : (returnWindows f s).dev = s.dev := by simp [returnWindows]

@[simp] theorem closeRun_dev (f : Nat) : (closeRun f s).dev = s.dev := by
  unfold closeRun
  split
  · split <;> simp
  · rfl

@[simp] theorem resetFn_dev (f : Nat) (phase : FnPhase) : (resetFn f phase s).dev = s.dev := by
  rw [resetFn, count_dev, setFunc_dev]
  dsimp only
  rw [settleCvuScan_dev, forgetCommands_dev, closeRun_dev, returnWindows_dev, foldl_dev (fun s c => drainCtx_dev s c),
    orphanTags_dev]

@[simp] theorem releasePages_dev (port : Nat) : (releasePages port s).dev = s.dev := rfl

@[simp] theorem resetVfs_dev (port : Nat) : (resetVfs port s).dev = s.dev := foldl_dev (fun s _ => resetFn_dev s _ _) _ _

@[simp] theorem resetPf_dev (port : Nat) (phase : FnPhase) : (resetPf port phase s).dev = s.dev := by
  rw [resetPf, releasePages_dev, releaseClaims_dev, resetFn_dev, resetVfs_dev]

/-! The start of the device (Table 18-1) -/

@[simp] theorem scrap_dev : (scrap s).dev = s.dev := rfl

@[simp] theorem applyPending_dev : (applyPending s).dev = s.dev := by
  unfold applyPending
  dsimp only
  (repeat' split) <;> simp

@[simp] theorem revoke_dev (v : FwSlot) : (revoke v s).dev = s.dev := by
  unfold revoke
  split <;> rfl

@[simp] theorem activate_dev : (activate s).dev = s.dev := by simp [activate]

theorem selectSlot_dev (f : Fitted) {t : State} (h : selectSlot f s = some t) : t.dev = s.dev := by
  unfold selectSlot at h
  extract_lets _ read image next _ here there _ _ _ other fallen at h
  have onNext : here.dev = s.dev := (setCcx_dev _ _).trans (setCcx_dev _ _)
  have onOther : there.dev = s.dev := (setCcx_dev _ _).trans (setCcx_dev _ _)
  have kept : fallen.dev = s.dev := by
    refine (activate_dev _).trans ?_
    split
    · exact onOther
    · exact (setOtherSlot_dev _ _).trans onOther
  split at h
  · split at h
    · exact Option.some.inj h ▸ (setCcx_dev _ _).trans ((setActiveSlot_dev _ _).trans onNext)
    · exact Option.some.inj h ▸ (activate_dev _).trans onNext
  · split at h
    · rw [← Option.some.inj h]
      split
      · exact kept
      · exact (count_dev _ _ _).trans ((setCcx_dev _ _).trans kept)
    · cases h

@[simp] theorem startCores_dev (f : Fitted) : (startCores f s).dev = s.dev := by
  rw [startCores, setCcx_dev, foldl_dev (fun s n => setCore_dev s n _), foldl_dev (fun s n => setCore_dev s n _)]

@[simp] theorem newKeys_dev : (newKeys s).dev = s.dev := rfl

@[simp] theorem restoreCrash_dev : (restoreCrash s).dev = s.dev := by
  unfold restoreCrash
  split <;> rfl

@[simp] theorem startTime_dev : (startTime s).dev = s.dev := by
  unfold startTime
  dsimp only
  split <;> simp

@[simp] theorem startCheckers_dev (f : Fitted) : (startCheckers f s).dev = s.dev := by simp [startCheckers]

@[simp] theorem startSheet_dev (f : Fitted) : (startSheet f s).dev = s.dev := by
  have fail (cause row col : Nat) (s : State) :
      (if tileGood s row col then setTile row col { tileAt s row col with cause := cause } s else s).dev = s.dev := by
    split <;> simp
  refine (foldl_dev (fun s x => ?_) _ _).trans
    ((foldl_dev (fun s (x : Nat × Nat) => fail 6 x.1 x.2 s) _ _).trans (foldl_dev (fun s r => ?_) _ _))
  · split
    · exact (fail 6 x.1 x.2 _).trans (logRepair_dev _ _ _ _ _)
    · rfl
  · split
    · exact fail _ _ _ s
    · split <;> simp
    · rfl

@[simp] theorem startChans_dev (f : Fitted) : (startChans f s).dev = s.dev := rfl

@[simp] theorem applyRepair_dev (hppr : Bool) (r : Repair) : (applyRepair hppr r s).dev = s.dev := by
  unfold applyRepair
  dsimp only
  (repeat' split) <;> simp

@[simp] theorem applyRepairs_dev (f : Fitted) : (applyRepairs f s).dev = s.dev := foldl_dev (fun s r => applyRepair_dev s _ r) _ _

@[simp] theorem noteStep_dev (n : Nat) : (noteStep n s).dev = s.dev := by
  unfold noteStep
  split <;> rfl

@[simp] theorem trainLink_dev (port : Nat) : (trainLink port s).dev = s.dev := by
  unfold trainLink
  split <;> simp

@[simp] theorem startLink_dev (port : Nat) : (startLink port s).dev = s.dev := by
  unfold startLink
  split <;> simp

@[simp] theorem resetLink_dev (port : Nat) (kind : PortResetKind) : (resetLink port kind s).dev = s.dev := by
  unfold resetLink
  split <;> simp

end

/-! The profile at a start -/

section
variable (cause coldCount : Nat) (f : Fitted) (s : State)

theorem survivors_profile : (survivors cause coldCount f s).dev.profile = Profile.reset := rfl

theorem loadCfg_profile : (loadCfg f s).dev.profile = s.dev.profile := by
  unfold loadCfg
  dsimp only
  split <;> rfl

theorem openMemory_profile : (openMemory s).dev.profile = s.dev.profile := by
  unfold openMemory
  dsimp only
  (repeat' split) <;> simp

theorem startMemory_profile : (startMemory f s).dev.profile = s.dev.profile := by
  unfold startMemory
  dsimp only
  split
  · simp
  · simp [openMemory_profile]

/-- However far a start comes, the profile is that of the reset. -/
theorem start_profile : (start cause coldCount f s).dev.profile = Profile.reset := by
  unfold start
  dsimp only
  have loaded :
      (emit (.pins true true) (loadCfg f (applyPending (survivors cause coldCount f s)))).dev.profile = Profile.reset := by
    rw [emit_dev, loadCfg_profile, applyPending_dev, survivors_profile]
  split
  · exact survivors_profile cause coldCount f s
  · split
    · exact loaded
    · next t chosen =>
      have booted : t.dev.profile = Profile.reset := by
        split at chosen
        · cases chosen; exact loaded
        · rw [selectSlot_dev _ f chosen, loaded]
      split
      · simp [booted]
      · simp [startMemory_profile, booted]

theorem coldStart_profile : (coldStart cause f s).dev.profile = Profile.reset := start_profile _ _ _ _

end

/-! The rows -/

section
variable (s : State)

theorem tearPort_dev (port : Nat) : (tearPort port s).dev = s.dev := by simp [tearPort]

theorem whenAwake_dev {f : State → State} (hf : ∀ s, (f s).dev = s.dev) : (whenAwake s f).dev = s.dev := by
  unfold whenAwake
  split
  · exact hf s
  · rfl

theorem exec_flr_dev (f : Nat) : ∃ u, exec (.flr f) s = .next u ∧ u.dev = s.dev := by
  refine ⟨_, rfl, whenAwake_dev s fun s => ?_⟩
  split
  · rfl
  · split
    · rfl
    · split
      · rfl
      · split <;> simp

theorem exec_portReset_dev (port : Nat) (kind : PortResetKind) :
    ∃ u, exec (.portReset port kind) s = .next u ∧ u.dev = s.dev := by
  refine ⟨_, rfl, ?_⟩
  split
  · rfl
  · rw [resetLink_dev]
    split
    · exact tearPort_dev s port
    · rfl

theorem exec_powerOnReset (f : Fitted) (h : s.dev.powered = false) : exec (.powerOnReset f) s = .next (start 0 0 f s) := by
  change Host.Outcome.next (if _ then _ else _) = _
  simp [h]

/-- The condition under which a cause of a cold reset takes place (R424). -/
def ColdResetMeets (s : State) : ColdCause → Prop
  | .sssRequest => s.sss.resetAsked = true
  | .trialTakeover => s.sss.trialReset = true
  | .tap => s.tmx.resetDue = true
  | .ioxWrite w code => Owns s w Pg.iox ∧ code % 65536 = 0xC01D
  | .bothPerst => s.hiu.p0.perst = true ∧ s.hiu.p1.perst = true ∧ flag s Pg.iox 0x68 1 = true

/-- A cold reset whose cause meets its condition starts the device anew, for a register write from the state with the writer's
halves dropped. -/
theorem exec_coldReset (why : ColdCause) (f : Fitted) (hs : Tidy s) (hp : s.dev.powered = true) (h : ColdResetMeets s why) :
    ∃ cause t, exec (.coldReset why f) s = .next (coldStart cause f t) := by
  change ∃ cause t, execColdReset why f s = _
  cases why with
  | sssRequest => exact ⟨1, s, by simp [execColdReset, hp, show s.sss.resetAsked = true from h]⟩
  | trialTakeover => exact ⟨2, s, by simp [execColdReset, hp, show s.sss.trialReset = true from h]⟩
  | tap => exact ⟨tapCause, s, by simp [execColdReset, hp, show s.tmx.resetDue = true from h]⟩
  | ioxWrite w code =>
    obtain ⟨ho, key⟩ := h
    exact ⟨3, dropHalf w Pg.iox s, by simp [execColdReset, hp, ownedWrite_of_owns _ hs ho, key]⟩
  | bothPerst =>
    obtain ⟨perst0, perst1, both⟩ := h
    exact ⟨4, s, by simp [execColdReset, hp, perst0, perst1, both]⟩

end
end Sys2Proof.Machine

open Sys2Proof Sys2Proof.Machine

/-- Settles O17: function and port resets leave the whole DEV unit alone, and every start of the device keeps the profile that
`survivors` resets. -/
theorem profileAcrossResets : Obligations.ProfileAcrossResets := by
  unfold Obligations.ProfileAcrossResets
  intro s hs
  refine ⟨?flr, ?port, ?power, ?cold⟩
  case flr =>
    intro f
    obtain ⟨u, run, same⟩ := exec_flr_dev s f
    exact ⟨u, run, by rw [same]⟩
  case port =>
    intro port kind
    obtain ⟨u, run, same⟩ := exec_portReset_dev s port kind
    exact ⟨u, run, by rw [same]⟩
  case power =>
    intro f off
    exact ⟨_, exec_powerOnReset s f off, start_profile _ _ _ _⟩
  case cold =>
    intro f why on meets
    have condition : ColdResetMeets s why := by cases why <;> exact meets
    obtain ⟨cause, t, run⟩ := exec_coldReset s why f hs on condition
    exact ⟨_, run, coldStart_profile _ _ _⟩

end

section
/-! PROOFS. CXL.mem accesses (O25): the check of an access, what a touch of its slab leaves, a full block stored without a code
table and its reader, and from these what CXL_MEM_WRITE and CXL_MEM_READ do. -/

namespace Sys2Proof.Machine

/-! Tables -/

/-- A run of writes reads back whole. -/
theorem tgets_tputs {α : Type} [DecidableEq α] {d : α} {m : Tbl α} (k : Nat) (vs : List α) (h : trising 0 m = true) :
    tgets d (tputs d m k vs) k vs.length = vs := by
  refine List.ext_getElem? fun i => ?_
  by_cases hi : i < vs.length
  · rw [getElem?_tgets d (trising_tputs vs k h) hi, tget_tputs_inside vs h hi, List.getElem?_eq_getElem hi]
  · rw [List.getElem?_eq_none (by simpa using hi), List.getElem?_eq_none (by simpa using hi)]

/-- Nothing is dropped where nothing is listed, in whatever order the keys stand. -/
theorem tdel_of_unlisted {α : Type} {t : Tbl α} {k : Nat} (h : tfind t k = none) : tdel t k = t := by
  induction t with
  | nil => rfl
  | cons e t ih =>
    unfold tfind at h
    unfold tdel
    split at h
    · cases h
    · split at h
      · next hne hlt => rw [if_pos hlt]
      · next hne hlt => rw [if_neg hlt, if_neg hne, ih h]

/-! On-die arrays without errors (R190) -/

section
variable {s : State}

theorem upsetAt_of_sound (hs : Sound s) (word : Nat) : upsetAt s word = none := by
  obtain ⟨clean, -⟩ := hs
  simp [upsetAt, clean]

theorem meetTray_of_sound (hs : Sound s) (slab b : Nat) : meetTray slab b s = s := by
  simp [meetTray, upsetAt_of_sound hs]

theorem meetBuffer_of_sound (hs : Sound s) (path : Nat) : meetBuffer path s = (false, s) := by
  simp [meetBuffer, upsetAt_of_sound hs]

theorem meetAccess_of_sound (hs : Sound s) (a : Ask) (slab : Nat) : meetAccess a slab s = s := by
  obtain ⟨clean, -⟩ := hs
  simp [meetAccess, clean]

theorem checkAccess_of_pass (hs : Sound s) {a : Ask} {slab : Nat} (h : accessCheck s a slab = none) :
    checkAccess a slab s = (none, s) := by
  simp [checkAccess, meetAccess_of_sound hs, h]

theorem checkAccess_of_refusal (hs : Sound s) {a : Ask} {slab : Nat} {r : Nat × Status} (h : accessCheck s a slab = some r) :
    checkAccess a slab s = (some r, noteDeny a.path r.1 a.fn a.ctx slab s) := by
  simp [checkAccess, meetAccess_of_sound hs, h]

end

/-! The check of a CXL.mem access (R46, R49, R370) -/

/-- Partitions are whole slabs, so an offset into one has the alignment of the DPA. -/
theorem dvd_of_findDpa {m : Nat} (hm : m ∣ 2 ^ 24) {l : List (Nat × Part)} {dpa n d : Nat} {p : Part}
    (h : findDpa l dpa = some (n, p, d)) (ha : m ∣ dpa) : m ∣ d := by
  induction l generalizing dpa with
  | nil => simp [findDpa] at h
  | cons q l ih =>
    simp only [findDpa] at h
    split at h
    · simp only [Option.some.injEq, Prod.mk.injEq] at h
      obtain ⟨-, -, rfl⟩ := h
      exact ha
    · exact ih h (Nat.dvd_sub ha (Nat.dvd_mul_left_of_dvd hm _))

section
variable {s : State} {port dpa : Nat} {write : Bool}

/-- The access of a CXL.mem request for a context. -/
def cxlAsk (s : State) (ctx : Nat) (write : Bool) : Ask := ⟨0, ctxFn s ctx, ctx, none, write, false⟩

theorem cxlCheck_of_outside (h : dpaOf s port dpa = none) :
    cxlCheck port dpa write s = .error (cxlDenied port none 3 noCtx 0 (noteDeny 0 3 (pfOf port) 0 0 s)) := by
  simp [cxlCheck, h]

section
variable {n d : Nat} {p : Part}

theorem cxlCheck_of_pass (hs : Sound s) (h : dpaOf s port dpa = some (n, p, d))
    (pass : accessCheck s (cxlAsk s p.ctx write) (p.first + d / 2 ^ 24) = none) :
    cxlCheck port dpa write s = .ok ((p.ctx, p.first + d / 2 ^ 24, d % 2 ^ 24), s) := by
  have check := checkAccess_of_pass hs pass
  unfold cxlAsk at check
  simp only [cxlCheck, h, check]

theorem cxlCheck_of_refusal (hs : Sound s) (h : dpaOf s port dpa = some (n, p, d)) {r : Nat × Status}
    (refusal : accessCheck s (cxlAsk s p.ctx write) (p.first + d / 2 ^ 24) = some r) :
    cxlCheck port dpa write s = .error (cxlDenied port (some n) r.1 p.ctx
      (blockIdx (p.first + d / 2 ^ 24) (d % 2 ^ 24 / 4096)) (noteDeny 0 r.1 (ctxFn s p.ctx) p.ctx (p.first + d / 2 ^ 24) s)) := by
  have check := checkAccess_of_refusal hs refusal
  unfold cxlAsk at check
  simp only [cxlCheck, h, check]

end

/-- An access passes inside a partition whose context may make it; it finds the slab and the byte that R46 gives. -/
theorem cxlCheck_ok_iff (hs : Sound s) {r : Nat × Nat × Nat} : cxlCheck port dpa write s = .ok (r, s) ↔
    ∃ n p d, dpaOf s port dpa = some (n, p, d) ∧ accessCheck s (cxlAsk s p.ctx write) (p.first + d / 2 ^ 24) = none ∧
      (p.ctx, p.first + d / 2 ^ 24, d % 2 ^ 24) = r := by
  constructor
  · intro h
    cases found : dpaOf s port dpa with
    | none => simp [cxlCheck_of_outside found] at h
    | some x =>
      obtain ⟨n, p, d⟩ := x
      cases check : accessCheck s (cxlAsk s p.ctx write) (p.first + d / 2 ^ 24) with
      | none =>
        rw [cxlCheck_of_pass hs found check] at h
        cases h
        exact ⟨n, p, d, rfl, check, rfl⟩
      | some refusal => simp [cxlCheck_of_refusal hs found check] at h
  · rintro ⟨n, p, d, found, check, rfl⟩
    exact cxlCheck_of_pass hs found check

/-- A refusal is recorded in the placement unit and raises an event; it touches nothing else. -/
theorem cxlCheck_error_frame (hs : Sound s) {t : State} (h : cxlCheck port dpa write s = .error t) :
    t = { s with pages := t.pages, router := t.router, ple := t.ple } := by
  cases found : dpaOf s port dpa with
  | none =>
    rw [cxlCheck_of_outside found] at h
    cases h
    rfl
  | some x =>
    obtain ⟨n, p, d⟩ := x
    cases check : accessCheck s (cxlAsk s p.ctx write) (p.first + d / 2 ^ 24) with
    | none => simp [cxlCheck_of_pass hs found check] at h
    | some refusal =>
      rw [cxlCheck_of_refusal hs found check] at h
      cases h
      rfl

end

/-! What an access leaves of what the check reads -/

/-- From `s` to `t` nothing changed that an access to the slab is checked against: of its entry, the heat at most. -/
structure SameView (slab : Nat) (s t : State) : Prop where
  dev : t.dev = s.dev
  hiu : t.hiu = s.hiu
  sss : t.sss = s.sss
  boot : t.boot = s.boot
  sram : t.sram = s.sram
  sec : t.sec = s.sec
  ple : t.ple = { s.ple with map := t.ple.map }
  entry : ∃ heat, mapAt t slab = { mapAt s slab with heat := heat }

section
variable {s t : State} {slab : Nat}

theorem SameView.trans {u : State} (h : SameView slab s t) (k : SameView slab t u) : SameView slab s u := by
  obtain ⟨heat, e⟩ := h.entry
  obtain ⟨heat', e'⟩ := k.entry
  exact ⟨k.dev.trans h.dev, k.hiu.trans h.hiu, k.sss.trans h.sss, k.boot.trans h.boot, k.sram.trans h.sram, k.sec.trans h.sec,
    by rw [k.ple, h.ple], heat', by rw [e', e]⟩

theorem sameView_emit (o : Output) : SameView slab s (emit o s) := ⟨rfl, rfl, rfl, rfl, rfl, rfl, rfl, _, rfl⟩

theorem SameView.cxlServed (h : SameView slab s t) (port : Nat) : cxlServed t port = cxlServed s port := by
  unfold Machine.cxlServed awake portUp hport
  rw [h.sss, h.boot, h.dev, h.hiu]

theorem SameView.dpaOf (h : SameView slab s t) (port dpa : Nat) : dpaOf t port dpa = dpaOf s port dpa := by
  unfold Machine.dpaOf portParts
  rw [h.ple]

theorem SameView.ctxFn (h : SameView slab s t) (c : Nat) : ctxFn t c = ctxFn s c := by
  unfold Machine.ctxFn ctxAt
  rw [h.ple]

theorem SameView.accessCheck (h : SameView slab s t) (a : Ask) : accessCheck t a slab = accessCheck s a slab := by
  obtain ⟨heat, e⟩ := h.entry
  unfold Machine.accessCheck keyDying fnLive fnExists portUp hport func rightOf ownerOf groupOwner memberOf ctxAt
  rw [e, h.hiu, h.sram, h.sec, h.ple]

end

/-- Who may write a slab may read it (R49): a write is refused on two grounds more than a read, a right of READ alone and a slab on
its way to FREE. -/
theorem accessCheck_read_of_write {s : State} {slab path fn ctx : Nat}
    (h : accessCheck s ⟨path, fn, ctx, none, true, false⟩ slab = none) :
    accessCheck s ⟨path, fn, ctx, none, false, false⟩ slab = none := by
  unfold accessCheck at h ⊢
  grind

/-- After an access to its slab that a write passed, a read of the same bytes passes. -/
theorem SameView.cxlCheck_read {s t : State} {slab port dpa ctx byte : Nat} (h : SameView slab s t) (hs : Sound s)
    (pass : cxlCheck port dpa true s = .ok ((ctx, slab, byte), s)) : cxlCheck port dpa false t = .ok ((ctx, slab, byte), t) := by
  have ht : Sound t := by rwa [Sound, h.sram]
  obtain ⟨n, p, d, found, check, r⟩ := (cxlCheck_ok_iff hs).1 pass
  cases r
  refine (cxlCheck_ok_iff ht).2 ⟨n, p, d, by rw [h.dpaOf, found], ?_, rfl⟩
  rw [h.accessCheck, cxlAsk, h.ctxFn]
  exact accessCheck_read_of_write check

/-! An access notes the heat of its slab (R110) -/

section
variable {s : State} (slab : Nat)

theorem tidy_touch (hs : Tidy s) : Tidy (touch slab s) := (keeps_touch slab s (.refl s)).tidy hs

theorem touch_frame : touch slab s =
    { s with cnts := (touch slab s).cnts, ple := { s.ple with map := (touch slab s).ple.map }, mge := (touch slab s).mge } := by
  unfold touch sampleTick
  dsimp only
  (repeat' split) <;> rfl

theorem touch_sent : (touch slab s).sent = s.sent := by rw [touch_frame]

theorem touch_mem : (touch slab s).mem = s.mem := by rw [touch_frame]

theorem touch_cdc : (touch slab s).cdc = s.cdc := by rw [touch_frame]

theorem touch_moves : (touch slab s).mge.moves = s.mge.moves := by
  unfold touch sampleTick
  dsimp only
  (repeat' split) <;> rfl

theorem mapAt_congr {t : State} (h : t.ple = s.ple) (k : Nat) : mapAt t k = mapAt s k := by
  unfold mapAt mapDefault
  rw [h]

theorem modMap_ple_congr {t : State} (h : t.ple = s.ple) (f : MapEntry → MapEntry) :
    (modMap slab f t).ple = (modMap slab f s).ple := by
  simp [modMap, setMap, mapAt_congr h, mapDefault, h]

theorem sampleTick_ple : (sampleTick s).ple = s.ple := by
  unfold sampleTick
  dsimp only
  (repeat' split) <;> rfl

/-- A sampled access raises the heat of its slab, up to 255. -/
def heated (e : MapEntry) : MapEntry := { e with heat := min 255 (e.heat + 1) }

theorem touch_ple : (touch slab s).ple = s.ple ∨ (touch slab s).ple = (modMap slab heated s).ple := by
  unfold touch
  dsimp only
  split
  · exact .inr (modMap_ple_congr slab (sampleTick_ple.trans rfl) heated)
  · exact .inl rfl

theorem mapAt_touch (hs : Tidy s) : ∃ heat, mapAt (touch slab s) slab = { mapAt s slab with heat := heat } := by
  rcases touch_ple slab with same | sampled
  · exact ⟨_, mapAt_congr same slab⟩
  · rw [mapAt_congr sampled, modMap, mapAt_setMap _ _ hs]
    exact ⟨_, rfl⟩

theorem sameView_touch (hs : Tidy s) : SameView slab s (touch slab s) := by
  have entry := mapAt_touch slab hs
  rw [touch_frame] at entry ⊢
  exact ⟨rfl, rfl, rfl, rfl, rfl, rfl, rfl, entry⟩

end

/-! Storing a full block without a code table (R68) at a home in T1 or T2 -/

/-- A block of zeros is stored as ZERO. -/
def storesZero (s : State) (data : List Byte) : Bool := zeroDetect s && data.all (fun x => decide (x = 0))

/-- The descriptor of a raw block (Table 03-4). -/
def rawDesc (format : Nat) (data : List Byte) : Desc :=
  { state := .normal, crumbs := 64, table := 0, format := format, crcA := crc32c data, copyB := crc32c data }

/-- The descriptor of a full block that is stored without a table. -/
def plainDesc (s : State) (format : Nat) (data : List Byte) : Desc :=
  if storesZero s data then { Desc.zero with format := format } else rawDesc format data

/-- The bytes that such a block puts into its home. -/
def plainBytes (s : State) (data : List Byte) : List Byte := if storesZero s data then [] else data

section
variable {s : State} {slab b format flags : Nat} {t : Tier} {data : List Byte}

theorem meetDesc_of_clean (ht : (mapAt s slab).tier = some t)
    (hp : (plantAt s (homeKey t (mapAt s slab).frame b)).descUe = false) : meetDesc slab b s = s := by
  simp [meetDesc, ht, hp]

/-- The block lies unsealed and uncoded, without errors, at home `hb` in T1 or T2. -/
structure PlainHome (s : State) (slab b : Nat) (t : Tier) (hb : Nat) : Prop where
  tier : (mapAt s slab).tier = some t
  dram : t ≠ .t3
  unsealed : (mapAt s slab).sealBit = false
  home : hb = homeKey t (mapAt s slab).frame b
  uncoded : codedTable (descAt s hb) = none
  plant : plantAt s hb = Plant.none

variable {hb : Nat}

theorem formOf_plain : formOf s false format none flags data =
    ({ plainDesc s format data with crcA := 0, copyB := 0 }, plainBytes s data, false) := by
  unfold formOf plainDesc rawDesc plainBytes storesZero
  dsimp only
  rw [Bool.not_false, Bool.true_and]
  split <;> rfl

/-- What goes with the bytes and the descriptor of a stored block: the errors in its first `n` crumbs, its dirty bit, its copy in
the tray cache, its flash poison and the time of its slab's last write. -/
def settleStored (slab b hb n : Nat) (s : State) : State :=
  let u := markDirty slab b (dropTray slab b (freshCrumbs hb n s))
  { u with fmg := { u.fmg with poisonRec := u.fmg.poisonRec.filter (fun k => decide (k ≠ blockIdx slab b)) },
           mge := { u.mge with lastWrite := tput 0 u.mge.lastWrite slab u.now } }

/-- The state with the bytes and the descriptor of such a block at their home. -/
def putPlain (hb format : Nat) (data : List Byte) (s : State) : State :=
  putHome hb (plainBytes s data) (setDesc hb (plainDesc s format data) s)

theorem storeBlock_plain (h : PlainHome s slab b t hb) :
    storeBlock slab b format none flags data s = countWrite { plainDesc s format data with crcA := 0, copyB := 0 } false
      (settleStored slab b hb (plainDesc s format data).crumbs (putPlain hb format data s)) := by
  obtain ⟨tier, -, unsealed, rfl, uncoded, plant⟩ := h
  have meet : meetDesc slab b s = s := meetDesc_of_clean tier (by rw [plant]; rfl)
  unfold storeBlock
  simp only [tier, meet, unsealed, uncoded, formOf_plain, Bool.false_eq_true, if_false]
  cases zero : storesZero s data with
  | true =>
    simp only [putPlain, plainDesc, plainBytes, zero, if_true]
    rfl
  | false =>
    simp only [putPlain, plainDesc, rawDesc, plainBytes, zero, Bool.false_eq_true, if_false]
    rfl

theorem countWrite_frame (d : Desc) (fallback : Bool) :
    countWrite d fallback s = { s with cnts := (countWrite d fallback s).cnts } := by
  unfold countWrite
  (repeat' split) <;> rfl

theorem freshCrumbs_frame (n : Nat) : freshCrumbs hb n s =
    { s with plants := (freshCrumbs hb n s).plants, cnts := (freshCrumbs hb n s).cnts, tfl := (freshCrumbs hb n s).tfl } := by
  unfold freshCrumbs
  dsimp only
  rfl

theorem settleStored_frame (n : Nat) : settleStored slab b hb n s =
    { s with plants := (freshCrumbs hb n s).plants, cnts := (freshCrumbs hb n s).cnts,
             tfl := (freshCrumbs hb n s).tfl, mge := (settleStored slab b hb n s).mge,
             cdc := { s.cdc with tray := tdel s.cdc.tray (blockIdx slab b) },
             fmg := { s.fmg with poisonRec := s.fmg.poisonRec.filter (fun k => decide (k ≠ blockIdx slab b)) } } := by
  unfold settleStored
  rw [freshCrumbs_frame]
  rfl

theorem plantAt_freshCrumbs (n : Nat) (hs : Tidy s) (h : plantAt s hb = Plant.none) :
    tget Plant.none (freshCrumbs hb n s).plants hb = Plant.none := by
  have same : (freshCrumbs hb n s).plants = (setPlant hb Plant.none s).plants := by
    unfold freshCrumbs
    dsimp only
    rw [h]
    rfl
  rw [same]
  exact plantAt_setPlant _ _ hs

theorem codedTable_plainDesc : codedTable (plainDesc s format data) = none := by
  unfold plainDesc
  split <;> rfl

section
variable (h : PlainHome s slab b t hb)
include h

theorem storeBlock_frame : storeBlock slab b format none flags data s =
    { s with mem := tputs 0 s.mem (hb * 4096) (plainBytes s data),
             descs := tput Desc.zero s.descs hb (plainDesc s format data),
             plants := (storeBlock slab b format none flags data s).plants,
             cnts := (storeBlock slab b format none flags data s).cnts,
             tfl := (storeBlock slab b format none flags data s).tfl,
             mge := (storeBlock slab b format none flags data s).mge,
             cdc := { s.cdc with tray := tdel s.cdc.tray (blockIdx slab b) },
             fmg := { s.fmg with poisonRec := s.fmg.poisonRec.filter (fun k => decide (k ≠ blockIdx slab b)) } } := by
  rw [storeBlock_plain h, countWrite_frame, settleStored_frame]
  rfl

theorem storeBlock_plants : (storeBlock slab b format none flags data s).plants =
    (freshCrumbs hb (plainDesc s format data).crumbs (putPlain hb format data s)).plants := by
  rw [storeBlock_plain h, countWrite_frame, settleStored_frame]

theorem storeBlock_sent : (storeBlock slab b format none flags data s).sent = s.sent := by rw [storeBlock_frame h]

theorem storeBlock_tray : (storeBlock slab b format none flags data s).cdc.tray = tdel s.cdc.tray (blockIdx slab b) := by
  rw [storeBlock_frame h]

theorem mapAt_storeBlock (k : Nat) : mapAt (storeBlock slab b format none flags data s) k = mapAt s k :=
  mapAt_congr (by rw [storeBlock_frame h]) k

theorem sameView_storeBlock : SameView slab s (storeBlock slab b format none flags data s) := by
  rw [storeBlock_frame h]
  exact ⟨rfl, rfl, rfl, rfl, rfl, rfl, rfl, _, rfl⟩

theorem descAt_storeBlock (hs : Tidy s) : descAt (storeBlock slab b format none flags data s) hb = plainDesc s format data := by
  rw [storeBlock_frame h]
  exact tget_tput_same _ _ (twf_trising hs.descs)

theorem plantAt_storeBlock (hs : Tidy s) : plantAt (storeBlock slab b format none flags data s) hb = Plant.none := by
  have tidy : Tidy (putPlain hb format data s) := (keeps_putHome _ _ _ (keeps_setDesc _ _ _ (.refl s))).tidy hs
  unfold plantAt
  rw [storeBlock_plants h]
  exact plantAt_freshCrumbs _ tidy h.plant

/-- A block of at most 4,096 bytes touches its home alone (R58). -/
theorem memOutside_storeBlock (hs : Tidy s) (hlen : data.length ≤ 4096) :
    MemOutside hb s (storeBlock slab b format none flags data s) := by
  intro a outside
  have fits : (plainBytes s data).length ≤ 4096 := by
    unfold plainBytes
    split
    · exact Nat.zero_le _
    · exact hlen
  rw [storeBlock_frame h]
  exact tget_tputs_outside _ (twf_trising hs.mem) (by omega)

end

/-! What a home stands for, and its reader -/

/-- The home of the block stands for `data`: it is ZERO, or raw with check values that fit. -/
structure HomeHolds (s : State) (slab b : Nat) (t : Tier) (hb : Nat) (data : List Byte) : Prop where
  home : PlainHome s slab b t hb
  unpoisoned : flashPoison s slab b = false
  format : (descAt s hb).format ≤ 8
  stands : (descAt s hb).state = .zero ∧ data = List.replicate 4096 0 ∨
    descAt s hb = rawDesc (descAt s hb).format data ∧ homeBytes s t (mapAt s slab).frame b = data

/-- A resident block that the tray cache does not hold is read from its home, which stands for `data`. -/
structure Readable (s : State) (slab b : Nat) (t : Tier) (hb : Nat) (data : List Byte) : Prop where
  resident : (mapAt s slab).state = .resident
  untrayed : tfind s.cdc.tray (blockIdx slab b) = none
  holds : HomeHolds s slab b t hb data

theorem readable_of_zeroBlock (hw : TakesWrites s slab t) (hz : ZeroBlock s slab b (homeKey t (mapAt s slab).frame b)) :
    Readable s slab b t (homeKey t (mapAt s slab).frame b) (List.replicate 4096 0) := by
  obtain ⟨resident, tier, dram, unsealed, -⟩ := hw
  obtain ⟨desc, plant, unpoisoned, untrayed⟩ := hz
  have home : PlainHome s slab b t (homeKey t (mapAt s slab).frame b) :=
    ⟨tier, dram, unsealed, rfl, by rw [desc]; rfl, plant⟩
  exact ⟨resident, untrayed, home, unpoisoned, by rw [desc]; exact Nat.zero_le _, .inl ⟨by rw [desc]; rfl, rfl⟩⟩

theorem homeHolds_length (h : HomeHolds s slab b t hb data) : data.length = 4096 := by
  rcases h.stands with ⟨-, rfl⟩ | ⟨-, rfl⟩
  · exact List.length_replicate
  · simp [homeBytes, h.home.dram]

/-- A home stands for what it stood for while its block and the placement of its slab stay. -/
theorem HomeHolds.congr {u : State} (h : HomeHolds s slab b t hb data) (view : SameView slab s u) (mem : u.mem = s.mem)
    (descs : u.descs = s.descs) (plants : u.plants = s.plants) (fmg : u.fmg = s.fmg) : HomeHolds u slab b t hb data := by
  obtain ⟨heat, entry⟩ := view.entry
  obtain ⟨⟨tier, dram, unsealed, home, uncoded, plant⟩, unpoisoned, format, stands⟩ := h
  have desc : descAt u hb = descAt s hb := by rw [descAt, descs, descAt]
  have plain : PlainHome u slab b t hb := ⟨by rw [entry, tier], dram, by rw [entry, unsealed], by rw [entry, home],
    by rw [desc, uncoded], by rw [plantAt, plants, ← plantAt, plant]⟩
  refine ⟨plain, by rw [flashPoison, fmg, ← flashPoison, unpoisoned], by rw [desc]; exact format, ?_⟩
  rw [desc, entry]
  simpa [homeBytes, dram, mem, -List.reduceReplicate] using stands

theorem homeBytes_storeBlock (hs : Tidy s) (h : PlainHome s slab b t hb) (hlen : data.length = 4096)
    (hz : storesZero s data = false) :
    homeBytes (storeBlock slab b format none flags data s) t (mapAt s slab).frame b = data := by
  have bytes : plainBytes s data = data := by simp [plainBytes, hz]
  rw [homeBytes, if_neg h.dram, ← h.home, storeBlock_frame h, bytes, ← hlen]
  exact tgets_tputs _ _ (twf_trising hs.mem)

theorem homeHolds_storeBlock (hs : Tidy s) (h : PlainHome s slab b t hb) (hf : format ≤ 8) (hlen : data.length = 4096) :
    HomeHolds (storeBlock slab b format none flags data s) slab b t hb data := by
  have entry := mapAt_storeBlock (format := format) (flags := flags) (data := data) h slab
  have desc := descAt_storeBlock (format := format) (flags := flags) (data := data) h hs
  have plant := plantAt_storeBlock (format := format) (flags := flags) (data := data) h hs
  have home : PlainHome (storeBlock slab b format none flags data s) slab b t hb :=
    ⟨by rw [entry, h.tier], h.dram, by rw [entry, h.unsealed], by rw [entry, h.home],
      by rw [desc, codedTable_plainDesc], plant⟩
  refine ⟨home, ?unpoisoned, ?format, ?stands⟩
  case unpoisoned =>
    rw [storeBlock_frame h]
    simp [flashPoison]
  case format =>
    rw [desc, plainDesc]
    split <;> exact hf
  case stands =>
    rw [desc, entry, plainDesc]
    cases zero : storesZero s data with
    | true =>
      have zeros := zero
      simp only [storesZero, Bool.and_eq_true, List.all_eq_true, decide_eq_true_eq] at zeros
      exact .inl ⟨rfl, List.eq_replicate_iff.2 ⟨hlen, zeros.2⟩⟩
    | false => exact .inr ⟨rfl, homeBytes_storeBlock hs h hlen zero⟩

theorem decodeDesc_raw {format : Nat} (hf : format ≤ 8) (home : List Byte) :
    decodeDesc s (rawDesc format data) home = .ok home := by
  simp [decodeDesc, consistent, codedTable, rawDesc, hf]

theorem noteCorrections_of_clean (hp : plantAt s hb = Plant.none) (frame crumbs : Nat) :
    noteCorrections t frame hb crumbs s = s := by
  simp [noteCorrections, hp, Plant.none]

theorem checkSix_raw {d : Det} {format frame : Nat} (hd : d.kind ≠ 0) (hp : plantAt s hb = Plant.none)
    (hc : descAt s hb = rawDesc format data) : checkSix d t slab b frame hb data s = (.clean data false, s) := by
  simp [checkSix, hp, hc, hd, rawDesc, Plant.none]

/-- A reader of the block gets what its home stands for. -/
theorem readHome_of_homeHolds {d : Det} (hd : d.kind ≠ 0) (h : HomeHolds s slab b t hb data) :
    readHome d slab b s = (.clean data false, s) := by
  obtain ⟨⟨tier, dram, -, rfl, -, plant⟩, unpoisoned, format, ⟨zero, rfl⟩ | ⟨raw, bytes⟩⟩ := h
  · simp [readHome, tier, plant, Plant.none, unpoisoned, zero, -List.reduceReplicate]
  · have corrected := noteCorrections_of_clean (t := t) plant (mapAt s slab).frame 64
    have checked := checkSix_raw (t := t) (slab := slab) (b := b) (frame := (mapAt s slab).frame) hd plant raw
    have decoded := decodeDesc_raw (s := s) (data := data) format data
    rw [← raw] at decoded
    have state : (descAt s (homeKey t (mapAt s slab).frame b)).state = .normal := by rw [raw]; rfl
    have crumbs : (descAt s (homeKey t (mapAt s slab).frame b)).crumbs = 64 := by rw [raw]; rfl
    have uncoded : codedTable (descAt s (homeKey t (mapAt s slab).frame b)) = none := by rw [raw]; rfl
    simp [readHome, tier, dram, plant, Plant.none, unpoisoned, state, crumbs, uncoded, countRebuild, corrected, bytes,
      decoded, checked]

theorem fetchBlock_of_homeHolds {d : Det} (hd : d.kind ≠ 0) (h : HomeHolds s slab b t hb data) :
    fetchBlock d slab b s = (.clean data false, s) := by
  simp [fetchBlock, readHome_of_homeHolds hd h, h.home.unsealed]

theorem serviceRead_of_readable {d : Det} (hd : d.kind ≠ 0) (hs : Sound s) (h : Readable s slab b t hb data) :
    serviceRead d slab b s = (.clean data false,
      if trayEnabled s then trayFill slab b data (count Pg.cdc 0xE30 s) else count Pg.cdc 0xE30 s) := by
  obtain ⟨resident, untrayed, holds⟩ := h
  have backed : readsZero (mapAt s slab) = false := by simp [readsZero, resident, holds.home.tier]
  have fetched := fetchBlock_of_homeHolds hd holds
  cases on : trayEnabled s <;>
    simp [serviceRead, meetTray_of_sound hs, backed, untrayed, fetched, holds.home.unsealed, on]

/-! Writes within a block (R70) -/

theorem overlay_length {base : List Byte} {off : Nat} (h : off + data.length ≤ base.length) :
    (overlay base data off).length = base.length := by
  simp [overlay]
  omega

/-- What was laid over a block is found there. -/
theorem slice_overlay {base : List Byte} {off : Nat} (h : off ≤ base.length) :
    ((overlay base data off).drop off).take data.length = data := by
  simp [overlay, Nat.min_eq_left h]

theorem storeWrite_of_plainHome (h : PlainHome s slab b t hb) :
    storeWrite slab b data s = storeBlock slab b (descAt s hb).format none 0 data s := by
  have old : blockDesc s slab b = descAt s hb := by simp [blockDesc, h.tier, h.home]
  have table : streamTable s slab (descAt s hb) = none := by simp [streamTable, h.uncoded]
  simp [storeWrite, old, table, scopeFlag]

/-- A write to an uncoded block stores the block with the write laid over it, whether in full or merged. -/
theorem writeInPlace_of_homeHolds {d : Det} {full : Bool} {off : Nat} {old : List Byte} (hd : d.kind ≠ 0)
    (h : HomeHolds s slab b t hb old) :
    writeInPlace d full slab b off data s = (.ok, storeBlock slab b (descAt s hb).format none 0 (overlay old data off) s) := by
  unfold writeInPlace
  split
  · next whole =>
    simp only [Bool.and_eq_true, decide_eq_true_eq, and_assoc] at whole
    obtain ⟨-, rfl, hlen⟩ := whole
    have meet : meetDesc slab b s = s := meetDesc_of_clean h.home.tier (by rw [← h.home.home, h.home.plant]; rfl)
    have covered : overlay old data 0 = data := by simp [overlay, homeHolds_length h, hlen]
    rw [meet, covered, storeWrite_of_plainHome h.home]
  · rw [fetchBlock_of_homeHolds hd h]
    dsimp only
    rw [storeWrite_of_plainHome h.home]

theorem prepareWrite_of_takesWrites (h : TakesWrites s slab t) : prepareWrite slab s = (true, s) := by
  obtain ⟨-, tier, dram, -, still⟩ := h
  simp [prepareWrite, tier, dram, still]

/-- A write to a slab that takes writes is applied and answered at once. -/
theorem offerWrite_of_homeHolds {w : HeldStore} {old : List Byte} (hlt : b < 4096) (hw : w.block = blockIdx slab b)
    (ht : TakesWrites s slab t) (h : HomeHolds s slab b t hb old) :
    offerWrite w s = ackWrite w.src (storeBlock slab b (descAt s hb).format none 0 (overlay old w.data w.off) s) := by
  have slabOf : w.block / 4096 = slab := by rw [hw, blockIdx]; omega
  have blockOf : w.block % 4096 = b := by rw [hw, blockIdx]; omega
  have stored := fun fn => writeInPlace_of_homeHolds (d := Det.reader fn) (full := mayFull w.src) (off := w.off)
    (data := w.data) Nat.one_ne_zero h
  simp only [offerWrite, slabOf, prepareWrite_of_takesWrites ht, applyWrite, blockOf, stored]

end

/-! The rows CXL_MEM_READ and CXL_MEM_WRITE -/

theorem emit_sent_append (o : Output) (s : State) : (emit o s).sent = s.sent ++ [o] := rfl

theorem ackWrite_cxl (port dpa : Nat) (s : State) : ackWrite (.cxl port dpa) s = emit (.cxlWriteDone port dpa true) s := rfl

section
variable {s : State} {port dpa : Nat} {data : List Byte}

theorem exec_cxlMemRead : exec (.cxlMemRead port dpa) s = execCxlMemRead port dpa s := rfl

theorem exec_cxlMemWrite : exec (.cxlMemWrite port dpa data) s = execCxlMemWrite port dpa data s := rfl

theorem exec_cxlMemRead_unserved (hp : port < 2) (h : cxlServed s port = false) :
    exec (.cxlMemRead port dpa) s = .next (poisonCxl port (dpa / 64 * 64) s) := by
  simp [exec_cxlMemRead, execCxlMemRead, Nat.not_le.2 hp, h]

theorem exec_cxlMemRead_refused (hp : port < 2) (h : cxlServed s port = true) {x : State}
    (refused : cxlCheck port (dpa / 64 * 64) false s = .error x) :
    exec (.cxlMemRead port dpa) s = .next (poisonCxl port (dpa / 64 * 64) x) := by
  simp [exec_cxlMemRead, execCxlMemRead, Nat.not_le.2 hp, h, refused]

theorem exec_cxlMemRead_passed (hp : port < 2) (h : cxlServed s port = true) {ctx slab byte : Nat}
    (pass : cxlCheck port (dpa / 64 * 64) false s = .ok ((ctx, slab, byte), s)) :
    exec (.cxlMemRead port dpa) s = .next (cxlServe port (dpa / 64 * 64) slab byte (touch slab s)) := by
  simp [exec_cxlMemRead, execCxlMemRead, Nat.not_le.2 hp, h, pass]

section
variable (hlen : data.length = 64)
include hlen

theorem exec_cxlMemWrite_unserved (hp : port < 2) (h : cxlServed s port = false) :
    exec (.cxlMemWrite port dpa data) s = .next (emit (.cxlWriteDone port (dpa / 64 * 64) false) s) := by
  simp [exec_cxlMemWrite, execCxlMemWrite, Nat.not_le.2 hp, hlen, h]

theorem exec_cxlMemWrite_refused (hp : port < 2) (h : cxlServed s port = true) {x : State}
    (refused : cxlCheck port (dpa / 64 * 64) true s = .error x) :
    exec (.cxlMemWrite port dpa data) s = .next (emit (.cxlWriteDone port (dpa / 64 * 64) false) x) := by
  simp [exec_cxlMemWrite, execCxlMemWrite, Nat.not_le.2 hp, hlen, h, refused]

/-- A write that passes is offered to its block in the state that its access leaves. -/
theorem exec_cxlMemWrite_passed (hp : port < 2) (h : cxlServed s port = true) {ctx slab byte : Nat}
    (pass : cxlCheck port (dpa / 64 * 64) true s = .ok ((ctx, slab, byte), s)) :
    exec (.cxlMemWrite port dpa data) s = .next (offerWrite
      { src := .cxl port (dpa / 64 * 64), ctx := ctx, block := blockIdx slab (byte / 4096), off := byte % 4096, data := data,
        since := s.now } (touch slab s)) := by
  simp [exec_cxlMemWrite, execCxlMemWrite, Nat.not_le.2 hp, hlen, h, pass]

end

/-- A CXL.mem access covers 64 bytes at their alignment within its slab. -/
theorem byte_of_cxlCheck (hs : Sound s) {write : Bool} {ctx slab byte : Nat}
    (pass : cxlCheck port (dpa / 64 * 64) write s = .ok ((ctx, slab, byte), s)) : byte < 2 ^ 24 ∧ 64 ∣ byte := by
  obtain ⟨n, p, d, found, -, r⟩ := (cxlCheck_ok_iff hs).1 pass
  cases r
  have aligned : 64 ∣ d := dvd_of_findDpa (by decide) found (Nat.dvd_mul_left ..)
  omega

/-- A served access gets the 64 bytes of what its home stands for, and memory stays. -/
theorem cxlServe_of_readable {slab byte hb : Nat} {t : Tier} (hs : Sound s) (h : Readable s slab (byte / 4096) t hb data) :
    (cxlServe port dpa slab byte s).sent = s.sent ++ [.cxlData port dpa ((data.drop (byte % 4096)).take 64)] ∧
      (cxlServe port dpa slab byte s).mem = s.mem := by
  have served := serviceRead_of_readable (d := Det.reader (pfOf port)) Nat.one_ne_zero hs h
  have sound : Sound (if trayEnabled s then trayFill slab (byte / 4096) data (count Pg.cdc 0xE30 s)
      else count Pg.cdc 0xE30 s) := by
    split <;> exact hs
  simp only [cxlServe, served, meetBuffer_of_sound sound]
  split <;> exact ⟨rfl, rfl⟩

theorem readable_touch {slab b hb : Nat} {t : Tier} (hs : Tidy s) (h : Readable s slab b t hb data) :
    Readable (touch slab s) slab b t hb data := by
  have view := sameView_touch slab hs
  obtain ⟨heat, entry⟩ := view.entry
  refine ⟨by rw [entry, h.resident], by rw [touch_cdc, h.untrayed], h.holds.congr view ?_ ?_ ?_ ?_⟩ <;> rw [touch_frame]

theorem readable_emit {slab b hb : Nat} {t : Tier} (o : Output) (h : Readable s slab b t hb data) :
    Readable (emit o s) slab b t hb data :=
  ⟨h.resident, h.untrayed, h.holds.congr (sameView_emit o) rfl rfl rfl rfl⟩

theorem readable_storeBlock {slab b hb format flags : Nat} {t : Tier} {old : List Byte} (hs : Tidy s)
    (h : Readable s slab b t hb old) (hf : format ≤ 8) (hlen : data.length = 4096) :
    Readable (storeBlock slab b format none flags data s) slab b t hb data := by
  have home := h.holds.home
  refine ⟨?_, ?_, homeHolds_storeBlock hs home hf hlen⟩
  · rw [mapAt_storeBlock home, h.resident]
  · rw [storeBlock_tray home, tdel_of_unlisted h.untrayed, h.untrayed]

theorem takesWrites_touch {slab : Nat} {t : Tier} (hs : Tidy s) (h : TakesWrites s slab t) :
    TakesWrites (touch slab s) slab t := by
  obtain ⟨heat, entry⟩ := mapAt_touch slab hs
  obtain ⟨resident, tier, dram, unsealed, still⟩ := h
  exact ⟨by rw [entry, resident], by rw [entry, tier], dram, by rw [entry, unsealed],
    by rw [moveOf, touch_moves, ← moveOf, still]⟩

/-- A write that passes leaves its block standing for the block with the write laid over it, touches memory in its home alone, and
leaves what an access is checked against. -/
theorem exec_cxlMemWrite_stores {ctx slab byte hb : Nat} {t : Tier} {old : List Byte} (hs : Tidy s) (hp : port < 2)
    (hlen : data.length = 64) (served : cxlServed s port = true)
    (pass : cxlCheck port (dpa / 64 * 64) true s = .ok ((ctx, slab, byte), s))
    (hw : TakesWrites s slab t) (h : Readable s slab (byte / 4096) t hb old) :
    ∃ u, exec (.cxlMemWrite port dpa data) s = .next u ∧ u.sent = s.sent ++ [.cxlWriteDone port (dpa / 64 * 64) true] ∧
      MemOutside hb s u ∧ SameView slab s u ∧ Tidy u ∧
      Readable u slab (byte / 4096) t hb (overlay old data (byte % 4096)) := by
  obtain ⟨inSlab, aligned⟩ := byte_of_cxlCheck hs.sound pass
  have tidy := tidy_touch slab hs
  have readable := readable_touch hs h
  have home := readable.holds.home
  have length := homeHolds_length readable.holds
  have full : (overlay old data (byte % 4096)).length = 4096 := by rw [overlay_length (by omega), length]
  have run := exec_cxlMemWrite_passed hlen hp served pass
  rw [offerWrite_of_homeHolds (by omega) rfl (takesWrites_touch hs hw) readable.holds, ackWrite_cxl] at run
  refine ⟨_, run, ?sent, ?outside, ?view, ?tidy, ?readable⟩
  case sent => rw [emit_sent_append, storeBlock_sent home, touch_sent]
  case outside =>
    intro a ha
    rw [emit_mem, memOutside_storeBlock home tidy (Nat.le_of_eq full) a ha, touch_mem]
  case view => exact (sameView_touch slab hs).trans ((sameView_storeBlock home).trans (sameView_emit _))
  case tidy => exact (keeps_emit _ _ (keeps_storeBlock _ _ _ _ _ _ _ (.refl _))).tidy tidy
  case readable => exact readable_emit _ (readable_storeBlock tidy readable readable.holds.format full)

end
end Sys2Proof.Machine

open Sys2Proof Sys2Proof.Machine

/-- Settles O25: a write leaves its home standing for the block with the write laid over it and keeps what the check of the read
meets; a refusal leaves memory, descriptors and what was sent before. -/
theorem cxlMemAccess : Obligations.CxlMemAccess := by
  unfold Obligations.CxlMemAccess
  refine ⟨?stored, ?refused⟩
  case stored =>
    intro s port dpa ctx slab byte t data hs hp hlen served pass hw hz
    obtain ⟨u, write, sent, outside, view, tidy, readable⟩ :=
      exec_cxlMemWrite_stores hs hp hlen served pass hw (readable_of_zeroBlock hw hz)
    have read := exec_cxlMemRead_passed hp ((view.cxlServed port).trans served) (view.cxlCheck_read hs.sound pass)
    obtain ⟨answer, memory⟩ := cxlServe_of_readable (port := port) (dpa := dpa / 64 * 64) (tidy_touch slab tidy).sound
      (readable_touch tidy readable)
    have slice := slice_overlay (base := List.replicate 4096 0) (off := byte % 4096) (data := data)
      (by rw [List.length_replicate]; omega)
    rw [hlen] at slice
    exact ⟨u, _, write, sent, outside, read, by rw [answer, touch_sent, slice], by rw [memory, touch_mem]⟩
  case refused =>
    intro s port dpa data hs hp hlen why
    cases served : cxlServed s port with
    | false =>
      exact ⟨⟨_, exec_cxlMemRead_unserved hp served, rfl, rfl, rfl⟩,
        ⟨_, exec_cxlMemWrite_unserved hlen hp served, rfl, rfl, rfl⟩⟩
    | true =>
      obtain ⟨x, y, read, write⟩ := why.resolve_left (by simp [served])
      refine ⟨⟨_, exec_cxlMemRead_refused hp served read, ?_⟩, ⟨_, exec_cxlMemWrite_refused hlen hp served write, ?_⟩⟩
      · rw [cxlCheck_error_frame hs read]
        exact ⟨rfl, rfl, rfl⟩
      · rw [cxlCheck_error_frame hs write]
        exact ⟨rfl, rfl, rfl⟩

end

section
/-! PROOFS. Code tables on their way out (O30): the rules of the operations on a table's entry, and from them what RETIRE,
TABLE_RETIRE_ACK, PEER_ACK_TIMEOUT and BG_RECODE_WALK do. -/

namespace Sys2Proof.Machine

/-! Tables -/

/-- After every listed entry is changed, a key reads the change of its entry. -/
theorem tget_tmap {α : Type} [DecidableEq α] {d : α} {t : Tbl α} (f : Nat → α → α) (k : Nat) (h : twf d t = true) :
    tget d (tmap d f t) k = ((tfind t k).map (f k)).getD d := by
  have changed : ∀ v, tfind (tmap d f t) k = some v ↔ (∃ a, tfind t k = some a ∧ f k a = v) ∧ v ≠ d := fun v => by
    rw [tfind_iff (twf_trising (twf_tmap f h))]
    simp only [tfind_iff (twf_trising h), tmap, List.mem_filter, List.mem_map, Prod.mk.injEq, Prod.exists, decide_eq_true_eq]
    exact and_congr_left' ⟨fun ⟨_, a, listed, key, value⟩ => ⟨a, key ▸ listed, key ▸ value⟩,
      fun ⟨a, listed, value⟩ => ⟨k, a, listed, rfl, value⟩⟩
  unfold tget
  cases found : tfind (tmap d f t) k with
  | some v =>
    obtain ⟨⟨a, listed, rfl⟩, -⟩ := (changed v).1 found
    simp [listed]
  | none =>
    cases listed : tfind t k with
    | none => rfl
    | some a =>
      by_cases dropped : f k a = d
      · simp [dropped]
      · rw [(changed _).2 ⟨⟨a, listed, rfl⟩, dropped⟩] at found
        cases found

/-- To list the same value again changes nothing. -/
theorem tins_tins_same {α : Type} (t : Tbl α) (k : Nat) (v : α) : tins (tins t k v) k v = tins t k v := by
  induction t with
  | nil => simp [tins]
  | cons e t ih =>
    rcases Nat.lt_trichotomy k e.1 with below | rfl | above
    · simp [tins, below]
    · simp [tins]
    · simp [tins, Nat.lt_asymm above, Nat.ne_of_gt above, ih]

theorem tput_tput_same {α : Type} [DecidableEq α] {d : α} {t : Tbl α} (k : Nat) (v : α) (h : trising 0 t = true) :
    tput d (tput d t k v) k v = tput d t k v := by
  unfold tput
  split
  · exact tdel_of_unlisted (tfind_tdel_same h k)
  · exact tins_tins_same t k v

theorem tget_of_mem_tkeys {α : Type} {d : α} {t : Tbl α} {p : Nat → α → Bool} {k : Nat} (h : trising 0 t = true)
    (hk : k ∈ tkeys p t) : p k (tget d t k) = true := by
  simp only [tkeys, List.mem_map, List.mem_filter, Prod.exists, exists_and_right, exists_eq_right] at hk
  obtain ⟨v, listed, holds⟩ := hk
  rw [tget, (tfind_iff h).2 listed]
  exact holds

section
variable {s : State} {id : Nat}

theorem tidy_setTable (e : TableEnt) (hs : Tidy s) : Tidy (setTable id e s) := (keeps_setTable id e s (.refl s)).tidy hs

theorem setTable_setTable_same (e : TableEnt) (hs : Tidy s) : setTable id e (setTable id e s) = setTable id e s := by
  simp [setTable, tput_tput_same _ _ (twf_trising hs.tables)]

theorem tableAt_congr {t : State} (h : t.ppu.tables = s.ppu.tables) (j : Nat) : tableAt t j = tableAt s j := by
  rw [tableAt, h, tableAt]

/-! Retirement of a table (Table 04-1) -/

/-- A table on its way out that blocks name stays out of QUARANTINE. -/
theorem settleTable_referenced (hl : (tableAt s id).state ≠ .live) (hr : 0 < (tableAt s id).refs) :
    settleTable id s = setTable id (tableAt s id) s := by
  simp [settleTable, hl, Nat.ne_of_gt hr]

/-- The entry of a LIVE table that blocks name, once it is retired. -/
def retired (e : TableEnt) : TableEnt :=
  if e.pins = 0 then { e with state := .retiring, pending := false } else { e with pending := true }

theorem retireTable_referenced (hs : Tidy s) (hl : (tableAt s id).state = .live) (hr : 0 < (tableAt s id).refs) :
    retireTable id s = setTable id (retired (tableAt s id)) s := by
  unfold retireTable
  dsimp only
  rw [if_pos hl]
  split
  · next unpinned =>
    have entry : retired (tableAt s id) = { tableAt s id with state := .retiring, pending := false } := if_pos unpinned
    have stored := tableAt_setTable id (retired (tableAt s id)) hs
    rw [← entry, settleTable_referenced (by rw [stored, entry]; simp) (by rw [stored, entry]; exact hr), stored,
      setTable_setTable_same _ hs]
  · next pinned =>
    have entry : retired (tableAt s id) = { tableAt s id with pending := true } := if_neg pinned
    rw [entry]

/-- RETIRE of a device table of the claim holder's port. -/
theorem exec_retire_owner {w : Nat} (hs : Tidy s) (ho : Owns s w Pg.ppu) (hid : isDeviceId id = true)
    (hport : fnPort (ctxFn s (tableAt s id).owner) = fnPort w) (hl : (tableAt s id).state ≠ .free) :
    exec (.retire w id) s = .next (retireTable id (dropHalf w Pg.ppu s)) := by
  change Host.Outcome.next (ownedWrite w Pg.ppu _ s) = _
  have port : fnPort (ctxFn (dropHalf w Pg.ppu s) (tableAt (dropHalf w Pg.ppu s) id).owner) = fnPort w := hport
  have taken : (tableAt (dropHalf w Pg.ppu s) id).state ≠ .free := hl
  rw [ownedWrite_of_owns _ hs ho]
  simp [hid, port, taken]

/-! The release of tables in QUARANTINE (R99) -/

theorem releaseTables_frame :
    releaseTables s = { s with cnts := (releaseTables s).cnts, ppu := { s.ppu with tables := (releaseTables s).ppu.tables } } := by
  have freed (l : List Nat) : l.foldl (fun s id => setTable id TableEnt.free s) s =
      { s with ppu := { s.ppu with tables := (l.foldl (fun s id => setTable id TableEnt.free s) s).ppu.tables } } :=
    List.foldlRecOn l _ (motive := fun t : State => t = { s with ppu := { s.ppu with tables := t.ppu.tables } }) rfl
      fun t h k _ => by rw [h]; rfl
  unfold releaseTables
  dsimp only
  rw [freed]
  rfl

theorem releaseTables_mem : (releaseTables s).mem = s.mem := by rw [releaseTables_frame]

theorem releaseTables_descs : (releaseTables s).descs = s.descs := by rw [releaseTables_frame]

theorem releaseTables_fports : (releaseTables s).fports = s.fports := by rw [releaseTables_frame]

/-- A table keeps its entry, or it was in QUARANTINE without holders and is FREE. -/
theorem tableAt_releaseTables (hs : Tidy s) (id : Nat) : tableAt (releaseTables s) id = tableAt s id ∨
    tableAt (releaseTables s) id = TableEnt.free ∧ (tableAt s id).peers = [] := by
  have freed (l : List Nat) (hl : ∀ k ∈ l, (tableAt s k).peers = []) :
      tableAt (l.foldl (fun s id => setTable id TableEnt.free s) s) id = tableAt s id ∨
        tableAt (l.foldl (fun s id => setTable id TableEnt.free s) s) id = TableEnt.free ∧ (tableAt s id).peers = [] := by
    refine (List.foldlRecOn l _ (motive := fun t => Tidy t ∧
      (tableAt t id = tableAt s id ∨ tableAt t id = TableEnt.free ∧ (tableAt s id).peers = [])) ⟨hs, .inl rfl⟩ ?_).2
    rintro t ⟨tidy, entry⟩ k hk
    refine ⟨tidy_setTable _ tidy, ?_⟩
    by_cases same : id = k
    · subst same
      exact .inr ⟨tableAt_setTable _ _ tidy, hl _ hk⟩
    · rwa [tableAt_setTable_ne _ _ tidy same]
  refine freed _ fun k hk => ?_
  have holds := tget_of_mem_tkeys (d := TableEnt.free) (twf_trising hs.tables) hk
  simp only [Bool.and_eq_true, List.isEmpty_iff] at holds
  exact holds.2

/-- The entry without a port among the holders of its table. -/
def withoutPeer (p : Nat) (e : TableEnt) : TableEnt := { e with peers := e.peers.filter (fun q => decide (q ≠ p)) }

theorem not_mem_withoutPeer (p : Nat) (e : TableEnt) : p ∉ (withoutPeer p e).peers := by simp [withoutPeer]

/-- A port leaves other holders behind, unless it was the only one. -/
theorem withoutPeer_peers_ne_nil {p : Nat} {e : TableEnt} (hp : p ∈ e.peers) (hd : e.peers.Nodup) (hn : e.peers ≠ [p]) :
    (withoutPeer p e).peers ≠ [] := by
  intro empty
  have only : ∀ q ∈ e.peers, q = p := by simpa [withoutPeer] using empty
  have all : e.peers = List.replicate e.peers.length p := List.eq_replicate_iff.2 ⟨rfl, only⟩
  rw [all, List.nodup_replicate] at hd
  have one : e.peers.length = 1 := Nat.le_antisymm hd (List.length_pos_of_mem hp)
  rw [one] at all
  exact hn all

end

/-! Packets of a fabric port (R328, R330) -/

/-- Beside what was sent, the counters and the fabric ports, the states are the same. -/
def PortsOnly (s t : State) : Prop := t = { s with sent := t.sent, cnts := t.cnts, fports := t.fports }

section
variable {s t : State}

theorem PortsOnly.trans {u : State} (h : PortsOnly s t) (k : PortsOnly t u) : PortsOnly s u := by
  refine Eq.trans k ?_
  rw [h]

theorem PortsOnly.ppu (h : PortsOnly s t) : t.ppu = s.ppu := congrArg (·.ppu) h

theorem PortsOnly.mem (h : PortsOnly s t) : t.mem = s.mem := congrArg (·.mem) h

theorem PortsOnly.descs (h : PortsOnly s t) : t.descs = s.descs := congrArg (·.descs) h

theorem portsOnly_setFport (p : Nat) (v : FPort) : PortsOnly s (setFport p v s) := rfl

theorem portsOnly_countBy (p off n : Nat) : PortsOnly s (countBy p off n s) := rfl

theorem portsOnly_sendLink (p : Nat) (m : LinkMsg) : PortsOnly s (sendLink p m s) := rfl

end

section
variable {s : State} (port : Nat)

theorem portsOnly_rxPacket (type vl len : Nat) : PortsOnly s (rxPacket port type vl len s) := by
  unfold rxPacket
  dsimp only
  split
  · exact .trans (portsOnly_setFport _ _) (.trans (portsOnly_countBy _ _ _) (portsOnly_sendLink _ _))
  · exact .trans (portsOnly_setFport _ _) (portsOnly_countBy _ _ _)

theorem tableAt_rxPacket (type vl len id : Nat) : tableAt (rxPacket port type vl len s) id = tableAt s id :=
  tableAt_congr (by rw [(portsOnly_rxPacket port type vl len).ppu]) id

theorem tidy_rxPacket (type vl len : Nat) (hs : Tidy s) : Tidy (rxPacket port type vl len s) :=
  (keeps_rxPacket port type vl len s (.refl s)).tidy hs

theorem tidy_modFport (f : FPort → FPort) (hs : Tidy s) : Tidy (modFport port f s) := (keeps_modFport port f s (.refl s)).tidy hs

theorem arrive_of_arrives {src : Nat} (h : Arrives s port src) (type vl len : Nat) (body : State → State) :
    arrive port type src vl len body s = body (rxPacket port type vl len s) := by
  obtain ⟨bound, up, own⟩ := h
  have admitted : ((fportAt s port).partner.accelerator && decide ((fportAt s port).partner.dev ≠ src)) = false := by
    rcases own with plain | same
    · simp [plain]
    · simp [same]
  rw [arrive, if_neg (by simp [bound, up])]
  simp only [admitted, Bool.false_eq_true, if_false]

end

/-! TABLE_RETIRE_ACK and PEER_ACK_TIMEOUT (R104, R105) -/

section
variable {s : State} (p : Nat)

/-- The acknowledgement of table `id` is no longer due from a port. -/
def ackTaken (id : Nat) (v : FPort) : FPort := { v with acksDue := v.acksDue.filter (fun a => decide (a.1 ≠ id)) }

/-- The state after an acknowledgement in time, before tables return to FREE. -/
def ackNoted (id : Nat) (s : State) : State := setTable id (withoutPeer p (tableAt s id)) (modFport p (ackTaken id) s)

theorem ackNoted_mem (id : Nat) : (ackNoted p id s).mem = s.mem := rfl

theorem ackNoted_descs (id : Nat) : (ackNoted p id s).descs = s.descs := rfl

theorem exec_tableRetireAck {id : Nat} (hw : awake s = true) (hp : p < 8) (up : (fportAt s p).state = .up)
    (hq : (tableAt s id).state = .quarantine) :
    exec (.tableRetireAck p id (tableAt s id).retireEpoch) s = .next (releaseTables (ackNoted p id (rxPacket p 0x12 0 0 s))) := by
  change Host.Outcome.next (whenAwake s (arrive p 0x12 (fportAt s p).partner.dev 0 0 _)) = _
  have entry : tableAt (rxPacket p 0x12 0 0 s) id = tableAt s id := tableAt_rxPacket p 0x12 0 0 id
  have expected : (decide ((tableAt (rxPacket p 0x12 0 0 s) id).state = .quarantine) &&
      decide ((tableAt (rxPacket p 0x12 0 0 s) id).retireEpoch = (tableAt s id).retireEpoch)) = true := by simp [entry, hq]
  rw [whenAwake, if_pos hw, arrive_of_arrives p ⟨hp, up, .inr rfl⟩]
  dsimp only
  rw [if_pos expected]
  rfl

/-- The decode session of a port is over: its partner holds no table. -/
def sessionEnded (s : State) : State :=
  setPpu { s.ppu with tables := tmap TableEnt.free (fun _ => withoutPeer p) s.ppu.tables }
    (modFport p (fun v => { v with decode := false, acksDue := [] }) s)

theorem tidy_sessionEnded (hs : Tidy s) : Tidy (sessionEnded p s) :=
  { tidy_modFport p (fun v => { v with decode := false, acksDue := [] }) hs with
    tables := twf_tmap (fun _ => withoutPeer p) hs.tables }

theorem not_mem_peers_sessionEnded (hs : Tidy s) (id : Nat) : p ∉ (tableAt (sessionEnded p s) id).peers := by
  have entry : tableAt (sessionEnded p s) id = ((tfind s.ppu.tables id).map (withoutPeer p)).getD TableEnt.free :=
    tget_tmap (fun _ => withoutPeer p) id hs.tables
  rw [entry]
  cases tfind s.ppu.tables id with
  | none => exact List.not_mem_nil
  | some e => exact not_mem_withoutPeer p e

theorem exec_peerAckTimeout (hw : awake s = true)
    (late : ∃ a ∈ (fportAt s p).acksDue, a.2 + 1000000 * fld s Pg.ppu 0x400 9 0 ≤ s.now) :
    exec (.peerAckTimeout p) s = .next (releaseTables (sessionEnded p (count Pg.ppu 0xE38 s))) := by
  change Host.Outcome.next (whenAwake s _) = _
  have overdue : (fportAt s p).acksDue.any (fun a => decide (a.2 + 1000000 * fld s Pg.ppu 0x400 9 0 ≤ s.now)) = true := by
    simpa using late
  simp only [whenAwake, hw, overdue, if_true, Bool.not_true, Bool.false_eq_true, if_false]
  rfl

end

/-! The background walk (R98) -/

/-- The walk goes on past a slab that is not RESIDENT. -/
theorem exec_bgRecodeWalk_passes {s : State} (hw : awake s = true) (on : flag s Pg.ppu 0x40 0 = true) (takes : ppuOn s = true)
    (present : 0 < s.ple.presented) (room : queuedPasses s < 256)
    (rate : (s.ppu.bgTimes.filter (fun t => decide (s.now < t + 1000000000))).length < fld s Pg.ppu 0x408 15 0)
    (away : (mapAt s (s.ppu.walk % s.ple.presented)).state ≠ .resident) :
    exec .bgRecodeWalk s =
      .next { s with ppu := { s.ppu with walk := (s.ppu.walk % s.ple.presented + 1) % s.ple.presented } } := by
  change Host.Outcome.next (whenAwake s _) = _
  have slabs : s.ple.presented ≠ 0 := Nat.ne_of_gt present
  simp [whenAwake, hw, on, takes, slabs, Nat.not_le.2 room, Nat.not_le.2 rate, away, setPpu]

end Sys2Proof.Machine

open Sys2Proof Sys2Proof.Machine

/-- Settles O30: RETIRE comes to the new entry of its table alone; after an acknowledgement another holder keeps the table from
FREE; the end of a decode session leaves its port in no entry, and the release of tables adds no holder. -/
theorem tableRetirement : Obligations.TableRetirement := by
  unfold Obligations.TableRetirement
  refine ⟨?retire, ?ack, ?timeout, ?walk⟩
  case retire =>
    intro s w id hs ho hid hport hl hr
    have hd : Tidy (dropHalf w Pg.ppu s) := tidy_dropHalf hs
    have run := exec_retire_owner hs ho hid hport (by simp [hl])
    rw [retireTable_referenced hd hl hr] at run
    refine ⟨_, run, ?_, ?_, rfl⟩
    · exact fun j hj => tableAt_setTable_ne _ _ hd hj
    · exact tableAt_setTable _ _ hd
  case ack =>
    intro s p id hs hw hp up hq only hmem distinct
    have entry : tableAt (rxPacket p 0x12 0 0 s) id = tableAt s id := tableAt_rxPacket p 0x12 0 0 id
    have tidy : Tidy (modFport p (ackTaken id) (rxPacket p 0x12 0 0 s)) := tidy_modFport p _ (tidy_rxPacket p 0x12 0 0 hs)
    have noted : tableAt (ackNoted p id (rxPacket p 0x12 0 0 s)) id = withoutPeer p (tableAt s id) := by
      rw [← entry]
      exact tableAt_setTable _ _ tidy
    have held : (tableAt (ackNoted p id (rxPacket p 0x12 0 0 s)) id).peers ≠ [] := by
      rw [noted]
      exact withoutPeer_peers_ne_nil hmem distinct only
    refine ⟨_, exec_tableRetireAck p hw hp up hq, ?_, ?_, ?_⟩
    · rcases tableAt_releaseTables (tidy_setTable _ tidy) id with kept | ⟨-, empty⟩
      · exact kept.trans noted
      · exact absurd empty held
    · rw [releaseTables_mem, ackNoted_mem, (portsOnly_rxPacket p 0x12 0 0).mem]
    · rw [releaseTables_descs, ackNoted_descs, (portsOnly_rxPacket p 0x12 0 0).descs]
  case timeout =>
    intro s p hs hw late
    have counted : Tidy (count Pg.ppu 0xE38 s) := (keeps_count _ _ _ (.refl s)).tidy hs
    have port : fportAt (releaseTables (sessionEnded p (count Pg.ppu 0xE38 s))) p =
        { fportAt s p with decode := false, acksDue := [] } := by
      rw [fportAt, releaseTables_fports]
      exact fportAt_setFport _ _ counted
    refine ⟨_, exec_peerAckTimeout p hw late, by rw [port], by rw [port], ?_, ?_, ?_⟩
    · intro id
      rcases tableAt_releaseTables (tidy_sessionEnded p counted) id with kept | ⟨free, -⟩
      · rw [kept]
        exact not_mem_peers_sessionEnded p counted id
      · rw [free]
        exact List.not_mem_nil
    · exact releaseTables_mem
    · exact releaseTables_descs
  case walk =>
    intro s hw on takes present room rate away
    exact exec_bgRecodeWalk_passes hw on takes present room rate away

end

section
/-! PROOFS. RECODE (O28): what a ring command finds at its start where its function, its context and its slabs pass, what a command
that needs a pass finds, and from these the outcomes of RECODE. -/

namespace Sys2Proof.Machine

/-! The start of a ring command (R49, R364) -/

section
variable {r : RingCmd} {op ctx : Nat} {s v : State}

/-- A command that begins runs its body. -/
theorem ringRun_of_begins (h : Begins r op s v) (body : State → State) : ringRun r op body s = body v := by
  obtain ⟨start, memory⟩ := h
  simp [ringRun, start, memory]

theorem meetSram_of_sound (hs : Sound s) (k : SramKind) (idx : Nat) : meetSram k idx s = s := by
  simp [meetSram, upsetAt_of_sound hs]

theorem gateCtx_of_ownCtx (h : OwnCtx r ctx v) : gateCtx r ctx v = (none, v) := by
  obtain ⟨sound, live, active, own⟩ := h
  have kept : v.sram.lost = false := sound.2
  simp [gateCtx, meetSram_of_sound sound, live, kept, active, own]

/-- A run of slabs that passes leaves the state as it is. -/
theorem checkRun_of_pass (hs : Sound s) {a : Ask} {first n : Nat} (h : (checkRun a first n s).1 = none) :
    checkRun a first n s = (none, s) := by
  induction n generalizing first with
  | zero => rfl
  | succ n ih =>
    unfold checkRun at h ⊢
    cases check : accessCheck s a first with
    | none =>
      rw [checkAccess_of_pass hs check] at h ⊢
      exact ih h
    | some refusal => simp [checkAccess_of_refusal hs check] at h

end

/-! What a command that needs a pass finds (R92, R93) -/

section
variable {r : RingCmd} {op : Nat} {s t : State}

theorem holdScan_frame {u : User} (h : holdScan u s = some t) : t = { s with cnts := t.cnts, tmx := t.tmx } := by
  unfold holdScan takeClaim at h
  split at h
  · cases h; rfl
  · split at h
    · cases h; rfl
    · cases h

/-- The scan buffer is claimed, and the command leaves the line of those that wait. -/
theorem passGate_open_frame (h : passGate r op s = .open_ t) :
    t = { s with cnts := t.cnts, tmx := t.tmx, ppu := { s.ppu with line := t.ppu.line } } := by
  unfold passGate at h
  extract_lets at h
  split at h
  · cases h
  · split at h
    · cases h
    · split at h
      · cases h
      · next held =>
        cases h
        rw [holdScan_frame held]
        rfl

theorem touchSlabs_frame (first n : Nat) : touchSlabs first n s = { s with mge := (touchSlabs first n s).mge } :=
  List.foldlRecOn (slabList first n) _ (motive := fun t : State => t = { s with mge := t.mge }) rfl
    fun t h k _ => by rw [h]; rfl

section
variable (ctx fmt : Nat) (recode : Bool) (scopes : List (Nat × Nat)) (result : Nat)

theorem queuePasses_frame :
    queuePasses r op ctx fmt recode scopes result s = { s with ppu := (queuePasses r op ctx fmt recode scopes result s).ppu } := rfl

/-- A command whose passes are queued waits for them. -/
theorem passWaits_queuePasses : passWaits (queuePasses r op ctx fmt recode scopes result s) r op = true := by
  simp [passWaits, queuePasses, fillQueue, setPpu]

end
end

/-! The outcomes of RECODE (R95, R96) -/

/-- RECODE whose function, context and slabs have passed. -/
def recodeChecked (r : RingCmd) (ctx dest len fmt mode table scope : Nat) (s : State) : State :=
  let first := dest / 2 ^ 24
  if mode ≠ 0 ∧ !tableUsable s ctx table fmt then complete r Opc.recode .tableUnavailable 0 s
  else if s.dev.profile.compression = 0 then complete r Opc.recode .ok 0 s
  else if mode = 0 then
    match passGate r Opc.recode s with
    | .refused st => refusePass r Opc.recode st s
    | .full => joinLine r Opc.recode s
    | .open_ t => queuePasses r Opc.recode ctx fmt true (scopesOf scope (len + 1) (first * 4096) (len * 4096)) 0 (touchSlabs first len t)
  else recodeUse r first len fmt table (decide (mode = 2)) (touchSlabs first len s)

section
variable {r : RingCmd} {ctx dest len fmt mode table scope : Nat} {s v : State}

theorem exec_recode_checked (hb : Begins r Opc.recode s v) (hc : OwnCtx r ctx v) (hw : passWaits v r Opc.recode = false)
    (hd : slabAligned dest = true) (hl : 1 ≤ len) (hlm : len ≤ 65536) (hf : fmt ≤ 8) (hs : scope ≤ 65536) (hm : mode < 3)
    (pass : (checkRun (ringAsk r.fn ctx true true) (dest / 2 ^ 24) len v).1 = none) :
    exec (.recode r ctx dest len fmt mode table scope) s = .next (recodeChecked r ctx dest len fmt mode table scope v) := by
  change Host.Outcome.next (ringRun r Opc.recode _ s) = _
  have formed : ¬ ((!slabAligned dest) = true ∨ len = 0 ∨ 65536 < len ∨ 8 < fmt ∨ 3 ≤ mode ∨ 65536 < scope) := by
    simp only [hd, Bool.not_true, Bool.false_eq_true, false_or]
    omega
  have waits : ¬ passWaits v r Opc.recode = true := by simp [hw]
  rw [ringRun_of_begins hb]
  dsimp only
  rw [if_neg waits, if_neg formed, gateCtx_of_ownCtx hc]
  dsimp only
  rw [checkRun_of_pass hc.1 pass]
  rfl

theorem recodeChecked_tableUnavailable (hm : mode ≠ 0) (ht : tableUsable v ctx table fmt = false) :
    recodeChecked r ctx dest len fmt mode table scope v = complete r Opc.recode .tableUnavailable 0 v :=
  if_pos ⟨hm, by simp [ht]⟩

theorem recodeChecked_off (ht : mode = 0 ∨ tableUsable v ctx table fmt = true) (off : v.dev.profile.compression = 0) :
    recodeChecked r ctx dest len fmt mode table scope v = complete r Opc.recode .ok 0 v := by
  have usable : ¬ (mode ≠ 0 ∧ (!tableUsable v ctx table fmt) = true) := by
    rintro ⟨named, refused⟩
    simp [ht.resolve_left named] at refused
  rw [recodeChecked, if_neg usable, if_pos off]

theorem recodeChecked_build {t : State} (hm : mode = 0) (on : v.dev.profile.compression ≠ 0)
    (gate : passGate r Opc.recode v = .open_ t) :
    recodeChecked r ctx dest len fmt mode table scope v = queuePasses r Opc.recode ctx fmt true
      (scopesOf scope (len + 1) (dest / 2 ^ 24 * 4096) (len * 4096)) 0 (touchSlabs (dest / 2 ^ 24) len t) := by
  simp only [recodeChecked, hm, ne_eq, not_true_eq_false, false_and, if_false, on, if_true, gate]

end
end Sys2Proof.Machine

open Sys2Proof Sys2Proof.Machine

/-- Settles O28: once its function, its context and its slabs have passed, RECODE completes at once in the first two cases, and in
the third it queues its passes, which touches neither memory nor the placement. -/
theorem recodeRow : Obligations.RecodeRow := by
  unfold Obligations.RecodeRow
  intro r ctx dest len fmt mode table scope s v hb hc hw hd hl hlm hf hs hm pass
  have run := exec_recode_checked (table := table) hb hc hw hd hl hlm hf hs hm pass
  refine ⟨?unavailable, ?off, ?build⟩
  case unavailable =>
    intro named refused
    rw [run, recodeChecked_tableUnavailable named refused]
  case off =>
    intro usable off
    rw [run, recodeChecked_off usable off]
  case build =>
    intro t build on gate
    rw [recodeChecked_build build on gate] at run
    refine ⟨_, run, passWaits_queuePasses _ _ _ _ _, ?_, ?_, ?_⟩ <;>
      rw [queuePasses_frame, touchSlabs_frame, passGate_open_frame gate]

end

section
/-! PROOFS. The phases of a proof pass (O29): reading a block leaves the proof-pass unit alone; what the operations on tables and on
command rings leave alone; which pass runs; and a pass whose format no block has. -/

namespace Sys2Proof.Machine

/-! Reading a block leaves the proof-pass unit alone: each lemma `<operation>_ppu` follows the branches of its operation -/

section
variable (s : State)

@[simp] theorem raise_ppu (p : Nat) (code : Status) (sev : Sev) (cause ctx block detail : Nat) (dests : List Nat)
    (integrity : Bool) : (raise p code sev cause ctx block detail dests integrity s).ppu = s.ppu := rfl

@[simp] theorem errCorr_ppu (p : Nat) : (errCorr p s).ppu = s.ppu := rfl

@[simp] theorem errUncorr_ppu (p : Nat) : (errUncorr p s).ppu = s.ppu := rfl

@[simp] theorem noteCorrection_ppu (word : Nat) : (noteCorrection word s).ppu = s.ppu := by
  unfold noteCorrection
  dsimp only
  (repeat' split) <;> rfl

@[simp] theorem dropUpset_ppu (word : Nat) : (dropUpset word s).ppu = s.ppu := rfl

@[simp] theorem meetSram_ppu (k : SramKind) (idx : Nat) : (meetSram k idx s).ppu = s.ppu := by
  unfold meetSram
  dsimp only
  (repeat' split) <;> simp

@[simp] theorem markDirty_ppu (slab b : Nat) : (markDirty slab b s).ppu = s.ppu := rfl

@[simp] theorem spoil_ppu (slab b hb : Nat) (st : BlockState) : (spoil slab b hb st s).ppu = s.ppu := rfl

@[simp] theorem integrityEvent_ppu (d : Det) (cause : Nat) (code : Status) (slab b : Nat) :
    (integrityEvent d cause code slab b s).ppu = s.ppu := by
  unfold integrityEvent
  dsimp only
  split <;> rfl

@[simp] theorem poisonBlock_ppu (d : Det) (cause slab b hb : Nat) : (poisonBlock d cause slab b hb s).ppu = s.ppu := by
  simp [poisonBlock]

@[simp] theorem loseDesc_ppu (d : Det) (slab b hb : Nat) : (loseDesc d slab b hb s).ppu = s.ppu := integrityEvent_ppu _ _ _ _ _ _

@[simp] theorem noteDecodeFault_ppu (check path sub table slab b : Nat) :
    (noteDecodeFault check path sub table slab b s).ppu = s.ppu := rfl

@[simp] theorem noteCorrections_ppu (t : Tier) (frame hb crumbs : Nat) : (noteCorrections t frame hb crumbs s).ppu = s.ppu :=
  List.foldlRecOn _ _ (motive := fun t : State => t.ppu = s.ppu) rfl fun u h c _ => by
    split <;> simp [h]

@[simp] theorem checkSix_ppu (d : Det) (t : Tier) (slab b frame hb : Nat) (out : List Byte) :
    (checkSix d t slab b frame hb out s).2.ppu = s.ppu := by
  unfold checkSix
  dsimp only
  (repeat' split) <;> simp

@[simp] theorem openRecovery_ppu (det : Nat) (rebuild : Bool) (slab b : Nat) : (openRecovery det rebuild slab b s).ppu = s.ppu := by
  unfold openRecovery
  split <;> rfl

@[simp] theorem noteFault_ppu (channel block : Nat) : (noteFault channel block s).ppu = s.ppu := rfl

@[simp] theorem startLadder_ppu (det slab b : Nat) : (startLadder det slab b s).ppu = s.ppu := by
  unfold startLadder
  dsimp only
  (repeat' split) <;> simp

@[simp] theorem startMates_ppu (det slab b : Nat) : (startMates det slab b s).ppu = s.ppu :=
  List.foldlRecOn _ _ (motive := fun t : State => t.ppu = s.ppu) rfl fun u h c _ => by simp [h]

@[simp] theorem startRecovery_ppu (d : Det) (slab b : Nat) : (startRecovery d slab b s).ppu = s.ppu := by
  unfold startRecovery
  (repeat' split) <;> simp

@[simp] theorem countRebuild_ppu (t : Tier) (frame b : Nat) : (countRebuild t frame b s).ppu = s.ppu := by
  unfold countRebuild
  split <;> rfl

@[simp] theorem readHome_ppu (d : Det) (slab b : Nat) : (readHome d slab b s).2.ppu = s.ppu := by
  unfold readHome
  dsimp only
  (repeat' split) <;> simp

@[simp] theorem fetchBlock_ppu (d : Det) (slab b : Nat) : (fetchBlock d slab b s).2.ppu = s.ppu := by
  rw [← readHome_ppu s d slab b]
  unfold fetchBlock
  dsimp only
  split
  · next read => rw [read]
  · rfl

end

/-! The count of a scope (R89) -/

section
variable {s : State} (p : Pass)

theorem countBlock_ppu (b : Nat) (x : Counting × State) : (countBlock p b x).2.ppu = x.2.ppu := by
  rw [← fetchBlock_ppu x.2 (Det.reader (ctxFn x.2 p.ctx)) (b / 4096) (b % 4096)]
  unfold countBlock
  dsimp only
  split
  · split <;> next read => rw [read]
  · rw [fetchBlock_ppu]

theorem keeps_countBlock {s0 : State} (b : Nat) (x : Counting × State) (hk : Keeps s0 x.2) : Keeps s0 (countBlock p b x).2 := by
  have read := keeps_fetchBlock (Det.reader (ctxFn x.2 p.ctx)) (b / 4096) (b % 4096) x.2 hk
  unfold countBlock
  dsimp only
  split
  · split <;> next found => exact .of_snd found read
  · exact hk

/-- The histogram of a pass with the blocks of its scope counted in. -/
def countScope (s : State) : Counting × State :=
  (List.range p.count).foldl (fun x i => countBlock p (p.first + i) x) (⟨p.hist, false⟩, s)

theorem countScope_ppu : (countScope p s).2.ppu = s.ppu :=
  List.foldlRecOn _ _ (motive := fun x : Counting × State => x.2.ppu = s.ppu) rfl fun x h _ _ => (countBlock_ppu p _ x).trans h

theorem tidy_countScope (hs : Tidy s) : Tidy (countScope p s).2 :=
  (Keeps.foldl_snd (fun x _ h => keeps_countBlock p _ x h) (.refl s)).tidy hs

end

/-! What tables and command rings leave alone -/

section
variable {s : State}

theorem portsOnly_sendPkt (port : Nat) (p : Pkt) (data : List Byte) : PortsOnly s (sendPkt port p data s) := by
  unfold sendPkt
  dsimp only
  split <;> rfl

theorem portsOnly_sendRetires (id epoch : Nat) (peers : List Nat) : PortsOnly s (sendRetires id epoch peers s) :=
  List.foldlRecOn peers _ (motive := fun t => PortsOnly s t) rfl fun _ h p _ =>
    .trans h (.trans (portsOnly_setFport p _) (portsOnly_sendPkt p _ _))

/-- Beside what fabric ports send, only the table store and its epoch differ. -/
def TablesOnly (s t : State) : Prop :=
  t = { s with sent := t.sent, cnts := t.cnts, fports := t.fports,
               ppu := { s.ppu with tables := t.ppu.tables, current := t.ppu.current } }

theorem TablesOnly.trans {t u : State} (h : TablesOnly s t) (k : TablesOnly t u) : TablesOnly s u := by
  refine Eq.trans k ?_
  rw [h]

theorem PortsOnly.tablesOnly {t : State} (h : PortsOnly s t) : TablesOnly s t := by
  refine Eq.trans h ?_
  rw [h.ppu]

theorem tablesOnly_setTable (id : Nat) (e : TableEnt) : TablesOnly s (setTable id e s) := rfl

theorem tablesOnly_releaseTables : TablesOnly s (releaseTables s) := by
  rw [TablesOnly, releaseTables_frame]

theorem tablesOnly_epoch (c : BitVec 32) : TablesOnly s { s with ppu := { s.ppu with current := c } } := rfl

theorem tablesOnly_settleTable (id : Nat) : TablesOnly s (settleTable id s) := by
  unfold settleTable
  extract_lets e e1 s1 c s2
  have stored : TablesOnly s s1 := tablesOnly_setTable id e1
  split
  · exact stored.trans (.trans (tablesOnly_epoch c) (.trans (tablesOnly_setTable id _)
      (.trans (portsOnly_sendRetires id c.toNat e1.peers).tablesOnly tablesOnly_releaseTables)))
  · exact stored

theorem tablesOnly_unpinTable (id : Nat) : TablesOnly s (unpinTable id s) :=
  .trans (tablesOnly_setTable id _) (tablesOnly_settleTable id)

/-- Beside what was sent and the counters, only functions and their rings differ. -/
def RingsOnly (s t : State) : Prop := t = { s with sent := t.sent, cnts := t.cnts, hiu := t.hiu }

theorem RingsOnly.trans {t u : State} (h : RingsOnly s t) (k : RingsOnly t u) : RingsOnly s u := by
  refine Eq.trans k ?_
  rw [h]

theorem ringsOnly_setRing (f n : Nat) (v : Ring) : RingsOnly s (setRing f n v s) := rfl

theorem ringsOnly_count (p off : Nat) : RingsOnly s (count p off s) := rfl

theorem ringsOnly_interrupt (f vector : Nat) : RingsOnly s (interrupt f vector s) := by
  unfold interrupt
  dsimp only
  (repeat' split) <;> rfl

theorem ringsOnly_signalRing (f n : Nat) : RingsOnly s (signalRing f n s) :=
  .trans (ringsOnly_setRing f n _) (ringsOnly_interrupt f _)

theorem ringsOnly_writeCpl (f n : Nat) (c : Cpl) : RingsOnly s (writeCpl f n c s) := by
  unfold writeCpl
  extract_lets q c' wrap q' t
  have written : RingsOnly s t := rfl
  split
  · exact written.trans (ringsOnly_signalRing f n)
  · exact written

theorem ringsOnly_settleRing (f n : Nat) : RingsOnly s (settleRing f n s) := by
  unfold settleRing
  dsimp only
  split <;> rfl

theorem ringsOnly_complete (r : RingCmd) (op : Nat) (st : Status) (result : Nat) : RingsOnly s (complete r op st result s) := by
  unfold complete
  extract_lets q s1 c s2
  split
  · rfl
  · have taken : RingsOnly s s1 := ringsOnly_setRing _ _ _
    have posted : RingsOnly s s2 := by
      refine taken.trans ?_
      simp only [s2]
      split
      · exact .trans (ringsOnly_writeCpl _ _ _) (ringsOnly_count _ _)
      · exact ringsOnly_setRing _ _ _
      · rfl
    exact posted.trans (ringsOnly_settleRing _ _)

end

/-! Which pass runs (R92) -/

section
variable {s : State} {p : Pass}

theorem runningPass_cons {l : List Pass} (h : s.ppu.passes = p :: l) (hp : p.phase ≠ .queued) : runningPass s = some p := by
  rw [runningPass, h, List.find?_cons_of_pos (by simpa using hp)]

/-- A change that leaves a running pass running is a change of the pass that runs. -/
theorem runningPass_modPass {f : Pass → Pass} (h : runningPass s = some p) (hf : ∀ x, (f x).phase ≠ .queued) :
    runningPass (modPass f s) = some (f p) := by
  have same : ((fun x : Pass => decide (x.phase ≠ .queued)) ∘ fun x => if x.phase = .queued then x else f x) =
      fun x => decide (x.phase ≠ .queued) := by
    funext x
    by_cases queued : x.phase = .queued
    · simp [queued]
    · simp [queued, hf]
  have runs : p.phase ≠ .queued := by simpa using List.find?_some h
  unfold runningPass at h
  simp only [runningPass, modPass, setPpu, List.find?_map, same, h, Option.map_some, if_neg runs]

/-- No pass has begun. -/
def NoneBegun (u : Ppu) : Prop := (∀ p ∈ u.passes, p.phase = .queued) ∧ ∀ p ∈ u.waiting, p.phase = .queued

theorem runningPass_of_noneBegun (h : NoneBegun s.ppu) : runningPass s = none := by
  simpa [runningPass] using h.1

theorem settleScan_frame : settleScan s = { s with tmx := (settleScan s).tmx } := by
  unfold settleScan
  split <;> rfl

theorem noneBegun_fillQueue (h : NoneBegun s.ppu) : NoneBegun (fillQueue s).ppu := by
  obtain ⟨passes, waiting⟩ := h
  refine ⟨fun p hp => ?_, fun p hp => waiting p (List.mem_of_mem_drop hp)⟩
  rcases List.mem_append.1 hp with old | new
  · exact passes p old
  · exact waiting p (List.mem_of_mem_take new)

/-- The pass that runs is gone, and others move up. -/
def withoutRunning (s : State) : State :=
  fillQueue (setPpu { s.ppu with passes := s.ppu.passes.filter (fun p => decide (p.phase = .queued)) } s)

theorem noneBegun_withoutRunning (h : s.ppu.waiting = []) : NoneBegun (withoutRunning s).ppu := by
  refine noneBegun_fillQueue ⟨fun p hp => ?_, fun p hp => ?_⟩
  · simpa using (List.mem_filter.1 hp).2
  · simp [setPpu, h] at hp

/-- Nothing of a command is left among the passes, and others move up. -/
def withoutCmd (r : RingCmd) (op : Nat) (s : State) : State :=
  fillQueue (setPpu { s.ppu with
    passes := s.ppu.passes.filter (fun x => !ofCmd r op x), waiting := s.ppu.waiting.filter (fun x => !ofCmd r op x),
    cmds := s.ppu.cmds.filter (fun x => !(decide (x.r = r) && decide (x.op = op))) } s)

theorem noneBegun_withoutCmd (r : RingCmd) (op : Nat) (h : NoneBegun s.ppu) : NoneBegun (withoutCmd r op s).ppu :=
  noneBegun_fillQueue ⟨fun p hp => h.1 p (List.mem_filter.1 hp).1, fun p hp => h.2 p (List.mem_filter.1 hp).1⟩

theorem endPassCmd_eq (r : RingCmd) (op : Nat) (st : Status) : endPassCmd r op st s = s ∨
    ∃ result, endPassCmd r op st s = complete r op st result (settleScan (withoutCmd r op s)) := by
  unfold endPassCmd
  split
  · exact .inl rfl
  · exact .inr ⟨_, rfl⟩

end

/-! The end of a pass (R89, R92) -/

section
variable {s t : State}

/-- Beside the counters the states are the same. -/
def CountsOnly (s t : State) : Prop := t = { s with cnts := t.cnts }

theorem CountsOnly.trans {u : State} (h : CountsOnly s t) (k : CountsOnly t u) : CountsOnly s u := by
  refine Eq.trans k ?_
  rw [h]

theorem CountsOnly.codable (h : CountsOnly s t) (fmt k b : Nat) : codable t fmt k b = codable s fmt k b := by
  rw [h]
  rfl

theorem CountsOnly.passSlab (h : CountsOnly s t) (p : Pass) (k : Nat) : passSlab t p k = passSlab s p k := by
  rw [h]
  rfl

end

/-- From `s` to `t` the homes of blocks, their descriptors and the placement stay, and no pass has begun. -/
structure PassOver (s t : State) : Prop where
  mem : t.mem = s.mem
  descs : t.descs = s.descs
  ple : t.ple = s.ple
  idle : NoneBegun t.ppu

section
variable {s t : State}

theorem PassOver.tables {u : State} (h : PassOver s t) (k : TablesOnly t u) : PassOver s u := by
  rw [k]
  exact ⟨h.mem, h.descs, h.ple, h.idle⟩

theorem PassOver.rings {u : State} (h : PassOver s t) (k : RingsOnly t u) : PassOver s u := by
  rw [k]
  exact ⟨h.mem, h.descs, h.ple, h.idle⟩

theorem PassOver.settleScan (h : PassOver s t) : PassOver s (settleScan t) := by
  rw [settleScan_frame]
  exact ⟨h.mem, h.descs, h.ple, h.idle⟩

theorem passOver_endPass (h : s.ppu.waiting = []) (k : CountsOnly s t) : PassOver s (endPass t) := by
  have dropped : PassOver s (withoutRunning t) := by
    rw [k]
    exact ⟨rfl, rfl, rfl, noneBegun_withoutRunning h⟩
  exact dropped.settleScan

/-- What is left of the passes of a command goes. -/
theorem PassOver.endPassCmd (h : PassOver s t) (r : RingCmd) (op : Nat) (st : Status) : PassOver s (endPassCmd r op st t) := by
  rcases endPassCmd_eq (s := t) r op st with same | ⟨result, done⟩
  · rwa [same]
  · have gone : PassOver s (withoutCmd r op t) := ⟨h.mem, h.descs, h.ple, noneBegun_withoutCmd r op h.idle⟩
    rw [done]
    exact gone.settleScan.rings (ringsOnly_complete r op st result)

theorem PassOver.passDone (h : PassOver s t) (cmd : Option (RingCmd × Nat)) : PassOver s (passDone cmd t) := by
  unfold Machine.passDone
  split
  · exact h
  · split
    · exact h
    · split
      · exact h.endPassCmd _ _ _
      · exact ⟨h.mem, h.descs, h.ple, h.idle⟩

/-! A pass whose format no block has -/

theorem countsOnly_countSkip (recode : Bool) (n : Nat) : CountsOnly s (countSkip recode n s) := by
  unfold countSkip
  split <;> rfl

theorem countsOnly_recodeBlock {c : Coding} {slab b : Nat} (h : codable s c.fmt slab b = false) :
    CountsOnly s (recodeBlock c slab b s) := by
  unfold recodeBlock
  split
  · exact countsOnly_countSkip _ _
  · rw [if_pos (by simp [h])]
    rfl

variable {fmt : Nat} (uncoded : ∀ k b, codable s fmt k b = false)
include uncoded

theorem countsOnly_recodeRun {c : Coding} (hc : c.fmt = fmt) (ht : CountsOnly s t) (lo n : Nat) :
    CountsOnly s (recodeRun c lo n t) :=
  List.foldlRecOn (List.range n) _ (motive := fun u => CountsOnly s u) ht fun u h i _ =>
    .trans h (countsOnly_recodeBlock (by rw [h.codable, hc, uncoded]))

/-- Of a scope whose slabs the context holds, without a block to code, nothing changes but the count of skipped blocks. -/
theorem encodeScope_uncoded {p : Pass} (hp : p.format = fmt) (held : ∀ k ∈ runSlabs p.first p.count, passSlab s p k = true)
    (id : Nat) : (encodeScope p id s).1 = true ∧ CountsOnly s (encodeScope p id s).2 := by
  refine List.foldlRecOn (runSlabs p.first p.count) _ (motive := fun x : Bool × State => x.1 = true ∧ CountsOnly s x.2)
    ⟨rfl, rfl⟩ ?_
  rintro ⟨whole, t⟩ ⟨rfl, h⟩ k hk
  have holds : passSlab t p k = true := by rw [h.passSlab, held k hk]
  simp only [Bool.not_true, Bool.and_false, Bool.false_eq_true, if_false, holds, if_true, true_and]
  exact countsOnly_recodeRun uncoded hp h _ _

theorem recodeSlabs_uncoded (lo n : Nat) : recodeSlabs s fmt lo n = [] := by
  simp [recodeSlabs, uncoded]

end

/-! The rows -/

section
variable {s : State} {p : Pass} {id : Nat}

/-- A pass that begins to count: a count of 0 for each symbol of its format. -/
def counting (p : Pass) : Pass := { p with phase := .histogram, hist := List.replicate (2 ^ symWidth p.format) 0 }

theorem exec_passStart {l : List Pass} (hw : awake s = true) (idle : runningPass s = none) (on : ppuOn s = true)
    (queue : s.ppu.passes = p :: l) :
    exec .passStart s = .next (fillQueue (setPpu { s.ppu with passes := counting p :: l } s)) := by
  change Host.Outcome.next (whenAwake s _) = _
  simp only [whenAwake, hw, idle, on, queue, if_true, Option.isSome_none, Bool.not_true, Bool.or_self, Bool.false_eq_true,
    if_false]
  rfl

/-- The entry of a table that a pass builds (Table 04-1). -/
def building (p : Pass) : TableEnt :=
  { TableEnt.free with state := .building, owner := p.ctx, pins := 1, scope := some (p.first, p.count) }

theorem exec_passHistogramDone (hw : awake s = true) (runs : runningPass s = some p) (phase : p.phase = .histogram)
    (counted : (countScope p s).1.waits = false) (symbols : listSum (countScope p s).1.hist ≠ 0)
    (found : freeDeviceId (countScope p s).2 = some id) :
    exec .passHistogramDone s = .next (modPass (fun p' => { p' with phase := .build, table := some id, hist := (countScope p s).1.hist })
      (setTable id (building p) (countScope p s).2)) := by
  change Host.Outcome.next (whenAwake s _) = _
  unfold countScope at counted symbols found ⊢
  simp only [whenAwake, hw, runs, phase, counted, symbols, found, if_true, ne_eq, not_true_eq_false, Bool.false_eq_true, if_false]
  rfl

/-- The entry of a table once the pass that builds it has published it (Table 04-1). -/
def published (p : Pass) (e : TableEnt) : TableEnt := { e with state := .live, data := buildTable p.format p.hist }

theorem exec_tableBuildDone (hw : awake s = true) (runs : runningPass s = some p) (phase : p.phase = .build)
    (table : p.table = some id) :
    exec .tableBuildDone s = .next (modPass (fun p => { p with phase := .encode }) (count Pg.ppu 0xE10
      (modTable id (published p) s))) := by
  change Host.Outcome.next (whenAwake s _) = _
  simp only [whenAwake, hw, runs, phase, table, if_true]
  rfl

theorem findFrom_some {q : Nat → Bool} {k n i : Nat} (h : findFrom q k n = some i) : q i = true := by
  induction n generalizing k with
  | zero => cases h
  | succ n ih =>
    unfold findFrom at h
    split at h
    · cases h
      assumption
    · exact ih h

theorem tableAt_of_freeDeviceId (h : freeDeviceId s = some id) : (tableAt s id).state = .free := by
  simpa using findFrom_some h

theorem passDone_none : passDone none s = s := rfl

/-- PASS_COMPLETE of a pass that has nothing to code. -/
theorem exec_passComplete_uncoded (hw : awake s = true) (runs : runningPass s = some p) (phase : p.phase = .encode)
    (table : p.table = some id) (held : ∀ k ∈ runSlabs p.first p.count, passSlab s p k = true)
    (uncoded : ∀ k b, codable s p.format k b = false) :
    ∃ t, CountsOnly s t ∧ exec .passComplete s = .next (passDone p.cmd (count Pg.ppu 0xE08 (unpinTable id (endPass t)))) := by
  obtain ⟨whole, same⟩ := encodeScope_uncoded uncoded rfl held id
  refine ⟨(encodeScope p id s).2, same, ?_⟩
  change Host.Outcome.next (whenAwake s _) = _
  simp only [whenAwake, hw, runs, phase, table, recodeSlabs_uncoded uncoded, List.filter_nil, prepareAll, List.foldl_nil, whole,
    if_true, Bool.not_true, Bool.false_and, Bool.false_eq_true, if_false]
  cases p.cmd with
  | none => rw [passDone_none]
  | some c => rfl

end
end Sys2Proof.Machine

open Sys2Proof Sys2Proof.Machine

/-- Settles O29: each row comes to a change of the pass that runs and of the entry of its table; counting reads blocks only, and at
the end of a pass without a block to code every pass left is still queued. -/
theorem passPhases : Obligations.PassPhases := by
  unfold Obligations.PassPhases
  refine ⟨?start, ?histogram, ?build, ?complete⟩
  case start =>
    intro s p l hw idle on queue
    refine ⟨_, _, exec_passStart hw idle on queue, ?_, rfl, rfl⟩
    exact runningPass_cons rfl (by simp)
  case histogram =>
    intro s p id hs hw runs phase
    change (countScope p s).1.waits = false → listSum (countScope p s).1.hist ≠ 0 →
      freeDeviceId (countScope p s).2 = some id → _
    intro counted symbols found
    have tidy := tidy_countScope p hs
    have still : runningPass (setTable id (building p) (countScope p s).2) = some p := by
      change (countScope p s).2.ppu.passes.find? _ = _
      rw [countScope_ppu]
      exact runs
    have taken : tableAt _ id = building p := tableAt_setTable id (building p) tidy
    refine ⟨_, _, exec_passHistogramDone hw runs phase counted symbols found, tableAt_of_freeDeviceId found, ?_, ?_, ?_, ?_, ?_,
      runningPass_modPass still (by simp), rfl, rfl, rfl⟩
    · exact congrArg (·.state) taken
    · exact congrArg (·.owner) taken
    · exact congrArg (·.pins) taken
    · exact congrArg (·.scope) taken
    · exact fun j hj => tableAt_setTable_ne id (building p) tidy hj
  case build =>
    intro s p id hs hw runs phase table
    refine ⟨_, _, exec_tableBuildDone hw runs phase table, ?_, ?_, runningPass_modPass runs (by simp), rfl, rfl⟩
    · exact tableAt_setTable id (published p (tableAt s id)) hs
    · exact fun j hj => tableAt_setTable_ne id (published p (tableAt s id)) hs hj
  case complete =>
    intro s p id hw runs phase table waiting held uncoded
    obtain ⟨t, counted, run⟩ := exec_passComplete_uncoded hw runs phase table held uncoded
    have dropped : PassOver s (endPass t) := passOver_endPass waiting counted
    have unpinned : PassOver s (unpinTable id (endPass t)) := dropped.tables (tablesOnly_unpinTable id)
    have done := (unpinned.rings (ringsOnly_count Pg.ppu 0xE08)).passDone p.cmd
    exact ⟨_, run, runningPass_of_noneBegun done.idle, done.mem, done.descs, done.ple⟩

end

section
/-! PROOFS. Heat, touch maps and the policy period (O31): the sweep of a decay tick, votes that expire, what is queued for a slab
without a move, and the promotion of a hot slab. -/

namespace Sys2Proof.Machine

section
variable {s : State}

theorem whenAwake_of_awake (hw : awake s = true) (f : State → State) : whenAwake s f = f s := if_pos hw

/-! Decay ticks (R111) -/

/-- The sweep of a tick: every slab has half its heat, and no tick is due. -/
def swept (s : State) : State :=
  { s with ple := { s.ple with map := s.ple.map.map (fun p => (p.1, { p.2 with heat := p.2.heat / 2 })) },
           mge := { s.mge with sampled := 0, sweepDue := false, lastTick := s.now } }

theorem exec_decayTick_idle (hw : awake s = true) (due : s.mge.sweepDue = false) (late : tickLate s = false) :
    exec .decayTick s = .next s := by
  change Host.Outcome.next (whenAwake s _) = _
  rw [whenAwake_of_awake hw, due, late]
  rfl

/-- A tick that is due sweeps; of two that fell due together one is counted as merged. -/
theorem exec_decayTick_due (hw : awake s = true) (due : s.mge.sweepDue = true ∨ tickLate s = true) :
    exec .decayTick s = .next (if s.mge.sweepDue && tickLate s then count Pg.mge 0xE38 (swept s) else swept s) := by
  change Host.Outcome.next (whenAwake s _) = _
  have sweeps : ¬ (!s.mge.sweepDue && !tickLate s) = true := by
    rcases due with due | due <;> simp [due]
  rw [whenAwake_of_awake hw]
  dsimp only
  rw [if_neg sweeps]
  rfl

/-! The touch maps (R112, R127) -/

theorem expireVotes_frame : expireVotes s = { s with mge := { s.mge with votes := (expireVotes s).mge.votes } } := by
  refine List.foldlRecOn s.mge.votes _ (motive := fun t : State => t = { s with mge := { s.mge with votes := t.mge.votes } }) rfl
    fun t h p _ => ?_
  rw [h]
  dsimp only
  (repeat' split) <;> rfl

theorem exec_touchMapSwap (hw : awake s = true) (due : s.mge.lastSwap + 500000 * fld s Pg.mge 0x400 26 16 ≤ s.now) :
    exec .touchMapSwap s = .next { s with mge := { (expireVotes s).mge with
      touchA := if s.mge.currentB then [] else s.mge.touchA
      touchB := if s.mge.currentB then s.mge.touchB else []
      currentB := !s.mge.currentB
      lastSwap := s.now } } := by
  change Host.Outcome.next (whenAwake s _) = _
  rw [whenAwake_of_awake hw]
  dsimp only
  rw [if_neg (Nat.not_lt.2 due), expireVotes_frame]

/-! The move queue (R116) -/

section
variable {slab cls : Nat} {target : Tier} {toPool onWrite : Bool}

/-- Moves of a lower class than 4 find the queue open. -/
theorem queueFull_of_lt (h : cls < 4) : queueFull s cls = false := by
  rw [queueFull, decide_eq_false (Nat.not_le.2 h), Bool.false_and]

theorem queueFull_of_room
    (room : s.mge.moves.countP (fun m => decide (4 ≤ m.cls) && decide (m.phase = .queued)) < 4096) : queueFull s cls = false := by
  rw [queueFull, decide_eq_false (Nat.not_le.2 room), Bool.and_false]

/-- What is asked for a slab without a move goes to the end of the queue, if that has room. -/
theorem askMove_of_none (free : moveOf s slab = none) (room : queueFull s cls = false) :
    askMove slab cls target toPool onWrite s =
      (.queued, setMoves (s.mge.moves ++ [newMove slab cls target toPool onWrite]) s) := by
  have asked : requestMove slab cls target toPool onWrite s =
      (.queued, setMoves (s.mge.moves ++ [newMove slab cls target toPool onWrite]) s) := by
    simp [requestMove, free, room]
  simp [askMove, asked, free]

end

/-! The policy period (R114) -/

theorem moveOf_of_heatMoves {slab : Nat} {e : MapEntry} (h : heatMoves s slab e = true) : moveOf s slab = none := by
  simp only [heatMoves, Bool.and_eq_true, Bool.not_eq_true', hasMove, Option.isSome_eq_false_iff, Option.isNone_iff_eq_none] at h
  obtain ⟨⟨⟨⟨-, unmoved⟩, -⟩, -⟩, -⟩ := h
  exact unmoved

/-- The time of the last policy period is now. -/
def periodBegun (s : State) : State := { s with mge := { s.mge with lastPolicy := s.now } }

section
variable {c k : Nat} {low up : Tier}

/-- A slab whose heat reaches the bound asks for the tier above where its owner has a frame there. -/
theorem policyPromote_hot (tier : (mapAt s k).tier = some low) (above : tierAbove low = some up)
    (moves : heatMoves s k (mapAt s k) = true) (mask : tierBit (mapAt s k).tmask up = true) (rested : dwells s k = false)
    (frame : 0 < openFrames s c up) (hot : fld s Pg.mge 0x408 7 0 ≤ (mapAt s k).heat) (room : queueFull s 5 = false) :
    policyPromote c k s = setMoves (s.mge.moves ++ [newMove k 5 up false false]) s := by
  simp [policyPromote, tier, above, moves, mask, rested, frame, hot, askMove_of_none (moveOf_of_heatMoves moves) room]

/-- A context of one slab, where T2 keeps no free frames, is evaluated by its promotion alone. -/
theorem policyCtx_single (slabs : slabsOf s c = [k]) (kept : fld (policyPromote c k s) Pg.mge 0x408 63 48 = 0) :
    policyCtx c s = policyPromote c k s := by
  simp only [policyCtx, slabs, List.foldl_cons, List.foldl_nil, kept, Nat.zero_sub, policyDemote]

end

theorem exec_policyPeriod_pinned (hw : awake s = true) (pinned : pinnedMode s = true) : exec .policyPeriod s = .next s := by
  change Host.Outcome.next (whenAwake s _) = _
  rw [whenAwake_of_awake hw]
  dsimp only
  rw [if_pos (.inl pinned)]

/-- A period of a device with one ACTIVE context evaluates that one. -/
theorem exec_policyPeriod_single {c : Nat} (hw : awake s = true) (mode : pinnedMode s = false)
    (due : s.mge.lastPolicy + 1000000 * fld s Pg.mge 0x408 31 16 ≤ s.now)
    (ctxs : tkeys (fun _ c => decide (c.state = .active)) s.ple.ctxs = [c]) :
    exec .policyPeriod s = .next (policyCtx c (periodBegun s)) := by
  change Host.Outcome.next (whenAwake s _) = _
  have acts : ¬ (pinnedMode s = true ∨ s.now < s.mge.lastPolicy + 1000000 * fld s Pg.mge 0x408 31 16) := by
    simp [mode, Nat.not_lt.2 due]
  rw [whenAwake_of_awake hw]
  dsimp only
  rw [if_neg acts, ctxs]
  rfl

end
end Sys2Proof.Machine

open Sys2Proof Sys2Proof.Machine

/-- Settles O31: a due tick comes to the sweep and the count of a merged one; of the engine's state the swap changes votes and touch
maps alone; and the one slab of the one context asks for its promotion, after which no slab is to be demoted. -/
theorem heatAndPolicy : Obligations.HeatAndPolicy := by
  unfold Obligations.HeatAndPolicy
  refine ⟨fun s hw => ⟨exec_decayTick_idle hw, ?tick⟩, ?swap, fun s => exec_policyPeriod_pinned, ?policy⟩
  case tick =>
    intro due
    refine ⟨_, exec_decayTick_due hw due, ?_, ?_, ?_, ?_⟩
    · intro e he
      have halved : (e.1, { e.2 with heat := e.2.heat / 2 }) ∈ (swept s).ple.map := List.mem_map.2 ⟨e, he, rfl⟩
      split <;> exact halved
    · have keys : (swept s).ple.map.map (·.1) = s.ple.map.map (·.1) := by simp [swept, Function.comp_def]
      split <;> exact keys
    · split <;> rfl
    · intro sampled late rising
      rw [sampled, late]
      exact tget_tput_same _ _ rising
  case swap =>
    intro s hw due
    refine ⟨_, exec_touchMapSwap hw due, rfl, ?_, rfl⟩
    cases s.mge.currentB <;> simp
  case policy =>
    intro s c k low up _ hw mode ctxs slabs kept tier above moves mask rested frame hot room due
    have promoted : policyPromote c k (periodBegun s) = setMoves (s.mge.moves ++ [newMove k 5 up false false]) (periodBegun s) :=
      policyPromote_hot tier above moves mask rested frame hot (queueFull_of_room room)
    have still : fld (policyPromote c k (periodBegun s)) Pg.mge 0x408 63 48 = 0 := by
      rw [promoted]
      exact kept
    rw [exec_policyPeriod_single hw mode due ctxs, policyCtx_single (s := periodBegun s) slabs still, promoted]
    rfl

end

section
/-! PROOFS. What moves leave behind and the guarantees of the migration engine (O34): the release of an old frame, the move of a slab
that has rested in a pool frame, and a change of demand, of which the scales and the runs of recipes alone take notice. -/

namespace Sys2Proof.Machine

/-! Old frames and pool frames (R117, R122) -/

section
variable {s : State}

theorem freeToZeroing_dram {t : Tier} (frame : Nat) (ht : t ≠ .t3) :
    freeToZeroing t frame s = { s with mge := { s.mge with zeroing := s.mge.zeroing ++ [(t, frame)] } } := if_neg ht

theorem retryHeld_of_none (h : s.mge.held = []) : retryHeld s = s := by
  rw [retryHeld, h]
  rfl

theorem settleMasks_of_none (h : s.mge.moves = []) : settleMasks s = s := by
  unfold settleMasks
  rw [h]
  rfl

/-- The one old frame has gone to zeroing. -/
def oldFrameReleased (o : OldFrame) (s : State) : State :=
  { s with mge := { s.mge with oldFrames := [], zeroing := s.mge.zeroing ++ [(o.tier, o.frame)] } }

theorem exec_oldFrameRelease {o : OldFrame} (hw : awake s = true) (old : s.mge.oldFrames = [o]) (dram : o.tier ≠ .t3)
    (held : s.mge.held = []) (moves : s.mge.moves = []) :
    exec (.oldFrameRelease o.slab) s = .next (oldFrameReleased o s) := by
  change Host.Outcome.next (whenAwake s _) = _
  rw [whenAwake_of_awake hw, old]
  simp only [List.filter_cons, List.filter_nil, decide_true, ne_eq, not_true_eq_false, decide_false, Bool.false_eq_true, if_true,
    if_false, List.foldl_cons, List.foldl_nil]
  rw [freeToZeroing_dram _ dram]
  change Host.Outcome.next (settleMasks (retryHeld (oldFrameReleased o s))) = _
  rw [retryHeld_of_none (s := oldFrameReleased o s) held, settleMasks_of_none (s := oldFrameReleased o s) moves]

theorem exec_poolDwellExpiry {k : Nat} {t : Tier} (hw : awake s = true) (pool : (mapAt s k).pool = true) (free : moveOf s k = none)
    (unswapped : s.mge.swaps.any (fun p => decide (p.1 = k)) = false) (rested : restedFrom s k ≤ s.now)
    (lowest : ((permitted s k).reverse).find? (fun t => decide (0 < openFrames s (ownerOf s (mapAt s k)) t)) = some t) :
    exec (.poolDwellExpiry k) s = .next (setMoves (s.mge.moves ++ [newMove k 1 t false false]) s) := by
  change Host.Outcome.next (whenAwake s _) = _
  have leaves : ¬ (!(mapAt s k).pool || hasMove s k || s.mge.swaps.any (fun p => decide (p.1 = k)) ||
      decide (s.now < restedFrom s k)) = true := by
    simp only [hasMove, pool, free, unswapped, Nat.not_lt.2 rested]
    decide
  rw [whenAwake_of_awake hw]
  dsimp only
  rw [if_neg leaves, lowest]
  dsimp only
  rw [askMove_of_none free (queueFull_of_lt (by decide))]

end

/-! A change of demand (R239, R240) -/

/-- From `s` to `t` only the scales and the runs of recipes took notice of a change of demand, and of what these end the sheet, the
fabric ports, the counters and events. -/
def ScalesOnly (s t : State) : Prop :=
  t = { s with sent := t.sent, pages := t.pages, cnts := t.cnts, router := t.router, rlg := t.rlg, sht := t.sht, rcp := t.rcp,
               fports := t.fports }

section
variable {s t : State}

theorem ScalesOnly.trans {u : State} (h : ScalesOnly s t) (k : ScalesOnly t u) : ScalesOnly s u := by
  refine Eq.trans k ?_
  rw [h]

theorem ScalesOnly.foldl {α : Type} {f : State → α → State} (hf : ∀ s a, ScalesOnly s (f s a)) (l : List α) :
    ScalesOnly s (l.foldl f s) :=
  List.foldlRecOn l f (motive := fun t => ScalesOnly s t) rfl fun _ h a _ => h.trans (hf _ a)

theorem PortsOnly.scalesOnly (h : PortsOnly s t) : ScalesOnly s t := by
  rw [ScalesOnly, h]

theorem ScalesOnly.regs (h : ScalesOnly s t) : t.regs = s.regs := congrArg (·.regs) h

theorem ScalesOnly.mem (h : ScalesOnly s t) : t.mem = s.mem := congrArg (·.mem) h

theorem ScalesOnly.ple (h : ScalesOnly s t) : t.ple = s.ple := congrArg (·.ple) h

theorem scalesOnly_count (p off : Nat) : ScalesOnly s (count p off s) := rfl

theorem scalesOnly_dropTransfers (q : Recipe) : ScalesOnly s (dropTransfers q s) :=
  .foldl (fun _ p => (portsOnly_setFport p _).scalesOnly) _

theorem scalesOnly_sendTokens (type outcome : Nat) (except : Option Nat) : ScalesOnly s (sendTokens type outcome except s) := by
  unfold sendTokens
  split
  · rfl
  · exact .foldl (fun _ p => .trans (portsOnly_sendPkt p _ _).scalesOnly (scalesOnly_count _ _)) _

theorem scalesOnly_endStall : ScalesOnly s (endStall s) := by
  unfold endStall
  split
  · split <;> rfl
  · rfl

theorem scalesOnly_endRun (outcome : Status) : ScalesOnly s (endRun outcome s) := by
  unfold endRun
  split
  · rfl
  · split
    · rfl
    · extract_lets s1 s2
      have stalled : ScalesOnly s s1 := scalesOnly_endStall
      have told : ScalesOnly s1 s2 := by
        simp only [s2]
        split
        · rfl
        · refine .trans ?_ (scalesOnly_sendTokens _ _ _)
          split
          · exact scalesOnly_dropTransfers _
          · rfl
      exact stalled.trans (told.trans rfl)

theorem scalesOnly_stepFaultAt (cause : Nat) : ScalesOnly s (stepFaultAt cause s) := by
  unfold stepFaultAt stepFault
  split
  · rfl
  · split
    · rfl
    · refine .trans ?_ (scalesOnly_endRun _)
      rfl

theorem scalesOnly_refuseStreams (c : Nat) : ScalesOnly s (refuseStreams c s) := by
  unfold refuseStreams
  dsimp only
  split
  · split
    · refine .trans ?_ (scalesOnly_stepFaultAt _)
      rfl
    · rfl
  · rfl

theorem scalesOnly_updateScales : ScalesOnly s (updateScales s) := by
  refine .foldl (fun s c => ?_) _
  dsimp only
  (repeat' split) <;> rfl

theorem scalesOnly_settleScales : ScalesOnly s (settleScales s) := by
  refine .trans scalesOnly_updateScales (.foldl (fun s c => ?_) _)
  split
  · exact scalesOnly_refuseStreams c
  · rfl

end

/-! MGE_GUARANTEE (R131) -/

/-- The value of MGE_GUARANTEE with a percentage for each tier. -/
def guarantee (p1 p2 p3 : Nat) : Word := BitVec.ofNat 64 (p1 + p2 * 2 ^ 8 + p3 * 2 ^ 16)

section
variable {p1 p2 p3 : Nat} (h1 : p1 ≤ 50) (h2 : p2 ≤ 50) (h3 : p3 ≤ 50)
include h1 h2 h3

theorem bits_guarantee : bits (guarantee p1 p2 p3) 5 0 = p1 ∧ bits (guarantee p1 p2 p3) 13 8 = p2 ∧
    bits (guarantee p1 p2 p3) 21 16 = p3 := by
  simp only [bits, guarantee, BitVec.toNat_ofNat, Nat.shiftRight_eq_div_pow]
  omega

theorem place_guarantee : BitVec.ofNat 64 (place p3 16 6 + place p2 8 6 + place p1 0 6) = guarantee p1 p2 p3 := by
  simp only [place, guarantee, Nat.shiftLeft_eq]
  congr 1
  omega

end

/-- What the floors do not admit is refused and recorded (R131, R236). -/
def guaranteeRefused (w : Nat) (x : Nat × Nat × Nat) (s : State) : State :=
  noteErr Pg.mge kindRefusedValue .guaranteeUnavailable 0x418 w
    (refusedAdmission (noteRefusal .guaranteeUnavailable x.1 x.2.1 x.2.2 s))

/-- The guarantees of the migration engine with a value: in force where the floors admit it. -/
def guaranteeWritten (w : Nat) (v : Word) (s : State) : State :=
  match admitFail s (setReg Pg.mge 0x418 v s) with
  | some x => guaranteeRefused w x s
  | none => settleScales (admitted (setReg Pg.mge 0x418 v s))

section
variable {s : State} {w p1 p2 p3 : Nat}

theorem exec_mgeGuaranteeWrite (hs : Tidy s) (ho : Owns s w Pg.mge) (unlocked : (pageHdr s Pg.mge).unlocked = true)
    (h1 : p1 ≤ 50) (h2 : p2 ≤ 50) (h3 : p3 ≤ 50) :
    exec (.mgeGuaranteeWrite w (guarantee p1 p2 p3)) s =
      .next (guaranteeWritten w (guarantee p1 p2 p3) (dropHalf w Pg.mge s)) := by
  change Host.Outcome.next (ownedWrite w Pg.mge _ s) = _
  obtain ⟨t1, t2, t3⟩ := bits_guarantee h1 h2 h3
  have still : (pageHdr (dropHalf w Pg.mge s) Pg.mge).unlocked = true := by
    rw [pageHdr_dropHalf hs]
    exact unlocked
  have percents : ¬ (50 < p1 ∨ 50 < p2 ∨ 50 < p3) := by omega
  rw [ownedWrite_of_owns _ hs ho]
  dsimp only
  rw [if_pos still, t1, t2, t3, if_neg percents, place_guarantee h1 h2 h3]
  unfold guaranteeWritten
  cases admitFail (dropHalf w Pg.mge s) (setReg Pg.mge 0x418 (guarantee p1 p2 p3) (dropHalf w Pg.mge s)) <;> rfl

/-- Whether the floors admit a value lies outside the headers of pages. -/
theorem admitFail_dropHalf (p q off : Nat) (v : Word) :
    admitFail (dropHalf w q s) (setReg p off v (dropHalf w q s)) = admitFail s (setReg p off v s) := rfl

theorem guaranteeWritten_regs (v : Word) : (guaranteeWritten w v s).regs =
    (if admitFail s (setReg Pg.mge 0x418 v s) = none then setReg Pg.mge 0x418 v s else s).regs := by
  unfold guaranteeWritten
  split
  · next found =>
    rw [if_neg (by simp [found])]
    rfl
  · next found =>
    rw [if_pos found]
    exact scalesOnly_settleScales.regs

theorem reg_guaranteeWritten (v : Word) (hs : Tidy s) : reg (guaranteeWritten w v s) Pg.mge 0x418 =
    if admitFail s (setReg Pg.mge 0x418 v s) = none then v else reg s Pg.mge 0x418 := by
  rw [reg_congr (guaranteeWritten_regs v)]
  split
  · exact reg_setReg _ _ _ hs
  · rfl

theorem regOnly_guaranteeWritten (v : Word) (hs : Tidy s) : RegOnly Pg.mge 0x418 s (guaranteeWritten w v s) := by
  refine regOnly_trans (t := if _ then _ else _) ?_ (regOnly_of_regs (guaranteeWritten_regs v))
  split
  · exact regOnly_setReg _ _ hs
  · exact regOnly_of_regs rfl

theorem guaranteeWritten_mem (v : Word) : (guaranteeWritten w v s).mem = s.mem := by
  unfold guaranteeWritten
  split
  · rfl
  · exact scalesOnly_settleScales.mem

theorem guaranteeWritten_ple (v : Word) : (guaranteeWritten w v s).ple = s.ple := by
  unfold guaranteeWritten
  split
  · rfl
  · exact scalesOnly_settleScales.ple

end
end Sys2Proof.Machine

open Sys2Proof Sys2Proof.Machine

/-- Settles O34: with no write held and no move queued the release of an old frame ends with its zeroing; what a slab without a move
asks for is queued; and of a change of demand the scales take notice, which are no registers. -/
theorem moveLeftovers : Obligations.MoveLeftovers := by
  unfold Obligations.MoveLeftovers
  refine ⟨fun s o hw old dram held moves _ => exec_oldFrameRelease hw old dram held moves,
    fun s k t => exec_poolDwellExpiry, ?guarantee⟩
  intro s w p1 p2 p3 hs ho unlocked h1 h2 h3
  have hd : Tidy (dropHalf w Pg.mge s) := tidy_dropHalf hs
  refine ⟨_, exec_mgeGuaranteeWrite hs ho unlocked h1 h2 h3, ?_, ?_, ?_, ?_⟩
  · exact reg_guaranteeWritten _ hd
  · exact regOnly_trans (regOnly_dropHalf 0x418) (regOnly_guaranteeWritten _ hd)
  · exact guaranteeWritten_mem _
  · exact guaranteeWritten_ple _

end

section
/-! PROOFS. Where the steps of a move fail (O33): a slab that moves from a pool frame of T3 to a frame of its own in T3, and that is to
be released once a read of it has ended. -/

namespace Sys2Proof.Machine

/-- A slab in a pool frame of T3 has rested, and its move to frame 3 of T3 is in its hold, with everything programmed (R121, R122). -/
def restedMove : Move := { newMove 0 1 .t3 false false with phase := .holding, programmed := true, frame := some 3 }

/-- The slab of `restedMove` is to be released: that waits for a CXL.mem read of its block 5, which flash recovery holds up (R51, R150). -/
def movingAndLeaving : State :=
  { State.reset with
    boot := { Boot.reset with halted := false }
    ple := { Ple.reset with
      presented := 64
      ctxs := [(1, { Ctx.reset with state := .active })]
      map := [(0, { MapEntry.free with state := .moving, tier := some .t3, tmask := 7, owner := 1, pool := true, frame := 2 })]
      leaving := [0] }
    mge := { Mge.reset with moves := [restedMove] }
    fmg := { Fmg.reset with
      g0 := { Group.reset with state := .online }
      usableFrames := 100
      recoveries := [⟨5, 0, false, false, 0, [⟨.cxl 0 0x5000, 0, 0⟩]⟩] } }

theorem tidy_movingAndLeaving : Tidy movingAndLeaving := by constructor <;> decide

theorem exec_moveFlip {s : State} {m : Move} {k g : Nat} (hw : awake s = true) (found : moveOf s k = some m)
    (phase : m.phase = .holding) (programmed : m.programmed = true) (frame : m.frame = some g) :
    exec (.moveFlip k) s = .next (flipMove m g s) := by
  change Host.Outcome.next (whenAwake s _) = _
  rw [whenAwake_of_awake hw]
  simp only [found, frame, phase, programmed, and_self, if_true]

/-- The read is served from the new home, and with its end the slab is released: it is FREE. -/
theorem mapAt_flip_movingAndLeaving : mapAt (flipMove restedMove 3 movingAndLeaving) 0 = MapEntry.free := by decide +kernel

end Sys2Proof.Machine

open Sys2Proof Sys2Proof.Machine

/-- Refutes O33: a flip of a slab within T3 that ends the last read for which the slab's release waits makes it FREE, so that it does
not lie in the tier of its move. -/
theorem not_moveSteps : ¬ Obligations.MoveSteps := by
  unfold Obligations.MoveSteps
  rintro ⟨-, -, flip, -⟩
  obtain ⟨u, run, tier, -⟩ := flip movingAndLeaving restedMove 0 3 .t3 tidy_movingAndLeaving (by decide) (by decide) (by decide)
    (by decide) (by decide) (by decide)
  have flipped : exec (.moveFlip 0) movingAndLeaving = .next (flipMove restedMove 3 movingAndLeaving) :=
    exec_moveFlip (by decide) (by decide) (by decide) (by decide) (by decide)
  have outcome : flipMove restedMove 3 movingAndLeaving = u := Host.Outcome.next.inj (flipped.symm.trans run)
  rw [← outcome, mapAt_flip_movingAndLeaving] at tier
  exact absurd tier (by decide)

end

section
/-! PROOFS. Where a hint fails (O32): a context number of more than 20 bits, which no command carries but which the statement admits. -/

namespace Sys2Proof.Machine

/-- The number of a context beyond the 20 bits that the key of a vote gives it: its vote on slab 0 has the key of the vote of context 0
on slab 1. -/
def farCtx : Nat := 2 ^ 20

/-- The HINT of `hinting`. -/
def hintCmd : RingCmd := ⟨0, 0, 1⟩

/-- In HINTED mode the context of that number, ACTIVE for the PF of port 0 and with an unused frame in T1, owns slab 0 in T2; HINT is
in progress on ring 0 of the PF. -/
def hinting : State :=
  { State.reset with
    boot := { Boot.reset with halted := false }
    dev := { Dev.reset with memEnabled := true, profile := { Dev.reset.profile with placement := 1 } }
    ple := { Ple.reset with
      presented := 64
      ctxs := [(farCtx, { Ctx.reset with state := .active })]
      map := [(0, { MapEntry.free with state := .resident, tier := some .t2, tmask := 7, owner := farCtx })] }
    rlg := { Rlg.reset with resv := [(farCtx, ⟨1, 1, 0, 0, 0, 0⟩)] }
    hiu := { Hiu.reset with
      p0 := { HPort.reset with link := .l0 }
      fns := [(0, { Func.reset with phase := .ready })]
      rings := [(0, { Ring.reset with state := .active, running := [⟨1, Opc.hint, none⟩] })] } }

theorem tidy_hinting : Tidy hinting := by constructor <;> decide

/-- The wish for T1 decides no home for slab 0, and no move is queued. -/
theorem exec_hint_hinting :
    ∃ u, exec (.hint hintCmd farCtx 0 1 0 1) hinting = .next u ∧ u.mge.moves = [] := ⟨_, rfl, by decide +kernel⟩

end Sys2Proof.Machine

open Sys2Proof Sys2Proof.Machine

/-- Refutes O32: the vote of a context whose number has more than 20 bits is not one on the hinted slab, so that the wish for a higher
tier with an unused frame queues no move. -/
theorem not_hintAndTmask : ¬ Obligations.HintAndTmask := by
  unfold Obligations.HintAndTmask
  rintro ⟨hint, -⟩
  obtain ⟨-, honoured⟩ := hint hintCmd farCtx 0 0 1 .t1 hinting hinting tidy_hinting (by decide) (by decide) (by decide) (by decide)
    (by decide) (by decide) (by decide) (by decide)
  obtain ⟨-, -, promote⟩ := honoured (by decide)
  obtain ⟨u, run, moves, -⟩ := promote (by decide) (by decide) (by decide) (by decide) (by decide) (by decide) (by decide) (by decide)
  obtain ⟨v, same, unmoved⟩ := exec_hint_hinting
  have outcome : v = u := Host.Outcome.next.inj (same.symm.trans run)
  rw [← outcome, unmoved] at moves
  exact absurd moves (by decide)

end

section
/-! PROOFS. Flash logs and erase blocks (O35, O36): what the operations on the log of superblocks leave alone, and erase blocks that
are out of use. -/

namespace Sys2Proof.Machine

/-! Tables in whatever order their keys stand -/

theorem tfind_tdel_of_found {α : Type} {t : Tbl α} {k j : Nat} {v : α} (h : tfind t j = some v) (hj : j ≠ k) :
    tfind (tdel t k) j = some v := by
  induction t with
  | nil => cases h
  | cons e t ih =>
    unfold tdel
    split
    · exact h
    · simp only [tfind] at h
      split
      · next same =>
        rw [if_neg (same ▸ hj)] at h
        split at h
        · cases h
        · exact h
      · simp only [tfind]
        split
        · next here => rwa [if_pos here] at h
        · next away =>
          rw [if_neg away] at h
          split at h
          · cases h
          · next below => rw [if_neg below, ih h]

theorem tfind_tput_of_found {α : Type} [DecidableEq α] {d : α} {t : Tbl α} {k j : Nat} {v : α} (w : α)
    (h : tfind t j = some v) (hj : j ≠ k) : tfind (tput d t k w) j = some v := by
  unfold tput
  split
  · exact tfind_tdel_of_found h hj
  · rw [tfind_tins_ne hj, h]

theorem tfind_of_tget_ne {α : Type} {d : α} {t : Tbl α} {k : Nat} (h : tget d t k ≠ d) : tfind t k = some (tget d t k) := by
  unfold tget at h ⊢
  cases found : tfind t k with
  | none => simp [found] at h
  | some v => rfl

/-- An entry is listed at its place of a list, from key `i` on. -/
theorem tget_foldl_tput_zipIdx {α β : Type} [DecidableEq α] {d : α} (f : β → α) {l : List β} {i c : Nat} {t : Tbl α}
    (h : trising 0 t = true) : tget d ((l.zipIdx i).foldl (fun t x => tput d t x.2 (f x.1)) t) c =
      if i ≤ c then ((l[c - i]?).map f).getD (tget d t c) else tget d t c := by
  induction l generalizing i t with
  | nil => simp
  | cons x l ih =>
    rw [List.zipIdx_cons, List.foldl_cons, ih (trising_tput _ _ h (Nat.zero_le _))]
    rcases Nat.lt_trichotomy c i with below | rfl | beyond
    · rw [if_neg (by omega), if_neg (by omega), tget_tput_ne _ h (by omega)]
    · rw [if_neg (by omega), if_pos (Nat.le_refl _), tget_tput_same _ _ h]
      simp
    · obtain ⟨n, rfl⟩ : ∃ n, c = i + 1 + n := ⟨c - (i + 1), by omega⟩
      rw [if_pos (by omega), if_pos (by omega), tget_tput_ne _ h (by omega), show i + 1 + n - i = (i + 1 + n - (i + 1)) + 1 by omega,
        List.getElem?_cons_succ]

/-! Erase blocks of a channel (R141) -/

theorem blockAt_setBlock_of_bad {f : Flc} {n m : Nat} (b : EraseBlock) (h : (blockAt f n).state = .bad) (hm : n ≠ m) :
    (blockAt (setBlock m b f) n).state = .bad := by
  have listed : tfind f.blocks n = some (blockAt f n) := tfind_of_tget_ne fun same => by
    rw [blockAt, same] at h
    cases h
  have still : blockAt (setBlock m b f) n = blockAt f n := by
    rw [blockAt, setBlock, tget, tfind_tput_of_found b listed hm, Option.getD_some]
  rw [still, h]

/-- An erase block of a channel is out of use. -/
def OutOfUse (c n : Nat) (t : Tbl Flc) : Prop := (blockAt (tget Flc.reset t c) n).state = .bad

/-! Channels: what a mount found of them -/

/-- Of the channels only the erase blocks and the failures noted on them differ. -/
structure ChansKept (t u : Tbl Flc) : Prop where
  rising : trising 0 t = true → trising 0 u = true
  chan : trising 0 t = true → ∀ c, tget Flc.reset u c =
    { tget Flc.reset t c with blocks := (tget Flc.reset u c).blocks, faults := (tget Flc.reset u c).faults }

section
variable {t u v : Tbl Flc}

theorem ChansKept.refl (t : Tbl Flc) : ChansKept t t := ⟨id, fun _ _ => rfl⟩

theorem ChansKept.trans (h : ChansKept t u) (k : ChansKept u v) : ChansKept t v :=
  ⟨fun x => k.rising (h.rising x), fun x c => by rw [k.chan (h.rising x), h.chan x]⟩

theorem chansKept_tput (t : Tbl Flc) {c : Nat} {f : Flc}
    (h : f = { tget Flc.reset t c with blocks := f.blocks, faults := f.faults }) : ChansKept t (tput Flc.reset t c f) := by
  refine ⟨fun x => trising_tput _ _ x (Nat.zero_le _), fun x d => ?_⟩
  by_cases same : d = c
  · rw [same, tget_tput_same _ _ x]
    exact h
  · rw [tget_tput_ne _ x same]

end

/-! Work on a log: the channels and the state of the group -/

/-- Of a log only its rows, its superblocks and the erase blocks of its channels differ. -/
structure LogKept (l m : LogRows) : Prop where
  chans : ChansKept l.flcs m.flcs
  state : m.group.state = l.group.state

section
variable {l m : LogRows}

theorem LogKept.refl (l : LogRows) : LogKept l l := ⟨.refl _, rfl⟩

theorem LogKept.trans {n : LogRows} (h : LogKept l m) (k : LogKept m n) : LogKept l n :=
  ⟨h.chans.trans k.chans, k.state.trans h.state⟩

theorem LogKept.foldl {α : Type} {f : LogRows → α → LogRows} (hf : ∀ l a, LogKept l (f l a)) (xs : List α) (l : LogRows) :
    LogKept l (xs.foldl f l) :=
  List.foldlRecOn xs f (motive := fun m => LogKept l m) (.refl l) fun _ h a _ => h.trans (hf _ a)

theorem eraseBlock_flc (n : Nat) (nxt : BlkState) (e : Erased) :
    (eraseBlock n nxt e).flc = { e.flc with blocks := (eraseBlock n nxt e).flc.blocks } := by
  unfold eraseBlock
  dsimp only
  (repeat' split) <;> rfl

theorem takeBlock_flc {fuel n : Nat} {e e' : Erased} (h : takeBlock fuel e = some (n, e')) :
    e'.flc = { e.flc with blocks := e'.flc.blocks } := by
  induction fuel generalizing e with
  | zero => cases h
  | succ fuel ih =>
    unfold takeBlock at h
    split at h
    · cases h
    · dsimp only at h
      split at h
      · cases h
        rfl
      · split at h
        · cases h
          exact eraseBlock_flc _ _ _
        · rw [ih h, eraseBlock_flc]

theorem logKept_addBlock {bs bs' : List Nat} {i : Nat} (h : addBlock (some (bs, l)) i = some (bs', m)) : LogKept l m := by
  unfold addBlock at h
  dsimp only at h
  split at h
  · cases h
  · next took =>
    cases h
    exact ⟨chansKept_tput _ (by rw [takeBlock_flc took]), rfl⟩

theorem logKept_addBlocks {is bs bs' : List Nat} (h : is.foldl addBlock (some (bs, l)) = some (bs', m)) : LogKept l m := by
  induction is generalizing bs l with
  | nil =>
    cases h
    exact .refl _
  | cons i is ih =>
    rw [List.foldl_cons] at h
    cases step : addBlock (some (bs, l)) i with
    | none =>
      have stuck : is.foldl addBlock none = none := List.foldlRecOn is addBlock (motive := fun x => x = none) rfl
        fun x hx i _ => by rw [hx]; rfl
      rw [step, stuck] at h
      cases h
    | some x =>
      rw [step] at h
      exact (logKept_addBlock step).trans (ih h)

theorem logKept_formSb {st : SbState} {k : Nat} (h : formSb st l = some (k, m)) : LogKept l m := by
  unfold formSb at h
  split at h
  · cases h
  · next formed =>
    obtain ⟨_, -, h⟩ := Option.map_eq_some_iff.1 h
    cases h
    obtain ⟨chans, state⟩ := logKept_addBlocks formed
    exact ⟨chans, state⟩

theorem logKept_preErase (n : Nat) (l : LogRows) : LogKept l (preErase n l) := by
  induction n generalizing l with
  | zero => exact .refl _
  | succ n ih =>
    have step : preErase (n + 1) l = (match formSb .erased l with | some (_, m) => preErase n m | none => l) := rfl
    cases formed : formSb .erased l with
    | none =>
      rw [step, formed]
      exact .refl _
    | some x =>
      rw [step, formed]
      exact (logKept_formSb formed).trans (ih _)

/-! Superblocks that lose an erase block (R141, R146) -/

theorem logKept_returnAt (l : LogRows) (x : Nat × Nat) : LogKept l (returnAt l x) := by
  unfold returnAt
  dsimp only
  split
  · exact .refl _
  · exact ⟨chansKept_tput _ rfl, rfl⟩

theorem logKept_closeSb (l : LogRows) (k : Nat) : LogKept l (closeSb l k) := by
  unfold closeSb
  split
  · exact ⟨.refl _, rfl⟩
  · have given : LogKept l { l with group := setSb k Superblock.reset l.group } := ⟨.refl _, rfl⟩
    exact given.trans (.foldl logKept_returnAt _ _)
  · exact .refl _

theorem returnAt_counts (l : LogRows) (x : Nat × Nat) : (returnAt l x).erases = l.erases ∧ (returnAt l x).retired = l.retired := by
  unfold returnAt
  dsimp only
  split <;> exact ⟨rfl, rfl⟩

/-- Nothing is erased or retired where superblocks are closed. -/
theorem closeSb_counts (l : LogRows) (k : Nat) : (closeSb l k).erases = l.erases ∧ (closeSb l k).retired = l.retired := by
  unfold closeSb
  split
  · exact ⟨rfl, rfl⟩
  · exact List.foldlRecOn _ returnAt (motive := fun m : LogRows => m.erases = l.erases ∧ m.retired = l.retired) ⟨rfl, rfl⟩
      fun m h x _ => by simpa only [returnAt_counts] using h
  · exact ⟨rfl, rfl⟩

/-- What is out of use does not come back with the other blocks of its superblock. -/
theorem outOfUse_returnAt {c n : Nat} (x : Nat × Nat) (hr : trising 0 l.flcs = true) (h : OutOfUse c n l.flcs) :
    OutOfUse c n (returnAt l x).flcs := by
  unfold returnAt
  dsimp only
  split
  · exact h
  · next good =>
    unfold OutOfUse at h ⊢
    by_cases same : c = l.base + x.2
    · rw [same] at h ⊢
      rw [tget_tput_same _ _ hr]
      exact blockAt_setBlock_of_bad _ h fun block => good (block ▸ h)
    · rwa [tget_tput_ne _ hr same]

theorem outOfUse_closeSb {c n : Nat} (k : Nat) (hr : trising 0 l.flcs = true) (h : OutOfUse c n l.flcs) :
    OutOfUse c n (closeSb l k).flcs := by
  unfold closeSb
  split
  · exact h
  · exact (List.foldlRecOn (b := { l with group := setSb k Superblock.reset l.group }) _ returnAt
      (motive := fun m : LogRows => trising 0 m.flcs = true ∧ OutOfUse c n m.flcs) ⟨hr, h⟩
      fun m hm x _ => ⟨(logKept_returnAt m x).chans.rising hm.1, outOfUse_returnAt x hm.1 hm.2⟩).2
  · exact h

end

/-! The log of a group in the state -/

/-- Beside the counters only the groups and the channels of flash differ. -/
def LogOnly (s t : State) : Prop :=
  t = { s with cnts := t.cnts, fmg := { s.fmg with g0 := t.fmg.g0, g1 := t.fmg.g1, flcs := t.fmg.flcs } }

section
variable {s t : State}

theorem LogOnly.trans {u : State} (h : LogOnly s t) (k : LogOnly t u) : LogOnly s u := by
  refine Eq.trans k ?_
  rw [h]

theorem LogOnly.mem (h : LogOnly s t) : t.mem = s.mem := congrArg (·.mem) h

theorem LogOnly.descs (h : LogOnly s t) : t.descs = s.descs := congrArg (·.descs) h

theorem LogOnly.plants (h : LogOnly s t) : t.plants = s.plants := congrArg (·.plants) h

theorem LogOnly.ple (h : LogOnly s t) : t.ple = s.ple := congrArg (·.ple) h

theorem LogOnly.mge (h : LogOnly s t) : t.mge = s.mge := congrArg (·.mge) h

theorem LogOnly.slots (h : LogOnly s t) : t.fmg.slots = s.fmg.slots := congrArg (·.fmg.slots) h

theorem LogOnly.relocating (h : LogOnly s t) : t.fmg.relocating = s.fmg.relocating := congrArg (·.fmg.relocating) h

theorem logOnly_count (p off : Nat) : LogOnly s (count p off s) := rfl

theorem logOnly_setFlc (c : Nat) (f : Flc) : LogOnly s (setFlc c f s) := rfl

theorem logOnly_noteFault (c n : Nat) : LogOnly s (noteFault c n s) := rfl

theorem logOnly_setFgroup (g : Nat) (v : Group) : LogOnly s (setFgroup g v s) := by
  unfold setFgroup
  split <;> rfl

theorem setFgroup_cnts (g : Nat) (v : Group) : (setFgroup g v s).cnts = s.cnts := by
  unfold setFgroup
  split <;> rfl

theorem setFgroup_flcs (g : Nat) (v : Group) : (setFgroup g v s).fmg.flcs = s.fmg.flcs := by
  unfold setFgroup
  split <;> rfl

theorem fgroup_setFgroup (g : Nat) (v : Group) : fgroup (setFgroup g v s) g = v := by
  unfold fgroup setFgroup
  split <;> rfl

theorem fgroup_setFgroup_ne {g h : Nat} (v : Group) (hg : g < 2) (hh : h < 2) (e : h ≠ g) :
    fgroup (setFgroup g v s) h = fgroup s h := by
  unfold fgroup setFgroup
  split
  · rw [if_neg (by omega)]
  · rw [if_pos (by omega)]

theorem logOnly_putLog (g : Nat) (l : LogRows) : LogOnly s (putLog g l s) := by
  unfold putLog setFgroup
  split <;> rfl

theorem putLog_flcs (g : Nat) (l : LogRows) : (putLog g l s).fmg.flcs = l.flcs := by
  rw [putLog, countBy_fmg, countBy_fmg, setFgroup_flcs]

theorem fgroup_putLog (g : Nat) (l : LogRows) : fgroup (putLog g l s) g = l.group := fgroup_setFgroup g l.group

theorem fgroup_putLog_ne {g h : Nat} (l : LogRows) (hg : g < 2) (hh : h < 2) (e : h ≠ g) : fgroup (putLog g l s) h = fgroup s h :=
  fgroup_setFgroup_ne l.group hg hh e

theorem logOnly_appendRows {g n : Nat} {rows : List (Nat × Nat)} (h : appendRows g n s = some (rows, t)) : LogOnly s t := by
  unfold appendRows at h
  split at h
  · cases h
  · cases h
    exact logOnly_putLog _ _

theorem logOnly_freeEmptySbs (g : Nat) : LogOnly s (freeEmptySbs g s) := logOnly_putLog _ _

theorem slotAt_congr (h : t.fmg.slots = s.fmg.slots) (frame : Nat) : slotAt t frame = slotAt s frame := by
  rw [slotAt, h, slotAt]

theorem slotAt_setSlot (frame : Nat) (x : Slot) : slotAt (setSlot frame (some x) s) frame = some x :=
  tget_tput_listed _ _ (Option.some_ne_none x)

end
end Sys2Proof.Machine
end

section
/-! PROOFS. Collection and recovery (O36): the ladders that start on a row, codewords that are recovered or poisoned, the end of
reads that no release waits for, and from these what GC_RELOCATE, RETRY_STEP_DONE, REBUILD_DONE and CXL_FLASH_DEADLINE do. -/

namespace Sys2Proof.Machine

/-! Answers to requests (Table 08-2) -/

section
variable {s : State}

theorem portsOnly_sendTo (p : Pkt) (data : List Byte) : PortsOnly s (sendTo p data s) := by
  unfold sendTo
  split
  · exact portsOnly_sendPkt _ _ _
  · rfl

theorem portsOnly_answer (fport : Nat) (p : Pkt) (data : List Byte) : PortsOnly s (answer fport p data s) := by
  unfold answer
  split
  · exact portsOnly_sendPkt _ _ _
  · exact portsOnly_sendTo _ _

theorem portsOnly_sendError (fport src tag : Nat) (st : Status) : PortsOnly s (sendError fport src tag st s) := by
  unfold sendError
  dsimp only
  split
  · exact .trans (portsOnly_setFport fport _) (portsOnly_answer _ _ _)
  · rfl

theorem portsOnly_poisonCxl (port dpa : Nat) : PortsOnly s (poisonCxl port dpa s) := rfl

theorem poisonCxl_sent (port dpa : Nat) : (poisonCxl port dpa s).sent = s.sent ++ [.cxlPoison port dpa] := rfl

theorem raise_sent (p : Nat) (code : Status) (sev : Sev) (cause ctx block detail : Nat) (dests : List Nat) (integrity : Bool) :
    (raise p code sev cause ctx block detail dests integrity s).sent = s.sent := rfl

theorem portsOnly_answerBad (src : ReadSrc) (st : Status) : PortsOnly s (answerBad src st s) := by
  unfold answerBad
  split
  · exact portsOnly_poisonCxl _ _
  · rfl
  · exact portsOnly_sendError _ _ _ _

end

/-! The end of reads that no release waits for (R45, R51, R99) -/

/-- Beside rings and what was sent, only drains, their commands and the table store differ. -/
def ReadsOver (s t : State) : Prop :=
  t = { s with sent := t.sent, cnts := t.cnts, hiu := t.hiu, ple := { s.ple with drains := t.ple.drains },
               ppu := { s.ppu with tables := t.ppu.tables } }

section
variable {s t : State}

theorem ReadsOver.trans {u : State} (h : ReadsOver s t) (k : ReadsOver t u) : ReadsOver s u := by
  refine Eq.trans k ?_
  rw [h]

theorem ReadsOver.mem (h : ReadsOver s t) : t.mem = s.mem := congrArg (·.mem) h

theorem ReadsOver.descs (h : ReadsOver s t) : t.descs = s.descs := congrArg (·.descs) h

theorem ReadsOver.fmg (h : ReadsOver s t) : t.fmg = s.fmg := congrArg (·.fmg) h

theorem RingsOnly.readsOver (h : RingsOnly s t) : ReadsOver s t := by
  rw [ReadsOver, h]

theorem readsOver_endDrain (d : Drain) : ReadsOver s (endDrain d s) := by
  unfold endDrain
  split
  · split
    · exact (ringsOnly_complete _ _ _ _).readsOver
    · rfl
  · rfl

theorem readsOver_settleDrains : ReadsOver s (settleDrains s) :=
  List.foldlRecOn s.ple.drains _ (motive := fun t => ReadsOver s t) rfl fun _ h d _ => h.trans (readsOver_endDrain d)

theorem settleDrains_of_none (h : s.ple.drains = []) : settleDrains s = s := by
  rw [settleDrains, h, List.foldl_nil, ← h]

theorem readsOver_releaseTables : ReadsOver s (releaseTables s) := by
  rw [ReadsOver, releaseTables_frame]

theorem releaseTables_sent : (releaseTables s).sent = s.sent := by rw [releaseTables_frame]

theorem readsEnded_of_none (h : s.ple.leaving = []) : readsEnded s = releaseTables (settleDrains s) := by
  rw [readsEnded, h, List.filter_nil, List.filter_nil, List.foldl_nil, ← h]

theorem readsEnded_idle (leaving : s.ple.leaving = []) (drains : s.ple.drains = []) : readsEnded s = releaseTables s := by
  rw [readsEnded_of_none leaving, settleDrains_of_none drains]

theorem readsOver_readsEnded (h : s.ple.leaving = []) : ReadsOver s (readsEnded s) := by
  rw [readsEnded_of_none h]
  exact readsOver_settleDrains.trans readsOver_releaseTables

end

/-! The recovery of a codeword -/

section
variable {s t : State} {k b : Nat} {r : Recovery}

theorem recoveryOf_congr (h : t.fmg.recoveries = s.fmg.recoveries) (k b : Nat) : recoveryOf t k b = recoveryOf s k b := by
  rw [recoveryOf, h, recoveryOf]

theorem recoveryOf_dropRecovery (k b : Nat) : recoveryOf (dropRecovery k b s) k b = none := by
  simp [recoveryOf, dropRecovery]

theorem recoveryOf_setRecovery {f : Recovery → Recovery} (hf : ∀ r, (f r).block = r.block) (h : recoveryOf s k b = some r) :
    recoveryOf (setRecovery k b f s) k b = some (f r) := by
  have same : ((fun r : Recovery => decide (r.block = blockIdx k b)) ∘ fun r => if r.block = blockIdx k b then f r else r) =
      fun r => decide (r.block = blockIdx k b) := by
    funext r
    by_cases mine : r.block = blockIdx k b <;> simp [mine, hf]
  unfold recoveryOf at h
  have mine : r.block = blockIdx k b := by simpa using List.find?_some h
  simp only [recoveryOf, setRecovery, List.find?_map, same, h, Option.map_some, if_pos mine]

theorem recoveryOf_isSome (k b : Nat) : (recoveryOf s k b).isSome = recovering s k b := by
  rw [recoveryOf, recovering, List.isSome_find?]

/-! Ladders that start (R146, R150) -/

/-- Recoveries were opened behind those that are open, and the failures of their erase blocks noted. -/
structure LaddersOnly (s t : State) : Prop where
  frame : t = { s with cnts := t.cnts, fmg := { s.fmg with flcs := t.fmg.flcs, unentered := t.fmg.unentered,
                                                           recoveries := t.fmg.recoveries } }
  chans : ChansKept s.fmg.flcs t.fmg.flcs
  opened : s.fmg.recoveries <+: t.fmg.recoveries

theorem LaddersOnly.refl (s : State) : LaddersOnly s s := ⟨rfl, .refl _, List.prefix_rfl⟩

theorem LaddersOnly.trans {u : State} (h : LaddersOnly s t) (k : LaddersOnly t u) : LaddersOnly s u := by
  refine ⟨?_, h.chans.trans k.chans, h.opened.trans k.opened⟩
  refine Eq.trans k.frame ?_
  rw [h.frame]

theorem LaddersOnly.mem (h : LaddersOnly s t) : t.mem = s.mem := congrArg (·.mem) h.frame

theorem LaddersOnly.descs (h : LaddersOnly s t) : t.descs = s.descs := congrArg (·.descs) h.frame

theorem LaddersOnly.recoveryOf (h : LaddersOnly s t) (found : recoveryOf s k b = some r) : recoveryOf t k b = some r := by
  obtain ⟨later, opened⟩ := h.opened
  unfold Machine.recoveryOf at found ⊢
  rw [← opened, List.find?_append, found, Option.some_or]

theorem LaddersOnly.recovering (h : LaddersOnly s t) (open_ : recovering s k b = true) : recovering t k b = true := by
  obtain ⟨later, opened⟩ := h.opened
  unfold Machine.recovering at open_ ⊢
  rw [← opened, List.any_append, open_, Bool.true_or]

theorem laddersOnly_count (p off : Nat) : LaddersOnly s (count p off s) := ⟨rfl, .refl _, List.prefix_rfl⟩

theorem laddersOnly_noteFault (c n : Nat) : LaddersOnly s (noteFault c n s) := ⟨rfl, chansKept_tput _ rfl, List.prefix_rfl⟩

theorem laddersOnly_openRecovery (det : Nat) (rebuild : Bool) (k b : Nat) : LaddersOnly s (openRecovery det rebuild k b s) := by
  unfold openRecovery
  dsimp only
  split
  · exact .refl s
  · exact ⟨rfl, .refl _, List.prefix_append _ _⟩

theorem laddersOnly_startLadder (det k b : Nat) : LaddersOnly s (startLadder det k b s) := by
  unfold startLadder
  dsimp only
  split
  · exact .refl s
  · refine .trans (.trans ?_ (laddersOnly_count _ _)) (laddersOnly_openRecovery _ _ _ _)
    split
    · exact laddersOnly_noteFault _ _
    · exact .refl s

theorem recovering_openRecovery (det : Nat) (rebuild : Bool) (k b : Nat) :
    recovering (openRecovery det rebuild k b s) k b = true := by
  unfold openRecovery
  dsimp only
  split
  · assumption
  · simp [recovering]

theorem recovering_startLadder (det k b : Nat) : recovering (startLadder det k b s) k b = true := by
  unfold startLadder
  split
  · assumption
  · exact recovering_openRecovery _ _ _ _

theorem laddersOnly_startLadders (det k : Nat) (l : List Nat) : LaddersOnly s (l.foldl (fun s x => startLadder det k x s) s) :=
  List.foldlRecOn l _ (motive := fun t => LaddersOnly s t) (.refl s) fun _ h x _ => h.trans (laddersOnly_startLadder det k x)

theorem recovering_startLadders (det k : Nat) {l : List Nat} {x : Nat} (hx : x ∈ l) :
    recovering (l.foldl (fun s x => startLadder det k x s) s) k x = true := by
  induction l generalizing s with
  | nil => cases hx
  | cons y l ih =>
    rcases List.mem_cons.1 hx with rfl | later
    · exact (laddersOnly_startLadders det k l).recovering (recovering_startLadder det k x)
    · exact ih later

theorem laddersOnly_startMates (det k b : Nat) : LaddersOnly s (startMates det k b s) := laddersOnly_startLadders det k _

theorem recovering_startMates (det k b : Nat) : ∀ x ∈ failingMates s (mapAt s k).frame b,
    recovering (startMates det k b s) k x = true := fun _ hx => recovering_startLadders det k hx

/-! A codeword that has been recovered (R152) -/

theorem queueUrgent_frame (frame : Nat) :
    queueUrgent frame s = { s with fmg := { s.fmg with relocating := (queueUrgent frame s).fmg.relocating } } := by
  unfold queueUrgent
  split <;> rfl

theorem mem_relocating_queueUrgent (frame : Nat) : frame ∈ (queueUrgent frame s).fmg.relocating := by
  unfold queueUrgent
  split
  · next queued => simpa using queued
  · simp

/-- The codeword of a block has no errors, its recovery is closed, and its frame is queued for relocation. -/
def mended (k b counter : Nat) (s : State) : State :=
  let hb := homeKey .t3 (mapAt s k).frame b
  queueUrgent (mapAt s k).frame (setPlant hb { plantAt s hb with ue := [] } (count Pg.fmg counter (dropRecovery k b s)))

theorem mended_frame (counter : Nat) : mended k b counter s =
    { s with plants := (mended k b counter s).plants, cnts := (mended k b counter s).cnts,
             fmg := { s.fmg with recoveries := (dropRecovery k b s).fmg.recoveries,
                                 relocating := (mended k b counter s).fmg.relocating } } := by
  unfold mended
  dsimp only
  rw [queueUrgent_frame]
  rfl

/-- The recovery of a codeword that nothing waits for ends with its frame queued for relocation. -/
theorem recovered_ends (counter : Nat) (waiters : r.waiters = []) (leaving : s.ple.leaving = []) :
    recoveryOf (recovered k b r counter s) k b = none ∧ (mapAt s k).frame ∈ (recovered k b r counter s).fmg.relocating ∧
      (recovered k b r counter s).mem = s.mem ∧ (recovered k b r counter s).descs = s.descs := by
  have ends : recovered k b r counter s = readsEnded (mended k b counter s) := by
    rw [recovered, waiters]
    rfl
  have ended : ReadsOver (mended k b counter s) (readsEnded (mended k b counter s)) :=
    readsOver_readsEnded (by rw [mended_frame]; exact leaving)
  rw [ends, recoveryOf_congr (congrArg (·.recoveries) ended.fmg), ended.fmg, ended.mem, ended.descs]
  refine ⟨?_, mem_relocating_queueUrgent _, ?_, ?_⟩
  · rw [mended_frame]
    exact recoveryOf_dropRecovery k b
  · rw [mended_frame]
  · rw [mended_frame]

/-! A codeword that is poisoned (R153, Table 06-5) -/

/-- The parties to a poisoned block have been told. -/
def PoisonTold (s t : State) : Prop :=
  t = { s with sent := t.sent, pages := t.pages, cnts := t.cnts, router := t.router, cdc := t.cdc, fports := t.fports }

theorem PoisonTold.trans {u : State} (h : PoisonTold s t) (k : PoisonTold t u) : PoisonTold s u := by
  refine Eq.trans k ?_
  rw [h]

theorem PoisonTold.mem (h : PoisonTold s t) : t.mem = s.mem := congrArg (·.mem) h

theorem PoisonTold.descs (h : PoisonTold s t) : t.descs = s.descs := congrArg (·.descs) h

theorem PoisonTold.ple (h : PoisonTold s t) : t.ple = s.ple := congrArg (·.ple) h

theorem PoisonTold.fmg (h : PoisonTold s t) : t.fmg = s.fmg := congrArg (·.fmg) h

theorem PortsOnly.poisonTold (h : PortsOnly s t) : PoisonTold s t := by
  rw [PoisonTold, h]

theorem poisonTold_foldl {α : Type} {f : State → α → State} (hf : ∀ s a, PoisonTold s (f s a)) (l : List α) :
    PoisonTold s (l.foldl f s) :=
  List.foldlRecOn l f (motive := fun t => PoisonTold s t) rfl fun _ h a _ => h.trans (hf _ a)

theorem poisonTold_count (p off : Nat) : PoisonTold s (count p off s) := rfl

theorem poisonTold_raise (p : Nat) (code : Status) (sev : Sev) (cause ctx block detail : Nat) (dests : List Nat) (integrity : Bool) :
    PoisonTold s (raise p code sev cause ctx block detail dests integrity s) := rfl

theorem poisonTold_dropTray (slab b : Nat) : PoisonTold s (dropTray slab b s) := rfl

/-- A block in the poison record, and what the status registers of the flash manager and of the integrity unit say of it. -/
def poisonEntered (det k b : Nat) (s : State) : State :=
  let e := mapAt s k
  let (ch, cw) := codewordPlace ((slotAt s e.frame).map (·.group) |>.getD 0) b
  { s with
    fmg := { s.fmg with poisonRec := s.fmg.poisonRec ++ [blockIdx k b], poisonLast := (k, b, (mappers s k).length, cw, ch) }
    ice := { s.ice with lastUe := ⟨5, 3, det, ownerOf s e, blockIdx k b⟩ } }

theorem poisonFlash_told (det : Nat) (waiters : List FlashWaiter) (room : s.fmg.poisonRec.length < 65536) :
    ∃ t, PoisonTold (poisonEntered det k b s) t ∧ poisonFlash det k b waiters s = readsEnded t := by
  refine ⟨_, ?_, rfl⟩
  have notFull : decide (65536 ≤ s.fmg.poisonRec.length) = false := by simpa using room
  refine .trans ?_ (poisonTold_foldl (fun _ _ => (portsOnly_answerBad _ _).poisonTold) _)
  refine .trans ?_ (poisonTold_dropTray k b)
  refine .trans ?_ (poisonTold_foldl (fun _ _ => poisonTold_raise _ _ _ _ _ _ _ _ _) _)
  rw [notFull]
  split <;> rfl

/-- A recovery that fails poisons its block, the record having room; nothing of the data changes. -/
theorem failRecovery_poisons (found : recoveryOf s k b = some r) (leaving : s.ple.leaving = [])
    (room : s.fmg.poisonRec.length < 65536) :
    recoveryOf (failRecovery k b s) k b = none ∧ flashPoison (failRecovery k b s) k b = true ∧
      (failRecovery k b s).mem = s.mem ∧ (failRecovery k b s).descs = s.descs := by
  unfold failRecovery
  rw [found]
  dsimp only
  split
  · next poisoned => exact ⟨recoveryOf_dropRecovery k b, poisoned, rfl, rfl⟩
  · obtain ⟨t, told, ends⟩ := poisonFlash_told (s := dropRecovery k b s) (k := k) (b := b) r.det r.waiters room
    have ended : ReadsOver t (readsEnded t) := readsOver_readsEnded (by rw [told]; exact leaving)
    rw [ends, recoveryOf_congr (congrArg (·.recoveries) ended.fmg), flashPoison, ended.fmg, ended.mem, ended.descs]
    refine ⟨?_, ?_, ?_, ?_⟩
    · rw [told]
      exact recoveryOf_dropRecovery k b
    · rw [told]
      simp [poisonEntered]
    · rw [told]
      rfl
    · rw [told]
      rfl

/-! The rows of recovery -/

/-- Where no rebuild waits for the ladder of a codeword and its row can be read, its end starts the rebuild. -/
theorem ladderEnds_rebuilds (found : recoveryOf s k b = some r) (alone : rebuildsOn s k b = [])
    (readable : (rowMates b).any (fun x => pageLost s (mapAt s k).frame x) = false) :
    recoveryOf (ladderEnds k b r s) k b = some { r with step := r.step + 1, rebuild := true } ∧
      (∀ x ∈ failingMates s (mapAt s k).frame b, (recoveryOf (ladderEnds k b r s) k x).isSome = true) ∧
      (ladderEnds k b r s).mem = s.mem ∧ (ladderEnds k b r s).descs = s.descs := by
  have starts : ladderEnds k b r s =
      startMates r.det k b (setRecovery k b (fun r => { r with step := r.step + 1, rebuild := true }) s) := by
    simp only [ladderEnds, alone, readable, List.isEmpty_nil, Bool.not_false, Bool.and_self, if_true]
  have ladders := laddersOnly_startMates (s := setRecovery k b (fun r => { r with step := r.step + 1, rebuild := true }) s) r.det k b
  rw [starts]
  refine ⟨ladders.recoveryOf (recoveryOf_setRecovery (fun _ => rfl) found), fun x hx => ?_, ladders.mem, ladders.descs⟩
  rw [recoveryOf_isSome]
  exact recovering_startMates r.det k b x hx

/-- RETRY_STEP_DONE on a ladder in T3. -/
theorem exec_retryStepDone (hw : awake s = true) (found : recoveryOf s k b = some r) (tier : (mapAt s k).tier = some .t3)
    (ladder : r.rebuild = false) (ok : Bool) : exec (.retryStepDone k b ok) s = .next (
      if ok && recoveredOk s k b then recovered k b r 0xE10 s
      else if r.step + 1 < fld s Pg.fmg 0x410 3 0 then
        setRecovery k b (fun r => { r with step := r.step + 1, soft := softStep s (r.step + 1) }) s
      else ladderEnds k b r s) := by
  change Host.Outcome.next (whenAwake s _) = _
  rw [whenAwake_of_awake hw, found]
  simp only [ladder, tier, Bool.false_eq_true, ne_eq, not_true_eq_false, or_self, if_false]

/-- REBUILD_DONE in T3, once no page of the row is lost and no other codeword of it fails. -/
theorem exec_rebuildDone (hw : awake s = true) (found : recoveryOf s k b = some r) (tier : (mapAt s k).tier = some .t3)
    (rebuild : r.rebuild = true) (readable : (rowMates b).any (fun x => pageLost s (mapAt s k).frame x) = false)
    (mates : failingMates s (mapAt s k).frame b = []) (ok : Bool) : exec (.rebuildDone k b ok) s = .next (
      if ok && recoveredOk s k b then recovered k b r 0xE18 s else failRecovery k b s) := by
  change Host.Outcome.next (whenAwake s _) = _
  rw [whenAwake_of_awake hw]
  dsimp only
  rw [found]
  dsimp only
  rw [if_neg (by simp [rebuild, tier]), if_neg (by simp [readable]), if_neg (by simp [mates])]

/-! Collection (R143) -/

theorem rebuildPages_of_no_plants (h : s.plants = []) (frame : Nat) : rebuildPages frame s = s := by
  rw [rebuildPages, h]
  rfl

theorem scanBlocksOf_of_no_keys {tier : Tier} {frame : Nat} (h : scanKeys s tier frame = []) (slab : Nat) (p : Nat → Bool) :
    scanBlocksOf slab tier frame p s = (s, true) := by
  rw [scanBlocksOf, h]
  rfl

/-- A slot with its rows at fresh places, its frame no longer queued. -/
def relocated (frame : Nat) (x : Slot) (rows : List (Nat × Nat)) (t : State) : State :=
  let u := setSlot frame (some { x with where_ := toExtents rows }) t
  { u with fmg := { u.fmg with relocating := u.fmg.relocating.filter (fun f => decide (f ≠ frame)) } }

/-- A slab without errors is written again at the head of the log. -/
theorem relocate_clean {frame : Nat} {x : Slot} {rows : List (Nat × Nat)} (plants : s.plants = [])
    (clean : scanKeys s .t3 frame = []) (took : appendRows x.group 69 s = some (rows, t)) :
    relocate frame x s = count Pg.fmg 0xE30 (freeEmptySbs x.group (relocated frame x rows t)) := by
  have none_ : t.plants = [] := (logOnly_appendRows took).plants.trans plants
  unfold relocate
  rw [rebuildPages_of_no_plants plants, scanBlocksOf_of_no_keys clean]
  dsimp only
  rw [took]
  dsimp only
  rw [none_]
  rfl

theorem exec_gcRelocate {g frame : Nat} {x : Slot} (hw : awake s = true) (hg : g < 2) (online : (fgroup s g).state = .online)
    (turn : gcUrgent s g = false ∨ movesFirst s = false) (picked : gcFrame s g = some frame) (slot : slotAt s frame = some x) :
    exec (.gcRelocate g) s = .next (relocate frame x s) := by
  change Host.Outcome.next (whenAwake s _) = _
  have runs : ¬ (2 ≤ g ∨ (fgroup s g).state ≠ .online ∨ (gcUrgent s g = true ∧ movesFirst s = true)) := by
    rcases turn with calm | last
    · simp [Nat.not_le.2 hg, online, calm]
    · simp [Nat.not_le.2 hg, online, last]
  rw [whenAwake_of_awake hw]
  rw [if_neg runs, picked]
  dsimp only
  rw [slot]

/-! CXL.mem reads that wait too long (R149) -/

/-- The read of a DPA that has waited 120 µs for a recovery waits no longer. -/
def readEnded (port a : Nat) (r : Recovery) (s : State) : State :=
  { s with fmg := { s.fmg with recoveries := s.fmg.recoveries.map (fun x =>
    if x.block = r.block then { x with waiters := x.waiters.eraseP (fun w =>
      decide (w.src = .cxl port a) && decide (w.since + 120000 ≤ s.now)) } else x) } }

/-- That read is answered with poison, and its event goes out. -/
def deadlineMet (port a : Nat) (r : Recovery) (ctx : Nat) (s : State) : State :=
  poisonCxl port a (raise Pg.fmg .poisoned .contained 7 ctx r.block 0 [pfOf port] true (count Pg.fmg 0xE28 (readEnded port a r s)))

section
variable (port a ctx : Nat) (r : Recovery)

theorem poisonTold_deadlineMet : PoisonTold (readEnded port a r s) (deadlineMet port a r ctx s) :=
  .trans (poisonTold_count _ _) (.trans (poisonTold_raise _ _ _ _ _ _ _ _ _) (portsOnly_poisonCxl port a).poisonTold)

theorem deadlineMet_ple : (deadlineMet port a r ctx s).ple = s.ple := (poisonTold_deadlineMet port a ctx r).ple

theorem deadlineMet_mem : (deadlineMet port a r ctx s).mem = s.mem := (poisonTold_deadlineMet port a ctx r).mem

theorem deadlineMet_descs : (deadlineMet port a r ctx s).descs = s.descs := (poisonTold_deadlineMet port a ctx r).descs

theorem deadlineMet_sent : (deadlineMet port a r ctx s).sent = s.sent ++ [.cxlPoison port a] := by
  rw [deadlineMet, poisonCxl_sent, raise_sent, count_sent]
  rfl

end

theorem exec_cxlFlashDeadline {port dpa n d : Nat} {p : Part} (hw : awake s = true)
    (waits : s.fmg.recoveries.find? (fun r => r.waiters.any (fun w =>
      decide (w.src = .cxl port (dpa / 64 * 64)) && decide (w.since + 120000 ≤ s.now))) = some r)
    (part : dpaOf s port (dpa / 64 * 64) = some (n, p, d)) :
    exec (.cxlFlashDeadline port dpa) s = .next (readsEnded (deadlineMet port (dpa / 64 * 64) r p.ctx s)) := by
  change Host.Outcome.next (whenAwake s _) = _
  rw [whenAwake_of_awake hw]
  dsimp only
  rw [waits, part]
  rfl

end
end Sys2Proof.Machine

open Sys2Proof Sys2Proof.Machine

/-- Settles O36: each row comes to one operation on the log or on the recoveries; of these the log, the ladders, the poison record and
the end of reads leave homes and descriptors alone. -/
theorem flashCollectAndRecover : Obligations.FlashCollectAndRecover := by
  unfold Obligations.FlashCollectAndRecover
  refine ⟨?collect, ?recover, ?deadline⟩
  case collect =>
    intro s t g f x rows _ hw hg online turn picked slot plants clean took
    have append := logOnly_appendRows took
    have freed : LogOnly (relocated f x rows t) (count Pg.fmg 0xE30 (freeEmptySbs x.group (relocated f x rows t))) :=
      (logOnly_freeEmptySbs x.group).trans (logOnly_count _ _)
    refine ⟨_, (exec_gcRelocate hw hg online turn picked slot).trans (congrArg _ (relocate_clean plants clean took)),
      ?_, ?_, freed.mem.trans append.mem, freed.descs.trans append.descs, freed.ple.trans append.ple⟩
    · rw [slotAt_congr freed.slots]
      exact slotAt_setSlot f _
    · rw [freed.relocating]
      simp [relocated]
  case recover =>
    intro s k b r _ hw found tier
    refine ⟨fun ladder => ⟨?step, ?last, ?mended⟩, fun rebuild readable mates leaving => ⟨?poison, ?rebuilt⟩⟩
    case step =>
      intro more
      have row := exec_retryStepDone hw found tier ladder false
      rw [Bool.false_and, if_neg Bool.false_ne_true, if_pos more] at row
      exact ⟨_, row, recoveryOf_setRecovery (fun _ => rfl) found, rfl⟩
    case last =>
      intro done alone readable
      have row := exec_retryStepDone hw found tier ladder false
      rw [Bool.false_and, if_neg Bool.false_ne_true, if_neg (Nat.not_lt.2 done)] at row
      exact ⟨_, row, ladderEnds_rebuilds found alone readable⟩
    case mended =>
      intro waiters leaving good
      have row := exec_retryStepDone hw found tier ladder true
      rw [Bool.true_and, if_pos good] at row
      exact ⟨_, row, recovered_ends _ waiters leaving⟩
    case poison =>
      intro room
      have row := exec_rebuildDone hw found tier rebuild readable mates false
      rw [Bool.false_and, if_neg Bool.false_ne_true] at row
      exact ⟨_, row, failRecovery_poisons found leaving room⟩
    case rebuilt =>
      intro waiters good
      have row := exec_rebuildDone hw found tier rebuild readable mates true
      rw [Bool.true_and, if_pos good] at row
      exact ⟨_, row, recovered_ends _ waiters leaving⟩
  case deadline =>
    rintro s port dpa r ⟨n, p, d⟩ hw leaving drains waits part
    have row := exec_cxlFlashDeadline hw waits part
    have ends := readsEnded_idle (s := deadlineMet port (dpa / 64 * 64) r p.ctx s) (by rw [deadlineMet_ple, leaving])
      (by rw [deadlineMet_ple, drains])
    rw [ends] at row
    refine ⟨_, row, ?_, ?_, ?_⟩
    · rw [releaseTables_sent, deadlineMet_sent]
    · rw [releaseTables_mem, deadlineMet_mem]
    · rw [releaseTables_descs, deadlineMet_descs]

end

section
/-! PROOFS. Programming, failures of erase blocks and dies, and the mount of the flash (O35): what a loss of capacity leaves alone,
an erase block that goes out of use, a die that is retired, and what is left of a mount when held writes go on. -/

namespace Sys2Proof.Machine

/-! The count of slabs (R25, R26) -/

/-- Only the placement differs. -/
def PlacementOnly (s t : State) : Prop := t = { s with ple := t.ple }

section
variable {s t : State}

theorem PlacementOnly.trans {u : State} (h : PlacementOnly s t) (k : PlacementOnly t u) : PlacementOnly s u := by
  refine Eq.trans k ?_
  rw [h]

theorem placementOnly_trimPresented (n : Nat) : PlacementOnly s (trimPresented n s) := by
  induction n generalizing s with
  | zero => rfl
  | succ n ih =>
    unfold trimPresented
    split
    · exact .trans (t := { s with ple := { s.ple with map := tdel s.ple.map (s.ple.presented - 1),
                                                      presented := s.ple.presented - 1 } }) rfl ih
    · rfl

theorem placementOnly_setMap (k : Nat) (e : MapEntry) : PlacementOnly s (setMap k e s) := rfl

theorem placementOnly_retireFrom (k need : Nat) : PlacementOnly s (retireFrom k need s) := by
  induction k generalizing s need with
  | zero => rfl
  | succ k ih =>
    cases need with
    | zero => rfl
    | succ need =>
      unfold retireFrom
      split
      · exact (placementOnly_setMap k _).trans (ih need)
      · exact ih (need + 1)

theorem placementOnly_retireSlabs : PlacementOnly s (retireSlabs s) := by
  unfold retireSlabs
  dsimp only
  split
  · rfl
  · exact (placementOnly_retireFrom _ _).trans (placementOnly_trimPresented _)

theorem placementOnly_recountSlabs : PlacementOnly s (recountSlabs s) :=
  .trans (t := { s with ple := _ }) rfl placementOnly_retireSlabs

end

/-! A loss of capacity (R141, R146) -/

/-- Beside the counters and the placement only the groups, the channels, the frames to relocate and what capacity is left of flash
differ. -/
def CapacityOnly (s t : State) : Prop :=
  t = { s with cnts := t.cnts, ple := t.ple,
               fmg := { s.fmg with g0 := t.fmg.g0, g1 := t.fmg.g1, flcs := t.fmg.flcs, relocating := t.fmg.relocating,
                                   spareExhausted := t.fmg.spareExhausted, usableFrames := t.fmg.usableFrames } }

section
variable {s t : State}

theorem CapacityOnly.trans {u : State} (h : CapacityOnly s t) (k : CapacityOnly t u) : CapacityOnly s u := by
  refine Eq.trans k ?_
  rw [h]

theorem CapacityOnly.mem (h : CapacityOnly s t) : t.mem = s.mem := congrArg (·.mem) h

theorem CapacityOnly.mge (h : CapacityOnly s t) : t.mge = s.mge := congrArg (·.mge) h

theorem CapacityOnly.slots (h : CapacityOnly s t) : t.fmg.slots = s.fmg.slots := congrArg (·.fmg.slots) h

theorem LogOnly.capacityOnly (h : LogOnly s t) : CapacityOnly s t := by
  rw [CapacityOnly, h]

theorem PlacementOnly.capacityOnly (h : PlacementOnly s t) : CapacityOnly s t := by
  rw [CapacityOnly, h]

theorem settleSpare_frame : settleSpare s =
    { s with ple := (settleSpare s).ple,
             fmg := { s.fmg with spareExhausted := (settleSpare s).fmg.spareExhausted,
                                 usableFrames := (settleSpare s).fmg.usableFrames } } := by
  unfold settleSpare
  dsimp only
  split
  · rfl
  · split
    · rfl
    · rw [show retireSlabs _ = _ from placementOnly_retireSlabs]

theorem settleSpare_cnts : (settleSpare s).cnts = s.cnts := by rw [settleSpare_frame]

theorem settleSpare_flcs : (settleSpare s).fmg.flcs = s.fmg.flcs := by rw [settleSpare_frame]

theorem capacityOnly_settleSpare : CapacityOnly s (settleSpare s) := by
  rw [CapacityOnly, settleSpare_frame]

theorem capacityOnly_queueUrgent (frame : Nat) : CapacityOnly s (queueUrgent frame s) := by
  rw [CapacityOnly, queueUrgent_frame]

theorem logOnly_closeSbs (g : Nat) (ks : List Nat) : LogOnly s (closeSbs g ks s) := logOnly_putLog _ _

theorem capacityOnly_retireBlock (c n : Nat) : CapacityOnly s (retireBlock c n s) := by
  unfold retireBlock
  exact .trans (LogOnly.capacityOnly (.trans (logOnly_setFlc c _) (.trans (logOnly_count _ _) (logOnly_closeSbs _ _))))
    capacityOnly_settleSpare

theorem chansKept_closeSbs (g : Nat) (ks : List Nat) : ChansKept s.fmg.flcs (closeSbs g ks s).fmg.flcs := by
  rw [closeSbs, putLog_flcs]
  exact (LogKept.foldl logKept_closeSb ks (logOf g s)).chans

theorem outOfUse_closeSbs {c n : Nat} (g : Nat) (ks : List Nat) (hr : trising 0 s.fmg.flcs = true) (h : OutOfUse c n s.fmg.flcs) :
    OutOfUse c n (closeSbs g ks s).fmg.flcs := by
  rw [closeSbs, putLog_flcs]
  exact (List.foldlRecOn (b := logOf g s) ks closeSb
    (motive := fun m : LogRows => trising 0 m.flcs = true ∧ OutOfUse c n m.flcs) ⟨hr, h⟩
    fun m hm k _ => ⟨(logKept_closeSb m k).chans.rising hm.1, outOfUse_closeSb k hm.1 hm.2⟩).2

/-- A retired erase block is out of use. -/
theorem blockAt_retireBlock (c n : Nat) (hs : Tidy s) : (blockAt (flcAt (retireBlock c n s) c) n).state = .bad := by
  have rising : trising 0 s.fmg.flcs = true := twf_trising hs.flcs
  change OutOfUse c n (retireBlock c n s).fmg.flcs
  unfold retireBlock
  rw [settleSpare_flcs]
  refine outOfUse_closeSbs _ _ (trising_tput _ _ rising (Nat.zero_le _)) ?_
  rw [OutOfUse, count_fmg, setFlc, tget_tput_same _ _ rising, blockAt, setBlock, tget_tput_listed _ _ (by simp [EraseBlock.reset])]

/-! Counters of the flash manager -/

theorem counter_congr (h : t.cnts = s.cnts) (p off : Nat) : counter t p off = counter s p off := by
  rw [counter, h, counter]

section
variable {g : Nat} {l : LogRows} (hs : Tidy s) (hl : twf Flc.reset l.flcs = true)
include hs hl

theorem counter_putLog_retired : counter (putLog g l s) Pg.fmg 0xE48 = (counter s Pg.fmg 0xE48 + l.retired) % 2 ^ 64 := by
  have tidy : Tidy (setFgroup g l.group { s with fmg := { s.fmg with flcs := l.flcs } }) :=
    (keeps_setFgroup g _ _ (.refl _)).tidy { hs with flcs := hl }
  rw [putLog, counter_countBy _ _ _ ((keeps_countBy _ _ _ _ (.refl _)).tidy tidy), counter_countBy_ne _ _ _ tidy (by decide),
    counter_congr (setFgroup_cnts g l.group)]
  rfl

theorem counter_putLog_ne {off : Nat} (retired : regKey Pg.fmg off ≠ regKey Pg.fmg 0xE48)
    (erases : regKey Pg.fmg off ≠ regKey Pg.fmg 0xE38) : counter (putLog g l s) Pg.fmg off = counter s Pg.fmg off := by
  have tidy : Tidy (setFgroup g l.group { s with fmg := { s.fmg with flcs := l.flcs } }) :=
    (keeps_setFgroup g _ _ (.refl _)).tidy { hs with flcs := hl }
  rw [putLog, counter_countBy_ne _ _ _ ((keeps_countBy _ _ _ _ (.refl _)).tidy tidy) retired,
    counter_countBy_ne _ _ _ tidy erases, counter_congr (setFgroup_cnts g l.group)]
  rfl

end

theorem retired_closeSbs (g : Nat) (ks : List Nat) : (ks.foldl closeSb (logOf g s)).retired = 0 :=
  List.foldlRecOn ks closeSb (motive := fun m : LogRows => m.retired = 0) rfl fun m h k _ => (closeSb_counts m k).2.trans h

/-- Where superblocks are closed no erase block is counted as retired, and no failed program. -/
theorem counter_closeSbs (g : Nat) (ks : List Nat) (hs : Tidy s) :
    counter (closeSbs g ks s) Pg.fmg 0xE48 = counter s Pg.fmg 0xE48 % 2 ^ 64 ∧
      counter (closeSbs g ks s) Pg.fmg 0xE40 = counter s Pg.fmg 0xE40 := by
  have logs := twf_logs twf_closeSb ks (logOf g s) hs.flcs
  rw [closeSbs, counter_putLog_retired hs logs, counter_putLog_ne hs logs (by decide) (by decide), retired_closeSbs]
  exact ⟨rfl, rfl⟩

theorem counter_retireBlock (c n : Nat) (hs : Tidy s) :
    counter (retireBlock c n s) Pg.fmg 0xE48 = (counter s Pg.fmg 0xE48 + 1) % 2 ^ 64 ∧
      counter (retireBlock c n s) Pg.fmg 0xE40 = counter s Pg.fmg 0xE40 := by
  unfold retireBlock
  extract_lets f old s1
  have marked : Tidy s1 := (keeps_setFlc _ _ _ (.refl s)).tidy hs
  obtain ⟨retired, failed⟩ := counter_closeSbs (c / 16) (sbsWith (fgroup s (c / 16)) (c % 16) (fun k => decide (k = n)))
    ((keeps_count Pg.fmg 0xE48 _ (.refl _)).tidy marked)
  rw [counter_congr settleSpare_cnts, counter_congr settleSpare_cnts, retired, failed, count, counter_countBy _ _ _ marked,
    counter_countBy_ne _ _ _ marked (by decide), Nat.mod_mod]
  exact ⟨rfl, rfl⟩

/-! Moves into T3 (R140, R141) -/

theorem moveOf_congr (h : t.mge = s.mge) (k : Nat) : moveOf t k = moveOf s k := by
  rw [moveOf, h, moveOf]

theorem moveOf_modMove {k : Nat} {m : Move} {f : Move → Move} (hf : ∀ m, (f m).slab = m.slab) (h : moveOf s k = some m) :
    moveOf (modMove k f s) k = some (f m) := by
  have same : ((fun m : Move => decide (m.slab = k)) ∘ fun m => if m.slab = k then f m else m) = fun m => decide (m.slab = k) := by
    funext m
    by_cases mine : m.slab = k <;> simp [mine, hf]
  unfold moveOf at h
  have mine : m.slab = k := by simpa using List.find?_some h
  simp only [moveOf, modMove, setMoves, List.find?_map, same, h, Option.map_some, if_pos mine]

theorem programSlot_frame {g : Nat} {copied rewrite : List Nat} (h : programSlot g copied rewrite s = some t) :
    t = { s with cnts := t.cnts,
                 fmg := { s.fmg with g0 := t.fmg.g0, g1 := t.fmg.g1, flcs := t.fmg.flcs, slots := t.fmg.slots } } := by
  unfold programSlot at h
  split at h
  · cases h
  · dsimp only at h
    split at h
    · cases h
    · next took =>
      cases h
      rw [logOnly_appendRows took]
      rfl

/-- A move whose stripe has programmed. -/
def stripeDone (m : Move) : Move := { m with programmed := true, rewrite := [] }

/-- FLASH_PROGRAM_DONE on a move into T3 that has a frame: the stripe waits where no superblock is free. -/
theorem exec_flashProgramDone {m : Move} {k g : Nat} (hw : awake s = true) (found : moveOf s k = some m) (frame : m.frame = some g)
    (target : m.target = .t3) (phase : m.phase ≠ .queued) (unprogrammed : m.programmed = false) :
    exec (.flashProgramDone k) s = .next ((programSlot g m.copied m.rewrite s).elim s (modMove k stripeDone)) := by
  change Host.Outcome.next (whenAwake s _) = _
  rw [whenAwake_of_awake hw, found]
  dsimp only
  rw [frame]
  dsimp only
  rw [if_neg (by simp [target, phase, unprogrammed])]
  cases programSlot g m.copied m.rewrite s <;> rfl

theorem exec_programFailure {k ch sb n : Nat} (hw : awake s = true) (hch : ch < 32)
    (block : (sbAt (fgroup s (ch / 16)) sb).blocks[ch % 16]? = some n) (used : (blockAt (flcAt s ch) n).state = .used) :
    exec (.programFailure k ch sb) s =
      .next (rewriteRows k [sb] (retireBlock ch n (count Pg.fmg 0xE40 (noteFault ch n s)))) := by
  change Host.Outcome.next (whenAwake s _) = _
  rw [whenAwake_of_awake hw, if_neg (Nat.not_le.2 hch), block]
  dsimp only
  rw [if_neg (by simp [used])]

/-- The rows of a slab on its way into T3 that lie in a superblock are to be written again. -/
theorem moveOf_rewriteRows {k g sb : Nat} {m : Move} {x : Slot} (found : moveOf s k = some m) (target : m.target = .t3)
    (phase : m.phase ≠ .queued) (frame : m.frame = some g) (slot : slotAt s g = some x) :
    ∃ y, moveOf (rewriteRows k [sb] s) k = some y ∧ y.programmed = false ∧ ∀ i ∈ rowsIn x [sb], i ∈ y.rewrite := by
  refine ⟨_, moveOf_modMove (fun m => ?_) found, ?_, fun i hi => ?_⟩
  · split <;> rfl
  · rw [if_pos ⟨target, phase⟩]
  · rw [if_pos ⟨target, phase⟩]
    simp [frame, slot, hi]

theorem exec_eraseFailure {g ch n : Nat} (hw : awake s = true) (hg : g < 2) (hch : ch < 16)
    (die : onDie (flcAt s (16 * g + ch)) n = true) (good : (blockAt (flcAt s (16 * g + ch)) n).state ≠ .bad) :
    exec (.eraseFailure g ch n) s = .next (retireBlock (16 * g + ch) n (noteFault (16 * g + ch) n s)) := by
  change Host.Outcome.next (whenAwake s _) = _
  rw [whenAwake_of_awake hw]
  dsimp only
  rw [if_neg (by simp [Nat.not_le.2 hg, Nat.not_le.2 hch, die, good])]

/-! Dies (R146) -/

theorem exec_dieRetire {l : DieLoss} (hw : awake s = true) (hch : l.channel < 32)
    (online : (fgroup s (l.channel / 16)).state = .online) (die : l.die ∈ diesOf (flcAt s l.channel)) :
    exec (.dieRetire l) s = .next (
      if l.dead || decide (fld s Pg.fmg 0x408 31 24 ≤ faultyBlocks s (flcAt s l.channel) l.die) then retireDie l.channel l.die s
      else s) := by
  change Host.Outcome.next (whenAwake s _) = _
  rw [whenAwake_of_awake hw]
  dsimp only
  rw [if_neg (by simp [Nat.not_le.2 hch, online, die])]

theorem capacityOnly_queueUrgents (l : List Nat) : CapacityOnly s (l.foldl (fun s k => queueUrgent k s) s) :=
  List.foldlRecOn l _ (motive := fun t => CapacityOnly s t) rfl fun _ h k _ => h.trans (capacityOnly_queueUrgent k)

theorem queueUrgents_flcs (l : List Nat) : (l.foldl (fun s k => queueUrgent k s) s).fmg.flcs = s.fmg.flcs :=
  List.foldlRecOn l _ (motive := fun t : State => t.fmg.flcs = s.fmg.flcs) rfl fun _ h k _ => by rw [queueUrgent_frame]; exact h

theorem raise_fmg (p : Nat) (code : Status) (sev : Sev) (cause ctx block detail : Nat) (dests : List Nat) (integrity : Bool) :
    (raise p code sev cause ctx block detail dests integrity s).fmg = s.fmg := rfl

theorem raise_mem (p : Nat) (code : Status) (sev : Sev) (cause ctx block detail : Nat) (dests : List Nat) (integrity : Bool) :
    (raise p code sev cause ctx block detail dests integrity s).mem = s.mem := rfl

/-- The event of a retired die. -/
def sparedEvent (s : State) : Evt :=
  { code := Config.correctedCode, sev := .corrected, cause := 0, ctx := noCtx, block := 0, time := s.now, page := Pg.fmg,
    detail := 0, dests := pfs, integrity := true }

theorem retireDie_ends (c d : Nat) (hs : Tidy s) :
    (flcAt (retireDie c d s) c).retired = (flcAt s c).retired ++ [d] ∧ (retireDie c d s).mem = s.mem ∧
      ∃ t, (retireDie c d s).router.getLast? = some (sparedEvent t) := by
  have rising : trising 0 s.fmg.flcs = true := twf_trising hs.flcs
  unfold retireDie
  extract_lets g f ks hit s1
  refine ⟨?_, ?_, _, List.getLast?_concat⟩
  · have closed := (chansKept_closeSbs (s := s1) g ks).chan (trising_tput _ _ rising (Nat.zero_le _)) c
    rw [flcAt, sparingEvent, raise_fmg, settleSpare_flcs, queueUrgents_flcs, closed]
    simp only [s1, setFlc, tget_tput_same _ _ rising, f]
  · rw [sparingEvent, raise_mem, (capacityOnly_settleSpare).mem, (capacityOnly_queueUrgents hit).mem, (logOnly_closeSbs g ks).mem]
    rfl

theorem not_mem_diesOf_of_retired {f : Flc} {d : Nat} (h : d ∈ f.retired) : d ∉ diesOf f := by
  simp [diesOf, h]

end
end Sys2Proof.Machine
end

section
/-! PROOFS. What a mount found stays (O35): an operation that serves held writes leaves what a mount found of the flash as it is, each
lemma `mountKept_<operation>` following the branches of its operation. -/

namespace Sys2Proof.Machine

/-- Of the flash manager only slots, poison, recoveries and the wear of the channels differ. -/
structure MountKept (s t : State) : Prop where
  fmg : t.fmg = { s.fmg with flcs := t.fmg.flcs, slots := t.fmg.slots, poisonRec := t.fmg.poisonRec,
                             unentered := t.fmg.unentered, recoveries := t.fmg.recoveries, relocating := t.fmg.relocating }
  chans : ChansKept s.fmg.flcs t.fmg.flcs

section
variable {s t : State}

theorem MountKept.of_fmg (h : t.fmg = s.fmg) : MountKept s t := by
  refine ⟨?_, ?_⟩ <;> rw [h]
  exact .refl _

theorem MountKept.refl (s : State) : MountKept s s := .of_fmg rfl

theorem MountKept.trans {u : State} (h : MountKept s t) (k : MountKept t u) : MountKept s u := by
  refine ⟨k.fmg.trans ?_, h.chans.trans k.chans⟩
  rw [h.fmg]

/-- A change outside the flash manager before an operation. -/
theorem MountKept.after {u : State} (k : MountKept t u) (h : t.fmg = s.fmg) : MountKept s u := (MountKept.of_fmg h).trans k

theorem MountKept.foldl {α : Type} {f : State → α → State} (hf : ∀ s a, MountKept s (f s a)) (l : List α) :
    MountKept s (l.foldl f s) :=
  List.foldlRecOn l f (motive := fun t => MountKept s t) (.refl s) fun _ h a _ => h.trans (hf _ a)

theorem MountKept.of_snd {α : Type} {x : α × State} {a : α} (h : MountKept s x.2) (e : x = (a, t)) : MountKept s t := by
  rwa [e] at h

theorem LaddersOnly.mountKept (h : LaddersOnly s t) : MountKept s t :=
  ⟨by rw [congrArg (·.fmg) h.frame], h.chans⟩

theorem PortsOnly.fmg (h : PortsOnly s t) : t.fmg = s.fmg := congrArg (·.fmg) h

theorem RingsOnly.fmg (h : RingsOnly s t) : t.fmg = s.fmg := congrArg (·.fmg) h

theorem TablesOnly.fmg (h : TablesOnly s t) : t.fmg = s.fmg := congrArg (·.fmg) h

theorem ScalesOnly.fmg (h : ScalesOnly s t) : t.fmg = s.fmg := congrArg (·.fmg) h

end

/-! Reading a block -/

section
variable (s : State)

@[simp] theorem noteCorrection_fmg (word : Nat) : (noteCorrection word s).fmg = s.fmg := by
  unfold noteCorrection
  dsimp only
  (repeat' split) <;> rfl

@[simp] theorem errCorr_fmg (p : Nat) : (errCorr p s).fmg = s.fmg := rfl

@[simp] theorem errUncorr_fmg (p : Nat) : (errUncorr p s).fmg = s.fmg := rfl

@[simp] theorem dropUpset_fmg (word : Nat) : (dropUpset word s).fmg = s.fmg := rfl

@[simp] theorem meetSram_fmg (k : SramKind) (idx : Nat) : (meetSram k idx s).fmg = s.fmg := by
  unfold meetSram
  dsimp only
  (repeat' split) <;> simp

@[simp] theorem markDirty_fmg (slab b : Nat) : (markDirty slab b s).fmg = s.fmg := rfl

@[simp] theorem spoil_fmg (slab b hb : Nat) (st : BlockState) : (spoil slab b hb st s).fmg = s.fmg := rfl

@[simp] theorem integrityEvent_fmg (d : Det) (cause : Nat) (code : Status) (slab b : Nat) :
    (integrityEvent d cause code slab b s).fmg = s.fmg := by
  unfold integrityEvent
  dsimp only
  split <;> rfl

@[simp] theorem poisonBlock_fmg (d : Det) (cause slab b hb : Nat) : (poisonBlock d cause slab b hb s).fmg = s.fmg := by
  simp [poisonBlock]

@[simp] theorem loseDesc_fmg (d : Det) (slab b hb : Nat) : (loseDesc d slab b hb s).fmg = s.fmg := integrityEvent_fmg _ _ _ _ _ _

@[simp] theorem noteDecodeFault_fmg (check path sub table slab b : Nat) :
    (noteDecodeFault check path sub table slab b s).fmg = s.fmg := rfl

@[simp] theorem noteCorrections_fmg (t : Tier) (frame hb crumbs : Nat) : (noteCorrections t frame hb crumbs s).fmg = s.fmg :=
  List.foldlRecOn _ _ (motive := fun t : State => t.fmg = s.fmg) rfl fun u h c _ => by
    split <;> simp [h]

@[simp] theorem checkSix_fmg (d : Det) (t : Tier) (slab b frame hb : Nat) (out : List Byte) :
    (checkSix d t slab b frame hb out s).2.fmg = s.fmg := by
  unfold checkSix
  dsimp only
  (repeat' split) <;> simp

@[simp] theorem countRebuild_fmg (t : Tier) (frame b : Nat) : (countRebuild t frame b s).fmg = s.fmg := by
  unfold countRebuild
  split <;> rfl

theorem laddersOnly_startRecovery (d : Det) (slab b : Nat) : LaddersOnly s (startRecovery d slab b s) := by
  unfold startRecovery
  split
  · exact .refl s
  · split
    · exact (laddersOnly_openRecovery _ _ _ _).trans (laddersOnly_startMates _ _ _)
    · exact laddersOnly_startLadder _ _ _

/-- A reader of a block starts its recovery, or leaves the flash manager as it is. -/
theorem mountKept_readHome (d : Det) (slab b : Nat) : MountKept s (readHome d slab b s).2 := by
  unfold readHome
  dsimp only
  split
  · exact .refl s
  · split
    · exact .of_fmg (by split <;> simp)
    · split
      · exact .refl s
      · split
        · exact .refl s
        · exact .refl s
        · exact .refl s
        · split
          · exact (laddersOnly_startRecovery s d slab b).mountKept
          · refine .of_fmg ?_
            (repeat' split) <;> simp

theorem mountKept_fetchBlock (d : Det) (slab b : Nat) : MountKept s (fetchBlock d slab b s).2 := by
  have read := mountKept_readHome s d slab b
  unfold fetchBlock
  dsimp only
  split
  · next found => rwa [found] at read
  · exact read

/-! Storing a block -/

@[simp] theorem meetDesc_fmg (slab b : Nat) : (meetDesc slab b s).fmg = s.fmg := by
  unfold meetDesc
  split
  · dsimp only
    split <;> simp
  · rfl

@[simp] theorem refTable_fmg (id : Nat) : (refTable id s).fmg = s.fmg := rfl

@[simp] theorem unrefTable_fmg (id : Nat) : (unrefTable id s).fmg = s.fmg := (tablesOnly_settleTable id).fmg

@[simp] theorem freshCrumbs_fmg (hb n : Nat) : (freshCrumbs hb n s).fmg = s.fmg := by rw [freshCrumbs_frame]

@[simp] theorem countWrite_fmg (d : Desc) (fallback : Bool) : (countWrite d fallback s).fmg = s.fmg := by rw [countWrite_frame]

theorem mountKept_settleStored (slab b hb n : Nat) : MountKept s (settleStored slab b hb n s) := by
  refine ⟨?_, ?_⟩ <;> rw [settleStored_frame]
  exact .refl _

/-- Of the flash manager a stored block leaves the poison record at most. -/
theorem mountKept_storeBlock (slab b format : Nat) (table : Option Nat) (flags : Nat) (data : List Byte) :
    MountKept s (storeBlock slab b format table flags data s) := by
  unfold storeBlock
  dsimp only
  split
  · exact .refl s
  · next tier _ =>
    generalize formOf (meetDesc slab b s) _ _ _ _ _ = form
    obtain ⟨d, cs, fallback⟩ := form
    change MountKept s (countWrite d fallback (settleStored slab b (homeKey tier _ b) _ _))
    refine .trans (.after (mountKept_settleStored _ _ _ _ _) ?_) (.of_fmg (countWrite_fmg _ _ _))
    have stored (l : List Byte) (x : Desc) (hb : Nat) : (putHome hb l (setDesc hb x (meetDesc slab b s))).fmg = s.fmg :=
      meetDesc_fmg s slab b
    split <;> split <;> simp [stored]

theorem mountKept_storeWrite (slab b : Nat) (data : List Byte) : MountKept s (storeWrite slab b data s) :=
  mountKept_storeBlock _ _ _ _ _ _ _

theorem mountKept_writeInPlace (d : Det) (full : Bool) (slab b off : Nat) (data : List Byte) :
    MountKept s (writeInPlace d full slab b off data s).2 := by
  have read := mountKept_fetchBlock s d slab b
  unfold writeInPlace
  split
  · exact (mountKept_storeWrite _ _ _ _).after (meetDesc_fmg s slab b)
  · split
    · next found => exact .trans (read.of_snd found) (mountKept_storeWrite _ _ _ _)
    · next found => exact read.of_snd found
    · next found => exact read.of_snd found

/-! Answers to writes, and drains -/

@[simp] theorem answer_fmg (fport : Nat) (p : Pkt) (data : List Byte) : (answer fport p data s).fmg = s.fmg :=
  (portsOnly_answer fport p data).fmg

@[simp] theorem ackWrite_fmg (src : WriteSrc) : (ackWrite src s).fmg = s.fmg := by
  unfold ackWrite
  split <;> simp

@[simp] theorem refuseWrite_fmg (src : WriteSrc) (st : Status) (ctx block : Nat) : (refuseWrite src st ctx block s).fmg = s.fmg := by
  unfold refuseWrite
  split
  · rfl
  · rfl
  · exact (portsOnly_sendError _ _ _ _).fmg

theorem mountKept_applyWrite (w : HeldStore) : MountKept s (applyWrite w s) := by
  have written (d : Det) (full : Bool) := mountKept_writeInPlace s d full (w.block / 4096) (w.block % 4096) w.off w.data
  unfold applyWrite
  split
  · next found => exact .trans ((written _ _).of_snd found) (.of_fmg (ackWrite_fmg _ _))
  · next found => exact .trans ((written _ _).of_snd found) (.of_fmg (refuseWrite_fmg _ _ _ _ _))

@[simp] theorem settleDrains_fmg : (settleDrains s).fmg = s.fmg := readsOver_settleDrains.fmg

/-! Votes, hints and moves -/

@[simp] theorem settleHints_fmg : (settleHints s).fmg = s.fmg :=
  List.foldlRecOn (motive := fun t : State => t.fmg = s.fmg) _ _ rfl fun _ h _ _ => (ringsOnly_complete _ _ _ _).fmg.trans h

@[simp] theorem resolveSlab_fmg (id slab : Nat) (st : Status) : (resolveSlab id slab st s).fmg = s.fmg := by
  unfold resolveSlab
  split <;> simp

@[simp] theorem removeVote_fmg (slab ctx : Nat) (st : Status) : (removeVote slab ctx st s).fmg = s.fmg := by
  unfold removeVote
  split
  · rfl
  · dsimp only
    split
    · rw [resolveSlab_fmg]
      rfl
    · rfl

@[simp] theorem failVotes_fmg (slab : Nat) (st : Status) : (failVotes slab st s).fmg = s.fmg :=
  List.foldlRecOn (motive := fun t : State => t.fmg = s.fmg) _ _ rfl fun t h v _ => by
    split <;> simp [h]

theorem mountKept_freeToZeroing (t : Tier) (frame : Nat) : MountKept s (freeToZeroing t frame s) := by
  unfold freeToZeroing
  split
  · exact ⟨rfl, .refl _⟩
  · exact .of_fmg rfl

theorem mountKept_abandonMove (slab : Nat) : MountKept s (abandonMove slab s) := by
  unfold abandonMove
  split
  · exact .refl s
  · dsimp only
    split
    · exact .of_fmg rfl
    · refine .trans ?_ (.of_fmg (count_fmg _ _ _))
      split
      · exact (mountKept_freeToZeroing _ _ _).after rfl
      · exact .of_fmg rfl

theorem mountKept_requestMove (slab cls : Nat) (target : Tier) (toPool onWrite : Bool) :
    MountKept s (requestMove slab cls target toPool onWrite s).2 := by
  unfold requestMove
  split
  · split
    · exact .of_fmg (by split <;> rfl)
    · split
      · exact .of_fmg rfl
      · split
        · dsimp only
          have failed (p : Prop) [Decidable p] : (if p then failVotes slab .moveSuperseded s else s).fmg = s.fmg := by
            split <;> simp
          split
          · exact .of_fmg (failed _)
          · exact .trans ((mountKept_abandonMove _ slab).after (failed _)) (.of_fmg rfl)
        · exact .refl s
  · split <;> exact .of_fmg rfl

/-! Frames for first writes (R113, R422) -/

theorem takeFrame_fmg {t : Tier} {f : Nat} {u : State} (h : takeFrame t s = some (f, u)) : u.fmg = s.fmg := by
  unfold takeFrame at h
  split at h
  · cases h
    rfl
  · split at h
    · cases h
      rfl
    · cases h

theorem targetFrame_fmg {slab : Nat} {t : Tier} {f : Nat} {u : State} (h : targetFrame slab t s = some (f, u)) : u.fmg = s.fmg := by
  unfold targetFrame at h
  split at h
  · exact takeFrame_fmg s h
  · dsimp only at h
    split at h
    · cases h
      rfl
    · split at h
      · cases h
        rfl
      · exact takeFrame_fmg s h

theorem firstFrame_fmg {slab : Nat} {t : Tier} {f : Nat} {u : State} (h : firstFrame slab t s = some (f, u)) : u.fmg = s.fmg := by
  unfold firstFrame at h
  split at h
  · exact takeFrame_fmg s h
  · split at h
    · cases h
      rfl
    · obtain ⟨⟨g, v⟩, found, given⟩ := Option.map_eq_some_iff.1 h
      cases given
      have taken : v.fmg = s.fmg := targetFrame_fmg s found
      exact scalesOnly_settleScales.fmg.trans taken

theorem mountKept_assignFrame {slab : Nat} {u : State} (h : assignFrame slab s = some u) : MountKept s u := by
  unfold assignFrame at h
  extract_lets e c order place at h
  have placed {t : Tier} {pool : Bool} {v : State} (hp : place t pool = some v) : v.fmg = s.fmg := by
    simp only [place] at hp
    split at hp
    · next found =>
      cases hp
      have taken := firstFrame_fmg s found
      exact taken
    · cases hp
  split at h
  · split at h
    · split at h
      · next found =>
        cases h
        exact (mountKept_requestMove _ _ _ _ _ _).after (placed found)
      · cases h
    · cases h
  · exact .of_fmg (placed h)
  · cases h

/-! Held writes (R113, R118, R122) -/

theorem mountKept_promoteOnWrite (slab : Nat) : MountKept s (promoteOnWrite slab s) := by
  unfold promoteOnWrite
  extract_lets c
  split
  split
  · exact .of_fmg rfl
  · next t pool _ _ =>
    have asked := mountKept_requestMove s slab 1 t pool true
    split
    · next found => exact .trans (asked.of_snd found) (.of_fmg rfl)
    · next found => exact asked.of_snd found

theorem mountKept_prepareWrite (slab : Nat) : MountKept s (prepareWrite slab s).2 := by
  unfold prepareWrite
  dsimp only
  split
  · split
    · next found => exact mountKept_assignFrame s found
    · exact .refl s
  · split
    · exact mountKept_promoteOnWrite s slab
    · split <;> exact .refl s

theorem mountKept_offerWrite (w : HeldStore) : MountKept s (offerWrite w s) := by
  have ready := mountKept_prepareWrite s (w.block / 4096)
  unfold offerWrite
  split
  · next found => exact (ready.of_snd found).trans (mountKept_applyWrite _ w)
  · next found => exact (ready.of_snd found).trans (.of_fmg rfl)

theorem mountKept_releaseHeld (slab : Nat) : MountKept s (releaseHeld slab s) := by
  unfold releaseHeld
  refine .trans ?_ (.of_fmg (settleDrains_fmg _))
  exact (MountKept.foldl (fun s w => mountKept_offerWrite s w) _).after rfl

theorem mountKept_retryHeld : MountKept s (retryHeld s) := by
  refine .foldl (fun s k => ?_) _
  split
  · exact mountKept_releaseHeld s k
  · exact .refl s

end
end Sys2Proof.Machine
end

section
/-! PROOFS. The mount of the flash (O35): the channels after discovery, the groups that they make, and the state that
FLASH_MOUNT_DONE leaves. -/

namespace Sys2Proof.Machine

section
variable {s : State} (rep : FlashReport)

/-! Channels and groups after discovery (R134, R135, Table 06-2) -/

theorem flcAt_mountChans (hr : trising 0 s.fmg.flcs = true) {c : Nat} (hc : c < 32) :
    flcAt (mountChans rep s) c = (mountChan s rep c).1 := by
  refine (tget_foldl_tput_zipIdx (d := Flc.reset) (Prod.fst : Flc × Bool → Flc) (l := (List.range 32).map (mountChan s rep))
    (i := 0) (c := c) hr).trans ?_
  simp [hc]

theorem rising_mountChans (hr : trising 0 s.fmg.flcs = true) : trising 0 (mountChans rep s).fmg.flcs = true :=
  List.foldlRecOn _ _ (motive := fun t : Tbl Flc => trising 0 t = true) hr fun _ h _ _ => trising_tput _ _ h (Nat.zero_le _)

theorem placeSystem_kept (f : Flc) :
    placeSystem f = { f with blocks := (placeSystem f).blocks, faults := (placeSystem f).faults } := by
  unfold placeSystem
  split
  · rfl
  · split <;> rfl

theorem logOnly_mountGroup (g : Nat) : LogOnly s (mountGroup g rep s) := by
  unfold mountGroup
  dsimp only
  split
  · exact (logOnly_setFgroup g _).trans ((logOnly_setFlc _ _).trans (logOnly_putLog g _))
  · exact logOnly_setFgroup g _

theorem chansKept_mountGroup (g : Nat) : ChansKept s.fmg.flcs (mountGroup g rep s).fmg.flcs := by
  unfold mountGroup
  extract_lets all out old v s1 s2
  have same : s1.fmg.flcs = s.fmg.flcs := setFgroup_flcs g v
  rw [← same]
  split
  · have placed : ChansKept s1.fmg.flcs s2.fmg.flcs := chansKept_tput _ (placeSystem_kept (flcAt s1 (16 * g)))
    rw [putLog_flcs]
    exact placed.trans (logKept_preErase _ (logOf g s2)).chans
  · exact .refl _

theorem fgroup_setFlc (c : Nat) (f : Flc) (g : Nat) : fgroup (setFlc c f s) g = fgroup s g := rfl

theorem fgroup_mountGroup (g : Nat) : (fgroup (mountGroup g rep s) g).state = groupOutcome s g rep := by
  unfold mountGroup
  extract_lets all out old v s1 s2
  have begun : (fgroup s1 g).state = out := by rw [show fgroup s1 g = v from fgroup_setFgroup g v]
  split
  · rw [fgroup_putLog, (logKept_preErase _ (logOf g s2)).state]
    exact begun
  · exact begun

theorem fgroup_mountGroup_ne {g h : Nat} (hg : g < 2) (hh : h < 2) (e : h ≠ g) : fgroup (mountGroup g rep s) h = fgroup s h := by
  unfold mountGroup
  dsimp only
  split
  · rw [fgroup_putLog_ne _ hg hh e, fgroup_setFlc, fgroup_setFgroup_ne _ hg hh e]
  · exact fgroup_setFgroup_ne _ hg hh e

/-! FLASH_MOUNT_DONE (R136) -/

/-- The mount has ended, under a new media key. -/
def mountEnded (s : State) : State :=
  { s with draws := s.draws + 1,
           fmg := { s.fmg with mounting := false, reason := mountReason rep, mediaKey := s.draws, nextGen := 0 } }

/-- The channels and both groups hold what discovery found. -/
def groupsMounted (s : State) : State := mountGroup 1 rep (mountGroup 0 rep (mountChans rep (mountEnded rep s)))

/-- The frames of the mounted groups are counted, and the mount of a start is reported. -/
def mounted (s : State) : State :=
  let t := groupsMounted rep s
  noteMount { t with fmg := { t.fmg with usableFrames := groupFrames t.fmg.g0 + groupFrames t.fmg.g1 } }

theorem exec_flashMountDone (hw : awake s = true) (mounting : s.fmg.mounting = true) : exec (.flashMountDone rep) s =
    .next (if t3Online (mounted rep s) then retryHeld (settleScales (recountSlabs (mounted rep s))) else mounted rep s) := by
  change Host.Outcome.next (whenAwake s _) = _
  rw [whenAwake_of_awake hw, mounting]
  rfl

theorem mounted_fmg : (mounted rep s).fmg =
    { (groupsMounted rep s).fmg with
      usableFrames := groupFrames (groupsMounted rep s).fmg.g0 + groupFrames (groupsMounted rep s).fmg.g1 } := by
  unfold mounted noteMount
  dsimp only
  split <;> rfl

/-- What comes after the mount serves writes that waited for a frame, and leaves what the mount found. -/
theorem mountKept_flashMountDone : MountKept (mounted rep s)
    (if t3Online (mounted rep s) then retryHeld (settleScales (recountSlabs (mounted rep s))) else mounted rep s) := by
  split
  · have counted : (recountSlabs (mounted rep s)).fmg = (mounted rep s).fmg := by rw [placementOnly_recountSlabs]
    exact (mountKept_retryHeld _).after (scalesOnly_settleScales.fmg.trans counted)
  · exact .refl _

theorem groupsMounted_frame : LogOnly (mountChans rep (mountEnded rep s)) (groupsMounted rep s) :=
  (logOnly_mountGroup rep 0).trans (logOnly_mountGroup rep 1)

theorem groupOutcome_congr {t : State} (h : t.fmg.barred = s.fmg.barred) (g : Nat) : groupOutcome t g rep = groupOutcome s g rep := by
  unfold groupOutcome usableTargets
  rw [h]

theorem fgroup_groupsMounted {g : Nat} (hg : g < 2) : (fgroup (groupsMounted rep s) g).state = groupOutcome s g rep := by
  obtain rfl | rfl : g = 0 ∨ g = 1 := by omega
  · rw [groupsMounted, fgroup_mountGroup_ne rep (by decide) (by decide) (by decide), fgroup_mountGroup]
    rfl
  · rw [groupsMounted, fgroup_mountGroup, groupOutcome_congr rep (congrArg (·.fmg.barred) (logOnly_mountGroup rep 0))]
    rfl

/-- Each channel holds what discovery found there, but for erase blocks taken for the system area and for superblocks. -/
theorem flcAt_groupsMounted (hs : Tidy s) {c : Nat} (hc : c < 32) : flcAt (groupsMounted rep s) c =
    { (mountChan s rep c).1 with blocks := (flcAt (groupsMounted rep s) c).blocks,
                                 faults := (flcAt (groupsMounted rep s) c).faults } := by
  have rising : trising 0 (mountEnded rep s).fmg.flcs = true := twf_trising hs.flcs
  have kept := ((chansKept_mountGroup (s := mountChans rep (mountEnded rep s)) rep 0).trans (chansKept_mountGroup rep 1)).chan
    (rising_mountChans rep rising) c
  have found : flcAt (mountChans rep (mountEnded rep s)) c = (mountChan s rep c).1 := flcAt_mountChans rep rising hc
  rw [flcAt] at found
  rw [found] at kept
  exact kept

/-- The state that FLASH_MOUNT_DONE leaves reports the mount, and each channel as discovery found it. -/
theorem MountKept.report {u : State} (h : MountKept (mounted rep s) u) : u.fmg.mounting = false ∧ u.fmg.reason = mountReason rep ∧
    u.fmg.scanned = (mountChans rep s).fmg.scanned ∧ u.fmg.mediaKey = s.draws ∧ u.fmg.nextGen = 0 := by
  have fmg := h.fmg
  rw [mounted_fmg, groupsMounted_frame] at fmg
  exact ⟨congrArg (·.mounting) fmg, congrArg (·.reason) fmg, congrArg (·.scanned) fmg, congrArg (·.mediaKey) fmg,
    congrArg (·.nextGen) fmg⟩

theorem MountKept.fgroup {u : State} (h : MountKept s u) (g : Nat) : fgroup u g = fgroup s g := by
  rw [Machine.fgroup, h.fmg]
  rfl

theorem fgroup_mounted (g : Nat) : fgroup (mounted rep s) g = fgroup (groupsMounted rep s) g := by
  rw [fgroup, mounted_fmg]
  rfl

theorem rising_groupsMounted (hs : Tidy s) : trising 0 (groupsMounted rep s).fmg.flcs = true :=
  ((chansKept_mountGroup rep 0).trans (chansKept_mountGroup rep 1)).rising
    (rising_mountChans (s := mountEnded rep s) rep (twf_trising hs.flcs))

theorem MountKept.channel {u : State} (h : MountKept (mounted rep s) u) (hs : Tidy s) {c : Nat} (hc : c < 32) :
    (flcAt u c).present = (mountChan s rep c).1.present ∧ (flcAt u c).usable = (mountChan s rep c).1.usable ∧
      (flcAt u c).trained = (mountChan s rep c).1.trained ∧ (flcAt u c).family = (mountChan s rep c).1.family := by
  have chans := h.chans
  rw [mounted_fmg] at chans
  have kept : flcAt u c = { flcAt (groupsMounted rep s) c with blocks := (flcAt u c).blocks, faults := (flcAt u c).faults } :=
    chans.chan (rising_groupsMounted rep hs) c
  rw [kept, flcAt_groupsMounted rep hs hc]
  exact ⟨rfl, rfl, rfl, rfl⟩

end
end Sys2Proof.Machine

open Sys2Proof Sys2Proof.Machine

/-- Settles O35: a mount comes to what discovery found, which the writes that then go on leave as it is; a stripe that has programmed
comes to fresh rows of its slot; a failure to the retirement of the erase block, which stays out of use when its superblocks are closed;
and a die that is retired is none of the dies in use. -/
theorem flashMountProgramRetire : Obligations.FlashMountProgramRetire := by
  unfold Obligations.FlashMountProgramRetire
  refine ⟨?mount, ?program, ?failure, ?erase, ?die⟩
  case mount =>
    intro s rep hs hw mounting
    have kept := mountKept_flashMountDone (s := s) rep
    obtain ⟨ended, reason, scanned, key, gen⟩ := kept.report
    refine ⟨_, exec_flashMountDone rep hw mounting, ended, reason, scanned, key, gen, fun g hg => ?_,
      fun c hc => kept.channel rep hs hc⟩
    rw [kept.fgroup, fgroup_mounted, fgroup_groupsMounted rep hg]
  case program =>
    intro s m k g hw found frame target phase unprogrammed
    have row := exec_flashProgramDone hw found frame target phase unprogrammed
    refine ⟨fun waits => ?_, fun t programs => ?_⟩
    · rwa [waits] at row
    · rw [programs] at row
      have only := programSlot_frame programs
      refine ⟨_, row, moveOf_modMove (f := stripeDone) (fun _ => rfl) ?_, rfl, congrArg (·.mem) only, congrArg (·.ple) only⟩
      rwa [moveOf_congr (congrArg (·.mge) only)]
  case failure =>
    intro s k ch sb n hs hw hch block used
    have noted : Tidy (noteFault ch n s) := (keeps_noteFault ch n s (.refl s)).tidy hs
    have counted : Tidy (count Pg.fmg 0xE40 (noteFault ch n s)) := (keeps_count Pg.fmg 0xE40 _ (.refl _)).tidy noted
    obtain ⟨retired, failed⟩ := counter_retireBlock ch n counted
    have only : CapacityOnly s (retireBlock ch n (count Pg.fmg 0xE40 (noteFault ch n s))) :=
      .trans (LogOnly.capacityOnly (.trans (logOnly_noteFault ch n) (logOnly_count _ _))) (capacityOnly_retireBlock ch n)
    refine ⟨_, exec_programFailure hw hch block used, blockAt_retireBlock ch n counted, only.mem, failed.trans ?_, retired.trans ?_, ?_⟩
    · exact counter_countBy _ _ _ noted
    · rw [count, counter_countBy_ne _ _ _ noted (by decide)]
      rfl
    · intro m g x found target phase frame slot
      exact moveOf_rewriteRows ((moveOf_congr only.mge k).trans found) target phase frame ((slotAt_congr only.slots g).trans slot)
  case erase =>
    intro s g ch n hs hw hg hch die good
    have noted : Tidy (noteFault (16 * g + ch) n s) := (keeps_noteFault _ n s (.refl s)).tidy hs
    have only : CapacityOnly s (retireBlock (16 * g + ch) n (noteFault (16 * g + ch) n s)) :=
      .trans (logOnly_noteFault _ n).capacityOnly (capacityOnly_retireBlock _ n)
    exact ⟨_, exec_eraseFailure hw hg hch die good, blockAt_retireBlock _ n noted, (counter_retireBlock _ n noted).1, only.mem, only.mge⟩
  case die =>
    intro s l hs hw hch online die
    have row := exec_dieRetire hw hch online die
    refine ⟨fun lost => ?_, fun answers few => ?_⟩
    · rw [if_pos (by simpa using lost)] at row
      obtain ⟨retired, mem, t, last⟩ := retireDie_ends l.channel l.die hs
      exact ⟨_, _, row, retired, not_mem_diesOf_of_retired (by simp [retired]), last, rfl, rfl, mem⟩
    · rwa [if_neg (by simp [answers, few])] at row

end

section
/-! PROOFS. The address hash (O40): the parity of a number counts its one bits. -/

namespace Sys2Proof.Machine

theorem popcount_zero (n : Nat) : popcount n 0 = 0 := by
  induction n with
  | zero => rfl
  | succ n ih => rw [popcount, Nat.zero_div, ih]

/-- Bits from the width of a number on are zeros. -/
theorem popcount_of_lt {w v n : Nat} (h : v < 2 ^ w) (hn : w ≤ n) : popcount n v = popcount w v := by
  induction w generalizing v n with
  | zero =>
    obtain rfl : v = 0 := by simpa using h
    exact popcount_zero n
  | succ w ih =>
    obtain ⟨n, rfl⟩ : ∃ m, n = m + 1 := ⟨n - 1, by omega⟩
    rw [popcount, popcount, ih (by omega) (Nat.le_of_succ_le_succ hn)]

theorem popcount_eq_length_filter (n v : Nat) : popcount n v = ((List.range n).filter (fun i => v.testBit i)).length := by
  induction n generalizing v with
  | zero => rfl
  | succ n ih =>
    have low : v % 2 = if v.testBit 0 then 1 else 0 := by
      rw [Nat.testBit_zero]
      rcases Nat.mod_two_eq_zero_or_one v with e | e <;> simp [e]
    rw [popcount, ih, List.range_succ_eq_map, List.filter_cons, List.filter_map, low]
    have shifted : (fun i => v.testBit i) ∘ Nat.succ = fun i => (v / 2).testBit i := by
      funext i
      exact Nat.testBit_succ v i
    rw [shifted]
    split <;> simp [Nat.add_comm]

end Sys2Proof.Machine

open Sys2Proof Sys2Proof.Machine

/-- Settles O40: the address selected by a mask has the width of the address, and its parity counts its one bits. -/
theorem hashOutputs : Obligations.HashOutputs := by
  unfold Obligations.HashOutputs
  intro s t2 a j width hw ha
  have selected : a &&& hashMask s t2 j < 2 ^ width := Nat.lt_of_le_of_lt Nat.and_le_left ha
  rw [hashOut, parity, popcount_of_lt selected hw, popcount_eq_length_filter]
  simp only [Nat.testBit_and]

end

section
/-! PROOFS. DRAM channels and controllers (O38, O39): what a command leaves of the DRAM side, refreshes that fall due and are issued,
and readings of the refresh range. -/

namespace Sys2Proof.Machine

section
variable {s t : State}

theorem whenPowered_of_awake (hw : awake s = true) (f : State → State) : whenPowered s f = f s := by
  simp only [awake, Bool.and_eq_true, Bool.not_eq_true'] at hw
  obtain ⟨-, powered⟩ := hw
  rw [whenPowered, powered]
  rfl

theorem chanAt_congr (h : t.dram.chans = s.dram.chans) (k : Nat) : chanAt t k = chanAt s k := by rw [chanAt, h, chanAt]

theorem ctrlAt_congr (h : t.dram.ctrls = s.dram.ctrls) (c : Nat) : ctrlAt t c = ctrlAt s c := by rw [ctrlAt, h, ctrlAt]

/-! One channel -/

/-- From `s` to `t` channel `k` became `v`, and beside counters nothing else changed. -/
structure ChanBecame (k : Nat) (v : Chan) (s t : State) : Prop where
  chan : chanAt t k = v
  others : ∀ j, j ≠ k → chanAt t j = chanAt s j
  frame : t = { s with dram := { s.dram with chans := t.dram.chans }, cnts := t.cnts }

variable {k : Nat} {v : Chan}

theorem chanBecame_setChan (k : Nat) (v : Chan) (hs : Tidy s) : ChanBecame k v s (setChan k v s) :=
  ⟨chanAt_setChan k v hs, fun _ hj => chanAt_setChan_ne k v hs hj, rfl⟩

theorem chanBecame_modChan (k : Nat) (f : Chan → Chan) (hs : Tidy s) : ChanBecame k (f (chanAt s k)) s (modChan k f s) :=
  chanBecame_setChan k _ hs

theorem ChanBecame.count (h : ChanBecame k v s t) (p off : Nat) : ChanBecame k v s (count p off t) where
  chan := h.chan
  others := h.others
  frame := by
    rw [h.frame]
    rfl

theorem tidy_modChan (k : Nat) (f : Chan → Chan) (hs : Tidy s) : Tidy (modChan k f s) := (keeps_modChan k f s (.refl s)).tidy hs

end

/-! Refresh (R178, R179) -/

section
variable {s : State} {k rank : Nat}

/-- A rank of channel `k` owes one refresh more. -/
def owing (k rank : Nat) (s : State) : Chan :=
  { chanAt s k with debt := modifyAt (chanAt s k).debt rank (· + 1), refAt := tput 0 (chanAt s k).refAt rank s.now }

theorem exec_refreshInterval (hs : Tidy s) (hw : awake s = true) (online : (chanAt s k).online = true)
    (there : rank < (chanAt s k).debt.length) (awaken : (chanAt s k).sr ≠ .inSr)
    (due : tget 0 (chanAt s k).refAt rank + 3900 / 2 ^ (ctrlAt s (chanCtrl k)).range ≤ s.now) :
    ∃ u, exec (.refreshInterval k rank) s = .next u ∧ ChanBecame k (owing k rank s) s u := by
  have accrues : ¬ ((!(chanAt s k).online) = true ∨ (chanAt s k).debt.length ≤ rank ∨ (chanAt s k).sr = .inSr ∨
      s.now < tget 0 (chanAt s k).refAt rank + 3900 / 2 ^ (ctrlAt s (chanCtrl k)).range) := by
    rintro (offline | missing | asleep | early)
    · simp [online] at offline
    · exact absurd there (Nat.not_lt.2 missing)
    · exact awaken asleep
    · exact absurd due (Nat.not_le.2 early)
  have became := chanBecame_setChan k (owing k rank s) hs
  refine ⟨_, congrArg Host.Outcome.next ((whenPowered_of_awake hw _).trans (if_neg accrues)), ?_⟩
  dsimp only
  split
  · exact became.count _ _
  · exact became

theorem exec_refreshIssue (hs : Tidy s) (hw : awake s = true) (online : (chanAt s k).online = true)
    (active : (chanAt s k).sr = .active) (owed : 0 < (chanAt s k).debt.getD rank 0)
    (now : postponeMax s (chanCtrl k) < (chanAt s k).debt.getD rank 0 ∨
      (chanAt s k).debt.getD rank 0 = postponeMax s (chanCtrl k) ∧ panicApplies s k = false) :
    ∃ u, exec (.refreshIssue k rank) s = .next u ∧ ChanBecame k (refreshRank k rank (chanAt s k)) s u := by
  have takes : ¬ ((!(chanAt s k).online) = true ∨ (chanAt s k).debt.getD rank 0 = 0 ∨ (chanAt s k).sr = .inSr ∨
      (chanAt s k).sr = .exiting) := by
    rintro (offline | paid | asleep)
    · simp [online] at offline
    · exact absurd paid (Nat.ne_of_gt owed)
    · simp [active] at asleep
  have became := chanBecame_setChan k (refreshRank k rank (chanAt s k)) hs
  refine ⟨_, congrArg Host.Outcome.next (whenPowered_of_awake hw _), ?_⟩
  unfold issueRefresh
  dsimp only
  rw [if_neg takes]
  rcases now with beyond | ⟨top, calm⟩
  · rw [if_pos beyond]
    exact became.count _ _
  · have issued : ¬ (panicApplies s k = true ∨
        ¬ ((waitingReqs (chanAt s k)).isEmpty = true ∨ (chanAt s k).debt.getD rank 0 = postponeMax s (chanCtrl k))) := by
      rintro (panic | waits)
      · simp [calm] at panic
      · exact waits (.inr top)
    rw [if_neg (Nat.not_lt.2 (Nat.le_of_eq top)), if_neg issued]
    exact became

end

/-! The refresh range (R177, R180) -/

section
variable {s t : State}

theorem nodup_chansOf (c : Nat) : (chansOf c).Nodup := by
  unfold chansOf
  split
  · exact List.Pairwise.map _ (fun i j h => by omega) List.nodup_range
  · split <;> simp

theorem foldl_modChan_frame (f : Chan → Chan) (l : List Nat) : l.foldl (fun s k => modChan k f s) s =
    { s with dram := { s.dram with chans := (l.foldl (fun s k => modChan k f s) s).dram.chans } } :=
  List.foldlRecOn l _ (motive := fun t : State => t = { s with dram := { s.dram with chans := t.dram.chans } }) rfl
    fun t h k _ => by
      rw [h]
      rfl

theorem chanAt_foldl_modChan (f : Chan → Chan) {l : List Nat} (distinct : l.Nodup) (hs : Tidy s) (k : Nat) :
    chanAt (l.foldl (fun s k => modChan k f s) s) k = if k ∈ l then f (chanAt s k) else chanAt s k := by
  induction l generalizing s with
  | nil => rfl
  | cons a l ih =>
    obtain ⟨fresh, distinct⟩ := List.nodup_cons.1 distinct
    rw [List.foldl_cons, ih distinct (tidy_modChan a f hs)]
    by_cases e : k = a
    · subst e
      rw [if_neg fresh, if_pos List.mem_cons_self]
      exact (chanBecame_modChan k f hs).chan
    · rw [(chanBecame_modChan a f hs).others k e]
      simp only [List.mem_cons, e, false_or]

theorem ScalesOnly.dram (h : ScalesOnly s t) : t.dram = s.dram := congrArg (·.dram) h

/-- A change of range as the DRAM side shows it: the controller has the new range, and the debts of its channels are rescaled. -/
def rangeApplied (c r : Nat) (s : State) : State :=
  (chansOf c).foldl (fun t k => modChan k (fun x => { x with debt := x.debt.map (rescale (ctrlAt s c).range r) }) t)
    (setCtrl c { ctrlAt s c with range := r, lower := 0 } s)

theorem applyRange_dram (c r : Nat) : (applyRange c r s).dram = (rangeApplied c r s).dram := by
  unfold applyRange
  extract_lets k s1 s2
  have counted : s2.dram = (rangeApplied c r s).dram := by
    simp only [s2]
    split <;> rfl
  split
  · rw [← counted]
    unfold whenAwake
    split
    · exact scalesOnly_settleScales.dram
    · rfl
  · exact counted

theorem ctrlAt_applyRange (c r : Nat) (hs : Tidy s) : ctrlAt (applyRange c r s) c = { ctrlAt s c with range := r, lower := 0 } := by
  rw [ctrlAt_congr (congrArg (·.ctrls) (applyRange_dram c r)), rangeApplied, foldl_modChan_frame]
  exact ctrlAt_setCtrl c _ hs

theorem chanAt_applyRange (c r : Nat) (hs : Tidy s) {k : Nat} (hk : k ∈ chansOf c) :
    (chanAt (applyRange c r s) k).debt = (chanAt s k).debt.map (rescale (ctrlAt s c).range r) := by
  have tidy : Tidy (setCtrl c { ctrlAt s c with range := r, lower := 0 } s) := (keeps_setCtrl c _ s (.refl s)).tidy hs
  rw [chanAt_congr (congrArg (·.chans) (applyRange_dram c r)), rangeApplied, chanAt_foldl_modChan _ (nodup_chansOf c) tidy, if_pos hk]
  rfl

theorem withPins_dram (f : State → State) : (withPins f s).dram = (f s).dram := by
  unfold withPins
  dsimp only
  split <;> rfl

/-- The controller after a reading, before its range is settled. -/
def polled (c : Nat) (readings : List Nat) (s : State) : Ctrl :=
  { ctrlAt s c with readAt := s.now + 1, tempC := if c < 8 then readings.headD 0 % 256 else 0 }

/-- What a reading comes to: the range rises at once, and falls after two readings in succession (R177). -/
def rangeSettled (c : Nat) (readings : List Nat) (s : State) : State :=
  if (ctrlAt s c).range < rangeOf c readings then applyRange c (rangeOf c readings) (setCtrl c (polled c readings s) s)
  else if (ctrlAt s c).range = rangeOf c readings then setCtrl c { polled c readings s with lower := 0 } s
  else if (ctrlAt s c).lower = 0 then setCtrl c { polled c readings s with lower := 1 } s
  else applyRange c (rangeOf c readings) (setCtrl c (polled c readings s) s)

theorem exec_rangeReading {c : Nat} {readings : List Nat} (hw : awake s = true) (hc : c < 24) (given : readings ≠ [])
    (due : (ctrlAt s c).readAt = 0 ∨ (ctrlAt s c).readAt + 1000 * fld s (ctrlPage c) 0x488 23 8 ≤ s.now + 1) :
    ∃ u, exec (.rangeReading c readings) s = .next u ∧ u.dram = (rangeSettled c readings s).dram := by
  have taken : ¬ (24 ≤ c ∨ readings.isEmpty = true ∨
      ((ctrlAt s c).readAt ≠ 0 ∧ s.now + 1 < (ctrlAt s c).readAt + 1000 * fld s (ctrlPage c) 0x488 23 8)) := by
    rintro (beyond | empty | ⟨read, early⟩)
    · exact absurd hc (Nat.not_lt.2 beyond)
    · exact given (List.isEmpty_iff.1 empty)
    · exact due.elim read (Nat.not_le.2 early)
  refine ⟨_, congrArg Host.Outcome.next (whenPowered_of_awake hw _), ?_⟩
  rw [withPins_dram, if_neg taken]
  rfl

theorem ctrlAt_polled (c : Nat) (readings : List Nat) (hs : Tidy s) :
    ctrlAt (setCtrl c (polled c readings s) s) c = polled c readings s := ctrlAt_setCtrl c _ hs

theorem tidy_polled (c : Nat) (readings : List Nat) (hs : Tidy s) : Tidy (setCtrl c (polled c readings s) s) :=
  (keeps_setCtrl c _ s (.refl s)).tidy hs

theorem rangeSettled_rise {c : Nat} {readings : List Nat} (hs : Tidy s) (rises : (ctrlAt s c).range < rangeOf c readings) :
    ctrlAt (rangeSettled c readings s) c = { polled c readings s with range := rangeOf c readings, lower := 0 } ∧
      ∀ k ∈ chansOf c, (chanAt (rangeSettled c readings s) k).debt =
        (chanAt s k).debt.map (· * 2 ^ (rangeOf c readings - (ctrlAt s c).range)) := by
  have tidy := tidy_polled c readings hs
  have scaled : rescale (polled c readings s).range (rangeOf c readings) = (· * 2 ^ (rangeOf c readings - (ctrlAt s c).range)) := by
    funext d
    exact if_pos (Nat.le_of_lt rises)
  rw [rangeSettled, if_pos rises, ctrlAt_applyRange c _ tidy, ctrlAt_polled c readings hs]
  refine ⟨rfl, fun k hk => ?_⟩
  rw [chanAt_applyRange c _ tidy hk, ctrlAt_polled c readings hs, scaled]
  rfl

theorem rangeSettled_first_fall {c : Nat} {readings : List Nat} (falls : rangeOf c readings < (ctrlAt s c).range)
    (first : (ctrlAt s c).lower = 0) : rangeSettled c readings s = setCtrl c { polled c readings s with lower := 1 } s := by
  rw [rangeSettled, if_neg (Nat.lt_asymm falls), if_neg (Nat.ne_of_gt falls), if_pos first]

theorem rangeSettled_second_fall {c : Nat} {readings : List Nat} (hs : Tidy s) (falls : rangeOf c readings < (ctrlAt s c).range)
    (second : (ctrlAt s c).lower ≠ 0) :
    ctrlAt (rangeSettled c readings s) c = { polled c readings s with range := rangeOf c readings, lower := 0 } := by
  rw [rangeSettled, if_neg (Nat.lt_asymm falls), if_neg (Nat.ne_of_gt falls), if_neg second, ctrlAt_applyRange c _ (tidy_polled c readings hs),
    ctrlAt_polled c readings hs]

end
end Sys2Proof.Machine

open Sys2Proof Sys2Proof.Machine

/-- Settles O38: an interval and an issue come to one channel's new debt; a reading comes to the range that it settles, which a rise
rescales at once and a first lower reading leaves as it is. -/
theorem refreshDebtAndRange : Obligations.RefreshDebtAndRange := by
  unfold Obligations.RefreshDebtAndRange
  refine ⟨?interval, ?issue, ?reading⟩
  case interval =>
    intro s k rank hs hw online there awaken due
    obtain ⟨u, run, became⟩ := exec_refreshInterval hs hw online there awaken due
    refine ⟨u, run, ?_, ?_, became.others, became.frame⟩ <;> rw [became.chan] <;> rfl
  case issue =>
    intro s k rank hs hw online active owed now
    obtain ⟨u, run, became⟩ := exec_refreshIssue hs hw online active owed now
    refine ⟨u, run, ?_, became.others, became.frame⟩
    rw [became.chan]
    rfl
  case reading =>
    intro s c readings hs hw hc given due
    obtain ⟨u, run, dram⟩ := exec_rangeReading hw hc given due
    have ctrl : ctrlAt u c = ctrlAt (rangeSettled c readings s) c := ctrlAt_congr (congrArg (·.ctrls) dram) c
    refine ⟨fun rises => ?_, fun falls => ⟨u, run, ?_⟩⟩
    · obtain ⟨risen, scaled⟩ := rangeSettled_rise hs rises
      rw [risen] at ctrl
      refine ⟨u, run, by rw [ctrl], by rw [ctrl], fun k hk => ?_⟩
      rw [chanAt_congr (congrArg (·.chans) dram), scaled k hk]
    · by_cases first : (ctrlAt s c).lower = 0
      · rw [rangeSettled_first_fall falls first] at ctrl dram
        rw [ctrlAt_setCtrl c _ hs] at ctrl
        rw [if_pos first, ctrl]
        exact ⟨rfl, fun _ => ⟨rfl, congrArg (·.chans) dram⟩⟩
      · rw [rangeSettled_second_fall hs falls first] at ctrl
        rw [if_neg first, ctrl]
        exact ⟨rfl, fun second => absurd second first⟩

end

section
/-! PROOFS. What a channel does with requests (O39): the request that is picked, requests that arrive and age, and the icing requests
that panic defers. -/

namespace Sys2Proof.Machine

/-! The pick (R169, R171) -/

section
variable {l : List DramReq} {c : Chan} {r : DramReq}

theorem mem_of_oldestReq (h : oldestReq l = some r) : r ∈ l := by
  refine List.foldlRecOn l _ (motive := fun o : Option DramReq => ∀ r, o = some r → r ∈ l) (fun _ h => absurd h (by simp))
    (fun o older x hx r h => ?_) r h
  split at h
  · cases h
    exact hx
  · split at h
    · cases h
      exact hx
    · exact older r h

theorem mem_of_byRow (h : byRow c l = some r) : r ∈ l := by
  unfold byRow at h
  split at h
  · next hit =>
    cases h
    exact (List.mem_filter.1 (mem_of_oldestReq hit)).1
  · exact mem_of_oldestReq h

/-- What a channel picks is one of its requests. -/
theorem mem_of_nextReq {panic : Bool} (h : nextReq panic c = some r) : r ∈ waitingReqs c := by
  unfold nextReq at h
  extract_lets all ready reads writes at h
  have waits : ∀ x ∈ ready, x ∈ all := fun x hx => (List.mem_filter.1 (List.mem_filter.1 hx).1).1
  have picked {p : DramReq → Bool} {x : DramReq} (hx : x ∈ ready.filter p) : x ∈ all := waits x (List.mem_filter.1 hx).1
  split at h
  · next realTime =>
    cases h
    split at realTime
    · exact picked (mem_of_oldestReq realTime)
    · cases realTime
  · split at h
    · next aged =>
      cases h
      exact picked (mem_of_oldestReq aged)
    · split at h
      · exact picked (mem_of_byRow h)
      · exact picked (mem_of_byRow h)

end

/-! Icing requests that panic defers (R175, R203) -/

/-- Beside the channels only counters and the list of deferred icing requests differ. -/
def RequestsOnly (s t : State) : Prop :=
  t = { s with dram := { s.dram with chans := t.dram.chans }, cnts := t.cnts, ice := { s.ice with deferred := t.ice.deferred } }

section
variable {s t : State} {k : Nat}

theorem RequestsOnly.trans {u : State} (h : RequestsOnly s t) (m : RequestsOnly t u) : RequestsOnly s u := by
  refine Eq.trans m ?_
  rw [h]

theorem ChanBecame.requestsOnly {v : Chan} (h : ChanBecame k v s t) : RequestsOnly s t := by
  rw [RequestsOnly, h.frame]

theorem requestsOnly_settleDeferred (k : Nat) : RequestsOnly s (settleDeferred k s) := rfl

theorem chanAt_settleDeferred (k j : Nat) : chanAt (settleDeferred k s) j = chanAt s j := rfl

theorem tidy_settleDeferred (k : Nat) (hs : Tidy s) : Tidy (settleDeferred k s) := (keeps_settleDeferred k s (.refl s)).tidy hs

theorem counter_settleDeferred_ne (k : Nat) {p off : Nat} (hs : Tidy s) (e : regKey p off ≠ regKey Pg.ice 0xE38) :
    counter (settleDeferred k s) p off = counter s p off := tget_tput_ne _ (twf_trising hs.cnts) e

/-! CONTROLLER_ISSUE without arrivals -/

/-- A channel after it served a request. -/
theorem serveReq_became (r : DramReq) (hs : Tidy s) :
    ∃ v, ChanBecame k v s (serveReq k r s) ∧ waitingReqs v = (waitingReqs (chanAt s k)).filter (fun x => decide (x.id ≠ r.id)) :=
  ⟨_, (chanBecame_setChan k _ hs).count _ _, (List.filter_append ..).symm⟩

theorem exec_controllerIssue_serves {r : DramReq} (hw : awake s = true) (online : (chanAt s k).online = true)
    (active : (chanAt s k).sr = .active) (calm : inCatchup s k = false) (pick : nextReq (panicApplies s k) (chanAt s k) = some r) :
    exec (.controllerIssue k []) s = .next (settleDeferred k (serveReq k r (settleDeferred k s))) := by
  have there : ¬ (!(chanAt s k).online) = true := by simp [online]
  have serves : ¬ ((chanAt s k).sr = .inSr ∨ (chanAt s k).sr = .exiting) := by simp [active]
  have free : ¬ inCatchup (settleDeferred k s) k = true := by
    rw [show inCatchup (settleDeferred k s) k = false from calm]
    exact Bool.false_ne_true
  have picks : nextReq (panicApplies (settleDeferred k s) k) (chanAt (settleDeferred k s) k) = some r := pick
  have served : (match nextReq (panicApplies (settleDeferred k s) k) (chanAt (settleDeferred k s) k) with
      | some r => settleDeferred k (serveReq k r (settleDeferred k s))
      | none => settleDeferred k s) = settleDeferred k (serveReq k r (settleDeferred k s)) := by rw [picks]
  exact congrArg Host.Outcome.next ((whenPowered_of_awake hw _).trans ((if_neg there).trans ((if_neg serves).trans
    ((if_neg free).trans served))))

/-! CONTROLLER_ISSUE of a read that arrives in self-refresh (R185) -/

/-- A read as a channel accepts it. -/
def acceptedRead (r : DramReq) (s : State) (c : Chan) : DramReq := { r with time := s.now, seq := c.accepted, aged := false }

theorem acceptReq_read {r : DramReq} (read : r.write = false) (nowrites : (chanAt s k).wbuf = []) :
    acceptReq k r s = setChan k { chanAt s k with
      accepted := (chanAt s k).accepted + 1, lastReq := s.now, queue := (chanAt s k).queue ++ [acceptedRead r s (chanAt s k)] } s := by
  have isRead : ¬ r.write = true := by simp [read]
  have unbuffered : ¬ (chanAt s k).wbuf.any (fun x => decide (x.crumb = r.crumb)) = true := by simp [nowrites]
  exact (if_neg isRead).trans (if_neg unbuffered)

/-- A channel whose exit from self-refresh has started. -/
def exitBegun (c : Chan) : Chan := { c with sr := .exiting }

/-- A channel in self-refresh that starts its exit for a read that arrives. -/
def wakened (r : DramReq) (s : State) (c : Chan) : Chan :=
  { exitBegun c with accepted := c.accepted + 1, lastReq := s.now, queue := c.queue ++ [acceptedRead r s c] }

theorem meetSelfRefresh_inSr (asleep : (chanAt s k).sr = .inSr) : meetSelfRefresh k s = modChan k exitBegun s := by
  unfold meetSelfRefresh
  rw [asleep]
  rfl

theorem chanAt_arrival_inSr {r : DramReq} (hs : Tidy s) (asleep : (chanAt s k).sr = .inSr) (read : r.write = false)
    (nowrites : (chanAt s k).wbuf = []) : chanAt (acceptReq k r (meetSelfRefresh k s)) k = wakened r s (chanAt s k) := by
  have begun : chanAt (modChan k exitBegun s) k = exitBegun (chanAt s k) := (chanBecame_modChan k exitBegun hs).chan
  have unbuffered : (chanAt (modChan k exitBegun s) k).wbuf = [] := by
    rw [begun]
    exact nowrites
  rw [meetSelfRefresh_inSr asleep, acceptReq_read read unbuffered, chanAt_setChan k _ (tidy_modChan k exitBegun hs), begun]
  rfl

theorem exec_controllerIssue_wakens {r : DramReq} (hs : Tidy s) (hw : awake s = true) (online : (chanAt s k).online = true)
    (asleep : (chanAt s k).sr = .inSr) (read : r.write = false) (nowrites : (chanAt s k).wbuf = []) :
    ∃ u, exec (.controllerIssue k [r]) s = .next u ∧ chanAt u k = wakened r s (chanAt s k) := by
  have there : ¬ (!(chanAt s k).online) = true := by simp [online]
  have accepted := chanAt_arrival_inSr hs asleep read nowrites
  refine ⟨settleDeferred k (acceptReq k r (meetSelfRefresh k s)), ?_, accepted⟩
  refine congrArg Host.Outcome.next ((whenPowered_of_awake hw _).trans ((if_neg there).trans (if_pos (.inr ?_))))
  change (chanAt (acceptReq k r (meetSelfRefresh k s)) k).sr = .exiting
  rw [accepted]
  rfl

/-! AGE_PROMOTE (R172) -/

/-- A request with an identifier is raised to class 3. -/
def agedIf (id : Nat) (r : DramReq) : DramReq := if r.id = id then { r with aged := true } else r

theorem waitingReqs_ageReq (id : Nat) (c : Chan) : waitingReqs (ageReq id c) = (waitingReqs c).map (agedIf id) := List.map_append.symm

theorem agedIf_id (id : Nat) (r : DramReq) : (agedIf id r).id = r.id := by
  unfold agedIf
  split <;> rfl

theorem aged_agedIf {id : Nat} {r : DramReq} (h : r.id = id) : (agedIf id r).aged = true := by rw [agedIf, if_pos h]

/-- Channel `k` with a request raised, and the promotion counted. -/
def promoted (k id : Nat) (s : State) : State := count (dramPage k) 0xE18 (modChan k (ageReq id) s)

theorem exec_agePromote {r : DramReq} (hw : awake s = true) (waits : r ∈ waitingReqs (chanAt s k)) (due : ripe s k r = true) :
    exec (.agePromote k r.id) s = .next (settleDeferred k (promoted k r.id s)) := by
  have found : (waitingReqs (chanAt s k)).any (fun x => decide (x.id = r.id) && ripe s k x) = true :=
    List.any_eq_true.2 ⟨r, waits, by simp [due]⟩
  exact congrArg Host.Outcome.next ((whenAwake_of_awake hw _).trans (if_pos found))

theorem waitingReqs_promoted (id : Nat) (hs : Tidy s) :
    waitingReqs (chanAt (promoted k id s) k) = (waitingReqs (chanAt s k)).map (agedIf id) := by
  have became := (chanBecame_modChan k (ageReq id) hs).count (dramPage k) 0xE18
  rw [promoted, became.chan, waitingReqs_ageReq]

theorem counter_promoted (id : Nat) (hs : Tidy s) : counter (settleDeferred k (promoted k id s)) (dramPage k) 0xE18 =
    (counter s (dramPage k) 0xE18 + 1) % 2 ^ 64 := by
  have aged : Tidy (modChan k (ageReq id) s) := tidy_modChan k _ hs
  have tidy : Tidy (promoted k id s) := (keeps_count _ _ _ (.refl _)).tidy aged
  have apart : regKey (dramPage k) 0xE18 ≠ regKey Pg.ice 0xE38 := by
    unfold regKey
    omega
  rw [counter_settleDeferred_ne k tidy apart]
  exact counter_countBy _ _ _ aged

end
end Sys2Proof.Machine

open Sys2Proof Sys2Proof.Machine

/-- Settles O39: the issue comes to the service of the request that is picked, which is one that waits; a read that arrives in
self-refresh starts the exit; and a promotion raises the waiting requests of its identifier. -/
theorem controllerServes : Obligations.ControllerServes := by
  unfold Obligations.ControllerServes
  refine ⟨?serves, ?wakens, ?ages⟩
  case serves =>
    intro s k r hs hw online active calm pick
    obtain ⟨v, became, left⟩ := serveReq_became (k := k) r (tidy_settleDeferred k hs)
    have waiting : waitingReqs (chanAt (settleDeferred k (serveReq k r (settleDeferred k s))) k) =
        (waitingReqs (chanAt s k)).filter (fun x => decide (x.id ≠ r.id)) := by
      rw [chanAt_settleDeferred, became.chan, left, chanAt_settleDeferred]
    have frame : RequestsOnly s (settleDeferred k (serveReq k r (settleDeferred k s))) :=
      (requestsOnly_settleDeferred k).trans (became.requestsOnly.trans (requestsOnly_settleDeferred k))
    refine ⟨_, exec_controllerIssue_serves hw online active calm pick, mem_of_nextReq pick, ?_, ?_, became.others,
      congrArg (·.mem) frame, frame⟩
    · rw [waiting]
      exact fun x hx => by simpa using (List.mem_filter.1 hx).2
    · rw [waiting]
      exact fun x hx other => List.mem_filter.2 ⟨hx, by simpa using other⟩
  case wakens =>
    intro s k r hs hw online asleep read nowrites
    obtain ⟨u, run, chan⟩ := exec_controllerIssue_wakens hs hw online asleep read nowrites
    exact ⟨u, run, by rw [chan]; rfl, by rw [chan]; rfl⟩
  case ages =>
    intro s k r hs hw waits due
    refine ⟨_, exec_agePromote hw waits due, ?_, ?_, counter_promoted r.id hs⟩
    · rw [chanAt_settleDeferred, waitingReqs_promoted r.id hs]
      exact List.mem_map.2 ⟨r, waits, if_pos rfl⟩
    · rw [chanAt_settleDeferred, waitingReqs_promoted r.id hs]
      intro x hx same
      obtain ⟨y, -, rfl⟩ := List.mem_map.1 hx
      exact aged_agedIf ((agedIf_id r.id y).symm.trans same)

end

section
/-! PROOFS. Where self-refresh entry fails (O37): key 512, which names the whole of stack 0 and which the statement takes for a channel
(R184). -/

namespace Sys2Proof.Machine

/-- The whole of stack 0, as SR_ENTRY names it. -/
def stack0 : Nat := 512

/-- Running, with no channel of stack 0 in service. The table of channels lists an idle one under the key of the stack, and the register
that the statement reads for it permits self-refresh. -/
def stackAsChannel : State :=
  { State.reset with
    boot := { Boot.reset with halted := false }
    regs := [(regKey (dramPage stack0) 0x490, 1)]
    dram := { Dram.reset with chans := [(stack0, { Chan.reset with online := true })] } }

theorem tidy_stackAsChannel : Tidy stackAsChannel := by constructor <;> decide

/-- Of the stack no channel is in service, and nothing enters self-refresh. -/
theorem exec_srEntry_stackAsChannel : exec (.srEntry stack0) stackAsChannel = .next stackAsChannel := by
  have offline : (chansOf 0).filter (fun k => (chanAt stackAsChannel k).online) = [] := by decide
  change Host.Outcome.next (whenPowered stackAsChannel _) = _
  rw [whenPowered_of_awake (by decide), if_pos (by decide), if_pos (by decide)]
  change Host.Outcome.next (if ((chansOf 0).filter (fun k => (chanAt stackAsChannel k).online)).all (srReady stackAsChannel) then
    ((chansOf 0).filter (fun k => (chanAt stackAsChannel k).online)).foldl (fun s k => enterSr k s) stackAsChannel
    else stackAsChannel) = _
  rw [offline]
  rfl

end Sys2Proof.Machine

open Sys2Proof Sys2Proof.Machine

/-- Refutes O37: SR_ENTRY with the key of a stack whose channels are all out of service leaves the state as it is, so that an idle
channel listed under that key does not begin its entry. -/
theorem not_panicAndSelfRefresh : ¬ Obligations.PanicAndSelfRefresh := by
  unfold Obligations.PanicAndSelfRefresh
  rintro ⟨-, selfRefresh⟩
  obtain ⟨entry, -⟩ := selfRefresh stackAsChannel stack0 tidy_stackAsChannel (by decide)
  obtain ⟨u, run, -, -, enters⟩ := entry (by decide) (by decide) (by decide) (by decide) (by decide) (by decide)
  have outcome : stackAsChannel = u := Host.Outcome.next.inj (exec_srEntry_stackAsChannel.symm.trans run)
  rw [← outcome] at enters
  exact absurd enters (by decide)

end

section
/-! PROOFS. Hash masks and lost channels (O41): a write of a mask of SMC 0 by the claim holder, and what the loss of a stack channel
leaves of its slabs. -/

namespace Sys2Proof.Machine

/-! Writes of a mask (R167) -/

/-- From `s` to `t` at most one mask of SMC 0, the header of that page, counters and RLG_LAST_REFUSAL differ. -/
structure MaskTried (n : Nat) (s t : State) : Prop where
  reg : RegOnly Pg.smc (0x400 + 8 * n) s t
  hdr : HdrOnly Pg.smc s t
  frame : t = { s with regs := t.regs, pages := t.pages, cnts := t.cnts, rlg := { s.rlg with refusal := t.rlg.refusal } }

section
variable {s t : State} {w n m : Nat}

theorem MaskTried.trans {u : State} (h : MaskTried n s t) (k : MaskTried n t u) : MaskTried n s u where
  reg := regOnly_trans h.reg k.reg
  hdr := hdrOnly_trans h.hdr k.hdr
  frame := by
    refine Eq.trans k.frame ?_
    rw [h.frame]

theorem maskTried_dropHalf (w n : Nat) (hs : Tidy s) : MaskTried n s (dropHalf w Pg.smc s) :=
  ⟨regOnly_dropHalf _, hdrOnly_dropHalf hs, rfl⟩

theorem maskTried_noteErr (kind : Nat) (st : Status) (off w n : Nat) (hs : Tidy s) : MaskTried n s (noteErr Pg.smc kind st off w s) :=
  ⟨regOnly_of_regs rfl, hdrOnly_noteErr _ _ _ hs, rfl⟩

theorem maskTried_admitted (hs : Tidy s) : MaskTried n s (admitted (putMask false n m s)) :=
  ⟨regOnly_setReg _ _ hs, hdrOnly_of_pages rfl, rfl⟩

/-- A refused admission of masks is counted and recorded in RLG_LAST_REFUSAL (R231). -/
def masksUnadmitted (c requested headroom : Nat) (s : State) : State :=
  refusedAdmission (noteRefusal .guaranteeUnavailable c requested headroom s)

theorem maskTried_masksUnadmitted (c requested headroom : Nat) : MaskTried n s (masksUnadmitted c requested headroom s) :=
  ⟨regOnly_of_regs rfl, hdrOnly_of_pages rfl, rfl⟩

theorem tidy_masksUnadmitted (c requested headroom : Nat) (hs : Tidy s) : Tidy (masksUnadmitted c requested headroom s) :=
  (keeps_refusedAdmission _ (keeps_noteRefusal _ _ _ _ _ (.refl s))).tidy hs

theorem admitMasks_of_floors (p off : Nat) (floors : ∀ c ∈ ctrlIndices, floorOf s c ≤ floorOf t c ∨ demandOf t c ≤ floorOf t c) :
    admitMasks w p off s t = admitted t := by
  have admits : ctrlIndices.find? (fun c => decide (floorOf t c < floorOf s c) && decide (floorOf t c < demandOf t c)) = none := by
    refine List.find?_eq_none.2 fun c hc => ?_
    have kept := floors c hc
    simp only [Bool.and_eq_true, decide_eq_true_eq]
    omega
  rw [admitMasks, admits]

theorem maskTried_admitMasks (hs : Tidy s) : MaskTried n s (admitMasks w Pg.smc (0x400 + 8 * n) s (putMask false n m s)) := by
  unfold admitMasks
  split
  · exact (maskTried_masksUnadmitted _ _ _).trans (maskTried_noteErr _ _ _ _ _ (tidy_masksUnadmitted _ _ _ hs))
  · exact maskTried_admitted hs

/-- The masks of T1 with one of them replaced. -/
def masksWith (n m : Nat) (s : State) (k : Nat) : Nat := if k = n then m else hashMask s false k

theorem writeMask_t1 (hm : m < 2 ^ 48) : writeMask w false n (BitVec.ofNat 64 m) s =
    if tierEmpty s .t1 = false then noteErr Pg.smc kindRefusedState .accessDenied (0x400 + 8 * n) w s
    else if masksOk false (outputAbsent s false) (masksWith n m s) = false then
      noteErr Pg.smc kindRefusedValue .accessDenied (0x400 + 8 * n) w s
    else admitMasks w Pg.smc (0x400 + 8 * n) s (putMask false n m s) := by
  have value : (BitVec.ofNat 64 m).toNat % 2 ^ 48 = m := by
    rw [BitVec.toNat_ofNat]
    omega
  have present : outputAbsent s false n = false := rfl
  unfold writeMask
  simp only [present, value, Bool.false_eq_true, if_false, Bool.not_eq_true']
  rfl

theorem maskTried_writeMask (hs : Tidy s) (hm : m < 2 ^ 48) : MaskTried n s (writeMask w false n (BitVec.ofNat 64 m) s) := by
  rw [writeMask_t1 hm]
  split
  · exact maskTried_noteErr _ _ _ _ _ hs
  · split
    · exact maskTried_noteErr _ _ _ _ _ hs
    · exact maskTried_admitMasks hs

theorem writeMask_of_admitted (hm : m < 2 ^ 48) (empty : tierEmpty s .t1 = true)
    (sound : masksOk false (outputAbsent s false) (masksWith n m s) = true)
    (floors : ∀ c ∈ ctrlIndices, floorOf s c ≤ floorOf (putMask false n m s) c ∨
      demandOf (putMask false n m s) c ≤ floorOf (putMask false n m s) c) :
    writeMask w false n (BitVec.ofNat 64 m) s = admitted (putMask false n m s) := by
  rw [writeMask_t1 hm, if_neg (by simp [empty]), if_neg (by simp [sound]), admitMasks_of_floors _ _ floors]

theorem writeMask_of_unsound (hm : m < 2 ^ 48) (empty : tierEmpty s .t1 = true)
    (unsound : masksOk false (outputAbsent s false) (masksWith n m s) = false) :
    writeMask w false n (BitVec.ofNat 64 m) s = noteErr Pg.smc kindRefusedValue .accessDenied (0x400 + 8 * n) w s := by
  rw [writeMask_t1 hm, if_neg (by simp [empty]), if_pos unsound]

theorem writeMask_of_nonempty (hm : m < 2 ^ 48) (nonempty : tierEmpty s .t1 = false) :
    writeMask w false n (BitVec.ofNat 64 m) s = noteErr Pg.smc kindRefusedState .accessDenied (0x400 + 8 * n) w s := by
  rw [writeMask_t1 hm, if_pos nonempty]

/-- A refusal after an access of the writer keeps every register and is recorded in the header. -/
theorem refused_after_access (kind : Nat) (st : Status) (off o : Nat) (hs : Tidy s) :
    reg (noteErr Pg.smc kind st off w (dropHalf w Pg.smc s)) Pg.smc o = reg s Pg.smc o ∧
      pageHdr (noteErr Pg.smc kind st off w (dropHalf w Pg.smc s)) Pg.smc =
        refusedHdr kind st off w (accessed w (pageHdr s Pg.smc)) := by
  refine ⟨rfl, ?_⟩
  rw [pageHdr_noteErr _ _ _ (tidy_dropHalf hs), pageHdr_dropHalf hs]

theorem exec_hashMaskWrite_owner (v : Word) (hs : Tidy s) (ho : Owns s w Pg.smc) (unlocked : (pageHdr s Pg.smc).unlocked = true)
    (hn : n < 13) : exec (.hashMaskWrite w Pg.smc (0x400 + 8 * n) v) s = .next (writeMask w false n v (dropHalf w Pg.smc s)) := by
  have index : (0x400 + 8 * n - 0x400) / 8 = n := by omega
  have expert : ¬ 0x400 + 8 * n = 0x40 := by omega
  have mask : ¬ (0x400 + 8 * n < 0x400 ∨ (0x400 + 8 * n - 0x400) % 8 ≠ 0 ∨ 13 ≤ n) := by omega
  have still : (pageHdr (dropHalf w Pg.smc s) Pg.smc).unlocked = true := by
    rw [pageHdr_dropHalf hs]
    exact unlocked
  have written : expertGate w Pg.smc (0x400 + 8 * n) (writeMask w false n v) s = writeMask w false n v (dropHalf w Pg.smc s) :=
    (ownedWrite_of_owns _ hs ho).trans (if_pos still)
  rw [← written]
  change execHashMaskWrite _ _ _ _ _ = _
  unfold execHashMaskWrite
  rw [index]
  exact congrArg Host.Outcome.next ((if_neg (by decide)).trans ((if_neg expert).trans (if_neg mask)))

end

/-! Lost channels (R24, R197) -/

/-- A step of a fold brings about what later steps keep. -/
theorem foldl_brings {α : Type} {f : State → α → State} {P : State → Prop} (tidy : ∀ s a, Tidy s → Tidy (f s a))
    (keeps : ∀ s a, Tidy s → P s → P (f s a)) {a : α} (brings : ∀ s, Tidy s → P (f s a)) {l : List α} (ha : a ∈ l) {s : State}
    (hs : Tidy s) : P (l.foldl f s) := by
  induction l generalizing s with
  | nil => cases ha
  | cons b l ih =>
    rw [List.foldl_cons]
    rcases List.mem_cons.1 ha with rfl | later
    · exact (List.foldlRecOn l f (motive := fun t => Tidy t ∧ P t) ⟨tidy _ _ hs, brings _ hs⟩
        fun t h c _ => ⟨tidy t c h.1, keeps t c h.1 h.2⟩).2
    · exact ih later (tidy _ _ hs)

/-- What the loss of blocks may change: descriptors, page headers, events, the move queue and the tray cache. -/
def BlocksLost (s t : State) : Prop :=
  t = { s with descs := t.descs, pages := t.pages, router := t.router, mge := { s.mge with moves := t.mge.moves }, cdc := t.cdc }

section
variable {s t : State} {page slab hb b : Nat}

theorem BlocksLost.trans {u : State} (h : BlocksLost s t) (k : BlocksLost t u) : BlocksLost s u := by
  refine Eq.trans k ?_
  rw [h]

theorem blocksLost_loseBlock (page slab hb b : Nat) : BlocksLost s (loseBlock page slab hb b s) := by
  unfold loseBlock
  split <;> rfl

/-- With no move in the queue none comes of it. -/
theorem loseBlock_moves (page slab hb b : Nat) (h : s.mge.moves = []) : (loseBlock page slab hb b s).mge.moves = [] := by
  unfold loseBlock
  split
  · exact h
  · change s.mge.moves.map _ = []
    rw [h]
    rfl

theorem tidy_loseBlock (page slab hb b : Nat) (hs : Tidy s) : Tidy (loseBlock page slab hb b s) :=
  (keeps_loseBlock page slab hb b s (.refl s)).tidy hs

theorem descAt_loseBlock (page slab b : Nat) (h : (descAt s hb).state ≠ .poisoned) (j : Nat) :
    descAt (loseBlock page slab hb b s) j = descAt (setDesc hb { descAt s hb with state := .poisoned } s) j := by
  rw [loseBlock, if_neg h]
  rfl

theorem loseBlock_of_poisoned (page slab b : Nat) (h : (descAt s hb).state = .poisoned) : loseBlock page slab hb b s = s := if_pos h

theorem loseBlock_poisons (page slab hb b : Nat) (hs : Tidy s) : (descAt (loseBlock page slab hb b s) hb).state = .poisoned := by
  by_cases h : (descAt s hb).state = .poisoned
  · rw [loseBlock_of_poisoned _ _ _ h, h]
  · rw [descAt_loseBlock _ _ _ h, descAt_setDesc hb _ hs]

theorem loseBlock_keeps_poison {other : Nat} (page slab hb b : Nat) (hs : Tidy s) (h : (descAt s other).state = .poisoned) :
    (descAt (loseBlock page slab hb b s) other).state = .poisoned := by
  by_cases e : other = hb
  · subst e
    exact loseBlock_poisons _ _ _ _ hs
  · by_cases poisoned : (descAt s hb).state = .poisoned
    · rw [loseBlock_of_poisoned _ _ _ poisoned, h]
    · rw [descAt_loseBlock _ _ _ poisoned, descAt_setDesc_ne hb _ hs e, h]

theorem tidy_loseSlab (page slab : Nat) (tier : Tier) (frame : Nat) (hs : Tidy s) : Tidy (loseSlab page slab tier frame s) :=
  (keeps_loseSlab page slab tier frame s (.refl s)).tidy hs

theorem blocksLost_loseSlab (page slab : Nat) (tier : Tier) (frame : Nat) : BlocksLost s (loseSlab page slab tier frame s) := by
  unfold loseSlab
  exact List.foldlRecOn _ _ (motive := fun t => BlocksLost s t) rfl fun _ h b _ => h.trans (blocksLost_loseBlock page slab _ b)

theorem loseSlab_moves (page slab : Nat) (tier : Tier) (frame : Nat) (h : s.mge.moves = []) :
    (loseSlab page slab tier frame s).mge.moves = [] := by
  unfold loseSlab
  exact List.foldlRecOn _ _ (motive := fun t : State => t.mge.moves = []) h fun _ h b _ => loseBlock_moves page slab _ b h

theorem loseSlab_poisons (page slab : Nat) (tier : Tier) (frame : Nat) (hs : Tidy s) (hlt : b < 4096) :
    (descAt (loseSlab page slab tier frame s) (homeKey tier frame b)).state = .poisoned :=
  foldl_brings (P := fun t => (descAt t (homeKey tier frame b)).state = .poisoned) (fun _ c => tidy_loseBlock page slab _ c)
    (fun _ c => loseBlock_keeps_poison page slab _ c) (fun _ => loseBlock_poisons page slab _ b) (List.mem_range.2 hlt) hs

theorem loseSlab_keeps_poison {other : Nat} (page slab : Nat) (tier : Tier) (frame : Nat) (hs : Tidy s)
    (h : (descAt s other).state = .poisoned) : (descAt (loseSlab page slab tier frame s) other).state = .poisoned :=
  (List.foldlRecOn _ _ (motive := fun t => Tidy t ∧ (descAt t other).state = .poisoned) ⟨hs, h⟩
    fun _ h b _ => ⟨tidy_loseBlock page slab _ b h.1, loseBlock_keeps_poison page slab _ b h.1 h.2⟩).2

/-! The slabs of a lost channel -/

/-- A slab that is on its way to FREE is not lost. -/
def loseHit (page : Nat) (tier : Tier) (s : State) (p : Nat × MapEntry) : State :=
  if p.2.releasing then s else loseSlab page p.1 tier p.2.frame s

/-- The slabs of `hit` are lost. -/
def loseHits (page : Nat) (tier : Tier) (hit : List (Nat × MapEntry)) (s : State) : State := hit.foldl (loseHit page tier) s

theorem tidy_loseHit (page : Nat) (tier : Tier) (p : Nat × MapEntry) (hs : Tidy s) : Tidy (loseHit page tier s p) := by
  unfold loseHit
  split
  · exact hs
  · exact tidy_loseSlab _ _ _ _ hs

theorem blocksLost_loseHits (page : Nat) (tier : Tier) (hit : List (Nat × MapEntry)) : BlocksLost s (loseHits page tier hit s) :=
  List.foldlRecOn _ _ (motive := fun t => BlocksLost s t) rfl fun _ h p _ => h.trans (by
    unfold loseHit
    split
    · rfl
    · exact blocksLost_loseSlab _ _ _ _)

theorem loseHits_moves (page : Nat) (tier : Tier) (hit : List (Nat × MapEntry)) (h : s.mge.moves = []) :
    (loseHits page tier hit s).mge.moves = [] :=
  List.foldlRecOn _ _ (motive := fun t : State => t.mge.moves = []) h fun _ h p _ => by
    unfold loseHit
    split
    · exact h
    · exact loseSlab_moves _ _ _ _ h

theorem loseHits_poisons (page : Nat) (tier : Tier) {hit : List (Nat × MapEntry)} {p : Nat × MapEntry} (hp : p ∈ hit)
    (stays : p.2.releasing = false) (hs : Tidy s) (hlt : b < 4096) :
    (descAt (loseHits page tier hit s) (homeKey tier p.2.frame b)).state = .poisoned := by
  refine foldl_brings (P := fun t => (descAt t (homeKey tier p.2.frame b)).state = .poisoned) (fun _ => tidy_loseHit page tier)
    (fun t q ht h => ?_) (fun t ht => ?_) hp hs
  · unfold loseHit
    split
    · exact h
    · exact loseSlab_keeps_poison _ _ _ _ ht h
  · rw [loseHit, stays]
    exact loseSlab_poisons _ _ _ _ ht hlt

/-! New homes for them (R24) -/

/-- Beside the move queue nothing differs, and each move in it has tier `tier` for its target. -/
def MovesTo (tier : Tier) (s t : State) : Prop :=
  t = setMoves t.mge.moves s ∧ ∀ m ∈ t.mge.moves, m.target = tier

theorem MovesTo.dram {tier : Tier} (h : MovesTo tier s t) : t.dram = s.dram := congrArg (·.dram) h.1

theorem MovesTo.descs {tier : Tier} (h : MovesTo tier s t) : t.descs = s.descs := congrArg (·.descs) h.1

theorem movesTo_askMove {tier : Tier} {slab cls : Nat} (toPool : Bool) (h : MovesTo tier s t) (urgent : cls < 4) :
    MovesTo tier s (askMove slab cls tier toPool false t).2 := by
  obtain ⟨same, targets⟩ := h
  cases found : moveOf t slab with
  | none =>
    rw [askMove_of_none found (queueFull_of_lt urgent)]
    refine ⟨?_, fun m hm => ?_⟩
    · rw [same]
      rfl
    · rcases List.mem_append.1 hm with old | new
      · exact targets m old
      · rw [List.mem_singleton.1 new]
        rfl
  | some m =>
    have joins : requestMove slab cls tier toPool false t = (.joined, t) := by
      simp [requestMove, found, targets m (List.mem_of_find?_eq_some found)]
    have asked : askMove slab cls tier toPool false t = (.joined, t) := by
      rw [askMove, joins]
    rw [asked]
    exact ⟨same, targets⟩

/-! The loss of one stack channel -/

section
variable (p : Nat) (code : Status) (sev : Sev) (cause ctx block detail : Nat) (dests : List Nat) (integrity : Bool)

theorem raise_dram : (raise p code sev cause ctx block detail dests integrity s).dram = s.dram := rfl

theorem raise_descs : (raise p code sev cause ctx block detail dests integrity s).descs = s.descs := rfl

theorem raise_mge : (raise p code sev cause ctx block detail dests integrity s).mge = s.mge := rfl

end

theorem ScalesOnly.descs (h : ScalesOnly s t) : t.descs = s.descs := congrArg (·.descs) h

theorem PlacementOnly.dram (h : PlacementOnly s t) : t.dram = s.dram := congrArg (·.dram) h

theorem PlacementOnly.descs (h : PlacementOnly s t) : t.descs = s.descs := congrArg (·.descs) h

/-- A channel out of service, which takes no request. -/
def outOfService (c : Chan) : Chan := { c with online := false, queue := [], wbuf := [] }

/-- The tier that loses channel `k`. -/
def lossTier (k : Nat) : Tier := if [k].any (fun k => decide (k < 256)) then .t1 else .t2

/-- The slabs whose home lies on channel `k` of a tier. -/
def slabsOn (tier : Tier) (k : Nat) (s : State) : List (Nat × MapEntry) :=
  (s.ple.map.filter (fun p => decide (p.2.tier = some tier) && [k].contains (frameChan s tier p.2.frame))).map (fun p => (p.1, p.2))

theorem mem_slabsOn {tier : Tier} {k : Nat} {p : Nat × MapEntry} (hp : p ∈ s.ple.map) (home : p.2.tier = some tier)
    (there : frameChan s tier p.2.frame = k) : p ∈ slabsOn tier k s :=
  List.mem_map.2 ⟨p, List.mem_filter.2 ⟨hp, by simp [home, there]⟩, rfl⟩

/-- Channel `k` is out of service, its slabs are lost, and the loss is reported. -/
def channelGone (page inst : Nat) (tier : Tier) (k : Nat) (s : State) : State :=
  raise page .poisoned .contained 6 noCtx 0 inst pfs true (loseHits page tier (slabsOn tier k s) (modChan k outOfService s))

/-- Moves into frames of channel `k` begin again. -/
def movesRedone (tier : Tier) (k : Nat) (s t : State) : State :=
  (t.mge.moves.filter (fun m => decide (m.target = tier) &&
    (m.frame.map (fun f => [k].contains (frameChan s tier f))).getD false)).foldl (fun s m =>
      (askMove m.slab m.cls m.target m.toPool m.onWrite (releaseHeld m.slab (abandonMove m.slab s))).2) t

/-- A lost slab asks for a new home in its tier. -/
def askHome (tier : Tier) (s : State) (p : Nat × MapEntry) : State :=
  if p.2.releasing then s else (askMove p.1 2 tier p.2.pool false s).2

theorem loseChannels_single (page inst k : Nat) : loseChannels page inst [k] s =
    settleScales (retireSlabs ((slabsOn (lossTier k) k s).foldl (askHome (lossTier k))
      (movesRedone (lossTier k) k s (channelGone page inst (lossTier k) k s)))) := rfl

theorem movesRedone_of_none (tier : Tier) (k : Nat) (h : t.mge.moves = []) : movesRedone tier k s t = t := by
  unfold movesRedone
  rw [h]
  rfl

theorem movesTo_askHomes (tier : Tier) (hit : List (Nat × MapEntry)) (h : s.mge.moves = []) :
    MovesTo tier s (hit.foldl (askHome tier) s) := by
  refine List.foldlRecOn hit _ (motive := fun t => MovesTo tier s t) ⟨rfl, by simp [h]⟩ fun t h p _ => ?_
  unfold askHome
  split
  · exact h
  · exact movesTo_askMove _ h (by decide)

theorem channelGone_moves (page inst : Nat) (tier : Tier) (k : Nat) (h : s.mge.moves = []) :
    (channelGone page inst tier k s).mge.moves = [] := by
  rw [channelGone, raise_mge]
  exact loseHits_moves _ _ _ h

/-- Neither the DRAM side nor a descriptor differs. -/
structure HomesKept (s t : State) : Prop where
  dram : t.dram = s.dram
  descs : t.descs = s.descs

/-- With no move under way, what comes after the loss is moves that are queued, slabs that are retired and guarantees that are
rescaled. -/
theorem homesKept_loseChannels (page inst : Nat) {k : Nat} (hk : k < 256) (moves : s.mge.moves = []) :
    HomesKept (channelGone page inst .t1 k s) (loseChannels page inst [k] s) := by
  have tier : lossTier k = .t1 := if_pos (by simp [hk])
  have idle := channelGone_moves page inst .t1 k moves
  have asked := movesTo_askHomes .t1 (slabsOn .t1 k s) idle
  rw [loseChannels_single, tier, movesRedone_of_none _ _ idle]
  exact ⟨scalesOnly_settleScales.dram.trans (placementOnly_retireSlabs.dram.trans asked.dram),
    scalesOnly_settleScales.descs.trans (placementOnly_retireSlabs.descs.trans asked.descs)⟩

theorem channelGone_chans (page inst : Nat) (tier : Tier) (k : Nat) :
    (channelGone page inst tier k s).dram.chans = (modChan k outOfService s).dram.chans := by
  rw [channelGone, raise_dram]
  exact congrArg (·.dram.chans) (blocksLost_loseHits page tier (slabsOn tier k s))

theorem channelGone_poisons (page inst : Nat) (tier : Tier) {k : Nat} {p : Nat × MapEntry} (hp : p ∈ slabsOn tier k s)
    (stays : p.2.releasing = false) (hs : Tidy s) (hlt : b < 4096) :
    (descAt (channelGone page inst tier k s) (homeKey tier p.2.frame b)).state = .poisoned := by
  rw [descAt, channelGone, raise_descs]
  exact loseHits_poisons page tier hp stays (tidy_modChan k outOfService hs) hlt

theorem exec_channelLost {k : Nat} (hw : awake s = true) (hk : k < 256) (online : (chanAt s k).online = true) :
    exec (.channelLost k) s = .next (loseChannels (Pg.sch + k) k [k] s) := by
  have there : ¬ (!(chanAt s k).online) = true := by simp [online]
  exact congrArg Host.Outcome.next ((whenAwake_of_awake hw _).trans ((if_neg (by omega)).trans ((if_neg there).trans (if_pos hk))))

end
end Sys2Proof.Machine

open Sys2Proof Sys2Proof.Machine

/-- Settles O41: the write comes to a refusal or to the admission of the masks with the new one, and the loss of a channel to that of
the slabs that lie on it, each block of which is poisoned and stays so. -/
theorem hashMasksAndLostChannels : Obligations.HashMasksAndLostChannels := by
  unfold Obligations.HashMasksAndLostChannels
  refine ⟨?mask, ?lost⟩
  case mask =>
    intro s w n m hs ho unlocked hn hm _
    have hd : Tidy (dropHalf w Pg.smc s) := tidy_dropHalf hs
    have tried := (maskTried_dropHalf w n hs).trans (maskTried_writeMask (w := w) (n := n) hd hm)
    refine ⟨_, exec_hashMaskWrite_owner (BitVec.ofNat 64 m) hs ho unlocked hn, tried.reg, tried.hdr, tried.frame,
      fun empty sound floors => ?_, fun empty unsound => ?_, fun nonempty => ?_⟩
    · rw [writeMask_of_admitted (s := dropHalf w Pg.smc s) hm empty sound floors]
      exact reg_setReg _ _ _ hd
    · rw [writeMask_of_unsound (s := dropHalf w Pg.smc s) hm empty unsound]
      exact refused_after_access _ _ _ _ hs
    · rw [writeMask_of_nonempty (s := dropHalf w Pg.smc s) hm nonempty]
      exact refused_after_access _ _ _ _ hs
  case lost =>
    intro s k hs hw hk online moves _
    obtain ⟨dram, descs⟩ := homesKept_loseChannels (Pg.sch + k) k hk moves
    have chans : ∀ j, chanAt (loseChannels (Pg.sch + k) k [k] s) j = chanAt (modChan k outOfService s) j :=
      chanAt_congr ((congrArg (·.chans) dram).trans (channelGone_chans _ _ _ k))
    have became := chanBecame_modChan k outOfService hs
    refine ⟨_, exec_channelLost hw hk online, ?_, ?_, fun j hj => (chans j).trans (became.others j hj), ?_⟩
    · rw [chans, became.chan]
      rfl
    · rw [chans, became.chan]
      rfl
    · intro p hp tier stays there b hb
      rw [descAt, descs]
      exact channelGone_poisons (Pg.sch + k) k .t1 (mem_slabsOn hp tier there) stays hs hb

end

section
/-! PROOFS. Where a corrected read-back is counted twice (O42): the sparing of a HARD word retires the frame of its row and so replaces
the move of a slab there (R209, R116). A write that this move held is then released, and its read of the block corrects the word again
(R191). -/

namespace Sys2Proof.Machine

/-! A word that its read-back corrects (R208, R209) -/

section
variable {s : State} {e : Toffee} {word frame : Nat} {sppr remap : Bool}

/-- The rewrite of the word was corrected by its read-back: its entry is HARD and has counted once more. -/
def hardened (word : Nat) (s : State) : State :=
  count Pg.tfl 0xE18 (count Pg.tfl 0xE08
    (setToffee word (fun e => { e with state := .hard, count := e.count + 1, time := s.now })
      (rewriteWord word (count Pg.tfl 0xE10 { s with tfl := { s.tfl with last := rowPlace s word 1 } }))))

theorem counting_of_rewriteDue (due : rewriteDue s e = true) : e.state = .counting :=
  of_decide_eq_true (Bool.and_eq_true_iff.1 due).1

theorem exec_toffeeRewrite_again (hw : awake s = true) (listed : s.tfl.entries.find? (fun x => decide (x.word = word)) = some e)
    (due : rewriteDue s e = true) :
    exec (.toffeeRewrite word true sppr remap) s = .next (spareAny word sppr remap (hardened word s)) := by
  have counting : e.state ≠ .hard := by simp [counting_of_rewriteDue due]
  change Host.Outcome.next (whenAwake s _) = _
  rw [whenAwake_of_awake hw, listed]
  dsimp only
  rw [if_neg counting, if_neg (by simp [due])]
  rfl

/-- Every entry in a word's row says that the row has been spared. -/
def markSpared (word : Nat) (s : State) : State :=
  { s with tfl := { s.tfl with entries := s.tfl.entries.map (fun e =>
    if e.word = word ∨ sameRow s word e.word then { e with spared := true } else e) } }

/-- Frames of a word's row that are not retired. -/
def rowInUse (s : State) (word : Nat) : List Nat :=
  (rowFrames s word).filter (fun f => !(retiredIn s (wordTier word)).contains f)

theorem logRow_tfl (k : RepairKind) (frame : Nat) : (logRow k word frame s).tfl = s.tfl := by
  unfold logRow logRepair
  split <;> rfl

theorem noteSparing_entries (action : Nat) : (noteSparing word action s).tfl.entries = s.tfl.entries := rfl

/-- With no soft repair and no spare row, the one frame in use of the word's row is retired. -/
theorem spareAny_entries_of_frame (dram : isSramWord word = false) (inUse : rowInUse s word = [frame]) :
    (spareAny word false false s).tfl.entries = (retireFrame (wordTier word) frame (markSpared word s)).tfl.entries := by
  have spared : spareAny word false false s = noteSparing word 4 ((rowInUse s word).foldl (fun s f =>
      logRow .frame word f (count Pg.tfl 0xE30 (retireFrame (wordTier word) f s))) (markSpared word s)) :=
    if_neg (by simp [dram])
  rw [spared, inUse, List.foldl_cons, List.foldl_nil, noteSparing_entries, logRow_tfl, count_tfl]

theorem sameRow_self (dram : isSramWord word = false) : sameRow s word word = true := by
  simp [sameRow, dram]

end

/-! A write held by the move of the word's slab -/

/-- Crumb 0 of block 0 of frame 0 of T1. -/
def wornWord : Nat := 64 * homeKey .t1 0 0

/-- The word has reached THRESH. -/
def wornEntry : Toffee := { word := wornWord, count := 3, time := 0, state := .counting, spared := false }

/-- A host write to the first 64 bytes of block 0 of slab 0. -/
def heldWrite : HeldStore := { src := .cxl 0 0, ctx := 1, block := 0, off := 0, data := List.replicate 64 0, since := 0 }

/-- Running, with one frame of T1, the home of slab 0, whose move to T2 holds a write to the block of the worn word. Table 1, which the
block names, is not in use, so that the merged write meets its corrected crumb and then a decode fault. -/
def wornUnderWrite : State :=
  { State.reset with
    boot := { Boot.reset with halted := false }
    dram := { Dram.reset with frames1 := 1 }
    ple := { Ple.reset with presented := 1, map := [(0, { MapEntry.free with state := .moving, tier := some .t1, owner := 1 })] }
    descs := [(homeKey .t1 0 0, { Desc.zero with state := .normal, crumbs := 64, table := 1 })]
    plants := [(homeKey .t1 0 0, { Plant.none with corr := [0] })]
    mge := { Mge.reset with moves := [{ newMove 0 5 .t2 false false with phase := .holding, frame := some 0 }], held := [heldWrite] }
    tfl := { Tfl.reset with entries := [wornEntry] } }

theorem tidy_wornUnderWrite : Tidy wornUnderWrite := by constructor <;> decide

theorem wordTier_wornWord : wordTier wornWord = .t1 := by decide

theorem rowFrames_wornWord {s : State} (single : s.dram.frames1 = 1) : rowFrames s wornWord = [0] := by
  have holds : ∀ f ∈ List.range 1, (List.range 262144).any (fun i => sameRow s wornWord (64 * homeKey .t1 f 0 + i)) = true := by
    intro f first
    obtain rfl : f = 0 := Nat.lt_one_iff.1 (List.mem_range.1 first)
    exact List.any_eq_true.2 ⟨0, List.mem_range.2 (by omega), sameRow_self rfl⟩
  unfold rowFrames
  rw [wordTier_wornWord]
  dsimp only
  rw [if_pos rfl, single]
  exact List.filter_eq_self.2 holds

theorem rowInUse_wornWord : rowInUse (hardened wornWord wornUnderWrite) wornWord = [0] := by
  rw [rowInUse, rowFrames_wornWord rfl]
  decide

/-- The entry has counted the read-back and the read of the released write. -/
theorem wornWord_counted_twice :
    ((retireFrame .t1 0 (markSpared wornWord (hardened wornWord wornUnderWrite))).tfl.entries.find?
      (fun x => decide (x.word = wornWord))).map (·.count) = some 5 := by
  decide +kernel

end Sys2Proof.Machine

open Sys2Proof Sys2Proof.Machine

/-- Refutes O42: the read-back of a rewrite corrects the word, whose count of 3 becomes 4; the retirement of its frame then releases a
held write to its block, which corrects the word once more, so that the rewrite ends with a count of 5. -/
theorem not_icingAndToffeeList : ¬ Obligations.IcingAndToffeeList := by
  unfold Obligations.IcingAndToffeeList
  rintro ⟨-, rewrite, -⟩
  have listed : wornUnderWrite.tfl.entries.find? (fun x => decide (x.word = wornWord)) = some wornEntry := by decide
  have due : rewriteDue wornUnderWrite wornEntry = true := by decide
  obtain ⟨-, u, x, run, entry, -, -, once⟩ :=
    rewrite wornUnderWrite wornWord wornEntry false false tidy_wornUnderWrite (by decide) (by decide) listed due
  have outcome : spareAny wornWord false false (hardened wornWord wornUnderWrite) = u :=
    Host.Outcome.next.inj ((exec_toffeeRewrite_again (by decide) listed due).symm.trans run)
  have entries : u.tfl.entries = (retireFrame .t1 0 (markSpared wornWord (hardened wornWord wornUnderWrite))).tfl.entries := by
    rw [← outcome, spareAny_entries_of_frame (by decide) rowInUse_wornWord, wordTier_wornWord]
  have twice := wornWord_counted_twice
  rw [← entries, entry, Option.map_some, once] at twice
  exact absurd twice (by decide)

end

section
/-! PROOFS. Check-value units (O43): what the steps of a data job leave of a unit and of its writer's rights, the read of bytes of a
slab that reads as zeros, and from these the outcomes of data jobs, of memory jobs and of CHECK. -/

namespace Sys2Proof.Machine

/-! The steps of a data job (R218, R220) -/

section
variable {s t : State} {w p n k : Nat} {v : Cvu}

theorem owns_congr (pages : t.pages = s.pages) (hiu : t.hiu = s.hiu) (sss : t.sss = s.sss) (boot : t.boot = s.boot)
    (h : Owns s w p) : Owns t w p := by
  unfold Owns reaches holdsPage awake portUp hport func pageHdr at h ⊢
  rwa [pages, hiu, sss, boot]

theorem owns_dropHalf (hs : Tidy s) (ho : Owns s w p) : Owns (dropHalf w p s) w p := by
  obtain ⟨reached, holds, steady⟩ := ho
  exact ⟨reached, (holdsPage_dropHalf _ _ hs).trans holds, by rw [pageHdr_dropHalf hs]; exact steady⟩

theorem cvuOpen_dropHalf (hs : Tidy s) : cvuOpen (dropHalf w (Pg.cvu + n) s) n = cvuOpen s n := by
  rw [cvuOpen, pageHdr_dropHalf hs]
  rfl

theorem cvuAt_dropHalf : cvuAt (dropHalf w p s) n = cvuAt s n := rfl

theorem cvuAt_setReg (off : Nat) (x : Word) : cvuAt (setReg p off x s) n = cvuAt s n := rfl

/-- The parameters of a unit stand in its expert registers, not in CVU_JOB_CTRL. -/
theorem cvuPar_of_regOnly (h : RegOnly (Pg.cvu + n) 0x48 s t) : cvuPar t n = cvuPar s n := by
  have kept {o : Nat} (ho : o ≠ 0x48) : reg t (Pg.cvu + n) o = reg s (Pg.cvu + n) o := h _ _ (by unfold regKey; omega)
  unfold cvuPar fld flag
  dsimp only
  rw [kept (o := 0x418) (by decide), kept (o := 0x400) (by decide), kept (o := 0x408) (by decide), kept (o := 0x410) (by decide)]

/-- From `s` to `t` a command of the claim holder `w` left unit `n` as `v`; the other units, the parameters of unit `n` and the
rights of `w` are as before. -/
structure CvuStep (w n : Nat) (v : Cvu) (s t : State) : Prop where
  tidy : Tidy t
  owns : Owns t w (Pg.cvu + n)
  unit : cvuAt t n = v
  others : ∀ m, m ≠ n → cvuAt t m = cvuAt s m
  par : cvuPar t n = cvuPar s n

theorem cvuStep_dropHalf (hs : Tidy s) (ho : Owns s w (Pg.cvu + n)) : CvuStep w n (cvuAt s n) s (dropHalf w (Pg.cvu + n) s) :=
  ⟨tidy_dropHalf hs, owns_dropHalf hs ho, rfl, fun _ _ => rfl, rfl⟩

theorem CvuStep.then_setReg (h : CvuStep w n v s t) (x : Word) : CvuStep w n v s (setReg (Pg.cvu + n) 0x48 x t) :=
  ⟨tidy_setReg _ _ h.tidy, owns_congr rfl rfl rfl rfl h.owns, h.unit, h.others,
    (cvuPar_of_regOnly (regOnly_setReg _ _ h.tidy)).trans h.par⟩

theorem CvuStep.then_setCvu (h : CvuStep w n v s t) (v' : Cvu) : CvuStep w n v' s (setCvu n v' t) :=
  ⟨(keeps_setCvu _ _ _ (.refl t)).tidy h.tidy, owns_congr rfl rfl rfl rfl h.owns, cvuAt_setCvu _ _ h.tidy,
    fun m hm => (cvuAt_setCvu_ne _ _ h.tidy hm).trans (h.others m hm), h.par⟩

theorem CvuStep.then_countBy (h : CvuStep w n v s t) (q off i : Nat) : CvuStep w n v s (countBy q off i t) :=
  ⟨(keeps_countBy _ _ _ _ (.refl t)).tidy h.tidy, owns_congr rfl rfl rfl rfl h.owns, h.unit, h.others, h.par⟩

end

/-! CVU_JOB_CTRL of a data job -/

/-- CVU_JOB_CTRL with SOURCE DATA, BYTES `k`, and `j` in bits 63:62: 2 is START, 1 is FINISH, 0 as the register keeps it. -/
def dataJobCtrl (j k : Nat) : Word := BitVec.ofNat 64 (j * 2 ^ 62 + 2 ^ 60 + k * 2 ^ 20)

section
variable {s : State} {w n j k : Nat}

theorem toNat_dataJobCtrl (hj : j < 4) (hk : k ≤ 8) : (dataJobCtrl j k).toNat = j * 2 ^ 62 + 2 ^ 60 + k * 2 ^ 20 := by
  rw [dataJobCtrl, BitVec.toNat_ofNat]
  omega

theorem dataJobCtrl_start (k : Nat) : dataJobCtrl 2 k = BitVec.ofNat 64 (2 ^ 63 + 2 ^ 60 + k * 2 ^ 20) := by
  rw [dataJobCtrl, show 2 * 2 ^ 62 = 2 ^ 63 from rfl]

theorem dataJobCtrl_finish (k : Nat) : dataJobCtrl 1 k = BitVec.ofNat 64 (2 ^ 62 + 2 ^ 60 + k * 2 ^ 20) := by
  rw [dataJobCtrl, Nat.one_mul]

theorem bits_dataJobCtrl (hj : j < 4) (hk : k ≤ 8) (hi lo : Nat) :
    bits (dataJobCtrl j k) hi lo = (j * 2 ^ 62 + 2 ^ 60 + k * 2 ^ 20) / 2 ^ lo % 2 ^ (hi + 1 - lo) := by
  rw [bits, toNat_dataJobCtrl hj hk, Nat.shiftRight_eq_div_pow]

theorem bitOf_dataJobCtrl (hj : j < 4) (hk : k ≤ 8) (i : Nat) :
    bitOf (dataJobCtrl j k) i = decide ((j * 2 ^ 62 + 2 ^ 60 + k * 2 ^ 20) / 2 ^ i % 2 = 1) := by
  rw [bitOf, toNat_dataJobCtrl hj hk, Nat.testBit_eq_decide_div_mod_eq]

theorem bytes_dataJobCtrl (hj : j < 4) (hk : k ≤ 8) : bits (dataJobCtrl j k) 23 20 = k := by
  rw [bits_dataJobCtrl hj hk]
  omega

theorem continue_dataJobCtrl (hj : j < 4) (hk : k ≤ 8) : bitOf (dataJobCtrl j k) 61 = false := by
  rw [bitOf_dataJobCtrl hj hk, decide_eq_false_iff_not]
  omega

theorem source_dataJobCtrl (hj : j < 4) (hk : k ≤ 8) : bitOf (dataJobCtrl j k) 60 = true := by
  rw [bitOf_dataJobCtrl hj hk, decide_eq_true_iff]
  omega

theorem start_dataJobCtrl (hk : k ≤ 8) : bitOf (dataJobCtrl 2 k) 63 = true := by
  rw [bitOf_dataJobCtrl (by omega) hk, decide_eq_true_iff]
  omega

theorem finish_dataJobCtrl (hk : k ≤ 8) : bitOf (dataJobCtrl 1 k) 62 = true := by
  rw [bitOf_dataJobCtrl (by omega) hk, decide_eq_true_iff]
  omega

/-- A number of bytes from 1 to 8 is accepted; START and FINISH are not kept. -/
theorem storeJobCtrl_dataJobCtrl (hj : j < 4) (h1 : 1 ≤ k) (h8 : k ≤ 8) :
    storeJobCtrl w n (dataJobCtrl j k) s = setReg (Pg.cvu + n) 0x48 (dataJobCtrl 0 k) s := by
  have accepted : (decide (k = 0) || decide (8 < k)) = false := by simp only [Bool.or_eq_false_iff, decide_eq_false_iff_not]; omega
  have again : bits (dataJobCtrl j k) 61 61 = 0 := by rw [bits_dataJobCtrl hj h8]; omega
  have source : bits (dataJobCtrl j k) 60 60 = 1 := by rw [bits_dataJobCtrl hj h8]; omega
  have ctx : bits (dataJobCtrl j k) 19 0 = 0 := by rw [bits_dataJobCtrl hj h8]; omega
  have kept : place 0 61 1 + place 1 60 1 + place k 20 4 + place 0 0 20 = 0 * 2 ^ 62 + 2 ^ 60 + k * 2 ^ 20 := by
    simp only [place, Nat.shiftLeft_eq]
    omega
  unfold storeJobCtrl
  simp only [bytes_dataJobCtrl hj h8, accepted, again, source, ctx, kept, Bool.false_eq_true, if_false]
  rfl

end

/-! The commands of a data job -/

/-- A unit that begins a data job. -/
def startedUnit (par : CvuPar) (v : Cvu) : Cvu :=
  { v with state := .running, reg := par.init, memory := false, left := 0, off := 0, changed := false }

/-- A data job with BYTES `k` runs on unit `n`. -/
def dataJobStarted (n k : Nat) (s : State) : State :=
  setCvu n (startedUnit (cvuPar s n) (cvuAt s n)) (setReg (Pg.cvu + n) 0x48 (dataJobCtrl 0 k) s)

/-- A unit with `k` bytes of a word fed. -/
def fedUnit (par : CvuPar) (k : Nat) (d : Word) (v : Cvu) : Cvu :=
  { v with reg := cvuFeed par v.reg (leBytes k d.toNat), off := v.off + k }

def dataFed (n k : Nat) (d : Word) (s : State) : State :=
  countBy (Pg.cvu + n) 0xE10 k (setCvu n (fedUnit (cvuPar s n) k d (cvuAt s n)) s)

/-- A unit whose data job has ended with its check value. -/
def finishedUnit (par : CvuPar) (v : Cvu) : Cvu := { v with state := .done, result := cvuFinal par v.reg }

def dataJobFinished (n k : Nat) (s : State) : State :=
  count (Pg.cvu + n) 0xE08 (setCvu n (finishedUnit (cvuPar s n) (cvuAt s n)) (setReg (Pg.cvu + n) 0x48 (dataJobCtrl 0 k) s))

section
variable {s : State} {w p n k : Nat}

theorem startJob_data (again : flag s (Pg.cvu + n) 0x48 61 = false) (source : flag s (Pg.cvu + n) 0x48 60 = true) :
    startJob w n s = setCvu n (startedUnit (cvuPar s n) (cvuAt s n)) s := by
  simp [startJob, startedUnit, again, source]

theorem exec_cvuJobStart_data (hs : Tidy s) (hn : n < 4) (ho : Owns s w (Pg.cvu + n)) (idle : (cvuAt s n).state ≠ .running)
    (takes : cvuOpen s n = true) (h1 : 1 ≤ k) (h8 : k ≤ 8) :
    exec (.cvuJobStart w n (dataJobCtrl 2 k)) s = .next (dataJobStarted n k (dropHalf w (Pg.cvu + n) s)) := by
  have hd : Tidy (dropHalf w (Pg.cvu + n) s) := tidy_dropHalf hs
  have ctrl : reg (setReg (Pg.cvu + n) 0x48 (dataJobCtrl 0 k) (dropHalf w (Pg.cvu + n) s)) (Pg.cvu + n) 0x48 = dataJobCtrl 0 k :=
    reg_setReg _ _ _ hd
  have starts : (bitOf (dataJobCtrl 2 k) 63 && cvuOpen (dropHalf w (Pg.cvu + n) s) n &&
      decide ((cvuAt (dropHalf w (Pg.cvu + n) s) n).state ≠ .running)) = true := by
    rw [start_dataJobCtrl h8, cvuOpen_dropHalf hs, takes]
    exact decide_eq_true idle
  change Host.Outcome.next (if 4 ≤ n then s else ownedWrite w (Pg.cvu + n) _ s) = _
  rw [if_neg (by omega), ownedWrite_of_owns _ hs ho]
  dsimp only
  rw [if_pos starts, storeJobCtrl_dataJobCtrl (by omega) h1 h8,
    startJob_data (by rw [flag, ctrl, continue_dataJobCtrl (by omega) h8]) (by rw [flag, ctrl, source_dataJobCtrl (by omega) h8]),
    cvuPar_of_regOnly (regOnly_setReg _ _ hd), cvuAt_setReg]
  rfl

theorem exec_cvuDataWrite_fed (d : Word) (hs : Tidy s) (hn : n < 4) (ho : Owns s w (Pg.cvu + n))
    (runs : (cvuAt s n).state = .running) (data : (cvuAt s n).memory = false) :
    exec (.cvuDataWrite w n d) s = .next (dataFed n (fld s (Pg.cvu + n) 0x48 23 20) d (dropHalf w (Pg.cvu + n) s)) := by
  change Host.Outcome.next (if 4 ≤ n then s else ownedWrite w (Pg.cvu + n) _ s) = _
  rw [if_neg (by omega), ownedWrite_of_owns _ hs ho]
  exact congrArg _ (if_pos ⟨runs, by rw [cvuAt_dropHalf, data]; rfl⟩)

theorem exec_cvuJobFinish_data (hs : Tidy s) (hn : n < 4) (ho : Owns s w (Pg.cvu + n)) (runs : (cvuAt s n).state = .running)
    (data : (cvuAt s n).memory = false) (h1 : 1 ≤ k) (h8 : k ≤ 8) :
    exec (.cvuJobFinish w n (dataJobCtrl 1 k)) s = .next (dataJobFinished n k (dropHalf w (Pg.cvu + n) s)) := by
  change Host.Outcome.next (if 4 ≤ n then s else ownedWrite w (Pg.cvu + n) _ s) = _
  rw [if_neg (by omega), ownedWrite_of_owns _ hs ho]
  dsimp only
  rw [storeJobCtrl_dataJobCtrl (by omega) h1 h8]
  exact congrArg _ (if_pos ⟨finish_dataJobCtrl h8, runs, by rw [cvuAt_dropHalf, data]; rfl⟩)

theorem cvuStep_started (k : Nat) (hs : Tidy s) (ho : Owns s w (Pg.cvu + n)) :
    CvuStep w n (startedUnit (cvuPar s n) (cvuAt s n)) s (dataJobStarted n k (dropHalf w (Pg.cvu + n) s)) :=
  ((cvuStep_dropHalf hs ho).then_setReg _).then_setCvu _

theorem dataJobStarted_frame (k : Nat) : dataJobStarted n k (dropHalf w p s) =
    { s with regs := (dataJobStarted n k (dropHalf w p s)).regs
             pages := (dataJobStarted n k (dropHalf w p s)).pages
             cvus := (dataJobStarted n k (dropHalf w p s)).cvus } := by
  unfold dataJobStarted setCvu setReg
  rfl

theorem dataFed_frame (k : Nat) (d : Word) : dataFed n k d (dropHalf w p s) =
    { s with pages := (dataFed n k d (dropHalf w p s)).pages
             cvus := (dataFed n k d (dropHalf w p s)).cvus
             cnts := (dataFed n k d (dropHalf w p s)).cnts } := rfl

theorem dataJobFinished_frame (k : Nat) : dataJobFinished n k (dropHalf w p s) =
    { s with regs := (dataJobFinished n k (dropHalf w p s)).regs
             pages := (dataJobFinished n k (dropHalf w p s)).pages
             cvus := (dataJobFinished n k (dropHalf w p s)).cvus
             cnts := (dataJobFinished n k (dropHalf w p s)).cnts } := by
  unfold dataJobFinished setCvu setReg
  rfl

theorem fld_dataJobStarted (hs : Tidy s) (h8 : k ≤ 8) :
    fld (dataJobStarted n k (dropHalf w (Pg.cvu + n) s)) (Pg.cvu + n) 0x48 23 20 = k :=
  (congrArg (bits · 23 20) (reg_setReg _ _ _ (tidy_dropHalf hs))).trans (bytes_dataJobCtrl (by omega) h8)

theorem cvuStep_fed (k : Nat) (d : Word) (hs : Tidy s) (ho : Owns s w (Pg.cvu + n)) :
    CvuStep w n (fedUnit (cvuPar s n) k d (cvuAt s n)) s (dataFed n k d (dropHalf w (Pg.cvu + n) s)) :=
  ((cvuStep_dropHalf hs ho).then_setCvu _).then_countBy _ _ _

theorem cvuStep_finished (k : Nat) (hs : Tidy s) (ho : Owns s w (Pg.cvu + n)) :
    CvuStep w n (finishedUnit (cvuPar s n) (cvuAt s n)) s (dataJobFinished n k (dropHalf w (Pg.cvu + n) s)) :=
  (((cvuStep_dropHalf hs ho).then_setReg _).then_setCvu _).then_countBy _ _ _

end

/-! Reading bytes of a slab that reads as zeros (R218, R219) -/

section
variable {s : State}

/-- A job whose whole range has been read is done. -/
theorem scanBlocks_end (ask : Ask) (apt : Option Nat) (p : CvuPar) (per : Bool) (n a : Nat) (x : Scan) (s : State) :
    scanBlocks ask apt p per n a 0 x s = (.done x, s) := by
  cases n <;> rfl

/-- A range of presented bytes within one block of a slab that reads as zeros. -/
structure ZeroRange (s : State) (ask : Ask) (a len : Nat) : Prop where
  sound : Sound s
  pass : accessCheck s ask (a / 2 ^ 24) = none
  zeros : readsZero (mapAt s (a / 2 ^ 24)) = true
  nonempty : 1 ≤ len
  fits : a % 4096 + len ≤ 4096

theorem bytes_of_zeroBlock {a len : Nat} (fits : a % 4096 + len ≤ 4096) :
    ((List.replicate 4096 (0 : Byte)).drop (a % 4096)).take len = List.replicate len 0 := by
  rw [List.drop_replicate, List.take_replicate, Nat.min_eq_left (by omega)]

/-- The read of such a range feeds as many zeros, and notes the slab in the touch map. -/
theorem scanBlocks_zeros {ask : Ask} {a len : Nat} (h : ZeroRange s ask a len) (p : CvuPar) (x : Scan) :
    scanBlocks ask none p false (scanFuel len) a len x s =
      (.done { x with reg := cvuFeed p x.reg (List.replicate len 0), done := x.done + len }, touchMap (a / 2 ^ 24) s) := by
  obtain ⟨sound, pass, zeros, nonempty, fits⟩ := h
  have whole : min len (4096 - a % 4096) = len := Nat.min_eq_left (by omega)
  have blank : readsZero (mapAt (touchMap (a / 2 ^ 24) s) (a / 2 ^ 24)) = true := zeros
  have started : len ≠ 0 := by omega
  rw [show scanFuel len = len / 4096 + 1 + 1 from rfl, scanBlocks, if_neg started]
  simp only [addrSlab, checkAccess_of_pass sound pass, blank, if_true, whole, bytes_of_zeroBlock fits, Nat.sub_self, scanBlocks_end,
    Bool.false_eq_true, if_false, Bool.or_false]

theorem settleCvuScan_frame : settleCvuScan s = { s with checks := (settleCvuScan s).checks, tmx := (settleCvuScan s).tmx } := by
  unfold settleCvuScan
  dsimp only
  split <;> rfl

/-- A unit that is not as at reset is listed, in whatever order the units stand. -/
theorem cvuAt_setCvu_listed (n : Nat) {v : Cvu} (h : v ≠ Cvu.reset) : cvuAt (setCvu n v s) n = v := by
  simp [cvuAt, setCvu, tput, h, tget]

end

/-! Memory jobs -/

/-- A unit whose memory job has read `k` bytes and leaves register `reg`. -/
def readUnit (par : CvuPar) (reg k : Nat) (v : Cvu) : Cvu :=
  { v with state := .done, reg := reg, off := k, left := 0, result := cvuFinal par reg }

/-- A memory job of unit `n` that leaves register `reg` has read its `k` bytes. -/
def memoryJobDone (n reg k : Nat) (s : State) : State :=
  count (Pg.cvu + n) 0xE08 (countBy (Pg.cvu + n) 0xE10 k (setCvu n (readUnit (cvuPar s n) reg k (cvuAt s n)) s))

section
variable {s : State} {n : Nat}

theorem exec_cvuJobDone_zeros (hw : Awake s) (runs : (cvuAt s n).state = .running) (memory : (cvuAt s n).memory = true)
    (range : ZeroRange s (ringAsk (ctxFn s (cvuAt s n).ctx) (cvuAt s n).ctx false false) (cvuAt s n).next (cvuAt s n).left) :
    exec (.cvuJobDone n) s = .next (settleCvuScan (memoryJobDone n
      (cvuFeed (cvuPar s n) (cvuAt s n).reg (List.replicate (cvuAt s n).left 0)) (cvuAt s n).left
      (touchMap ((cvuAt s n).next / 2 ^ 24) s))) := by
  have going : ¬ ((cvuAt s n).state ≠ .running ∨ (!(cvuAt s n).memory) = true) := by simp [runs, memory]
  change Host.Outcome.next (whenAwake s _) = _
  rw [whenAwake_of_awake hw]
  dsimp only
  rw [if_neg going, scanBlocks_zeros range]
  dsimp only
  rw [Nat.zero_add]
  rfl

theorem cvuAt_settled_memoryJobDone (reg k : Nat) : cvuAt (settleCvuScan (memoryJobDone n reg k s)) n =
    readUnit (cvuPar s n) reg k (cvuAt s n) := by
  rw [settleCvuScan_frame]
  have listed : readUnit (cvuPar s n) reg k (cvuAt s n) ≠ Cvu.reset := fun h => nomatch congrArg Cvu.state h
  exact cvuAt_setCvu_listed n listed

end

/-! CHECK (R221 to R223) -/

/-- What a CHECK that wants one result leaves before its completion: it has read `len` bytes on unit `n`. -/
def checkDone (r : RingCmd) (result n value len : Nat) (s : State) : State :=
  writeResults r.fn result [value] (count (Pg.cvu + n) 0xE08 (countBy (Pg.cvu + n) 0xE10 len s))

section
variable {r : RingCmd} {ctx preset flags width addr result length n : Nat} {poly init : Word} {p : CvuPar} {s v x y : State}

theorem one_le_of_checkOperands {mode : Nat} (h : checkOperands mode flags addr result length = true) : 1 ≤ length := by
  simp only [checkOperands, Bool.and_eq_true, decide_eq_true_eq] at h
  obtain ⟨⟨⟨⟨-, one⟩, -⟩, -⟩, -⟩ := h
  exact one

theorem checkGate_of_pass {mode : Nat} (hc : OwnCtx r ctx v) (par : checkPar preset flags width poly init = some p)
    (operands : checkOperands mode flags addr result length = true)
    (enabled : (List.range 4).all (fun n => !(pageHdr v (Pg.cvu + n)).enable) = false) :
    checkGate r ctx preset mode flags width addr result length poly init v = (.ok p, v) := by
  simp only [checkGate, par, operands, gateCtx_of_ownCtx hc, enabled, Bool.not_true, Bool.false_eq_true, if_false]

theorem acceptCheck_frame (h : acceptCheck r v = .ok x) : x = { v with checks := x.checks, cnts := x.cnts, tmx := x.tmx } := by
  unfold acceptCheck at h
  split at h
  · cases h; rfl
  · split at h
    · cases h
    · split at h
      · cases h
      · next held =>
        cases h
        rw [holdScan_frame held]

theorem sameView_acceptCheck {slab : Nat} (h : acceptCheck r v = .ok x) : SameView slab v x := by
  rw [acceptCheck_frame h]
  exact ⟨rfl, rfl, rfl, rfl, rfl, rfl, rfl, _, rfl⟩

/-- What the read of a range meets is the same before and after the scan engine accepts the job. -/
theorem ZeroRange.of_acceptCheck {ask : Ask} {a len : Nat} (h : ZeroRange v ask a len) (accepted : acceptCheck r v = .ok x) :
    ZeroRange x ask a len where
  sound := by rw [Sound, (sameView_acceptCheck (slab := 0) accepted).sram]; exact h.sound
  pass := ((sameView_acceptCheck accepted).accessCheck ask).trans h.pass
  zeros := by rw [mapAt_congr (congrArg State.ple (acceptCheck_frame accepted))]; exact h.zeros
  nonempty := h.nonempty
  fits := h.fits

theorem runCheck_zeros (presented : flags.testBit 0 = false) (range : ZeroRange x (ringAsk r.fn ctx false false) addr length) :
    runCheck r ctx 0 flags addr result length n p x = settleCvuScan (complete r Opc.check .ok 0
      (checkDone r result n (cvuFinal p (cvuFeed p p.init (List.replicate length 0))) length (touchMap (addr / 2 ^ 24) x))) := by
  have single : decide (0 = 1) = false := rfl
  simp only [runCheck, presented, single, Bool.false_eq_true, if_false, scanBlocks_zeros range, Nat.zero_add]
  rfl

variable (hb : Begins r Opc.check s v) (gate : checkGate r ctx preset 0 flags width addr result length poly init v = (.ok p, v))
include hb gate

theorem exec_check_denied (denied : acceptCheck r v = .error y) :
    exec (.check r ctx preset 0 flags width addr result length poly init) s = .next (complete r Opc.check .claimDenied 0 y) := by
  change Host.Outcome.next (ringRun r Opc.check _ s) = _
  rw [ringRun_of_begins hb]
  simp only [gate, denied]

theorem exec_check_accepted (accepted : acceptCheck r v = .ok x) (unit : checkUnit x r = some n) :
    exec (.check r ctx preset 0 flags width addr result length poly init) s =
      .next (runCheck r ctx 0 flags addr result length n p x) := by
  change Host.Outcome.next (ringRun r Opc.check _ s) = _
  rw [ringRun_of_begins hb]
  simp only [gate, accepted, unit]

end

theorem checkDone_sent (r : RingCmd) (result n value len : Nat) (s : State) :
    (checkDone r result n value len s).sent = s.sent ++ [.hostWrite r.fn result (leBytes 8 value)] := by
  simp [checkDone, writeResults, emit, count, countBy]

end Sys2Proof.Machine

open Sys2Proof Sys2Proof.Machine

/-- Settles O43: the three commands of a data job are each one change of the unit, which start from the writer's rights that the one
before left; a range of zeros is one block, whose read feeds as many zeros to the register. -/
theorem cvuJobs : Obligations.CvuJobs := by
  unfold Obligations.CvuJobs
  refine ⟨?data, ?memory, ?check⟩
  case data =>
    intro s w n k d hs hn ho idle takes h1 h8
    have started := cvuStep_started k hs ho
    have runs : (cvuAt (dataJobStarted n k (dropHalf w (Pg.cvu + n) s)) n).state = .running := by rw [started.unit]; rfl
    have data : (cvuAt (dataJobStarted n k (dropHalf w (Pg.cvu + n) s)) n).memory = false := by rw [started.unit]; rfl
    have fed := cvuStep_fed k d started.tidy started.owns
    have finished := cvuStep_finished k fed.tidy fed.owns
    have write := exec_cvuDataWrite_fed d started.tidy hn started.owns runs data
    rw [fld_dataJobStarted hs h8] at write
    rw [← dataJobCtrl_start, ← dataJobCtrl_finish]
    refine ⟨_, _, _, exec_cvuJobStart_data hs hn ho idle takes h1 h8, started.unit, dataJobStarted_frame k, write, ?fed,
      dataFed_frame k d,
      exec_cvuJobFinish_data fed.tidy hn fed.owns ?runs ?data h1 h8, ?done, ?value, ?others,
      dataJobFinished_frame k⟩
    case fed =>
      rw [fed.unit, fedUnit, started.par, started.unit, startedUnit, Nat.zero_add]
    case runs => rw [fed.unit]; exact runs
    case data => rw [fed.unit]; exact data
    case done => rw [finished.unit]; rfl
    case value =>
      rw [finished.unit, finishedUnit, fed.par, fed.unit, fedUnit, started.par, started.unit, startedUnit]
    case others =>
      intro m hm
      rw [finished.others m hm, fed.others m hm, started.others m hm]
  case memory =>
    intro s n sound hw runs memory one fits _ pass zeros
    have unit := cvuAt_settled_memoryJobDone (n := n) (s := touchMap ((cvuAt s n).next / 2 ^ 24) s)
      (cvuFeed (cvuPar s n) (cvuAt s n).reg (List.replicate (cvuAt s n).left 0)) (cvuAt s n).left
    refine ⟨_, exec_cvuJobDone_zeros hw runs memory ⟨sound, pass, zeros, one, fits⟩, ?_, ?_, ?_, ?_, ?_⟩
    · rw [unit]; rfl
    · rw [unit]; rfl
    · rw [unit]; rfl
    · rw [settleCvuScan_frame]; rfl
    · rw [settleCvuScan_frame]; rfl
  case check =>
    intro r ctx preset flags width addr result length poly init p s v hb hc par presented operands fits enabled
    have gate := checkGate_of_pass hc par operands enabled
    refine ⟨fun y denied => exec_check_denied hb gate denied, fun x n accepted unit pass zeros => ?_⟩
    have range : ZeroRange v (ringAsk r.fn ctx false false) addr length :=
      ⟨hc.1, pass, zeros, one_le_of_checkOperands operands, fits⟩
    have run := exec_check_accepted hb gate accepted unit
    rw [runCheck_zeros presented (range.of_acceptCheck accepted)] at run
    refine ⟨_, run, ?_, ?_, ?_⟩
    · rw [checkDone_sent, acceptCheck_frame accepted]; rfl
    · rw [acceptCheck_frame accepted]; rfl
    · rw [acceptCheck_frame accepted]; rfl

end

section
/-! PROOFS. RESERVE (O18): slabs that are entered in the placement map, the lowest run of FREE slabs, what the scales leave of the
reservations, and from these the outcomes of RESERVE. -/

namespace Sys2Proof.Machine

/-! Entries for a list of slabs -/

/-- Each slab of the list has the entry that `f` gives it. -/
def enterSlabs (f : Nat → MapEntry) (l : List Nat) (s : State) : State := l.foldl (fun t k => setMap k (f k) t) s

section
variable {s t : State} {f : Nat → MapEntry} {l : List Nat}

theorem nameSlabs_eq_enterSlabs (c first n tmask : Nat) : nameSlabs c first n tmask s =
    enterSlabs (fun _ => { MapEntry.free with state := .zeroed, owner := c, tmask := tmask }) (slabList first n) s := rfl

theorem mem_slabList {first n k : Nat} : k ∈ slabList first n ↔ first ≤ k ∧ k < first + n := by
  simp only [slabList, List.mem_map, List.mem_range]
  exact ⟨fun ⟨i, _, _⟩ => by omega, fun _ => ⟨k - first, by omega, by omega⟩⟩

theorem tidy_setMap (k : Nat) (e : MapEntry) (hs : Tidy s) : Tidy (setMap k e s) := (keeps_setMap k e s (.refl s)).tidy hs

theorem enterSlabs_frame : enterSlabs f l s = { s with ple := { s.ple with map := (enterSlabs f l s).ple.map } } :=
  List.foldlRecOn l _ (motive := fun t : State => t = { s with ple := { s.ple with map := t.ple.map } }) rfl
    fun t h k _ => by rw [h]; rfl

theorem mapAt_enterSlabs (hs : Tidy s) (j : Nat) : mapAt (enterSlabs f l s) j = if j ∈ l then f j else mapAt s j := by
  induction l generalizing s with
  | nil => rfl
  | cons k l ih =>
    refine (ih (tidy_setMap k (f k) hs)).trans ?_
    by_cases listed : j ∈ l
    · simp [listed]
    · by_cases same : j = k
      · simp [same, mapAt_setMap _ _ hs]
      · simp [listed, same, mapAt_setMap_ne _ _ hs same]

end

/-! Runs of FREE slabs (R229) -/

/-- The lowest run between the keys of a table names none of them. -/
theorem freeRun_unlisted {α : Type} {n limit lo first : Nat} {t : Tbl α} (h : trising lo t = true) (below : ∀ e ∈ t, e.1 < limit)
    (found : freeRun n limit lo (t.map (·.1)) = some first) :
    lo ≤ first ∧ ∀ k, first ≤ k → k < first + n → k < limit ∧ tfind t k = none := by
  induction t generalizing lo with
  | nil =>
    simp only [List.map_nil, freeRun, Option.ite_none_right_eq_some, Option.some.injEq] at found
    obtain ⟨room, rfl⟩ := found
    exact ⟨Nat.le_refl _, fun k _ _ => ⟨by omega, rfl⟩⟩
  | cons e t ih =>
    obtain ⟨j, v⟩ := e
    have here : j < limit := below (j, v) (List.mem_cons_self ..)
    simp only [trising, Bool.and_eq_true, decide_eq_true_eq] at h
    simp only [List.map_cons, freeRun] at found
    split at found
    · next room =>
      cases found
      exact ⟨Nat.le_refl _, fun k _ _ => ⟨by omega, by simp [tfind, show k ≠ j by omega, show k < j by omega]⟩⟩
    · obtain ⟨after, rest⟩ := ih h.2 (fun e he => below e (List.mem_cons_of_mem _ he)) found
      refine ⟨by omega, fun k low high => ?_⟩
      obtain ⟨bound, unlisted⟩ := rest k low high
      exact ⟨bound, by simp [tfind, show k ≠ j by omega, show ¬ k < j by omega, unlisted]⟩

section
variable {s : State} {n first : Nat}

/-- The run that a RESERVE names is FREE (R229). -/
theorem free_of_freeRun (hs : Tidy s) (found : freeRun n s.ple.presented 0 (takenSlabs s) = some first) {k : Nat}
    (hk : k ∈ slabList first n) : k < s.ple.presented ∧ (mapAt s k).state = .free := by
  have bounded : ∀ e ∈ s.ple.map.filter (fun e => decide (e.1 < s.ple.presented) && decide (e.2.state ≠ .free)),
      e.1 < s.ple.presented := fun e he => by
    have taken := (List.mem_filter.1 he).2
    simp only [Bool.and_eq_true, decide_eq_true_eq] at taken
    exact taken.1
  obtain ⟨low, high⟩ := mem_slabList.1 hk
  obtain ⟨below, untaken⟩ := (freeRun_unlisted (trising_filter _ hs.map) bounded found).2 k low high
  refine ⟨below, ?_⟩
  unfold mapAt
  cases listed : tfind s.ple.map k with
  | none => simp [mapDefault, below, MapEntry.free]
  | some e =>
    refine Decidable.byContradiction fun held => ?_
    have taken : tfind (s.ple.map.filter (fun e => decide (e.1 < s.ple.presented) && decide (e.2.state ≠ .free))) k = some e :=
      (tfind_iff (trising_filter _ hs.map)).2 (List.mem_filter.2 ⟨(tfind_iff hs.map).1 listed, by simpa [below] using held⟩)
    rw [taken] at untaken
    cases untaken

/-- Where no condition of capacity fails, a run of FREE slabs was found. -/
theorem freeRun_of_capacityFail {ctx tmask : Nat} {f : Tier → Nat} (h : capacityFail s ctx n tmask f = none) (hn : 0 < n) :
    ∃ first, freeRun n s.ple.presented 0 (takenSlabs s) = some first := by
  unfold capacityFail at h
  dsimp only at h
  split at h
  · cases h
  · split at h
    · cases h
    · split at h
      · cases h
      · split at h
        · cases h
        · split at h
          · cases h
          · next missing => simpa [hn, Option.isNone_iff_eq_none, Option.ne_none_iff_exists'] using missing

end

/-! What the scales leave of the ledger (R239) -/

section
variable {s : State}

theorem ScalesOnly.hiu {t : State} (h : ScalesOnly s t) : t.hiu = s.hiu := congrArg (·.hiu) h

theorem dropTransfers_rlg (q : Recipe) : (dropTransfers q s).rlg = s.rlg :=
  List.foldlRecOn _ _ (motive := fun t : State => t.rlg = s.rlg) rfl fun _ h _ _ => h

theorem PortsOnly.rlg {t : State} (h : PortsOnly s t) : t.rlg = s.rlg := congrArg (·.rlg) h

theorem sendTokens_rlg (type outcome : Nat) (except : Option Nat) : (sendTokens type outcome except s).rlg = s.rlg := by
  unfold sendTokens
  split
  · rfl
  · exact List.foldlRecOn _ _ (motive := fun t : State => t.rlg = s.rlg) rfl fun _ h p _ => (portsOnly_sendPkt p _ _).rlg.trans h

theorem endStall_rlg : (endStall s).rlg = s.rlg := by
  unfold endStall
  split
  · split <;> rfl
  · rfl

theorem endRun_rlg (outcome : Status) : (endRun outcome s).rlg = s.rlg := by
  unfold endRun
  split
  · rfl
  · split
    · rfl
    · extract_lets s1 s2
      have stalled : s1.rlg = s.rlg := endStall_rlg
      have told : s2.rlg = s1.rlg := by
        simp only [s2]
        split
        · rfl
        · rw [sendTokens_rlg]
          split
          · exact dropTransfers_rlg _
          · rfl
      exact told.trans stalled

theorem stepFaultAt_rlg (cause : Nat) : (stepFaultAt cause s).rlg = s.rlg := by
  unfold stepFaultAt stepFault
  split
  · rfl
  · split
    · rfl
    · exact endRun_rlg _

theorem refuseStreams_rlg (c : Nat) : (refuseStreams c s).rlg = s.rlg := by
  unfold refuseStreams
  dsimp only
  split
  · split
    · exact stepFaultAt_rlg _
    · rfl
  · rfl

theorem updateScales_resv : (updateScales s).rlg.resv = s.rlg.resv := by
  unfold updateScales
  refine List.foldlRecOn ctrlIndices _ (motive := fun t : State => t.rlg.resv = s.rlg.resv) rfl fun t h c _ => ?_
  refine Eq.trans ?_ h
  dsimp only
  (repeat' split) <;> rfl

theorem settleScales_resv : (settleScales s).rlg.resv = s.rlg.resv := by
  unfold settleScales
  refine List.foldlRecOn ctrlIndices _ (motive := fun t : State => t.rlg.resv = s.rlg.resv) updateScales_resv fun t h c _ => ?_
  split
  · rw [refuseStreams_rlg, h]
  · exact h

end

/-! Reservations -/

section
variable {s t : State} {c : Nat}

theorem resvOf_congr (h : t.rlg.resv = s.rlg.resv) (c : Nat) : resvOf t c = resvOf s c := by rw [resvOf, h, resvOf]

theorem resvOf_setResv (v : Resv) (hs : Tidy s) : resvOf (setResv c v s) c = v := tget_tput_same _ _ (twf_trising hs.resv)

theorem resvOf_setResv_ne (v : Resv) {d : Nat} (hs : Tidy s) (hd : d ≠ c) : resvOf (setResv c v s) d = resvOf s d :=
  tget_tput_ne _ (twf_trising hs.resv) hd

end

/-! The outcomes of RESERVE -/

/-- An admitted RESERVE of a run from `first` on. -/
def reserved (ctx first slabs tmask : Nat) (f b : Tier → Nat) (s : State) : State :=
  settleScales (admitted (nameSlabs ctx first slabs tmask (addResv ctx f b s)))

section
variable {r : RingCmd} {ctx slabs tmask f1 f2 f3 b1 b2 b3 : Nat} {s v : State}

theorem exec_reserve_of_named (hb : Begins r Opc.reserve s v) (live : fnLive v r.fn = true) (named : pfNames v r ctx = true)
    (most : slabs ≤ 16777216) : exec (.reserve r ctx slabs tmask f1 f2 f3 b1 b2 b3) s =
      .next (finish r Opc.reserve (reserveBody ctx slabs tmask (byTier f1 f2 f3) (byTier b1 b2 b3) v)) := by
  change Host.Outcome.next (ringRun r Opc.reserve _ s) = _
  simp [ringRun_of_begins hb, live, named, Nat.not_lt.2 most]

section
variable {f b : Tier → Nat} (low : 1 ≤ tmask) (high : tmask < 8)
include low high

theorem reserveBody_of_capacityFail {x : Nat × Nat × Nat} (full : capacityFail v ctx slabs tmask f = some x) :
    reserveBody ctx slabs tmask f b v =
      (.noCapacity, 0, refusedAdmission (noteRefusal .noCapacity x.1 x.2.1 x.2.2 v)) := by
  rw [reserveBody, if_neg (by omega), full]

theorem reserveBody_of_admitFail {x : Nat × Nat × Nat} (room : capacityFail v ctx slabs tmask f = none)
    (exceeds : admitFail v (addResv ctx f b v) = some x) : reserveBody ctx slabs tmask f b v =
      (.guaranteeUnavailable, 0, refusedAdmission (noteRefusal .guaranteeUnavailable x.1 x.2.1 x.2.2 v)) := by
  rw [reserveBody, if_neg (by omega), room]
  simp only [exceeds]

theorem reserveBody_of_admitted (room : capacityFail v ctx slabs tmask f = none) (fits : admitFail v (addResv ctx f b v) = none)
    (metered : meteredContexts (addResv ctx f b v) ≤ 65536) :
    ∃ first, reserveBody ctx slabs tmask f b v = (.ok, first, reserved ctx first slabs tmask f b v) ∧
      (0 < slabs → freeRun slabs v.ple.presented 0 (takenSlabs v) = some first) := by
  refine ⟨if slabs = 0 then 0 else (freeRun slabs v.ple.presented 0 (takenSlabs v)).getD 0, ?_, fun some => ?_⟩
  · rw [reserveBody, if_neg (by omega), room]
    simp only [fits]
    rw [if_neg (by omega)]
    rfl
  · obtain ⟨first, found⟩ := freeRun_of_capacityFail room some
    rw [if_neg (by omega), found]
    rfl

end

section
variable {first : Nat} {f b : Tier → Nat}

theorem reserved_mem : (reserved ctx first slabs tmask f b v).mem = v.mem := by
  rw [reserved, scalesOnly_settleScales.mem, nameSlabs_eq_enterSlabs, enterSlabs_frame]
  rfl

theorem reserved_hiu : (reserved ctx first slabs tmask f b v).hiu = v.hiu := by
  rw [reserved, scalesOnly_settleScales.hiu, nameSlabs_eq_enterSlabs, enterSlabs_frame]
  rfl

theorem resvOf_reserved (c : Nat) : resvOf (reserved ctx first slabs tmask f b v) c = resvOf (addResv ctx f b v) c := by
  refine resvOf_congr ?_ c
  rw [reserved, settleScales_resv, nameSlabs_eq_enterSlabs, enterSlabs_frame]
  rfl

theorem mapAt_reserved (hv : Tidy v) (k : Nat) : mapAt (reserved ctx first slabs tmask f b v) k =
    if k ∈ slabList first slabs then { MapEntry.free with state := .zeroed, owner := ctx, tmask := tmask } else mapAt v k :=
  (mapAt_congr scalesOnly_settleScales.ple k).trans
    (mapAt_enterSlabs ((keeps_addResv ctx f b v (.refl v)).tidy hv) k)

end
end
end Sys2Proof.Machine

open Sys2Proof Sys2Proof.Machine

/-- Settles O18: an admitted RESERVE enters the run that was found FREE beside the grown reservation, which the scales then leave as
it is; a refused one is recorded and counted. -/
theorem reserveWholeOrNothing : Obligations.ReserveWholeOrNothing := by
  unfold Obligations.ReserveWholeOrNothing
  refine ⟨?admitted, ?refused⟩
  case admitted =>
    intro r ctx slabs tmask f1 f2 f3 b1 b2 b3 s v hv hb live named most low high room fits metered
    obtain ⟨first, body, found⟩ := reserveBody_of_admitted low high room fits metered
    refine ⟨first, reserved ctx first slabs tmask (byTier f1 f2 f3) (byTier b1 b2 b3) v, ?_, ?_, ?_, ?_, ?_, reserved_mem, reserved_hiu⟩
    · rw [exec_reserve_of_named hb live named most, body]
      rfl
    · rw [resvOf_reserved, addResv, resvOf_setResv _ hv]
      rfl
    · intro c hc
      rw [resvOf_reserved, addResv, resvOf_setResv_ne _ hv hc]
    · intro some k hk
      obtain ⟨presented, free⟩ := free_of_freeRun hv (found some) hk
      exact ⟨presented, free, by rw [mapAt_reserved hv, if_pos hk]⟩
    · intro k hk
      rw [mapAt_reserved hv, if_neg hk]
  case refused =>
    rintro r ctx slabs tmask f1 f2 f3 b1 b2 b3 s v x hb live named most low high (full | ⟨room, exceeds⟩)
    · refine ⟨.noCapacity, refusedAdmission (noteRefusal .noCapacity x.1 x.2.1 x.2.2 v), ?_, .inl rfl, rfl, rfl⟩
      rw [exec_reserve_of_named hb live named most, reserveBody_of_capacityFail low high full]
      rfl
    · refine ⟨.guaranteeUnavailable, refusedAdmission (noteRefusal .guaranteeUnavailable x.1 x.2.1 x.2.2 v), ?_, .inr rfl, rfl, rfl⟩
      rw [exec_reserve_of_named hb live named most, reserveBody_of_admitFail low high room exceeds]
      rfl

end

section
/-! PROOFS. RELEASE (O19): what follows a slab on its way to FREE, the release of one slab and of a run, and from these the outcomes of
RELEASE. -/

namespace Sys2Proof.Machine

/-! Tables -/

section
variable {α : Type} {t : Tbl α} {k : Nat}

theorem tins_tins (v w : α) : tins (tins t k v) k w = tins t k w := by
  induction t with
  | nil => simp [tins]
  | cons e t ih =>
    rcases Nat.lt_trichotomy k e.1 with below | rfl | above
    · simp [tins, below]
    · simp [tins]
    · simp [tins, Nat.lt_asymm above, Nat.ne_of_gt above, ih]

theorem tdel_tins (v : α) : tdel (tins t k v) k = tdel t k := by
  induction t with
  | nil => simp [tins, tdel]
  | cons e t ih =>
    rcases Nat.lt_trichotomy k e.1 with below | rfl | above
    · simp [tins, tdel, below]
    · simp [tins, tdel]
    · simp [tins, tdel, Nat.lt_asymm above, Nat.ne_of_gt above, ih]

/-- A value goes before the first of the keys that are all above it. -/
theorem tins_below (w : α) (h : trising (k + 1) t = true) : tins t k w = (k, w) :: t := by
  cases t with
  | nil => rfl
  | cons e t =>
    simp only [trising, Bool.and_eq_true, decide_eq_true_eq] at h
    simp [tins, show k < e.1 by omega]

theorem tins_tdel {lo : Nat} (w : α) (h : trising lo t = true) : tins (tdel t k) k w = tins t k w := by
  induction t generalizing lo with
  | nil => rfl
  | cons e t ih =>
    simp only [trising, Bool.and_eq_true] at h
    rcases Nat.lt_trichotomy k e.1 with below | rfl | above
    · simp [tins, tdel, below]
    · simp [tins, tdel, tins_below w h.2]
    · simp [tins, tdel, Nat.lt_asymm above, Nat.ne_of_gt above, ih h.2]

/-- Of two values stored for a key the second stands. -/
theorem tput_tput [DecidableEq α] {d : α} (v w : α) (h : trising 0 t = true) : tput d (tput d t k v) k w = tput d t k w := by
  unfold tput
  split
  · split
    · exact tdel_of_unlisted (tfind_tdel_same h k)
    · exact tdel_tins v
  · split
    · exact tins_tdel w h
    · exact tins_tins v w

/-- Entries are counted as before where one that does not count takes the place of one that does not. -/
theorem countP_tput [DecidableEq α] {d : α} {p : Nat × α → Bool} {v w : α} (listed : tfind t k = some v) (hv : p (k, v) = false)
    (hw : p (k, w) = false) : (tput d t k w).countP p = t.countP p := by
  unfold tput
  induction t with
  | nil => cases listed
  | cons e t ih =>
    obtain ⟨j, u⟩ := e
    simp only [tfind] at listed
    by_cases here : k = j
    · subst here
      rw [if_pos rfl, Option.some.injEq] at listed
      subst listed
      split <;> simp [tins, tdel, hv, hw]
    · rw [if_neg here] at listed
      by_cases below : k < j
      · rw [if_pos below] at listed
        cases listed
      · rw [if_neg below] at listed
        have rest := ih listed
        split
        all_goals
          next given =>
            simp only [given, if_true, if_false] at rest
            simp [tins, tdel, here, below, List.countP_cons, rest]

end

/-! What follows a slab on its way to FREE (R120, Table 02-2) -/

/-- Of what hangs on a slab, votes, hints, held writes, drains, descriptors, code tables and blocks of the tray cache alone differ. -/
def FollowsOnly (s t : State) : Prop :=
  t = { s with sent := t.sent, descs := t.descs, plants := t.plants, cnts := t.cnts, hiu := t.hiu, fports := t.fports, cdc := t.cdc,
               ppu := t.ppu, mge := { t.mge with moves := s.mge.moves }, ple := { s.ple with drains := t.ple.drains } }

section
variable {s t : State}

theorem FollowsOnly.trans {u : State} (h : FollowsOnly s t) (k : FollowsOnly t u) : FollowsOnly s u := by
  refine Eq.trans k ?_
  rw [h]

theorem FollowsOnly.foldl {α : Type} {f : State → α → State} (hf : ∀ s a, FollowsOnly s (f s a)) (l : List α) :
    FollowsOnly s (l.foldl f s) :=
  List.foldlRecOn l f (motive := fun t => FollowsOnly s t) rfl fun _ h a _ => h.trans (hf _ a)

theorem RingsOnly.followsOnly (h : RingsOnly s t) : FollowsOnly s t := by rw [FollowsOnly, h]

theorem PortsOnly.followsOnly (h : PortsOnly s t) : FollowsOnly s t := by rw [FollowsOnly, h]

theorem TablesOnly.followsOnly (h : TablesOnly s t) : FollowsOnly s t := by rw [FollowsOnly, h]

theorem ReadsOver.followsOnly (h : ReadsOver s t) : FollowsOnly s t := by rw [FollowsOnly, h]

theorem followsOnly_settleHints : FollowsOnly s (settleHints s) := by
  unfold settleHints
  refine .trans ?_ (.foldl (fun s (h : Hint) => (ringsOnly_complete h.r _ _ _).followsOnly) _)
  rfl

theorem followsOnly_resolveSlab (id slab : Nat) (st : Status) : FollowsOnly s (resolveSlab id slab st s) := by
  unfold resolveSlab
  refine .trans ?_ followsOnly_settleHints
  dsimp only
  split <;> rfl

theorem followsOnly_resolveTmask (slab : Nat) (st : Status) : FollowsOnly s (resolveTmask slab st s) :=
  .foldl (fun _ (h : Hint) => followsOnly_resolveSlab h.id _ _) _

theorem followsOnly_removeVote (slab ctx : Nat) (st : Status) : FollowsOnly s (removeVote slab ctx st s) := by
  unfold removeVote
  split
  · rfl
  · dsimp only
    split
    · refine .trans ?_ (followsOnly_resolveSlab _ _ _)
      rfl
    · rfl

theorem followsOnly_failVotes (slab : Nat) (st : Status) : FollowsOnly s (failVotes slab st s) :=
  .foldl (fun s v => by
    split
    · exact followsOnly_removeVote _ _ _
    · rfl) _

theorem followsOnly_ackWrite (src : WriteSrc) : FollowsOnly s (ackWrite src s) := by
  unfold ackWrite
  split
  · rfl
  · rfl
  · exact (portsOnly_answer _ _ _).followsOnly

theorem followsOnly_unrefTable (id : Nat) : FollowsOnly s (unrefTable id s) :=
  TablesOnly.followsOnly (.trans (tablesOnly_setTable id _) (tablesOnly_settleTable id))

end

/-! The placement around a slab that is released -/

/-- Beside what follows slabs on their way to FREE, only memory, moves, frames, reads that wait and the entries of slabs differ. -/
def ReleaseOnly (s t : State) : Prop :=
  t = { s with sent := t.sent, mem := t.mem, descs := t.descs, plants := t.plants, cnts := t.cnts, hiu := t.hiu, fports := t.fports,
               cdc := t.cdc, ppu := t.ppu, mge := t.mge, tfl := t.tfl,
               fmg := { s.fmg with slots := t.fmg.slots, relocating := t.fmg.relocating, poisonRec := t.fmg.poisonRec,
                                   recoveries := t.fmg.recoveries },
               ple := { s.ple with map := t.ple.map, drains := t.ple.drains } }

section
variable {s t : State}

theorem ReleaseOnly.trans {u : State} (h : ReleaseOnly s t) (k : ReleaseOnly t u) : ReleaseOnly s u := by
  refine Eq.trans k ?_
  rw [h]

theorem FollowsOnly.releaseOnly (h : FollowsOnly s t) : ReleaseOnly s t := by rw [ReleaseOnly, h]

theorem ReleaseOnly.presented (h : ReleaseOnly s t) : t.ple.presented = s.ple.presented := congrArg (·.ple.presented) h

theorem ReleaseOnly.groups (h : ReleaseOnly s t) : t.ple.groups = s.ple.groups := congrArg (·.ple.groups) h

theorem ReleaseOnly.ctxs (h : ReleaseOnly s t) : t.ple.ctxs = s.ple.ctxs := congrArg (·.ple.ctxs) h

theorem ReleaseOnly.rlg (h : ReleaseOnly s t) : t.rlg = s.rlg := congrArg (·.rlg) h

theorem ReleaseOnly.framesAll_eq (h : ReleaseOnly s t) : framesAll t = framesAll s := by
  rw [h]
  rfl

end

/-! One slab (Table 02-2) -/

section
variable {s t u : State} {slab : Nat}

theorem mapAt_of_map (map : t.ple.map = s.ple.map) (presented : t.ple.presented = s.ple.presented) (k : Nat) :
    mapAt t k = mapAt s k := by
  simp [mapAt, mapDefault, map, presented]

theorem setMap_map_of_map (map : t.ple.map = s.ple.map) (presented : t.ple.presented = s.ple.presented) (k : Nat) (e : MapEntry) :
    (setMap k e t).ple.map = (setMap k e s).ple.map := by
  simp [setMap, mapDefault, map, presented]

theorem releaseOnly_freeToZeroing (tier : Tier) (frame : Nat) : ReleaseOnly s (freeToZeroing tier frame s) := by
  unfold freeToZeroing
  split <;> rfl

theorem freeToZeroing_ple (tier : Tier) (frame : Nat) : (freeToZeroing tier frame s).ple = s.ple := by
  unfold freeToZeroing
  split <;> rfl

theorem freeToZeroing_recoveries (tier : Tier) (frame : Nat) :
    (freeToZeroing tier frame s).fmg.recoveries = s.fmg.recoveries := by
  unfold freeToZeroing
  split <;> rfl

/-- From `s` to `t` a slab was put on its way to FREE, up to its entry that is still to be made: of the placement only the states in
this entry differ, and memory and moves are as before where the slab has neither a home in T3 nor a move. -/
structure Emptied (slab : Nat) (s t : State) : Prop where
  frame : ReleaseOnly s t
  reads : t.fmg.recoveries ⊆ s.fmg.recoveries
  entry : ∃ x b c, mapAt t slab = { mapAt s slab with state := x, releasing := b, sealBit := c }
  map : ∀ e, (setMap slab e t).ple.map = (setMap slab e s).ple.map
  kept : (mapAt s slab).tier ≠ some .t3 → moveOf s slab = none → t.mem = s.mem ∧ t.mge.moves = s.mge.moves

theorem emptied_refl (slab : Nat) (s : State) : Emptied slab s s :=
  ⟨rfl, List.Subset.refl _, ⟨_, _, _, rfl⟩, fun _ => rfl, fun _ _ => ⟨rfl, rfl⟩⟩

theorem Emptied.then_aside (h : Emptied slab s t) (frame : ReleaseOnly t u) (reads : u.fmg.recoveries ⊆ t.fmg.recoveries)
    (map : u.ple.map = t.ple.map)
    (kept : (mapAt s slab).tier ≠ some .t3 → moveOf s slab = none → u.mem = t.mem ∧ u.mge.moves = t.mge.moves) :
    Emptied slab s u where
  frame := h.frame.trans frame
  reads := List.Subset.trans reads h.reads
  entry := by
    rw [mapAt_of_map map frame.presented]
    exact h.entry
  map e := (setMap_map_of_map map frame.presented slab e).trans (h.map e)
  kept tier free := by
    obtain ⟨mem, moves⟩ := kept tier free
    rw [mem, moves]
    exact h.kept tier free

theorem Emptied.then_follows (h : Emptied slab s t) (k : FollowsOnly t u) : Emptied slab s u :=
  h.then_aside k.releaseOnly (by rw [k]; exact List.Subset.refl _) (by rw [k]) fun _ _ => by rw [k]; exact ⟨rfl, rfl⟩

theorem Emptied.then_enter (h : Emptied slab s t) (hs : Tidy s) (x : SlabState) (b c : Bool) :
    Emptied slab s (setMap slab { mapAt s slab with state := x, releasing := b, sealBit := c } t) where
  frame := h.frame.trans rfl
  reads := h.reads
  entry := ⟨x, b, c, (mapAt_of_map (h.map _) h.frame.presented slab).trans (mapAt_setMap _ _ hs)⟩
  map e := by
    refine (setMap_map_of_map (s := setMap slab _ s) (h.map _) h.frame.presented slab e).trans ?_
    exact tput_tput _ _ hs.map
  kept := h.kept

theorem emptied_abandonMove (hs : Tidy s) : Emptied slab s (abandonMove slab s) := by
  unfold abandonMove
  split
  · exact emptied_refl slab s
  · next m found =>
    extract_lets s1 _ s2 s3
    have moved (free : moveOf s slab = none) : False := by
      rw [free] at found
      cases found
    have dropped : Emptied slab s s2 :=
      (emptied_refl slab s).then_aside rfl (List.Subset.refl _) rfl fun _ free => (moved free).elim
    split
    · exact dropped
    · have back : Emptied slab s s3 := by
        simp only [s3, modMap]
        split
        · exact dropped.then_enter hs _ (mapAt s slab).releasing (mapAt s slab).sealBit
        · exact dropped.then_enter hs (mapAt s slab).state (mapAt s slab).releasing (mapAt s slab).sealBit
      refine .then_aside (t := match m.frame with | some g => freeToZeroing m.target g s3 | none => s3) ?_ rfl
        (List.Subset.refl _) rfl fun _ free => (moved free).elim
      split
      · exact back.then_aside (releaseOnly_freeToZeroing _ _) (by rw [freeToZeroing_recoveries]; exact List.Subset.refl _)
          (by rw [freeToZeroing_ple]) fun _ free => (moved free).elim
      · exact back

end

/-! The release of slabs that a context owns (R230) -/

/-- The slabs of the list can be released: an ACTIVE context owns them, no read waits for one, and no shortfall is uncovered. -/
structure Releasable (ctx : Nat) (l : List Nat) (s : State) : Prop where
  tidy : Tidy s
  active : (ctxAt s ctx).state = .active
  covered : shortfall s = false
  owned : ∀ k ∈ l, owns s ctx (mapAt s k) = true
  unread : ∀ k ∈ l, readsWait s k = false

/-- From `s` to `t` the slabs of the list were released; memory and moves are as before where none of them has a home in T3 or a
move. -/
structure Released (l : List Nat) (s t : State) : Prop where
  frame : ReleaseOnly s t
  reads : t.fmg.recoveries ⊆ s.fmg.recoveries
  map : t.ple.map = (runReleased l s).ple.map
  kept : (∀ k ∈ l, (mapAt s k).tier ≠ some .t3 ∧ moveOf s k = none) → t.mem = s.mem ∧ t.mge.moves = s.mge.moves

section
variable {s t u : State} {slab ctx : Nat} {l : List Nat}

/-- What is not listed no context owns. -/
theorem tfind_of_owns {c k : Nat} (h : owns s c (mapAt s k) = true) : tfind s.ple.map k = some (mapAt s k) := by
  unfold mapAt at h ⊢
  cases found : tfind s.ple.map k with
  | some e => rfl
  | none =>
    rw [found, Option.getD_none] at h
    unfold mapDefault at h
    split at h
    · simp [owns, MapEntry.free] at h
    · simp [owns, MapEntry.retired] at h

theorem not_retired_of_owns {c : Nat} {e : MapEntry} (h : owns s c e = true) : e.state ≠ .retired := by
  simp only [owns, Bool.and_eq_true, decide_eq_true_eq] at h
  obtain ⟨⟨-, live⟩, -⟩ := h
  exact live

theorem ownerOf_of_owns {c : Nat} {e : MapEntry} (h : owns s c e = true) : ownerOf s e = c := by
  simp only [owns, Bool.and_eq_true, decide_eq_true_eq] at h
  obtain ⟨-, owner⟩ := h
  exact owner

theorem releasedEntry_of_bare {e : MapEntry} (h : e.tier = none) : releasedEntry e = MapEntry.free := by simp [releasedEntry, h]

theorem releasedEntry_of_flash {e : MapEntry} (h : e.tier = some .t3) : releasedEntry e = MapEntry.free := by simp [releasedEntry, h]

theorem releasedEntry_of_dram {e : MapEntry} {tier : Tier} (h : e.tier = some tier) (ht : tier ≠ .t3) :
    releasedEntry e = { e with state := .zeroed, releasing := true, sealBit := false } := by
  unfold releasedEntry
  cases tier with
  | t1 => simp [h]
  | t2 => simp [h]
  | t3 => exact (ht rfl).elim

theorem releasedEntry_not_retired (e : MapEntry) : (releasedEntry e).state ≠ .retired := by
  unfold releasedEntry
  split <;> simp [MapEntry.free]

/-- A slab that a context owns takes part in a shortfall as before once its entry is another. -/
theorem shortfall_of_entered {c : Nat} {e : MapEntry} (frame : ReleaseOnly s t) (map : t.ple.map = (setMap slab e s).ple.map)
    (owned : owns s c (mapAt s slab) = true) (he : e.state ≠ .retired) : shortfall t = shortfall s := by
  have live : (setMap slab e s).ple.map.countP (fun p => decide (p.2.state = .retired)) =
      s.ple.map.countP (fun p => decide (p.2.state = .retired)) :=
    countP_tput (tfind_of_owns owned) (by simpa using not_retired_of_owns owned) (by simpa using he)
  unfold shortfall liveSlabs
  rw [frame.framesAll_eq, frame.presented, map, live]

theorem readsWait_of_subset (reads : t.fmg.recoveries ⊆ s.fmg.recoveries) {k : Nat} (h : readsWait s k = false) :
    readsWait t k = false := by
  unfold readsWait at h ⊢
  rw [List.any_eq_false] at h ⊢
  exact fun r hr => h r (reads hr)

theorem ownerOf_congr (groups : t.ple.groups = s.ple.groups) (e : MapEntry) : ownerOf t e = ownerOf s e := by
  simp [ownerOf, groupOwner, groups]

theorem owns_congr_groups (groups : t.ple.groups = s.ple.groups) (c : Nat) (e : MapEntry) : owns t c e = owns s c e := by
  simp [owns, ownerOf_congr groups]

theorem ctxAt_congr (ctxs : t.ple.ctxs = s.ple.ctxs) (c : Nat) : ctxAt t c = ctxAt s c := by simp [ctxAt, ctxs]

/-- With its context ACTIVE and no shortfall, of a slab that becomes FREE only the entry differs. -/
theorem slabFree_of_emptied (hl : Releasable ctx [slab] s) (h : Emptied slab s t) : slabFree slab t = setMap slab MapEntry.free t := by
  have owned := hl.owned slab (List.mem_singleton_self _)
  have owner : ownerOf t (mapAt t slab) = ctx := by
    obtain ⟨x, b, c, entry⟩ := h.entry
    rw [entry, ownerOf_congr h.frame.groups]
    exact (ownerOf_of_owns owned :)
  have stays : (ctxAt t ctx).state ≠ .draining := by
    rw [ctxAt_congr h.frame.ctxs, hl.active]
    decide
  have covered : shortfall (setMap slab MapEntry.free t) = false :=
    (shortfall_of_entered (h.frame.trans (u := setMap slab MapEntry.free t) rfl) (h.map _) owned (by simp [MapEntry.free])).trans
      hl.covered
  unfold slabFree
  simp only [owner, stays, false_and, if_false, covered, Bool.false_eq_true]
  exact if_neg fun draining => stays draining.1

/-- The entry of a slab that has gone. -/
theorem Emptied.released (h : Emptied slab s t) : Released [slab] s (setMap slab (releasedEntry (mapAt s slab)) t) where
  frame := h.frame.trans rfl
  reads := h.reads
  map := h.map _
  kept clear := by
    obtain ⟨tier, free⟩ := clear slab (List.mem_singleton_self _)
    exact h.kept tier free

theorem released_releaseNow (hl : Releasable ctx [slab] s) : Released [slab] s (releaseNow slab s) := by
  unfold releaseNow
  extract_lets held s0 _ s1 e lo tables s2 s3 _ _ s4 s5
  have left : Emptied slab s s0 := (emptied_abandonMove hl.tidy).then_follows
    (.trans (followsOnly_failVotes _ _) (followsOnly_resolveTmask _ _))
  have answered : Emptied slab s s1 := left.then_follows
    (.trans (t := { s0 with mge := { s0.mge with held := s0.mge.held.filter (fun w => decide (w.block / 4096 ≠ slab)) } }) rfl
      (.trans (.foldl (fun _ (w : HeldStore) => followsOnly_ackWrite w.src) _) readsOver_settleDrains.followsOnly))
  have erased : FollowsOnly s1 s2 := by
    simp only [s2]
    split <;> rfl
  have unnamed : Emptied slab s s3 := (answered.then_follows erased).then_follows (.foldl (fun _ id => followsOnly_unrefTable id) _)
  have emptied : Emptied slab s s4 := unnamed.then_aside rfl (fun _ waits => (List.mem_filter.1 waits).1) rfl fun _ _ => ⟨rfl, rfl⟩
  obtain ⟨x, b, c, entry⟩ := answered.entry
  have tier : e.tier = (mapAt s slab).tier := by rw [show e = _ from entry]
  have zeroed : s5 = setMap slab { mapAt s slab with state := .zeroed, releasing := true, sealBit := false } s4 := by
    simp only [s5, show e = _ from entry]
  have entered : Emptied slab s s5 := zeroed ▸ emptied.then_enter hl.tidy _ _ _
  split
  · next bare =>
    rw [slabFree_of_emptied hl entered]
    rw [← releasedEntry_of_bare (tier.symm.trans bare)]
    exact entered.released
  · next flash =>
    have cleared : Emptied slab s (freeToZeroing .t3 e.frame s5) :=
      entered.then_aside (releaseOnly_freeToZeroing _ _) (by rw [freeToZeroing_recoveries]; exact List.Subset.refl _)
        (by rw [freeToZeroing_ple]) fun away _ => absurd (tier.symm.trans flash) away
    rw [slabFree_of_emptied hl cleared]
    rw [← releasedEntry_of_flash (tier.symm.trans flash)]
    exact cleared.released
  · next dram away there =>
    rw [zeroed, ← releasedEntry_of_dram (tier.symm.trans there) away]
    exact emptied.released

/-! The release of a run -/

theorem runReleased_eq_enterSlabs : runReleased l s = enterSlabs (fun k => releasedEntry (mapAt s k)) l s := rfl

/-- Entries come out alike from maps that are alike. -/
theorem enterSlabs_map_congr {f g : Nat → MapEntry} (same : ∀ k ∈ l, f k = g k) (map : t.ple.map = s.ple.map)
    (presented : t.ple.presented = s.ple.presented) : (enterSlabs f l t).ple.map = (enterSlabs g l s).ple.map := by
  induction l generalizing s t with
  | nil => exact map
  | cons k l ih =>
    refine ih (t := setMap k (f k) t) (s := setMap k (g k) s) (fun j hj => same j (List.mem_cons_of_mem _ hj)) ?_ presented
    rw [same k (List.mem_cons_self ..)]
    exact setMap_map_of_map map presented k _

theorem mapAt_runReleased (hs : Tidy s) (k : Nat) :
    mapAt (runReleased l s) k = if k ∈ l then releasedEntry (mapAt s k) else mapAt s k := mapAt_enterSlabs hs k

theorem runReleased_presented : (runReleased l s).ple.presented = s.ple.presented := by
  rw [runReleased_eq_enterSlabs, enterSlabs_frame]

theorem Released.mapAt_eq (h : Released l s t) (k : Nat) : mapAt t k = mapAt (runReleased l s) k :=
  mapAt_of_map h.map (h.frame.presented.trans runReleased_presented.symm) k

theorem Released.mapAt_of_not_mem (h : Released l s t) (hs : Tidy s) {k : Nat} (hk : k ∉ l) : mapAt t k = mapAt s k := by
  rw [h.mapAt_eq, mapAt_runReleased hs, if_neg hk]

theorem moveOf_of_moves (moves : t.mge.moves = s.mge.moves) (k : Nat) : moveOf t k = moveOf s k := by rw [moveOf, moves, moveOf]

theorem Released.cons (first : Released [slab] s t) (rest : Released l t u) (hs : Tidy s) (apart : slab ∉ l) :
    Released (slab :: l) s u where
  frame := first.frame.trans rest.frame
  reads := List.Subset.trans rest.reads first.reads
  map := by
    refine rest.map.trans (enterSlabs_map_congr (fun k hk => ?_) first.map first.frame.presented)
    rw [first.mapAt_of_not_mem hs (fun h => apart (List.mem_singleton.1 h ▸ hk))]
  kept clear := by
    obtain ⟨mem, moves⟩ := first.kept fun k hk => clear k (List.mem_singleton.1 hk ▸ List.mem_cons_self ..)
    rw [← mem, ← moves]
    refine rest.kept fun k hk => ?_
    rw [first.mapAt_of_not_mem hs (fun h => apart (List.mem_singleton.1 h ▸ hk)), moveOf_of_moves moves]
    exact clear k (List.mem_cons_of_mem _ hk)

theorem Releasable.head (h : Releasable ctx (slab :: l) s) : Releasable ctx [slab] s :=
  { h with
    owned := fun k hk => h.owned k (List.mem_singleton.1 hk ▸ List.mem_cons_self ..)
    unread := fun k hk => h.unread k (List.mem_singleton.1 hk ▸ List.mem_cons_self ..) }

/-- The release of one slab leaves the others as they can be released. -/
theorem Releasable.tail (h : Releasable ctx (slab :: l) s) (apart : slab ∉ l) (released : Released [slab] s t) (ht : Tidy t) :
    Releasable ctx l t where
  tidy := ht
  active := by
    rw [ctxAt_congr released.frame.ctxs]
    exact h.active
  covered := (shortfall_of_entered released.frame released.map (h.owned slab (List.mem_cons_self ..))
    (releasedEntry_not_retired _)).trans h.covered
  owned k hk := by
    rw [released.mapAt_of_not_mem h.tidy (fun there => apart (List.mem_singleton.1 there ▸ hk)),
      owns_congr_groups released.frame.groups]
    exact h.owned k (List.mem_cons_of_mem _ hk)
  unread k hk := readsWait_of_subset released.reads (h.unread k (List.mem_cons_of_mem _ hk))

theorem releaseSlab_of_unread (h : readsWait s slab = false) : releaseSlab slab s = releaseNow slab s := by
  simp [releaseSlab, h]

theorem released_run (apart : l.Nodup) (h : Releasable ctx l s) : Released l s (l.foldl (fun s k => releaseSlab k s) s) := by
  induction l generalizing s with
  | nil => exact ⟨rfl, List.Subset.refl _, rfl, fun _ => ⟨rfl, rfl⟩⟩
  | cons k l ih =>
    obtain ⟨fresh, apart⟩ := List.nodup_cons.1 apart
    have released : Released [k] s (releaseSlab k s) := by
      rw [releaseSlab_of_unread (h.unread k (List.mem_cons_self ..))]
      exact released_releaseNow h.head
    have tidy : Tidy (releaseSlab k s) := (keeps_releaseSlab k s (.refl s)).tidy h.tidy
    exact released.cons (ih apart (h.tail fresh released tidy)) h.tidy fresh

theorem nodup_slabList (first n : Nat) : (slabList first n).Nodup :=
  List.Pairwise.map _ (fun i j apart => by omega) List.nodup_range

/-- R227 counts the map, the groups and the reservations. -/
theorem hallFail_congr (map : t.ple.map = s.ple.map) (groups : t.ple.groups = s.ple.groups) (resv : t.rlg.resv = s.rlg.resv)
    (c : Nat) : hallFail t c = hallFail s c := by
  have owned : owns t c = owns s c := funext (owns_congr_groups groups c)
  unfold hallFail hallFrames hallSlabs
  rw [resvOf_congr resv, map, owned]

theorem Released.hallFail_eq (h : Released l s t) (c : Nat) : hallFail t c = hallFail (runReleased l s) c := by
  refine hallFail_congr h.map ?_ ?_ c
  · rw [h.frame.groups, runReleased_eq_enterSlabs, enterSlabs_frame]
  · rw [h.frame.rlg, runReleased_eq_enterSlabs, enterSlabs_frame]

theorem Released.hallFail_subResv (h : Released l s t) (f b : Tier → Nat) (c : Nat) :
    hallFail (subResv c f b t) c = hallFail (subResv c f b (runReleased l s)) c := by
  have rlg : t.rlg = (runReleased l s).rlg := by rw [h.frame.rlg, runReleased_eq_enterSlabs, enterSlabs_frame]
  refine hallFail_congr (t := subResv c f b t) (s := subResv c f b (runReleased l s)) h.map ?_ ?_ c
  · refine h.frame.groups.trans ?_
    rw [runReleased_eq_enterSlabs, enterSlabs_frame]
    rfl
  · simp [subResv, setResv, resvOf, rlg]

end

/-! The outcomes of RELEASE -/

/-- An admitted RELEASE of a list of slabs with what returns. -/
def releasedRun (ctx : Nat) (l : List Nat) (f b : Tier → Nat) (s : State) : State :=
  settleScales (admitted (subResv ctx f b (l.foldl (fun s k => releaseSlab k s) s)))

section
variable {r : RingCmd} {ctx dest count f1 f2 f3 b1 b2 b3 : Nat} {s v : State}

theorem releaseOutcome_of_ownCtx {f b : Tier → Nat} (hc : OwnCtx r ctx v) (aligned : slabAligned dest = true) (most : count ≤ 65536) :
    releaseOutcome r ctx dest count f b v = releaseBody r.fn ctx (dest / 2 ^ 24) count f b v := by
  obtain ⟨-, live, active, own⟩ := hc
  simp [releaseOutcome, live, active, own, aligned, Nat.not_lt.2 most]

/-- A RELEASE of which no read waits for a slab, or that is refused, completes at once. -/
theorem exec_release_of_body {x : Status × Nat × State} (hb : Begins r Opc.release s v) (hc : OwnCtx r ctx v)
    (aligned : slabAligned dest = true) (most : count ≤ 65536)
    (body : releaseBody r.fn ctx (dest / 2 ^ 24) count (byTier f1 f2 f3) (byTier b1 b2 b3) v = x)
    (ends : x.1 = .ok → ∀ k ∈ slabList (dest / 2 ^ 24) count, readsWait v k = false) :
    exec (.release r ctx dest count f1 f2 f3 b1 b2 b3) s = .next (finish r Opc.release x) := by
  change Host.Outcome.next (ringRun r Opc.release _ s) = _
  rw [ringRun_of_begins hb, releaseOutcome_of_ownCtx hc aligned most, body]
  dsimp only
  rw [if_neg]
  rintro ⟨done, waits⟩
  obtain ⟨k, hk, waits⟩ := List.any_eq_true.1 waits
  rw [ends done k hk] at waits
  cases waits

section
variable {fn first : Nat} {f b : Tier → Nat} (owned : ∀ k ∈ slabList first count, owns v ctx (mapAt v k) = true)
include owned

theorem releaseBody_of_held (held : ∃ k ∈ slabList first count, slabHeld v k = true) :
    releaseBody fn ctx first count f b v = (.slabMapped, 0, v) := by
  simp only [releaseBody, List.all_eq_true.2 owned, List.any_eq_true.2 held, Bool.not_true, Bool.false_eq_true, if_false, if_true]

variable (loose : ∀ k ∈ slabList first count, slabHeld v k = false)
include loose

theorem releaseBody_of_overdrawn (exceeds : ∃ t ∈ tiers, unusedFrames v ctx t < f t ∨ Resv_bw (resvOf v ctx) t < b t) :
    releaseBody fn ctx first count f b v = (.reservationInUse, 0, refusedAdmission v) := by
  have held : (slabList first count).any (slabHeld v) = false := by simpa using loose
  have returns : tiers.any (fun t => decide (unusedFrames v ctx t < f t) || decide (Resv_bw (resvOf v ctx) t < b t)) = true := by
    simpa using exceeds
  simp only [releaseBody, List.all_eq_true.2 owned, held, returns, Bool.not_true, Bool.false_eq_true, if_false, if_true]

theorem releaseBody_of_returned (fits : ∀ t ∈ tiers, f t ≤ unusedFrames v ctx t ∧ b t ≤ Resv_bw (resvOf v ctx) t)
    (freed : hallFail ((slabList first count).foldl (fun s k => releaseSlab k s) v) ctx = none)
    (returned : hallFail (subResv ctx f b ((slabList first count).foldl (fun s k => releaseSlab k s) v)) ctx = none) :
    releaseBody fn ctx first count f b v = (.ok, 0, releasedRun ctx (slabList first count) f b v) := by
  have held : (slabList first count).any (slabHeld v) = false := by simpa using loose
  have returns : tiers.any (fun t => decide (unusedFrames v ctx t < f t) || decide (Resv_bw (resvOf v ctx) t < b t)) = false := by
    simpa [not_or] using fits
  simp only [releaseBody, List.all_eq_true.2 owned, held, returns, freed, returned, Bool.not_true, Bool.false_eq_true, if_false]
  rfl

end

section
variable {l : List Nat} {f b : Tier → Nat}

theorem resvOf_releasedRun (released : Released l v (l.foldl (fun s k => releaseSlab k s) v)) (c : Nat) :
    resvOf (releasedRun ctx l f b v) c = resvOf (subResv ctx f b v) c := by
  refine resvOf_congr (settleScales_resv.trans ?_) c
  simp [admitted, subResv, setResv, resvOf, released.frame.rlg]

theorem mapAt_releasedRun (hv : Tidy v) (released : Released l v (l.foldl (fun s k => releaseSlab k s) v)) (k : Nat) :
    mapAt (releasedRun ctx l f b v) k = if k ∈ l then releasedEntry (mapAt v k) else mapAt v k :=
  (mapAt_congr scalesOnly_settleScales.ple k).trans ((released.mapAt_eq k).trans (mapAt_runReleased hv k))

theorem releasedRun_mem : (releasedRun ctx l f b v).mem = (l.foldl (fun s k => releaseSlab k s) v).mem :=
  scalesOnly_settleScales.mem

end
end
end Sys2Proof.Machine

open Sys2Proof Sys2Proof.Machine

/-- Settles O19: no release of one slab touches what the release of another or the return reads, so that the run is released slab by
slab; the two refusals stand before it. -/
theorem releaseSlabs : Obligations.ReleaseSlabs := by
  unfold Obligations.ReleaseSlabs
  intro r ctx dest count f1 f2 f3 b1 b2 b3 s v hv hb hc aligned most owned
  have run {x : Status × Nat × State} :=
    exec_release_of_body (x := x) (f1 := f1) (f2 := f2) (f3 := f3) (b1 := b1) (b2 := b2) (b3 := b3) hb hc aligned most
  refine ⟨fun held => ?_, fun loose => ⟨fun exceeds => ?_, fun fits covered unread freed returned => ?_⟩⟩
  · exact run (releaseBody_of_held owned held) (by simp)
  · exact run (releaseBody_of_overdrawn owned loose exceeds) (by simp)
  have ⟨_, _, active, _⟩ := hc
  have released := released_run (nodup_slabList (dest / 2 ^ 24) count) ⟨hv, active, covered, owned, unread⟩
  have body := releaseBody_of_returned (fn := r.fn) owned loose fits ((released.hallFail_eq ctx).trans freed)
    ((released.hallFail_subResv _ _ ctx).trans returned)
  refine ⟨releasedRun ctx (slabList (dest / 2 ^ 24) count) (byTier f1 f2 f3) (byTier b1 b2 b3) v, run body fun _ => unread,
    ?_, ?_, ?_, ?_, ?_⟩
  · rw [resvOf_releasedRun released, subResv, resvOf_setResv _ hv]
    rfl
  · intro c other
    rw [resvOf_releasedRun released, subResv, resvOf_setResv_ne _ hv other]
  · intro k hk
    rw [mapAt_releasedRun hv released, if_pos hk]
  · intro k hk
    rw [mapAt_releasedRun hv released, if_neg hk]
  · intro clear
    exact releasedRun_mem.trans (released.kept clear).1

end

section
/-! PROOFS. The takeover by the safe-state sequencer (R391, R393): what it seizes, and what it leaves alone. -/

set_option Elab.async false

namespace Sys2Proof.Machine

section
variable {s t u : State}

/-! Frames -/

/-- What a takeover changes at most: memory, the placement, the fuses and the time are none of it. -/
def TakeoverOnly (s t : State) : Prop := t = { s with
  sent := t.sent, pages := t.pages, cnts := t.cnts, hiu := t.hiu, mge := t.mge, fmg := t.fmg, cvus := t.cvus, checks := t.checks,
  tmx := t.tmx, ppm := t.ppm, sht := t.sht, fports := t.fports, ftb := t.ftb, ccx := t.ccx, sss := t.sss, lcc := t.lcc,
  boot := { s.boot with crash := t.boot.crash } }

theorem TakeoverOnly.trans (h : TakeoverOnly s t) (k : TakeoverOnly t u) : TakeoverOnly s u := by
  refine Eq.trans k ?_
  rw [h]

theorem TakeoverOnly.mem (h : TakeoverOnly s t) : t.mem = s.mem := congrArg (·.mem) h

theorem TakeoverOnly.ple (h : TakeoverOnly s t) : t.ple = s.ple := congrArg (·.ple) h

theorem TakeoverOnly.now (h : TakeoverOnly s t) : t.now = s.now := congrArg (·.now) h

/-- What a takeover still changes once pages and shared resources are the sequencer's. -/
def SeizedOver (s t : State) : Prop := t = { s with
  sent := t.sent, cnts := t.cnts, hiu := t.hiu, mge := t.mge, fmg := t.fmg, cvus := t.cvus, checks := t.checks,
  ppm := t.ppm, sht := t.sht, fports := t.fports, ftb := t.ftb, ccx := t.ccx, sss := t.sss, lcc := t.lcc,
  boot := { s.boot with crash := t.boot.crash } }

theorem SeizedOver.trans (h : SeizedOver s t) (k : SeizedOver t u) : SeizedOver s u := by
  refine Eq.trans k ?_
  rw [h]

theorem SeizedOver.takeoverOnly (h : SeizedOver s t) : TakeoverOnly s t := by rw [TakeoverOnly, h]

/-- What ends for those that wait, with the answers that they get. -/
def WaitingOver (s t : State) : Prop := t = { s with sent := t.sent, cnts := t.cnts, hiu := t.hiu, mge := t.mge, fmg := t.fmg }

theorem WaitingOver.trans (h : WaitingOver s t) (k : WaitingOver t u) : WaitingOver s u := by
  refine Eq.trans k ?_
  rw [h]

theorem WaitingOver.foldl {α : Type} {f : State → α → State} (hf : ∀ s a, WaitingOver s (f s a)) (l : List α) :
    WaitingOver s (l.foldl f s) :=
  List.foldlRecOn l f (motive := WaitingOver s) rfl fun _ h a _ => h.trans (hf _ a)

theorem WaitingOver.seizedOver (h : WaitingOver s t) : SeizedOver s t := by rw [SeizedOver, h]

theorem SeizedOver.pages (h : SeizedOver s t) : t.pages = s.pages := congrArg (·.pages) h

theorem SeizedOver.tmx (h : SeizedOver s t) : t.tmx = s.tmx := congrArg (·.tmx) h

/-! The parts of a takeover -/

theorem waitingOver_answerBar (fn off : Nat) (r : Resp) : WaitingOver s (answerBar fn off r s) := by
  unfold answerBar
  dsimp only
  split <;> rfl

theorem waitingOver_endWaiting : WaitingOver s (endWaiting s) := by
  have reads : WaitingOver s { s with fmg := { s.fmg with recoveries := [] } } := rfl
  have writes (t : State) : WaitingOver t { t with mge := { t.mge with held := [] } } := rfl
  refine .trans (reads.trans (.foldl (fun s w => ?_) _)) (.trans (writes _) (.foldl (fun s w => ?_) _))
  · split
    · rfl
    · exact waitingOver_answerBar _ _ _
    · rfl
  · split <;> rfl

theorem waitingOver_setHport (port : Nat) (v : HPort) : WaitingOver s (setHport port v s) := by
  unfold setHport
  split <;> rfl

theorem waitingOver_reportFatal (port : Nat) : WaitingOver s (reportFatal port s) := by
  unfold reportFatal
  dsimp only
  refine .trans (.trans (t := if portUp s port then _ else s) ?_ (waitingOver_setHport _ _)) (waitingOver_setHport _ _)
  split <;> rfl

theorem seizedOver_logEvent (e : Evt) : SeizedOver s (logEvent e s) := by
  unfold logEvent
  dsimp only
  split <;> rfl

theorem seizedOver_firmwareLost : SeizedOver s (firmwareLost s) := by
  have other (v : FwSlot) (s : State) : SeizedOver s (setOtherSlot v s) := rfl
  have active (v : FwSlot) (s : State) : SeizedOver s (setActiveSlot v s) := rfl
  unfold firmwareLost
  dsimp only
  split <;> split <;> rfl

/-- The shared resources and the trace alone differ. -/
def TestOnly (s t : State) : Prop := t = { s with tmx := t.tmx }

theorem TestOnly.trans (h : TestOnly s t) (k : TestOnly t u) : TestOnly s u := by
  refine Eq.trans k ?_
  rw [h]

theorem TestOnly.takeoverOnly (h : TestOnly s t) : TakeoverOnly s t := by rw [TakeoverOnly, h]

theorem testOnly_freeTrigger : TestOnly s (freeTrigger s) := by
  unfold freeTrigger
  split <;> rfl

theorem testOnly_clearTrace : TestOnly s (clearTrace s) := testOnly_freeTrigger.trans rfl

theorem testOnly_releaseClaim (n : Nat) : TestOnly s (releaseClaim n s) := by
  have freed : TestOnly s (freeClaim n s) := rfl
  unfold releaseClaim
  dsimp only
  split
  · exact freed.trans testOnly_clearTrace
  · split <;> rfl

theorem testOnly_releaseClaims (p : ClaimRec → Bool) : TestOnly s (releaseClaims p s) := by
  refine List.foldlRecOn _ _ (motive := TestOnly s) rfl fun t h n _ => ?_
  split
  · exact h.trans (testOnly_releaseClaim n)
  · exact h

end

/-! Claims at a takeover -/

section
variable {s : State}

theorem foldl_setClaim_eq (c : ClaimRec) (l : List Nat) (hs : Tidy s) (n : Nat) :
    claimOf (l.foldl (fun s n => setClaim n c s) s) n = if n ∈ l then c else claimOf s n := by
  induction l generalizing s with
  | nil => rfl
  | cons k l ih =>
    rw [List.foldl_cons, ih ((keeps_setClaim k c s (.refl s)).tidy hs)]
    by_cases later : n ∈ l
    · simp [later]
    · by_cases here : n = k
      · simp [here, claimOf_setClaim k c hs]
      · simp [later, here, claimOf_setClaim_ne k c hs here]

theorem testOnly_foldl_setClaim (c : ClaimRec) (l : List Nat) : TestOnly s (l.foldl (fun s n => setClaim n c s) s) :=
  List.foldlRecOn l _ (motive := TestOnly s) rfl fun _ h _ _ => h.trans rfl

/-- The header of a page once the sequencer has seized the pages. -/
def seizedPage (s : State) (p : Nat) : Page :=
  if (pageOf p).isSome then { pageHdr s p with unlocked := false, owner := .sss } else pageHdr s p

/-- The record of a shared resource that the sequencer has seized. -/
def seizedClaim : ClaimRec := { owner := .sss, port := 0, user := .sss, ctx := 0, tap := false }

theorem tget_listed {α : Type} [DecidableEq α] {d : α} (f : Nat → α) {n k : Nat} (hk : k < n) :
    tget d (((List.range n).map (fun k => (k, f k))).filter (fun e => decide (e.2 ≠ d))) k = f k := by
  have rising := twf_trising (twf_listed (d := d) f n)
  by_cases reset : f k = d
  · cases found : tfind (((List.range n).map (fun k => (k, f k))).filter (fun e => decide (e.2 ≠ d))) k with
    | none => rw [tget, found, reset]; rfl
    | some v =>
      have there := (tfind_iff rising).1 found
      simp only [List.mem_filter, List.mem_map, Prod.mk.injEq] at there
      obtain ⟨⟨_, _, rfl, rfl⟩, kept⟩ := there
      simp [reset] at kept
  · have there : tfind (((List.range n).map (fun k => (k, f k))).filter (fun e => decide (e.2 ≠ d))) k = some (f k) := by
      rw [tfind_iff rising]
      simp [hk, reset]
    rw [tget, there]
    rfl

/-- The headers of all pages once the sequencer has seized them. -/
@[irreducible] def seizedPages (s : State) : Tbl Page :=
  ((List.range 4096).map (fun p => (p, seizedPage s p))).filter (fun e => decide (e.2 ≠ Page.reset))

theorem twf_seizedPages : twf Page.reset (seizedPages s) = true := by
  unfold seizedPages
  exact twf_listed _ _

/-- The seizure of the shared resources, with the headers that the pages then have. -/
def seizeResources (l : Tbl Page) (s : State) : State :=
  (List.range 19).foldl (fun s n => setClaim n seizedClaim s) (releaseClaims (fun _ => true) { s with pages := l })

theorem seizeClaims_eq : seizeClaims s = seizeResources (seizedPages s) s := by
  unfold seizedPages
  rfl

theorem testOnly_seizeResources (l : Tbl Page) : TestOnly { s with pages := l } (seizeResources l s) :=
  (testOnly_releaseClaims _).trans (testOnly_foldl_setClaim _ _)

theorem claimOf_seizeClaims {n : Nat} (hs : Tidy s) (hn : n < 19) : claimOf (seizeClaims s) n = seizedClaim := by
  have listed : Tidy { s with pages := seizedPages s } := { hs with pages := twf_seizedPages }
  rw [seizeClaims_eq, seizeResources, foldl_setClaim_eq _ _ ((keeps_releaseClaims _ _ (.refl _)).tidy listed),
    if_pos (List.mem_range.2 hn)]

theorem pages_seizeClaims : (seizeClaims s).pages = seizedPages s := by
  rw [seizeClaims_eq]
  exact congrArg (fun t : State => t.pages) (testOnly_seizeResources (seizedPages s))

theorem pageHdr_seizeClaims {p : Nat} (hp : p < 4096) (paged : (pageOf p).isSome = true) :
    (pageHdr (seizeClaims s) p).owner = .sss ∧ (pageHdr (seizeClaims s) p).unlocked = false := by
  have hdr : pageHdr (seizeClaims s) p = seizedPage s p := by
    rw [pageHdr, pages_seizeClaims]
    unfold seizedPages
    exact tget_listed (seizedPage s) hp
  rw [hdr, seizedPage, if_pos paged]
  exact ⟨rfl, rfl⟩

theorem takeoverOnly_seizeClaims : TakeoverOnly s (seizeClaims s) := by
  rw [seizeClaims_eq]
  exact .trans (t := { s with pages := seizedPages s }) rfl (testOnly_seizeResources _).takeoverOnly

/-! The takeover -/

/-- The state of a takeover once every page and shared resource is the sequencer's. -/
def seized (cause : Nat) (s : State) : State :=
  seizeClaims (firmwareLost (logEvent
    { code := Config.fatalCode cause, sev := .fatal, cause := 0, ctx := noCtx, block := 0, time := s.now, page := fatalPage cause,
      detail := 0, dests := [], integrity := false }
    (count Pg.ccx 0xE18 (modPage (fatalPage cause) (setEvtBit 3) s))))

theorem takeoverOnly_seized (cause : Nat) : TakeoverOnly s (seized cause s) := by
  have noted : TakeoverOnly s (count Pg.ccx 0xE18 (modPage (fatalPage cause) (setEvtBit 3) s)) := rfl
  exact noted.trans ((seizedOver_logEvent _).trans seizedOver_firmwareLost).takeoverOnly |>.trans takeoverOnly_seizeClaims

theorem tidy_unseized (e : Evt) (p : Nat) (hs : Tidy s) :
    Tidy (firmwareLost (logEvent e (count Pg.ccx 0xE18 (modPage p (setEvtBit 3) s)))) :=
  (keeps_firmwareLost _ (keeps_logEvent _ _ (keeps_count _ _ _ (keeps_modPage _ _ _ (.refl s))))).tidy hs

/-- The hot takeover lowers the voltage (R393). -/
def voltageDropped (cause vmin : Nat) (s : State) : State :=
  if decide (cause = 4) then emit (.voltage vmin) { s with ppm := { s.ppm with vreq := vmin } } else s

/-- The sheet is frozen, the fabric ports are disabled, and what the comparators and the lifecycle had under way is gone. -/
def unitsStopped (s : State) : State := { s with
  sht := { s.sht with state := .frozen }
  fports := (List.range 8).map (fun p => (p, { FPort.reset with state := .disabled }))
  ftb := { s.ftb with cmps := [] }
  ccx := { s.ccx with supState := 2 }
  lcc := { s.lcc with pending := none, busy := false } }

/-- The record of a takeover of cause `cause` in a device that was in state `s` (Table 16-4). -/
def recorded (cause : Nat) (s t : State) : State := emit (.pins false (!thermLow t)) { t with
  sss := { t.sss with state := if s.ccx.trial then .takingOver else .safe, cause := cause, second := 0, time := s.now % 2 ^ 56,
                      crashSaved := true, fault := true, trialReset := s.ccx.trial }
  boot := { t.boot with crash := some (cause, t.ccx.log.drop (t.ccx.log.length - 32)) } }

theorem takeover_of_watch (cause : Nat) (watch : s.sss.state = .watch) : takeover cause s =
    recorded cause s (reportFatal 1 (reportFatal 0 (endWaiting (unitsStopped
      (voltageDropped cause (fld s Pg.ppm 0x400 51 41) (endCvuJobs (seized cause s))))))) := by
  rw [takeover, watch]
  rfl

/-- What a takeover of a device that runs leaves (R391, R393): pages and shared resources are the sequencer's, the fabric ports are
disabled, the sheet is frozen, and the cause is recorded. -/
structure TakenOver (cause : Nat) (s t : State) : Prop where
  frame : SeizedOver (seized cause s) t
  cause_eq : t.sss.cause = cause
  time_eq : t.sss.time = s.now % 2 ^ 56
  fault : t.sss.fault = true
  state_eq : t.sss.state = if s.ccx.trial then .takingOver else .safe
  fports_eq : t.fports = (List.range 8).map (fun p => (p, { FPort.reset with state := .disabled }))
  frozen : t.sht.state = .frozen

theorem seizedOver_voltageDropped (cause vmin : Nat) : SeizedOver s (voltageDropped cause vmin s) := by
  unfold voltageDropped
  split <;> rfl

theorem takenOver (cause : Nat) (watch : s.sss.state = .watch) : TakenOver cause s (takeover cause s) := by
  rw [takeover_of_watch cause watch]
  generalize ht : voltageDropped cause (fld s Pg.ppm 0x400 51 41) (endCvuJobs (seized cause s)) = t
  have stopping : SeizedOver (seized cause s) t :=
    ht ▸ .trans (t := endCvuJobs (seized cause s)) rfl (seizedOver_voltageDropped cause _)
  have waiting : WaitingOver (unitsStopped t) (reportFatal 1 (reportFatal 0 (endWaiting (unitsStopped t)))) :=
    waitingOver_endWaiting.trans ((waitingOver_reportFatal 0).trans (waitingOver_reportFatal 1))
  generalize reportFatal 1 (reportFatal 0 (endWaiting (unitsStopped t))) = u at waiting ⊢
  have stopped : SeizedOver t (unitsStopped t) := rfl
  exact ⟨(stopping.trans stopped).trans (waiting.seizedOver.trans rfl), rfl, rfl, rfl, rfl, congrArg (·.fports) waiting,
    congrArg (·.sht.state) waiting⟩

namespace TakenOver

variable {cause : Nat} (h : TakenOver cause s t)
include h

theorem takeoverOnly : TakeoverOnly s t := (takeoverOnly_seized cause).trans h.frame.takeoverOnly

theorem not_watch : t.sss.state ≠ .watch := by
  rw [h.state_eq]
  split <;> simp

theorem pageHdr_seized {p : Nat} (hp : p < 4096) (paged : (pageOf p).isSome = true) :
    (pageHdr t p).owner = .sss ∧ (pageHdr t p).unlocked = false := by
  rw [pageHdr_congr h.frame.pages]
  exact pageHdr_seizeClaims hp paged

theorem claimOf_seized {n : Nat} (hs : Tidy s) (hn : n < 19) : claimOf t n = seizedClaim := by
  rw [claimOf, h.frame.tmx]
  exact claimOf_seizeClaims (tidy_unseized _ _ hs) hn

theorem fportAt_disabled {p : Nat} (hp : p < 8) : (fportAt t p).state = .disabled := by
  rw [fportAt, h.fports_eq]
  interval_cases p <;> rfl

end TakenOver

/-- A later trigger is only recorded (R391). -/
theorem takeover_of_not_watch (cause : Nat) (other : s.sss.state ≠ .watch) : takeover cause s =
    if s.sss.second = 0 then { s with sss := { s.sss with second := cause } } else s := by
  unfold takeover
  split
  · contradiction
  · rfl

end
end Sys2Proof.Machine
end

section
/-! PROOFS. Page headers (O9, O11, O13): accesses that are ignored and counted, claims, snapshots and event bits, and the two halves
of a 64-bit register. -/

set_option Elab.async false

namespace Sys2Proof.Machine

section
variable {s : State} {w p : Nat}

/-! Ignored accesses (R443, R448) -/

/-- What an access that is ignored and counted leaves. -/
def ignored (w p : Nat) (s : State) : State := ignoreWrite p (dropHalf w p s)

theorem pageHdr_ignored (hs : Tidy s) : pageHdr (ignored w p s) p =
    { accessed w (pageHdr s p) with ignored := min (2 ^ 32 - 1) ((pageHdr s p).ignored + 1) } := by
  rw [ignored, ignoreWrite, pageHdr_modPage _ (tidy_dropHalf hs), pageHdr_dropHalf hs]
  rfl

theorem hdrOnly_ignored (hs : Tidy s) : HdrOnly p s (ignored w p s) :=
  hdrOnly_trans (hdrOnly_dropHalf hs) (hdrOnly_modPage _ (tidy_dropHalf hs))

theorem pageWrite_of_refused {off : Nat} {wide : Bool} {v : Word} (hs : Tidy s) (hr : reaches s w p = true)
    (refused : holdsPage s w p = false ∨ readOnlyPage p off v = true) : pageWrite w p off wide v s = ignored w p s := by
  have out : (!holdsPage s w p || readOnlyPage p off v) = true := by simpa using refused
  simp [pageWrite, hr, holdsPage_dropHalf w p hs, out, ignored]

theorem ownedWrite_of_foreign (body : State → State) (hs : Tidy s) (hr : reaches s w p = true) (other : holdsPage s w p = false) :
    ownedWrite w p body s = ignored w p s := by
  simp [ownedWrite, hr, holdsPage_dropHalf w p hs, other, ignored]

theorem isPf_of_reaches (h : reaches s w p = true) : isPf w = true := by
  simp only [reaches, Bool.and_eq_true] at h
  obtain ⟨⟨⟨⟨⟨⟨-, pf⟩, -⟩, -⟩, -⟩, -⟩, -⟩ := h
  exact pf

theorem exec_registerWrite_of_reaches {off : Nat} {wide : Bool} (v : Word) (hr : reaches s w p = true) (hrow : headerRow p off = false)
    (hoff : off < 0x400) (aligned : alignedAccess off wide = true) :
    exec (.registerWrite w p off wide v) s = .next (pageWrite w p off wide v s) := by
  have basic : ¬ 0x400 ≤ off := by omega
  simp [exec_registerWrite, execRegisterWrite, aligned, isPf_of_reaches hr, hrow, basic]

theorem bitOf_unitCtrl_zero (key : Nat) {act : Nat} (even : act % 2 = 0) : bitOf (unitCtrl s p key act) 0 = false := by
  rw [unitCtrl, bitOf_ofNat _ (by decide), Nat.testBit_zero]
  simp only [place, Nat.shiftLeft_eq, decide_eq_false_iff_not]
  omega

theorem bitOf_enable_zero (on : Bool) : bitOf (BitVec.ofNat 64 (place (boolNat on) 1 1)) 0 = false := by cases on <;> decide

/-- Pages of the T1 and flash channels take no write but those with UNIT_RESET (R161, R189). -/
theorem readOnlyPage_of_channel {n off : Nat} {t : PageType} {v : Word} (hp : pageOf p = some (t, n)) (ht : t = .sch ∨ t = .flc)
    (hv : off ≠ 0x0C ∨ bitOf v 0 = false) : readOnlyPage p off v = true := by
  have type : (pageOf p).any (fun x => decide (x.1 = .sch) || decide (x.1 = .flc)) = true := by simpa [hp] using ht
  simp only [readOnlyPage, type, Bool.true_and, Bool.not_eq_true', Bool.and_eq_false_iff, decide_eq_false_iff_not]
  exact hv

/-! Claims (R432) -/

section
variable {v : Nat}

theorem exec_claimWrite_take (hs : Tidy s) (hr : reaches s w p = true) (first : claimPage p = p) (free : (pageHdr s p).owner = .free)
    (hv : v % 8 = 2) :
    exec (.claimWrite w p v) s = .next (setPage p
      (setEvtBit bitClaimChange { accessed w (pageHdr s p) with owner := .pf, port := fnPort w }) (dropHalf w p s)) := by
  have unclaimed : (accessed w (pageHdr s p)).owner = .free := free
  have run : execClaimWrite w p v s = .next _ := rfl
  refine run.trans ?_
  simp [hr, first, hv, pageHdr_dropHalf hs, unclaimed]

/-- What the release of a page's claim leaves. -/
def claimReleased (w p : Nat) (s : State) : State :=
  modPage p (fun h => setEvtBit bitClaimChange { h with owner := .free, port := 0 }) (lockGroup p (dropHalf w p s))

theorem exec_claimWrite_release (hs : Tidy s) (hr : reaches s w p = true) (first : claimPage p = p)
    (holds : holdsPage s w p = true) (hv : v % 8 = 0) : exec (.claimWrite w p v) s = .next (claimReleased w p s) := by
  have run : execClaimWrite w p v s = .next _ := rfl
  refine run.trans ?_
  simp [hr, first, hv, holdsPage_dropHalf w p hs, holds, claimReleased]

theorem pageHdr_lockGroup (hs : Tidy s) (q : Nat) : pageHdr (lockGroup p s) q =
    if claimPage q = p then { pageHdr s q with unlocked := false } else pageHdr s q := by
  have locked := tget_tmap (d := Page.reset) (fun q h => if claimPage q = p then { h with unlocked := false } else h) q hs.pages
  refine locked.trans ?_
  unfold pageHdr tget
  cases tfind s.pages q with
  | none => simp [Page.reset]
  | some h => rfl

theorem tidy_lockGroup (hs : Tidy s) : Tidy (lockGroup p s) := (keeps_lockGroup p s (.refl s)).tidy hs

theorem pageHdr_claimReleased (hs : Tidy s) (first : claimPage p = p) :
    (pageHdr (claimReleased w p s) p).owner = .free ∧ (∀ q, claimPage q = p → (pageHdr (claimReleased w p s) q).unlocked = false) ∧
      (∀ q, claimPage q ≠ p → pageHdr (claimReleased w p s) q = pageHdr s q) := by
  have hl : Tidy (lockGroup p (dropHalf w p s)) := tidy_lockGroup (tidy_dropHalf hs)
  have same : pageHdr (claimReleased w p s) p = _ := pageHdr_modPage _ hl
  have other {q : Nat} (hq : q ≠ p) : pageHdr (claimReleased w p s) q = _ := hdrOnly_modPage _ hl q hq
  have locked := pageHdr_lockGroup (p := p) (tidy_dropHalf (w := w) (p := p) hs)
  refine ⟨by rw [same]; rfl, fun q hq => ?_, fun q hq => ?_⟩
  · by_cases here : q = p
    · rw [here, same, locked, if_pos first]
      rfl
    · rw [other here, locked, if_pos hq]
  · have there : q ≠ p := fun here => hq (here ▸ first)
    rw [other there, locked, if_neg hq, hdrOnly_dropHalf hs q there]

end

/-! Snapshots (R451) -/

/-- Entries of a table put into another one that lists none of their keys. -/
theorem tget_foldl_tput {α : Type} [DecidableEq α] {d : α} {lo : Nat} {l t : Tbl α} (hl : trising lo l = true) (ht : trising 0 t = true)
    (k : Nat) : tget d (l.foldl (fun t e => tput d t e.1 e.2) t) k = (tfind l k).getD (tget d t k) := by
  induction l generalizing lo t with
  | nil => rfl
  | cons e l ih =>
    simp only [trising, Bool.and_eq_true, decide_eq_true_eq] at hl
    obtain ⟨-, rest⟩ := hl
    rw [List.foldl_cons, ih rest (trising_tput _ _ ht (Nat.zero_le _))]
    by_cases here : k = e.1
    · have later : tfind l e.1 = none := tfind_below rest (by omega)
      simp [later, tfind, here, tget_tput_same _ _ ht]
    · rw [tget_tput_ne _ ht here]
      by_cases below : k < e.1
      · simp [tfind, here, below, tfind_below rest (show k < e.1 + 1 by omega)]
      · simp [tfind, here, below]

theorem tfind_tkeep {α : Type} {lo : Nat} {t : Tbl α} (p : Nat → Bool) (h : trising lo t = true) (k : Nat) :
    tfind (tkeep p t) k = if p k then tfind t k else none := by
  ext v
  rw [tkeep, tfind_iff (trising_filter _ h), List.mem_filter, ← tfind_iff h]
  cases p k <;> simp

theorem tget_takeSnapshot_snaps (hs : Tidy s) (k : Nat) : tget 0 (takeSnapshot p s).snaps k =
    if regKey p 0 ≤ k ∧ k < regKey p 0 + 4096 then tget 0 s.cnts k else tget 0 s.snaps k := by
  have mine : trising 0 (tkeep (fun k => decide (regKey p 0 ≤ k) && decide (k < regKey p 0 + 4096)) s.cnts) = true :=
    trising_filter _ (twf_trising hs.cnts)
  have kept : trising 0 (tkeep (fun k => decide (k < regKey p 0) || decide (regKey p 0 + 4096 ≤ k)) s.snaps) = true :=
    trising_filter _ (twf_trising hs.snaps)
  refine (tget_foldl_tput (d := 0) mine kept k).trans ?_
  rw [tget, tfind_tkeep _ (twf_trising hs.cnts), tfind_tkeep _ (twf_trising hs.snaps)]
  by_cases inside : regKey p 0 ≤ k ∧ k < regKey p 0 + 4096
  · have outside : ¬ (k < regKey p 0 ∨ regKey p 0 + 4096 ≤ k) := by omega
    simp [inside, outside, tget]
  · have outside : k < regKey p 0 ∨ regKey p 0 + 4096 ≤ k := by omega
    simp [inside, outside, tget]

theorem takeSnapshot_frame : takeSnapshot p s = { s with pages := (takeSnapshot p s).pages, snaps := (takeSnapshot p s).snaps } := rfl

theorem pageHdr_takeSnapshot (hs : Tidy s) : pageHdr (takeSnapshot p s) p = { pageHdr s p with seq := ((pageHdr s p).seq + 1) % 65536 } :=
  tget_tput_same _ _ (twf_trising hs.pages)

theorem hdrOnly_takeSnapshot (hs : Tidy s) : HdrOnly p s (takeSnapshot p s) := fun _ hq => tget_tput_ne _ (twf_trising hs.pages) hq

theorem exec_snap_of_reaches (hr : reaches s w p = true) : exec (.snap w p) s = .next (takeSnapshot p (dropHalf w p s)) := by
  have run : execSnap w p s = .next _ := rfl
  refine run.trans ?_
  simp [hr]

/-! Event bits (R447) -/

theorem exec_evtPendClear_owner (v : Nat) (hs : Tidy s) (ho : Owns s w p) (hro : readOnlyPage p 0x1C 0 = false) :
    exec (.evtPendClear w p v) s = .next (clearPend p v (dropHalf w p s)) := by
  have open_ : readOnlyPage p 0x1C (BitVec.ofNat 64 (v % 64)) = false := hro
  have access := pageWrite_header_of_owns hs ho open_ (.inr (.inl rfl))
  have low : bits (BitVec.ofNat 64 (v % 64)) 5 0 = v % 64 := by
    rw [bits, BitVec.toNat_ofNat]
    omega
  have clears : clearPend p (v % 64) (dropHalf w p s) = clearPend p v (dropHalf w p s) := by
    have bits6 : BitVec.ofNat 6 (v % 64) = BitVec.ofNat 6 v := by
      apply BitVec.eq_of_toNat_eq
      simp
    rw [clearPend, bits6, clearPend]
  refine congrArg Host.Outcome.next (access.trans ?_)
  rw [applyHeldWrite]
  simp [low, clears]

/-! The halves of a 64-bit register (R444) -/

section
variable {off n : Nat} {t : PageType} {d : RegDef}

/-- The low half that a writer leaves held. -/
def lowHeld (w p off : Nat) (lo : Word) (s : State) : State :=
  modPage p (fun h => { h with halves := h.halves ++ [{ fn := w, off := off, wide := false, value := lo }] }) (dropHalf w p s)

theorem tidy_lowHeld (lo : Word) (hs : Tidy s) : Tidy (lowHeld w p off lo s) := tidy_modPage _ (tidy_dropHalf hs)

theorem pageHdr_lowHeld (lo : Word) (hs : Tidy s) : pageHdr (lowHeld w p off lo s) p =
    { accessed w (pageHdr s p) with halves := (accessed w (pageHdr s p)).halves ++ [⟨w, off, false, lo⟩] } := by
  rw [lowHeld, pageHdr_modPage _ (tidy_dropHalf hs), pageHdr_dropHalf hs]

theorem owns_lowHeld (lo : Word) (hs : Tidy s) (ho : Owns s w p) : Owns (lowHeld w p off lo s) w p := by
  obtain ⟨hreach, hholds, hreset⟩ := ho
  refine ⟨hreach, ?_, ?_⟩
  · by_cases first : claimPage p = p
    · simpa only [holdsPage, first, pageHdr_lowHeld lo hs, accessed] using hholds
    · have other : pageHdr (lowHeld w p off lo s) (claimPage p) = pageHdr s (claimPage p) :=
        (hdrOnly_modPage _ (tidy_dropHalf hs) _ first).trans (hdrOnly_dropHalf hs _ first)
      simpa only [holdsPage, other] using hholds
  · rw [pageHdr_lowHeld lo hs]
    exact hreset

/-- The low half held last is the one that the writer's next access finds. -/
theorem heldHalf_lowHeld (lo : Word) (hs : Tidy s) : heldHalf (lowHeld w p off lo s) w p off = some lo := by
  have gone : ((pageHdr s p).halves.filter (fun x => decide (x.fn ≠ w))).find?
      (fun x => decide (x.fn = w) && decide (x.off = off)) = none := by
    rw [List.find?_eq_none]
    intro x hx
    have other : x.fn ≠ w := by simpa using (List.mem_filter.1 hx).2
    simp [other]
  rw [heldHalf, pageHdr_lowHeld lo hs]
  simp only [accessed, List.find?_append, gone]
  simp

/-- The next access drops the half, and leaves what an access leaves that found none. -/
theorem dropHalf_lowHeld (lo : Word) (hs : Tidy s) : dropHalf w p (lowHeld w p off lo s) = dropHalf w p s := by
  have rising := twf_trising hs.pages
  have header : accessed w (pageHdr (lowHeld w p off lo s) p) = accessed w (pageHdr s p) := by
    rw [pageHdr_lowHeld lo hs]
    simp [accessed, List.filter_append]
  have table : (dropHalf w p (lowHeld w p off lo s)).pages = tput Page.reset s.pages p (accessed w (pageHdr s p)) := by
    rw [← header]
    exact (tput_tput _ _ (trising_tput _ _ rising (Nat.zero_le _))).trans (tput_tput _ _ rising)
  have frame : dropHalf w p (lowHeld w p off lo s) = { s with pages := (dropHalf w p (lowHeld w p off lo s)).pages } := rfl
  rw [frame, table]
  rfl

theorem exec_registerWrite_low {lo : Word} (hs : Tidy s) (ho : Owns s w p) (hp : pageOf p = some (t, n))
    (hr : regAt p off = some (d, off)) (wide : d.wide = true) (hal : off % 8 = 0) (hlo : 0x40 ≤ off) (hhi : off < 0x400)
    (hrow : headerRow p off = false) (hhiu : t ≠ .hiu) (hro : ∀ o v, readOnlyPage p o v = false) (small : lo.toNat < 2 ^ 32) :
    exec (.registerWrite w p off false lo) s = .next (lowHeld w p off lo s) := by
  have aligned : alignedAccess off false = true := by simp [alignedAccess]; omega
  have basic : ¬ 0x400 ≤ off := by omega
  have low : BitVec.ofNat 64 (bits lo 31 0) = lo := by
    apply BitVec.eq_of_toNat_eq
    rw [BitVec.toNat_ofNat, bits]
    omega
  rw [exec_registerWrite_of_reaches lo ho.1 hrow hhi aligned, pageWrite_of_owns hs ho (hro _ _) hlo hrow]
  simp [applyAccess, accessReg, basic, target_basic hp hr hlo hhi hhiu, wide, low, lowHeld]

theorem target_basic_high (hp : pageOf p = some (t, n)) (hr : regAt p (off + 4) = some (d, off)) (hlo : 0x40 ≤ off) (hhi : off < 0x400)
    (ht : t ≠ .hiu) : target w p false (off + 4) = some ⟨off, d.wide, writeBasic w p t n d off⟩ := by
  have mask : off + 4 ≠ 0x18 := by omega
  have basic : ¬ 0x400 ≤ off := by omega
  simp [target, hp, hr, ht, mask, basic]

theorem exec_registerWrite_high {hi lo : Word} (hs : Tidy s) (ho : Owns s w p) (hp : pageOf p = some (t, n))
    (hr : regAt p (off + 4) = some (d, off)) (wide : d.wide = true) (hal : off % 8 = 0) (hlo : 0x40 ≤ off) (hhi : off < 0x400)
    (hrow : headerRow p (off + 4) = false) (hhiu : t ≠ .hiu) (hro : ∀ o v, readOnlyPage p o v = false) (small : hi.toNat < 2 ^ 32)
    (held : heldHalf s w p off = some lo) :
    exec (.registerWrite w p (off + 4) false hi) s = .next (writeBasic w p t n d off (lo + hi <<< 32) (dropHalf w p s)) := by
  have aligned : alignedAccess (off + 4) false = true := by simp [alignedAccess]; omega
  have basic : ¬ 0x400 ≤ off + 4 := by omega
  have low : BitVec.ofNat 64 (bits hi 31 0) = hi := by
    apply BitVec.eq_of_toNat_eq
    rw [BitVec.toNat_ofNat, bits]
    omega
  have high : BitVec.ofNat 64 (hi.toNat * 2 ^ 32) = hi <<< 32 := by
    apply BitVec.eq_of_toNat_eq
    simp [Nat.shiftLeft_eq]
  rw [exec_registerWrite_of_reaches hi ho.1 hrow (by omega) aligned, pageWrite_of_owns hs ho (hro _ _) (by omega) hrow]
  have other : off + 4 ≠ off := by omega
  simp [applyAccess, accessReg, basic, target_basic_high hp hr hlo hhi hhiu, wide, low, held, ← high]

/-- Only pages of the T1 and flash channels take no writes, and those of the T1 channels have no 64-bit register. -/
theorem takesWrites_of_wide (hp : pageOf p = some (t, n)) (hr : regAt p off = some (d, off)) (wide : d.wide = true) (flc : t ≠ .flc)
    (o : Nat) (v : Word) : readOnlyPage p o v = false := by
  have narrow : ∀ r ∈ regsOf .sch, r.wide = false := by decide
  refine readOnlyPage_of_pageOf hp (fun sch => ?_) flc
  have listed := mem_regsOf_of_regAt hp hr
  rw [sch] at listed
  simp [narrow d listed] at wide

end

end
end Sys2Proof.Machine

open Sys2Proof Sys2Proof.Machine

/-- Settles O11: every one of the commands is an access that the owner rule refuses. -/
theorem foreignWritesAreCounted : Obligations.ForeignWritesAreCounted := by
  unfold Obligations.ForeignWritesAreCounted
  intro s w p off key wide on v hs hr hrow hoff aligned
  have write (hx : holdsPage s w p = false ∨ readOnlyPage p off v = true) :
      exec (.registerWrite w p off wide v) s = .next (ignored w p s) := by
    rw [exec_registerWrite_of_reaches v hr hrow hoff aligned, pageWrite_of_refused hs hr hx]
  have access (o : Nat) (x : Word) (hx : holdsPage s w p = false ∨ readOnlyPage p o x = true) :
      pageWrite w p o false x s = ignored w p s := pageWrite_of_refused hs hr hx
  refine ⟨ignored w p s, rfl, hdrOnly_ignored hs, pageHdr_ignored hs, fun other => ?_, fun t n hp ht => ?_⟩
  · exact ⟨write (.inl other), congrArg _ (access _ _ (.inl other)), congrArg _ (access _ _ (.inl other)),
      congrArg _ (ownedWrite_of_foreign _ hs hr other), congrArg _ (access _ _ (.inl other)), congrArg _ (access _ _ (.inl other))⟩
  · have refused (o : Nat) (x : Word) (hx : o ≠ 0x0C ∨ bitOf x 0 = false) := access o x (.inr (readOnlyPage_of_channel hp ht hx))
    exact ⟨fun ho => write (.inr (readOnlyPage_of_channel hp ht (.inl ho))),
      congrArg _ (refused _ _ (.inr (bitOf_unitCtrl_zero key (by decide)))),
      congrArg _ (refused _ _ (.inr (bitOf_unitCtrl_zero 0 (by decide)))),
      congrArg _ (refused _ _ (.inr (bitOf_enable_zero on))), congrArg _ (refused _ _ (.inl (by decide)))⟩
/-- Settles O13: claims and their release act on the headers of the page's group, a snapshot on the page's counters, EVT_PEND on
the header. -/
theorem pageHeaderCommands : Obligations.PageHeaderCommands := by
  unfold Obligations.PageHeaderCommands
  intro s w p v hs hr
  have hd : Tidy (dropHalf w p s) := tidy_dropHalf hs
  refine ⟨fun first free hv => ?claim, fun first holds hv => ?release, ?snap, fun owns hro => ?pend⟩
  case claim =>
    exact ⟨_, exec_claimWrite_take hs hr first free hv, hdrOnly_trans (hdrOnly_dropHalf hs) fun q hq => pageHdr_setPage_ne _ _ hd hq,
      rfl, pageHdr_setPage _ _ hd⟩
  case release =>
    exact ⟨_, exec_claimWrite_release hs hr first holds hv, rfl, pageHdr_claimReleased hs first⟩
  case snap =>
    refine ⟨_, exec_snap_of_reaches hr, hdrOnly_trans (hdrOnly_dropHalf hs) (hdrOnly_takeSnapshot hd), rfl, ?_, ?_, ?_⟩
    · rw [pageHdr_takeSnapshot hd, pageHdr_dropHalf hs]
      rfl
    · intro off ho
      rw [tget_takeSnapshot_snaps hd, if_pos (by unfold regKey; omega)]
      rfl
    · intro k hk
      rw [tget_takeSnapshot_snaps hd, if_neg (by omega)]
      rfl
  case pend =>
    refine ⟨_, exec_evtPendClear_owner v hs owns hro, hdrOnly_trans (hdrOnly_dropHalf hs) (hdrOnly_modPage _ hd), rfl, ?_⟩
    rw [clearPend, pageHdr_modPage _ hd, pageHdr_dropHalf hs]
    rfl
/-- Settles O9: the low half is held in the page's header, where the high half finds it and drops it again. -/
theorem wideRegisterInHalves : Obligations.WideRegisterInHalves := by
  unfold Obligations.WideRegisterInHalves
  intro s w p off n t d lo hi hs ho hp hr wide hal hlo hhi hrow hrow4 hr4 ht small_lo small_hi
  simp only [List.mem_cons, List.not_mem_nil, or_false, not_or] at ht
  obtain ⟨hhiu, hflc⟩ := ht
  have hro := takesWrites_of_wide hp hr wide hflc
  have hsch : t ≠ .sch := by
    rintro rfl
    simpa [readOnlyPage, hp] using hro 0 0
  have hu : Tidy (lowHeld w p off lo s) := tidy_lowHeld lo hs
  have low := exec_registerWrite_low hs ho hp hr wide hal hlo hhi hrow hhiu hro small_lo
  have high := exec_registerWrite_high hu (owns_lowHeld lo hs ho) hp hr4 wide hal hlo hhi hrow4 hhiu hro small_hi
    (heldHalf_lowHeld lo hs)
  have whole := exec_registerWrite_owner (lo + hi <<< 32) hs ho hp hr hal hlo hhi hrow hhiu hsch hflc
  rw [dropHalf_lowHeld lo hs] at high
  rw [wide, written, if_pos wide] at whole
  exact ⟨_, _, low, fun _ _ => rfl, pageHdr_lowHeld lo hs, rfl, high, whole⟩
end

section
/-! PROOFS. Steps (O1, O2): the front of the queue, and the nanosecond that passes on an empty one. -/

set_option Elab.async false

namespace Sys2Proof.Machine

section
variable {s t u : State}

/-- What one nanosecond changes beside the time: counters and the lag of icing. -/
def LagOnly (s t : State) : Prop := t = { s with cnts := t.cnts, ice := t.ice }

theorem LagOnly.trans (h : LagOnly s t) (k : LagOnly t u) : LagOnly s u := by
  refine Eq.trans k ?_
  rw [h]

theorem lagOnly_countWhile (on : Bool) (p off : Nat) : LagOnly s (countWhile on p off s) := by
  unfold countWhile
  split <;> rfl

theorem lagOnly_tickCtrl (c : Nat) : LagOnly s (tickCtrl s c) := (lagOnly_countWhile _ _ _).trans (lagOnly_countWhile _ _ _)

theorem lagOnly_tickPower : LagOnly s (tickPower s) :=
  (((lagOnly_countWhile _ _ _).trans (lagOnly_countWhile _ _ _)).trans (lagOnly_countWhile _ _ _)).trans (lagOnly_countWhile _ _ _)

theorem lagOnly_tickCtrls (l : List Nat) : LagOnly s (l.foldl tickCtrl s) :=
  List.foldlRecOn l tickCtrl (motive := LagOnly s) rfl fun _ h c _ => h.trans (lagOnly_tickCtrl c)

theorem lagOnly_tickCounters : LagOnly s (tickCounters s) :=
  ((((lagOnly_tickCtrls _).trans lagOnly_tickPower).trans (lagOnly_countWhile _ _ _)).trans (lagOnly_countWhile _ _ _)).trans
    (lagOnly_countWhile _ _ _)

theorem lagOnly_settleLag (k : Tier) : LagOnly s (settleLag k s) := by
  unfold settleLag setPatrol
  dsimp only
  split
  · rfl
  · split <;> rfl

/-- While nothing is lost, a nanosecond moves the time base, counters and the lag of icing (R332). -/
theorem tick_of_running (running : s.boot.halted = false) (kept : ¬ (awake s = true ∧ s.sram.lost = true)) :
    LagOnly (tickTime s) (tick s) := by
  have sound : (awake s && s.sram.lost) = false := by simpa using kept
  rw [tick, running, sound]
  simp only [Bool.false_eq_true, if_false]
  split
  · exact (((lagOnly_settleLag .t3).trans (lagOnly_settleLag .t2)).trans (lagOnly_settleLag .t1)).trans lagOnly_tickCounters
  · rfl

/-- A device that runs and has lost an entry of the map or of a control table is taken over (R192). -/
theorem tick_of_lost (running : awake s = true) (lost : s.sram.lost = true) : tick s = takeover 3 s := by
  have powered : s.boot.halted = false := by simp [awake] at running; exact running.2
  simp [tick, powered, running, lost]

end
end Sys2Proof.Machine

open Sys2Proof Sys2Proof.Machine

/-- Settles O1: a step on a queue with a front takes the second arm. -/
theorem stepRunsFrontCommand : Obligations.StepRunsFrontCommand := by
  unfold Obligations.StepRunsFrontCommand
  intro c rest s front
  rw [step, front]

/-- Settles O2: the device stands still, is taken over, or has its time base moved on with counters and icing settled. -/
theorem stepOnEmptyQueueTicks : Obligations.StepOnEmptyQueueTicks := by
  unfold Obligations.StepOnEmptyQueueTicks
  intro s empty
  have ticks : step s = .next (tick s) := by rw [step, empty]
  have pending : (tick s).pending = [] := (keeps_tick s (.refl s)).pending.trans empty
  refine ⟨tick s, ticks, pending, ?_⟩
  by_cases loses : awake s = true ∧ s.sram.lost = true
  · obtain ⟨running, lost⟩ := loses
    have watch : s.sss.state = .watch := by simp [awake] at running; exact running.1
    have taken := takenOver 3 watch
    rw [tick_of_lost running lost]
    exact ⟨taken.takeoverOnly.mem, fun kept => absurd ⟨running, lost⟩ kept,
      fun _ _ => ⟨taken.cause_eq, taken.not_watch, taken.takeoverOnly.now⟩⟩
  · cases halted : s.boot.halted with
    | true =>
      have still : tick s = s := by simp [tick, halted]
      rw [still]
      exact ⟨rfl, fun _ => ⟨rfl, by simp⟩, fun running lost => absurd ⟨running, lost⟩ loses⟩
    | false =>
      have moved := tick_of_running halted loses
      refine ⟨congrArg (·.mem) moved, fun _ => ⟨congrArg (·.sent) moved, (congrArg (·.now) moved).trans ?_⟩,
        fun running lost => absurd ⟨running, lost⟩ loses⟩
      simp [tickTime]
end

section
/-! PROOFS. Pace, voltage, power and temperature, and the bandwidth regulator (O44). -/

set_option Elab.async false

namespace Sys2Proof.Machine

section
variable {s t u : State}

theorem awake_iff : Awake s ↔ s.sss.state = .watch ∧ s.boot.halted = false := by
  simp [Awake, awake]

/-- A command that acts while the device runs answers what it does. -/
theorem next_whenAwake (hw : Awake s) (f : State → State) :
    (Host.Outcome.next (whenAwake s f) : Host.Outcome State Fault Refusal) = .next (f s) := by
  rw [whenAwake_of_awake hw]

/-- A command that acts while the device has power answers what it does. -/
theorem next_whenPowered (hw : Awake s) (f : State → State) :
    (Host.Outcome.next (whenPowered s f) : Host.Outcome State Fault Refusal) = .next (f s) := by
  rw [whenPowered_of_awake hw]

theorem settleLoads_of_none (loads : s.rcp.loads = []) (arms : s.rcp.arms = []) : settleLoads s = s := by
  have rcp : { s.rcp with loads := [], arms := [] } = s.rcp := by rw [← loads, ← arms]
  unfold settleLoads
  split
  · rfl
  · simp only [loads, arms, List.foldl_nil, rcp]

theorem crossed_iff (a b c : Nat) : ((decide (a < c) != decide (b < c)) = true) ↔ ¬(a < c ↔ b < c) := by
  by_cases h : a < c <;> by_cases k : b < c <;> simp [h, k]

theorem exec_paceSample_of_idle (hw : Awake s) {r : PaceReading} (least : r.least < 65536) (sensor : r.sensor < 64)
    (mean : r.mean < 65536) (loads : s.rcp.loads = []) (arms : s.rcp.arms = []) :
    exec (.paceSample r) s = .next { s with ppm := { s.ppm with
      paceMin := r.least, minSensor := r.sensor, paceMean := r.mean,
      paceSince := if s.ppm.paceMin < s.ppm.floorMbeat ↔ r.least < s.ppm.floorMbeat then s.ppm.paceSince else s.now } } := by
  refine congrArg Host.Outcome.next ((whenPowered_of_awake hw _).trans ?_)
  refine (whenAwake_of_awake ?_ _).trans ((settleLoads_of_none ?_ ?_).trans ?_)
  · exact hw
  · exact loads
  · exact arms
  · simp only [Nat.mod_eq_of_lt least, Nat.mod_eq_of_lt sensor, Nat.mod_eq_of_lt mean, crossed_iff, ite_not]

theorem exec_paceShortfall_of_due (hw : Awake s) (loud : idleDropped s = false)
    (differs : s.ppm.shortfall = decide (s.ppm.floorMbeat ≤ s.ppm.paceMin)) (late : s.ppm.paceSince + 10000 ≤ s.now) :
    ∃ detail, exec .paceShortfall s = .next (raise Pg.ppm .paceShortfall .corrected 0 noCtx 0 detail pfs false
      { s with ppm := { s.ppm with shortfall := !s.ppm.shortfall } }) := by
  have low : decide (s.ppm.paceMin < s.ppm.floorMbeat) = !s.ppm.shortfall := by
    rw [differs, ← decide_not, decide_eq_decide, Nat.not_le]
  have early : decide (s.now < s.ppm.paceSince + 10000) = false := by simpa using late
  refine ⟨place (boolNat (!s.ppm.shortfall)) 16 1 + place s.ppm.paceMin 0 16,
    congrArg Host.Outcome.next ((whenAwake_of_awake hw _).trans ?_)⟩
  dsimp only
  rw [low, early, loud, if_neg]
  cases s.ppm.shortfall <;> simp

/-! Voltage (R250, R252) -/

/-- What VOLTAGE_STEP asks the regulator for. -/
def nextRequest (s : State) : Nat :=
  max (fld s Pg.ppm 0x400 51 41) (min (fld s Pg.ppm 0x400 62 52) (nextVolt s).1)

theorem exec_voltageStep_of_due (hw : Awake s) (sound : s.ppm.avsFault = false)
    (due : s.ppm.lastStep + 1000 * fld s Pg.ppm 0x408 6 0 ≤ s.now) :
    ∃ u, exec .voltageStep s = .next u ∧ u = { s with
      ppm := { s.ppm with vreq := nextRequest s, lastStep := s.now }
      cnts := u.cnts
      sent := s.sent ++ [.voltage (nextRequest s)] } := by
  have early : decide (s.now < s.ppm.lastStep + 1000 * fld s Pg.ppm 0x408 6 0) = false := by simpa using due
  refine ⟨_, next_whenPowered hw _, ?_⟩
  rw [if_neg (by simp [sound, early])]
  simp only [nextRequest]
  cases (nextVolt s).2 <;> rfl

theorem nextRequest_bounds (bounds : fld s Pg.ppm 0x400 51 41 ≤ fld s Pg.ppm 0x400 62 52) :
    fld s Pg.ppm 0x400 51 41 ≤ nextRequest s ∧ nextRequest s ≤ fld s Pg.ppm 0x400 62 52 :=
  ⟨Nat.le_max_left .., Nat.max_le.2 ⟨bounds, Nat.min_le_left ..⟩⟩

theorem nextRequest_below_floor (cool : s.ppm.tj < fld s Pg.ppm 0x408 31 24) (loud : idleDropped s = false)
    (low : s.ppm.paceMin < floorTarget s) :
    nextRequest s = max (fld s Pg.ppm 0x400 51 41)
      (min (s.ppm.vreq + fld s Pg.ppm 0x400 16 12) (fld s Pg.ppm 0x400 62 52)) := by
  have up : (nextVolt s).1 = min (s.ppm.vreq + fld s Pg.ppm 0x400 16 12) (fld s Pg.ppm 0x400 62 52) := by
    simp [nextVolt, loud, low, Nat.not_le.2 cool]
  rw [nextRequest, up, Nat.min_eq_right (Nat.min_le_right ..)]

/-! Power (R251, R255, R256) -/

/-- Nothing but the settled state of power, event reports and claims differs. -/
def PowerSettled (s t : State) : Prop :=
  t = { s with
    ppm := { s.ppm with
      avsFault := t.ppm.avsFault
      envExceeded := t.ppm.envExceeded
      envFired := t.ppm.envFired
      envCmp := t.ppm.envCmp
      envSamples := t.ppm.envSamples }
    router := t.router
    pages := t.pages
    tmx := t.tmx }

theorem PowerSettled.refl (s : State) : PowerSettled s s := rfl

theorem PowerSettled.trans (h : PowerSettled s t) (k : PowerSettled t u) : PowerSettled s u := by
  unfold PowerSettled at h k ⊢
  rw [h] at k
  exact k

theorem powerSettled_whenAwake {f : State → State} (h : PowerSettled s (f s)) : PowerSettled s (whenAwake s f) := by
  unfold whenAwake
  split
  · exact h
  · exact .refl s

theorem powerSettled_settleAvs (s : State) : PowerSettled s (settleAvs s) := by
  unfold settleAvs
  split
  · rfl
  · exact .trans (t := { s with ppm := { s.ppm with avsFault := true } }) rfl (powerSettled_whenAwake rfl)

theorem powerSettled_settleExceeded (s : State) : PowerSettled s (settleExceeded s) := by
  unfold settleExceeded
  dsimp only
  split
  · exact .trans (t := { s with ppm := { s.ppm with envExceeded := true } }) rfl (powerSettled_whenAwake rfl)
  · split
    · exact .trans (t := { s with ppm := { s.ppm with envExceeded := false } }) rfl (powerSettled_whenAwake rfl)
    · rfl

theorem powerSettled_settleEnvelope (s : State) : PowerSettled s (settleEnvelope s) := by
  unfold settleEnvelope
  dsimp only
  split
  · rfl
  · split
    · cases s.ppm.envCmp <;> rfl
    · rfl

/-- The readings of an answered sample. -/
def sampled (r : PowerReading) (s : State) : State :=
  { s with ppm := { s.ppm with
    senseMv := r.senseMv
    watts := r.watts
    window := r.watts :: s.ppm.window.take 999
    unanswered := 0
    offRun := if decide (s.ppm.vreq + 15 < r.senseMv) || decide (r.senseMv + 15 < s.ppm.vreq) then s.ppm.offRun + 1 else 0 } }

theorem exec_powerSample_of_answered (hw : Awake s) {r : PowerReading} (answered : r.answered = true) :
    ∃ u, exec (.powerSample r) s = .next u ∧ PowerSettled (sampled r s) u := by
  refine ⟨_, next_whenPowered hw _, ?_⟩
  rw [if_neg (by simp [answered])]
  exact .trans ((powerSettled_settleAvs _).trans (powerSettled_settleExceeded _))
    (powerSettled_whenAwake (powerSettled_settleEnvelope _))

theorem exec_powerSample_of_third_silence (hw : Awake s) {r : PowerReading} (silent : r.answered = false)
    (third : s.ppm.unanswered = 2) :
    ∃ u, exec (.powerSample r) s = .next u ∧ u.ppm = { s.ppm with unanswered := 3, avsFault := u.ppm.avsFault } ∧
      u.ppm.avsFault = true ∧ u.mem = s.mem := by
  refine ⟨_, next_whenPowered hw _, ?_⟩
  rw [if_pos (by simp [silent]), third]
  unfold settleAvs whenAwake
  split
  case isTrue h =>
    refine ⟨rfl, ?_, rfl⟩
    simpa using h
  · split <;> exact ⟨rfl, rfl, rfl⟩

/-! Temperature (R257, R258) -/

theorem whenAwake_raise (p : Nat) (code : Status) (sev : Sev) (cause ctx block detail : Nat) (dests : List Nat)
    (integrity : Bool) (s : State) :
    whenAwake s (raise p code sev cause ctx block detail dests integrity) = { s with
      router := (whenAwake s (raise p code sev cause ctx block detail dests integrity)).router
      pages := (whenAwake s (raise p code sev cause ctx block detail dests integrity)).pages } := by
  unfold whenAwake
  split <;> rfl

theorem withPins_frame (f : State → State) (s : State) : withPins f s = { f s with sent := (withPins f s).sent } := by
  unfold withPins
  dsimp only
  split <;> rfl

theorem exec_thermalCheck_of_awake (hw : Awake s) {tj sensor top : Nat} (htj : tj < 256) (hsensor : sensor < 256)
    (htop : top < 256) :
    ∃ u, exec (.thermalCheck tj sensor top) s = .next u ∧ u.ppm = { s.ppm with
        tj := tj, sensor := sensor, stackMax := top
        warn := thermalAction s.ppm.warn tj (fld s Pg.ppm 0x408 23 16)
        hot := thermalAction s.ppm.hot tj 105
        stop := thermalAction s.ppm.stop tj (fld s Pg.ppm 0x408 31 24)
        ceil := u.ppm.ceil
        lastCeil := u.ppm.lastCeil } ∧
      u.mem = s.mem ∧ u.rcp = s.rcp := by
  refine ⟨_, next_whenPowered hw _, ?_⟩
  rw [withPins_frame]
  dsimp only
  rw [Nat.mod_eq_of_lt htj, Nat.mod_eq_of_lt hsensor, Nat.mod_eq_of_lt htop]
  split
  · rw [whenAwake_raise]
    exact ⟨rfl, rfl, rfl⟩
  · exact ⟨rfl, rfl, rfl⟩

theorem exec_ceilingStep_of_due (hw : Awake s) (warn : s.ppm.warn = true) (due : s.ppm.lastCeil + 1000000 ≤ s.now) :
    exec .ceilingStep s = .next { s with ppm := { s.ppm with
      lastCeil := s.now
      ceil := min s.ppm.ceil (max (s.ppm.ceil - 10) (Config.floorVoltage (floorTarget s) s.ppm.tj)) } } := by
  have early : decide (s.now < s.ppm.lastCeil + 1000000) = false := by simpa using due
  refine (next_whenPowered hw _).trans ?_
  rw [if_neg (by simp [warn, early])]

theorem exec_comparatorFire_envelope (hw : Awake s) {n t : Nat} (hn : n < 16) (armed : tget none s.ftb.cmps n = some t)
    (due : t ≤ s.now) (user : (claimOf s n).user = .ppmEnvelope) (own : s.ppm.envCmp = some n) :
    exec (.comparatorFire n) s = .next { s with
      ftb := { s.ftb with cmps := tput none s.ftb.cmps n none }
      ppm := { s.ppm with envFired := true, envSamples := 0, envelope := s.ppm.envNext } } := by
  refine (next_whenAwake hw _).trans ?_
  simp [armed, due, user, own, Nat.not_le.2 hn]

/-! A window of the regulator (R241 – R244) -/

/-- Nothing but the windows of the regulator and counters differs. -/
def WindowsOnly (s t : State) : Prop := t = { s with bwr := { s.bwr with wins := t.bwr.wins }, cnts := t.cnts }

theorem WindowsOnly.refl (s : State) : WindowsOnly s s := rfl

theorem WindowsOnly.trans (h : WindowsOnly s t) (k : WindowsOnly t u) : WindowsOnly s u := by
  unfold WindowsOnly at h k ⊢
  rw [h] at k
  exact k

/-- The window that begins for one master of a controller. -/
def nextWindow (tr : Traffic) (rest : Nat) (s : State) (m : Nat) : MasterWin :=
  let w := winAt s tr.ctrl m
  let bytes := tr.moved.getD m 0
  let grant := masterGuarantee s m tr.ctrl + remainderShare s tr.waited rest m
  let isOver := decide (fld s Pg.bwr 0x400 23 16 < tr.queuePct) && decide (w.grant * windowNs s / 1000 < bytes)
  let empty := decide (w.tokens ≤ bytes) && tr.waited.getD m false
  { throttled := if heldAtPort m then empty else isOver
    grant := grant
    tokens := if heldAtPort m then min (grant * 1024 / 1000) (w.tokens - bytes + grant * windowNs s / 1000) else 0
    last16 := bytes :: w.last16.take 15 }

theorem masterWindow_frame (tr : Traffic) (rest : Nat) (s0 : State) (m : Nat) (s : State) :
    WindowsOnly s (masterWindow tr rest s0 m s) ∧ (masterWindow tr rest s0 m s).bwr.wins =
      tput MasterWin.reset s.bwr.wins (masterKey tr.ctrl m) (nextWindow tr rest s0 m) := by
  unfold masterWindow nextWindow
  cases held : heldAtPort m
  · simp only [Bool.false_eq_true, if_false]
    split
    · exact ⟨rfl, rfl⟩
    · split <;> exact ⟨rfl, rfl⟩
  · simp only [if_true]
    split <;> exact ⟨rfl, rfl⟩

theorem windowsOnly_masters (tr : Traffic) (rest : Nat) (s0 : State) (l : List Nat) (s : State) :
    WindowsOnly s (l.foldl (fun t m => masterWindow tr rest s0 m t) s) := by
  induction l generalizing s with
  | nil => exact .refl s
  | cons m l ih => exact .trans (masterWindow_frame tr rest s0 m s).1 (ih _)

theorem wins_masters (tr : Traffic) (rest : Nat) (s0 : State) (l : List Nat) (s : State) :
    (l.foldl (fun t m => masterWindow tr rest s0 m t) s).bwr.wins =
      l.foldl (fun w m => tput MasterWin.reset w (masterKey tr.ctrl m) (nextWindow tr rest s0 m)) s.bwr.wins := by
  induction l generalizing s with
  | nil => rfl
  | cons m l ih => rw [List.foldl_cons, ih, (masterWindow_frame tr rest s0 m s).2]; rfl


theorem masterKey_inj {c m k : Nat} : masterKey c m = masterKey c k ↔ m = k := by
  unfold masterKey
  omega

/-- After windows were put for each master of a list, a listed master has its own, and any other key reads as before. -/
theorem tget_putWindows {c : Nat} {f : Nat → MasterWin} {l : List Nat} {w : Tbl MasterWin} (rise : trising 0 w = true) :
    (∀ m ∈ l, tget MasterWin.reset (l.foldl (fun w m => tput MasterWin.reset w (masterKey c m) (f m)) w) (masterKey c m) = f m) ∧
    ∀ k, (∀ m ∈ l, masterKey c m ≠ k) →
      tget MasterWin.reset (l.foldl (fun w m => tput MasterWin.reset w (masterKey c m) (f m)) w) k = tget MasterWin.reset w k := by
  induction l generalizing w with
  | nil => exact ⟨nofun, fun _ _ => rfl⟩
  | cons a l ih =>
    obtain ⟨inside, outside⟩ := ih (w := tput MasterWin.reset w (masterKey c a) (f a)) (trising_tput _ _ rise (Nat.zero_le _))
    refine ⟨fun m hm => ?_, fun k hk => ?_⟩
    · rcases Decidable.em (m ∈ l) with later | first
      · exact inside m later
      · obtain rfl : m = a := (List.mem_cons.1 hm).resolve_right first
        rw [List.foldl_cons, outside _ fun b hb e => first (by rwa [← masterKey_inj.1 e]), tget_tput_same _ _ rise]
    · rw [List.foldl_cons, outside k fun b hb => hk b (List.mem_cons_of_mem _ hb),
        tget_tput_ne _ rise (hk a List.mem_cons_self).symm]

theorem masterKey_ne {c k m n : Nat} (hc : c ≠ k) (hm : m < 32) (hn : n < 32) : masterKey k n ≠ masterKey c m := by
  unfold masterKey
  omega

/-- What is left of a window's traffic beyond the guarantees of the masters that wait. -/
def windowRest (tr : Traffic) (s : State) : Nat :=
  listSum tr.moved * 1000 / windowNs s -
    listSum ((masters.filter (fun m => tr.waited.getD m false)).map (fun m => masterGuarantee s m tr.ctrl))

theorem exec_bwrWindow_of_awake (hw : Awake s) {tr : Traffic} (hc : tr.ctrl < 25) (rise : trising 0 s.bwr.wins = true) :
    ∃ u, exec (.bwrWindow tr) s = .next u ∧ WindowsOnly s u ∧
      (∀ m ∈ masters, winAt u tr.ctrl m = nextWindow tr (windowRest tr s) s m) ∧
      ∀ c m, c ≠ tr.ctrl → m < 32 → winAt u c m = winAt s c m := by
  refine ⟨_, next_whenAwake hw _, ?_⟩
  rw [if_neg (Nat.not_le.2 hc)]
  obtain ⟨inside, outside⟩ := tget_putWindows (c := tr.ctrl) (f := nextWindow tr (windowRest tr s) s) (l := masters) rise
  have wins := wins_masters tr (windowRest tr s) s masters s
  refine ⟨windowsOnly_masters tr (windowRest tr s) s masters s, fun m hm => ?_, fun c m other hm => ?_⟩
  · exact (congrArg (tget MasterWin.reset · (masterKey tr.ctrl m)) wins).trans (inside m hm)
  · refine (congrArg (tget MasterWin.reset · (masterKey c m)) wins).trans (outside _ fun k hk => masterKey_ne other hm ?_)
    exact Nat.lt_of_lt_of_le (List.mem_range.1 hk) (by decide)

end
end Sys2Proof.Machine

open Sys2Proof Sys2Proof.Machine

/-- Settles O44: each command by the equation of what it does while the device runs; the thermal trip by what a takeover does. -/
theorem regulatorPaceAndPower : Obligations.RegulatorPaceAndPower := by
  unfold Obligations.RegulatorPaceAndPower
  refine ⟨fun s hw => ⟨fun r least sensor mean loads arms =>
        ⟨_, exec_paceSample_of_idle hw least sensor mean loads arms, rfl⟩, fun loud differs late => ?_,
      fun sound bounds due => ?_, fun r answered => ?_, fun r silent third => ?_⟩,
    fun s hw => ⟨fun tj sensor top htj hsensor htop => ?_, fun warn due => ?_, ?_, fun n t hn armed due user own => ?_⟩,
    fun s tr hw rise hc => ?_⟩
  · obtain ⟨detail, run⟩ := exec_paceShortfall_of_due hw loud differs late
    exact ⟨_, _, run, rfl, rfl, rfl, rfl, rfl⟩
  · obtain ⟨u, run, frame⟩ := exec_voltageStep_of_due hw sound due
    obtain ⟨lower, upper⟩ := nextRequest_bounds bounds
    have vreq : u.ppm.vreq = nextRequest s := congrArg (·.ppm.vreq) frame
    have sent : u.sent = s.sent ++ [.voltage (nextRequest s)] := congrArg (·.sent) frame
    rw [← vreq] at lower upper sent frame
    exact ⟨u, run, by rw [sent]; exact frame, lower, upper, sent,
      fun cool loud low => vreq.trans (nextRequest_below_floor cool loud low)⟩
  · obtain ⟨u, run, frame⟩ := exec_powerSample_of_answered hw answered
    unfold PowerSettled at frame
    rw [frame] at run
    exact ⟨_, run, rfl, rfl, rfl, rfl, rfl, rfl⟩
  · obtain ⟨u, run, ppm, fault, mem⟩ := exec_powerSample_of_third_silence hw silent third
    exact ⟨u, run, congrArg (·.unanswered) ppm, fault, congrArg (·.watts) ppm, mem⟩
  · obtain ⟨u, run, ppm, mem, rcp⟩ := exec_thermalCheck_of_awake hw htj hsensor htop
    exact ⟨u, run, congrArg (·.tj) ppm, congrArg (·.sensor) ppm, congrArg (·.stackMax) ppm, congrArg (·.warn) ppm,
      congrArg (·.hot) ppm, congrArg (·.stop) ppm, mem, rcp⟩
  · exact ⟨_, exec_ceilingStep_of_due hw warn due, rfl, Nat.min_le_left .., fun floor =>
      (congrArg (min s.ppm.ceil) (Nat.max_eq_left floor)).trans (Nat.min_eq_right (Nat.sub_le ..))⟩
  · obtain ⟨watch, powered⟩ := awake_iff.1 hw
    have tripped : exec .thermalTrip s = .next (takeover 4 s) :=
      congrArg Host.Outcome.next (if_neg (by simp [powered]))
    have safe := takenOver 4 watch
    have frame := safe.takeoverOnly
    exact ⟨_, tripped, safe.cause_eq, safe.fault, safe.state_eq, frame.mem, frame.ple⟩
  · exact ⟨_, exec_comparatorFire_envelope hw hn armed due user own, rfl⟩
  · obtain ⟨u, run, frame, inside, outside⟩ := exec_bwrWindow_of_awake hw hc rise
    exact ⟨u, run, frame, fun m hm => ⟨congrArg (·.grant) (inside m hm), congrArg (·.last16) (inside m hm)⟩, outside⟩
end

section
/-! PROOFS. Shared claims, the test multiplexer, the trace and the test port (O60). -/

set_option Elab.async false

namespace Sys2Proof.Machine

section
variable {s t u : State} {w : Nat}

/-! Claims that are let go (R434) -/

/-- Claims are as before or free. -/
def ClaimsFreed (s t : State) : Prop := ∀ n, claimOf t n = claimOf s n ∨ claimOf t n = ClaimRec.free

theorem ClaimsFreed.trans (h : ClaimsFreed s t) (k : ClaimsFreed t u) : ClaimsFreed s u := fun n =>
  (k n).elim (fun same => same ▸ h n) .inr

theorem ClaimsFreed.free {n : Nat} (h : ClaimsFreed s t) (free : claimOf s n = ClaimRec.free) : claimOf t n = ClaimRec.free :=
  (h n).elim (fun same => same.trans free) id

theorem claimsFreed_of_claims (h : t.tmx.claims = s.tmx.claims) : ClaimsFreed s t := fun n => .inl (by rw [claimOf, h]; rfl)

theorem claimsFreed_freeClaim (n : Nat) (hs : Tidy s) : ClaimsFreed s (freeClaim n s) := fun k => by
  by_cases here : k = n
  · exact .inr (here ▸ claimOf_setClaim n _ hs)
  · exact .inl (claimOf_setClaim_ne n _ hs here)

theorem claimsFreed_freeTrigger (hs : Tidy s) : ClaimsFreed s (freeTrigger s) := by
  unfold freeTrigger
  split
  case h_1 n _ => exact (claimsFreed_freeClaim n hs).trans (claimsFreed_of_claims rfl)
  case h_2 => exact claimsFreed_of_claims rfl

theorem tidy_freeClaim (n : Nat) (hs : Tidy s) : Tidy (freeClaim n s) := (keeps_freeClaim n s (.refl s)).tidy hs

theorem tidy_releaseClaim (n : Nat) (hs : Tidy s) : Tidy (releaseClaim n s) := (keeps_releaseClaim n s (.refl s)).tidy hs

/-- After the claim is freed, what else its release does frees more or leaves the claims. -/
theorem claimsFreed_after_freeClaim (n : Nat) (hs : Tidy s) : ClaimsFreed (freeClaim n s) (releaseClaim n s) := by
  unfold releaseClaim
  dsimp only
  split
  · exact (claimsFreed_freeTrigger (tidy_freeClaim n hs)).trans (claimsFreed_of_claims rfl)
  · split <;> exact claimsFreed_of_claims rfl

theorem claimOf_releaseClaim (n : Nat) (hs : Tidy s) : claimOf (releaseClaim n s) n = ClaimRec.free :=
  (claimsFreed_after_freeClaim n hs).free (claimOf_setClaim n _ hs)

theorem claimsFreed_releaseClaim (n : Nat) (hs : Tidy s) : ClaimsFreed s (releaseClaim n s) :=
  (claimsFreed_freeClaim n hs).trans (claimsFreed_after_freeClaim n hs)

/-- The step of `releaseClaims`. -/
def releaseIf (p : ClaimRec → Bool) (s : State) (n : Nat) : State := if p (claimOf s n) then releaseClaim n s else s

theorem releaseClaims_eq (p : ClaimRec → Bool) (s : State) : releaseClaims p s = (List.range 19).foldl (releaseIf p) s := rfl

theorem tidy_releaseIf (p : ClaimRec → Bool) (n : Nat) (hs : Tidy s) : Tidy (releaseIf p s n) := by
  unfold releaseIf
  split
  · exact tidy_releaseClaim n hs
  · exact hs

theorem claimsFreed_releaseIf (p : ClaimRec → Bool) (n : Nat) (hs : Tidy s) : ClaimsFreed s (releaseIf p s n) := by
  unfold releaseIf
  split
  · exact claimsFreed_releaseClaim n hs
  · exact claimsFreed_of_claims rfl

/-- Of a list of resources, none whose claim satisfies `p` is left once those are let go. -/
theorem released_foldl {p : ClaimRec → Bool} (free : p ClaimRec.free = false) (l : List Nat) (hs : Tidy s) :
    ClaimsFreed s (l.foldl (releaseIf p) s) ∧ ∀ n ∈ l, p (claimOf (l.foldl (releaseIf p) s) n) = false := by
  induction l generalizing s with
  | nil => exact ⟨claimsFreed_of_claims rfl, nofun⟩
  | cons k l ih =>
    obtain ⟨freed, gone⟩ := ih (tidy_releaseIf p k hs)
    refine ⟨(claimsFreed_releaseIf p k hs).trans freed, fun n hn => ?_⟩
    have first : p (claimOf (releaseIf p s k) k) = false := by
      unfold releaseIf
      split
      · rw [claimOf_releaseClaim k hs, free]
      case isFalse h => exact Bool.eq_false_iff.2 h
    rcases List.mem_cons.1 hn with rfl | later
    · rcases freed n with same | freed
      · exact (congrArg p same).trans first
      · exact (congrArg p freed).trans free
    · exact gone n later

theorem claimOf_releaseClaims {p : ClaimRec → Bool} (free : p ClaimRec.free = false) (hs : Tidy s) {n : Nat} (hn : n < 19) :
    p (claimOf (releaseClaims p s) n) = false := (released_foldl free _ hs).2 n (List.mem_range.2 hn)

/-- The claims and the capture alone differ. -/
def CaptureOnly (s t : State) : Prop :=
  t = { s with tmx := { s.tmx with
    claims := t.tmx.claims
    trigCmp := t.tmx.trigCmp
    traceState := t.tmx.traceState
    wrapped := t.tmx.wrapped
    records := t.tmx.records
    readPos := t.tmx.readPos } }

theorem CaptureOnly.trans (h : CaptureOnly s t) (k : CaptureOnly t u) : CaptureOnly s u := by
  unfold CaptureOnly at h k ⊢
  rw [h] at k
  exact k

theorem captureOnly_freeTrigger : CaptureOnly s (freeTrigger s) := by
  unfold freeTrigger
  split <;> rfl

theorem captureOnly_releaseClaim (n : Nat) : CaptureOnly s (releaseClaim n s) := by
  have freed : CaptureOnly s (freeClaim n s) := rfl
  unfold releaseClaim
  dsimp only
  split
  · exact freed.trans (captureOnly_freeTrigger.trans rfl)
  · split <;> rfl

theorem captureOnly_releaseClaims (p : ClaimRec → Bool) : CaptureOnly s (releaseClaims p s) := by
  refine List.foldlRecOn _ _ (motive := CaptureOnly s) rfl fun t h n _ => ?_
  split
  · exact h.trans (captureOnly_releaseClaim n)
  · exact h

theorem freeTrigger_of_none (h : s.tmx.trigCmp = none) : freeTrigger s = s := by rw [freeTrigger, h]

/-! Shared resources (R431, R434) -/

theorem tmxWrite_of_owns (body : State → State) (hs : Tidy s) (ho : Owns s w Pg.tmx) :
    tmxWrite (.fn w) body s = body (dropHalf w Pg.tmx s) := ownedWrite_of_owns body hs ho

theorem counter_countBy_of_rising {p off n : Nat} (rise : trising 0 s.cnts = true) :
    counter (countBy p off n s) p off = (counter s p off + n) % 2 ^ 64 := tget_tput_same _ _ rise

section
variable {res : Nat}

theorem exec_claimTake_free (hs : Tidy s) (ho : Owns s w Pg.tmx) (hres : res = 17 ∨ res = 18)
    (allowed : claimLimited s (.fn w) .pf res = false) (free : (claimOf s res).owner = .free) :
    exec (.claimTake (.fn w) 2 res) s = .next (claimResult res .ok (count Pg.tmx 0xE08 (setClaim res
      { owner := .pf, port := fnPort w, user := userOf res .pf, ctx := 0, tap := false } (dropHalf w Pg.tmx s)))) := by
  have limit : claimLimited (dropHalf w Pg.tmx s) (.fn w) .pf res = false := allowed
  have unclaimed : (claimOf (dropHalf w Pg.tmx s) res).owner = .free := free
  refine congrArg Host.Outcome.next ((tmxWrite_of_owns _ hs ho).trans ?_)
  rcases hres with rfl | rfl <;>
    simp [ownerOfCode, ownerAllowed, limit, takeClaim, unclaimed, resTrace, resPins, tmxFn]

theorem claimOf_takenResult (st : Status) (s : State) (n : Nat) :
    claimOf (claimResult res st (count Pg.tmx 0xE08 s)) n = claimOf s n := rfl

theorem exec_claimTake_held (hs : Tidy s) (ho : Owns s w Pg.tmx) (hres : res = 17 ∨ res = 18)
    (allowed : claimLimited s (.fn w) .pf res = false) (held : (claimOf s res).owner ≠ .free) :
    exec (.claimTake (.fn w) 2 res) s = .next (claimResult res .claimDenied (denyClaim (dropHalf w Pg.tmx s))) := by
  have limit : claimLimited (dropHalf w Pg.tmx s) (.fn w) .pf res = false := allowed
  have taken : (claimOf (dropHalf w Pg.tmx s) res).owner ≠ .free := held
  refine congrArg Host.Outcome.next ((tmxWrite_of_owns _ hs ho).trans ?_)
  rcases hres with rfl | rfl <;>
    simp [ownerOfCode, ownerAllowed, limit, takeClaim, taken, resTrace, resPins]

theorem exec_claimRelease_holder (hs : Tidy s) (ho : Owns s w Pg.tmx) (hres : res = 17 ∨ res = 18)
    (owner : (claimOf s res).owner = .pf) (tap : (claimOf s res).tap = false) (port : (claimOf s res).port = fnPort w) :
    exec (.claimRelease (.fn w) 2 res) s = .next (claimResult res .ok (releaseClaim res (dropHalf w Pg.tmx s))) := by
  have claim : claimOf (dropHalf w Pg.tmx s) res = claimOf s res := rfl
  refine congrArg Host.Outcome.next ((tmxWrite_of_owns _ hs ho).trans ?_)
  rw [if_pos]
  rcases hres with rfl | rfl <;> simp [ownerOfCode, writerHolds, claim, owner, tap, port]

/-- A release without a trigger comparator leaves every other claim. -/
theorem claimOf_releaseClaim_ne {n : Nat} (hs : Tidy s) (trigger : s.tmx.trigCmp = none) (h : n ≠ res) :
    claimOf (releaseClaim res s) n = claimOf s n := by
  have other : claimOf (freeClaim res s) n = claimOf s n := claimOf_setClaim_ne res _ hs h
  have none : (freeClaim res s).tmx.trigCmp = Option.none := trigger
  unfold releaseClaim
  dsimp only
  split
  · rw [clearTrace, freeTrigger_of_none none]
    exact other
  · rw [if_neg (by simp [none])]
    exact other

end

/-! The multiplexer (R436, R437) -/

theorem holderWrite_of_holds {res : Nat} (body : State → State) (hs : Tidy s) (ho : Owns s w Pg.tmx)
    (holds : writerHolds s (.fn w) res = true) : holderWrite (.fn w) res body s = body (dropHalf w Pg.tmx s) :=
  (tmxWrite_of_owns _ hs ho).trans (if_pos holds)

theorem exec_muxSelWrite_allowed {v : Word} {c : MuxClass} (hs : Tidy s) (ho : Owns s w Pg.tmx)
    (holds : writerHolds s (.fn w) resPins = true) (class_eq : muxClass (bits v 7 0) (bits v 15 8) = some c)
    (allowed : muxAllowed s c = true) :
    exec (.muxSelWrite (.fn w) v) s =
      .next (setTmx { s.tmx with muxSel := bits v 7 0, muxArg := bits v 15 8 } (dropHalf w Pg.tmx s)) := by
  have allowed' : muxAllowed (dropHalf w Pg.tmx s) c = true := allowed
  refine congrArg Host.Outcome.next ((holderWrite_of_holds _ hs ho holds).trans ?_)
  simp only [class_eq, allowed', if_true]
  rfl

theorem exec_muxSelWrite_unlisted {v : Word} (hs : Tidy s) (ho : Owns s w Pg.tmx)
    (holds : writerHolds s (.fn w) resPins = true) (unlisted : muxClass (bits v 7 0) (bits v 15 8) = none) :
    exec (.muxSelWrite (.fn w) v) s =
      .next (noteErr Pg.tmx kindRefusedValue .accessDenied 0x50 w (dropHalf w Pg.tmx s)) := by
  refine congrArg Host.Outcome.next ((holderWrite_of_holds _ hs ho holds).trans ?_)
  simp only [unlisted]
  rfl

/-! The trace (R440) -/

theorem bits_setBits_apart (v : Word) {hi lo i x : Nat} (hhi : hi < 64) (apart : i < lo ∨ hi < i) :
    bits (setBits v i i x) hi lo = bits v hi lo := by
  refine Nat.eq_of_testBit_eq fun k => ?_
  rw [testBit_bits, testBit_bits]
  by_cases inside : k < hi + 1 - lo
  · rw [bitOf_setBits _ _ _ _ (by omega), if_neg (by omega)]
  · simp [inside]

theorem traceCtrl_of_mode_zero {v : Word} (mode : bits v 29 28 = 0) (s : State) :
    traceCtrl (.fn w) v s =
      (let s1 := setTmx { s.tmx with traceMode := 0, traceWrap := bitOf v 27 } s
      if bitOf v 30 then
        match s1.tmx.traceState with
        | .capturing | .armed => endCapture s1
        | _ => s1
      else if bitOf v 31 then startCapture s1
      else if bitOf v 23 then (if s1.tmx.trigCmp.isSome then s1 else armTrigger (.fn w) s1)
      else if s1.tmx.traceState = .armed then setTmx { (freeTrigger s1).tmx with traceState := .idle } (freeTrigger s1)
      else s1) := by
  unfold traceCtrl
  simp only [mode]
  rfl

theorem traceCtrl_start {v : Word} (mode : bits v 29 28 = 0) (go : bitOf v 31 = true) (stay : bitOf v 30 = false) (s : State) :
    traceCtrl (.fn w) v s = startCapture (setTmx { s.tmx with traceMode := 0, traceWrap := bitOf v 27 } s) := by
  rw [traceCtrl_of_mode_zero mode]
  simp only [go, stay, Bool.false_eq_true, if_false, if_true]

theorem traceCtrl_stop {v : Word} (mode : bits v 29 28 = 0) (stop : bitOf v 30 = true) (capturing : s.tmx.traceState = .capturing) :
    traceCtrl (.fn w) v s = endCapture (setTmx { s.tmx with traceMode := 0, traceWrap := bitOf v 27 } s) := by
  have running : (setTmx { s.tmx with traceMode := 0, traceWrap := bitOf v 27 } s).tmx.traceState = .capturing := capturing
  rw [traceCtrl_of_mode_zero mode]
  simp only [stop, if_true, running]

theorem exec_traceStart_holder {v : Word} (hs : Tidy s) (ho : Owns s w Pg.tmx) (holds : writerHolds s (.fn w) resTrace = true)
    (mode : bits v 29 28 = 0) : ∃ wrap, exec (.traceStart (.fn w) v) s =
      .next (startCapture (setTmx { s.tmx with traceMode := 0, traceWrap := wrap } (dropHalf w Pg.tmx s))) := by
  refine ⟨_, congrArg Host.Outcome.next ((holderWrite_of_holds _ hs ho holds).trans (traceCtrl_start ?_ ?_ ?_ _))⟩
  · rw [bits_setBits_apart _ (by decide) (.inr (by decide)), bits_setBits_apart _ (by decide) (.inr (by decide)),
      mode]
  · simp [bitOf_setBits]
  · simp [bitOf_setBits]

theorem exec_traceStop_holder {v : Word} (hs : Tidy s) (ho : Owns s w Pg.tmx) (holds : writerHolds s (.fn w) resTrace = true)
    (mode : bits v 29 28 = 0) (capturing : s.tmx.traceState = .capturing) : ∃ wrap, exec (.traceStop (.fn w) v) s =
      .next (endCapture (setTmx { s.tmx with traceMode := 0, traceWrap := wrap } (dropHalf w Pg.tmx s))) := by
  have running : (dropHalf w Pg.tmx s).tmx.traceState = .capturing := capturing
  refine ⟨_, congrArg Host.Outcome.next ((holderWrite_of_holds _ hs ho holds).trans (traceCtrl_stop ?_ ?_ running))⟩
  · rw [bits_setBits_apart _ (by decide) (.inr (by decide)), mode]
  · simp [bitOf_setBits]

theorem endCapture_of_no_trigger (h : s.tmx.trigCmp = none) : endCapture s = setTmx { s.tmx with traceState := .done } s := by
  rw [endCapture, freeTrigger_of_none h]

theorem exec_traceDataRead_within {b : List Byte} {rest : List (List Byte)} (ho : Owns s w Pg.tmx)
    (records : s.tmx.records = b :: rest) (within : s.tmx.readPos < 3) :
    exec (.traceDataRead (.fn w)) s = .next (emit (.readData Pg.tmx 0x68 (leNat ((b.drop (8 * s.tmx.readPos)).take 8)))
      (setTmx { s.tmx with readPos := s.tmx.readPos + 1 } (dropHalf w Pg.tmx s))) := by
  obtain ⟨reach, -, -⟩ := ho
  have read : traceRead (dropHalf w Pg.tmx s) = (leNat ((b.drop (8 * s.tmx.readPos)).take 8),
      setTmx { s.tmx with readPos := s.tmx.readPos + 1 } (dropHalf w Pg.tmx s)) := by
    have records' : (dropHalf w Pg.tmx s).tmx.records = b :: rest := records
    unfold traceRead
    rw [records']
    exact if_pos within
  have run : exec (.traceDataRead (.fn w)) s = .next (if reaches s w Pg.tmx then emit (.readData Pg.tmx 0x68
    (traceRead (dropHalf w Pg.tmx s)).1) (traceRead (dropHalf w Pg.tmx s)).2 else s) := rfl
  rw [run, if_pos reach, read]

/-! The test port (R438, R439) -/

theorem idcode_fields (m : Nat) : idcode m / 2 ^ 12 = 0x27200 ∧ idcode m % 2 = 1 := by
  have least : m % 2048 < 2048 := Nat.mod_lt _ (by decide)
  unfold idcode
  omega

theorem exec_tapReset (s : State) : exec .tapReset s = .next (setTmx
    { (releaseClaims (fun c => c.tap) s).tmx with
      tapIr := .idcode
      tapOwner := .free
      resetDue := (releaseClaims (fun c => c.tap) s).tmx.resetDue || (releaseClaims (fun c => c.tap) s).tmx.testEntered
      testEntered := false }
    (releaseClaims (fun c => c.tap) s)) := rfl

theorem exec_jtagInstruction_extest_in_use (h : inUse s = true) : exec (.jtagInstruction .extest) s =
    .next (count Pg.tmx 0xE18 (setTmx { s.tmx with tapIr := .bypass, tapOwner := .free } s)) :=
  congrArg Host.Outcome.next (if_pos h)

end
end Sys2Proof.Machine

open Sys2Proof Sys2Proof.Machine

/-- Settles O60: each command by its equation for the writer that owns the page; at its reset the test port lets go claim by claim. -/
theorem claimsAndTest : Obligations.ClaimsAndTest := by
  unfold Obligations.ClaimsAndTest
  refine ⟨fun s w res hs ho hres => ⟨fun allowed => ⟨fun free => ?_, fun held => ?_⟩, fun owner tap port trigger => ?_⟩,
    fun s w v hs ho => ⟨fun holds => ⟨fun c class_eq allowed => ?_, fun unlisted => ?_⟩,
      fun holds mode trigger => ⟨?_, fun capturing => ?_⟩, fun b rest records within => ?_⟩,
    fun s hs => ⟨?_, fun used => ?_, ?_⟩⟩
  · have hd : Tidy (dropHalf w Pg.tmx s) := tidy_dropHalf hs
    refine ⟨_, exec_claimTake_free hs ho hres allowed free, ?_, ?_, fun n hn => ?_, rfl, ?_, ?_⟩
    · rw [claimOf_takenResult, claimOf_setClaim _ _ hd]
    · rw [claimOf_takenResult, claimOf_setClaim _ _ hd]
    · rw [claimOf_takenResult, claimOf_setClaim_ne _ _ hd hn]
      rfl
    · rcases hres with rfl | rfl <;> rfl
    · exact counter_countBy_of_rising (twf_trising hs.cnts)
  · exact ⟨_, exec_claimTake_held hs ho hres allowed held, fun n => rfl, rfl, counter_countBy_of_rising (twf_trising hs.cnts)⟩
  · have hd : Tidy (dropHalf w Pg.tmx s) := tidy_dropHalf hs
    exact ⟨_, exec_claimRelease_holder hs ho hres owner tap port, claimOf_releaseClaim res hd,
      fun n hn => claimOf_releaseClaim_ne hd trigger hn, rfl⟩
  · exact ⟨_, exec_muxSelWrite_allowed hs ho holds class_eq allowed, rfl⟩
  · exact ⟨_, exec_muxSelWrite_unlisted hs ho holds unlisted, rfl,
      (pageHdr_noteErr _ _ _ (tidy_dropHalf hs)).trans (by rw [pageHdr_dropHalf hs])⟩
  · obtain ⟨wrap, run⟩ := exec_traceStart_holder hs ho holds mode
    exact ⟨_, run, rfl, rfl, rfl, rfl, rfl⟩
  · obtain ⟨wrap, run⟩ := exec_traceStop_holder hs ho holds mode capturing
    have none : (setTmx { s.tmx with traceMode := 0, traceWrap := wrap } (dropHalf w Pg.tmx s)).tmx.trigCmp = Option.none := trigger
    rw [endCapture_of_no_trigger none] at run
    exact ⟨_, run, rfl, rfl, rfl⟩
  · exact ⟨_, exec_traceDataRead_within ho records within, rfl, rfl⟩
  · obtain ⟨part, odd⟩ := idcode_fields (Config.unstated 0)
    exact ⟨_, _, rfl, rfl, rfl, part, odd⟩
  · exact ⟨_, exec_jtagInstruction_extest_in_use used, rfl, counter_countBy_of_rising (twf_trising hs.cnts)⟩
  · have frame := captureOnly_releaseClaims (s := s) (fun c => c.tap)
    have freed (n : Nat) (hn : n < 19) := claimOf_releaseClaims (p := fun c => c.tap) rfl hs hn
    refine ⟨_, exec_tapReset s, ?_⟩
    generalize releaseClaims (fun c => c.tap) s = t at frame freed
    have due : t.tmx.resetDue = s.tmx.resetDue := congrArg (·.tmx.resetDue) frame
    have entered : t.tmx.testEntered = s.tmx.testEntered := congrArg (·.tmx.testEntered) frame
    exact ⟨rfl, freed, congr (congrArg or due) entered, congrArg (·.mem) frame⟩
end

section
/-! PROOFS. Start of the device, power loss, resets, readiness and wipe (O59). -/

set_option Elab.async false

namespace Sys2Proof.Machine

section
variable {s t u : State}

/-! What a start of the device settles before anything else (R417, R424) -/

/-- Memory, time, queue, least version, start record, power and memory enable: what a start sets first and its later steps leave. -/
def startView (s : State) : List Host.Cell × Nat × List Instr × Nat × Nat × Nat × Bool × Nat × Bool :=
  (s.mem, s.now, s.pending, s.otp.minSvn, s.boot.cause, s.boot.coldCount, s.dev.powered, s.dev.serial, s.dev.memEnabled)

theorem startView_foldl {α : Type} {f : State → α → State} (hf : ∀ s a, startView (f s a) = startView s) (l : List α) (s : State) :
    startView (l.foldl f s) = startView s :=
  List.foldlRecOn l f (motive := fun t => startView t = startView s) rfl fun _ h a _ => (hf _ a).trans h

theorem startView_noteStep (n : Nat) : startView (noteStep n s) = startView s := by
  unfold noteStep
  split <;> rfl

theorem startView_applyPending : startView (applyPending s) = startView s := by
  unfold applyPending
  split
  · rfl
  · dsimp only
    split <;> rfl

theorem startView_loadCfg (f : Fitted) : startView (loadCfg f s) = startView s := by
  unfold loadCfg
  dsimp only
  split <;> rfl

theorem startView_revoke (v : FwSlot) : startView (revoke v s) = startView s := by
  unfold revoke
  split <;> rfl

theorem startView_activate : startView (activate s) = startView s := startView_revoke _

theorem startView_ite {c : Prop} [Decidable c] {a b : State} {v} (ha : startView a = v) (hb : startView b = v) :
    startView (if c then a else b) = v := by
  split
  · exact ha
  · exact hb

theorem view_of_some {v} (h : startView t = v) : ∀ x, some t = some x → startView x = v := fun _ e => Option.some.inj e ▸ h

theorem view_of_ite {c : Prop} [Decidable c] {a b : Option State} {v} (ha : ∀ x, a = some x → startView x = v)
    (hb : ∀ x, b = some x → startView x = v) : ∀ x, (if c then a else b) = some x → startView x = v := by
  split
  · exact ha
  · exact hb

theorem view_of_none {v} (x : State) (h : none = some x) : startView x = v := by cases h

theorem startView_setCcx (v : Ccx) : startView (setCcx v s) = startView s := rfl

theorem startView_setActiveSlot (v : FwSlot) : startView (setActiveSlot v s) = startView s := rfl

theorem startView_setOtherSlot (v : FwSlot) : startView (setOtherSlot v s) = startView s := rfl

theorem startView_count (p off : Nat) : startView (count p off s) = startView s := rfl

theorem startView_selectSlot (f : Fitted) : ∀ t, selectSlot f s = some t → startView t = startView s := by
  unfold selectSlot
  dsimp only
  refine view_of_ite (view_of_ite (view_of_some ?_) (view_of_some ?_)) (view_of_ite (view_of_some (startView_ite ?_ ?_)) view_of_none)
  · simp only [startView_setCcx, startView_setActiveSlot]
  · simp only [startView_setCcx, startView_activate]
  · exact startView_activate.trans (startView_ite rfl rfl)
  · rw [startView_count, startView_setCcx]
    exact startView_activate.trans (startView_ite rfl rfl)

theorem startView_startCores (f : Fitted) : startView (startCores f s) = startView s := by
  have core (n : Nat) (c : Core) (s : State) : startView (setCore n c s) = startView s := rfl
  unfold startCores
  dsimp only
  rw [startView_setCcx, startView_foldl fun s n => core n _ s, startView_foldl fun s n => core n _ s]

theorem startView_newKeys : startView (newKeys s) = startView s := rfl

theorem startView_restoreCrash : startView (restoreCrash s) = startView s := by
  unfold restoreCrash
  split <;> rfl

theorem startView_settleParent : startView (settleParent s) = startView s := by
  have parent (v : Ftb) (s : State) : startView (setFtb v s) = startView s := rfl
  have counted : startView (if s.ftb.parent.isSome then count Pg.ftb 0xE18 s else s) = startView s := startView_ite rfl rfl
  unfold settleParent
  dsimp only
  refine startView_ite ((parent _ _).trans counted) ?_
  split
  · exact startView_ite rfl rfl
  · exact (parent _ _).trans counted

theorem startView_startTime : startView (startTime s) = startView s := by
  unfold startTime
  dsimp only
  refine startView_settleParent.trans ?_
  split <;> rfl

theorem startView_setHport (port : Nat) (v : HPort) : startView (setHport port v s) = startView s := by
  unfold setHport
  split <;> rfl

theorem startView_startLink (port : Nat) : startView (startLink port s) = startView s := by
  unfold startLink trainLink
  dsimp only
  split
  · exact startView_setHport _ _
  · split <;> exact startView_setHport _ _

theorem startView_startCheckers (f : Fitted) : startView (startCheckers f s) = startView s := by
  unfold startCheckers settleTray
  dsimp only
  split <;> split <;> rfl

theorem startView_startSheet (f : Fitted) : startView (startSheet f s) = startView s := by
  have tested (v : Sht) (s : State) : startView (setSht v s) = startView s := rfl
  have setTile (row col : Nat) (t : Tile) (s : State) : startView (setTile row col t s) = startView s := rfl
  have logged (x : Nat × Nat) (s : State) : startView (logRepair .tile .t1 ⟨0, 0, x.1, x.2, 0, 6⟩ 0 s) = startView s :=
    startView_ite rfl rfl
  unfold startSheet
  refine (tested _ _).trans ((startView_foldl (fun s x => ?_) _ _).trans
    ((startView_foldl (fun s x => ?_) _ _).trans (startView_foldl (fun s r => ?_) _ _)))
  · dsimp only
    split
    · refine startView_ite ((setTile _ _ _ _).trans (logged x s)) (logged x s)
    · rfl
  · dsimp only
    split <;> rfl
  · dsimp only
    split
    · split <;> rfl
    · split <;> rfl
    · rfl

theorem startView_applyRepair (hppr : Bool) (r : Repair) : startView (applyRepair hppr r s) = startView s := by
  unfold applyRepair putRemap
  dsimp only
  split
  · split <;> rfl
  · split <;> rfl
  · split
    · rfl
    · split <;> rfl
  · split <;> rfl
  · rfl

theorem startView_applyRepairs (f : Fitted) : startView (applyRepairs f s) = startView s :=
  startView_foldl (fun _ _ => startView_applyRepair _ _) _ _

theorem startView_takeover (cause : Nat) : startView (takeover cause s) = startView s := by
  by_cases watch : s.sss.state = .watch
  · have frame := (takenOver cause watch).takeoverOnly
    unfold TakeoverOnly at frame
    rw [frame]
    rfl
  · rw [takeover_of_not_watch cause watch]
    split <;> rfl


/-- Memory trained and repaired, before it is enabled (steps 6 to 8 of Table 18-1). -/
def trainedMemory (f : Fitted) (s : State) : State := noteStep 9 (settleScales (recountSlabs (noteStep 8 (applyRepairs f (noteStep 7
  (startChans f (noteStep 6 (startSheet f (startCheckers f s)))))))))

theorem startMemory_eq (f : Fitted) (s : State) : startMemory f s =
    if (trainedMemory f s).otp.wipeDue ∧ (trainedMemory f s).otp.life ≠ .scrapped then
      { trainedMemory f s with lcc := { (trainedMemory f s).lcc with wiping := true } }
    else openMemory (trainedMemory f s) := rfl

theorem startView_trainedMemory (f : Fitted) : startView (trainedMemory f s) = startView s := by
  have scales (s : State) : startView (settleScales s) = startView s := by
    have frame := scalesOnly_settleScales (s := s)
    unfold ScalesOnly at frame
    rw [frame]
    rfl
  have slabs (s : State) : startView (recountSlabs s) = startView s := by
    have frame := placementOnly_recountSlabs (s := s)
    unfold PlacementOnly at frame
    rw [frame]
    rfl
  have chans (s : State) : startView (startChans f s) = startView s := rfl
  rw [trainedMemory, startView_noteStep, scales, slabs, startView_noteStep, startView_applyRepairs, startView_noteStep, chans,
    startView_noteStep, startView_startSheet, startView_startCheckers]

/-- A start either never comes to enable memory, or ends with enabling it where the device may. -/
theorem start_cases (cause n : Nat) (f : Fitted) (s : State) :
    startView (start cause n f s) = startView (survivors cause n f s) ∨
      ∃ t, startView t = startView (survivors cause n f s) ∧ start cause n f s = openMemory t := by
  unfold start
  dsimp only
  generalize survivors cause n f s = v
  split
  · exact .inl rfl
  have loaded : startView (emit (.pins true true) (loadCfg f (applyPending v))) = startView v :=
    (startView_loadCfg f).trans startView_applyPending
  generalize emit (.pins true true) (loadCfg f (applyPending v)) = w at loaded
  split
  · exact .inl loaded
  case h_2 x chosen =>
  have slot : startView x = startView v := by
    split at chosen
    · cases chosen; exact loaded
    · exact (startView_selectSlot f x chosen).trans loaded
  have started : startView (startTime (restoreCrash (newKeys (startCores f x)))) = startView v :=
    (startView_startTime.trans (startView_restoreCrash.trans (startView_newKeys.trans (startView_startCores f)))).trans slot
  generalize startTime (restoreCrash (newKeys (startCores f x))) = y at started
  have linked : startView (startLink 1 (startLink 0 (noteStep 5 { y with boot := { y.boot with halted := false } }))) = startView v :=
    (startView_startLink 1).trans ((startView_startLink 0).trans ((startView_noteStep 5).trans started))
  generalize startLink 1 (startLink 0 (noteStep 5 { y with boot := { y.boot with halted := false } })) = z at linked
  split
  · exact .inl ((startView_takeover 5).trans linked)
  · have trained := (startView_trainedMemory (s := z) f).trans linked
    rw [startMemory_eq]
    generalize trainedMemory f z = w at trained ⊢
    split
    · exact .inl trained
    · exact .inr ⟨_, trained, rfl⟩

theorem openMemory_frame : openMemory s =
    { s with sent := (openMemory s).sent, dev := { s.dev with memEnabled := mayEnable s }, fmg := (openMemory s).fmg } := by
  unfold openMemory
  dsimp only
  split
  · rfl
  · split
    · unfold noteStep
      split <;> rfl
    · rfl

/-- What every start leaves (R417, R424). -/
structure Started (cause n : Nat) (f : Fitted) (s u : State) : Prop where
  mem : u.mem = []
  now : u.now = 0
  pending : u.pending = s.pending
  minSvn : u.otp.minSvn = s.otp.minSvn
  cause_eq : u.boot.cause = cause
  coldCount : u.boot.coldCount = n
  powered : u.dev.powered = true
  serial : u.dev.serial = f.serial
  enabled : u.dev.memEnabled = true → 0 < onlineCount u 0 256 ∧ u.boot.noMemory = false

theorem started_start (cause n : Nat) (f : Fitted) (s : State) : Started cause n f s (start cause n f s) := by
  rcases start_cases cause n f s with view | ⟨t, view, ends⟩
  · simp only [startView, Prod.mk.injEq] at view
    obtain ⟨mem, now, pending, minSvn, cause_eq, cold, powered, serial, closed⟩ := view
    exact ⟨mem, now, pending, minSvn, cause_eq, cold, powered, serial, fun enabled => nomatch closed.symm.trans enabled⟩
  · simp only [startView, Prod.mk.injEq] at view
    obtain ⟨mem, now, pending, minSvn, cause_eq, cold, powered, serial, -⟩ := view
    rw [ends, openMemory_frame]
    refine ⟨mem, now, pending, minSvn, cause_eq, cold, powered, serial, fun enabled => ?_⟩
    have may : mayEnable t = true := enabled
    simp only [mayEnable, Bool.and_eq_true, decide_eq_true_eq, Bool.not_eq_true'] at may
    obtain ⟨⟨⟨online, memory⟩, -⟩, -⟩ := may
    exact ⟨online, memory⟩

theorem start_of_sss_failed {cause n : Nat} {f : Fitted} (failed : f.sssOk = false) : start cause n f s = survivors cause n f s := by
  unfold start
  rw [failed]
  rfl

/-- What a cold reset leaves (R424). -/
theorem started_coldStart (cause : Nat) (f : Fitted) (s : State) :
    ∃ v, Started cause (min 65535 (s.boot.coldCount + 1)) f v (coldStart cause f s) := ⟨_, started_start _ _ _ _⟩

theorem exec_coldReset_of_powered {cause : ColdCause} {f : Fitted} (powered : s.dev.powered = true) :
    exec (.coldReset cause f) s = .next (match cause with
      | .sssRequest => if s.sss.resetAsked then coldStart 1 f s else s
      | .trialTakeover => if s.sss.trialReset then coldStart 2 f s else s
      | .tap => if s.tmx.resetDue then coldStart tapCause f s else s
      | .ioxWrite w code => ownedWrite w Pg.iox (fun s => if code % 65536 = 0xC01D then coldStart 3 f s else ignoreWrite Pg.iox s) s
      | .bothPerst => if s.hiu.p0.perst && s.hiu.p1.perst && flag s Pg.iox 0x68 1 then coldStart 4 f s else s) := by
  refine congrArg Host.Outcome.next (if_neg ?_)
  simp [powered]

/-- The page of the host interface I/O is a group of its own, so its holder still holds it once a held low half is dropped. -/
theorem holdsPage_iox_dropHalf {w : Nat} (holds : holdsPage s w Pg.iox = true) : holdsPage (dropHalf w Pg.iox s) w Pg.iox = true := by
  have own : claimPage Pg.iox = Pg.iox := by decide
  simp only [holdsPage, own, Bool.and_eq_true, decide_eq_true_eq] at holds ⊢
  obtain ⟨⟨pf, owner⟩, port⟩ := holds
  have hdr : pageHdr (dropHalf w Pg.iox s) Pg.iox = accessed w (pageHdr s Pg.iox) := by
    refine tget_tput_listed _ _ fun reset => ?_
    have free : (pageHdr s Pg.iox).owner = .free := congrArg (·.owner) reset
    exact nomatch owner.symm.trans free
  rw [hdr]
  exact ⟨⟨pf, owner⟩, port⟩

/-! Power loss (R427, R460) -/

theorem exec_pwrOkFall_of_powered (powered : s.dev.powered = true) : exec .pwrOkFall s = .next (powerLost s) :=
  congrArg Host.Outcome.next (if_pos powered)

theorem powerLost_frame : powerLost s = { s with
    sent := s.sent ++ [.pins true true]
    dev := { s.dev with powered := false, memEnabled := false }
    boot := { s.boot with halted := true }
    hiu := { s.hiu with p0 := { s.hiu.p0 with link := .detect, memActive := false }
                        p1 := { s.hiu.p1 with link := .detect, memActive := false } }
    ccx := (powerLost s).ccx } := by
  unfold powerLost
  dsimp only
  split <;> rfl

/-! Port resets, readiness and MEM_ACTIVE (R419 – R421, R425) -/

section
variable {port : Nat}

theorem hport_setHport (v : HPort) : hport (setHport port v s) port = v := by
  unfold hport setHport
  split <;> rfl

theorem hport_modHport (g : HPort → HPort) : hport (modHport port g s) port = g (hport s port) := hport_setHport _

theorem setHport_frame (v : HPort) : setHport port v s = { s with hiu := { s.hiu with
    p0 := (setHport port v s).hiu.p0, p1 := (setHport port v s).hiu.p1 } } := by
  unfold setHport
  split <;> rfl

theorem func_modHport (g : HPort → HPort) (fn : Nat) : func (modHport port g s) fn = func s fn := by
  rw [modHport, setHport_frame]
  rfl

/-- The state of a function reset before the function itself is reset: what waited on it, drained for it or ran for it is gone. -/
def functionEnded (f : Nat) (s : State) : State :=
  let s1 := orphanTags f { s with hiu := { s.hiu with rings := tkeep (fun k => decide (k / 16 ≠ f)) s.hiu.rings } }
  let s2 := returnWindows f ((tkeys (fun _ c => decide (c.fn = f) && decide (c.state = .active)) s1.ple.ctxs).foldl (fun s c => drainCtx c s) s1)
  let s3 := settleCvuScan (forgetCommands f (closeRun f s2))
  { s3 with pages := tmap Page.reset (fun _ h => { h with halves := h.halves.filter (fun x => decide (x.fn ≠ f)) }) s3.pages }

theorem resetFn_eq (f : Nat) (phase : FnPhase) (s : State) :
    resetFn f phase s = count (Pg.hiu + fnPort f) 0xE40 (setFunc f { Func.reset with phase := phase } (functionEnded f s)) := rfl

theorem tidy_functionEnded (f : Nat) (hs : Tidy s) : Tidy (functionEnded f s) := by
  have rings : Keeps s { s with hiu := { s.hiu with rings := tkeep (fun k => decide (k / 16 ≠ f)) s.hiu.rings } } :=
    (Keeps.refl s).step (fun x => { x with rings := twf_filter _ x.rings }) rfl rfl
  have pages (t : State) (g : Nat → Page → Page) (h : Keeps s t) : Keeps s { t with pages := tmap Page.reset g t.pages } :=
    h.step (fun x => { x with pages := twf_tmap _ x.pages }) rfl rfl
  unfold functionEnded
  exact (pages _ _ (keeps_settleCvuScan _ (keeps_forgetCommands _ _ (keeps_closeRun _ _
    (keeps_returnWindows _ _ (Keeps.foldl (fun _ _ h => keeps_drainCtx _ _ h) (keeps_orphanTags _ _ rings))))))).tidy hs

theorem func_count (p off fn : Nat) : func (count p off s) fn = func s fn := rfl

theorem func_resetFn (f : Nat) (phase : FnPhase) (hs : Tidy s) : func (resetFn f phase s) f = { Func.reset with phase := phase } := by
  rw [resetFn_eq, func_count, func_setFunc f _ (tidy_functionEnded f hs)]

theorem hiu_releasePages : (releasePages port s).hiu = s.hiu := rfl

theorem hiu_releaseClaims (p : ClaimRec → Bool) : (releaseClaims p s).hiu = s.hiu := by
  have frame := testOnly_releaseClaims (s := s) p
  unfold TestOnly at frame
  rw [frame]

theorem func_resetPf (phase : FnPhase) (hs : Tidy s) :
    func (resetPf port phase s) (pfOf port) = { Func.reset with phase := phase } := by
  have vfs : Tidy (resetVfs port s) := (keeps_resetVfs port s (.refl s)).tidy hs
  rw [func, resetPf, hiu_releasePages, hiu_releaseClaims]
  exact func_resetFn _ _ vfs

theorem exec_portReset_perst (hw : Awake s) (hp : port < 2) (high : (hport s port).perst = false) :
    exec (.portReset port .perst) s =
      .next (modHport port (fun h => { h with link := .inReset, perst := true }) (tearPort port s)) := by
  have meets : resetMeets s port .perst = true := by simp [resetMeets, hp, high]
  have on : awake s = true := hw
  refine congrArg Host.Outcome.next ?_
  rw [meets, on]
  rfl

theorem exec_perstDeassert_powered (hp : port < 2) (low : (hport s port).perst = true) (powered : s.boot.halted = false) :
    exec (.perstDeassert port) s = .next (trainLink port (modHport port (fun h => { h with perst := false }) s)) := by
  refine congrArg Host.Outcome.next ((if_neg ?_).trans (if_neg ?_))
  · simp [Nat.not_le.2 hp, low]
  · simp [powered]

theorem hport_trainLink : (hport (trainLink port s) port).link = .training ∧
    (hport (trainLink port s) port).perst = (hport s port).perst := by
  unfold trainLink
  dsimp only
  split
  · rw [hport_modHport]
    exact ⟨rfl, rfl⟩
  · rw [hport_modHport]
    exact ⟨rfl, rfl⟩

theorem trainLink_frame : trainLink port s = { s with hiu := (trainLink port s).hiu } := by
  unfold trainLink
  dsimp only
  split
  · rw [modHport, setHport_frame]
  · rw [modHport, setHport_frame]

theorem raiseLink_of_training (training : (hport s port).link = .training) :
    raiseLink port s = modHport port (fun h => { h with link := .l0, width := 16, speed := 6, flit := true, cxl := true }) s :=
  if_pos training

theorem exec_functionReady_pf (hw : Awake s) (hp : port < 2) (training : (hport s port).link = .training)
    (waits : (func s (pfOf port)).phase ≠ .ready) :
    exec (.functionReady (pfOf port)) s = .next (emit (.ready (pfOf port)) (modFunc (pfOf port) (fun u => { u with phase := .ready })
      (raiseLink port s))) := by
  obtain ⟨watch, powered⟩ := awake_iff.1 hw
  have pf : isPf (pfOf port) = true := by simp [isPf, pfOf]
  have own : fnPort (pfOf port) = port := by simp [fnPort, pfOf]
  have low : pfOf port < 4096 := by
    unfold pfOf
    omega
  have up : portUp (raiseLink port s) port = true := by
    rw [raiseLink_of_training training, portUp, hport_modHport]
  have phase : (func (raiseLink port s) (pfOf port)).phase ≠ .ready := by
    rw [raiseLink_of_training training, func_modHport]
    exact waits
  have on : awake (raiseLink port s) = true := by
    rw [raiseLink_of_training training, modHport, setHport_frame]
    exact hw
  have there : fnExists (raiseLink port s) (pfOf port) = true := by simp [fnExists, low, pf]
  refine congrArg Host.Outcome.next ((if_neg ?_).trans ?_)
  · simp [powered, low]
  · simp only [pf, if_true, own]
    rw [if_neg]
    simp [on, up, there, phase]

theorem createParts_of_none (none : s.boot.cfg.parts = []) : createParts port s = s := by
  rw [createParts, none]
  rfl

theorem exec_memActiveSet_ready (hw : Awake s) (hp : port < 2) (enabled : s.dev.memEnabled = true) (up : portUp s port = true)
    (ready : (func s (pfOf port)).phase = .ready) (off : (hport s port).memActive = false) (none : s.boot.cfg.parts = []) :
    exec (.memActiveSet port) s = .next (endTrial (modHport port (fun h => { h with memActive := true }) s)) := by
  refine (next_whenAwake hw _).trans (congrArg Host.Outcome.next ((if_neg ?_).trans ?_))
  · simp [enabled, up, ready, off, Nat.not_le.2 hp]
  · rw [createParts_of_none none]

theorem activate_frame : activate s = { s with ccx := (activate s).ccx, otp := (activate s).otp } := by
  unfold activate revoke
  dsimp only
  split <;> rfl

theorem ccx_revoke (v : FwSlot) : (revoke v s).ccx = s.ccx := by
  unfold revoke
  split <;> rfl

theorem trial_activate : (activate s).ccx.trial = s.ccx.trial := by
  unfold activate
  dsimp only
  rw [ccx_revoke]
  simp only [setOtherSlot, setActiveSlot, setCcx]
  split <;> split <;> rfl

theorem activeSlot_activate : (activeSlot (activate s)).state = .active := by
  unfold activate
  dsimp only
  rw [activeSlot, ccx_revoke]
  cases b : s.ccx.activeB <;> simp [setOtherSlot, setActiveSlot, setCcx, b]

theorem endTrial_frame : endTrial s = { s with ccx := (endTrial s).ccx, otp := (endTrial s).otp } := by
  unfold endTrial
  split
  · rw [activate_frame]
    rfl
  · rfl

theorem endTrial_of_trial (trial : s.ccx.trial = true) :
    (endTrial s).ccx.trial = false ∧ (activeSlot (endTrial s)).state = .active := by
  rw [endTrial, if_pos trial]
  exact ⟨trial_activate, activeSlot_activate⟩

end

/-! Zeroed frames and the lifecycle wipe (R33, R37, R404) -/

theorem settleMasks_of_none_queued (h : ∀ m ∈ s.mge.moves, m.cls = 3 → m.phase ≠ .queued) : settleMasks s = s := by
  have none : s.mge.moves.filter (fun m => decide (m.cls = 3) && decide (m.phase = .queued)) = [] := by
    rw [List.filter_eq_nil_iff]
    intro m hm
    simpa using h m hm
  unfold settleMasks
  dsimp only
  rw [none]
  rfl

theorem exec_frameZeroed_of_zeroing {t : Tier} {n : Nat} (hw : Awake s) (zeroing : s.mge.zeroing.contains (t, n) = true)
    (held : s.mge.held = []) (masks : ∀ m ∈ s.mge.moves, m.cls = 3 → m.phase ≠ .queued) :
    exec (.frameZeroed t n) s = .next (clearFrame t n { s with mge := { s.mge with zeroing := s.mge.zeroing.erase (t, n) } }) := by
  refine (next_whenAwake hw _).trans (congrArg Host.Outcome.next ((if_pos zeroing).trans ?_))
  rw [retryHeld_of_none, settleMasks_of_none_queued]
  · exact masks
  · exact held

theorem mem_clearFrame (t : Tier) (n : Nat) (hs : Tidy s) :
    (∀ a, homeKey t n 0 ≤ a / 4096 → a / 4096 < homeKey t n 0 + 4096 → tget 0 (clearFrame t n s).mem a = 0) ∧
    ∀ a, a / 4096 < homeKey t n 0 ∨ homeKey t n 0 + 4096 ≤ a / 4096 → tget 0 (clearFrame t n s).mem a = tget 0 s.mem a := by
  have find := tfind_tkeep (fun k => decide (k / 4096 < homeKey t n 0) || decide (homeKey t n 0 + 4096 ≤ k / 4096)) (twf_trising hs.mem)
  refine ⟨fun a low high => ?_, fun a out => ?_⟩
  · refine (congrArg (·.getD 0) (find a)).trans ?_
    rw [if_neg (by simp only [Bool.or_eq_true, decide_eq_true_eq]; omega)]
    rfl
  · refine (congrArg (·.getD 0) (find a)).trans ?_
    rw [if_pos (by simpa using out)]
    rfl

/-- What the end of a wipe without bad frames leaves before memory is enabled. -/
def wiped (s : State) : State := noteStep 10 (count Pg.lcc 0xE10 { s with
  draws := s.draws + 1
  lcc := { s.lcc with wiping := false, wipe1 := 1000, wipe2 := 1000, wipe3 := 1000 }
  otp := { s.otp with wipeDue := false }
  fmg := { s.fmg with mediaKey := s.draws, flcs := tmap Flc.reset (fun _ f => eraseChannel f) s.fmg.flcs } })

theorem exec_lifecycleWipeDone_sound (hw : Awake s) (wiping : s.lcc.wiping = true) :
    exec (.lifecycleWipeDone [] []) s = .next (openMemory (wiped s)) := by
  refine (next_whenAwake hw _).trans (congrArg Host.Outcome.next ((if_neg ?_).trans rfl))
  simp [wiping]

theorem noteStep_frame (n : Nat) : noteStep n s = { s with sent := (noteStep n s).sent } := by
  unfold noteStep
  split <;> rfl

theorem mayEnable_wiped : mayEnable (wiped s) = mayEnable s := by
  rw [wiped, noteStep_frame]
  rfl

end
end Sys2Proof.Machine

open Sys2Proof Sys2Proof.Machine

/-- Settles O59: a start by what its steps after the first leave; each reset and readiness by the equation of its command. -/
theorem startAndResets : Obligations.StartAndResets := by
  unfold Obligations.StartAndResets
  refine ⟨fun s f off => ?_, fun s on => ⟨?_, fun sram => rfl, fun f => ⟨fun asked => ?_, fun trial => ?_, fun w ho => ?_,
    fun low0 low1 both => ?_⟩⟩, fun s port hs hp => ⟨fun hw high => ?_, fun powered low => ?_, fun hw training waits => ?_,
    fun hw enabled up ready off none => ?_⟩, fun s t n hs hw zeroing held masks => ?_, fun s hs hw wiping => ?_⟩
  · have run : exec (.powerOnReset f) s = .next (start 0 0 f s) := congrArg Host.Outcome.next (if_neg (by simp [off]))
    have left := started_start 0 0 f s
    exact ⟨_, run, left.powered, left.serial, left.mem, left.now, left.pending, left.minSvn, left.cause_eq, left.coldCount,
      left.enabled, fun failed => congrArg (·.boot.halted) (start_of_sss_failed failed)⟩
  · refine ⟨_, exec_pwrOkFall_of_powered on, ?_⟩
    rw [powerLost_frame]
    refine ⟨rfl, rfl, rfl, rfl, rfl, rfl, rfl⟩
  · obtain ⟨v, left⟩ := started_coldStart 1 f s
    exact ⟨_, (exec_coldReset_of_powered on).trans (congrArg Host.Outcome.next (if_pos asked)), left.cause_eq, left.coldCount, left.mem,
      left.now⟩
  · obtain ⟨v, left⟩ := started_coldStart 2 f s
    exact ⟨_, (exec_coldReset_of_powered on).trans (congrArg Host.Outcome.next (if_pos trial)), left.cause_eq, left.coldCount, left.mem⟩
  · obtain ⟨reach, holds, -⟩ := ho
    obtain ⟨v, left⟩ := started_coldStart 3 f (dropHalf w Pg.iox s)
    exact ⟨_, (exec_coldReset_of_powered on).trans (congrArg Host.Outcome.next ((if_pos reach).trans
      ((if_pos (holdsPage_iox_dropHalf holds)).trans (if_pos rfl)))), left.cause_eq, left.mem⟩
  · obtain ⟨v, left⟩ := started_coldStart 4 f s
    exact ⟨_, (exec_coldReset_of_powered on).trans (congrArg Host.Outcome.next (if_pos (by simp [low0, low1, both]))), left.cause_eq,
      left.mem⟩
  · refine ⟨_, exec_portReset_perst hw hp high, ?_⟩
    simp only [hport_modHport, func_modHport, tearPort, func_resetPf _ hs]
    exact ⟨trivial, trivial, trivial, trivial, rfl⟩
  · obtain ⟨link, perst⟩ := hport_trainLink (port := port) (s := modHport port (fun h => { h with perst := false }) s)
    refine ⟨_, exec_perstDeassert_powered hp low powered, link, ?_, ?_⟩
    · rw [perst, hport_modHport]
    · rw [trainLink_frame, modHport, setHport_frame]
  · refine ⟨_, exec_functionReady_pf hw hp training waits, ?_⟩
    rw [raiseLink_of_training training]
    have link : hport (modHport port (fun h => { h with link := .l0, width := 16, speed := 6, flit := true, cxl := true }) s) port =
      { hport s port with link := .l0, width := 16, speed := 6, flit := true, cxl := true } := hport_modHport _
    have tidy : Tidy (modHport port (fun h => { h with link := .l0, width := 16, speed := 6, flit := true, cxl := true }) s) :=
      (keeps_modHport port _ s (.refl s)).tidy hs
    refine ⟨congrArg (·.link) link, congrArg (·.phase) (func_setFunc (pfOf port) _ tidy), ?_, ?_⟩
    · rw [modHport, setHport_frame]
      rfl
    · rw [modHport, setHport_frame]
      rfl
  · refine ⟨_, exec_memActiveSet_ready hw hp enabled up ready off none, ?_⟩
    have active : (hport (modHport port (fun h => { h with memActive := true }) s) port).memActive = true := by rw [hport_modHport]
    have frame : modHport port (fun h => { h with memActive := true }) s =
      { s with hiu := (modHport port (fun h => { h with memActive := true }) s).hiu } := by rw [modHport, setHport_frame]
    generalize modHport port (fun h => { h with memActive := true }) s = v at active frame
    have trial_eq : v.ccx.trial = s.ccx.trial := congrArg (·.ccx.trial) frame
    have mem : v.mem = s.mem := congrArg (·.mem) frame
    have ple : v.ple = s.ple := congrArg (·.ple) frame
    have same := endTrial_frame (s := v)
    refine ⟨?_, ?_, fun trial => (endTrial_of_trial (trial_eq.trans trial)).2, ?_, ?_⟩
    · rw [same]
      exact active
    · cases trial : v.ccx.trial
      · rw [endTrial, if_neg (by simp [trial]), trial]
      · exact (endTrial_of_trial trial).1
    · rw [same]
      exact mem
    · rw [same]
      exact ple
  · obtain ⟨inside, outside⟩ := mem_clearFrame t n (s := { s with mge := { s.mge with zeroing := s.mge.zeroing.erase (t, n) } })
      { hs with }
    exact ⟨_, exec_frameZeroed_of_zeroing hw zeroing held masks, rfl, inside, outside⟩
  · refine ⟨_, exec_lifecycleWipeDone_sound hw wiping, ?_⟩
    rw [openMemory_frame, mayEnable_wiped, wiped, noteStep_frame]
    exact ⟨rfl, rfl, rfl, counter_countBy_of_rising (twf_trising hs.cnts)⟩
end

section
/-! PROOFS. What every command and every step keeps (O3 – O6): the canonical form of memory and tables, the queue and the fuses,
command by command over the operations that it is made of. -/

set_option Elab.async false

namespace Sys2Proof.Machine

/-- A command answers a next state that keeps what every step keeps. -/
def NextKeeps (s : State) (o : Host.Outcome State Fault Refusal) : Prop := ∃ t, o = .next t ∧ Keeps s t

/-- What burns fuses and takes none back. -/
theorem keeps_burn {s : State} {o : Otp} (h : FusesKept s { s with otp := o }) : Keeps s { s with otp := o } :=
  ⟨fun x => { x with }, rfl, h⟩

theorem nextKeeps_onPacket (fport : Nat) (p : Pkt) (len : Nat) (body : State → State) (s : State)
    (hb : ∀ t, Keeps s t → Keeps s (body t)) : NextKeeps s (onPacket fport p len body s) :=
  ⟨_, rfl, keeps_whenAwake _ _ (.refl s) fun t ht => keeps_arrive _ _ _ _ _ _ t hb ht⟩

theorem nextKeeps_execRegisterWrite (w page off : Nat) (wide : Bool) (value : Word) (s : State) :
    NextKeeps s (execRegisterWrite w page off wide value s) := by
  refine ⟨_, rfl, ?_⟩
  with_reducible repeat' first | exact Keeps.refl _ | split | apply keeps_vfWrite | apply keeps_pageWrite

theorem nextKeeps_execExpertUnlock (w page key : Nat) (s : State) : NextKeeps s (execExpertUnlock w page key s) := by
  refine ⟨_, rfl, ?_⟩
  with_reducible repeat' first | exact Keeps.refl _ | apply keeps_pageWrite

theorem nextKeeps_execRelock (w page : Nat) (s : State) : NextKeeps s (execRelock w page s) := by
  refine ⟨_, rfl, ?_⟩
  with_reducible repeat' first | exact Keeps.refl _ | apply keeps_pageWrite

theorem nextKeeps_execUnitReset (w page : Nat) (s : State) : NextKeeps s (execUnitReset w page s) := by
  refine ⟨_, rfl, keeps_ownedWrite _ _ _ _ (fun t ht => ?_) (.refl s)⟩
  with_reducible repeat' first | assumption | split | apply keeps_noteErr | apply keeps_ignoreWrite | apply keeps_startReset

theorem nextKeeps_execUnitResetDone (page : Nat) (s : State) : NextKeeps s (execUnitResetDone page s) := by
  refine ⟨_, rfl, keeps_whenAwake _ _ (.refl s) fun t ht => ?_⟩
  with_reducible repeat'
    first
    | assumption | split | apply keeps_applyHeldWrite | apply keeps_modPage | apply keeps_endReset | apply Keeps.foldl | intro _

theorem nextKeeps_execUnitEnable (w page : Nat) (on : Bool) (s : State) : NextKeeps s (execUnitEnable w page on s) := by
  refine ⟨_, rfl, ?_⟩
  with_reducible repeat' first | exact Keeps.refl _ | apply keeps_pageWrite

theorem nextKeeps_execPresetWrite (w page : Nat) (value : Word) (s : State) : NextKeeps s (execPresetWrite w page value s) := by
  refine ⟨_, rfl, ?_⟩
  with_reducible repeat' first | exact Keeps.refl _ | split | apply keeps_pageWrite

theorem nextKeeps_execExpertWrite (w page off : Nat) (wide : Bool) (value : Word) (s : State) :
    NextKeeps s (execExpertWrite w page off wide value s) := by
  refine ⟨_, rfl, ?_⟩
  with_reducible repeat' first | exact Keeps.refl _ | split | apply keeps_pageWrite

theorem nextKeeps_execClaimWrite (w page value : Nat) (s : State) : NextKeeps s (execClaimWrite w page value s) := by
  refine ⟨_, rfl, ?_⟩
  with_reducible repeat'
    first
    | exact Keeps.refl _ | split | apply keeps_dropHalf | apply keeps_ignoreWrite | apply keeps_setPage | apply keeps_modPage
    | apply keeps_lockGroup | dsimp only

theorem nextKeeps_execSnap (w page : Nat) (s : State) : NextKeeps s (execSnap w page s) := by
  refine ⟨_, rfl, ?_⟩
  with_reducible repeat' first | exact Keeps.refl _ | split | apply keeps_takeSnapshot | apply keeps_dropHalf

theorem nextKeeps_execEvtPendClear (w page value : Nat) (s : State) : NextKeeps s (execEvtPendClear w page value s) := by
  refine ⟨_, rfl, ?_⟩
  with_reducible repeat' first | exact Keeps.refl _ | apply keeps_pageWrite

theorem nextKeeps_execProfileWrite (w : Nat) (value : Word) (s : State) : NextKeeps s (execProfileWrite w value s) := by
  refine ⟨_, rfl, keeps_ownedWrite _ _ _ _ (fun t ht => ?_) (.refl s)⟩
  with_reducible repeat'
    first
    | assumption | split | apply keeps_ignoreWrite | apply keeps_count | apply keeps_notePromotion | apply keeps_startFlashUse
    | apply keeps_startEnvelope | refine Keeps.upd ?_

theorem nextKeeps_execProfileApplied (s : State) : NextKeeps s (execProfileApplied s) := by
  refine ⟨_, rfl, keeps_whenAwake _ _ (.refl s) fun t ht => ?_⟩
  with_reducible repeat' first | assumption | split | apply keeps_applyPlacement | apply keeps_count | refine Keeps.upd ?_

theorem nextKeeps_execReserve (r : RingCmd) (ctx slabs tmask f1 f2 f3 b1 b2 b3 : Nat) (s : State) :
    NextKeeps s (execReserve r ctx slabs tmask f1 f2 f3 b1 b2 b3 s) := by
  refine ⟨_, rfl, keeps_ringRun _ _ _ _ (fun t ht => ?_) (.refl s)⟩
  with_reducible repeat' first | assumption | split | apply keeps_finish | apply keeps_noteDeny | apply keeps_reserveBody

theorem nextKeeps_execRelease (r : RingCmd) (ctx dest count f1 f2 f3 b1 b2 b3 : Nat) (s : State) :
    NextKeeps s (execRelease r ctx dest count f1 f2 f3 b1 b2 b3 s) := by
  refine ⟨_, rfl, keeps_ringRun _ _ _ _ (fun t ht => ?_) (.refl s)⟩
  with_reducible repeat' first | assumption | split | apply keeps_releaseOutcome | apply keeps_finish | dsimp only

theorem nextKeeps_execCtxCreate (w fn key : Nat) (s : State) : NextKeeps s (execCtxCreate w fn key s) := by
  refine ⟨_, rfl, keeps_ownedWrite _ _ _ _ (fun t ht => ?_) (.refl s)⟩
  with_reducible repeat'
    first
    | assumption | split | refine Keeps.of_snd (by assumption) ?_ | apply keeps_ctxDone | apply keeps_storeCtxCmd
    | apply keeps_createCtx | dsimp only

theorem nextKeeps_execCtxDestroy (w ctx : Nat) (s : State) : NextKeeps s (execCtxDestroy w ctx s) := by
  refine ⟨_, rfl, keeps_ownedWrite _ _ _ _ (fun t ht => ?_) (.refl s)⟩
  with_reducible repeat'
    first
    | assumption | split | apply keeps_ctxDone | apply keeps_drainCtx | apply keeps_tdiWindows | apply keeps_tdiError | dsimp only

theorem nextKeeps_execShareCreate (r : RingCmd) (ctx : Nat) (s : State) : NextKeeps s (execShareCreate r ctx s) := by
  refine ⟨_, rfl, keeps_ringRun _ _ _ _ (fun t ht => ?_) (.refl s)⟩
  with_reducible repeat'
    first
    | assumption | split | refine Keeps.of_snd (by assumption) ?_ | apply keeps_finish | apply keeps_withCtx | apply keeps_chooseFrom
    | apply keeps_setGroup | intro _

theorem nextKeeps_execShareAddSlabs (r : RingCmd) (ctx group dest count : Nat) (s : State) :
    NextKeeps s (execShareAddSlabs r ctx group dest count s) := by
  refine ⟨_, rfl, keeps_ringRun _ _ _ _ (fun t ht => keeps_finish _ _ _ (keeps_withCtx _ _ _ _ (fun u hu => ?_) ht)) (.refl s)⟩
  dsimp only
  split
  · exact hu
  · split
    · exact keeps_denyRun _ _ _ _ _ hu
    · exact .foldl (fun _ _ h => keeps_modMap _ _ _ h) hu

theorem nextKeeps_execShareAddMember (r : RingCmd) (ctx group member right : Nat) (s : State) :
    NextKeeps s (execShareAddMember r ctx group member right s) := by
  refine ⟨_, rfl, keeps_ringRun _ _ _ _ (fun t ht => ?_) (.refl s)⟩
  with_reducible repeat'
    first
    | assumption | split | refine Keeps.of_snd (by assumption) ?_ | apply keeps_gateCtx | apply keeps_complete | apply keeps_setMember
    | apply keeps_drainRevoked | dsimp only

theorem nextKeeps_execShareRemoveMember (r : RingCmd) (ctx group member : Nat) (s : State) :
    NextKeeps s (execShareRemoveMember r ctx group member s) := by
  refine ⟨_, rfl, keeps_ringRun _ _ _ _ (fun t ht => ?_) (.refl s)⟩
  with_reducible repeat'
    first
    | assumption | split | refine Keeps.of_snd (by assumption) ?_ | apply keeps_gateCtx | apply keeps_complete | apply keeps_leaveGroup

theorem nextKeeps_execShareDestroy (r : RingCmd) (ctx group : Nat) (s : State) : NextKeeps s (execShareDestroy r ctx group s) := by
  refine ⟨_, rfl, keeps_ringRun _ _ _ _ (fun t ht => ?_) (.refl s)⟩
  with_reducible repeat'
    first
    | assumption | split | refine Keeps.of_snd (by assumption) ?_ | apply keeps_gateCtx | apply keeps_complete
    | apply keeps_destroyGroup | apply keeps_drainRevoked | apply keeps_tdiWindows

theorem nextKeeps_execShareLeave (r : RingCmd) (ctx group : Nat) (s : State) : NextKeeps s (execShareLeave r ctx group s) := by
  refine ⟨_, rfl, keeps_ringRun _ _ _ _ (fun t ht => ?_) (.refl s)⟩
  with_reducible repeat'
    first
    | assumption | split | refine Keeps.of_snd (by assumption) ?_ | apply keeps_gateCtx | apply keeps_complete | apply keeps_leaveGroup

theorem nextKeeps_execMapWindow (r : RingCmd) (ctx rights aptBase firstSlab length : Nat) (s : State) :
    NextKeeps s (execMapWindow r ctx rights aptBase firstSlab length s) := by
  refine ⟨_, rfl, keeps_ringRun _ _ _ _ (fun t ht => ?_) (.refl s)⟩
  with_reducible repeat' first | assumption | apply keeps_finish | apply keeps_withCtx | apply keeps_mapBody

theorem nextKeeps_execUnmapWindow (r : RingCmd) (ctx window : Nat) (s : State) : NextKeeps s (execUnmapWindow r ctx window s) := by
  refine ⟨_, rfl, keeps_ringRun _ _ _ _ (fun t ht => ?_) (.refl s)⟩
  with_reducible repeat' first | assumption | split | apply keeps_complete | apply keeps_drainWindows | apply keeps_makeStale

theorem nextKeeps_execWindowDrainEnd (window : Nat) (s : State) : NextKeeps s (execWindowDrainEnd window s) := by
  refine ⟨_, rfl, keeps_whenAwake _ _ (.refl s) fun t ht => ?_⟩
  with_reducible repeat' first | assumption | split | apply keeps_drainStep | apply Keeps.foldl | intro _ | refine Keeps.upd ?_

theorem nextKeeps_execLdBaseWrite (w n : Nat) (value : Word) (s : State) : NextKeeps s (execLdBaseWrite w n value s) := by
  refine ⟨_, rfl, ?_⟩
  with_reducible repeat'
    first
    | assumption | exact Keeps.refl _ | split | apply keeps_ownedWrite | apply keeps_ignoreWrite | apply keeps_writePart | intro _
    | dsimp only

theorem nextKeeps_execSeal (r : RingCmd) (ctx dest count : Nat) (s : State) : NextKeeps s (execSeal r ctx dest count s) := by
  refine ⟨_, rfl, keeps_ringRun _ _ _ _ (fun t ht => keeps_finish _ _ _ (keeps_withCtx _ _ _ _ (fun u hu => ?_) ht)) (.refl s)⟩
  dsimp only
  split
  · exact hu
  · split
    · exact keeps_denyRun _ _ _ _ _ hu
    · exact .foldl (fun _ _ h => keeps_modMap _ _ _ h) hu

theorem nextKeeps_execCxlMemRead (port dpa : Nat) (s : State) : NextKeeps s (execCxlMemRead port dpa s) := by
  refine ⟨_, rfl, ?_⟩
  split
  · exact .refl s
  · split
    · exact keeps_poisonCxl _ _ _ (.refl s)
    · split
      · next h => exact keeps_poisonCxl _ _ _ (keeps_cxlCheck _ _ _ _ (.refl s) _ h)
      · next h => exact keeps_cxlServe _ _ _ _ _ (keeps_touch _ _ (keeps_cxlCheck_ok _ _ _ _ (.refl s) _ _ h))

theorem nextKeeps_execCxlMemWrite (port dpa : Nat) (data : List Byte) (s : State) : NextKeeps s (execCxlMemWrite port dpa data s) := by
  refine ⟨_, rfl, ?_⟩
  split
  · exact .refl s
  · split
    · exact keeps_emit _ _ (.refl s)
    · split
      · next h => exact keeps_emit _ _ (keeps_cxlCheck _ _ _ _ (.refl s) _ h)
      · next h => exact keeps_offerWrite _ _ (keeps_touch _ _ (keeps_cxlCheck_ok _ _ _ _ (.refl s) _ _ h))

theorem nextKeeps_execBarRead (fn off len : Nat) (secure : Bool) (s : State) : NextKeeps s (execBarRead fn off len secure s) := by
  refine ⟨_, rfl, ?_⟩
  with_reducible repeat' first | exact Keeps.refl _ | split | apply keeps_answerBar | apply keeps_barServe

theorem nextKeeps_execBarWrite (fn off : Nat) (data : List Byte) (secure : Bool) (s : State) :
    NextKeeps s (execBarWrite fn off data secure s) := by
  refine ⟨_, rfl, ?_⟩
  with_reducible repeat' first | exact Keeps.refl _ | split | apply keeps_barWritePart | apply Keeps.foldl | intro _

theorem nextKeeps_execTrayFlush (w : Nat) (s : State) : NextKeeps s (execTrayFlush w s) := by
  refine ⟨_, rfl, keeps_ownedWrite _ _ _ _ (fun t ht => ?_) (.refl s)⟩
  with_reducible repeat' first | assumption | apply keeps_startFlush

theorem nextKeeps_execTrayFlushDone (s : State) : NextKeeps s (execTrayFlushDone s) := by
  refine ⟨_, rfl, keeps_whenAwake _ _ (.refl s) fun t ht => ?_⟩
  with_reducible repeat' first | assumption | split | refine Keeps.upd ?_

theorem nextKeeps_execCompressIn (r : RingCmd) (ctx dest src len fmt mode table scope : Nat) (data : Dma) (s : State) :
    NextKeeps s (execCompressIn r ctx dest src len fmt mode table scope data s) := by
  refine ⟨_, rfl, keeps_ringRun _ _ _ _ (fun t ht => ?_) (.refl s)⟩
  with_reducible repeat'
    first
    | assumption | split | refine Keeps.of_snd (by assumption) ?_ | apply keeps_complete | apply keeps_gateCtx | apply keeps_checkRun
    | apply keeps_endTag | apply keeps_meetBuffer | apply keeps_compressBody

theorem nextKeeps_execRecode (r : RingCmd) (ctx dest len fmt mode table scope : Nat) (s : State) :
    NextKeeps s (execRecode r ctx dest len fmt mode table scope s) := by
  refine ⟨_, rfl, keeps_ringRun _ _ _ _ (fun t ht => ?_) (.refl s)⟩
  have opened {u v : State} (h : passGate r Opc.recode u = .open_ v) (hu : Keeps s u) : Keeps s v := keeps_passGate _ _ _ hu _ h
  with_reducible repeat'
    first
    | assumption | split | refine Keeps.of_snd (by assumption) ?_ | apply keeps_complete | apply keeps_gateCtx | apply keeps_checkRun
    | apply keeps_refusePass | apply keeps_joinLine | apply keeps_queuePasses | apply keeps_touchSlabs | apply keeps_recodeUse
    | refine opened (by assumption) ?_ | dsimp only

theorem nextKeeps_execPassStart (s : State) : NextKeeps s (execPassStart s) := by
  refine ⟨_, rfl, keeps_whenAwake _ _ (.refl s) fun t ht => ?_⟩
  with_reducible repeat' first | assumption | split | apply keeps_fillQueue | apply keeps_setPpu | exact fun x => (ht.tidy x).tables

theorem nextKeeps_execPassHistogramDone (s : State) : NextKeeps s (execPassHistogramDone s) := by
  refine ⟨_, rfl, keeps_whenAwake _ _ (.refl s) fun t ht => ?_⟩
  split
  · exact ht
  · next p _ =>
    have hc := Keeps.foldl_snd (fun (x : Counting × State) i h => keeps_countBlock p (p.first + i) x h) (l := List.range p.count)
        (p := ((⟨p.hist, false⟩ : Counting), t)) ht
    generalize (List.range p.count).foldl _ _ = c at hc ⊢
    with_reducible repeat'
      first
      | assumption | split | apply keeps_passDone | apply keeps_count | apply keeps_endPass | apply keeps_countSkips
      | apply keeps_endPassCmd | apply keeps_modPass | apply keeps_setTable

theorem nextKeeps_execTableBuildDone (s : State) : NextKeeps s (execTableBuildDone s) := by
  refine ⟨_, rfl, keeps_whenAwake _ _ (.refl s) fun t ht => ?_⟩
  with_reducible repeat' first | assumption | split | apply keeps_modPass | apply keeps_count | apply keeps_modTable

theorem nextKeeps_execPassComplete (s : State) : NextKeeps s (execPassComplete s) := by
  refine ⟨_, rfl, keeps_whenAwake _ _ (.refl s) fun t ht => ?_⟩
  with_reducible repeat'
    first
    | assumption | split | refine Keeps.of_snd (by assumption) ?_ | apply keeps_prepareAll | apply keeps_count
    | apply keeps_encodeScope | apply keeps_unpinTable | apply keeps_endPass | apply keeps_endPassCmd | apply keeps_passDone

theorem nextKeeps_execRetire (w id : Nat) (s : State) : NextKeeps s (execRetire w id s) := by
  refine ⟨_, rfl, keeps_ownedWrite _ _ _ _ (fun t ht => ?_) (.refl s)⟩
  with_reducible repeat' first | assumption | split | apply keeps_retireTable | apply keeps_ignoreWrite

theorem nextKeeps_execTableRetireAck (fport id epoch : Nat) (s : State) : NextKeeps s (execTableRetireAck fport id epoch s) := by
  refine ⟨_, rfl, keeps_whenAwake _ _ (.refl s) fun t ht => ?_⟩
  with_reducible repeat'
    first
    | assumption | split | apply keeps_arrive | apply keeps_releaseTables | apply keeps_setTable | apply keeps_modFport | intro _
    | dsimp only

theorem nextKeeps_execPeerAckTimeout (fport : Nat) (s : State) : NextKeeps s (execPeerAckTimeout fport s) := by
  refine ⟨_, rfl, keeps_whenAwake _ _ (.refl s) fun t ht => ?_⟩
  with_reducible repeat' first | assumption | split | apply keeps_endDecode | apply keeps_count

theorem nextKeeps_execBgRecodeWalk (s : State) : NextKeeps s (execBgRecodeWalk s) := by
  refine ⟨_, rfl, keeps_whenAwake _ _ (.refl s) fun t ht => ?_⟩
  with_reducible repeat'
    first
    | assumption | split | apply keeps_setPpu | apply keeps_bgRecode | dsimp only | exact fun x => (ht.tidy x).tables

theorem nextKeeps_execDecayTick (s : State) : NextKeeps s (execDecayTick s) := by
  refine ⟨_, rfl, keeps_whenAwake _ _ (.refl s) fun t ht => ?_⟩
  split
  · exact ht
  · dsimp only
    split
    · exact keeps_count _ _ _ (ht.step (fun x => { x with map := trising_map _ x.map }) rfl rfl)
    · exact ht.step (fun x => { x with map := trising_map _ x.map }) rfl rfl

theorem nextKeeps_execTouchMapSwap (s : State) : NextKeeps s (execTouchMapSwap s) := by
  refine ⟨_, rfl, keeps_whenAwake _ _ (.refl s) fun t ht => ?_⟩
  with_reducible repeat' first | assumption | split | apply keeps_expireVotes | refine Keeps.upd ?_

theorem nextKeeps_execPolicyPeriod (s : State) : NextKeeps s (execPolicyPeriod s) := by
  refine ⟨_, rfl, keeps_whenAwake _ _ (.refl s) fun t ht => ?_⟩
  with_reducible repeat' first | assumption | split | apply keeps_policyCtx | apply Keeps.foldl | intro _ | refine Keeps.upd ?_

theorem nextKeeps_execHint (r : RingCmd) (ctx dest count action target : Nat) (s : State) :
    NextKeeps s (execHint r ctx dest count action target s) := by
  refine ⟨_, rfl, keeps_ringRun _ _ _ _ (fun t ht => ?_) (.refl s)⟩
  with_reducible repeat'
    first
    | assumption | split | refine Keeps.of_snd (by assumption) ?_ | apply keeps_complete | apply keeps_gateCtx | apply keeps_checkRun
    | apply keeps_hintBody

theorem nextKeeps_execHintTmask (r : RingCmd) (ctx dest count tmask : Nat) (s : State) :
    NextKeeps s (execHintTmask r ctx dest count tmask s) := by
  refine ⟨_, rfl, keeps_ringRun _ _ _ _ (fun t ht => ?_) (.refl s)⟩
  with_reducible repeat'
    first
    | assumption | split | refine Keeps.of_snd (by assumption) ?_ | apply keeps_complete | apply keeps_gateCtx | apply keeps_checkRun
    | apply keeps_tmaskBody

theorem nextKeeps_execMoveStart (slab : Nat) (s : State) : NextKeeps s (execMoveStart slab s) := by
  refine ⟨_, rfl, keeps_whenAwake _ _ (.refl s) fun t ht => ?_⟩
  split
  · exact ht
  · split
    · exact ht
    · split
      · exact ht
      · split
        · next h => exact keeps_startMove _ _ _ (keeps_startFrame _ _ ht _ _ h)
        · exact ht

theorem nextKeeps_execCopyPassDone (slab : Nat) (s : State) : NextKeeps s (execCopyPassDone slab s) := by
  refine ⟨_, rfl, keeps_whenAwake _ _ (.refl s) fun t ht => ?_⟩
  have scanned (m : Move) {u : State} {b : Bool} (h : scanCopy slab m t = (u, b)) : Keeps s u := by
    simpa only [h] using keeps_scanCopy slab m t ht
  split
  · exact ht
  · split
    · exact ht
    · split
      · next h => exact scanned _ h
      · next h =>
        split
        · exact keeps_passEnd _ _ _ (scanned _ h)
        · exact scanned _ h

theorem nextKeeps_execMoveFlip (slab : Nat) (s : State) : NextKeeps s (execMoveFlip slab s) := by
  refine ⟨_, rfl, keeps_whenAwake _ _ (.refl s) fun t ht => ?_⟩
  with_reducible repeat' first | assumption | split | apply keeps_flipMove

theorem nextKeeps_execHoldTimeout (slab : Nat) (s : State) : NextKeeps s (execHoldTimeout slab s) := by
  refine ⟨_, rfl, keeps_whenAwake _ _ (.refl s) fun t ht => ?_⟩
  with_reducible repeat' first | assumption | split | apply keeps_giveUp

theorem nextKeeps_execOldFrameRelease (slab : Nat) (s : State) : NextKeeps s (execOldFrameRelease slab s) := by
  refine ⟨_, rfl, keeps_whenAwake _ _ (.refl s) fun t ht => ?_⟩
  with_reducible repeat'
    first
    | assumption | apply keeps_settleMasks | apply keeps_retryHeld | apply keeps_freeToZeroing | apply Keeps.foldl | intro _
    | refine Keeps.upd ?_

theorem nextKeeps_execPoolDwellExpiry (slab : Nat) (s : State) : NextKeeps s (execPoolDwellExpiry slab s) := by
  refine ⟨_, rfl, keeps_whenAwake _ _ (.refl s) fun t ht => ?_⟩
  with_reducible repeat' first | assumption | split | apply keeps_askMove | dsimp only

theorem nextKeeps_execMgeGuaranteeWrite (w : Nat) (value : Word) (s : State) : NextKeeps s (execMgeGuaranteeWrite w value s) := by
  refine ⟨_, rfl, ?_⟩
  with_reducible repeat'
    first
    | assumption | exact Keeps.refl _ | split | apply keeps_expertGate | apply keeps_noteErr | apply keeps_setReg
    | apply keeps_refusedAdmission | apply keeps_noteRefusal | apply keeps_settleScales | apply keeps_admitted | intro _ | dsimp only

/-- The flash once its channels and groups are mounted under a new media key. -/
def mountedFlash (report : FlashReport) (s : State) : State :=
  mountGroup 1 report (mountGroup 0 report (mountChans report { (draw s).2 with
    fmg := { (draw s).2.fmg with mounting := false, reason := mountReason report, mediaKey := (draw s).1, nextGen := 0 } }))

theorem keeps_mountedFlash (report : FlashReport) (s : State) (hk : Keeps s0 s) : Keeps s0 (mountedFlash report s) :=
  keeps_mountGroup 1 report _ (keeps_mountGroup 0 report _ (keeps_mountChans report _ (.upd (keeps_draw s hk))))

/-- The mount told, with the frames that it gives. -/
def toldMount (s : State) : State :=
  noteMount { s with fmg := { s.fmg with usableFrames := groupFrames s.fmg.g0 + groupFrames s.fmg.g1 } }

theorem keeps_toldMount (s : State) (hk : Keeps s0 s) : Keeps s0 (toldMount s) := keeps_noteMount _ (.upd hk)

theorem nextKeeps_execFlashMountDone (report : FlashReport) (s : State) : NextKeeps s (execFlashMountDone report s) := by
  refine ⟨_, rfl, keeps_whenAwake _ _ (.refl s) fun t ht => ?_⟩
  split
  · exact ht
  · have told : Keeps s (toldMount (mountedFlash report t)) := keeps_toldMount _ (keeps_mountedFlash report t ht)
    change Keeps s (if t3Online (toldMount (mountedFlash report t)) then
      retryHeld (settleScales (recountSlabs (toldMount (mountedFlash report t)))) else toldMount (mountedFlash report t))
    split
    · exact keeps_retryHeld _ (keeps_settleScales _ (keeps_recountSlabs _ told))
    · exact told

theorem nextKeeps_execFlashProgramDone (slab : Nat) (s : State) : NextKeeps s (execFlashProgramDone slab s) := by
  refine ⟨_, rfl, keeps_whenAwake _ _ (.refl s) fun t ht => ?_⟩
  split
  · split
    · split
      · exact ht
      · split
        · next h => exact keeps_modMove _ _ _ (keeps_programSlot _ _ _ _ ht _ h)
        · exact ht
    · exact ht
  · exact ht

theorem nextKeeps_execProgramFailure (slab channel sb : Nat) (s : State) : NextKeeps s (execProgramFailure slab channel sb s) := by
  refine ⟨_, rfl, keeps_whenAwake _ _ (.refl s) fun t ht => ?_⟩
  with_reducible repeat'
    first
    | assumption | split | apply keeps_rewriteRows | apply keeps_retireBlock | apply keeps_count | apply keeps_noteFault

theorem nextKeeps_execEraseFailure (group channel block : Nat) (s : State) : NextKeeps s (execEraseFailure group channel block s) := by
  refine ⟨_, rfl, keeps_whenAwake _ _ (.refl s) fun t ht => ?_⟩
  with_reducible repeat' first | assumption | split | apply keeps_retireBlock | apply keeps_noteFault | dsimp only

theorem nextKeeps_execGcRelocate (group : Nat) (s : State) : NextKeeps s (execGcRelocate group s) := by
  refine ⟨_, rfl, keeps_whenAwake _ _ (.refl s) fun t ht => ?_⟩
  with_reducible repeat' first | assumption | split | apply keeps_relocate | apply keeps_freeEmptySbs

theorem nextKeeps_execDieRetire (loss : DieLoss) (s : State) : NextKeeps s (execDieRetire loss s) := by
  refine ⟨_, rfl, keeps_whenAwake _ _ (.refl s) fun t ht => ?_⟩
  with_reducible repeat' first | assumption | split | apply keeps_retireDie | dsimp only

theorem nextKeeps_execRetryStepDone (slab block : Nat) (ok : Bool) (s : State) : NextKeeps s (execRetryStepDone slab block ok s) := by
  refine ⟨_, rfl, keeps_whenAwake _ _ (.refl s) fun t ht => ?_⟩
  with_reducible repeat' first | assumption | split | apply keeps_recovered | apply keeps_setRecovery | apply keeps_ladderEnds

theorem nextKeeps_execRebuildDone (slab block : Nat) (ok : Bool) (s : State) : NextKeeps s (execRebuildDone slab block ok s) := by
  refine ⟨_, rfl, keeps_whenAwake _ _ (.refl s) fun t ht => ?_⟩
  with_reducible repeat'
    first
    | assumption | split | apply keeps_failRecovery | apply keeps_startMates | apply keeps_recovered | dsimp only

theorem nextKeeps_execCxlFlashDeadline (port dpa : Nat) (s : State) : NextKeeps s (execCxlFlashDeadline port dpa s) := by
  refine ⟨_, rfl, keeps_whenAwake _ _ (.refl s) fun t ht => ?_⟩
  with_reducible repeat'
    first
    | assumption | split | apply keeps_readsEnded | apply keeps_poisonCxl | apply keeps_raise | apply keeps_count | refine Keeps.upd ?_

theorem nextKeeps_execControllerIssue (chan : Nat) (arrivals : List DramReq) (s : State) :
    NextKeeps s (execControllerIssue chan arrivals s) := by
  refine ⟨_, rfl, keeps_whenPowered _ _ (.refl s) fun t ht => ?_⟩
  with_reducible repeat'
    first
    | assumption | split | apply keeps_acceptReq | apply keeps_meetSelfRefresh | apply keeps_settleDeferred | apply keeps_issueRefresh
    | apply keeps_serveReq | apply Keeps.foldl | intro _ | dsimp only

theorem nextKeeps_execAgePromote (chan id : Nat) (s : State) : NextKeeps s (execAgePromote chan id s) := by
  refine ⟨_, rfl, keeps_whenAwake _ _ (.refl s) fun t ht => ?_⟩
  with_reducible repeat' first | assumption | split | apply keeps_settleDeferred | apply keeps_count | apply keeps_modChan

theorem nextKeeps_execPanicRaise (ctrl fill : Nat) (s : State) : NextKeeps s (execPanicRaise ctrl fill s) := by
  refine ⟨_, rfl, keeps_whenAwake _ _ (.refl s) fun t ht => ?_⟩
  with_reducible repeat'
    first
    | assumption | split | apply keeps_setCtrl | apply keeps_count | apply keeps_settleDeferred | apply Keeps.foldl | intro _

theorem nextKeeps_execPanicClear (ctrl fill : Nat) (s : State) : NextKeeps s (execPanicClear ctrl fill s) := by
  refine ⟨_, rfl, keeps_whenAwake _ _ (.refl s) fun t ht => ?_⟩
  with_reducible repeat' first | assumption | split | apply keeps_settleDeferred | apply keeps_setCtrl | apply Keeps.foldl | intro _

theorem nextKeeps_execRefreshInterval (chan rank : Nat) (s : State) : NextKeeps s (execRefreshInterval chan rank s) := by
  refine ⟨_, rfl, keeps_whenPowered _ _ (.refl s) fun t ht => ?_⟩
  with_reducible repeat' first | assumption | split | apply keeps_setChan | apply keeps_count | dsimp only

theorem nextKeeps_execRefreshIssue (chan rank : Nat) (s : State) : NextKeeps s (execRefreshIssue chan rank s) := by
  refine ⟨_, rfl, keeps_whenPowered _ _ (.refl s) fun t ht => ?_⟩
  with_reducible repeat' first | assumption | apply keeps_issueRefresh

theorem nextKeeps_execRangeReading (ctrl : Nat) (readings : List Nat) (s : State) :
    NextKeeps s (execRangeReading ctrl readings s) := by
  refine ⟨_, rfl, keeps_whenPowered _ _ (.refl s) fun t ht => ?_⟩
  with_reducible repeat'
    first
    | assumption | split | apply keeps_withPins | apply keeps_setCtrl | apply keeps_applyRange | intro _ | dsimp only

theorem nextKeeps_execSrEntry (chan : Nat) (s : State) : NextKeeps s (execSrEntry chan s) := by
  refine ⟨_, rfl, keeps_whenPowered _ _ (.refl s) fun t ht => ?_⟩
  with_reducible repeat' first | assumption | split | apply keeps_enterSr | apply Keeps.foldl | intro _ | dsimp only

theorem nextKeeps_execSrExit (chan : Nat) (s : State) : NextKeeps s (execSrExit chan s) := by
  refine ⟨_, rfl, keeps_whenPowered _ _ (.refl s) fun t ht => ?_⟩
  with_reducible repeat' first | assumption | split | apply keeps_modChan | apply keeps_meetSelfRefresh

theorem nextKeeps_execHashMaskWrite (w page off : Nat) (value : Word) (s : State) :
    NextKeeps s (execHashMaskWrite w page off value s) := by
  refine ⟨_, rfl, ?_⟩
  with_reducible repeat'
    first
    | assumption | exact Keeps.refl _ | split | apply keeps_ownedWrite | apply keeps_writeHashPreset | apply keeps_expertGate
    | apply keeps_writeMask | intro _ | dsimp only

theorem nextKeeps_execChannelLost (chan : Nat) (s : State) : NextKeeps s (execChannelLost chan s) := by
  refine ⟨_, rfl, keeps_whenAwake _ _ (.refl s) fun t ht => ?_⟩
  with_reducible repeat' first | assumption | split | apply keeps_loseChannels | dsimp only

theorem nextKeeps_execIcingBlock (read : IcingRead) (s : State) : NextKeeps s (execIcingBlock read s) := by
  refine ⟨_, rfl, keeps_whenAwake _ _ (.refl s) fun t ht => ?_⟩
  with_reducible repeat' first | assumption | split | apply keeps_setPatrol | apply keeps_settleLag | apply keeps_iceBlock | dsimp only

theorem nextKeeps_execIceDeferExpiry (chan id : Nat) (s : State) : NextKeeps s (execIceDeferExpiry chan id s) := by
  refine ⟨_, rfl, keeps_whenAwake _ _ (.refl s) fun t ht => ?_⟩
  with_reducible repeat' first | assumption | split | apply keeps_settleDeferred | apply keeps_modChan

theorem nextKeeps_execToffeeRewrite (word : Nat) (again sppr remap : Bool) (s : State) :
    NextKeeps s (execToffeeRewrite word again sppr remap s) := by
  refine ⟨_, rfl, keeps_whenAwake _ _ (.refl s) fun t ht => ?_⟩
  with_reducible repeat'
    first
    | assumption | split | apply keeps_spareAny | apply keeps_rewriteWord | apply keeps_count | apply keeps_setToffee
    | apply keeps_correctWord | refine Keeps.upd ?_

theorem nextKeeps_execToffeeExpire (word : Nat) (s : State) : NextKeeps s (execToffeeExpire word s) := by
  refine ⟨_, rfl, keeps_whenAwake _ _ (.refl s) fun t ht => ?_⟩
  with_reducible repeat' first | assumption | split | apply keeps_count | refine Keeps.upd ?_

theorem nextKeeps_execIceInject (w : Nat) (value : Word) (s : State) : NextKeeps s (execIceInject w value s) := by
  refine ⟨_, rfl, ?_⟩
  with_reducible repeat'
    first
    | assumption | exact Keeps.refl _ | split | apply keeps_expertGate | apply keeps_noteErr | apply keeps_setReg
    | apply keeps_plantError | intro _ | dsimp only

theorem nextKeeps_execRefsRecountDone (s : State) : NextKeeps s (execRefsRecountDone s) := by
  refine ⟨_, rfl, keeps_whenAwake _ _ (.refl s) fun t ht => ?_⟩
  with_reducible repeat'
    first
    | assumption | split | apply keeps_modTable | apply keeps_settleTable | apply Keeps.foldl | intro _ | refine Keeps.upd ?_

theorem nextKeeps_execCvuJobStart (w n : Nat) (value : Word) (s : State) : NextKeeps s (execCvuJobStart w n value s) := by
  refine ⟨_, rfl, ?_⟩
  with_reducible repeat'
    first
    | assumption | exact Keeps.refl _ | split | apply keeps_ownedWrite | apply keeps_storeJobCtrl | apply keeps_startJob | intro _

theorem nextKeeps_execCvuDataWrite (w n : Nat) (data : Word) (s : State) : NextKeeps s (execCvuDataWrite w n data s) := by
  refine ⟨_, rfl, ?_⟩
  with_reducible repeat'
    first
    | assumption | exact Keeps.refl _ | split | apply keeps_ownedWrite | apply keeps_countBy | apply keeps_setCvu | intro _
    | dsimp only

theorem nextKeeps_execCvuJobFinish (w n : Nat) (value : Word) (s : State) : NextKeeps s (execCvuJobFinish w n value s) := by
  refine ⟨_, rfl, ?_⟩
  with_reducible repeat'
    first
    | assumption | exact Keeps.refl _ | split | apply keeps_ownedWrite | apply keeps_storeJobCtrl | apply keeps_count
    | apply keeps_setCvu | intro _ | dsimp only

theorem nextKeeps_execCvuJobDone (n : Nat) (s : State) : NextKeeps s (execCvuJobDone n s) := by
  refine ⟨_, rfl, keeps_whenAwake _ _ (.refl s) fun t ht => ?_⟩
  with_reducible repeat'
    first
    | assumption | split | refine Keeps.of_snd (by assumption) ?_ | apply keeps_scanBlocks | apply keeps_settleCvuScan
    | apply keeps_count | apply keeps_countBy | apply keeps_setCvu | dsimp only

theorem nextKeeps_execCheck (r : RingCmd) (ctx preset mode flags width addr result length : Nat) (poly init : Word) (s : State) :
    NextKeeps s (execCheck r ctx preset mode flags width addr result length poly init s) := by
  refine ⟨_, rfl, keeps_ringRun _ _ _ _ (fun t ht => ?_) (.refl s)⟩
  split
  · next h => exact keeps_settleCvuScan _ (keeps_complete _ _ _ _ _ (.of_snd h (keeps_checkGate _ _ _ _ _ _ _ _ _ _ _ _ ht)))
  · next s1 h =>
    have h1 : Keeps s s1 := .of_snd h (keeps_checkGate _ _ _ _ _ _ _ _ _ _ _ _ ht)
    split
    · next e => exact keeps_complete _ _ _ _ _ (keeps_acceptCheck _ _ h1 _ e)
    · next s2 e =>
      have h2 : Keeps s s2 := keeps_acceptCheck_ok _ _ h1 _ e
      split
      · exact h2
      · exact keeps_runCheck _ _ _ _ _ _ _ _ _ _ h2

theorem nextKeeps_execBwrWindow (traffic : Traffic) (s : State) : NextKeeps s (execBwrWindow traffic s) := by
  refine ⟨_, rfl, keeps_whenAwake _ _ (.refl s) fun t ht => ?_⟩
  with_reducible repeat' first | assumption | split | apply keeps_masterWindow | apply Keeps.foldl | intro _

theorem nextKeeps_execPaceSample (r : PaceReading) (s : State) : NextKeeps s (execPaceSample r s) := by
  refine ⟨_, rfl, keeps_whenPowered _ _ (.refl s) fun t ht => ?_⟩
  with_reducible repeat' first | assumption | apply keeps_whenAwake | apply keeps_settleLoads | refine Keeps.upd ?_

theorem nextKeeps_execPaceShortfall (s : State) : NextKeeps s (execPaceShortfall s) := by
  refine ⟨_, rfl, keeps_whenAwake _ _ (.refl s) fun t ht => ?_⟩
  with_reducible repeat' first | assumption | split | apply keeps_raise | refine Keeps.upd ?_

theorem nextKeeps_execVoltageStep (s : State) : NextKeeps s (execVoltageStep s) := by
  refine ⟨_, rfl, keeps_whenPowered _ _ (.refl s) fun t ht => ?_⟩
  with_reducible repeat' first | assumption | split | apply keeps_emit | apply keeps_count | refine Keeps.upd ?_

theorem nextKeeps_execPowerSample (r : PowerReading) (s : State) : NextKeeps s (execPowerSample r s) := by
  refine ⟨_, rfl, keeps_whenPowered _ _ (.refl s) fun t ht => ?_⟩
  with_reducible repeat'
    first
    | assumption | split | apply keeps_settleAvs | apply keeps_whenAwake | apply keeps_settleExceeded | apply keeps_settleEnvelope
    | refine Keeps.upd ?_

theorem nextKeeps_execThermalCheck (tj sensor stackMax : Nat) (s : State) : NextKeeps s (execThermalCheck tj sensor stackMax s) := by
  refine ⟨_, rfl, keeps_whenPowered _ _ (.refl s) fun t ht => ?_⟩
  with_reducible repeat'
    first
    | assumption | split | apply keeps_withPins | apply keeps_whenAwake | apply keeps_raise | intro _ | refine Keeps.upd ?_

theorem nextKeeps_execCeilingStep (s : State) : NextKeeps s (execCeilingStep s) := by
  refine ⟨_, rfl, keeps_whenPowered _ _ (.refl s) fun t ht => ?_⟩
  with_reducible repeat' first | assumption | split | refine Keeps.upd ?_

theorem nextKeeps_execThermalTrip (s : State) : NextKeeps s (execThermalTrip s) := by
  refine ⟨_, rfl, ?_⟩
  with_reducible repeat' first | exact Keeps.refl _ | split | apply keeps_takeover

theorem nextKeeps_execComparatorFire (n : Nat) (s : State) : NextKeeps s (execComparatorFire n s) := by
  refine ⟨_, rfl, keeps_whenAwake _ _ (.refl s) fun t ht => ?_⟩
  with_reducible repeat' first | assumption | split | apply keeps_startRun | apply keeps_startCapture | refine Keeps.upd ?_

theorem nextKeeps_execGemm (s : State) : NextKeeps s (execGemm s) := by
  refine ⟨_, rfl, keeps_whenAwake _ _ (.refl s) fun t ht => ?_⟩
  with_reducible repeat' first | assumption | apply keeps_sheetStep | apply keeps_keepNothing

theorem nextKeeps_execBdot (s : State) : NextKeeps s (execBdot s) := by
  refine ⟨_, rfl, keeps_whenAwake _ _ (.refl s) fun t ht => ?_⟩
  with_reducible repeat' first | assumption | apply keeps_sheetStep | apply keeps_keepScores

theorem nextKeeps_execSwsum (s : State) : NextKeeps s (execSwsum s) := by
  refine ⟨_, rfl, keeps_whenAwake _ _ (.refl s) fun t ht => ?_⟩
  with_reducible repeat' first | assumption | apply keeps_sheetStep | apply keeps_keepNothing

theorem nextKeeps_execTopk (s : State) : NextKeeps s (execTopk s) := by
  refine ⟨_, rfl, keeps_whenAwake _ _ (.refl s) fun t ht => ?_⟩
  with_reducible repeat' first | assumption | apply keeps_sheetStep | apply keeps_keepNothing

theorem nextKeeps_execReduce (s : State) : NextKeeps s (execReduce s) := by
  refine ⟨_, rfl, keeps_whenAwake _ _ (.refl s) fun t ht => ?_⟩
  with_reducible repeat' first | assumption | apply keeps_sheetStep | apply keeps_keepNothing

theorem nextKeeps_execUpdate (s : State) : NextKeeps s (execUpdate s) := by
  refine ⟨_, rfl, keeps_whenAwake _ _ (.refl s) fun t ht => ?_⟩
  with_reducible repeat' first | assumption | apply keeps_sheetStep | apply keeps_keepNothing

theorem nextKeeps_execEncode (s : State) : NextKeeps s (execEncode s) := by
  refine ⟨_, rfl, keeps_whenAwake _ _ (.refl s) fun t ht => ?_⟩
  with_reducible repeat'
    first
    | assumption | split | refine Keeps.of_snd (by assumption) ?_ | apply keeps_sendStep | apply keeps_holdStep
    | apply keeps_encodeStep

theorem nextKeeps_execStepComplete (s : State) : NextKeeps s (execStepComplete s) := by
  refine ⟨_, rfl, keeps_whenAwake _ _ (.refl s) fun t ht => ?_⟩
  with_reducible repeat'
    first
    | assumption | split | apply keeps_setSht | apply keeps_endStall | apply keeps_countFree | apply keeps_count | apply keeps_nextStep
    | apply keeps_sendTokens

theorem nextKeeps_execStepDeadline (held : Nat) (s : State) : NextKeeps s (execStepDeadline held s) := by
  refine ⟨_, rfl, keeps_whenAwake _ _ (.refl s) fun t ht => ?_⟩
  with_reducible repeat'
    first
    | assumption | split | apply keeps_sendTokens | apply keeps_count | apply keeps_setRun | refine Keeps.upd ?_

theorem nextKeeps_execHandshakeTimeout (row col : Nat) (s : State) : NextKeeps s (execHandshakeTimeout row col s) := by
  refine ⟨_, rfl, keeps_whenAwake _ _ (.refl s) fun t ht => ?_⟩
  with_reducible repeat' first | assumption | split | apply keeps_tileFault

theorem nextKeeps_execStepFault (cause row col : Nat) (s : State) : NextKeeps s (execStepFault cause row col s) := by
  refine ⟨_, rfl, keeps_whenAwake _ _ (.refl s) fun t ht => ?_⟩
  with_reducible repeat'
    first
    | assumption | split | apply keeps_spareTile | apply keeps_tileFault | apply keeps_storeFault | apply keeps_noteTransit
    | apply keeps_setTile | apply keeps_stepFaultAt

theorem nextKeeps_execRowRemap (s : State) : NextKeeps s (execRowRemap s) := by
  refine ⟨_, rfl, keeps_whenAwake _ _ (.refl s) fun t ht => ?_⟩
  with_reducible repeat' first | assumption | split | apply keeps_count | apply keeps_setSht | apply keeps_raise | dsimp only

theorem nextKeeps_execTileStoreZeroDone (s : State) : NextKeeps s (execTileStoreZeroDone s) := by
  refine ⟨_, rfl, keeps_whenAwake _ _ (.refl s) fun t ht => ?_⟩
  with_reducible repeat' first | assumption | split | apply keeps_finishRun | apply keeps_setSht

theorem nextKeeps_execTileTest (w : Nat) (value : Word) (s : State) : NextKeeps s (execTileTest w value s) := by
  refine ⟨_, rfl, ?_⟩
  with_reducible repeat'
    first
    | assumption | exact Keeps.refl _ | split | apply keeps_expertGate | apply keeps_noteErr | apply keeps_setReg
    | apply keeps_failTile | apply keeps_setSht | intro _ | dsimp only

theorem nextKeeps_execLoadRecipe (r : RingCmd) (ctx notify imageAddr imageBytes bindAddr tag : Nat) (data : RecipeData) (s : State) :
    NextKeeps s (execLoadRecipe r ctx notify imageAddr imageBytes bindAddr tag data s) := by
  refine ⟨_, rfl, keeps_ringRun _ _ _ _ (fun t ht => ?_) (.refl s)⟩
  with_reducible repeat'
    first
    | assumption | split | refine Keeps.of_snd (by assumption) ?_ | apply keeps_complete | apply keeps_gateCtx | apply keeps_refuseLoad
    | apply keeps_endTag | apply keeps_loadImage

theorem nextKeeps_execRun (r : RingCmd) (ctx handle fromStep startNs : Nat) (s : State) :
    NextKeeps s (execRun r ctx handle fromStep startNs s) := by
  refine ⟨_, rfl, keeps_ringRun _ _ _ _ (fun t ht => ?_) (.refl s)⟩
  with_reducible repeat'
    first
    | assumption | split | refine Keeps.of_snd (by assumption) ?_ | apply keeps_gateCtx | apply keeps_complete | apply keeps_runBody

theorem nextKeeps_execAbortStop (r : RingCmd) (ctx handle mode : Nat) (s : State) :
    NextKeeps s (execAbortStop r ctx handle mode s) := by
  refine ⟨_, rfl, keeps_ringRun _ _ _ _ (fun t ht => ?_) (.refl s)⟩
  with_reducible repeat'
    first
    | assumption | split | refine Keeps.of_snd (by assumption) ?_ | apply keeps_complete | apply keeps_gateCtx | apply keeps_abortRun

theorem nextKeeps_execAbortUnload (r : RingCmd) (ctx handle : Nat) (s : State) : NextKeeps s (execAbortUnload r ctx handle s) := by
  refine ⟨_, rfl, keeps_ringRun _ _ _ _ (fun t ht => ?_) (.refl s)⟩
  with_reducible repeat'
    first
    | assumption | split | refine Keeps.of_snd (by assumption) ?_ | apply keeps_gateCtx | apply keeps_complete | apply keeps_abortRun

theorem nextKeeps_execArm (fport src group leadId fromStep : Nat) (s : State) :
    NextKeeps s (execArm fport src group leadId fromStep s) := by
  refine ⟨_, rfl, keeps_whenAwake _ _ (.refl s) fun t ht => ?_⟩
  with_reducible repeat'
    first
    | assumption | split | apply keeps_arrive | apply keeps_foreign | apply keeps_answerArm | intro _ | refine Keeps.upd ?_

theorem nextKeeps_execReady (fport src group : Nat) (s : State) : NextKeeps s (execReady fport src group s) := by
  refine ⟨_, rfl, keeps_whenAwake _ _ (.refl s) fun t ht => ?_⟩
  with_reducible repeat'
    first
    | assumption | split | apply keeps_arrive | apply keeps_foreign | apply keeps_setRun | apply keeps_giveStart | intro _ | dsimp only

theorem nextKeeps_execRefuse (fport src group : Nat) (status : Nat) (s : State) :
    NextKeeps s (execRefuse fport src group status s) := by
  refine ⟨_, rfl, keeps_whenAwake _ _ (.refl s) fun t ht => ?_⟩
  with_reducible repeat' first | assumption | split | apply keeps_arrive | apply keeps_foreign | apply keeps_failStart | intro _

theorem nextKeeps_execGroupCancel (fport src group : Nat) (s : State) : NextKeeps s (execGroupCancel fport src group s) := by
  refine ⟨_, rfl, keeps_whenAwake _ _ (.refl s) fun t ht => ?_⟩
  with_reducible repeat' first | assumption | split | apply keeps_arrive | apply keeps_foreign | apply keeps_disarm | intro _

theorem nextKeeps_execGo (fport src group t0 : Nat) (s : State) : NextKeeps s (execGo fport src group t0 s) := by
  refine ⟨_, rfl, keeps_whenAwake _ _ (.refl s) fun t ht => ?_⟩
  with_reducible repeat'
    first
    | assumption | split | apply keeps_arrive | apply keeps_foreign | apply keeps_endRun | apply keeps_setStart | intro _

theorem nextKeeps_execReadyTimeout (s : State) : NextKeeps s (execReadyTimeout s) := by
  refine ⟨_, rfl, keeps_whenAwake _ _ (.refl s) fun t ht => ?_⟩
  with_reducible repeat' first | assumption | split | apply keeps_failStart

theorem nextKeeps_execBarrier (fport src group step delta : Nat) (s : State) :
    NextKeeps s (execBarrier fport src group step delta s) := by
  refine ⟨_, rfl, keeps_whenAwake _ _ (.refl s) fun t ht => ?_⟩
  with_reducible repeat'
    first
    | assumption | split | apply keeps_arrive | apply keeps_foreign | apply keeps_adopt | apply keeps_count | apply keeps_setRun
    | intro _

theorem nextKeeps_execAbortToken (fport src group step outcome : Nat) (s : State) :
    NextKeeps s (execAbortToken fport src group step outcome s) := by
  refine ⟨_, rfl, keeps_whenAwake _ _ (.refl s) fun t ht => ?_⟩
  with_reducible repeat'
    first
    | assumption | split | apply keeps_arrive | apply keeps_endRun | apply keeps_count | apply keeps_setRun | apply keeps_foreign
    | intro _

theorem nextKeeps_execPeerTimeout (dev : Nat) (s : State) : NextKeeps s (execPeerTimeout dev s) := by
  refine ⟨_, rfl, keeps_whenAwake _ _ (.refl s) fun t ht => ?_⟩
  with_reducible repeat' first | assumption | split | apply keeps_endRun

theorem nextKeeps_execRcpData (fport src group step delta : Nat) (data : List Byte) (s : State) :
    NextKeeps s (execRcpData fport src group step delta data s) := by
  refine ⟨_, rfl, keeps_whenAwake _ _ (.refl s) fun t ht => ?_⟩
  with_reducible repeat'
    first
    | assumption | split | apply keeps_foreign | apply keeps_adopt | apply keeps_rxPacket | apply keeps_setRun

theorem nextKeeps_execLinkTrain (fport lanes : Nat) (s : State) : NextKeeps s (execLinkTrain fport lanes s) := by
  refine ⟨_, rfl, keeps_whenAwake _ _ (.refl s) fun t ht => ?_⟩
  with_reducible repeat' first | assumption | split | apply keeps_downPort | apply keeps_modFport | apply keeps_sendHello | dsimp only

theorem nextKeeps_execHello (fport nonce : Nat) (s : State) : NextKeeps s (execHello fport nonce s) := by
  refine ⟨_, rfl, keeps_whenAwake _ _ (.refl s) fun t ht => ?_⟩
  with_reducible repeat'
    first
    | assumption | split | apply keeps_rxPacket | apply keeps_sendHello | apply keeps_modFport | apply keeps_emit | dsimp only

theorem nextKeeps_execSpdm (fport : Nat) (msg : SpdmMsg) (s : State) : NextKeeps s (execSpdm fport msg s) := by
  refine ⟨_, rfl, keeps_whenAwake _ _ (.refl s) fun t ht => ?_⟩
  with_reducible repeat'
    first
    | assumption | split | apply keeps_rxPacket | apply keeps_sendPkt | apply keeps_sessionStep | apply keeps_authStep | dsimp only

theorem nextKeeps_execIdent (fport dev : Nat) (accelerator decode rootEl : Bool) (slots : Nat) (s : State) :
    NextKeeps s (execIdent fport dev accelerator decode rootEl slots s) := by
  refine ⟨_, rfl, keeps_whenAwake _ _ (.refl s) fun t ht => ?_⟩
  with_reducible repeat' first | assumption | split | apply keeps_rxPacket | apply keeps_authFail | apply keeps_modFport | dsimp only

theorem nextKeeps_execTimeSync (fport t1 t2 t3 t4 rootId hops : Nat) (s : State) :
    NextKeeps s (execTimeSync fport t1 t2 t3 t4 rootId hops s) := by
  refine ⟨_, rfl, keeps_whenAwake _ _ (.refl s) fun t ht => ?_⟩
  with_reducible repeat'
    first
    | assumption | split | apply keeps_rxPacket | apply keeps_count | apply keeps_modFport | apply keeps_linkUp
    | apply keeps_settleParent | apply keeps_sample | dsimp only

theorem nextKeeps_execTimeSyncSend (fport : Nat) (s : State) : NextKeeps s (execTimeSyncSend fport s) := by
  refine ⟨_, rfl, keeps_whenAwake _ _ (.refl s) fun t ht => ?_⟩
  with_reducible repeat' first | assumption | split | apply keeps_modFport | apply keeps_sendPkt | dsimp only

theorem nextKeeps_execHoldoverExpiry (s : State) : NextKeeps s (execHoldoverExpiry s) := by
  refine ⟨_, rfl, keeps_whenAwake _ _ (.refl s) fun t ht => ?_⟩
  with_reducible repeat' first | assumption | split | apply keeps_setFtb

theorem nextKeeps_execAuthBackoffExpiry (fport : Nat) (s : State) : NextKeeps s (execAuthBackoffExpiry fport s) := by
  refine ⟨_, rfl, keeps_whenAwake _ _ (.refl s) fun t ht => ?_⟩
  with_reducible repeat' first | assumption | split | apply keeps_startTraining | dsimp only

theorem nextKeeps_execTrainingRetry (fport : Nat) (s : State) : NextKeeps s (execTrainingRetry fport s) := by
  refine ⟨_, rfl, keeps_whenAwake _ _ (.refl s) fun t ht => ?_⟩
  with_reducible repeat' first | assumption | split | apply keeps_startTraining | dsimp only

theorem nextKeeps_execKeyUpdate (fport : Nat) (receive : Bool) (s : State) : NextKeeps s (execKeyUpdate fport receive s) := by
  refine ⟨_, rfl, keeps_whenAwake _ _ (.refl s) fun t ht => ?_⟩
  with_reducible repeat' first | assumption | split | apply keeps_setFport | apply keeps_emit | dsimp only

theorem nextKeeps_execHeartbeatTimeout (fport : Nat) (s : State) : NextKeeps s (execHeartbeatTimeout fport s) := by
  refine ⟨_, rfl, keeps_whenAwake _ _ (.refl s) fun t ht => ?_⟩
  with_reducible repeat' first | assumption | split | apply keeps_endSession | dsimp only

theorem nextKeeps_execLaneFault (fport lane : Nat) (s : State) : NextKeeps s (execLaneFault fport lane s) := by
  refine ⟨_, rfl, keeps_whenAwake _ _ (.refl s) fun t ht => ?_⟩
  with_reducible repeat'
    first
    | assumption | split | apply keeps_unitEvent | apply keeps_countBy | apply keeps_count | apply keeps_setFport
    | apply keeps_downPort | dsimp only

theorem nextKeeps_execRetrain (w fport : Nat) (s : State) : NextKeeps s (execRetrain w fport s) := by
  refine ⟨_, rfl, ?_⟩
  with_reducible repeat'
    first
    | assumption | exact Keeps.refl _ | split | apply keeps_ownedWrite | apply keeps_retrainPort | apply keeps_modFport | intro _

theorem nextKeeps_execCodewordRx (fport seq : Nat) (good fill : Bool) (s : State) :
    NextKeeps s (execCodewordRx fport seq good fill s) := by
  refine ⟨_, rfl, keeps_whenAwake _ _ (.refl s) fun t ht => ?_⟩
  with_reducible repeat'
    first
    | assumption | split | apply keeps_setFport | apply keeps_sendLink | apply keeps_count | apply keeps_modFport | dsimp only

theorem nextKeeps_execLink (fport : Nat) (msg : LinkMsg) (s : State) : NextKeeps s (execLink fport msg s) := by
  refine ⟨_, rfl, keeps_whenAwake _ _ (.refl s) fun t ht => ?_⟩
  with_reducible repeat'
    first
    | assumption | split | apply keeps_rxPacket | apply keeps_setFport | apply keeps_countBy | apply keeps_retrainPort
    | apply keeps_flushQueue | dsimp only

theorem nextKeeps_execCreditStall (fport cls vl : Nat) (s : State) : NextKeeps s (execCreditStall fport cls vl s) := by
  refine ⟨_, rfl, keeps_whenAwake _ _ (.refl s) fun t ht => ?_⟩
  with_reducible repeat' first | assumption | split | apply keeps_retrainPort | dsimp only

theorem nextKeeps_execPacketRelay (fport : Nat) (p : Pkt) (data : List Byte) (s : State) :
    NextKeeps s (execPacketRelay fport p data s) := by
  exact nextKeeps_onPacket _ _ _ _ s fun t ht => keeps_relay _ _ _ _ ht

theorem nextKeeps_execRead (fport : Nat) (p : Pkt) (s : State) : NextKeeps s (execRead fport p s) := by
  refine nextKeeps_onPacket _ _ _ _ s fun t ht => ?_
  split
  · exact ht
  · split
    · exact keeps_fabricRead _ _ _ ht
    · exact keeps_badPacket _ _ ht

theorem nextKeeps_execWrite (fport : Nat) (p : Pkt) (data : List Byte) (s : State) : NextKeeps s (execWrite fport p data s) := by
  refine nextKeeps_onPacket _ _ _ _ s fun t ht => ?_
  split
  · exact ht
  · split
    · exact keeps_fabricWrite _ _ _ _ ht
    · exact keeps_badPacket _ _ ht

theorem nextKeeps_execTableSlots (fport slots : Nat) (s : State) : NextKeeps s (execTableSlots fport slots s) := by
  refine ⟨_, rfl, keeps_whenAwake _ _ (.refl s) fun t ht => ?_⟩
  with_reducible repeat' first | assumption | apply keeps_arrive | apply keeps_modFport

theorem nextKeeps_execProbe (fport : Nat) (p : Pkt) (s : State) : NextKeeps s (execProbe fport p s) := by
  refine nextKeeps_onPacket _ _ _ _ s fun t ht => ?_
  split
  · exact keeps_answer _ _ _ _ ht
  · exact ht

theorem nextKeeps_execProbeReply (fport : Nat) (p : Pkt) (s : State) : NextKeeps s (execProbeReply fport p s) := by
  refine nextKeeps_onPacket _ _ _ _ s fun t ht => ?_
  split
  · exact keeps_setFtb _ _ ht
  · exact ht

theorem nextKeeps_execProbeSend (dev : Nat) (s : State) : NextKeeps s (execProbeSend dev s) := by
  refine ⟨_, rfl, keeps_whenAwake _ _ (.refl s) fun t ht => ?_⟩
  with_reducible repeat' first | assumption | split | apply keeps_sendProbe | refine Keeps.upd ?_

theorem nextKeeps_execGrantCreate (w index : Nat) (s : State) : NextKeeps s (execGrantCreate w index s) := by
  refine ⟨_, rfl, keeps_ownedWrite _ _ _ _ (fun t ht => ?_) (.refl s)⟩
  with_reducible repeat'
    first
    | assumption | split | apply keeps_selectGrant | apply keeps_refuseGrant | apply keeps_setGrant | apply keeps_refusedAdmission
    | apply keeps_noteRefusal | apply keeps_grantResult | apply keeps_settleScales | apply keeps_admitted | dsimp only

theorem nextKeeps_execGrantDestroy (w index : Nat) (s : State) : NextKeeps s (execGrantDestroy w index s) := by
  refine ⟨_, rfl, keeps_ownedWrite _ _ _ _ (fun t ht => ?_) (.refl s)⟩
  with_reducible repeat'
    first
    | assumption | split | apply keeps_selectGrant | apply keeps_grantResult | apply keeps_settleScales | apply keeps_setGrant
    | dsimp only

theorem nextKeeps_execFtbIdentityWrite (w : Nat) (value : Word) (s : State) : NextKeeps s (execFtbIdentityWrite w value s) := by
  refine ⟨_, rfl, keeps_ownedWrite _ _ _ _ (fun t ht => ?_) (.refl s)⟩
  with_reducible repeat' first | assumption | split | apply keeps_settleParent | apply keeps_setReg | apply keeps_noteErr

theorem nextKeeps_execGrantDrainEnd (index : Nat) (s : State) : NextKeeps s (execGrantDrainEnd index s) := by
  refine ⟨_, rfl, keeps_whenAwake _ _ (.refl s) fun t ht => ?_⟩
  with_reducible repeat' first | assumption | split | apply keeps_setGrant

theorem nextKeeps_execLinkBringupTimeout (fport step : Nat) (s : State) : NextKeeps s (execLinkBringupTimeout fport step s) := by
  refine ⟨_, rfl, keeps_whenAwake _ _ (.refl s) fun t ht => ?_⟩
  with_reducible repeat'
    first
    | assumption | split | apply keeps_downPort | apply keeps_authFail | apply keeps_retrainPort | dsimp only

theorem nextKeeps_execFabricSignalLoss (fport : Nat) (s : State) : NextKeeps s (execFabricSignalLoss fport s) := by
  refine ⟨_, rfl, keeps_whenAwake _ _ (.refl s) fun t ht => ?_⟩
  with_reducible repeat' first | assumption | split | apply keeps_downPort | apply keeps_setFport | dsimp only

theorem nextKeeps_execMalformedPacket (fport : Nat) (kind : BadPkt) (s : State) : NextKeeps s (execMalformedPacket fport kind s) := by
  refine ⟨_, rfl, keeps_whenAwake _ _ (.refl s) fun t ht => ?_⟩
  with_reducible repeat'
    first
    | assumption | split | apply keeps_badPacket | apply keeps_count | apply keeps_setFport | apply keeps_endSession | dsimp only

theorem nextKeeps_execConfigRequest (fn : Nat) (req : CfgReq) (s : State) : NextKeeps s (execConfigRequest fn req s) := by
  refine ⟨_, rfl, ?_⟩
  with_reducible repeat' first | exact Keeps.refl _ | split | apply keeps_emit | apply keeps_cfgTake

theorem nextKeeps_execDoorbell (fn ring tail : Nat) (s : State) : NextKeeps s (execDoorbell fn ring tail s) := by
  refine ⟨_, rfl, ?_⟩
  with_reducible repeat'
    first
    | assumption | exact Keeps.refl _ | split | apply keeps_ownRegister | apply keeps_ringError | apply keeps_issueFetch
    | apply keeps_setRing | intro _ | dsimp only

theorem nextKeeps_execCommandFetch (fn ring : Nat) (res : FetchResult) (s : State) : NextKeeps s (execCommandFetch fn ring res s) := by
  refine ⟨_, rfl, keeps_whenAwake _ _ (.refl s) fun t ht => ?_⟩
  with_reducible repeat'
    first
    | assumption | split | apply keeps_setRing | apply keeps_dropTag | apply keeps_issueFetch | apply keeps_startEntry
    | apply keeps_ringError | apply keeps_noteAer | apply keeps_count | apply keeps_quarantineTag | dsimp only

theorem nextKeeps_execCqHeadWrite (fn ring head : Nat) (s : State) : NextKeeps s (execCqHeadWrite fn ring head s) := by
  refine ⟨_, rfl, ?_⟩
  with_reducible repeat'
    first
    | assumption | exact Keeps.refl _ | split | apply keeps_ownRegister | apply keeps_ringError | apply keeps_issueFetch
    | apply keeps_settleIntx | apply keeps_setRing | intro _ | dsimp only

theorem nextKeeps_execRingEnable (fn ring : Nat) (cfg : Word) (s : State) : NextKeeps s (execRingEnable fn ring cfg s) := by
  refine ⟨_, rfl, ?_⟩
  with_reducible repeat'
    first
    | assumption | exact Keeps.refl _ | split | apply keeps_ownRegister | apply keeps_setRing | apply keeps_ringError
    | apply keeps_rearm | intro _ | dsimp only

theorem nextKeeps_execRingDisable (fn ring : Nat) (cfg : Word) (s : State) : NextKeeps s (execRingDisable fn ring cfg s) := by
  refine ⟨_, rfl, ?_⟩
  with_reducible repeat' first | exact Keeps.refl _ | split | apply keeps_ownRegister | apply keeps_modRing

theorem nextKeeps_execEvtRingEnable (fn : Nat) (cfg : Word) (s : State) : NextKeeps s (execEvtRingEnable fn cfg s) := by
  refine ⟨_, rfl, ?_⟩
  with_reducible repeat'
    first
    | assumption | exact Keeps.refl _ | split | apply keeps_ownRegister | apply keeps_noteErr | apply keeps_modFunc | intro _
    | dsimp only

theorem nextKeeps_execQuery (r : RingCmd) (ctx kind addr result : Nat) (s : State) :
    NextKeeps s (execQuery r ctx kind addr result s) := by
  refine ⟨_, rfl, keeps_ringRun _ _ _ _ (fun t ht => ?_) (.refl s)⟩
  with_reducible repeat'
    first
    | assumption | split | refine Keeps.of_snd (by assumption) ?_ | apply keeps_complete | apply keeps_writeRecord
    | apply keeps_gateCtx | apply keeps_checkAccess | dsimp only

theorem nextKeeps_execIntDelayExpiry (fn ring : Nat) (s : State) : NextKeeps s (execIntDelayExpiry fn ring s) := by
  refine ⟨_, rfl, keeps_whenAwake _ _ (.refl s) fun t ht => ?_⟩
  with_reducible repeat' first | assumption | split | apply keeps_signalRing

theorem nextKeeps_execDmaCompletion (port tag : Nat) (kind : CplKind) (s : State) :
    NextKeeps s (execDmaCompletion port tag kind s) := by
  refine ⟨_, rfl, keeps_whenAwake _ _ (.refl s) fun t ht => ?_⟩
  with_reducible repeat'
    first
    | assumption | split | apply keeps_noteAer | apply keeps_count | apply keeps_dropTag | apply keeps_modRing | apply keeps_ringError
    | apply keeps_endTagged

theorem nextKeeps_execCompletionTimeout (port tag : Nat) (s : State) : NextKeeps s (execCompletionTimeout port tag s) := by
  refine ⟨_, rfl, keeps_whenAwake _ _ (.refl s) fun t ht => ?_⟩
  with_reducible repeat'
    first
    | assumption | split | apply keeps_quarantineTag | apply keeps_noteAer | apply keeps_count | apply keeps_ringError
    | apply keeps_modRing | apply keeps_endTagged

theorem nextKeeps_execTagQuarantineEnd (port tag : Nat) (s : State) : NextKeeps s (execTagQuarantineEnd port tag s) := by
  refine ⟨_, rfl, keeps_whenAwake _ _ (.refl s) fun t ht => ?_⟩
  with_reducible repeat' first | assumption | split | apply keeps_dropTag

theorem nextKeeps_execBmeClear (fn : Nat) (s : State) : NextKeeps s (execBmeClear fn s) := by
  refine ⟨_, rfl, keeps_whenAwake _ _ (.refl s) fun t ht => ?_⟩
  with_reducible repeat' first | assumption | split | apply keeps_freezeRings | apply keeps_modFunc

theorem nextKeeps_execVfEnableClear (port : Nat) (s : State) : NextKeeps s (execVfEnableClear port s) := by
  refine ⟨_, rfl, keeps_whenAwake _ _ (.refl s) fun t ht => ?_⟩
  with_reducible repeat' first | assumption | split | apply keeps_modFunc | apply keeps_resetVfs

theorem nextKeeps_execFlr (fn : Nat) (s : State) : NextKeeps s (execFlr fn s) := by
  refine ⟨_, rfl, keeps_whenAwake _ _ (.refl s) fun t ht => ?_⟩
  with_reducible repeat' first | assumption | split | apply keeps_emit | apply keeps_resetPf | apply keeps_resetFn

theorem nextKeeps_execIdeFailure (port stream : Nat) (s : State) : NextKeeps s (execIdeFailure port stream s) := by
  refine ⟨_, rfl, keeps_whenAwake _ _ (.refl s) fun t ht => ?_⟩
  with_reducible repeat' first | assumption | split | apply keeps_raise | apply keeps_count | apply keeps_modHport

theorem nextKeeps_execTdispRequest (fn : Nat) (req : TdispReq) (s : State) : NextKeeps s (execTdispRequest fn req s) := by
  refine ⟨_, rfl, keeps_whenAwake _ _ (.refl s) fun t ht => ?_⟩
  with_reducible repeat' first | assumption | split | apply keeps_emit | apply keeps_modFunc | apply keeps_resetFn

theorem nextKeeps_execCxlMailboxCommand (port : Nat) (cmd : Mailbox) (s : State) :
    NextKeeps s (execCxlMailboxCommand port cmd s) := by
  refine ⟨_, rfl, ?_⟩
  exact iteInduction (motive := Keeps s) (fun _ => .refl s) fun _ => iteInduction (motive := Keeps s)
    (fun _ => keeps_emit _ _ (.refl s)) fun _ => keeps_emit _ _ (keeps_mailbox port cmd s (.refl s))

theorem nextKeeps_execSpdmDoe (fn : Nat) (req : DoeReq) (s : State) : NextKeeps s (execSpdmDoe fn req s) := by
  refine ⟨_, rfl, ?_⟩
  with_reducible repeat'
    first
    | assumption | exact Keeps.refl _ | split | apply keeps_emit | apply keeps_whenAwake | apply keeps_modHport | intro _

theorem nextKeeps_execEventRoute (s : State) : NextKeeps s (execEventRoute s) := by
  refine ⟨_, rfl, keeps_whenAwake _ _ (.refl s) fun t ht => ?_⟩
  with_reducible repeat'
    first
    | assumption | split | apply keeps_traceStore | apply keeps_count | apply keeps_logEvent | apply keeps_deliver
    | refine Keeps.upd ?_

theorem nextKeeps_execUnitHang (page : Nat) (recovered : Bool) (s : State) : NextKeeps s (execUnitHang page recovered s) := by
  refine ⟨_, rfl, keeps_whenAwake _ _ (.refl s) fun t ht => ?_⟩
  with_reducible repeat'
    first
    | assumption | split | apply keeps_raise | apply keeps_count | apply keeps_startReset | apply keeps_takeOffline
    | apply keeps_endReset

theorem nextKeeps_execCoreWatchdog (core cause : Nat) (s : State) : NextKeeps s (execCoreWatchdog core cause s) := by
  refine ⟨_, rfl, keeps_whenAwake _ _ (.refl s) fun t ht => ?_⟩
  with_reducible repeat' first | assumption | split | apply keeps_count | apply keeps_setCore | apply keeps_retireCore | dsimp only

theorem nextKeeps_execCoreRestartDone (core reissued : Nat) (s : State) : NextKeeps s (execCoreRestartDone core reissued s) := by
  refine ⟨_, rfl, keeps_whenAwake _ _ (.refl s) fun t ht => ?_⟩
  with_reducible repeat' first | assumption | split | apply keeps_countBy | apply keeps_setCore | dsimp only

theorem nextKeeps_execFatalTrigger (cause : Nat) (s : State) : NextKeeps s (execFatalTrigger cause s) := by
  refine ⟨_, rfl, ?_⟩
  with_reducible repeat' first | exact Keeps.refl _ | split | apply keeps_takeover

theorem nextKeeps_execSssResetReq (w code : Nat) (s : State) : NextKeeps s (execSssResetReq w code s) := by
  refine ⟨_, rfl, ?_⟩
  with_reducible repeat' first | exact Keeps.refl _ | split | apply keeps_ignoreWrite | refine Keeps.upd ?_

theorem nextKeeps_execSssForce (w value : Nat) (s : State) : NextKeeps s (execSssForce w value s) := by
  refine ⟨_, rfl, ?_⟩
  with_reducible repeat'
    first
    | assumption | exact Keeps.refl _ | split | apply keeps_expertGate | apply keeps_takeover | apply keeps_noteErr | intro _

theorem nextKeeps_execFwStage (w : Nat) (s : State) : NextKeeps s (execFwStage w s) := by
  refine ⟨_, rfl, keeps_ownedWrite _ _ _ _ (fun t ht => ?_) (.refl s)⟩
  with_reducible repeat' first | assumption | split | apply keeps_fwResult | apply keeps_setCcx | dsimp only

theorem nextKeeps_execFwStageDone (data : FwData) (s : State) : NextKeeps s (execFwStageDone data s) := by
  refine ⟨_, rfl, keeps_whenAwake _ _ (.refl s) fun t ht => ?_⟩
  with_reducible repeat' first | assumption | split | apply keeps_setCcx | apply keeps_fwResult | apply keeps_stageImage

theorem nextKeeps_execFwSelect (w : Nat) (s : State) : NextKeeps s (execFwSelect w s) := by
  refine ⟨_, rfl, keeps_ownedWrite _ _ _ _ (fun t ht => ?_) (.refl s)⟩
  with_reducible repeat' first | assumption | split | apply keeps_setCcx | apply keeps_fwResult

theorem nextKeeps_execFwCommit (w : Nat) (s : State) : NextKeeps s (execFwCommit w s) := by
  refine ⟨_, rfl, keeps_ownedWrite _ _ _ _ (fun t ht => ?_) (.refl s)⟩
  split
  · exact keeps_fwResult _ _ (ht.trans (keeps_burn ⟨Nat.le_max_left _ _, Nat.le_refl _, fun _ h => h, Nat.le_refl _⟩))
  · exact keeps_fwResult _ _ ht

theorem nextKeeps_execFwTrialTimeout (s : State) : NextKeeps s (execFwTrialTimeout s) := by
  refine ⟨_, rfl, keeps_whenAwake _ _ (.refl s) fun t ht => ?_⟩
  with_reducible repeat' first | assumption | split | apply keeps_setActiveSlot | refine Keeps.upd ?_

theorem nextKeeps_execLccSubmit (w : Nat) (s : State) : NextKeeps s (execLccSubmit w s) := by
  refine ⟨_, rfl, keeps_ownedWrite _ _ _ _ (fun t ht => ?_) (.refl s)⟩
  with_reducible repeat' first | assumption | split | apply keeps_ignoreWrite | apply keeps_setLcc

theorem nextKeeps_execLccTokenChecked (tokens : Dma) (s : State) : NextKeeps s (execLccTokenChecked tokens s) := by
  refine ⟨_, rfl, keeps_whenAwake _ _ (.refl s) fun t ht => ?_⟩
  with_reducible repeat' first | assumption | split | apply keeps_tokenFails | apply keeps_setLcc | dsimp only

theorem nextKeeps_execLccCancel (w : Nat) (s : State) : NextKeeps s (execLccCancel w s) := by
  refine ⟨_, rfl, keeps_ownedWrite _ _ _ _ (fun t ht => ?_) (.refl s)⟩
  with_reducible repeat' first | assumption | split | apply keeps_ignoreWrite | apply keeps_setLcc

theorem nextKeeps_execLifecycleWipeDone (bad1 bad2 : List Nat) (s : State) : NextKeeps s (execLifecycleWipeDone bad1 bad2 s) := by
  refine ⟨_, rfl, keeps_whenAwake _ _ (.refl s) fun t ht => ?_⟩
  split
  · exact ht
  · have hd : Keeps s (draw t).2 := keeps_draw t ht
    have retired (k : Tier) (u : State) (n : Nat) (hu : Keeps s u) : Keeps s (noteSparing (64 * homeKey k n 0) 4
        (logRow .frame (64 * homeKey k n 0) n (count Pg.tfl 0xE30 (retireFrame k n u)))) :=
      keeps_noteSparing _ _ _ (keeps_logRow _ _ _ _ (keeps_count _ _ _ (keeps_retireFrame _ _ _ hu)))
    dsimp only
    generalize draw t = x at hd ⊢
    refine keeps_openMemory _ (keeps_noteStep _ _ (keeps_count _ _ _ (.foldl (retired Tier.t2) (.foldl (retired Tier.t1) ?_))))
    exact hd.trans ⟨fun y => { y with flcs := twf_tmap (fun _ f => eraseChannel f) y.flcs }, rfl, FusesKept.refl _⟩

theorem nextKeeps_execKeyAlloc (w : Nat) (s : State) : NextKeeps s (execKeyAlloc w s) := by
  refine ⟨_, rfl, ?_⟩
  with_reducible repeat'
    first
    | assumption | exact Keeps.refl _ | split | refine Keeps.of_snd (by assumption) ?_ | apply keeps_keyCommand
    | apply keeps_chooseFrom | apply keeps_keyResult | apply keeps_setKey | intro _

theorem nextKeeps_execKeyImport (w slot : Nat) (blob : Dma) (s : State) : NextKeeps s (execKeyImport w slot blob s) := by
  refine ⟨_, rfl, ?_⟩
  with_reducible repeat'
    first
    | assumption | exact Keeps.refl _ | split | apply keeps_keyCommand | apply keeps_keyResult | apply keeps_badBlob
    | apply keeps_count | apply keeps_setKey | intro _ | dsimp only

theorem nextKeeps_execKeyDestroy (w slot : Nat) (s : State) : NextKeeps s (execKeyDestroy w slot s) := by
  refine ⟨_, rfl, ?_⟩
  with_reducible repeat'
    first
    | assumption | exact Keeps.refl _ | split | apply keeps_keyCommand | apply keeps_keyResult | apply keeps_tdiError
    | apply keeps_setKey | apply keeps_setSec | apply keeps_count | apply Keeps.foldl | intro _ | dsimp only
    | exact (Keeps.tidy (by assumption) (by assumption)).keys

theorem nextKeeps_execKeyDestroyDone (slot : Nat) (s : State) : NextKeeps s (execKeyDestroyDone slot s) := by
  refine ⟨_, rfl, keeps_whenAwake _ _ (.refl s) fun t ht => ?_⟩
  with_reducible repeat'
    first
    | assumption | split | apply keeps_keyResult | apply keeps_releaseSlab | apply keeps_eraseKey | apply Keeps.foldl | intro _

theorem nextKeeps_execTrustStage (w : Nat) (image : Dma) (s : State) : NextKeeps s (execTrustStage w image s) := by
  refine ⟨_, rfl, keeps_ownedWrite _ _ _ _ (fun t ht => ?_) (.refl s)⟩
  with_reducible repeat' first | assumption | split | apply keeps_trustResult | apply keeps_installTrust

theorem nextKeeps_execTrustCommit (w : Nat) (s : State) : NextKeeps s (execTrustCommit w s) := by
  exact ⟨_, rfl, keeps_ownedWrite _ _ _ _ (fun t ht => keeps_trustResult _ _ (ht.trans
      (keeps_burn ⟨Nat.le_refl _, Nat.le_max_left _ _, fun _ h => h, Nat.le_refl _⟩))) (.refl s)⟩

theorem nextKeeps_execGrantNonceRead (w : Nat) (s : State) : NextKeeps s (execGrantNonceRead w s) := by
  have ht : Keeps s (draw (dropHalf w Pg.sec s)).2 := keeps_draw _ (keeps_dropHalf _ _ _ (.refl s))
  refine ⟨_, rfl, ?_⟩
  split
  · exact keeps_emit _ _ (keeps_setSec _ _ (fun x => (ht.tidy x).keys) ht)
  · exact .refl s

theorem nextKeeps_execDebugGrantSubmit (w addr : Nat) (grant : Dma) (s : State) :
    NextKeeps s (execDebugGrantSubmit w addr grant s) := by
  refine ⟨_, rfl, keeps_ownedWrite _ _ _ _ (fun t ht => ?_) (.refl s)⟩
  with_reducible repeat' first | assumption | split | apply keeps_setReg | apply keeps_putGrant

theorem nextKeeps_execDebugGrantRevoke (w : Nat) (s : State) : NextKeeps s (execDebugGrantRevoke w s) := by
  refine ⟨_, rfl, keeps_ownedWrite _ _ _ _ (fun t ht => ?_) (.refl s)⟩
  with_reducible repeat' first | assumption | split | apply keeps_endGrant

theorem nextKeeps_execDebugGrantExpiry (s : State) : NextKeeps s (execDebugGrantExpiry s) := by
  refine ⟨_, rfl, keeps_whenAwake _ _ (.refl s) fun t ht => ?_⟩
  with_reducible repeat' first | assumption | split | apply keeps_endGrant

theorem nextKeeps_execPowerOnReset (f : Fitted) (s : State) : NextKeeps s (execPowerOnReset f s) := by
  refine ⟨_, rfl, ?_⟩
  with_reducible repeat' first | exact Keeps.refl _ | split | apply keeps_start

theorem nextKeeps_execPwrOkFall (s : State) : NextKeeps s (execPwrOkFall s) := by
  refine ⟨_, rfl, ?_⟩
  with_reducible repeat' first | exact Keeps.refl _ | split | apply keeps_powerLost

theorem nextKeeps_execBrownOut (sram : Bool) (s : State) : NextKeeps s (execBrownOut sram s) := by
  refine ⟨_, rfl, ?_⟩
  with_reducible repeat' first | exact Keeps.refl _ | split | apply keeps_powerLost

theorem nextKeeps_execColdReset (cause : ColdCause) (f : Fitted) (s : State) : NextKeeps s (execColdReset cause f s) := by
  refine ⟨_, rfl, ?_⟩
  with_reducible repeat' first | exact Keeps.refl _ | split | apply keeps_coldStart | apply keeps_ownedWrite | apply keeps_ignoreWrite

theorem nextKeeps_execPortReset (port : Nat) (kind : PortResetKind) (s : State) : NextKeeps s (execPortReset port kind s) := by
  refine ⟨_, rfl, ?_⟩
  with_reducible repeat' first | exact Keeps.refl _ | split | apply keeps_resetLink | apply keeps_tearPort

theorem nextKeeps_execPerstDeassert (port : Nat) (s : State) : NextKeeps s (execPerstDeassert port s) := by
  refine ⟨_, rfl, ?_⟩
  with_reducible repeat' first | exact Keeps.refl _ | split | apply keeps_modHport | apply keeps_trainLink

theorem nextKeeps_execFunctionReady (fn : Nat) (s : State) : NextKeeps s (execFunctionReady fn s) := by
  refine ⟨_, rfl, ?_⟩
  with_reducible repeat'
    first
    | exact Keeps.refl _ | split | apply keeps_raiseLink | apply keeps_emit | apply keeps_modFunc | dsimp only

theorem nextKeeps_execMemActiveSet (port : Nat) (s : State) : NextKeeps s (execMemActiveSet port s) := by
  refine ⟨_, rfl, keeps_whenAwake _ _ (.refl s) fun t ht => ?_⟩
  with_reducible repeat' first | assumption | split | apply keeps_endTrial | apply keeps_modHport | apply keeps_createParts

theorem nextKeeps_execFrameZeroed (tier : Tier) (frame : Nat) (s : State) : NextKeeps s (execFrameZeroed tier frame s) := by
  refine ⟨_, rfl, keeps_whenAwake _ _ (.refl s) fun t ht => ?_⟩
  with_reducible repeat'
    first
    | assumption | split | apply keeps_settleMasks | apply keeps_retryHeld | apply keeps_clearFrame | apply keeps_slabFree
    | refine Keeps.upd ?_

theorem nextKeeps_execClaimTake (w : Writer) (owner resource : Nat) (s : State) : NextKeeps s (execClaimTake w owner resource s) := by
  refine ⟨_, rfl, keeps_tmxWrite _ _ _ (fun t ht => ?_) (.refl s)⟩
  split
  · exact keeps_claimResult _ _ _ ht
  · split
    · exact keeps_claimResult _ _ _ ht
    · split
      · exact keeps_claimResult _ _ _ (keeps_denyClaim _ ht)
      · dsimp only
        split
        · next h => exact keeps_claimResult _ _ _ (keeps_takeClaim _ _ _ ht _ h)
        · exact keeps_claimResult _ _ _ (keeps_denyClaim _ ht)

theorem nextKeeps_execClaimRelease (w : Writer) (owner resource : Nat) (s : State) :
    NextKeeps s (execClaimRelease w owner resource s) := by
  refine ⟨_, rfl, ?_⟩
  with_reducible repeat'
    first
    | assumption | exact Keeps.refl _ | split | apply keeps_tmxWrite | apply keeps_claimResult | apply keeps_releaseClaim | intro _

theorem nextKeeps_execMuxSelWrite (w : Writer) (value : Word) (s : State) : NextKeeps s (execMuxSelWrite w value s) := by
  refine ⟨_, rfl, ?_⟩
  with_reducible repeat'
    first
    | assumption | exact Keeps.refl _ | split | apply keeps_holderWrite | apply keeps_setTmx | apply keeps_noteErr | intro _
    | dsimp only | exact (Keeps.tidy (by assumption) (by assumption)).claims

theorem nextKeeps_execTraceStart (w : Writer) (value : Word) (s : State) : NextKeeps s (execTraceStart w value s) := by
  refine ⟨_, rfl, ?_⟩
  with_reducible repeat' first | exact Keeps.refl _ | apply keeps_holderWrite | apply keeps_traceCtrl

theorem nextKeeps_execTraceStop (w : Writer) (value : Word) (s : State) : NextKeeps s (execTraceStop w value s) := by
  refine ⟨_, rfl, ?_⟩
  with_reducible repeat' first | exact Keeps.refl _ | apply keeps_holderWrite | apply keeps_traceCtrl

theorem nextKeeps_execTraceDataRead (w : Writer) (s : State) : NextKeeps s (execTraceDataRead w s) := by
  refine ⟨_, rfl, ?_⟩
  with_reducible repeat' first | exact Keeps.refl _ | split | apply keeps_emit | apply keeps_traceRead | apply keeps_dropHalf

theorem nextKeeps_execJtagInstruction (ins : JtagInstr) (s : State) : NextKeeps s (execJtagInstruction ins s) := by
  refine ⟨_, rfl, ?_⟩
  with_reducible repeat'
    first
    | exact Keeps.refl _ | split | apply keeps_count | apply keeps_setTmx | apply keeps_emit | exact fun x => x.claims

theorem nextKeeps_execTapReset (s : State) : NextKeeps s (execTapReset s) := by
  have ht : Keeps s (releaseClaims (fun c => c.tap) s) := keeps_releaseClaims _ _ (.refl s)
  refine ⟨_, rfl, ?_⟩
  dsimp only
  generalize releaseClaims (fun c => c.tap) s = t at ht ⊢
  exact keeps_setTmx _ _ (fun x => (ht.tidy x).claims) ht

/-- Every command answers a next state that keeps what every step keeps. -/
theorem nextKeeps_exec (c : Instr) (s : State) : NextKeeps s (exec c s) :=
  match c with
  | .registerWrite w page off wide value => nextKeeps_execRegisterWrite w page off wide value s
  | .expertUnlock w page key => nextKeeps_execExpertUnlock w page key s
  | .relock w page => nextKeeps_execRelock w page s
  | .unitReset w page => nextKeeps_execUnitReset w page s
  | .unitResetDone page => nextKeeps_execUnitResetDone page s
  | .unitEnable w page on => nextKeeps_execUnitEnable w page on s
  | .presetWrite w page value => nextKeeps_execPresetWrite w page value s
  | .expertWrite w page off wide value => nextKeeps_execExpertWrite w page off wide value s
  | .claimWrite w page value => nextKeeps_execClaimWrite w page value s
  | .snap w page => nextKeeps_execSnap w page s
  | .evtPendClear w page value => nextKeeps_execEvtPendClear w page value s
  | .profileWrite w value => nextKeeps_execProfileWrite w value s
  | .profileApplied => nextKeeps_execProfileApplied s
  | .reserve r ctx slabs tmask f1 f2 f3 b1 b2 b3 => nextKeeps_execReserve r ctx slabs tmask f1 f2 f3 b1 b2 b3 s
  | .release r ctx dest count f1 f2 f3 b1 b2 b3 => nextKeeps_execRelease r ctx dest count f1 f2 f3 b1 b2 b3 s
  | .ctxCreate w fn key => nextKeeps_execCtxCreate w fn key s
  | .ctxDestroy w ctx => nextKeeps_execCtxDestroy w ctx s
  | .shareCreate r ctx => nextKeeps_execShareCreate r ctx s
  | .shareAddSlabs r ctx group dest count => nextKeeps_execShareAddSlabs r ctx group dest count s
  | .shareAddMember r ctx group member right => nextKeeps_execShareAddMember r ctx group member right s
  | .shareRemoveMember r ctx group member => nextKeeps_execShareRemoveMember r ctx group member s
  | .shareDestroy r ctx group => nextKeeps_execShareDestroy r ctx group s
  | .shareLeave r ctx group => nextKeeps_execShareLeave r ctx group s
  | .mapWindow r ctx rights aptBase firstSlab length => nextKeeps_execMapWindow r ctx rights aptBase firstSlab length s
  | .unmapWindow r ctx window => nextKeeps_execUnmapWindow r ctx window s
  | .windowDrainEnd window => nextKeeps_execWindowDrainEnd window s
  | .ldBaseWrite w n value => nextKeeps_execLdBaseWrite w n value s
  | .sealSlabs r ctx dest count => nextKeeps_execSeal r ctx dest count s
  | .cxlMemRead port dpa => nextKeeps_execCxlMemRead port dpa s
  | .cxlMemWrite port dpa data => nextKeeps_execCxlMemWrite port dpa data s
  | .barRead fn off len secure => nextKeeps_execBarRead fn off len secure s
  | .barWrite fn off data secure => nextKeeps_execBarWrite fn off data secure s
  | .trayFlush w => nextKeeps_execTrayFlush w s
  | .trayFlushDone => nextKeeps_execTrayFlushDone s
  | .compressIn r ctx dest src len fmt mode table scope data => nextKeeps_execCompressIn r ctx dest src len fmt mode table scope data s
  | .recode r ctx dest len fmt mode table scope => nextKeeps_execRecode r ctx dest len fmt mode table scope s
  | .passStart => nextKeeps_execPassStart s
  | .passHistogramDone => nextKeeps_execPassHistogramDone s
  | .tableBuildDone => nextKeeps_execTableBuildDone s
  | .passComplete => nextKeeps_execPassComplete s
  | .retire w id => nextKeeps_execRetire w id s
  | .tableRetireAck fport id epoch => nextKeeps_execTableRetireAck fport id epoch s
  | .peerAckTimeout fport => nextKeeps_execPeerAckTimeout fport s
  | .bgRecodeWalk => nextKeeps_execBgRecodeWalk s
  | .decayTick => nextKeeps_execDecayTick s
  | .touchMapSwap => nextKeeps_execTouchMapSwap s
  | .policyPeriod => nextKeeps_execPolicyPeriod s
  | .hint r ctx dest count action target => nextKeeps_execHint r ctx dest count action target s
  | .hintTmask r ctx dest count tmask => nextKeeps_execHintTmask r ctx dest count tmask s
  | .moveStart slab => nextKeeps_execMoveStart slab s
  | .copyPassDone slab => nextKeeps_execCopyPassDone slab s
  | .moveFlip slab => nextKeeps_execMoveFlip slab s
  | .holdTimeout slab => nextKeeps_execHoldTimeout slab s
  | .oldFrameRelease slab => nextKeeps_execOldFrameRelease slab s
  | .poolDwellExpiry slab => nextKeeps_execPoolDwellExpiry slab s
  | .mgeGuaranteeWrite w value => nextKeeps_execMgeGuaranteeWrite w value s
  | .flashMountDone report => nextKeeps_execFlashMountDone report s
  | .flashProgramDone slab => nextKeeps_execFlashProgramDone slab s
  | .programFailure slab channel sb => nextKeeps_execProgramFailure slab channel sb s
  | .eraseFailure group channel block => nextKeeps_execEraseFailure group channel block s
  | .gcRelocate group => nextKeeps_execGcRelocate group s
  | .dieRetire loss => nextKeeps_execDieRetire loss s
  | .retryStepDone slab block ok => nextKeeps_execRetryStepDone slab block ok s
  | .rebuildDone slab block ok => nextKeeps_execRebuildDone slab block ok s
  | .cxlFlashDeadline port dpa => nextKeeps_execCxlFlashDeadline port dpa s
  | .controllerIssue chan arrivals => nextKeeps_execControllerIssue chan arrivals s
  | .agePromote chan id => nextKeeps_execAgePromote chan id s
  | .panicRaise ctrl fill => nextKeeps_execPanicRaise ctrl fill s
  | .panicClear ctrl fill => nextKeeps_execPanicClear ctrl fill s
  | .refreshInterval chan rank => nextKeeps_execRefreshInterval chan rank s
  | .refreshIssue chan rank => nextKeeps_execRefreshIssue chan rank s
  | .rangeReading ctrl readings => nextKeeps_execRangeReading ctrl readings s
  | .srEntry chan => nextKeeps_execSrEntry chan s
  | .srExit chan => nextKeeps_execSrExit chan s
  | .hashMaskWrite w page off value => nextKeeps_execHashMaskWrite w page off value s
  | .channelLost chan => nextKeeps_execChannelLost chan s
  | .icingBlock read => nextKeeps_execIcingBlock read s
  | .iceDeferExpiry chan id => nextKeeps_execIceDeferExpiry chan id s
  | .toffeeRewrite word again sppr remap => nextKeeps_execToffeeRewrite word again sppr remap s
  | .toffeeExpire word => nextKeeps_execToffeeExpire word s
  | .iceInject w value => nextKeeps_execIceInject w value s
  | .refsRecountDone => nextKeeps_execRefsRecountDone s
  | .cvuJobStart w n value => nextKeeps_execCvuJobStart w n value s
  | .cvuDataWrite w n data => nextKeeps_execCvuDataWrite w n data s
  | .cvuJobFinish w n value => nextKeeps_execCvuJobFinish w n value s
  | .cvuJobDone n => nextKeeps_execCvuJobDone n s
  | .check r ctx preset mode flags width addr result length poly init => nextKeeps_execCheck r ctx preset mode flags width addr result length poly init s
  | .bwrWindow traffic => nextKeeps_execBwrWindow traffic s
  | .paceSample r => nextKeeps_execPaceSample r s
  | .paceShortfall => nextKeeps_execPaceShortfall s
  | .voltageStep => nextKeeps_execVoltageStep s
  | .powerSample r => nextKeeps_execPowerSample r s
  | .thermalCheck tj sensor stackMax => nextKeeps_execThermalCheck tj sensor stackMax s
  | .ceilingStep => nextKeeps_execCeilingStep s
  | .thermalTrip => nextKeeps_execThermalTrip s
  | .comparatorFire n => nextKeeps_execComparatorFire n s
  | .gemm => nextKeeps_execGemm s
  | .bdot => nextKeeps_execBdot s
  | .swsum => nextKeeps_execSwsum s
  | .topk => nextKeeps_execTopk s
  | .reduce => nextKeeps_execReduce s
  | .update => nextKeeps_execUpdate s
  | .encode => nextKeeps_execEncode s
  | .stepComplete => nextKeeps_execStepComplete s
  | .stepDeadline held => nextKeeps_execStepDeadline held s
  | .handshakeTimeout row col => nextKeeps_execHandshakeTimeout row col s
  | .stepFault cause row col => nextKeeps_execStepFault cause row col s
  | .rowRemap => nextKeeps_execRowRemap s
  | .tileStoreZeroDone => nextKeeps_execTileStoreZeroDone s
  | .tileTest w value => nextKeeps_execTileTest w value s
  | .loadRecipe r ctx notify imageAddr imageBytes bindAddr tag data => nextKeeps_execLoadRecipe r ctx notify imageAddr imageBytes bindAddr tag data s
  | .run r ctx handle fromStep startNs => nextKeeps_execRun r ctx handle fromStep startNs s
  | .abortStop r ctx handle mode => nextKeeps_execAbortStop r ctx handle mode s
  | .abortUnload r ctx handle => nextKeeps_execAbortUnload r ctx handle s
  | .arm fport src group leadId fromStep => nextKeeps_execArm fport src group leadId fromStep s
  | .ready fport src group => nextKeeps_execReady fport src group s
  | .refuse fport src group status => nextKeeps_execRefuse fport src group status s
  | .groupCancel fport src group => nextKeeps_execGroupCancel fport src group s
  | .go fport src group t0 => nextKeeps_execGo fport src group t0 s
  | .readyTimeout => nextKeeps_execReadyTimeout s
  | .barrier fport src group step delta => nextKeeps_execBarrier fport src group step delta s
  | .abortToken fport src group step outcome => nextKeeps_execAbortToken fport src group step outcome s
  | .peerTimeout dev => nextKeeps_execPeerTimeout dev s
  | .rcpData fport src group step delta data => nextKeeps_execRcpData fport src group step delta data s
  | .linkTrain fport lanes => nextKeeps_execLinkTrain fport lanes s
  | .hello fport nonce => nextKeeps_execHello fport nonce s
  | .spdm fport msg => nextKeeps_execSpdm fport msg s
  | .ident fport dev accelerator decode rootEligible slots => nextKeeps_execIdent fport dev accelerator decode rootEligible slots s
  | .timeSync fport t1 t2 t3 t4 rootId hops => nextKeeps_execTimeSync fport t1 t2 t3 t4 rootId hops s
  | .timeSyncSend fport => nextKeeps_execTimeSyncSend fport s
  | .holdoverExpiry => nextKeeps_execHoldoverExpiry s
  | .authBackoffExpiry fport => nextKeeps_execAuthBackoffExpiry fport s
  | .trainingRetry fport => nextKeeps_execTrainingRetry fport s
  | .keyUpdate fport receive => nextKeeps_execKeyUpdate fport receive s
  | .heartbeatTimeout fport => nextKeeps_execHeartbeatTimeout fport s
  | .laneFault fport lane => nextKeeps_execLaneFault fport lane s
  | .retrain w fport => nextKeeps_execRetrain w fport s
  | .codewordRx fport seq good fill => nextKeeps_execCodewordRx fport seq good fill s
  | .link fport msg => nextKeeps_execLink fport msg s
  | .creditStall fport cls vl => nextKeeps_execCreditStall fport cls vl s
  | .packetRelay fport p data => nextKeeps_execPacketRelay fport p data s
  | .read fport p => nextKeeps_execRead fport p s
  | .write fport p data => nextKeeps_execWrite fport p data s
  | .tableSlots fport slots => nextKeeps_execTableSlots fport slots s
  | .probe fport p => nextKeeps_execProbe fport p s
  | .probeReply fport p => nextKeeps_execProbeReply fport p s
  | .probeSend dev => nextKeeps_execProbeSend dev s
  | .grantCreate w index => nextKeeps_execGrantCreate w index s
  | .grantDestroy w index => nextKeeps_execGrantDestroy w index s
  | .ftbIdentityWrite w value => nextKeeps_execFtbIdentityWrite w value s
  | .grantDrainEnd index => nextKeeps_execGrantDrainEnd index s
  | .linkBringupTimeout fport step => nextKeeps_execLinkBringupTimeout fport step s
  | .fabricSignalLoss fport => nextKeeps_execFabricSignalLoss fport s
  | .malformedPacket fport kind => nextKeeps_execMalformedPacket fport kind s
  | .configRequest fn req => nextKeeps_execConfigRequest fn req s
  | .doorbell fn ring tail => nextKeeps_execDoorbell fn ring tail s
  | .commandFetch fn ring res => nextKeeps_execCommandFetch fn ring res s
  | .cqHeadWrite fn ring head => nextKeeps_execCqHeadWrite fn ring head s
  | .ringEnable fn ring cfg => nextKeeps_execRingEnable fn ring cfg s
  | .ringDisable fn ring cfg => nextKeeps_execRingDisable fn ring cfg s
  | .evtRingEnable fn cfg => nextKeeps_execEvtRingEnable fn cfg s
  | .query r ctx kind addr result => nextKeeps_execQuery r ctx kind addr result s
  | .intDelayExpiry fn ring => nextKeeps_execIntDelayExpiry fn ring s
  | .dmaCompletion port tag kind => nextKeeps_execDmaCompletion port tag kind s
  | .completionTimeout port tag => nextKeeps_execCompletionTimeout port tag s
  | .tagQuarantineEnd port tag => nextKeeps_execTagQuarantineEnd port tag s
  | .bmeClear fn => nextKeeps_execBmeClear fn s
  | .vfEnableClear port => nextKeeps_execVfEnableClear port s
  | .flr fn => nextKeeps_execFlr fn s
  | .ideFailure port stream => nextKeeps_execIdeFailure port stream s
  | .tdispRequest fn req => nextKeeps_execTdispRequest fn req s
  | .cxlMailboxCommand port cmd => nextKeeps_execCxlMailboxCommand port cmd s
  | .spdmDoe fn req => nextKeeps_execSpdmDoe fn req s
  | .eventRoute => nextKeeps_execEventRoute s
  | .unitHang page recovered => nextKeeps_execUnitHang page recovered s
  | .coreWatchdog core cause => nextKeeps_execCoreWatchdog core cause s
  | .coreRestartDone core reissued => nextKeeps_execCoreRestartDone core reissued s
  | .fatalTrigger cause => nextKeeps_execFatalTrigger cause s
  | .sssResetReq w code => nextKeeps_execSssResetReq w code s
  | .sssForce w value => nextKeeps_execSssForce w value s
  | .fwStage w => nextKeeps_execFwStage w s
  | .fwStageDone data => nextKeeps_execFwStageDone data s
  | .fwSelect w => nextKeeps_execFwSelect w s
  | .fwCommit w => nextKeeps_execFwCommit w s
  | .fwTrialTimeout => nextKeeps_execFwTrialTimeout s
  | .lccSubmit w => nextKeeps_execLccSubmit w s
  | .lccTokenChecked tokens => nextKeeps_execLccTokenChecked tokens s
  | .lccCancel w => nextKeeps_execLccCancel w s
  | .lifecycleWipeDone bad1 bad2 => nextKeeps_execLifecycleWipeDone bad1 bad2 s
  | .keyAlloc w => nextKeeps_execKeyAlloc w s
  | .keyImport w slot blob => nextKeeps_execKeyImport w slot blob s
  | .keyDestroy w slot => nextKeeps_execKeyDestroy w slot s
  | .keyDestroyDone slot => nextKeeps_execKeyDestroyDone slot s
  | .trustStage w image => nextKeeps_execTrustStage w image s
  | .trustCommit w => nextKeeps_execTrustCommit w s
  | .grantNonceRead w => nextKeeps_execGrantNonceRead w s
  | .debugGrantSubmit w addr grant => nextKeeps_execDebugGrantSubmit w addr grant s
  | .debugGrantRevoke w => nextKeeps_execDebugGrantRevoke w s
  | .debugGrantExpiry => nextKeeps_execDebugGrantExpiry s
  | .powerOnReset f => nextKeeps_execPowerOnReset f s
  | .pwrOkFall => nextKeeps_execPwrOkFall s
  | .brownOut sram => nextKeeps_execBrownOut sram s
  | .coldReset cause f => nextKeeps_execColdReset cause f s
  | .portReset port kind => nextKeeps_execPortReset port kind s
  | .perstDeassert port => nextKeeps_execPerstDeassert port s
  | .functionReady fn => nextKeeps_execFunctionReady fn s
  | .memActiveSet port => nextKeeps_execMemActiveSet port s
  | .frameZeroed tier frame => nextKeeps_execFrameZeroed tier frame s
  | .claimTake w owner resource => nextKeeps_execClaimTake w owner resource s
  | .claimRelease w owner resource => nextKeeps_execClaimRelease w owner resource s
  | .muxSelWrite w value => nextKeeps_execMuxSelWrite w value s
  | .traceStart w value => nextKeeps_execTraceStart w value s
  | .traceStop w value => nextKeeps_execTraceStop w value s
  | .traceDataRead w => nextKeeps_execTraceDataRead w s
  | .jtagInstruction ins => nextKeeps_execJtagInstruction ins s
  | .tapReset => nextKeeps_execTapReset s

theorem FusesKept.of_same_otp {s t u : State} (h : FusesKept s u) (e : s.otp = t.otp) : FusesKept t u := by
  unfold FusesKept at h ⊢
  rwa [e] at h

/-- A step keeps tidiness and fuses: of a tick, and of a command on the queue's rest. -/
theorem kept_step {s t : State} (run : step s = .next t) : (Tidy s → Tidy t) ∧ FusesKept s t := by
  unfold step at run
  split at run
  · cases run
    have kept := keeps_tick s (.refl s)
    exact ⟨kept.tidy, kept.fuses⟩
  case h_2 c rest _ =>
    obtain ⟨u, runs, kept⟩ := nextKeeps_exec c { s with pending := rest }
    cases run.symm.trans runs
    exact ⟨fun hs => kept.tidy { hs with }, FusesKept.of_same_otp kept.fuses rfl⟩

end Sys2Proof.Machine

open Sys2Proof Sys2Proof.Machine

/-- Settles O4: every table of the state after reset is empty, and no array holds an error. -/
theorem resetIsTidy : Obligations.ResetIsTidy := by
  unfold Obligations.ResetIsTidy
  constructor
  · exact ⟨rfl, rfl⟩
  all_goals rfl

/-- Settles O3: command by command. -/
theorem everyCommandAnswersNext : Obligations.EveryCommandAnswersNext := by
  unfold Obligations.EveryCommandAnswersNext
  intro c s
  obtain ⟨t, runs, kept⟩ := nextKeeps_exec c s
  exact ⟨t, runs, kept.pending⟩

/-- Settles O5: a tick keeps the tables' canonical form, and so does every command. -/
theorem everyStepKeepsTidy : Obligations.EveryStepKeepsTidy := by
  unfold Obligations.EveryStepKeepsTidy
  exact fun s t hs run => (kept_step run).1 hs

/-- Settles O6: a tick burns no fuse, and no command takes one back. -/
theorem everyStepKeepsFuses : Obligations.EveryStepKeepsFuses := by
  unfold Obligations.EveryStepKeepsFuses
  exact fun s t run => (kept_step run).2
end

section
/-! PROOFS. Fabric grants and probes (O53): a grant entered, made stale and drained, and the probes of relayed devices. -/

set_option Elab.async false

namespace Sys2Proof.Machine

section
variable {s t u x : State} {w i : Nat} {g : Grant}

theorem grantAt_congr (h : t.grants = s.grants) (j : Nat) : grantAt t j = grantAt s j := by rw [grantAt, h, grantAt]

theorem grantAt_setGrant (v : Option Grant) (hs : Tidy s) : grantAt (setGrant i v s) i = v :=
  tget_tput_same _ _ (twf_trising hs.grants)

theorem grantAt_setGrant_ne (v : Option Grant) (hs : Tidy s) {j : Nat} (h : j ≠ i) : grantAt (setGrant i v s) j = grantAt s j :=
  tget_tput_ne _ (twf_trising hs.grants) h

/-- What the scales settle after a grant changed leaves the grants, memory and the placement. -/
theorem grantResult_settled (st : Status) (s : State) :
    grantResult st (settleScales s) = { settleScales s with ftb := { s.ftb with grantStatus := st.code } } ∧
      (settleScales s).grants = s.grants ∧ (settleScales s).mem = s.mem ∧ (settleScales s).ple = s.ple := by
  have frame : ScalesOnly s (settleScales s) := scalesOnly_settleScales
  have ftb : (settleScales s).ftb = s.ftb := congrArg (·.ftb) frame
  refine ⟨?_, congrArg (·.grants) frame, frame.mem, frame.ple⟩
  rw [grantResult, ftb]
  rfl

theorem exec_grantCreate_admitted (hs : Tidy s) (ho : Owns s w Pg.ftb) (hi : i < 16384) (hx : x = selectGrant i (dropHalf w Pg.ftb s))
    (free : grantAt s i = none)
    (runOk : grantRunOk x w (grantFields x).localCtx (grantFields x).wr (grantFields x).first (grantFields x).length = true)
    (fits : admitFail x (setGrant i (some (grantFields x)) x) = none) :
    exec (.grantCreate w i) s = .next (grantResult .ok (settleScales (admitted (setGrant i (some (grantFields x)) x)))) := by
  have unused : grantAt x i = none := by rw [hx]; exact free
  refine congrArg Host.Outcome.next ((ownedWrite_of_owns _ hs ho).trans ?_)
  dsimp only
  rw [← hx, Nat.mod_eq_of_lt hi, fits, unused, runOk]
  rfl

theorem exec_grantDestroy_own (hs : Tidy s) (ho : Owns s w Pg.ftb) (hi : i < 16384) (hx : x = selectGrant i (dropHalf w Pg.ftb s))
    (there : grantAt s i = some g) (own : fnPort (ctxFn s g.localCtx) = fnPort w) :
    exec (.grantDestroy w i) s = .next (grantResult .ok (settleScales (setGrant i (some { g with stale := true }) x))) := by
  have used : grantAt x i = some g := by rw [hx]; exact there
  have own' : fnPort (ctxFn x g.localCtx) = fnPort w := by rw [hx]; exact own
  refine congrArg Host.Outcome.next ((ownedWrite_of_owns _ hs ho).trans ?_)
  dsimp only
  rw [← hx, Nat.mod_eq_of_lt hi, used]
  exact if_neg (by simp [own'])

theorem tidy_selectGrant (hs : Tidy s) : Tidy (selectGrant i (dropHalf w Pg.ftb s)) := tidy_setReg _ _ (tidy_dropHalf hs)

theorem exec_grantDrainEnd_drained (hw : Awake s) (there : grantAt s i = some g) (stale : g.stale = true) (drained : outstanding s g = 0) :
    exec (.grantDrainEnd i) s = .next (setGrant i none s) := by
  refine (next_whenAwake hw _).trans ?_
  rw [there]
  exact congrArg Host.Outcome.next (if_pos ⟨stale, drained⟩)

/-- A loaded recipe reaches the device by relay. -/
theorem relays_of_recipe {dev h : Nat} {q : Recipe} (loaded : (h, some q) ∈ s.rcp.recipes)
    (peer : ∃ x ∈ q.img.peers, x.dev = dev ∧ x.ports = 0) :
    s.rcp.recipes.any (fun e => match e.2 with
      | some q => q.img.peers.any (fun x => decide (x.dev = dev) && decide (x.ports = 0))
      | none => false) = true := by
  obtain ⟨x, hx, dev_eq, ports⟩ := peer
  refine List.any_eq_true.2 ⟨_, loaded, List.any_eq_true.2 ⟨x, hx, ?_⟩⟩
  simp [dev_eq, ports]

theorem exec_probeSend_due {dev h : Nat} {q : Recipe} (hw : Awake s) (loaded : (h, some q) ∈ s.rcp.recipes)
    (peer : ∃ x ∈ q.img.peers, x.dev = dev ∧ x.ports = 0)
    (due : tget 0 s.ftb.probedAt dev = 0 ∨ tget 0 s.ftb.probedAt dev + 250000000 ≤ s.now + 1) :
    exec (.probeSend dev) s = .next (sendProbe dev { s with ftb := { s.ftb with probedAt := tput 0 s.ftb.probedAt dev (s.now + 1) } }) := by
  refine (next_whenAwake hw _).trans (congrArg Host.Outcome.next (if_pos ?_))
  rw [Bool.and_eq_true, decide_eq_true_eq]
  exact ⟨relays_of_recipe loaded peer, due⟩

theorem portsOnly_sendProbe (dev : Nat) : PortsOnly
    { s with ftb := { s.ftb with probes := if s.ftb.probes.contains dev then s.ftb.probes else s.ftb.probes ++ [dev] } }
    (sendProbe dev s) := portsOnly_sendTo _ _

end
end Sys2Proof.Machine

open Sys2Proof Sys2Proof.Machine

/-- Settles O53: each command by its equation; the scales and the ports that it touches leave grants and memory. -/
theorem fabricGrants : Obligations.FabricGrants := by
  unfold Obligations.FabricGrants
  refine ⟨fun s x w i hs ho hi hx => ⟨fun free runOk fits => ?_, fun g there own => ?_⟩, fun s i g hs hw there stale drained => ?_,
    fun s dev h q hw loaded peer due => ?_⟩
  · have hd : Tidy x := hx ▸ tidy_selectGrant hs
    obtain ⟨result, grants, mem, ple⟩ := grantResult_settled .ok (admitted (setGrant i (some (grantFields x)) x))
    have entered (j : Nat) : grantAt (settleScales (admitted (setGrant i (some (grantFields x)) x))) j =
      grantAt (setGrant i (some (grantFields x)) x) j := grantAt_congr grants j
    refine ⟨_, exec_grantCreate_admitted hs ho hi hx free runOk fits, ?_⟩
    rw [result]
    refine ⟨(entered i).trans (grantAt_setGrant _ hd), fun j hj => (entered j).trans
      ((grantAt_setGrant_ne _ hd hj).trans ?_), rfl, mem.trans ?_, ple.trans ?_⟩
    all_goals rw [hx]; rfl
  · have hd : Tidy x := hx ▸ tidy_selectGrant hs
    obtain ⟨result, grants, mem, -⟩ := grantResult_settled .ok (setGrant i (some { g with stale := true }) x)
    refine ⟨_, exec_grantDestroy_own hs ho hi hx there own, ?_⟩
    rw [result]
    refine ⟨(grantAt_congr grants i).trans (grantAt_setGrant _ hd), fun j hj => (grantAt_congr grants j).trans
      ((grantAt_setGrant_ne _ hd hj).trans ?_), rfl, mem.trans ?_⟩
    all_goals rw [hx]; rfl
  · exact ⟨_, exec_grantDrainEnd_drained hw there stale drained, grantAt_setGrant _ hs, fun j hj => grantAt_setGrant_ne _ hs hj, rfl⟩
  · have frame := portsOnly_sendProbe (s := { s with ftb := { s.ftb with probedAt := tput 0 s.ftb.probedAt dev (s.now + 1) } }) dev
    exact ⟨_, exec_probeSend_due hw loaded peer due, congrArg (·.ftb.probes) frame, congrArg (·.mem) frame, congrArg (·.rcp) frame⟩
end

section
/-! PROOFS. Rings of the host interface (O54): doorbells, fetches, completions, enable, disable and interrupts. -/

set_option Elab.async false

namespace Sys2Proof.Machine

section
variable {s t u : State} {f n : Nat}

/-! Who writes a function's ring registers (R385, R453) -/

theorem ownRegister_of_owner (body : State → State) (hs : Tidy s) (ho : RingOwner s f) :
    ∃ l, Tidy { s with pages := l } ∧ ownRegister f body s = body { s with pages := l } := by
  unfold RingOwner at ho
  split at ho
  case isTrue pf =>
    obtain ⟨reach, holds⟩ := ho
    refine ⟨(dropHalf f (Pg.hiu + fnPort f) s).pages, tidy_dropHalf hs, (if_pos pf).trans ((if_pos reach).trans (if_pos ?_))⟩
    rw [holdsPage_dropHalf f _ hs, holds]
  case isFalse vf =>
    obtain ⟨hw, live, ready, d3⟩ := ho
    refine ⟨s.pages, hs, (if_neg vf).trans (if_pos ?_)⟩
    simp [live, ready, d3, show awake s = true from hw]

/-! One ring -/

theorem ringOf_modRing (g : Ring → Ring) (hs : Tidy s) : ringOf (modRing f n g s) f n = g (ringOf s f n) := ringOf_setRing _ _ _ hs

theorem ringKey_ne {f m n : Nat} (h : m ≠ n) : ringKey f m ≠ ringKey f n := by
  unfold ringKey
  omega

theorem ringOf_modRing_ne (g : Ring → Ring) (hs : Tidy s) {m : Nat} (h : m ≠ n) : ringOf (modRing f n g s) f m = ringOf s f m :=
  ringOf_setRing_ne _ _ _ hs (ringKey_ne h)

theorem ringOf_congr (h : t.hiu.rings = s.hiu.rings) (g m : Nat) : ringOf t g m = ringOf s g m := by rw [ringOf, h, ringOf]

theorem ringOf_ringError (st : Status) (hs : Tidy s) : ringOf (ringError f n st s) f n =
    { ringOf s f n with state := .error, err := st.code, kept := [], fetchTag := none } := ringOf_modRing _ hs

/-! Tags and fetches (R363) -/

/-- Beside the draws only the host interface differs. -/
def FetchOnly (s t : State) : Prop := t = { s with draws := t.draws, hiu := t.hiu }

theorem FetchOnly.trans (h : FetchOnly s t) (k : FetchOnly t u) : FetchOnly s u := by
  unfold FetchOnly at h k ⊢
  rw [h] at k
  exact k

theorem fetchOnly_modHport (port : Nat) (g : HPort → HPort) : FetchOnly s (modHport port g s) := by
  rw [modHport, setHport_frame]
  rfl

theorem rings_modHport (port : Nat) (g : HPort → HPort) : (modHport port g s).hiu.rings = s.hiu.rings := by
  rw [modHport, setHport_frame]

theorem takeTag_frame {port tag : Nat} {use : TagUse} (h : takeTag port use s = some (tag, t)) :
    FetchOnly s t ∧ t.hiu.rings = s.hiu.rings := by
  unfold takeTag at h
  split at h
  · cases h
  · split at h
    case h_1 free v drawn =>
      have next : v = { s with draws := s.draws + 1 } := (congrArg Prod.snd drawn).symm
      simp only [Option.some.injEq, Prod.mk.injEq] at h
      obtain ⟨-, rfl⟩ := h
      rw [next]
      exact ⟨.trans (t := { s with draws := s.draws + 1 }) rfl (fetchOnly_modHport _ _), rings_modHport _ _⟩
    · cases h

theorem fetchOnly_issueFetch : FetchOnly s (issueFetch f n s) := by
  unfold issueFetch
  split
  · split
    case h_1 taken => exact (takeTag_frame taken).1.trans rfl
    · rfl
  · rfl

/-- A fetch leaves the rings but for the tag of its own. -/
theorem ringOf_issueFetch (hs : Tidy s) : (∃ tag, ringOf (issueFetch f n s) f n = { ringOf s f n with fetchTag := tag }) ∧
    ∀ m, m ≠ n → ringOf (issueFetch f n s) f m = ringOf s f m := by
  unfold issueFetch
  split
  · split
    case h_1 tag v taken =>
      have rings := ringOf_congr (takeTag_frame taken).2 f
      have tidy := (keeps_takeTag _ _ _ (.refl s) _ _ taken).tidy hs
      refine ⟨⟨some tag, (ringOf_modRing _ tidy).trans ?_⟩, fun m hm => (ringOf_modRing_ne _ tidy hm).trans (rings m)⟩
      rw [rings]
    · exact ⟨⟨_, rfl⟩, fun _ _ => rfl⟩
  · exact ⟨⟨_, rfl⟩, fun _ _ => rfl⟩

theorem settleIntx_frame : settleIntx f s = { s with hiu := { s.hiu with fns := (settleIntx f s).hiu.fns } } := by
  unfold settleIntx
  split <;> rfl

/-! Ring registers (R361, R362) -/

section
variable {x : Nat}

/-- What a write of the doorbell comes to in the state in which the access leaves its page. -/
theorem exec_doorbell_owner (hs : Tidy s) (ho : RingOwner s f) (hn : n < 16) (active : (ringOf s f n).state = .active) :
    ∃ l, Tidy { s with pages := l } ∧ exec (.doorbell f n x) s = .next
      (if sqSize (ringOf s f n) ≤ x then ringError f n .accessDenied { s with pages := l }
      else issueFetch f n (setRing f n { ringOf s f n with sqTail := x } { s with pages := l })) := by
  obtain ⟨l, tidy, access⟩ := ownRegister_of_owner (fun s =>
    let q := ringOf s f n
    match q.state with
    | .active | .stopped =>
      if sqSize q ≤ x then ringError f n .accessDenied s
      else issueFetch f n (setRing f n { q with sqTail := x } s)
    | _ => setRing f n { q with sqTail := x % 65536 } s) hs ho
  have same : ringOf { s with pages := l } f n = ringOf s f n := rfl
  refine ⟨l, tidy, congrArg Host.Outcome.next ((if_neg (Nat.not_le.2 hn)).trans (access.trans ?_))⟩
  dsimp only
  rw [same]
  split
  case h_1 => rfl
  case h_2 => rfl
  case h_3 other _ => exact (other active).elim

/-- The ring after a write of its completion head. -/
def headMoved (x : Nat) (q : Ring) : Ring :=
  { q with cqHead := x, unsignalled := min q.unsignalled ((q.cqTail + cqSize q - x) % cqSize q) }

theorem exec_cqHeadWrite_owner (hs : Tidy s) (ho : RingOwner s f) (hn : n < 16) (active : (ringOf s f n).state = .active) :
    ∃ l, Tidy { s with pages := l } ∧ exec (.cqHeadWrite f n x) s = .next
      (if cqSize (ringOf s f n) ≤ x ∨
          cqUsed (ringOf s f n) < (x + cqSize (ringOf s f n) - (ringOf s f n).cqHead) % cqSize (ringOf s f n) then
        ringError f n .accessDenied { s with pages := l }
      else issueFetch f n (settleIntx f (setRing f n (headMoved x (ringOf s f n)) { s with pages := l }))) := by
  obtain ⟨l, tidy, access⟩ := ownRegister_of_owner (fun s =>
    let q := ringOf s f n
    match q.state with
    | .active | .stopped =>
      if cqSize q ≤ x ∨ cqUsed q < (x + cqSize q - q.cqHead) % cqSize q then ringError f n .accessDenied s
      else
        let u := (q.cqTail + cqSize q - x) % cqSize q
        issueFetch f n (settleIntx f (setRing f n { q with cqHead := x, unsignalled := min q.unsignalled u } s))
    | _ => setRing f n { q with cqHead := x % 65536 } s) hs ho
  have same : ringOf { s with pages := l } f n = ringOf s f n := rfl
  refine ⟨l, tidy, congrArg Host.Outcome.next ((if_neg (Nat.not_le.2 hn)).trans (access.trans ?_))⟩
  dsimp only
  rw [same]
  split
  case h_1 => rfl
  case h_2 => rfl
  case h_3 other _ => exact (other active).elim

/-- A fetch after one ring was set: the ring has its tag, every other ring is as before. -/
theorem ringOf_issueFetch_setRing (v : Ring) (hs : Tidy s) :
    (∃ tag, ringOf (issueFetch f n (setRing f n v s)) f n = { v with fetchTag := tag }) ∧
      ∀ m, m ≠ n → ringOf (issueFetch f n (setRing f n v s)) f m = ringOf s f m := by
  obtain ⟨⟨tag, own⟩, others⟩ := ringOf_issueFetch (f := f) (n := n) ((keeps_setRing f n v s (.refl s)).tidy hs)
  refine ⟨⟨tag, own.trans ?_⟩, fun m hm => (others m hm).trans (ringOf_setRing_ne _ _ _ hs (ringKey_ne hm))⟩
  rw [ringOf_setRing _ _ _ hs]

theorem tidy_settleIntx (hs : Tidy s) : Tidy (settleIntx f s) := (keeps_settleIntx f s (.refl s)).tidy hs

theorem tidy_setRing (v : Ring) (hs : Tidy s) : Tidy (setRing f n v s) := (keeps_setRing f n v s (.refl s)).tidy hs

/-! Enable and disable (R361, R362, R364) -/

variable {cfg : Word}

theorem exec_ringEnable_disabled (hs : Tidy s) (ho : RingOwner s f) (hn : n < 16) (disabled : (ringOf s f n).state = .disabled)
    (idle : (ringOf s f n).running = []) (sound : ringConfigOk f (ringConfig cfg (ringOf s f n)) = true) :
    ∃ l, Tidy { s with pages := l } ∧ exec (.ringEnable f n cfg) s = .next (setRing f n (startRing (ringConfig cfg (ringOf s f n))
      (if (func s f).bme && !(func s f).d3hot then .active else .stopped)) { s with pages := l }) := by
  obtain ⟨l, tidy, access⟩ := ownRegister_of_owner (fun s =>
    let q := ringOf s f n
    let c := ringConfig cfg q
    let up := (func s f).bme && !(func s f).d3hot
    match q.state with
    | .active => setRing f n { q with intDelay := c.intDelay, vector := c.vector } s
    | .stopped =>
      if !ringConfigOk f c then ringError f n .accessDenied (setRing f n c s)
      else if up then rearm f n (setRing f n c s)
      else setRing f n c s
    | _ =>
      if !ringConfigOk f c then ringError f n .accessDenied (setRing f n c s)
      else if q.running.isEmpty then setRing f n (startRing c (if up then .active else .stopped)) s
      else setRing f n { c with enableWaits := true } s) hs ho
  have same : ringOf { s with pages := l } f n = ringOf s f n := rfl
  refine ⟨l, tidy, congrArg Host.Outcome.next ((if_neg (Nat.not_le.2 hn)).trans (access.trans ?_))⟩
  simp only [same, disabled, sound, idle]
  rfl

theorem exec_ringDisable_owner (hs : Tidy s) (ho : RingOwner s f) (hn : n < 16) :
    ∃ l, Tidy { s with pages := l } ∧ exec (.ringDisable f n cfg) s = .next (modRing f n (fun q =>
      { ringConfig cfg q with state := .disabled, err := 0, kept := [], fetchTag := none, enableWaits := false })
      { s with pages := l }) := by
  obtain ⟨l, tidy, access⟩ := ownRegister_of_owner (fun s => modRing f n (fun q =>
    { ringConfig cfg q with state := .disabled, err := 0, kept := [], fetchTag := none, enableWaits := false }) s) hs ho
  exact ⟨l, tidy, congrArg Host.Outcome.next ((if_neg (Nat.not_le.2 hn)).trans access)⟩

/-- A function whose event ring starts with the configuration written. -/
def evtStarted (cfg : Word) (u : Func) : Func :=
  { u with
    evtLog := bits cfg 4 0, evtVector := bits cfg 15 5, evtOverflow := u.evtOverflow && !bitOf cfg 30, evtOn := true
    evtHead := 0, evtIdx := 0, evtPhase := true }

theorem exec_evtRingEnable_off (hs : Tidy s) (ho : RingOwner s f) (least : 7 ≤ bits cfg 4 0) (most : bits cfg 4 0 ≤ 16)
    (off : (func s f).evtOn = false) :
    ∃ l, Tidy { s with pages := l } ∧ exec (.evtRingEnable f cfg) s = .next (modFunc f (evtStarted cfg) { s with pages := l }) := by
  obtain ⟨l, tidy, access⟩ := ownRegister_of_owner (fun s =>
    let log := bits cfg 4 0
    if log < 7 ∨ 16 < log then
      if isPf f then noteErr (Pg.hiu + fnPort f) kindRefusedValue .accessDenied 0x68 f s else s
    else
      modFunc f (fun u =>
        let v := { u with evtLog := log, evtVector := bits cfg 15 5, evtOverflow := u.evtOverflow && !bitOf cfg 30 }
        if u.evtOn then v else { v with evtOn := true, evtHead := 0, evtIdx := 0, evtPhase := true }) s) hs ho
  refine ⟨l, tidy, congrArg Host.Outcome.next (access.trans ((if_neg ?_).trans ?_))⟩
  · rw [not_or, Nat.not_lt, Nat.not_lt]
    exact ⟨least, most⟩
  · have same : func { s with pages := l } f = func s f := rfl
    rw [modFunc, modFunc, same]
    exact congrArg (fun v => setFunc f v { s with pages := l }) (if_neg (by simp [off]))

/-! Completions (R369) -/

theorem sent_interrupt (vector : Nat) : ∃ more, (interrupt f vector s).sent = s.sent ++ more := by
  unfold interrupt
  dsimp only
  split
  · exact ⟨[], (List.append_nil _).symm⟩
  · split
    · split
      · exact ⟨[], (List.append_nil _).symm⟩
      · exact ⟨_, rfl⟩
    · split
      · exact ⟨[], (List.append_nil _).symm⟩
      · split <;> exact ⟨_, rfl⟩

theorem sent_signalRing : ∃ more, (signalRing f n s).sent = s.sent ++ more := sent_interrupt _

/-- A completion carries the submission head and the phase of its ring, and may be followed by an interrupt. -/
theorem sent_writeCpl (c : Cpl) : ∃ more, (writeCpl f n c s).sent =
    s.sent ++ .completion f n { c with sqHead := (ringOf s f n).sqHead, phase := (ringOf s f n).phase } :: more := by
  unfold writeCpl
  extract_lets q c' wrap q' t
  have told : t.sent = s.sent ++ [.completion f n c'] := rfl
  split
  · obtain ⟨more, signalled⟩ := sent_signalRing (f := f) (n := n) (s := t)
    exact ⟨more, by rw [signalled, told, List.append_assoc]; rfl⟩
  · exact ⟨[], told⟩

theorem sent_settleRing : (settleRing f n s).sent = s.sent := by
  unfold settleRing
  dsimp only
  split <;> rfl

section
variable {r : RingCmd} {op res : Nat} {st : Status}

/-- The ring of a command once the command no longer runs. -/
def withoutRunningCmd (r : RingCmd) (op : Nat) (q : Ring) : Ring :=
  { q with running := q.running.eraseP (fun c => decide (c.cid = r.cid) && decide (c.op = op)) }

theorem complete_of_active (runs : inProgress s r op = true) (active : (ringOf s r.fn r.ring).state = .active) :
    complete r op st res s = settleRing r.fn r.ring (count (Pg.hiu + fnPort r.fn) 0xE08 (writeCpl r.fn r.ring
      ⟨r.cid, st, 0, false, 0, op, res % 2 ^ 64⟩ (setRing r.fn r.ring (withoutRunningCmd r op (ringOf s r.fn r.ring)) s))) := by
  unfold complete
  dsimp only
  rw [if_neg (by simp [runs])]
  split
  case h_1 => rfl
  case h_2 stopped => exact nomatch active.symm.trans stopped
  case h_3 other _ => exact (other active).elim

theorem complete_of_stopped (runs : inProgress s r op = true) (stopped : (ringOf s r.fn r.ring).state = .stopped) :
    complete r op st res s = settleRing r.fn r.ring (modRing r.fn r.ring
      (fun q => { q with kept := q.kept ++ [⟨r.cid, st, 0, false, 0, op, res % 2 ^ 64⟩] })
      (setRing r.fn r.ring (withoutRunningCmd r op (ringOf s r.fn r.ring)) s)) := by
  unfold complete
  dsimp only
  rw [if_neg (by simp [runs])]
  split
  case h_1 active => exact nomatch stopped.symm.trans active
  case h_2 => rfl
  case h_3 _ other => exact (other stopped).elim

theorem sent_complete_of_active (hs : Tidy s) (runs : inProgress s r op = true) (active : (ringOf s r.fn r.ring).state = .active) :
    ∃ more, (complete r op st res s).sent = s.sent ++ .completion r.fn r.ring
      ⟨r.cid, st, (ringOf s r.fn r.ring).sqHead, (ringOf s r.fn r.ring).phase, 0, op, res % 2 ^ 64⟩ :: more := by
  obtain ⟨more, written⟩ := sent_writeCpl (f := r.fn) (n := r.ring) ⟨r.cid, st, 0, false, 0, op, res % 2 ^ 64⟩
    (s := setRing r.fn r.ring (withoutRunningCmd r op (ringOf s r.fn r.ring)) s)
  rw [ringOf_setRing _ _ _ hs] at written
  exact ⟨more, by rw [complete_of_active runs active, sent_settleRing]; exact written⟩

theorem completion_of_active (hs : Tidy s) (runs : inProgress s r op = true) (active : (ringOf s r.fn r.ring).state = .active) :
    ∃ c, .completion r.fn r.ring c ∈ (complete r op st res s).sent ∧ c.cid = r.cid ∧ c.status = st := by
  obtain ⟨more, sent⟩ := sent_complete_of_active (res := res) (st := st) hs runs active
  exact ⟨_, sent ▸ List.mem_append_right _ List.mem_cons_self, rfl, rfl⟩

theorem settleRing_of_plain (h : (ringOf s f n).enableWaits = false) : settleRing f n s = s := by
  unfold settleRing
  simp [h]

theorem complete_stopped_keeps (hs : Tidy s) (runs : inProgress s r op = true) (stopped : (ringOf s r.fn r.ring).state = .stopped)
    (plain : (ringOf s r.fn r.ring).enableWaits = false) :
    (complete r op st res s).sent = s.sent ∧ (ringOf (complete r op st res s) r.fn r.ring).kept =
      (ringOf s r.fn r.ring).kept ++ [⟨r.cid, st, 0, false, 0, op, res % 2 ^ 64⟩] := by
  have kept := ringOf_modRing (f := r.fn) (n := r.ring) (fun q => { q with kept := q.kept ++ [⟨r.cid, st, 0, false, 0, op, res % 2 ^ 64⟩] })
    (tidy_setRing (f := r.fn) (n := r.ring) (withoutRunningCmd r op (ringOf s r.fn r.ring)) hs)
  rw [ringOf_setRing _ _ _ hs] at kept
  rw [complete_of_stopped runs stopped, settleRing_of_plain (by rw [kept]; exact plain)]
  exact ⟨rfl, congrArg (·.kept) kept⟩

end

/-! Fetches (R363, R364, R376) -/

/-- The ring's fetch is over, and what became of its tag is settled by `g`. -/
def fetchEnded (f n : Nat) (g : Nat → State → State) (s : State) : State :=
  let t := match (ringOf s f n).fetchTag with | some tag => g tag s | none => s
  setRing f n { ringOf t f n with fetchTag := none } t

/-- What a fetch that is over leaves: its ring has no tag. -/
structure FetchEnded (f n : Nat) (s t : State) : Prop where
  frame : FetchOnly s t
  tidy : Tidy t
  ring : ringOf t f n = { ringOf s f n with fetchTag := none }

theorem fetchEnded_left {g : Nat → State → State} (hs : Tidy s) (hg : ∀ tag, ∃ port h, g tag s = modHport port h s) :
    FetchEnded f n s (fetchEnded f n g s) := by
  have ends (t : State) (frame : FetchOnly s t) (tidy : Tidy t) (rings : t.hiu.rings = s.hiu.rings) :
      FetchEnded f n s (setRing f n { ringOf t f n with fetchTag := none } t) :=
    ⟨frame.trans rfl, tidy_setRing _ tidy, by rw [ringOf_setRing _ _ _ tidy, ringOf_congr rings]⟩
  unfold fetchEnded
  cases (ringOf s f n).fetchTag with
  | none => exact ends s rfl hs rfl
  | some tag =>
    obtain ⟨port, h, eq⟩ := hg tag
    dsimp only
    rw [eq]
    exact ends _ (fetchOnly_modHport _ _) ((keeps_modHport _ _ s (.refl s)).tidy hs) (rings_modHport _ _)

theorem canFetch_active (h : canFetch s f n = true) : (ringOf s f n).state = .active := by
  simp only [canFetch, Bool.and_eq_true, decide_eq_true_eq] at h
  obtain ⟨⟨⟨-, active⟩, -⟩, -⟩ := h
  exact active

theorem exec_commandFetch_entry (hw : Awake s) (can : canFetch s f n = true) {e : SubEntry} (plain : e.flags = 0) :
    exec (.commandFetch f n (.entry e)) s = .next (issueFetch f n (startEntry f n e
      (fetchEnded f n (fun tag => dropTag (fnPort f) tag) s))) := by
  refine (next_whenAwake hw _).trans (congrArg Host.Outcome.next ((if_neg (by simp [can])).trans ?_))
  exact if_neg (by simp [plain])

theorem exec_commandFetch_timeout (hw : Awake s) (can : canFetch s f n = true) :
    exec (.commandFetch f n .timeout) s = .next (ringError f n .dmaTimeout (noteAer f aerTimeout (count (Pg.hiu + fnPort f) 0xE28
      (fetchEnded f n (fun tag => quarantineTag (fnPort f) tag) s)))) :=
  (next_whenAwake hw _).trans (congrArg Host.Outcome.next (if_neg (by simp [can])))

/-- An entry that was taken runs in its ring. -/
theorem ringOf_takeEntry (hs : Tidy s) (cid op : Nat) : ringOf (takeEntry f n cid op s) f n = { ringOf s f n with
    sqHead := ((ringOf s f n).sqHead + 1) % sqSize (ringOf s f n)
    running := (ringOf s f n).running ++ [{ cid := cid, op := op, tag := none }] } := ringOf_modRing _ hs

theorem inProgress_of_running {r : RingCmd} {op : Nat} {l : List RunCmd} {tag : Option Nat}
    (h : (ringOf s r.fn r.ring).running = l ++ [{ cid := r.cid, op := op, tag := tag }]) : inProgress s r op = true := by
  simp [inProgress, h]

theorem opcodes_small : ∀ op ∈ opcodes, op % 256 = op := by decide

/-- An entry that is in order and reads no host memory runs (R364). -/
theorem startEntry_of_sound {e : SubEntry} (plain : e.flags = 0) (zero : e.reservedZero = true) (known : e.opcode ∈ opcodes)
    (dry : readsHost e.opcode = false) (enabled : s.dev.memEnabled = true) :
    startEntry f n e s = takeEntry f n (e.cid % 65536) e.opcode s := by
  have small : e.opcode % 256 = e.opcode := opcodes_small _ known
  have on : (takeEntry f n (e.cid % 65536) e.opcode s).dev.memEnabled = true := enabled
  unfold startEntry
  dsimp only
  rw [small, if_neg (by simp [plain, zero, known]), if_neg (by simp [enabled]), giveTag, if_neg (by simp [dry])]

theorem startEntry_of_unknown {e : SubEntry} (unknown : e.opcode ∉ opcodes) : startEntry f n e s =
    complete ⟨f, n, e.cid % 65536⟩ (e.opcode % 256) .accessDenied 0 (takeEntry f n (e.cid % 65536) (e.opcode % 256) s) :=
  if_pos (by simp [unknown])

theorem fetchEnded_drop (hs : Tidy s) : FetchEnded f n s (fetchEnded f n (fun tag => dropTag (fnPort f) tag) s) :=
  fetchEnded_left hs fun _ => ⟨_, _, rfl⟩

theorem fetchEnded_quarantine (hs : Tidy s) : FetchEnded f n s (fetchEnded f n (fun tag => quarantineTag (fnPort f) tag) s) :=
  fetchEnded_left hs fun _ => ⟨_, _, rfl⟩

theorem tidy_takeEntry (cid op : Nat) (hs : Tidy s) : Tidy (takeEntry f n cid op s) := (keeps_takeEntry f n cid op s (.refl s)).tidy hs

/-! Interrupts (R369) -/

theorem exec_intDelayExpiry_due (hw : Awake s) (hn : n < 16) (waits : (ringOf s f n).unsignalled ≠ 0)
    (delayed : (ringOf s f n).intDelay ≠ 0) (due : (ringOf s f n).firstAt + 1000 * (ringOf s f n).intDelay ≤ s.now) :
    exec (.intDelayExpiry f n) s = .next (signalRing f n s) :=
  (next_whenAwake hw _).trans (congrArg Host.Outcome.next (if_pos ⟨hn, waits, delayed, due⟩))

theorem signalRing_msix (bme : (func s f).bme = true) (msix : (func s f).msix = true)
    (unmasked : (func s f).masked.contains (ringOf s f n).vector = false) :
    signalRing f n s = emit (.interrupt f (ringOf s f n).vector .msix) (modRing f n (fun q => { q with unsignalled := 0 }) s) := by
  have same : func (modRing f n (fun q => { q with unsignalled := 0 }) s) f = func s f := rfl
  unfold signalRing interrupt
  dsimp only
  rw [same, if_neg (by simp [bme]), if_pos msix, if_neg (by rw [unmasked]; decide)]

end

end
end Sys2Proof.Machine

open Sys2Proof Sys2Proof.Machine

/-- Settles O54: each ring command by its equation for the ring's owner; the ring that it sets reads back, every other is as before. -/
theorem hostRings : Obligations.HostRings := by
  unfold Obligations.HostRings
  refine ⟨fun s f n x hs ho hn active => ⟨fun fits => ?_, fun beyond => ?_, fun fits within => ?_, fun beyond => ?_⟩,
    fun s f n cfg hs ho hn => ⟨fun disabled idle sound => ?_, ?_, fun least most off => ?_⟩,
    fun s f n e hs hw can => ⟨fun plain zero known dry enabled => ?_, fun plain unknown => ?_, ?_⟩,
    fun s r op res st hs runs => ⟨fun active => sent_complete_of_active hs runs active,
      fun stopped plain => complete_stopped_keeps hs runs stopped plain⟩,
    fun s f n hs hw hn waits delayed due bme msix unmasked => ?_⟩
  · obtain ⟨l, tidy, run⟩ := exec_doorbell_owner (x := x) hs ho hn active
    rw [if_neg (Nat.not_le.2 fits)] at run
    obtain ⟨⟨tag, own⟩, others⟩ := ringOf_issueFetch_setRing (f := f) (n := n) { ringOf s f n with sqTail := x } tidy
    have frame := fetchOnly_issueFetch (f := f) (n := n) (s := setRing f n { ringOf s f n with sqTail := x } { s with pages := l })
    exact ⟨_, tag, run, own, fun m _ hm => others m hm, congrArg (·.sent) frame, congrArg (·.mem) frame⟩
  · obtain ⟨l, tidy, run⟩ := exec_doorbell_owner (x := x) hs ho hn active
    rw [if_pos beyond] at run
    exact ⟨_, run, ringOf_ringError .accessDenied tidy⟩
  · obtain ⟨l, tidy, run⟩ := exec_cqHeadWrite_owner (x := x) hs ho hn active
    rw [if_neg (by rw [not_or, Nat.not_le, Nat.not_lt]; exact ⟨fits, within⟩)] at run
    have set := tidy_setRing (f := f) (n := n) (headMoved x (ringOf s f n)) tidy
    obtain ⟨⟨tag, own⟩, -⟩ := ringOf_issueFetch (f := f) (n := n) (tidy_settleIntx (f := f) set)
    have frame := fetchOnly_issueFetch (f := f) (n := n)
      (s := settleIntx f (setRing f n (headMoved x (ringOf s f n)) { s with pages := l }))
    refine ⟨_, tag, run, own.trans ?_, (congrArg (·.mem) frame).trans (congrArg (·.mem) settleIntx_frame)⟩
    rw [settleIntx_frame]
    exact congrArg (fun q : Ring => { q with fetchTag := tag }) (ringOf_setRing f n (headMoved x (ringOf s f n)) tidy)
  · obtain ⟨l, tidy, run⟩ := exec_cqHeadWrite_owner (x := x) hs ho hn active
    rw [if_pos (.inl beyond)] at run
    exact ⟨_, run, ringOf_ringError .accessDenied tidy⟩
  · obtain ⟨l, tidy, run⟩ := exec_ringEnable_disabled hs ho hn disabled idle sound
    exact ⟨_, run, ringOf_setRing _ _ _ tidy, fun m _ hm => ringOf_setRing_ne _ _ _ tidy (ringKey_ne hm)⟩
  · obtain ⟨l, tidy, run⟩ := exec_ringDisable_owner (cfg := cfg) hs ho hn
    have own := ringOf_modRing (f := f) (n := n) (fun q =>
      { ringConfig cfg q with state := .disabled, err := 0, kept := [], fetchTag := none, enableWaits := false }) tidy
    exact ⟨_, run, congrArg (·.state) own, congrArg (·.running) own, fun m _ hm => ringOf_modRing_ne _ tidy hm⟩
  · obtain ⟨l, tidy, run⟩ := exec_evtRingEnable_off hs ho least most off
    exact ⟨_, run, func_setFunc _ _ tidy⟩
  · obtain ⟨frame, tidy, ring⟩ := fetchEnded_drop (f := f) (n := n) hs
    have on : (fetchEnded f n (fun tag => dropTag (fnPort f) tag) s).dev.memEnabled = true := (congrArg (·.dev.memEnabled) frame).trans enabled
    have taken := ringOf_takeEntry (f := f) (n := n) tidy (e.cid % 65536) e.opcode
    obtain ⟨⟨tag, own⟩, -⟩ := ringOf_issueFetch (f := f) (n := n) (tidy_takeEntry (f := f) (n := n) (e.cid % 65536) e.opcode tidy)
    have fetch := fetchOnly_issueFetch (f := f) (n := n) (s := takeEntry f n (e.cid % 65536) e.opcode
      (fetchEnded f n (fun tag => dropTag (fnPort f) tag) s))
    have run := exec_commandFetch_entry hw can plain
    rw [startEntry_of_sound plain zero known dry on] at run
    rw [taken, ring] at own
    exact ⟨_, run, inProgress_of_running (r := ⟨f, n, e.cid % 65536⟩) (congrArg (·.running) own), congrArg (·.sqHead) own,
      (congrArg (·.mem) fetch).trans (congrArg (·.mem) frame)⟩
  · obtain ⟨frame, tidy, ring⟩ := fetchEnded_drop (f := f) (n := n) hs
    have taken := ringOf_takeEntry (f := f) (n := n) tidy (e.cid % 65536) (e.opcode % 256)
    rw [ring] at taken
    have run := exec_commandFetch_entry hw can plain
    rw [startEntry_of_unknown unknown] at run
    obtain ⟨c, told, cid, status⟩ := completion_of_active (r := ⟨f, n, e.cid % 65536⟩) (op := e.opcode % 256) (st := .accessDenied) (res := 0)
      (tidy_takeEntry (f := f) (n := n) (e.cid % 65536) (e.opcode % 256) tidy)
      (inProgress_of_running (r := ⟨f, n, e.cid % 65536⟩) (congrArg (·.running) taken))
      ((congrArg (·.state) taken).trans (canFetch_active can))
    have fetch := fetchOnly_issueFetch (f := f) (n := n) (s := complete ⟨f, n, e.cid % 65536⟩ (e.opcode % 256) .accessDenied 0
      (takeEntry f n (e.cid % 65536) (e.opcode % 256) (fetchEnded f n (fun tag => dropTag (fnPort f) tag) s)))
    have done := ringsOnly_complete (s := takeEntry f n (e.cid % 65536) (e.opcode % 256)
      (fetchEnded f n (fun tag => dropTag (fnPort f) tag) s)) ⟨f, n, e.cid % 65536⟩ (e.opcode % 256) .accessDenied 0
    exact ⟨_, c, run, (congrArg (·.sent) fetch).symm ▸ told, cid, status,
      (congrArg (·.mem) fetch).trans ((congrArg (·.mem) done).trans (congrArg (·.mem) frame))⟩
  · obtain ⟨frame, tidy, -⟩ := fetchEnded_quarantine (f := f) (n := n) hs
    have run := exec_commandFetch_timeout hw can
    generalize fetchEnded f n (fun tag => quarantineTag (fnPort f) tag) s = v at frame tidy run
    have counted : Tidy (noteAer f aerTimeout (count (Pg.hiu + fnPort f) 0xE28 v)) :=
      (keeps_noteAer _ _ _ (keeps_count _ _ _ (.refl v))).tidy tidy
    have failed := ringOf_ringError (f := f) (n := n) .dmaTimeout counted
    refine ⟨_, run, congrArg (·.state) failed, congrArg (·.err) failed,
      (counter_countBy_of_rising (twf_trising tidy.cnts)).trans ?_⟩
    have cnts : v.cnts = s.cnts := congrArg (·.cnts) frame
    rw [counter_congr cnts]
  · exact ⟨_, (exec_intDelayExpiry_due hw hn waits delayed due).trans (congrArg Host.Outcome.next (signalRing_msix bme msix unmasked)), rfl,
      ringOf_modRing (fun q => { q with unsignalled := 0 }) hs, rfl⟩
end

section
/-! PROOFS. Lifecycle tokens, key slots, trust store and debug grants (O57). -/

set_option Elab.async false

namespace Sys2Proof.Machine

section
variable {s t u : State} {w k : Nat}

/-! Lifecycle tokens (R403) -/

theorem exec_lccSubmit_owner (hs : Tidy s) (ho : Owns s w Pg.lcc) (idle : s.lcc.busy = false) : exec (.lccSubmit w) s = .next
    (setLcc { s.lcc with busy := true, two := flag s Pg.lcc 0x48 0, submitter := w, result := 0 } (dropHalf w Pg.lcc s)) := by
  have idle' : ¬(dropHalf w Pg.lcc s).lcc.busy = true := Bool.eq_false_iff.1 idle
  exact congrArg Host.Outcome.next ((ownedWrite_of_owns _ hs ho).trans (if_neg idle'))

theorem exec_lccCancel_owner (hs : Tidy s) (ho : Owns s w Pg.lcc) (idle : s.lcc.busy = false) :
    exec (.lccCancel w) s = .next (setLcc { s.lcc with pending := none } (dropHalf w Pg.lcc s)) := by
  have idle' : ¬(dropHalf w Pg.lcc s).lcc.busy = true := Bool.eq_false_iff.1 idle
  exact congrArg Host.Outcome.next ((ownedWrite_of_owns _ hs ho).trans (if_neg idle'))

theorem exec_lccTokenChecked_one {d : List Byte} (hw : Awake s) (busy : s.lcc.busy = true) (one : s.lcc.two = false)
    (bme : (func s s.lcc.submitter).bme = true) (whole : d.length = 256) :
    exec (.lccTokenChecked (.bytes d)) s = .next (match checkTokens s [d] with
      | .error r => tokenFails r s
      | .ok p => setLcc { s.lcc with busy := false, result := 1, pending := some p } s) := by
  refine (next_whenAwake hw _).trans (congrArg Host.Outcome.next ((if_neg (by simp [busy])).trans ?_))
  dsimp only
  rw [one, if_neg (by simp [whole, bme])]
  rfl

/-! Key slots (R410) -/

/-- A state whose keys are those of `s` with slot `k` set to `v` reads so. -/
theorem keyAt_of_set (k : Nat) (v : KeySlot) (hs : Tidy s) (h : t.sec.keys = tput KeySlot.reset s.sec.keys k v) :
    keyAt t k = v ∧ ∀ j, j ≠ k → keyAt t j = keyAt s j := by
  unfold keyAt
  rw [h]
  exact ⟨tget_tput_same _ _ (twf_trising hs.keys), fun j hj => tget_tput_ne _ (twf_trising hs.keys) hj⟩

theorem keyCommand_of_done (body : State → State) (hs : Tidy s) (ho : Owns s w Pg.sec) (done : s.sec.done = true) :
    keyCommand w body s = body (dropHalf w Pg.sec s) := (ownedWrite_of_owns _ hs ho).trans (if_pos done)

theorem chooseFrom_sound {n c : Nat} {p : Nat → Bool} (h : (chooseFrom n p s).1 = some c) : p c = true := by
  unfold chooseFrom at h
  dsimp only at h
  cases first : findFrom p (Config.choice (draw s).1 % n) (n - Config.choice (draw s).1 % n) with
  | some k =>
    rw [first] at h
    cases h
    exact findFrom_some first
  | none =>
    rw [first] at h
    exact findFrom_some h

theorem findFrom_finds {p : Nat → Bool} {a m b : Nat} (low : a ≤ b) (high : b < a + m) (hit : p b = true) :
    ∃ c, c < a + m ∧ findFrom p a m = some c := by
  induction m generalizing a with
  | zero => omega
  | succ m ih =>
    unfold findFrom
    split
    · exact ⟨a, by omega, rfl⟩
    case isFalse miss =>
      have later : a ≠ b := fun here => miss (here ▸ hit)
      obtain ⟨c, hc, found⟩ := ih (a := a + 1) (by omega) (by omega)
      exact ⟨c, by omega, found⟩

theorem findFrom_lt {p : Nat → Bool} {a m c : Nat} (h : findFrom p a m = some c) : c < a + m := by
  induction m generalizing a with
  | zero => cases h
  | succ m ih =>
    unfold findFrom at h
    split at h
    · cases h
      omega
    · have := ih h
      omega

/-- A choice among the numbers below `n` that satisfy a test finds one where there is one, and draws once. -/
theorem chooseFrom_finds {n k : Nat} {p : Nat → Bool} (hk : k < n) (hit : p k = true) :
    ∃ c, c < n ∧ p c = true ∧ chooseFrom n p s = (some c, (draw s).2) := by
  have found : ∃ c, c < n ∧ (chooseFrom n p s).1 = some c := by
    unfold chooseFrom
    dsimp only
    have start : Config.choice (draw s).1 % n < n := Nat.mod_lt _ (by omega)
    generalize Config.choice (draw s).1 % n = a at start
    cases first : findFrom p a (n - a) with
    | some c =>
      have := findFrom_lt first
      exact ⟨c, by omega, rfl⟩
    | none =>
      have early : k < a := by
        by_contra late
        obtain ⟨c, -, again⟩ := findFrom_finds (a := a) (m := n - a) (by omega) (by omega) hit
        exact nomatch first.symm.trans again
      obtain ⟨c, hc, again⟩ := findFrom_finds (a := 0) (m := a) (Nat.zero_le k) (by omega) hit
      exact ⟨c, by omega, again⟩
  obtain ⟨c, hc, chosen⟩ := found
  exact ⟨c, hc, chooseFrom_sound chosen, Prod.ext chosen rfl⟩

theorem exec_keyAlloc_owner (hs : Tidy s) (ho : Owns s w Pg.sec) (done : s.sec.done = true)
    (room : ∃ k, k < 65536 ∧ (keyAt s k).state = .free) : ∃ k, k < 65536 ∧ (keyAt s k).state = .free ∧ exec (.keyAlloc w) s =
      .next (keyResult secOk k (setKey k { KeySlot.reset with state := .empty, port := fnPort w } (draw (dropHalf w Pg.sec s)).2)) := by
  obtain ⟨j, hj, free⟩ := room
  obtain ⟨k, hk, sound, chosen⟩ := chooseFrom_finds (n := 65536) (p := fun k => decide ((keyAt s k).state = .free))
    (s := dropHalf w Pg.sec s) hj (decide_eq_true free)
  refine ⟨k, hk, of_decide_eq_true sound, congrArg Host.Outcome.next ((keyCommand_of_done _ hs ho done).trans ?_)⟩
  have same (k : Nat) : keyAt (dropHalf w Pg.sec s) k = keyAt s k := rfl
  simp only [same]
  rw [chosen]

theorem exec_keyImport_empty {b : List Byte} (hs : Tidy s) (ho : Owns s w Pg.sec) (done : s.sec.done = true) (hk : k < 65536)
    (empty : (keyAt s k).state = .empty) (port : (keyAt s k).port = fnPort w) (bme : (func s w).bme = true) :
    exec (.keyImport w k (.bytes b)) s = .next (match blobKey s k b with
      | none => badBlob secBadBlob k (dropHalf w Pg.sec s)
      | some key => keyResult secOk k (count Pg.sec 0xE08
          (setKey k { keyAt s k with state := .loaded, key := key } (dropHalf w Pg.sec s)))) := by
  have slot (k : Nat) : keyAt (dropHalf w Pg.sec s) k = keyAt s k := rfl
  have bme' : (func (dropHalf w Pg.sec s) w).bme = true := bme
  refine congrArg Host.Outcome.next ((keyCommand_of_done _ hs ho done).trans ?_)
  dsimp only
  rw [Nat.mod_eq_of_lt hk, slot, if_neg (by simp [empty]), if_neg (by simp [port]), if_neg (by simp [empty]), if_neg (by simp [bme'])]
  rfl

theorem exec_keyDestroy_loaded (hs : Tidy s) (ho : Owns s w Pg.sec) (done : s.sec.done = true) (hk : k < 65536)
    (loaded : (keyAt s k).state = .loaded) (port : (keyAt s k).port = fnPort w) : exec (.keyDestroy w k) s =
      .next (keyResult secOk k (count Pg.sec 0xE18 (setKey k KeySlot.reset (dropHalf w Pg.sec s)))) := by
  have slot (k : Nat) : keyAt (dropHalf w Pg.sec s) k = keyAt s k := rfl
  refine congrArg Host.Outcome.next ((keyCommand_of_done _ hs ho done).trans ?_)
  dsimp only
  rw [Nat.mod_eq_of_lt hk, slot]
  split
  case h_1 free => exact nomatch loaded.symm.trans free
  case h_2 =>
    rw [if_neg (by simp [port])]
    split
    case h_1 bound => exact nomatch loaded.symm.trans bound
    case h_2 => rfl

/-- The slot of a bound key while the key is destroyed. -/
def slotDying (k : Nat) (s : State) : State :=
  setKey k { keyAt s k with dying := true } (setSec { s.sec with done := false, result := 0, slot := k, slotState := keyCode .bound } s)

theorem exec_keyDestroy_bound (hs : Tidy s) (ho : Owns s w Pg.sec) (done : s.sec.done = true) (hk : k < 65536)
    (bound : (keyAt s k).state = .bound) (port : (keyAt s k).port = fnPort w) : exec (.keyDestroy w k) s =
      .next ((boundTo s k).foldl (fun s c => tdiError (ctxFn s c) s) (slotDying k (dropHalf w Pg.sec s))) := by
  have slot (k : Nat) : keyAt (dropHalf w Pg.sec s) k = keyAt s k := rfl
  refine congrArg Host.Outcome.next ((keyCommand_of_done _ hs ho done).trans ?_)
  dsimp only
  rw [Nat.mod_eq_of_lt hk, slot]
  split
  case h_1 free => exact nomatch bound.symm.trans free
  case h_2 =>
    rw [if_neg (by simp [port])]
    split
    case h_1 => rfl
    case h_2 other => exact (other bound).elim

theorem ringsOnly_tdiError (f : Nat) : RingsOnly s (tdiError f s) := by
  unfold tdiError
  split
  · exact List.foldlRecOn _ _ (motive := RingsOnly s) rfl fun _ h _ _ => h.trans rfl
  · exact List.foldlRecOn _ _ (motive := RingsOnly s) rfl fun _ h _ _ => h.trans rfl
  · rfl

theorem ringsOnly_tdiErrors (l : List Nat) : RingsOnly s (l.foldl (fun s c => tdiError (ctxFn s c) s) s) :=
  List.foldlRecOn l _ (motive := RingsOnly s) rfl fun _ h _ _ => h.trans (ringsOnly_tdiError _)

theorem exec_keyDestroyDone_bare {c : Nat} (hw : Awake s) (dying : (keyAt s k).dying = true) (bound : boundTo s k = [c])
    (bare : slabsOf s c = []) :
    exec (.keyDestroyDone k) s = .next (keyResult secOk k (count Pg.sec 0xE18 (setKey k KeySlot.reset
      (setCtx c { ctxAt s c with key := 0xFFFF } s)))) := by
  refine (next_whenAwake hw _).trans (congrArg Host.Outcome.next ((if_neg (by simp [dying])).trans ?_))
  rw [eraseKey, bound, List.flatMap_singleton, bare]
  rfl

/-! Trust store (R407) -/

theorem exec_trustStage_bytes {b : List Byte} (hs : Tidy s) (ho : Owns s w Pg.sec) (bme : (func s w).bme = true) :
    exec (.trustStage w (.bytes b)) s = .next (match trustRefusal s b with
      | some r => trustResult r (dropHalf w Pg.sec s)
      | none => installTrust b (dropHalf w Pg.sec s)) := by
  have bme' : (func (dropHalf w Pg.sec s) w).bme = true := bme
  refine congrArg Host.Outcome.next ((ownedWrite_of_owns _ hs ho).trans (if_neg ?_))
  simp [bme']

theorem installTrust_of_none {b : List Byte} (none : ∀ p, p < 8 → (fportAt s p).spdmDone = false) :
    installTrust b s = setSec { s.sec with trust := b, trustResult := trustOk } s := by
  unfold installTrust
  dsimp only
  rw [List.filter_eq_nil_iff.2]
  · rfl
  · intro p hp
    simp [none p (List.mem_range.1 hp)]

/-! Debug grants (R412, R415) -/

theorem exec_grantNonceRead_owner (ho : Owns s w Pg.sec) : exec (.grantNonceRead w) s = .next
    (emit (.readData Pg.sec 0x68 (Config.random s.draws % 2 ^ 64)) (setSec
      { s.sec with nonce := some (Config.random s.draws % 2 ^ 64), nonceUsed := false } (draw (dropHalf w Pg.sec s)).2)) := by
  obtain ⟨reach, -, -⟩ := ho
  exact congrArg Host.Outcome.next (if_pos reach)

theorem exec_debugGrantSubmit_bytes {addr : Nat} {b : List Byte} (hs : Tidy s) (ho : Owns s w Pg.sec) (bme : (func s w).bme = true) :
    ∃ regs, exec (.debugGrantSubmit w addr (.bytes b)) s = .next (if grantGood s b then
      putGrant w b { dropHalf w Pg.sec s with regs := regs } else { dropHalf w Pg.sec s with regs := regs }) := by
  have bme' : (func (dropHalf w Pg.sec s) w).bme = true := bme
  have good : grantGood (dropHalf w Pg.sec s) b = grantGood s b := rfl
  refine ⟨(setReg Pg.sec 0x70 (setBits (reg (dropHalf w Pg.sec s) Pg.sec 0x70) 60 17 addr) (dropHalf w Pg.sec s)).regs,
    congrArg Host.Outcome.next ((ownedWrite_of_owns _ hs ho).trans ?_)⟩
  dsimp only
  rw [bme', good, Bool.true_and]
  rfl

/-- The end of a debug grant changes nothing but the grant, the claims and the trace. -/
theorem endGrant_frame : TestOnly { s with sec := { s.sec with grant := none } } (endGrant s) := testOnly_releaseClaims _

theorem grant_endGrant : (endGrant s).sec.grant = none ∧ (endGrant s).mem = s.mem := by
  have frame := endGrant_frame (s := s)
  unfold TestOnly at frame
  rw [frame]
  exact ⟨rfl, rfl⟩

theorem exec_debugGrantExpiry_due (hw : Awake s) (ends : s.sec.grant.any (fun g => decide (g.ends ≤ s.now)) = true) :
    exec .debugGrantExpiry s = .next (endGrant s) := (next_whenAwake hw _).trans (congrArg Host.Outcome.next (if_pos ends))

theorem claimOf_endGrant (hs : Tidy s) {n : Nat} (hn : n < 19) : (claimOf (endGrant s) n).owner ≠ .debug := by
  have tidy : Tidy { s with sec := { s.sec with grant := none } } := { hs with }
  exact of_decide_eq_false (claimOf_releaseClaims (p := fun c => decide (c.owner = .debug)) rfl tidy hn)

theorem putGrant_sec {b : List Byte} : (putGrant w b s).sec.grant = some
    { port := fnPort w, ends := s.now + field b 24 4 * 1000000000, signer := field b 4 1, lifetime := field b 24 4 } ∧
      (putGrant w b s).sec.nonceUsed = true := ⟨rfl, rfl⟩

end
end Sys2Proof.Machine

open Sys2Proof Sys2Proof.Machine

/-- Settles O57: each command by its equation for the writer that owns the page; a grant's end lets go claim by claim. -/
theorem lifecycleKeysTrust : Obligations.LifecycleKeysTrust := by
  unfold Obligations.LifecycleKeysTrust
  refine ⟨fun s w hs ho idle => ⟨⟨_, exec_lccSubmit_owner hs ho idle, rfl⟩, ⟨_, exec_lccCancel_owner hs ho idle, rfl⟩⟩,
    fun s d hs hw busy one bme whole => ⟨_, exec_lccTokenChecked_one hw busy one bme whole, fun p good => ?_, fun r bad => ?_⟩,
    fun s w hs ho done => ⟨fun room => ?_, fun k b hk empty port bme => ?_, fun k hk port => ⟨fun loaded => ?_, fun bound => ?_⟩,
      fun b bme none => ?_, ?_, ?_, fun addr b bme => ?_, ?_⟩,
    fun s hs hw ends => ?_, fun s k c hs hw dying hk bound bare => ?_⟩
  · rw [good]
    rfl
  · rw [bad]
    exact ⟨rfl, counter_countBy_of_rising (twf_trising hs.cnts)⟩
  · obtain ⟨k, hk, free, run⟩ := exec_keyAlloc_owner hs ho done room
    have hd : Tidy (draw (dropHalf w Pg.sec s)).2 := { tidy_dropHalf hs with }
    obtain ⟨own, others⟩ := keyAt_of_set k { KeySlot.reset with state := .empty, port := fnPort w } hd
      (t := keyResult secOk k (setKey k { KeySlot.reset with state := .empty, port := fnPort w }
      (draw (dropHalf w Pg.sec s)).2)) rfl
    exact ⟨_, k, run, hk, free, own, others, Nat.mod_eq_of_lt hk, rfl⟩
  · have hd : Tidy (dropHalf w Pg.sec s) := tidy_dropHalf hs
    refine ⟨_, exec_keyImport_empty hs ho done hk empty port bme, fun j hj => ?_, fun key sound => ?_, fun bad => ?_⟩
    · cases blobKey s k b with
      | none => rfl
      | some key => exact (keyAt_of_set k { keyAt s k with state := .loaded, key := key } hd rfl).2 j hj
    · rw [sound]
      exact ⟨(keyAt_of_set k { keyAt s k with state := .loaded, key := key } hd rfl).1, rfl⟩
    · rw [bad]
      exact ⟨rfl, rfl⟩
  · obtain ⟨own, others⟩ := keyAt_of_set k KeySlot.reset (tidy_dropHalf (w := w) (p := Pg.sec) hs)
      (t := keyResult secOk k (count Pg.sec 0xE18 (setKey k KeySlot.reset (dropHalf w Pg.sec s)))) rfl
    exact ⟨_, exec_keyDestroy_loaded hs ho done hk loaded port, own, others, rfl, rfl⟩
  · have frame := ringsOnly_tdiErrors (s := slotDying k (dropHalf w Pg.sec s)) (boundTo s k)
    refine ⟨_, exec_keyDestroy_bound hs ho done hk bound port, ?_⟩
    rw [frame]
    exact ⟨(keyAt_of_set k { keyAt s k with dying := true } hs rfl).1, rfl, rfl, rfl⟩
  · refine ⟨_, exec_trustStage_bytes hs ho bme, fun fits => ?_, fun r refused => ?_⟩
    · simp only [fits]
      rw [installTrust_of_none (s := dropHalf w Pg.sec s) none]
      rfl
    · rw [refused]
      rfl
  · exact ⟨_, congrArg Host.Outcome.next (ownedWrite_of_owns _ hs ho), rfl⟩
  · exact ⟨_, _, exec_grantNonceRead_owner ho, rfl, rfl, Nat.mod_lt _ (by decide), rfl, rfl⟩
  · obtain ⟨regs, run⟩ := exec_debugGrantSubmit_bytes (addr := addr) (b := b) hs ho bme
    refine ⟨_, run, fun good => ?_, fun bad => ?_⟩
    · rw [if_pos good]
      exact putGrant_sec
    · rw [bad]
      exact ⟨rfl, rfl⟩
  · have hd : Tidy (dropHalf w Pg.sec s) := tidy_dropHalf hs
    refine ⟨_, congrArg Host.Outcome.next (ownedWrite_of_owns _ hs ho), ?_⟩
    cases inForce : s.sec.grant with
    | none =>
      rw [if_neg (by simp [dropHalf, modPage, inForce])]
      exact ⟨inForce, fun h => nomatch h⟩
    | some g =>
      rw [if_pos (by simp [dropHalf, modPage, inForce])]
      exact ⟨grant_endGrant.1, fun _ n hn => claimOf_endGrant hd hn⟩
  · obtain ⟨gone, mem⟩ := grant_endGrant (s := s)
    exact ⟨_, exec_debugGrantExpiry_due hw ends, gone, fun n hn => claimOf_endGrant hs hn, mem⟩
  · have hc : Tidy (setCtx c { ctxAt s c with key := 0xFFFF } s) := (keeps_setCtx c _ s (.refl s)).tidy hs
    obtain ⟨own, -⟩ := keyAt_of_set k KeySlot.reset hc
      (t := keyResult secOk k (count Pg.sec 0xE18 (setKey k KeySlot.reset (setCtx c { ctxAt s c with key := 0xFFFF } s)))) rfl
    have ctx (d : Nat) : ctxAt (keyResult secOk k (count Pg.sec 0xE18 (setKey k KeySlot.reset
      (setCtx c { ctxAt s c with key := 0xFFFF } s)))) d = ctxAt (setCtx c { ctxAt s c with key := 0xFFFF } s) d := rfl
    exact ⟨_, exec_keyDestroyDone_bare hw dying bound bare, own, (ctx c).trans (ctxAt_setCtx _ _ hs),
      fun d hd => (ctx d).trans (ctxAt_setCtx_ne _ _ hs hd), rfl, rfl, rfl⟩
end

section
/-! PROOFS. Host requests (O55): QUERY, configuration, reads that end or fail, Bus Master Enable, IDE and the mailboxes. -/

set_option Elab.async false

namespace Sys2Proof.Machine

section
variable {s t u v : State}

/-! QUERY (R368) -/

section
variable {r : RingCmd} {ctx addr result : Nat}

theorem exec_query_started (kind : Nat) (h : started r Opc.query s = some v) (low : kind < 4) (aligned : result % 64 = 0)
    (inside : 2 ≤ kind → addr < 2 ^ 48) : exec (.query r ctx kind addr result) s = .next (
      if kind = 0 then writeRecord r result (deviceRecord v) v
      else if !v.dev.memEnabled then complete r Opc.query .deviceNotReady 0 v
      else match gateCtx r ctx v with
      | (some st, s1) => complete r Opc.query st 0 s1
      | (none, s1) =>
        if kind = 1 then writeRecord r result (ctxRecord s1 ctx) s1
        else match checkAccess (ringAsk r.fn ctx false false) (addr / 2 ^ 24) s1 with
          | (some (_, st), s2) => complete r Opc.query st 0 s2
          | (none, s2) =>
            writeRecord r result (if kind = 2 then slabRecord s2 ctx (addr / 2 ^ 24)
              else blockRecord s2 (addr / 2 ^ 24) (addr % 2 ^ 24 / 4096)) s2) := by
  have sound : ¬ (result % 64 ≠ 0 ∨ 4 ≤ kind ∨ (2 ≤ kind ∧ 2 ^ 48 ≤ addr)) := by omega
  refine congrArg Host.Outcome.next ?_
  unfold ringRun
  rw [h]
  exact (if_neg (by simp)).trans (if_neg sound)

theorem exec_query_device (h : started r Opc.query s = some v) (aligned : result % 64 = 0) :
    exec (.query r ctx 0 addr result) s = .next (writeRecord r result (deviceRecord v) v) :=
  (exec_query_started 0 h (by decide) aligned (by omega)).trans (congrArg Host.Outcome.next (if_pos rfl))

theorem exec_query_ctx (h : started r Opc.query s = some v) (aligned : result % 64 = 0) (enabled : v.dev.memEnabled = true)
    (own : OwnCtx r ctx v) : exec (.query r ctx 1 addr result) s = .next (writeRecord r result (ctxRecord v ctx) v) := by
  rw [exec_query_started 1 h (by decide) aligned (by omega), gateCtx_of_ownCtx own]
  simp [enabled]

theorem exec_query_address {kind : Nat} (known : kind = 2 ∨ kind = 3) (h : started r Opc.query s = some v) (aligned : result % 64 = 0)
    (enabled : v.dev.memEnabled = true) (own : OwnCtx r ctx v) (inside : addr < 2 ^ 48)
    (passes : accessCheck v (ringAsk r.fn ctx false false) (addr / 2 ^ 24) = none) : exec (.query r ctx kind addr result) s =
      .next (writeRecord r result (if kind = 2 then slabRecord v ctx (addr / 2 ^ 24)
        else blockRecord v (addr / 2 ^ 24) (addr % 2 ^ 24 / 4096)) v) := by
  obtain ⟨sound, -⟩ := id own
  rw [exec_query_started kind h (by omega) aligned fun _ => inside, gateCtx_of_ownCtx own]
  dsimp only
  rw [checkAccess_of_pass sound passes, if_neg (by omega), if_neg (by simp [enabled]), if_neg (by omega)]

end

/-! Configuration requests (R356) -/

section
variable {f : Nat}

theorem exec_configRequest_missing (hf : f < 4096) (up : portUp s (fnPort f) = true) (missing : fnExists s f = false) (req : CfgReq) :
    exec (.configRequest f req) s = .next (emit (.configResp f .ur) s) :=
  congrArg Host.Outcome.next ((if_neg (by simp [up, hf])).trans (if_pos (by simp [missing])))

theorem exec_configRequest_notReady (hf : f < 4096) (up : portUp s (fnPort f) = true) (lives : fnExists s f = true)
    (early : (func s f).phase ≠ .ready) (watch : s.sss.state = .watch) (req : CfgReq) :
    exec (.configRequest f req) s = .next (emit (.configResp f .crs) s) :=
  congrArg Host.Outcome.next ((if_neg (by simp [up, hf])).trans ((if_neg (by simp [lives])).trans (if_pos ⟨early, watch⟩)))

theorem exec_configRequest_ready (hf : f < 4096) (up : portUp s (fnPort f) = true) (lives : fnExists s f = true)
    (ready : (func s f).phase = .ready) (req : CfgReq) :
    exec (.configRequest f req) s = .next (cfgTake f req (emit (.configResp f .ok) s)) :=
  congrArg Host.Outcome.next ((if_neg (by simp [up, hf])).trans ((if_neg (by simp [lives])).trans (if_neg (by simp [ready]))))

end

/-! Rings without Bus Master Enable (R378) -/

/-- Only rings differ, and of them only ring `n` of function `f`, which does not take up work. -/
structure RestsOnly (f n : Nat) (s t : State) : Prop where
  frame : t = { s with hiu := { s.hiu with rings := t.hiu.rings } }
  tidy : Tidy s → Tidy t
  others : Tidy s → ∀ g m, ringKey g m ≠ ringKey f n → ringOf t g m = ringOf s g m
  idle : Tidy s → (ringOf s f n).state ≠ .active → (ringOf t f n).state ≠ .active
  stopped : Tidy s → (ringOf s f n).state = .stopped → (ringOf t f n).state = .stopped

section
variable {f n : Nat}

theorem RestsOnly.refl (s : State) : RestsOnly f n s s := ⟨rfl, id, fun _ _ _ _ => rfl, fun _ => id, fun _ => id⟩

theorem RestsOnly.trans (h : RestsOnly f n s t) (k : RestsOnly f n t u) : RestsOnly f n s u where
  frame := by
    rw [k.frame, h.frame]
  tidy hs := k.tidy (h.tidy hs)
  others hs g m hm := (k.others (h.tidy hs) g m hm).trans (h.others hs g m hm)
  idle hs hi := k.idle (h.tidy hs) (h.idle hs hi)
  stopped hs hi := k.stopped (h.tidy hs) (h.stopped hs hi)

theorem restsOnly_setRing (v : Ring) (idle : (ringOf s f n).state ≠ .active → v.state ≠ .active)
    (stopped : (ringOf s f n).state = .stopped → v.state = .stopped) : RestsOnly f n s (setRing f n v s) where
  frame := rfl
  tidy := tidy_setRing v
  others hs g m hm := ringOf_setRing_ne _ _ _ hs hm
  idle hs hi := by
    rw [ringOf_setRing _ _ _ hs]
    exact idle hi
  stopped hs hi := by
    rw [ringOf_setRing _ _ _ hs]
    exact stopped hi

theorem restsOnly_settleRing (off : (func s f).bme = false) : RestsOnly f n s (settleRing f n s) := by
  unfold settleRing
  dsimp only
  split
  · rw [off]
    exact restsOnly_setRing _ (fun _ => nofun) fun _ => rfl
  · exact .refl s

/-- Without Bus Master Enable, a command of a ring that is not active ends within its ring. -/
theorem restsOnly_complete (cid op : Nat) (st : Status) (off : (func s f).bme = false) (rest : (ringOf s f n).state ≠ .active) :
    RestsOnly f n s (complete ⟨f, n, cid⟩ op st 0 s) := by
  unfold complete
  extract_lets q s1 c s2
  have taken : RestsOnly f n s s1 := restsOnly_setRing _ id id
  split
  · exact .refl s
  · have posted : RestsOnly f n s s2 := by
      simp only [s2]
      split
      case h_1 active => exact (rest active).elim
      case h_2 => exact taken.trans (restsOnly_setRing _ id id)
      case h_3 => exact taken
    refine posted.trans (restsOnly_settleRing ?_)
    rw [posted.frame]
    exact off

theorem restsOnly_completeAll (l : List RunCmd) (off : (func s f).bme = false) (rest : (ringOf s f n).state ≠ .active) (hs : Tidy s) :
    RestsOnly f n s (l.foldl (fun t c => complete ⟨f, n, c.cid⟩ c.op .stopped 0 t) s) := by
  induction l generalizing s with
  | nil => exact .refl s
  | cons c l ih =>
    have ends := restsOnly_complete c.cid c.op .stopped off rest
    exact ends.trans (ih (by rw [ends.frame]; exact off) (ends.idle hs rest) (ends.tidy hs))

/-- One ring frozen: it stops, and the commands that need the host end. -/
def freezeRing (f n : Nat) (s : State) : State :=
  ((ringOf (stopRing f n s) f n).running.filter (fun c => needsHost (stopRing f n s) ⟨f, n, c.cid⟩ c.op)).foldl
    (fun t c => complete ⟨f, n, c.cid⟩ c.op .stopped 0 t) (stopRing f n s)

theorem state_stopRing (hs : Tidy s) : (ringOf (stopRing f n s) f n).state ≠ .active ∧
    ((ringOf s f n).state = .active → (ringOf (stopRing f n s) f n).state = .stopped) := by
  rw [stopRing, ringOf_modRing _ hs]
  split
  case isTrue active => exact ⟨nofun, fun _ => rfl⟩
  case isFalse idle => exact ⟨idle, fun active => (idle active).elim⟩

theorem restsOnly_stopRing : RestsOnly f n s (stopRing f n s) := by
  unfold stopRing modRing
  dsimp only
  split
  · exact restsOnly_setRing _ (fun _ => nofun) fun _ => rfl
  · exact restsOnly_setRing _ id id

theorem restsOnly_freezeRing (off : (func s f).bme = false) (hs : Tidy s) : RestsOnly f n s (freezeRing f n s) ∧
    ((ringOf s f n).state = .active → (ringOf (freezeRing f n s) f n).state = .stopped) := by
  obtain ⟨rest, stops⟩ := state_stopRing (f := f) (n := n) hs
  have stop := restsOnly_stopRing (f := f) (n := n) (s := s)
  have ends := restsOnly_completeAll (s := stopRing f n s) ((ringOf (stopRing f n s) f n).running.filter
    (fun c => needsHost (stopRing f n s) ⟨f, n, c.cid⟩ c.op)) off rest (stop.tidy hs)
  exact ⟨stop.trans ends, fun active => ends.stopped (stop.tidy hs) (stops active)⟩

/-- The rings of `l`, all of function `f`, are frozen in order. -/
theorem freezeRings_list (l : List Nat) (off : (func s f).bme = false) (hs : Tidy s) (once : l.Nodup) :
    l.foldl (fun t n => freezeRing f n t) s = { s with hiu := { s.hiu with rings := (l.foldl (fun t n => freezeRing f n t) s).hiu.rings } } ∧
    (∀ n ∈ l, (ringOf s f n).state = .active → (ringOf (l.foldl (fun t n => freezeRing f n t) s) f n).state = .stopped) ∧
    (∀ g m, (∀ n ∈ l, ringKey g m ≠ ringKey f n) → ringOf (l.foldl (fun t n => freezeRing f n t) s) g m = ringOf s g m) := by
  induction l generalizing s with
  | nil => exact ⟨rfl, fun _ h => (List.not_mem_nil h).elim, fun _ _ _ => rfl⟩
  | cons n l ih =>
    obtain ⟨first, stops⟩ := restsOnly_freezeRing (n := n) off hs
    obtain ⟨apart, restOnce⟩ := List.nodup_cons.1 once
    obtain ⟨frame, stopped, others⟩ := ih (by rw [first.frame]; exact off) (first.tidy hs) restOnce
    rw [List.foldl_cons]
    refine ⟨?_, fun m hm active => ?_, fun g m hm => ?_⟩
    · rw [frame, first.frame]
    · by_cases same : m = n
      · subst same
        rw [others f m fun k hk => ringKey_ne fun e => apart (e ▸ hk)]
        exact stops active
      · refine stopped m ((List.mem_cons.1 hm).resolve_left same) ?_
        rw [first.others hs f m (ringKey_ne same)]
        exact active
    · rw [others g m fun k hk => hm k (List.mem_cons_of_mem _ hk), first.others hs g m (hm n List.mem_cons_self)]

theorem hiu_settleCvuScan : (settleCvuScan s).hiu = s.hiu := congrArg (·.hiu) settleCvuScan_frame

theorem mem_settleCvuScan : (settleCvuScan s).mem = s.mem := congrArg (·.mem) settleCvuScan_frame

/-- Every ring of a function frozen. -/
def freezeAll (f : Nat) (s : State) : State := (List.range 16).foldl (fun t n => freezeRing f n t) s

theorem freezeRings_eq : freezeRings f s = settleCvuScan (freezeAll f s) := rfl

/-- Without Bus Master Enable every ring of a function stops (R378). -/
theorem freezeRings_stops (off : (func s f).bme = false) (hs : Tidy s) :
    (∀ g, func (freezeRings f s) g = func s g) ∧ (freezeRings f s).mem = s.mem ∧
    (∀ n, n < 16 → (ringOf s f n).state = .active → (ringOf (freezeRings f s) f n).state = .stopped) ∧
    (∀ g n, g ≠ f → n < 16 → ringOf (freezeRings f s) g n = ringOf s g n) := by
  have all := freezeRings_list (List.range 16) off hs List.nodup_range
  rw [← freezeAll] at all
  obtain ⟨frame, stopped, others⟩ := all
  have hiu : (freezeRings f s).hiu = (freezeAll f s).hiu := hiu_settleCvuScan
  have rings (g n : Nat) : ringOf (freezeRings f s) g n = ringOf (freezeAll f s) g n :=
    ringOf_congr (congrArg (·.rings) hiu) g n
  refine ⟨fun g => ?_, mem_settleCvuScan.trans (congrArg (·.mem) frame), fun n hn active => ?_, fun g n hg hn => ?_⟩
  · have fns : (freezeRings f s).hiu.fns = s.hiu.fns := (congrArg (·.fns) hiu).trans (congrArg (·.hiu.fns) frame)
    rw [func, fns, func]
  · rw [rings]
    exact stopped n (List.mem_range.2 hn) active
  · rw [rings]
    refine others g n fun m hm => ?_
    have := List.mem_range.1 hm
    unfold ringKey
    omega

theorem exec_bmeClear_ready (hw : Awake s) (lives : fnExists s f = true) (up : portUp s (fnPort f) = true)
    (ready : (func s f).phase = .ready) : exec (.bmeClear f) s = .next (freezeRings f (modFunc f (fun u => { u with bme := false }) s)) :=
  (next_whenAwake hw _).trans (congrArg Host.Outcome.next (if_pos (by simp [lives, up, ready])))

end

/-! Host reads that end (R376, R377) -/

section
variable {port tag f n : Nat}

/-- The port whose tags these are now has these. -/
theorem tags_modHport (g : HPort → HPort) : (hport (modHport port g s) port).tags = (g (hport s port)).tags :=
  congrArg (·.tags) (hport_modHport g)

theorem hport_setRing (v : Ring) : hport (setRing f n v s) port = hport s port := rfl

theorem exec_dmaCompletion_fetch (hw : Awake s) (hp : port < 2) (waits : tfind (hport s port).tags tag = some (.fetch f n))
    (kind : CplKind) : exec (.dmaCompletion port tag kind) s = .next (
      if kind = .data ∨ (ringOf s f n).state ≠ .active then modRing f n (fun q => { q with fetchTag := none }) (dropTag port tag s)
      else ringError f n .dmaError (modRing f n (fun q => { q with fetchTag := none }) (dropTag port tag s))) := by
  refine (next_whenAwake hw _).trans (congrArg Host.Outcome.next ((if_neg (Nat.not_le.2 hp)).trans ?_))
  rw [waits]

theorem exec_dmaCompletion_quarantine (hw : Awake s) (hp : port < 2) (rests : tfind (hport s port).tags tag = some .quarantine)
    (kind : CplKind) : exec (.dmaCompletion port tag kind) s =
      .next (noteAer (pfOf port) aerUnexpected (count (Pg.hiu + port) 0xE30 s)) := by
  refine (next_whenAwake hw _).trans (congrArg Host.Outcome.next ((if_neg (Nat.not_le.2 hp)).trans ?_))
  rw [rests]

theorem exec_completionTimeout_fetch (hw : Awake s) (hp : port < 2) (waits : tfind (hport s port).tags tag = some (.fetch f n))
    (active : (ringOf s f n).state = .active) (late : tget 0 (hport s port).tagAt tag + tagBound s port ≤ s.now) :
    exec (.completionTimeout port tag) s = .next (ringError f n .dmaTimeout
      (noteAer f aerTimeout (count (Pg.hiu + port) 0xE28 (quarantineTag port tag s)))) := by
  refine (next_whenAwake hw _).trans (congrArg Host.Outcome.next ((if_neg (by omega)).trans ?_))
  rw [waits]
  exact if_pos active

theorem exec_tagQuarantineEnd_due (hw : Awake s) (hp : port < 2) (rests : tfind (hport s port).tags tag = some .quarantine)
    (due : tget 0 (hport s port).tagAt tag + 2000 * (func s (pfOf port)).ctoUs ≤ s.now) :
    exec (.tagQuarantineEnd port tag) s = .next (dropTag port tag s) :=
  (next_whenAwake hw _).trans (congrArg Host.Outcome.next (if_pos ⟨hp, rests, due⟩))

theorem tidy_dropTag (hs : Tidy s) : Tidy (dropTag port tag s) := (keeps_dropTag _ _ s (.refl s)).tidy hs

theorem tidy_quarantineTag (hs : Tidy s) : Tidy (quarantineTag port tag s) := (keeps_quarantineTag _ _ s (.refl s)).tidy hs

end

/-! IDE and the mailboxes (R374, R383, R413) -/

section
variable {port : Nat}

theorem exec_ideFailure_listed {stream : Nat} (hw : Awake s) (hp : port < 2) (listed : (hport s port).ide.contains stream = true) :
    exec (.ideFailure port stream) s = .next (raise (Pg.hiu + port) .dmaError .contained 0 noCtx 0 0 [pfOf port] false
      (count (Pg.hiu + port) 0xE50 (modHport port (fun h => { h with ide := h.ide.filter (fun x => decide (x ≠ stream)) }) s))) :=
  (next_whenAwake hw _).trans (congrArg Host.Outcome.next (if_pos (by simp only [hp, listed, decide_true, Bool.and_self])))

theorem exec_cxlMailboxCommand_served (hw : Awake s) (hp : port < 2) (up : portUp s port = true)
    (ready : (func s (pfOf port)).phase = .ready) (cmd : Mailbox) : exec (.cxlMailboxCommand port cmd) s =
      .next (emit (.mailbox port (mailbox port cmd s).1 (mailbox port cmd s).2.1) (mailbox port cmd s).2.2) := by
  obtain ⟨watch, powered⟩ := awake_iff.1 hw
  refine congrArg Host.Outcome.next ((if_neg ?_).trans (if_neg (by simp [watch])))
  simp [hp, up, ready, powered]

theorem portUp_congr (h : (hport t port).link = (hport s port).link) : portUp t port = portUp s port := by
  unfold portUp
  rw [h]

theorem fnPort_pfOf (port : Nat) : fnPort (pfOf port) = port := Nat.mul_div_cancel_left port (by decide)

theorem isPf_pfOf (port : Nat) : isPf (pfOf port) = true := decide_eq_true (Nat.mul_mod_right 2048 port)

theorem fnLive_pfOf (hp : port < 2) (up : portUp s port = true) (ready : (func s (pfOf port)).phase = .ready) :
    fnLive s (pfOf port) = true := by
  have small : pfOf port < 4096 := by
    unfold pfOf
    omega
  simp [fnLive, fnExists, small, isPf_pfOf, fnPort_pfOf, up, ready]

/-- A stream that a port lists once. -/
def withStream (stream : Nat) (h : HPort) : HPort := { h with ide := if h.ide.contains stream then h.ide else h.ide ++ [stream] }

theorem mem_withStream (stream : Nat) (h : HPort) : stream ∈ (withStream stream h).ide := by
  unfold withStream
  dsimp only
  split
  case isTrue listed => exact List.contains_iff_mem.1 listed
  case isFalse => exact List.mem_append_right _ List.mem_cons_self

theorem exec_spdmDoe_keyProg {stream : Nat} (hw : Awake s) (hp : port < 2) (up : portUp s port = true)
    (ready : (func s (pfOf port)).phase = .ready) (low : stream < 6) (lives : s.otp.life ≠ .scrapped) :
    exec (.spdmDoe (pfOf port) (.ideKeyProg stream)) s = .next (emit (.doe (pfOf port) true [])
      (modHport port (withStream stream) s)) := by
  obtain ⟨watch, powered⟩ := awake_iff.1 hw
  have sound : ¬ (s.otp.life = .scrapped ∨ (!isPf (pfOf port)) = true ∨ ideStreams ≤ stream) := by
    simp [lives, isPf_pfOf, ideStreams, low]
  refine congrArg Host.Outcome.next ((if_neg (by simp [watch])).trans ((whenAwake_of_awake hw _).trans ?_))
  rw [if_neg (by simp [fnLive_pfOf hp up ready, ready]), fnPort_pfOf]
  exact if_neg sound

end

end
end Sys2Proof.Machine

open Sys2Proof Sys2Proof.Machine

/-- Settles O55: each request by its equation where it is taken; the freezing of the rings is the one that runs over many steps. -/
theorem hostRequests : Obligations.HostRequests := by
  unfold Obligations.HostRequests
  refine ⟨fun r ctx addr result s v begun aligned => ⟨exec_query_device begun aligned, fun enabled own =>
      ⟨exec_query_ctx begun aligned enabled own, fun inside passes => ⟨exec_query_address (.inl rfl) begun aligned enabled own inside passes,
        exec_query_address (.inr rfl) begun aligned enabled own inside passes⟩⟩⟩,
    fun s f hs hf up => ⟨fun missing req => exec_configRequest_missing hf up missing req,
      fun lives early watch req => exec_configRequest_notReady hf up lives early watch req, fun lives ready => ⟨?_, ?_, fun hw => ?_⟩⟩,
    fun s port t hs hw hp => ⟨fun f n waits active => ⟨?_, ?_, fun late => ?_⟩, fun rests => ⟨fun due => ?_, ?_⟩,
      fun stream listed => ?_, fun up ready => ⟨fun stamp => ?_, fun stream low lives => ?_⟩⟩⟩
  · rw [exec_configRequest_ready hf up lives ready]
    simp only [cfgTake, cfgRead, isPf, emit, List.append_assoc, decide_eq_true_eq]
    rfl
  · exact ⟨_, exec_configRequest_ready hf up lives ready .setBme, func_setFunc (s := s) _ _ hs,
      fun g hg => func_setFunc_ne (s := s) _ _ hs hg, rfl⟩
  · have cleared : func (modFunc f (fun u => { u with bme := false }) s) f = { func s f with bme := false } := func_setFunc _ _ hs
    obtain ⟨funcs, mem, stopped, others⟩ := freezeRings_stops (f := f) (s := modFunc f (fun u => { u with bme := false }) s)
      (by rw [cleared]) ((keeps_modFunc _ _ s (.refl s)).tidy hs)
    exact ⟨_, exec_bmeClear_ready hw lives up ready, (funcs f).trans cleared, stopped, others, mem⟩
  · have ended := ringOf_modRing (f := f) (n := n) (fun q => { q with fetchTag := none }) (tidy_dropTag (port := port) (tag := t) hs)
    rw [ringOf_congr (t := dropTag port t s) (rings_modHport _ _)] at ended
    exact ⟨_, (exec_dmaCompletion_fetch hw hp waits .data).trans (congrArg Host.Outcome.next (if_pos (.inl rfl))), ended, tags_modHport _⟩
  · have ended := ringOf_ringError (f := f) (n := n) .dmaError
      (tidy_setRing (f := f) (n := n) { ringOf (dropTag port t s) f n with fetchTag := none } (tidy_dropTag (port := port) (tag := t) hs))
    exact ⟨_, (exec_dmaCompletion_fetch hw hp waits .ur).trans (congrArg Host.Outcome.next (if_neg (by simp [active]))),
      congrArg (·.state) ended, congrArg (·.err) ended, tags_modHport _⟩
  · have rests := tidy_quarantineTag (port := port) (tag := t) hs
    have counted : Tidy (noteAer f aerTimeout (count (Pg.hiu + port) 0xE28 (quarantineTag port t s))) :=
      (keeps_noteAer _ _ _ (keeps_count _ _ _ (.refl _))).tidy rests
    have failed := ringOf_ringError (f := f) (n := n) .dmaTimeout counted
    have cnts : (quarantineTag port t s).cnts = s.cnts := congrArg (·.cnts) (fetchOnly_modHport port _)
    refine ⟨_, exec_completionTimeout_fetch hw hp waits active late, congrArg (·.state) failed, congrArg (·.err) failed,
      (congrArg (tfind · t) (tags_modHport _)).trans (tfind_tins_same _ _ _),
      (counter_countBy_of_rising (twf_trising rests.cnts)).trans ?_⟩
    rw [counter_congr cnts]
  · refine ⟨_, exec_tagQuarantineEnd_due hw hp rests due, tags_modHport _, ?_⟩
    rw [dropTag, modHport, setHport_frame]
  · exact ⟨_, exec_dmaCompletion_quarantine hw hp rests .data, rfl, counter_countBy_of_rising (twf_trising hs.cnts)⟩
  · have cnts : (modHport port (fun h => { h with ide := h.ide.filter (fun x => decide (x ≠ stream)) }) s).cnts = s.cnts :=
      congrArg (·.cnts) (fetchOnly_modHport port _)
    have rising : trising 0 (modHport port (fun h => { h with ide := h.ide.filter (fun x => decide (x ≠ stream)) }) s).cnts = true :=
      cnts ▸ twf_trising hs.cnts
    refine ⟨_, _, exec_ideFailure_listed hw hp listed, fun still => ?_,
      congrArg (· ++ [_]) (congrArg (·.router) (fetchOnly_modHport port _)), rfl, rfl, ?_⟩
    · have kept : (hport (modHport port (fun h => { h with ide := h.ide.filter (fun x => decide (x ≠ stream)) }) s) port).ide =
          (hport s port).ide.filter (fun x => decide (x ≠ stream)) := congrArg (·.ide) (hport_modHport _)
      have mem : stream ∈ (hport s port).ide.filter (fun x => decide (x ≠ stream)) := kept ▸ still
      simp at mem
    · refine (counter_countBy_of_rising rising).trans ?_
      rw [counter_congr cnts]
  · have read := hport_setHport (s := s) (port := port) { hport s port with timestamp := stamp }
    have upAfter := (portUp_congr (s := s) (congrArg (·.link) read)).trans up
    have frame := setHport_frame (s := s) (port := port) { hport s port with timestamp := stamp }
    have readyAfter : (func (setHport port { hport s port with timestamp := stamp } s) (pfOf port)).phase = .ready :=
      (congrArg (fun x : State => (func x (pfOf port)).phase) frame).trans ready
    have awakeAfter : Awake (setHport port { hport s port with timestamp := stamp } s) := by
      rw [frame]
      exact hw
    refine ⟨_, _, exec_cxlMailboxCommand_served hw hp up ready (.setTimestamp stamp), ?_,
      exec_cxlMailboxCommand_served (s := emit _ (setHport port { hport s port with timestamp := stamp } s)) awakeAfter hp upAfter readyAfter
        .getTimestamp, ?_⟩
    · exact congrArg (· ++ [_]) (congrArg (·.sent) frame)
    · exact congrArg (fun h : HPort => _ ++ [Output.mailbox port 0 [h.timestamp]]) read
  · refine ⟨_, exec_spdmDoe_keyProg hw hp up ready low lives, ?_, ?_⟩
    · exact (congrArg (·.ide) (hport_modHport (s := s) (port := port) (withStream stream))).symm ▸ mem_withStream stream _
    · exact congrArg (· ++ [_]) (congrArg (·.sent) (fetchOnly_modHport port _))
end

section
/-! PROOFS. Traffic of the fabric ports: what a packet that comes or goes leaves, and when it goes at once. O49 to O52 use these. -/

set_option Elab.async false

namespace Sys2Proof.Machine

section
variable {s t u : State}

/-! Counters that traffic leaves alone (R328, R339) -/

/-- Offsets of the counters that packets advance: bytes sent, bytes received, packets without a route. -/
def trafficCounters : List Nat := [0xE08, 0xE10, 0xE28]

/-- Packets came and went, and nothing else took place. -/
structure Traffic (s t : State) : Prop where
  frame : PortsOnly s t
  tidy : Tidy s → Tidy t
  counters : Tidy s → ∀ q off, off < 4096 → off ∉ trafficCounters → counter t q off = counter s q off

theorem Traffic.refl (s : State) : Traffic s s := ⟨rfl, id, fun _ _ _ _ _ => rfl⟩

theorem Traffic.trans (h : Traffic s t) (k : Traffic t u) : Traffic s u where
  frame := h.frame.trans k.frame
  tidy hs := k.tidy (h.tidy hs)
  counters hs q off low other := (k.counters (h.tidy hs) q off low other).trans (h.counters hs q off low other)

theorem traffic_setFport (p : Nat) (v : FPort) : Traffic s (setFport p v s) :=
  ⟨rfl, (keeps_setFport p v s (.refl s)).tidy, fun _ _ _ _ _ => rfl⟩

theorem regKey_apart {p q a b : Nat} (ha : a < 4096) (hb : b < 4096) (h : a ≠ b) : regKey p a ≠ regKey q b := by
  unfold regKey
  omega

theorem traffic_countBy (p : Nat) {off : Nat} (n : Nat) (traffic : off ∈ trafficCounters) : Traffic s (countBy p off n s) where
  frame := rfl
  tidy := (keeps_countBy p off n s (.refl s)).tidy
  counters hs q o low other := by
    have small : ∀ x ∈ trafficCounters, x < 4096 := by decide
    exact counter_countBy_ne _ _ _ hs (regKey_apart low (small _ traffic) fun e => other (e ▸ traffic))

theorem traffic_emit (o : Output) : Traffic s (emit o s) := ⟨rfl, (keeps_emit o s (.refl s)).tidy, fun _ _ _ _ _ => rfl⟩

theorem traffic_transmit (port : Nat) (p : Pkt) (data : List Byte) : Traffic s (transmit port p data s) :=
  .trans (traffic_setFport _ _) (.trans (traffic_countBy _ _ (by decide)) (traffic_emit _))

theorem traffic_sendPkt (port : Nat) (p : Pkt) (data : List Byte) : Traffic s (sendPkt port p data s) := by
  unfold sendPkt
  dsimp only
  split
  · exact traffic_transmit _ _ _
  · exact traffic_setFport _ _

theorem traffic_sendLink (port : Nat) (m : LinkMsg) : Traffic s (sendLink port m s) :=
  .trans (traffic_setFport _ _) (.trans (traffic_countBy _ _ (by decide)) (traffic_emit _))

theorem traffic_rxPacket (port type vl len : Nat) : Traffic s (rxPacket port type vl len s) := by
  unfold rxPacket
  extract_lets v s1
  have counted : Traffic s s1 := .trans (traffic_setFport _ _) (traffic_countBy _ _ (by decide))
  split
  · exact counted.trans (traffic_sendLink _ _)
  · exact counted

theorem traffic_sendTo (p : Pkt) (data : List Byte) : Traffic s (sendTo p data s) := by
  unfold sendTo
  split
  · exact traffic_sendPkt _ _ _
  · exact traffic_countBy _ _ (by decide)

theorem traffic_answer (fport : Nat) (p : Pkt) (data : List Byte) : Traffic s (answer fport p data s) := by
  unfold answer
  split
  · exact traffic_sendPkt _ _ _
  · exact traffic_sendTo _ _

theorem traffic_sendError (fport src tag : Nat) (st : Status) : Traffic s (sendError fport src tag st s) := by
  unfold sendError
  dsimp only
  split
  · exact .trans (traffic_setFport fport _) (traffic_answer _ _ _)
  · exact .refl s

/-- A counter that a command raises by one before its packets go. -/
theorem Traffic.counter_count {p off : Nat} (h : Traffic (count p off s) t) (hs : Tidy s) (low : off < 4096)
    (other : off ∉ trafficCounters) : counter t p off = (counter s p off + 1) % 2 ^ 64 :=
  (h.counters ((keeps_countBy p off 1 s (.refl s)).tidy hs) p off low other).trans (counter_countBy p off 1 hs)

/-- A counter that a command raises by one after its packets came. -/
theorem Traffic.count_counter {p off : Nat} (h : Traffic s t) (hs : Tidy s) (low : off < 4096) (other : off ∉ trafficCounters) :
    counter (count p off t) p off = (counter s p off + 1) % 2 ^ 64 := by
  rw [← h.counters hs p off low other]
  exact counter_countBy p off 1 (h.tidy hs)

/-! The port of a packet that comes (R328, R330) -/

/-- Of a port only the counts of its line differ. -/
def LineCounts (v w : FPort) : Prop := w = { v with rxPackets := w.rxPackets, txPackets := w.txPackets, txSeq := w.txSeq }

theorem LineCounts.trans {v w x : FPort} (h : LineCounts v w) (k : LineCounts w x) : LineCounts v x := by
  unfold LineCounts at h k ⊢
  rw [h] at k
  exact k

section
variable {port : Nat}

theorem lineCounts_setFport {v : FPort} (h : LineCounts (fportAt s port) v) (hs : Tidy s) (q : Nat) :
    LineCounts (fportAt s q) (fportAt (setFport port v s) q) := by
  by_cases same : q = port
  · subst same
    rw [fportAt_setFport _ _ hs]
    exact h
  · rw [fportAt_setFport_ne _ _ hs same]
    rfl

theorem lineCounts_sendLink (m : LinkMsg) (hs : Tidy s) (q : Nat) : LineCounts (fportAt s q) (fportAt (sendLink port m s) q) := by
  have counted : LineCounts (fportAt s port) { fportAt s port with
      txPackets := (fportAt s port).txPackets + (if (fportAt s port).spdmDone then 1 else 0)
      txSeq := ((fportAt s port).txSeq + 1) % 4096 } := rfl
  exact lineCounts_setFport counted hs q

theorem lineCounts_rxPacket (type vl len : Nat) (hs : Tidy s) (q : Nat) :
    LineCounts (fportAt s q) (fportAt (rxPacket port type vl len s) q) := by
  unfold rxPacket
  extract_lets v s1
  have counted : Traffic s s1 := .trans (traffic_setFport _ _) (traffic_countBy _ _ (by decide))
  have more : LineCounts (fportAt s port) { v with rxPackets := v.rxPackets + (if v.spdmDone then 1 else 0) } := rfl
  have came : LineCounts (fportAt s q) (fportAt s1 q) := lineCounts_setFport more hs q
  split
  · exact came.trans (lineCounts_sendLink _ (counted.tidy hs) q)
  · exact came

theorem fportAt_rxPacket_ne (type vl len : Nat) (hs : Tidy s) {q : Nat} (h : q ≠ port) :
    fportAt (rxPacket port type vl len s) q = fportAt s q := by
  unfold rxPacket
  extract_lets v s1
  have counted : Traffic s s1 := .trans (traffic_setFport _ _) (traffic_countBy _ _ (by decide))
  have came : fportAt s1 q = fportAt s q := fportAt_setFport_ne _ _ hs h
  split
  · exact (fportAt_setFport_ne _ _ (counted.tidy hs) h).trans came
  · exact came

/-- On a port that is UP the credit of a packet of the classes REQ, RSP and CTRL goes back at once (R330). -/
theorem sent_rxPacket_up (up : (fportAt s port).state = .up) (type vl len : Nat) (low : pktClass type < 3) :
    (rxPacket port type vl len s).sent = s.sent ++ [.linkCtl port (.credit (pktClass type) vl (creditUnits len))] := by
  have other : type ≠ 0x20 := by
    rintro rfl
    exact absurd low (by decide)
  have needs : needsCredit (fportAt s port) type = true := by
    simp [needsCredit, up, Nat.le_of_lt_succ low]
  have back : (needsCredit (fportAt s port) type && decide (type ≠ 0x20)) = true := by simp [needs, other]
  exact congrArg State.sent (if_pos back)

/-- On a port that is not UP no credit is counted. -/
theorem rxPacket_of_down (down : (fportAt s port).state ≠ .up) (type vl len : Nat) : rxPacket port type vl len s =
    countBy (Pg.fpt + port) 0xE10 (linkBytes (fportAt s port).spdmDone len)
      (setFport port { fportAt s port with rxPackets := (fportAt s port).rxPackets + (if (fportAt s port).spdmDone then 1 else 0) } s) := by
  unfold rxPacket
  exact if_neg (by simp [needsCredit, down])

/-- A packet with credit goes at once where nothing waits (R330). -/
theorem sendPkt_of_sendsAtOnce (h : SendsAtOnce (fportAt s port)) {p : Pkt} {data : List Byte} (low : pktClass p.type < 3)
    (fits : data.length ≤ 4096) : sendPkt port p data s = transmit port p data s := by
  obtain ⟨empty, credit⟩ := h
  have enough := credit (2 * pktClass p.type + p.flags % 2) (by omega)
  have units : creditUnits data.length ≤ 65 := by
    simp only [creditUnits, ceilDiv, OfNat.ofNat_ne_zero, if_false]
    omega
  have ok : covered (fportAt s port) p data.length = true := by
    simp [covered, Nat.le_trans units enough]
  exact if_pos (by simp [ok, queuedFor, empty])

theorem sendsAtOnce_of_line {v w : FPort} (h : SendsAtOnce v) (line : LineCounts v w) : SendsAtOnce w := by
  unfold LineCounts at line
  rw [line]
  exact h

/-- What a packet that came leaves: the counts of its line alone. -/
structure Came (s v : State) : Prop where
  traffic : Traffic s v
  line : ∀ q, LineCounts (fportAt s q) (fportAt v q)

theorem came_rxPacket (type vl len : Nat) (hs : Tidy s) : Came s (rxPacket port type vl len s) :=
  ⟨traffic_rxPacket port type vl len, lineCounts_rxPacket type vl len hs⟩

theorem Came.state (h : Came s t) (q : Nat) : (fportAt t q).state = (fportAt s q).state := congrArg (·.state) (h.line q)

theorem Came.partner (h : Came s t) (q : Nat) : (fportAt t q).partner = (fportAt s q).partner := congrArg (·.partner) (h.line q)

theorem Came.once (h : Came s t) {q : Nat} (once : SendsAtOnce (fportAt s q)) : SendsAtOnce (fportAt t q) :=
  sendsAtOnce_of_line once (h.line q)

/-- The direct partner of a port that is UP is answered on it (R346). -/
theorem answer_of_partner (hp : port < 8) (up : (fportAt s port).state = .up) {p : Pkt} (direct : (fportAt s port).partner.dev = p.dst)
    (data : List Byte) : answer port p data s = sendPkt port p data s :=
  if_pos (by simp [fportUp, hp, up, direct])

end

end
end Sys2Proof.Machine
end

section
/-! PROOFS. Packets of the fabric (O52): relays, reads and writes under a grant, table slots, probes. -/

set_option Elab.async false

namespace Sys2Proof.Machine

section
variable {s t u : State} {p : Nat} {k : Pkt}

/-! What traffic leaves of what a request is tested against -/

theorem ownId_portsOnly (h : PortsOnly s t) : ownId t = ownId s := by
  rw [h]
  rfl

theorem matchGrant_portsOnly (h : PortsOnly s t) (q : Pkt) (write : Bool) : matchGrant q write t = matchGrant q write s := by
  rw [h]
  rfl

theorem accessCheck_portsOnly (h : PortsOnly s t) (a : Ask) (slab : Nat) : accessCheck t a slab = accessCheck s a slab := by
  rw [h]
  rfl

theorem ctxFn_portsOnly (h : PortsOnly s t) (ctx : Nat) : ctxFn t ctx = ctxFn s ctx := by
  rw [h]
  rfl

theorem mapAt_portsOnly (h : PortsOnly s t) (slab : Nat) : mapAt t slab = mapAt s slab := mapAt_congr (congrArg (·.ple) h) slab

/-- The route of a packet is by ports that are UP. -/
theorem routePort_congr (states : ∀ q, (fportAt t q).state = (fportAt s q).state) (ftb : t.ftb = s.ftb) (regs : t.regs = s.regs)
    (dev : Nat) : routePort t dev = routePort s dev := by
  unfold routePort routeOf routeAt ownId fportUp fld reg
  simp only [states, ftb, regs]

/-- A packet that arrives is taken in the state that its arrival leaves. -/
theorem onPacket_of_arrives (hw : Awake s) (ha : Arrives s p k.src) (len : Nat) (body : State → State) :
    onPacket p k len body s = .next (body (rxPacket p k.type (k.flags % 2) len s)) :=
  (next_whenAwake hw _).trans (congrArg Host.Outcome.next (arrive_of_arrives p ha _ _ _ body))

/-! Relays (R340) -/

/-- The packet as it leaves by a port: with a hop less, in the VL of the port. -/
def hopped (s : State) (out : Nat) (k : Pkt) : Pkt :=
  { k with hops := k.hops - 1, flags := k.flags / 2 * 2 + (if flag s (fptPage out) 0x40 2 then 1 else k.flags % 2) }

theorem relay_of_hops {out : Nat} {data : List Byte} (other : k.dst ≠ ownId s) (low : pktClass k.type < 3)
    (route : routePort s k.dst = some out) (hops : 1 < k.hops) :
    relay p k data s = count (fptPage out) 0xE18 (sendPkt out (hopped s out k) data s) := by
  unfold relay
  rw [if_neg other, if_neg (by omega), if_neg (by omega), route]
  rfl

theorem relay_of_spent {data : List Byte} (other : k.dst ≠ ownId s) (low : pktClass k.type < 3) (spent : k.hops ≤ 1) :
    relay p k data s = count (fptPage p) 0xE58 s := by
  unfold relay
  rw [if_neg other, if_neg (by omega), if_pos spent]

/-! READ and WRITE (R346) -/

theorem fabricRead_of_error {st : Status} (part : partOk k.addr (k.spec % 8192) = true) (refused : matchGrant k false s = .error st) :
    fabricRead p k s = refuseFabric p k st s := by
  unfold fabricRead
  rw [part, refused]
  rfl

theorem fabricRead_of_grant {g : Grant} {slab : Nat} (hs : Sound s) (part : partOk k.addr (k.spec % 8192) = true)
    (granted : matchGrant k false s = .ok (g, slab))
    (passes : accessCheck s ⟨3, ctxFn s k.dstCtx, k.dstCtx, none, false, false⟩ slab = none) :
    fabricRead p k s = serveFabric p k slab (touch slab s) := by
  unfold fabricRead
  rw [part, granted]
  dsimp only
  rw [checkAccess_of_pass hs passes]
  rfl

/-- A slab that reads as zeros answers zeros (R31). -/
theorem serveFabric_of_zeros {slab : Nat} (hs : Sound s) (zeros : readsZero (mapAt s slab) = true) (part : partOk k.addr (k.spec % 8192) = true) :
    serveFabric p k slab s = answer p { respPkt s 0x03 k.src k.tag (k.spec % 8192) 0 with dstCtx := k.srcCtx, srcCtx := k.dstCtx }
      (List.replicate (k.spec % 8192) 0) s := by
  have served (d : Det) : serviceRead d slab (k.addr % 2 ^ 24 / 4096) s = (.clean (List.replicate 4096 0) false, s) := by
    unfold serviceRead
    dsimp only
    rw [meetTray_of_sound hs, if_pos zeros]
  have slice : ((List.replicate 4096 (0 : Byte)).drop (k.addr % 2 ^ 24 % 4096)).take (k.spec % 8192) = List.replicate (k.spec % 8192) 0 := by
    simp only [partOk, Bool.and_eq_true, decide_eq_true_eq] at part
    rw [List.drop_replicate, List.take_replicate]
    congr 1
    omega
  unfold serveFabric
  extract_lets off b len fn mode
  have plain : mode = .no := by
    simp only [mode]
    split
    · exact if_pos zeros
    · rfl
  rw [if_pos plain, served, plain]
  dsimp only
  rw [slice, answerRead, meetBuffer_of_sound hs]
  dsimp only
  rw [List.length_replicate]

theorem fabricWrite_of_grant {g : Grant} {slab : Nat} {data : List Byte} (hs : Sound s) (part : partOk k.addr data.length = true)
    (granted : matchGrant k true s = .ok (g, slab))
    (passes : accessCheck s ⟨3, ctxFn s k.dstCtx, k.dstCtx, none, true, false⟩ slab = none) :
    fabricWrite p k data s = offerWrite { src := .fabric p k.src k.srcCtx k.tag, ctx := k.dstCtx
                                          block := blockIdx slab (k.addr % 2 ^ 24 / 4096), off := k.addr % 4096
                                          data := data, since := s.now } (touch slab s) := by
  unfold fabricWrite
  rw [part, granted]
  dsimp only
  rw [checkAccess_of_pass hs passes]
  rfl

theorem mge_held_storeBlock {slab b hb format flags : Nat} {t : Tier} {data : List Byte} (h : PlainHome s slab b t hb) :
    (storeBlock slab b format none flags data s).mge.held = s.mge.held := by
  rw [storeBlock_plain h, countWrite_frame]
  unfold settleStored
  rw [freshCrumbs_frame]
  rfl

theorem held_touch (slab : Nat) : (touch slab s).mge.held = s.mge.held := by
  unfold touch sampleTick
  dsimp only
  (repeat' split) <;> rfl

theorem takesWrites_portsOnly (h : PortsOnly s t) {slab : Nat} {tier : Tier} (takes : TakesWrites s slab tier) : TakesWrites t slab tier := by
  rw [h]
  exact takes

theorem readable_portsOnly (h : PortsOnly s t) {slab b hb : Nat} {tier : Tier} {data : List Byte} (readable : Readable s slab b tier hb data) :
    Readable t slab b tier hb data := by
  obtain ⟨resident, untrayed, holds⟩ := readable
  have ple : t.ple = s.ple := congrArg (·.ple) h
  have view : SameView slab s t := ⟨congrArg (·.dev) h, congrArg (·.hiu) h, congrArg (·.sss) h, congrArg (·.boot) h, congrArg (·.sram) h,
    congrArg (·.sec) h, by rw [ple], _, mapAt_congr ple slab⟩
  exact ⟨by rw [mapAt_portsOnly h, resident], (congrArg (fun x : State => tfind x.cdc.tray (blockIdx slab b)) h).trans untrayed,
    holds.congr view h.mem h.descs (congrArg (·.plants) h) (congrArg (·.fmg) h)⟩

/-- A write that passes is stored in its home alone, and its answer follows (R70). -/
theorem offerWrite_touched {x : HeldStore} {slab b hb : Nat} {tier : Tier} {old : List Byte} (hs : Tidy s) (low : b < 4096)
    (block : x.block = blockIdx slab b) (fits : x.off + x.data.length ≤ 4096) (takes : TakesWrites s slab tier)
    (readable : Readable s slab b tier hb old) : ∃ w, offerWrite x (touch slab s) = ackWrite x.src w ∧ w.fports = s.fports ∧
      MemOutside hb s w ∧ w.mge.held = s.mge.held := by
  have touched := readable_touch hs readable
  have home := touched.holds.home
  have length := homeHolds_length touched.holds
  have full : (overlay old x.data x.off).length = 4096 := by rw [overlay_length (by omega), length]
  refine ⟨_, offerWrite_of_homeHolds low block (takesWrites_touch hs takes) touched.holds, ?_, fun a ha => ?_, ?_⟩
  · rw [storeBlock_frame home, touch_frame]
  · rw [memOutside_storeBlock home (tidy_touch slab hs) (Nat.le_of_eq full) a ha, touch_mem]
  · rw [mge_held_storeBlock home, held_touch]

/-! Answers on the port of arrival -/

/-- A packet of this device to the direct partner of a port on which nothing waits goes at once. -/
theorem answer_at_once (hp : p < 8) (up : (fportAt s p).state = .up) {q : Pkt} (direct : (fportAt s p).partner.dev = q.dst)
    (once : SendsAtOnce (fportAt s p)) {data : List Byte} (low : pktClass q.type < 3) (fits : data.length ≤ 4096) :
    (answer p q data s).sent = s.sent ++ [.packet p q data] := by
  rw [answer_of_partner hp up direct, sendPkt_of_sendsAtOnce once low fits]
  rfl

/-! The packets as they arrive -/

section
variable (hw : Awake s) (arrives : Arrives s p k.src)
include hw arrives

/-- A request of a sound length for this device is served in the state that its arrival leaves. -/
theorem exec_read_part (own : k.dst = ownId s) (part : partOk k.addr (k.spec % 8192) = true) :
    exec (.read p k) s = .next (fabricRead p k (rxPacket p k.type (k.flags % 2) 0 s)) := by
  refine (onPacket_of_arrives hw arrives 0 _).trans (congrArg Host.Outcome.next ((if_neg (not_not.2 ?_)).trans (if_pos part)))
  rw [ownId_portsOnly (portsOnly_rxPacket p _ _ _)]
  exact own

theorem exec_write_part {data : List Byte} (own : k.dst = ownId s) (part : partOk k.addr data.length = true) :
    exec (.write p k data) s = .next (fabricWrite p k data (rxPacket p k.type (k.flags % 2) data.length s)) := by
  refine (onPacket_of_arrives hw arrives data.length _).trans (congrArg Host.Outcome.next ((if_neg (not_not.2 ?_)).trans (if_pos part)))
  rw [ownId_portsOnly (portsOnly_rxPacket p _ _ _)]
  exact own

variable (hs : Tidy s)
include hs

theorem exec_packetRelay_hops {out : Nat} {data : List Byte} (other : k.dst ≠ ownId s) (low : pktClass k.type < 3)
    (route : routePort s k.dst = some out) (once : SendsAtOnce (fportAt s out)) (fits : data.length ≤ 4096) (hops : 1 < k.hops) :
    ∃ u q, exec (.packetRelay p k data) s = .next u ∧ q.hops = k.hops - 1 ∧ q.dst = k.dst ∧ q.src = k.src ∧
      q.type = k.type ∧ q.tag = k.tag ∧ q.addr = k.addr ∧
      u.sent = s.sent ++ [.linkCtl p (.credit (pktClass k.type) (k.flags % 2) (creditUnits data.length)), .packet out q data] ∧
      counter u (fptPage out) 0xE18 = (counter s (fptPage out) 0xE18 + 1) % 2 ^ 64 ∧ u.mem = s.mem := by
  obtain ⟨-, up, -⟩ := id arrives
  have credit := sent_rxPacket_up up k.type (k.flags % 2) data.length low
  have came := came_rxPacket (port := p) k.type (k.flags % 2) data.length hs
  have run := onPacket_of_arrives hw arrives data.length (relay p k data)
  generalize rxPacket p k.type (k.flags % 2) data.length s = v at *
  have way := routePort_congr came.state (congrArg (·.ftb) came.traffic.frame) (congrArg (·.regs) came.traffic.frame) k.dst
  have goes := sendPkt_of_sendsAtOnce (came.once once) (p := hopped v out k) (data := data) low fits
  have traffic := came.traffic.trans (traffic_sendPkt out (hopped v out k) data)
  rw [relay_of_hops (by rw [ownId_portsOnly came.traffic.frame]; exact other) low (way.trans route) hops] at run
  refine ⟨_, hopped v out k, run, rfl, rfl, rfl, rfl, rfl, rfl, ?_, traffic.count_counter hs (by decide) (by decide), traffic.frame.mem⟩
  rw [goes]
  change v.sent ++ [_] = _
  rw [credit, List.append_assoc]
  rfl

theorem exec_packetRelay_spent {data : List Byte} (other : k.dst ≠ ownId s) (low : pktClass k.type < 3) (spent : k.hops ≤ 1) :
    ∃ u, exec (.packetRelay p k data) s = .next u ∧
      u.sent = s.sent ++ [.linkCtl p (.credit (pktClass k.type) (k.flags % 2) (creditUnits data.length))] ∧
      counter u (fptPage p) 0xE58 = (counter s (fptPage p) 0xE58 + 1) % 2 ^ 64 ∧ u.mem = s.mem := by
  obtain ⟨-, up, -⟩ := id arrives
  have kept := traffic_rxPacket (s := s) p k.type (k.flags % 2) data.length
  have run := onPacket_of_arrives hw arrives data.length (relay p k data)
  rw [relay_of_spent (by rw [ownId_portsOnly kept.frame]; exact other) low spent] at run
  exact ⟨_, run, sent_rxPacket_up up k.type (k.flags % 2) data.length low, kept.count_counter hs (by decide) (by decide), kept.frame.mem⟩

theorem exec_read_zeros {g : Grant} {slab : Nat} (type : k.type = 0x01) (dst : k.dst = ownId s)
    (part : partOk k.addr (k.spec % 8192) = true) (granted : matchGrant k false s = .ok (g, slab))
    (passes : accessCheck s ⟨3, ctxFn s k.dstCtx, k.dstCtx, none, false, false⟩ slab = none)
    (zeros : readsZero (mapAt s slab) = true) (direct : (fportAt s p).partner.dev = k.src) (once : SendsAtOnce (fportAt s p)) :
    ∃ u q, exec (.read p k) s = .next u ∧ q.type = 0x03 ∧ q.dst = k.src ∧ q.tag = k.tag ∧ u.mem = s.mem ∧
      u.sent = s.sent ++ [.linkCtl p (.credit 0 (k.flags % 2) 1), .packet p q (List.replicate (k.spec % 8192) 0)] := by
  obtain ⟨hp, up, -⟩ := id arrives
  have credit := sent_rxPacket_up up k.type (k.flags % 2) 0 (by rw [type]; decide)
  have came := came_rxPacket (port := p) k.type (k.flags % 2) 0 hs
  have run := exec_read_part hw arrives dst part
  generalize rxPacket p k.type (k.flags % 2) 0 s = v at *
  have frame := came.traffic.frame
  have tidy := came.traffic.tidy hs
  have ports : fportAt (touch slab v) p = fportAt v p := by
    rw [touch_frame]
    rfl
  obtain ⟨heat, entry⟩ := mapAt_touch slab tidy
  have small : k.spec % 8192 ≤ 4096 := by
    simp only [partOk, Bool.and_eq_true, decide_eq_true_eq] at part
    omega
  rw [fabricRead_of_grant tidy.sound part ((matchGrant_portsOnly frame k false).trans granted)
      (by rw [ctxFn_portsOnly frame, accessCheck_portsOnly frame]; exact passes),
    serveFabric_of_zeros (tidy_touch slab tidy).sound (by rw [entry, mapAt_portsOnly frame]; exact zeros) part] at run
  have told := answer_at_once (s := touch slab v) (p := p)
    (q := { respPkt (touch slab v) 0x03 k.src k.tag (k.spec % 8192) 0 with dstCtx := k.srcCtx, srcCtx := k.dstCtx })
    (data := List.replicate (k.spec % 8192) 0) hp (by rw [ports, came.state]; exact up)
    (by rw [ports, came.partner]; exact direct) (by rw [ports]; exact came.once once) (by decide : pktClass 0x03 < 3) (by rw [List.length_replicate]; exact small)
  refine ⟨_, { respPkt (touch slab v) 0x03 k.src k.tag (k.spec % 8192) 0 with dstCtx := k.srcCtx, srcCtx := k.dstCtx },
    run, rfl, rfl, rfl, ?_, told.trans ?_⟩
  · rw [(portsOnly_answer _ _ _).mem, touch_mem, frame.mem]
  · rw [touch_sent, credit, type, List.append_assoc]
    rfl

theorem exec_read_refused {st : Status} (dst : k.dst = ownId s) (part : partOk k.addr (k.spec % 8192) = true)
    (refused : matchGrant k false s = .error st) : ∃ u, exec (.read p k) s = .next u ∧ u.mem = s.mem ∧ u.descs = s.descs ∧
      counter u (fptPage p) 0xE50 = (counter s (fptPage p) 0xE50 + 1) % 2 ^ 64 := by
  have kept := traffic_rxPacket (s := s) p k.type (k.flags % 2) 0
  have run := exec_read_part hw arrives dst part
  generalize rxPacket p k.type (k.flags % 2) 0 s = v at *
  rw [fabricRead_of_error part ((matchGrant_portsOnly kept.frame k false).trans refused)] at run
  refine ⟨_, run, ?_⟩
  unfold refuseFabric
  extract_lets key
  generalize noted : ({ v with ftb := _ } : State) = w
  have tidy : Tidy w := by
    rw [← noted]
    exact { kept.tidy hs with }
  have sent := traffic_sendError (s := count (Pg.fpt + p) 0xE50 w) p k.src k.tag st
  refine ⟨sent.frame.mem.trans ?_, sent.frame.descs.trans ?_, (sent.counter_count tidy (by decide) (by decide)).trans ?_⟩
  · exact (congrArg (·.mem) noted.symm).trans kept.frame.mem
  · exact (congrArg (·.descs) noted.symm).trans kept.frame.descs
  · rw [counter_congr (t := w) (s := v) (congrArg (·.cnts) noted.symm), kept.counters hs _ _ (by decide) (by decide)]
    rfl

theorem exec_write_stored {g : Grant} {slab : Nat} {t : Tier} {data : List Byte} (dst : k.dst = ownId s)
    (part : partOk k.addr data.length = true) (granted : matchGrant k true s = .ok (g, slab))
    (passes : accessCheck s ⟨3, ctxFn s k.dstCtx, k.dstCtx, none, true, false⟩ slab = none) (takes : TakesWrites s slab t)
    (zero : ZeroBlock s slab (k.addr % 2 ^ 24 / 4096) (homeKey t (mapAt s slab).frame (k.addr % 2 ^ 24 / 4096)))
    (direct : (fportAt s p).partner.dev = k.src) (once : SendsAtOnce (fportAt s p)) :
    ∃ u q, exec (.write p k data) s = .next u ∧ q.type = 0x05 ∧ q.dst = k.src ∧ q.tag = k.tag ∧ .packet p q [] ∈ u.sent ∧
      MemOutside (homeKey t (mapAt s slab).frame (k.addr % 2 ^ 24 / 4096)) s u ∧ u.mge.held = s.mge.held := by
  obtain ⟨hp, up, -⟩ := id arrives
  have came := came_rxPacket (port := p) k.type (k.flags % 2) data.length hs
  have run := exec_write_part hw arrives dst part
  generalize rxPacket p k.type (k.flags % 2) data.length s = v at *
  have frame := came.traffic.frame
  have tidy := came.traffic.tidy hs
  have readable := readable_portsOnly frame (readable_of_zeroBlock takes zero)
  have fits : k.addr % 4096 + data.length ≤ 4096 := by
    simp only [partOk, Bool.and_eq_true, decide_eq_true_eq] at part
    omega
  obtain ⟨w, stored, fports, outside, held⟩ := offerWrite_touched
    (x := { src := .fabric p k.src k.srcCtx k.tag, ctx := k.dstCtx, block := blockIdx slab (k.addr % 2 ^ 24 / 4096)
            off := k.addr % 4096, data := data, since := v.now })
    tidy (by omega) rfl fits (takesWrites_portsOnly frame takes) readable
  rw [fabricWrite_of_grant tidy.sound part ((matchGrant_portsOnly frame k true).trans granted)
      (by rw [ctxFn_portsOnly frame, accessCheck_portsOnly frame]; exact passes), stored] at run
  have ports : fportAt w p = fportAt v p := by rw [fportAt, fports, fportAt]
  have told := answer_at_once (s := w) (p := p) (q := respPkt w 0x05 k.src k.tag 0 0) (data := []) hp (by rw [ports, came.state]; exact up)
    (by rw [ports, came.partner]; exact direct) (by rw [ports]; exact came.once once) (by decide : pktClass 0x05 < 3) (Nat.zero_le _)
  have answered := portsOnly_answer (s := w) p (respPkt w 0x05 k.src k.tag 0 0) []
  refine ⟨_, respPkt w 0x05 k.src k.tag 0 0, run, rfl, rfl, rfl, told ▸ List.mem_append_right _ List.mem_cons_self, fun a ha => ?_, ?_⟩
  · rw [ackWrite, answered.mem, outside a ha, frame.mem]
  · exact (congrArg (·.mge.held) answered).trans (held.trans (congrArg (·.mge.held) frame))

theorem exec_probe_answered (dst : k.dst = ownId s) (direct : (fportAt s p).partner.dev = k.src) (once : SendsAtOnce (fportAt s p)) :
    ∃ u q, exec (.probe p k) s = .next u ∧ q.type = 0x32 ∧ q.dst = k.src ∧ q.tag = k.tag ∧ .packet p q [] ∈ u.sent ∧ u.mem = s.mem := by
  obtain ⟨hp, up, -⟩ := id arrives
  have came := came_rxPacket (port := p) k.type (k.flags % 2) 0 hs
  have run := onPacket_of_arrives hw arrives 0 fun s => if k.dst = ownId s then answer p (respPkt s 0x32 k.src k.tag 0 0) [] s else s
  generalize rxPacket p k.type (k.flags % 2) 0 s = v at *
  rw [if_pos (dst.trans (ownId_portsOnly came.traffic.frame).symm)] at run
  have told := answer_at_once (s := v) (p := p) (q := respPkt v 0x32 k.src k.tag 0 0) (data := []) hp (by rw [came.state]; exact up)
    (by rw [came.partner]; exact direct) (came.once once) (by decide : pktClass 0x32 < 3) (Nat.zero_le _)
  exact ⟨_, respPkt v 0x32 k.src k.tag 0 0, run, rfl, rfl, rfl, told ▸ List.mem_append_right _ List.mem_cons_self,
    (portsOnly_answer _ _ _).mem.trans came.traffic.frame.mem⟩

omit hs in
theorem exec_probeReply_taken (dst : k.dst = ownId s) : ∃ u, exec (.probeReply p k) s = .next u ∧
    u.ftb = { s.ftb with members := tins s.ftb.members k.src s.now, probes := s.ftb.probes.filter (fun d => decide (d ≠ k.src)) } := by
  have frame := portsOnly_rxPacket (s := s) p k.type (k.flags % 2) 0
  refine ⟨_, (onPacket_of_arrives hw arrives 0 _).trans (congrArg Host.Outcome.next (if_pos (dst.trans (ownId_portsOnly frame).symm))), ?_⟩
  rw [frame]
  rfl

theorem exec_tableSlots_taken (slots : Nat) : ∃ u, exec (.tableSlots p slots) s = .next u ∧
    (fportAt u p).partner = { (fportAt s p).partner with slots := slots % 8192 } ∧ (∀ q, q ≠ p → fportAt u q = fportAt s q) := by
  obtain ⟨hp, up, -⟩ := id arrives
  have came := came_rxPacket (port := p) 0x13 0 0 hs
  refine ⟨_, (next_whenAwake hw _).trans (congrArg Host.Outcome.next (arrive_of_arrives p ⟨hp, up, .inr rfl⟩ _ _ _ _)), ?_, fun q hq => ?_⟩
  · rw [modFport, fportAt_setFport _ _ (came.traffic.tidy hs), came.partner]
  · rw [modFport, fportAt_setFport_ne _ _ (came.traffic.tidy hs) hq, fportAt_rxPacket_ne _ _ _ hs hq]

end

end
end Sys2Proof.Machine

open Sys2Proof Sys2Proof.Machine

/-- Settles O52: each packet is taken in the state that its arrival leaves, which differs from the one before in the port's line alone. -/
theorem fabricPackets : Obligations.FabricPackets := by
  unfold Obligations.FabricPackets
  exact fun s p k hs hw arrives => ⟨fun out data other low route once fits =>
      ⟨exec_packetRelay_hops hw arrives hs other low route once fits, exec_packetRelay_spent hw arrives hs other low⟩,
    fun g slab type dst part granted passes zeros direct once =>
      exec_read_zeros hw arrives hs type dst part granted passes zeros direct once,
    fun st type dst part refused => exec_read_refused hw arrives hs dst part refused,
    fun g slab t data type dst part granted passes takes zero direct once =>
      exec_write_stored hw arrives hs dst part granted passes takes zero direct once,
    exec_tableSlots_taken hw arrives hs, fun dst type direct once => exec_probe_answered hw arrives hs dst direct once,
    exec_probeReply_taken hw arrives⟩
end

section
/-! PROOFS. A link that comes up (O50): training, HELLO, SPDM, IDENT, the time exchange, and the ends of these steps. -/

set_option Elab.async false

namespace Sys2Proof.Machine

section
variable {s t u : State} {p : Nat}

/-! A port that leaves a step before it is UP (R326, R351) -/

theorem settleParent_frame : settleParent s = { s with cnts := (settleParent s).cnts, ftb := (settleParent s).ftb } := by
  unfold settleParent
  dsimp only
  (repeat' split) <;> rfl

/-- A port as it enters a state: its lanes, role, failures and half stay. -/
def leftPort (st : FpState) (reason retryAt now : Nat) (v : FPort) : FPort :=
  { FPort.reset with
    state := st, reason := reason, lanes := v.lanes, responder := v.responder, fails := v.fails, retryAt := retryAt, half := v.half
    trainAt := now, stepAt := now }

theorem fportAt_leavePort (hs : Tidy s) (away : (fportAt s p).state ≠ .up) (st : FpState) (reason retryAt : Nat) :
    fportAt (leavePort p st reason retryAt s) p = leftPort st reason retryAt s.now (fportAt s p) := by
  unfold leavePort
  dsimp only
  rw [if_neg away, if_neg away, settleParent_frame]
  exact fportAt_setFport _ _ ((keeps_endDecode p s (.refl s)).tidy hs)

/-- A failure of step 5 or 6 (R326): its reason, one failure more, and the backoff of the failures before. -/
theorem fportAt_authFail (hs : Tidy s) (away : (fportAt s p).state ≠ .up) (reason : Nat) :
    fportAt (authFail p reason s) p = leftPort .authFailed reason
      (s.now + min (2 ^ (fportAt s p).fails) (fld s (fptPage p) 0x400 31 24) * sec) s.now
      { fportAt s p with fails := (fportAt s p).fails + 1 } := by
  have counted : Tidy (count (fptPage p) 0xE30 s) := (keeps_count _ _ _ (.refl s)).tidy hs
  have failed := fportAt_setFport p { fportAt s p with fails := (fportAt s p).fails + 1 } counted
  have left := fportAt_leavePort (s := modFport p (fun v => { v with fails := (fportAt s p).fails + 1 }) (count (fptPage p) 0xE30 s)) (p := p)
    (tidy_modFport p _ counted) (fun up => away ((congrArg (·.state) failed).symm.trans up)) .authFailed reason
    (s.now + min (2 ^ (fportAt s p).fails) (fld s (fptPage p) 0x400 31 24) * sec)
  exact left.trans (congrArg (leftPort _ _ _ _) failed)

/-! Packets of a port before it is UP -/

theorem sent_rxPacket_down (down : (fportAt s p).state ≠ .up) (type vl len : Nat) : (rxPacket p type vl len s).sent = s.sent := by
  rw [rxPacket_of_down down]
  rfl

/-- Of a port only its line and its queue differ. -/
def LineAndQueue (v w : FPort) : Prop :=
  w = { v with txPackets := w.txPackets, txSeq := w.txSeq, credits := w.credits, queued := w.queued, stalled := w.stalled }

theorem lineAndQueue_sendPkt (q : Pkt) (data : List Byte) (hs : Tidy s) : LineAndQueue (fportAt s p) (fportAt (sendPkt p q data s) p) := by
  have set (v : FPort) (h : LineAndQueue (fportAt s p) v) : LineAndQueue (fportAt s p) (fportAt (setFport p v s) p) := by
    rw [fportAt_setFport _ _ hs]
    exact h
  unfold sendPkt transmit
  dsimp only
  split
  · exact set _ rfl
  · exact set _ rfl

theorem lineAndQueue_sendIdent (hs : Tidy s) : LineAndQueue (fportAt s p) (fportAt (sendIdent p s) p) :=
  lineAndQueue_sendPkt (s := { s with draws := s.draws + 1 }) _ _ { hs with }

theorem chainOk_portsOnly (h : PortsOnly s t) (root : Nat) (namesHjx verified : Bool) :
    chainOk t p root namesHjx verified = chainOk s p root namesHjx verified := by
  rw [h]
  rfl

theorem identRefusal_of_came (h : Came s t) (dev : Nat) : identRefusal t p dev = identRefusal s p dev := by
  have id := ownId_portsOnly h.traffic.frame
  have regs : t.regs = s.regs := congrArg (·.regs) h.traffic.frame
  unfold identRefusal flag fld reg
  simp only [h.state, h.partner, id, regs]

/-- HELLO with a fresh nonce. -/
theorem sendHello_left (hs : Tidy s) : ∃ n, fportAt (sendHello p s) p = { fportAt s p with nonce := some n, stepAt := s.now } ∧
    (∀ q, q ≠ p → fportAt (sendHello p s) q = fportAt s q) ∧
    sendHello p s = { s with fports := (sendHello p s).fports, sent := s.sent ++ [.hello p n], draws := s.draws + 1 } := by
  have drawn : Tidy { s with draws := s.draws + 1 } := { hs with }
  exact ⟨_, fportAt_setFport _ _ drawn, fun q hq => fportAt_setFport_ne _ _ drawn hq, rfl⟩

/-- The end of SPDM on an accepted chain (R324): keys count from now, and IDENT follows. -/
theorem fportAt_authStep_finish (hs : Tidy s) {root cert : Nat} {namesHjx verified : Bool} (ok : chainOk s p root namesHjx verified = true) :
    LineAndQueue { fportAt s p with
      spdmDone := true, partner := { Partner.none with root := root, cert := cert, accelerator := decide (root ≠ 0) }
      txPackets := 0, rxPackets := 0, keyedAt := s.now, stepAt := s.now }
      (fportAt (authStep p (.finish root namesHjx cert verified) s) p) := by
  unfold authStep
  dsimp only
  rw [if_neg (by simp [ok])]
  generalize answered : (if (fportAt s p).responder = true then emit (.spdmLink p (.finish 0 true s.dev.serial true)) s else s) = v
  have fports : v.fports = s.fports := by
    rw [← answered]
    split <;> rfl
  have tidy : Tidy v := by
    rw [← answered]
    split
    · exact (keeps_emit _ _ (.refl s)).tidy hs
    · exact hs
  have now : v.now = s.now := by
    rw [← answered]
    split <;> rfl
  have port : fportAt v p = fportAt s p := by rw [fportAt, fports, fportAt]
  have sent := lineAndQueue_sendIdent (p := p) (tidy_modFport p (fun w => { w with
    spdmDone := true, partner := { Partner.none with root := root, cert := cert, accelerator := decide (root ≠ 0) }
    txPackets := 0, rxPackets := 0, keyedAt := s.now, stepAt := s.now }) tidy)
  rw [modFport, fportAt_setFport _ _ tidy, port] at sent
  rw [modFport, port]
  exact sent

/-! Training and HELLO (Table 14-2, steps 1 to 4) -/

section
variable (hw : Awake s)
include hw

theorem exec_linkTrain_trained (may : mayTrain s p = true) (training : (fportAt s p).state = .training) {lanes : Nat}
    (low : lanes < 256) (wide : widthOf lanes ≠ 0) : exec (.linkTrain p lanes) s = .next (sendHello p (modFport p (fun v => { v with
      state := .auth, lanes := lanes, width := keptWidth v (widthOf lanes)
      half := if keptWidth v (widthOf lanes) = 3 then 0 else keptWidth v (widthOf lanes)
      trainAt := if v.state = .down then s.now else v.trainAt }) s)) := by
  have some : lanes % 256 ≠ 0 := by
    intro none
    rw [Nat.mod_eq_of_lt low] at none
    subst none
    exact wide rfl
  refine (next_whenAwake hw _).trans (congrArg Host.Outcome.next ?_)
  rw [if_neg (by simp [may, training]), if_neg some, if_neg wide, Nat.mod_eq_of_lt low]

theorem exec_linkTrain_none (may : mayTrain s p = true) (training : (fportAt s p).state = .training) :
    exec (.linkTrain p 0) s = .next (downPort p rsnSignal s) := by
  refine (next_whenAwake hw _).trans (congrArg Host.Outcome.next ?_)
  rw [if_neg (by simp [may, training]), if_pos rfl]

theorem exec_hello_waits {own nonce : Nat} (hp : p < 8) (waits : (fportAt s p).nonce = some own) (auth : (fportAt s p).state = .auth) :
    exec (.hello p nonce) s = .next (if own = nonce then sendHello p (rxPacket p 0x3D 0 16 s)
      else if own < nonce then modFport p (fun v => { v with nonce := none, responder := decide (own < nonce), stepAt := s.now })
        (rxPacket p 0x3D 0 16 s)
      else emit (.spdmLink p (.negotiate true))
        (modFport p (fun v => { v with nonce := none, responder := decide (own < nonce), stepAt := s.now }) (rxPacket p 0x3D 0 16 s))) := by
  refine (next_whenAwake hw _).trans (congrArg Host.Outcome.next ?_)
  dsimp only
  rw [waits]
  exact if_neg (by simp [auth, hp])

/-! SPDM and IDENT (steps 5 and 6, R324, R325) -/

theorem exec_spdm_finish (hp : p < 8) (auth : (fportAt s p).state = .auth) (nonce : (fportAt s p).nonce = none)
    (open_ : (fportAt s p).spdmDone = false) (root cert : Nat) (namesHjx verified : Bool) :
    exec (.spdm p (.finish root namesHjx cert verified)) s =
      .next (authStep p (.finish root namesHjx cert verified) (rxPacket p 0x3C 0 0 s)) := by
  refine (next_whenAwake hw _).trans (congrArg Host.Outcome.next ?_)
  rw [if_neg (by simp [linked, auth, nonce, hp])]
  exact if_neg (by simp [open_])

/-- What IDENT makes of its port: the time exchange follows. -/
def identTaken (dev slots now : Nat) (decode rootEl : Bool) (v : FPort) : FPort :=
  { v with
    state := .time, syncs := 0, fails := 0, reason := 0
    partner := { v.partner with dev := dev % 131072, decode := decode, rootEligible := rootEl, slots := slots % 8192 }, stepAt := now }

section
variable (hs : Tidy s) (hp : p < 8) (auth : (fportAt s p).state = .auth) (done : (fportAt s p).spdmDone = true) {dev slots : Nat}
  {acc decode rootEl : Bool}
include hs hp auth done

theorem exec_ident_taken (right : identRefusal s p dev = none) : exec (.ident p dev acc decode rootEl slots) s =
    .next (modFport p (identTaken dev slots s.now decode rootEl) (rxPacket p 0x38 0 0 s)) := by
  have came := came_rxPacket (port := p) 0x38 0 0 hs
  refine (next_whenAwake hw _).trans (congrArg Host.Outcome.next ((if_neg (by simp [auth, done, hp])).trans ?_))
  dsimp only
  rw [identRefusal_of_came came, right]
  dsimp only
  rw [modFport, modFport, identTaken, came.partner]

theorem exec_ident_refused {why : Nat} (wrong : identRefusal s p dev = some why) : exec (.ident p dev acc decode rootEl slots) s =
    .next (authFail p why (rxPacket p 0x38 0 0 s)) := by
  refine (next_whenAwake hw _).trans (congrArg Host.Outcome.next ((if_neg (by simp [auth, done, hp])).trans ?_))
  dsimp only
  rw [identRefusal_of_came (came_rxPacket 0x38 0 0 hs), wrong]

end

end

/-! The time exchange (step 8, R334) -/

/-- The credits of a port that comes up. -/
def creditsUp (p : Nat) (s : State) : Tbl Nat :=
  match runRecipe s with
  | some (_, q) => if (recipePorts q).contains p then tput 0 ((List.range 6).map (fun k => (k, creditPool (k / 2)))) 6 (stepPool q)
    else (List.range 6).map (fun k => (k, creditPool (k / 2)))
  | none => (List.range 6).map (fun k => (k, creditPool (k / 2)))

theorem creditsUp_pool {k : Nat} (hk : k < 6) : tget 0 (creditsUp p s) k = creditPool (k / 2) := by
  have pools : tget 0 ((List.range 6).map (fun k => (k, creditPool (k / 2)))) k = creditPool (k / 2) := by
    interval_cases k <;> rfl
  have rise : trising 0 ((List.range 6).map (fun k => (k, creditPool (k / 2)))) = true := by decide
  unfold creditsUp
  split
  · split
    · rw [tget_tput_ne _ rise (by omega), pools]
    · exact pools
  · exact pools

theorem fportAt_linkUp (hs : Tidy s) : fportAt (linkUp p s) p =
    { fportAt s p with state := .up, decode := (fportAt s p).partner.decode, credits := creditsUp p s } := by
  have set := fportAt_setFport p { fportAt s p with state := .up, decode := (fportAt s p).partner.decode, credits := creditsUp p s } hs
  exact set

/-- A sample of the offset changes of its port at most the offer, and raises no event. -/
theorem sample_port (hs : Tidy s) (off : Int) : (sample p off s).router = s.router ∧
    ∃ o, fportAt (sample p off s) p = { fportAt s p with offer := o } := by
  unfold sample
  dsimp only
  split
  · split
    · exact ⟨rfl, _, rfl⟩
    · rw [settleParent_frame]
      have counted : Tidy (count Pg.ftb 0xE10 s) := (keeps_count _ _ _ (.refl s)).tidy hs
      exact ⟨rfl, none, fportAt_setFport _ _ counted⟩
  · exact ⟨rfl, _, rfl⟩

/-- What the times of an exchange make of their port. -/
def heardPort (t3 t4 rootId hops : Nat) (v : FPort) : FPort :=
  { v with offer := some (rootId, hops), lastT2 := t4, lastT3 := t3, syncs := min 16 (v.syncs + 1) }

/-- The state in which an exchange was heard. -/
def heardSync (p t3 t4 rootId hops : Nat) (s : State) : State :=
  count Pg.ftb 0xE08 (modFport p (heardPort t3 t4 rootId hops) (rxPacket p 0x30 0 24 s))

theorem tidy_heardSync (t3 t4 rootId hops : Nat) (hs : Tidy s) : Tidy (heardSync p t3 t4 rootId hops s) :=
  (keeps_count _ _ _ (.refl _)).tidy (tidy_modFport p _ (tidy_rxPacket p _ _ _ hs))

theorem fportAt_heardSync (t3 t4 rootId hops : Nat) (hs : Tidy s) :
    LineCounts (heardPort t3 t4 rootId hops (fportAt s p)) (fportAt (heardSync p t3 t4 rootId hops s) p) := by
  have came := came_rxPacket (port := p) 0x30 0 24 hs
  have heard : fportAt (heardSync p t3 t4 rootId hops s) p = heardPort t3 t4 rootId hops (fportAt (rxPacket p 0x30 0 24 s) p) :=
    fportAt_setFport p _ (came.traffic.tidy hs)
  have line := came.line p
  unfold LineCounts at line ⊢
  rw [heard, line]
  rfl

theorem exec_timeSync_sixteenth (hw : Awake s) (hs : Tidy s) (hp : p < 8) (time : (fportAt s p).state = .time)
    (fifteen : (fportAt s p).syncs = 15) (t1 t2 t3 t4 rootId hops : Nat) :
    ∃ off, exec (.timeSync p t1 t2 t3 t4 rootId hops) s =
      .next (if (settleParent (linkUp p (heardSync p t3 t4 rootId hops s))).ftb.parent = some p
        then sample p off (settleParent (linkUp p (heardSync p t3 t4 rootId hops s)))
        else settleParent (linkUp p (heardSync p t3 t4 rootId hops s))) := by
  have heard := fportAt_heardSync (p := p) t3 t4 rootId hops hs
  have ready : (fportAt (heardSync p t3 t4 rootId hops s) p).state = .time ∧ 16 ≤ (fportAt (heardSync p t3 t4 rootId hops s) p).syncs := by
    rw [heard]
    exact ⟨time, Nat.le_min.2 ⟨Nat.le_refl _, Nat.le_of_eq (congrArg (· + 1) fifteen).symm⟩⟩
  refine ⟨offsetOf t1 t2 t3 t4, (next_whenAwake hw _).trans (congrArg Host.Outcome.next ((if_neg (by simp [time, hp])).trans ?_))⟩
  have comes : (if (fportAt (heardSync p t3 t4 rootId hops s) p).state = .time ∧ 16 ≤ (fportAt (heardSync p t3 t4 rootId hops s) p).syncs
      then linkUp p (heardSync p t3 t4 rootId hops s) else heardSync p t3 t4 rootId hops s) = linkUp p (heardSync p t3 t4 rootId hops s) :=
    if_pos ready
  exact congrArg (fun x => if (settleParent x).ftb.parent = some p then sample p (offsetOf t1 t2 t3 t4) (settleParent x) else settleParent x) comes

theorem timeSync_up (hw : Awake s) (hs : Tidy s) (hp : p < 8) (time : (fportAt s p).state = .time) (fifteen : (fportAt s p).syncs = 15)
    (t1 t2 t3 t4 rootId hops : Nat) : ∃ u e, exec (.timeSync p t1 t2 t3 t4 rootId hops) s = .next u ∧ (fportAt u p).state = .up ∧
      (∀ k, k < 6 → tget 0 (fportAt u p).credits k = creditPool (k / 2)) ∧ u.router = s.router ++ [e] ∧ e.page = fptPage p := by
  obtain ⟨off, run⟩ := exec_timeSync_sixteenth hw hs hp time fifteen t1 t2 t3 t4 rootId hops
  have came := came_rxPacket (port := p) 0x30 0 24 hs
  have tidy := tidy_heardSync (p := p) t3 t4 rootId hops hs
  have router : (heardSync p t3 t4 rootId hops s).router = s.router := congrArg (·.router) came.traffic.frame
  generalize heardSync p t3 t4 rootId hops s = v at *
  have upTidy : Tidy (settleParent (linkUp p v)) := (keeps_settleParent _ (keeps_linkUp p v (.refl v))).tidy tidy
  have up : fportAt (settleParent (linkUp p v)) p =
      { fportAt v p with state := .up, decode := (fportAt v p).partner.decode, credits := creditsUp p v } := by
    rw [settleParent_frame]
    exact fportAt_linkUp tidy
  have events : ∃ e, (settleParent (linkUp p v)).router = s.router ++ [e] ∧ e.page = fptPage p := by
    rw [settleParent_frame, ← router]
    exact ⟨_, rfl, rfl⟩
  obtain ⟨e, told, page⟩ := events
  generalize settleParent (linkUp p v) = w at *
  obtain ⟨kept, o, port⟩ := sample_port (p := p) upTidy off
  refine ⟨_, e, run, ?_⟩
  split
  · rw [kept, port, up]
    exact ⟨rfl, fun k hk => creditsUp_pool hk, told, page⟩
  · rw [up]
    exact ⟨rfl, fun k hk => creditsUp_pool hk, told, page⟩

/-! Waits that end -/

theorem exec_authBackoffExpiry_over (hw : Awake s) (may : mayTrain s p = true) (failed : (fportAt s p).state = .authFailed)
    (ended : (fportAt s p).retryAt ≤ s.now) : exec (.authBackoffExpiry p) s = .next (startTraining p s) :=
  (next_whenAwake hw _).trans (congrArg Host.Outcome.next (if_pos ⟨failed, ended, may⟩))

theorem exec_trainingRetry_over (hw : Awake s) (may : mayTrain s p = true) (down : (fportAt s p).state = .down)
    (waits : (fportAt s p).retryAt ≠ 0) (ended : (fportAt s p).retryAt ≤ s.now) : exec (.trainingRetry p) s = .next (startTraining p s) :=
  (next_whenAwake hw _).trans (congrArg Host.Outcome.next (if_pos ⟨down, waits, ended, may⟩))

section
variable (hw : Awake s) (hp : p < 8) {step : Nat}
  (late : (if step = 8 then (fportAt s p).trainAt else (fportAt s p).stepAt) + stepBoundUs step * 1000 ≤ s.now)
include hw hp late

theorem exec_linkBringupTimeout_training (training : (fportAt s p).state = .training) (known : step = 1 ∨ step = 2) :
    exec (.linkBringupTimeout p step) s = .next (downPort p rsnSignal s) := by
  refine (next_whenAwake hw _).trans (congrArg Host.Outcome.next ((if_neg (by omega)).trans ?_))
  rw [training]
  exact if_pos known

theorem exec_linkBringupTimeout_auth (auth : (fportAt s p).state = .auth)
    (known : (step = 5 ∧ (fportAt s p).spdmDone = false ∧ (fportAt s p).nonce = none) ∨ (step = 6 ∧ (fportAt s p).spdmDone = true)) :
    exec (.linkBringupTimeout p step) s = .next (authFail p rsnAuth s) := by
  refine (next_whenAwake hw _).trans (congrArg Host.Outcome.next ((if_neg (by omega)).trans ?_))
  rw [auth]
  exact if_pos (by simpa using known)

theorem exec_linkBringupTimeout_time (time : (fportAt s p).state = .time) (known : step = 7 ∨ step = 8) :
    exec (.linkBringupTimeout p step) s = .next (retrainPort p rsnSession s) := by
  refine (next_whenAwake hw _).trans (congrArg Host.Outcome.next ((if_neg (by omega)).trans ?_))
  rw [time]
  exact if_pos known

end

end
end Sys2Proof.Machine

open Sys2Proof Sys2Proof.Machine

/-- Settles O50: each step by its equation on a port in the state of the step; before the port is UP no credit is counted and no scale
settled, so that the port alone tells the outcome. -/
theorem fabricBringUp : Obligations.FabricBringUp := by
  unfold Obligations.FabricBringUp
  refine fun s p hs hw hp => ⟨fun may training => ⟨fun lanes low wide => ?_, ?_⟩, fun own nonce waits auth => ⟨fun other => ?_, fun same => ?_⟩,
    fun root cert namesHjx verified auth none_ open_ => ⟨fun ok => ?_, fun bad => ?_⟩,
    fun dev slots acc decode rootEl auth done => ⟨fun right => ?_, fun why wrong => ?_⟩,
    fun time fifteen => timeSync_up hw hs hp time fifteen,
    fun may => ⟨fun failed ended => ⟨_, exec_authBackoffExpiry_over hw may failed ended, fportAt_setFport _ _ hs, rfl⟩,
      fun down waits ended => ⟨_, exec_trainingRetry_over hw may down waits ended, fportAt_setFport _ _ hs, rfl⟩⟩,
    fun training step known late => ?_, fun auth step known late => ?_, fun time step known late => ?_⟩
  · obtain ⟨n, port, others, frame⟩ := sendHello_left (p := p) (tidy_modFport p (fun v => { v with
      state := .auth, lanes := lanes, width := keptWidth v (widthOf lanes)
      half := if keptWidth v (widthOf lanes) = 3 then 0 else keptWidth v (widthOf lanes)
      trainAt := if v.state = .down then s.now else v.trainAt }) hs)
    have stays : (if (fportAt s p).state = .down then s.now else (fportAt s p).trainAt) = (fportAt s p).trainAt :=
      if_neg (by rw [training]; decide)
    refine ⟨_, n, exec_linkTrain_trained hw may training low wide, ?_, fun q hq => ?_, frame⟩
    · rw [port, modFport, fportAt_setFport _ _ hs, stays]
      rfl
    · rw [others q hq, modFport, fportAt_setFport_ne _ _ hs hq]
  · have left := fportAt_leavePort hs (p := p) (by rw [training]; decide) .down rsnSignal (s.now + sec)
    exact ⟨_, exec_linkTrain_none hw may training, by rw [downPort, left]; rfl, by rw [downPort, left]; rfl, by rw [downPort, left]; rfl⟩
  · have came := came_rxPacket (port := p) 0x3D 0 16 hs
    have sent := sent_rxPacket_down (p := p) (s := s) (by rw [auth]; decide) 0x3D 0 16
    have run := exec_hello_waits (nonce := nonce) hw hp waits auth
    rw [if_neg other] at run
    generalize rxPacket p 0x3D 0 16 s = v at *
    have state := (came.state p).trans auth
    have port := fportAt_setFport p { fportAt v p with nonce := none, responder := decide (own < nonce), stepAt := s.now } (came.traffic.tidy hs)
    split at run
    case isTrue less =>
      refine ⟨_, run, congrArg (·.nonce) port, (congrArg (·.state) port).trans state, congrArg (·.responder) port, ?_⟩
      rw [if_pos less, List.append_nil]
      exact sent
    case isFalse more =>
      refine ⟨_, run, congrArg (·.nonce) port, (congrArg (·.state) port).trans state, congrArg (·.responder) port, ?_⟩
      rw [if_neg more]
      exact congrArg (· ++ [_]) sent
  · have sent := sent_rxPacket_down (p := p) (s := s) (by rw [auth]; decide) 0x3D 0 16
    have run := exec_hello_waits (nonce := nonce) hw hp waits auth
    rw [if_pos same] at run
    obtain ⟨n, port, -, frame⟩ := sendHello_left (p := p) (tidy_rxPacket p 0x3D 0 16 hs)
    exact ⟨_, n, run, congrArg (·.nonce) port, (congrArg (·.sent) frame).trans (congrArg (· ++ [_]) sent)⟩
  · have came := came_rxPacket (port := p) 0x3C 0 0 hs
    have run := exec_spdm_finish hw hp auth none_ open_ root cert namesHjx verified
    generalize rxPacket p 0x3C 0 0 s = v at *
    have frame := came.traffic.frame
    have port := fportAt_authStep_finish (p := p) (came.traffic.tidy hs) (root := root) (cert := cert) (namesHjx := namesHjx)
      (verified := verified) (by rw [chainOk_portsOnly frame, ok])
    refine ⟨_, run, ?_⟩
    rw [port]
    exact ⟨(came.state p).trans auth, rfl, rfl, rfl, rfl, congrArg (·.now) frame⟩
  · have came := came_rxPacket (port := p) 0x3C 0 0 hs
    have run := exec_spdm_finish hw hp auth none_ open_ root cert namesHjx verified
    generalize rxPacket p 0x3C 0 0 s = v at *
    have frame := came.traffic.frame
    have fails : (fportAt v p).fails = (fportAt s p).fails := congrArg (·.fails) (came.line p)
    have now : v.now = s.now := congrArg (·.now) frame
    have bound : fld v (fptPage p) 0x400 31 24 = fld s (fptPage p) 0x400 31 24 := by
      rw [frame]
      rfl
    have failed : authStep p (.finish root namesHjx cert verified) v = authFail p rsnAuth v :=
      if_pos (by simp [chainOk_portsOnly frame, bad])
    refine ⟨_, run, ?_⟩
    rw [failed, fportAt_authFail (came.traffic.tidy hs) (by rw [came.state, auth]; decide), fails, now, bound]
    exact ⟨rfl, rfl, rfl, rfl⟩
  · have came := came_rxPacket (port := p) 0x38 0 0 hs
    refine ⟨_, exec_ident_taken hw hs hp auth done right, ?_⟩
    rw [modFport, fportAt_setFport _ _ (came.traffic.tidy hs), identTaken, came.partner]
    exact ⟨rfl, rfl, rfl, rfl⟩
  · have came := came_rxPacket (port := p) 0x38 0 0 hs
    refine ⟨_, exec_ident_refused hw hs hp auth done wrong, ?_⟩
    rw [fportAt_authFail (came.traffic.tidy hs) (by rw [came.state, auth]; decide)]
    exact ⟨rfl, rfl⟩
  · have away : (fportAt s p).state ≠ .up := by rw [training]; decide
    have left := fportAt_leavePort hs away .down rsnSignal (s.now + sec)
    refine ⟨_, exec_linkBringupTimeout_training hw hp (by rw [if_neg (by omega)]; exact late) training known, ?_⟩
    rw [downPort, left]
    exact ⟨rfl, rfl⟩
  · have away : (fportAt s p).state ≠ .up := by rw [auth]; decide
    refine ⟨_, exec_linkBringupTimeout_auth hw hp (by rw [if_neg (by omega)]; exact late) auth known, ?_⟩
    rw [fportAt_authFail hs away]
    exact ⟨rfl, rfl⟩
  · have away : (fportAt s p).state ≠ .up := by rw [time]; decide
    refine ⟨_, exec_linkBringupTimeout_time hw hp late time known, ?_⟩
    rw [retrainPort, fportAt_leavePort hs away]
    rfl
end

section
/-! PROOFS. Where the upkeep of a link fails (O51): a port in its time exchange with a packet of the exchange's class in its queue, which
the statement admits. -/

set_option Elab.async false

namespace Sys2Proof.Machine

/-- A packet of class CTRL in VL 0 that waits. -/
def waitingCtrl : Pkt := ⟨0x30, 0, 0, 0, 0, 0, 0, 0, 1, 0, 0⟩

/-- Port 0 in its time exchange, which is due, with a packet of class CTRL in its queue. -/
def waitingPort : FPort := { FPort.reset with state := .time, queued := [(waitingCtrl, [])] }

/-- The running device with `waitingPort`. -/
def timeWaiting : State :=
  { State.reset with
    boot := { Boot.reset with halted := false }
    fports := [(0, waitingPort)] }

theorem tidy_timeWaiting : Tidy timeWaiting := by constructor <;> decide

/-- The exchange goes into the queue behind the packet, and nothing is sent (R330). -/
theorem exec_timeSyncSend_timeWaiting : ∃ u, exec (.timeSyncSend 0) timeWaiting = .next u ∧ u.sent = [] := ⟨_, rfl, by decide +kernel⟩

end Sys2Proof.Machine

open Sys2Proof Sys2Proof.Machine

/-- Refutes O51: the time exchange of a port in whose queue a packet of its class and VL waits is not sent but queued behind it. -/
theorem not_fabricUpkeep : ¬ Obligations.FabricUpkeep := by
  unfold Obligations.FabricUpkeep
  rintro ⟨upkeep, -⟩
  obtain ⟨-, -, -, -, -, -, -, -, -, -, exchange, -⟩ := upkeep timeWaiting 0 tidy_timeWaiting (by decide) (by decide) (by decide)
  obtain ⟨u, q, run, -, -, sent⟩ := exchange (by decide) (.inl (by decide))
  obtain ⟨v, same, quiet⟩ := exec_timeSyncSend_timeWaiting
  have outcome : v = u := Host.Outcome.next.inj (same.symm.trans run)
  rw [← outcome, quiet] at sent
  exact absurd sent (by simp)

end

section
/-! PROOFS. Where the end of a step fails (O47): a transfer in the step buffer from a port beyond the eight of the device, which the
statement admits. -/

set_option Elab.async false

namespace Sys2Proof.Machine

/-- A step that encodes nothing. -/
def idleStep : StepRec :=
  { op := .encode 0 0, rtz := false, restart := true, start := 0, window := 10, declared := 1, statBytes := 0, computeBeats := 0
    inBytes := 0, outBytes := 0, mergeElems := 0, ins := [], outs := [], sends := [], regionsRead := 0, regionsWritten := 0
    fabricBytes := [] }

/-- A recipe of two such steps. -/
def twoSteps : Recipe :=
  { img := { magic := 0, layout := 0, clean := true, elastic := false, shapeFlex := false, lead := true, imageBytes := 0, rows := 0
             cols := 0, minCols := 0, paceFloor := 0, self := 0, leadId := 0, keyId := 0, tileBytes := 0, group := 0, rcpBytes := 0
             startLeadNs := 0, stepBufBytes := 0, tables := [], streams := [], peers := [], slots := [], steps := [idleStep, idleStep]
             sig := [] }
    bind := [], ctx := 0, fn := 0, ring := 0, tag := 0, refused := false }

/-- The port beyond the eight of the device whose page would be that of the sheet. -/
def farPort : Nat := Pg.sht - Pg.fpt

/-- Its run, with the first step computed and a transfer of that port in the step buffer. -/
def bufferedRun : Run :=
  { handle := 0, state := .running, cmd := none, lead := none, fromStep := 0, step := 0, t0 := some 0, startNs := 0, delta := 0
    sent := true, computed := true, waiting := 0, waitSlab := 0, got := [], pos := 0, asked := none, stallAt := 0, cause := 0, cmp := 0
    readyBy := [], armedAt := 0, heard := [], adopted := false, lowest := 0, buffer := [⟨farPort, 0, []⟩], outcome := .ok
    afterUnload := false, waiters := [] }

def stepBuffered : State :=
  { State.reset with
    boot := { Boot.reset with halted := false }
    rcp := { Rcp.reset with recipes := [(0, some twoSteps)], run := some bufferedRun } }

theorem tidy_stepBuffered : Tidy stepBuffered := by constructor <;> decide

/-- The counters of the sheet after the step, before the credit of its transfer goes back. -/
def stepCounted (s : State) : State := countFree Pg.sht 0xE38 (countFree Pg.sht 0xE30 (countFree Pg.sht 0xE10 (count Pg.sht 0xE08 s)))

theorem tidy_count {p off n : Nat} {s : State} (hs : Tidy s) : Tidy (countBy p off n s) := (keeps_countBy _ _ _ _ (.refl s)).tidy hs

theorem tidy_countFree {p off : Nat} {s : State} (hs : Tidy s) : Tidy (countFree p off s) :=
  tidy_count (s := { s with draws := s.draws + 1 }) { hs with }

theorem counter_countFree_ne {p off o : Nat} {s : State} (hs : Tidy s) (h : regKey p o ≠ regKey p off) :
    counter (countFree p off s) p o = counter s p o :=
  counter_countBy_ne (s := { s with draws := s.draws + 1 }) _ _ _ { hs with } h

theorem counter_sendLink {port : Nat} {m : LinkMsg} {s : State} (rise : trising 0 s.cnts = true) :
    counter (sendLink port m s) (Pg.fpt + port) 0xE08 =
      (counter s (Pg.fpt + port) 0xE08 + linkBytes (fportAt s port).spdmDone 0) % 2 ^ 64 :=
  counter_countBy_of_rising (s := setFport port _ s) rise

/-- The credit of the transfer goes back by a link message, whose bytes count at the same place as the steps of the sheet. -/
theorem exec_stepComplete_stepBuffered : ∃ w, exec .stepComplete stepBuffered = .next (sendLink farPort (.credit 3 0 1) w) ∧
    w.cnts = (stepCounted stepBuffered).cnts ∧ w.fports = [] := ⟨_, rfl, rfl, rfl⟩

theorem counter_stepCounted : counter (stepCounted stepBuffered) Pg.sht 0xE08 = 1 ∧ Tidy (stepCounted stepBuffered) := by
  have counted : Tidy (count Pg.sht 0xE08 stepBuffered) := tidy_count tidy_stepBuffered
  have bytes := tidy_countFree (p := Pg.sht) (off := 0xE10) counted
  have more := tidy_countFree (p := Pg.sht) (off := 0xE30) bytes
  refine ⟨?_, tidy_countFree more⟩
  unfold stepCounted
  rw [counter_countFree_ne more (by decide), counter_countFree_ne bytes (by decide), counter_countFree_ne counted (by decide)]
  exact counter_countBy _ _ _ tidy_stepBuffered

end Sys2Proof.Machine

open Sys2Proof Sys2Proof.Machine

/-- Refutes O47: with a transfer of a port beyond the eight in the step buffer, the bytes of the credit that goes back count as steps of
the sheet. -/
theorem not_stepEndsAndFaults : ¬ Obligations.StepEndsAndFaults := by
  unfold Obligations.StepEndsAndFaults
  rintro ⟨complete, -⟩
  obtain ⟨next, -⟩ := complete stepBuffered bufferedRun twoSteps tidy_stepBuffered (by decide) (by decide) (by decide) (by decide)
  obtain ⟨u, run, -, -, steps, -⟩ := next (by decide)
  obtain ⟨w, same, cnts, fports⟩ := exec_stepComplete_stepBuffered
  obtain ⟨one, tidy⟩ := counter_stepCounted
  have outcome : sendLink farPort (.credit 3 0 1) w = u := Host.Outcome.next.inj (same.symm.trans run)
  have before : counter w Pg.sht 0xE08 = 1 := (counter_congr cnts _ _).trans one
  have rise : trising 0 w.cnts = true := cnts ▸ twf_trising tidy.cnts
  have bytes := counter_sendLink (port := farPort) (m := .credit 3 0 1) rise
  rw [show Pg.fpt + farPort = Pg.sht from rfl, before, fportAt, fports] at bytes
  rw [← outcome, bytes] at steps
  exact absurd steps (by decide)

end

section
/-! PROOFS. Steps of the sheet (O45): what a step that finds its operands, its destinations and its tiles does. -/

set_option Elab.async false

namespace Sys2Proof.Machine

section
variable {s v w x : State} {r : Run} {q : Recipe} {st : StepRec} {os : List Operand} {l : List Result}

/-- Results that may be written are, and the step counts as computed. -/
theorem storeResults_of_fit (fits : ResultsFit q st l v w x) (keep : List (List Nat) → State → State) :
    storeResults q st r.step l keep v = stepFormed q st (keep ((settleResults l x).1.map (·.2)) (resultsPut q r st l x)) := by
  obtain ⟨allowed, prepared, sound⟩ := fits
  unfold storeResults
  dsimp only
  rw [allowed]
  dsimp only
  rw [prepared]
  dsimp only
  unfold throughTiles
  rw [sound]
  rfl

/-- A step of the sheet that starts, with its transfers sent, forms its results from its operands. -/
theorem sheetStep_of_formed {code : Nat} {lens : StepRec → List Nat} {form : Bool → StepRec → State → List Operand → Formed}
    {keep : StepRec → List (List Nat) → State → State} (at_ : runStep s = some (r, q, st)) (starts : startable s r q st = true)
    (sent : r.sent = true) (fits : ResultsFit q st l v w x) (kind : st.op.code = code)
    (read : readOperands r q (st.ins.zip (lens st)) s = (.ok os, v)) (formed : form q.img.elastic st v os = .results l) :
    sheetStep code lens form keep s =
      stepFormed q st (keep st ((settleResults l x).1.map (·.2)) (resultsPut q r st l x)) := by
  have ready : ¬ (st.op.code ≠ code ∨ (!startable s r q st) = true) := by simp [kind, starts]
  have told : sendStep r q st s = (.ok (), s) := if_pos sent
  unfold sheetStep
  rw [at_]
  dsimp only
  rw [if_neg ready, told]
  dsimp only
  rw [read]
  dsimp only
  rw [formed]
  exact storeResults_of_fit fits (keep st)

end
end Sys2Proof.Machine

open Sys2Proof Sys2Proof.Machine

/-- Settles O45: the six operations are one step of the sheet, each with its own lengths and its own results. -/
theorem sheetStepsCompute : Obligations.SheetStepsCompute := by
  unfold Obligations.SheetStepsCompute
  intro s v w x r q st os l hw here starts sent fits
  refine ⟨fun m n k add o op read formed => ?_, fun queries keys d e o so op read formed => ?_,
    fun queries keys d norm o op read formed => ?_, fun queries keys d k base op read formed => ?_,
    fun vectors len maximum o op read formed => ?_, fun rule len scalars o op read formed => ?_⟩
  all_goals
    refine (next_whenAwake hw _).trans (congrArg Host.Outcome.next (sheetStep_of_formed (os := os) here starts sent fits (by rw [op]; rfl) ?_ ?_))
    · rw [op]
      exact read
    · rw [op]
      exact formed
end

section
/-! PROOFS. Exact arithmetic and ENCODE (O46): sums in any order, the matrix product, the order of TOPK, coded blocks. -/

set_option Elab.async false

namespace Sys2Proof.Machine

/-! Exact sums -/

/-- Two contributions may change places. -/
theorem Accum.add_right_comm (a : Accum) (x y : Val) : (a.add x).add y = (a.add y).add x := by
  cases x <;> cases y <;> simp [Accum.add, Int.add_right_comm, Bool.or_right_comm]

/-- CONTRIB counts the contributions. -/
theorem Accum.contrib_foldl_add (l : List Val) (a : Accum) : (l.foldl Accum.add a).contrib = a.contrib + l.length := by
  induction l generalizing a with
  | nil => rfl
  | cons v l ih =>
    have one : (a.add v).contrib = a.contrib + 1 := by cases v <;> rfl
    rw [List.foldl_cons, ih, one, List.length_cons]
    omega

/-- Sums that stay within the limit of R268 are results. -/
theorem formSums_of_inLimit {o : OutFmt} {rtz : Bool} {l : List Sum} (fine : ∀ x ∈ l, x.inLimit = true) :
    formSums o rtz l = .results [⟨outBytes o, l.map (Sum.out o rtz)⟩] := by
  have good : badSums l = false := by
    unfold badSums
    rw [List.any_eq_false]
    intro x hx
    simp [fine x hx]
  unfold formSums
  rw [good]
  rfl

/-- The products of row `i` and column `j`. -/
def gemmProducts (k n : Nat) (a b : Operand) (i j : Nat) : List Val :=
  (List.range k).map (fun x => (a.elem (i * k + x)).mul (b.elem (downIndex b k n x j)))

/-- An element of the exact product without an addend is the exact sum of its products. -/
theorem gemmElem_exact (rate k n : Nat) (a b c : Operand) (i j : Nat) :
    gemmElem false rate k n a b c false i j = .exact ((gemmProducts k n a b i j).foldl Accum.add Accum.empty) := rfl

/-- A short enough exact product stays within the limit. -/
theorem inLimit_gemmElem_exact {k : Nat} (hk : k < 2 ^ 60) (rate n : Nat) (a b c : Operand) (i j : Nat) :
    (gemmElem false rate k n a b c false i j).inLimit = true := by
  have count := Accum.contrib_foldl_add (gemmProducts k n a b i j) Accum.empty
  have len : (gemmProducts k n a b i j).length = k := by simp [gemmProducts]
  have small : ((gemmProducts k n a b i j).foldl Accum.add Accum.empty).contrib < 2 ^ 60 := by
    rw [count, len]
    show 0 + k < 2 ^ 60
    omega
  rw [gemmElem_exact]
  exact decide_eq_true small

/-- The exact matrix product without an addend. -/
theorem formGemm_exact {rtz : Bool} {m n k : Nat} {o : OutFmt} {a b : Operand} (rated : pairRate a b ≠ 0)
    (whole : mxWhole k [a, b] = true) (hk : k < 2 ^ 60) :
    formGemm false rtz m n k false o [a, b] = .results [⟨outBytes o, ((List.range (m * n)).map (fun i =>
      gemmElem false (pairRate a b) k n a b Operand.none false (i / n) (i % n))).map (Sum.out o rtz)⟩] := by
  have formed : ¬ (decide (pairRate a b = 0) || !mxWhole k [a, b]) = true := by simp [rated, whole]
  refine (if_neg formed).trans (formSums_of_inLimit ?_)
  intro x hx
  obtain ⟨i, -, rfl⟩ := List.mem_map.1 hx
  exact inLimit_gemmElem_exact hk _ _ _ _ _ _ _

/-! The order of TOPK -/

/-- Of two numbers at most one is the lesser. -/
theorem Val.lt_asymm {a b : Val} (h : a.lt b = true) : b.lt a = false := by
  cases a <;> cases b <;> simp_all [Val.lt]
  case fin.fin => omega

/-- Nothing lies below minus infinity. -/
theorem Val.not_lt_negInf (a : Val) : a.lt (.inf true) = false := by
  cases a <;> simp [Val.lt]

/-- Of two entries at most one comes before the other. -/
theorem topBefore_asymm {a b : TopEntry} (h : topBefore a b = true) : topBefore b a = false := by
  unfold topBefore at h ⊢
  dsimp only at h ⊢
  generalize decodeFp fmtFp32 a.score = x at h ⊢
  generalize decodeFp fmtFp32 b.score = y at h ⊢
  cases hxy : x.lt y <;> cases hyx : y.lt x <;> simp_all
  case false.false => omega
  case true.true => exact absurd (Val.lt_asymm hxy) (by simp [hyx])

/-- Entries in falling order, as TOPK gives them. -/
def Falling (l : List TopEntry) : Prop := l.IsChain (fun a b => topBefore b a = false)

/-- What an insertion puts first. -/
theorem head_insertTop (e : TopEntry) (l : List TopEntry) : ∀ y ∈ (insertTop e l).head?, y = e ∨ y ∈ l.head? := by
  cases l with
  | nil => intro y hy; exact .inl (Option.mem_some.1 hy).symm
  | cons x l =>
    intro y hy
    unfold insertTop at hy
    split at hy
    · exact .inl (Option.mem_some.1 hy).symm
    · exact .inr hy

/-- An insertion keeps the falling order. -/
theorem falling_insertTop {e : TopEntry} {l : List TopEntry} (h : Falling l) : Falling (insertTop e l) := by
  induction l with
  | nil => exact List.isChain_singleton e
  | cons x l ih =>
    obtain ⟨first, rest⟩ := List.isChain_cons.1 h
    unfold insertTop
    split
    next before => exact List.isChain_cons_cons.2 ⟨topBefore_asymm before, h⟩
    next after =>
      refine List.isChain_cons.2 ⟨fun y hy => ?_, ih rest⟩
      rcases head_insertTop e l y hy with rfl | hy
      · exact Bool.eq_false_iff.2 after
      · exact first y hy

theorem mem_insertTop {e y : TopEntry} {l : List TopEntry} (h : y ∈ insertTop e l) : y = e ∨ y ∈ l := by
  induction l with
  | nil => exact .inl (List.mem_singleton.1 h)
  | cons x l ih =>
    unfold insertTop at h
    split at h
    · exact List.mem_cons.1 h
    · rcases List.mem_cons.1 h with rfl | h
      · exact .inr List.mem_cons_self
      · exact (ih h).imp id (List.mem_cons_of_mem x)

/-- The best of some candidates, in falling order, with what all of them meet. -/
theorem falling_foldl_insertTop {k : Nat} {P : TopEntry → Prop} (l : List TopEntry) (hl : ∀ e ∈ l, P e) (a : List TopEntry)
    (ha : Falling a) (hp : ∀ e ∈ a, P e) :
    Falling (l.foldl (fun a e => (insertTop e a).take k) a) ∧ ∀ e ∈ l.foldl (fun a e => (insertTop e a).take k) a, P e := by
  induction l generalizing a with
  | nil => exact ⟨ha, hp⟩
  | cons e l ih =>
    refine ih (fun x hx => hl x (List.mem_cons_of_mem e hx)) _ ((falling_insertTop ha).take k) fun x hx => ?_
    rcases mem_insertTop (List.mem_of_mem_take hx) with rfl | hx
    · exact hl x List.mem_cons_self
    · exact hp x hx

/-- The entry that fills a list up (R286). -/
def topFiller : TopEntry := ⟨0xFF800000, 0xFFFFFFFFFFFF⟩

/-- The filler comes before no entry. -/
theorem topFiller_last {e : TopEntry} (h : e.index < 2 ^ 48) : topBefore topFiller e = false := by
  have score : decodeFp fmtFp32 topFiller.score = .inf true := by decide
  have index : ¬ topFiller.index < e.index := by
    show ¬ 0xFFFFFFFFFFFF < e.index
    omega
  unfold topBefore
  dsimp only
  rw [score, Val.not_lt_negInf, decide_eq_false index, Bool.and_false, Bool.or_false]

/-- TOPK gives k entries in falling order. -/
theorem falling_topK {k : Nat} {l : List TopEntry} (hl : ∀ e ∈ l, e.index < 2 ^ 48) :
    (topK k l).length = k ∧ Falling (topK k l) := by
  obtain ⟨order, index⟩ := falling_foldl_insertTop (k := k) (l.filter (fun e => decide (decodeFp fmtFp32 e.score ≠ .nan)))
    (fun e he => hl e (List.mem_of_mem_filter he)) [] List.isChain_nil (by simp)
  unfold topK
  dsimp only
  generalize (l.filter _).foldl _ [] = best at order index ⊢
  constructor
  · rw [List.length_append, List.length_replicate, List.length_take]
    omega
  · refine (order.take k).append (List.isChain_replicate_of_rel _ (topFiller_last (by decide))) ?_
    intro x hx y hy
    have last : y = topFiller := List.eq_of_mem_replicate (List.mem_of_mem_head? hy)
    subst last
    exact topFiller_last (index x (List.mem_of_mem_take (List.mem_of_mem_getLast? hx)))

/-! ENCODE -/

/-- An ENCODE that finds its input, its destination and its tiles puts its blocks coded. -/
theorem encodeStep_of_ready {s v w x : State} {r : Run} {q : Recipe} {st : StepRec} {len id fmt : Nat} {src : Src} {dst : Dst}
    {bs : List (List Byte)} (ins : st.ins = [src]) (outs : st.outs = [dst]) (read : readRaw r q src len s = (.ok (fmt, bs), v))
    (allowed : dstAllowed q dst len v = (true, w)) (prepared : prepareAll (dstSlabs q dst len) w = (true, x))
    (sound : meetTiles x = (none, x)) :
    encodeStep r q st len id s = stepFormed q st (putEncoded q r.step dst id fmt bs x) := by
  unfold encodeStep
  rw [ins, outs]
  dsimp only
  rw [read]
  dsimp only
  rw [allowed]
  dsimp only
  rw [prepared]
  dsimp only
  unfold throughTiles
  rw [sound]

end Sys2Proof.Machine

open Sys2Proof Sys2Proof.Machine

/-- Settles O46: contributions commute, a product of fewer than 2^60 terms stays within the limit, an insertion keeps the order. -/
theorem exactResults : Obligations.ExactResults := by
  unfold Obligations.ExactResults
  refine ⟨?product, fun p l perm => ?sum, fun k l hl => ?order, ?encode⟩
  case product =>
    intro rtz m n k o a b e rated whole hk he
    refine ⟨_, formGemm_exact rated whole hk, by simp, ?_⟩
    rw [List.map_map, List.getElem?_map, List.getElem?_range he]
    rfl
  case sum =>
    exact perm.symm.foldl_eq' (fun x _ y _ a => Accum.add_right_comm a x y) Accum.empty
  case order =>
    obtain ⟨count, falls⟩ := falling_topK (k := k) fun e he => (hl e he).2
    refine ⟨count, fun i hi => ?_⟩
    have here := List.isChain_iff_getElem.1 falls i (by omega)
    rwa [List.getD_eq_getElem _ _ (by omega), List.getD_eq_getElem _ _ (by omega)]
  case encode =>
    intro s v w x r q st len id fmt src dst bs hw here op starts sent ins outs read allowed prepared sound
    refine (next_whenAwake hw _).trans (congrArg Host.Outcome.next ?_)
    have told : sendStep r q st s = (.ok (), s) := if_pos sent
    rw [here]
    dsimp only
    rw [op]
    dsimp only
    rw [starts, told]
    exact encodeStep_of_ready ins outs read allowed prepared sound
end

section
/-! PROOFS. Runs of recipes: arming, the start, the end, and what group packets leave. O48 and O49 use these. -/

set_option Elab.async false

namespace Sys2Proof.Machine

section
variable {s t : State} {r : Run} {q : Recipe}

/-! The run and its recipe -/

theorem runRecipe_some (h : runRecipe s = some (r, q)) : s.rcp.run = some r ∧ recipeAt s r.handle = some q := by
  unfold runRecipe at h
  split at h
  next x at_ =>
    obtain ⟨p, hp, e⟩ := Option.map_eq_some_iff.1 h
    cases e
    exact ⟨at_, hp⟩
  next => cases h

theorem runRecipe_of (run : s.rcp.run = some r) (named : recipeAt s r.handle = some q) : runRecipe s = some (r, q) := by
  unfold runRecipe
  rw [run]
  exact congrArg (Option.map _) named

theorem runRecipe_congr (h : t.rcp = s.rcp) : runRecipe t = runRecipe s := by
  unfold runRecipe recipeAt
  rw [h]

theorem runRecipe_setRun {x : Run} (h : runRecipe s = some (r, q)) (same : x.handle = r.handle) :
    runRecipe (setRun (some x) s) = some (x, q) := by
  obtain ⟨-, named⟩ := runRecipe_some h
  exact runRecipe_of rfl (by rw [same]; exact named)

theorem PortsOnly.rcp (h : PortsOnly s t) : t.rcp = s.rcp := congrArg (·.rcp) h

theorem PortsOnly.now (h : PortsOnly s t) : t.now = s.now := congrArg (·.now) h

theorem PortsOnly.ftb (h : PortsOnly s t) : t.ftb = s.ftb := congrArg (·.ftb) h

theorem PortsOnly.sht (h : PortsOnly s t) : t.sht = s.sht := congrArg (·.sht) h

theorem PortsOnly.tmx (h : PortsOnly s t) : t.tmx = s.tmx := congrArg (·.tmx) h

theorem PortsOnly.claimOf (h : PortsOnly s t) (n : Nat) : claimOf t n = claimOf s n := by
  unfold Machine.claimOf
  rw [h.tmx]

theorem PortsOnly.foldl {α : Type} {f : State → α → State} (hf : ∀ s a, PortsOnly s (f s a)) (l : List α) (s : State) :
    PortsOnly s (l.foldl f s) :=
  List.foldlRecOn l f (motive := fun t => PortsOnly s t) rfl fun _ h a _ => h.trans (hf _ a)

theorem portsOnly_sendGroup (type dst group x : Nat) : PortsOnly s (sendGroup type dst group x s) := portsOnly_sendTo _ _

theorem portsOnly_poolCredits (q : Recipe) (on : Bool) : PortsOnly s (poolCredits q on s) :=
  .foldl (fun _ _ => portsOnly_setFport _ _) _ _

theorem portsOnly_dropTransfers (q : Recipe) : PortsOnly s (dropTransfers q s) := .foldl (fun _ _ => portsOnly_setFport _ _) _ _

theorem portsOnly_sendTokens (type outcome : Nat) (except : Option Nat) : PortsOnly s (sendTokens type outcome except s) := by
  unfold sendTokens
  split
  · rfl
  · exact .foldl (fun _ _ => (portsOnly_sendPkt _ _ _).trans (portsOnly_countBy _ _ _)) _ _

/-! Arming (R306, R338) -/

/-- The claim of a run on its comparator. -/
def runClaim (q : Recipe) : ClaimRec := { owner := .firmware, port := 0, user := .rcpRun, ctx := q.ctx, tap := false }

/-- A run as it is armed. -/
def armedRun (h : Nat) (cmd : Option RingCmd) (lead : Option Nat) (fromStep startNs n now : Nat) : Run :=
  { handle := h, state := .armed, cmd := cmd, lead := lead, fromStep := fromStep, step := fromStep, t0 := none,
    startNs := startNs, delta := 0, sent := false, computed := false, waiting := 0, waitSlab := 0,
    got := [], pos := 0, asked := none, stallAt := 0, cause := 0, cmp := n, readyBy := [], armedAt := now, heard := [],
    adopted := false, lowest := 4095, buffer := [], outcome := .ok, afterUnload := false, waiters := [] }

theorem freeComparator_owner {n : Nat} (h : freeComparator s = some n) : (claimOf s n).owner = .free := by
  unfold freeComparator at h
  simpa using List.find?_some h

/-- A recipe with a comparator free is armed, and holds it. -/
theorem armRun_of_free {h n fromStep startNs : Nat} {cmd : Option RingCmd} {lead : Option Nat} (free : freeComparator s = some n) :
    ∃ t, armRun h q cmd lead fromStep startNs s = some t ∧
      PortsOnly (setRun (some (armedRun h cmd lead fromStep startNs n s.now)) (setClaim n (runClaim q) s)) t := by
  have taken : takeClaim n (runClaim q) s = some (count Pg.tmx 0xE08 (setClaim n (runClaim q) s)) := if_pos (freeComparator_owner free)
  refine ⟨poolCredits q true (setRun (some (armedRun h cmd lead fromStep startNs n s.now))
    (count Pg.tmx 0xE08 (setClaim n (runClaim q) s))), ?_, .trans (portsOnly_countBy Pg.tmx 0xE08 1) (portsOnly_poolCredits q true)⟩
  unfold armRun
  rw [free]
  exact congrArg (Option.map _) taken

theorem claimOf_setClaim_runClaim (n : Nat) : claimOf (setClaim n (runClaim q) s) n = runClaim q := by
  have held : runClaim q ≠ ClaimRec.free := by simp [runClaim, ClaimRec.free]
  exact tget_tput_listed s.tmx.claims n held

/-! The start time (R306, R307) -/

theorem setStart_of_run (run : s.rcp.run = some r) (t0 : Nat) : setStart t0 s =
    { setRun (some { r with t0 := some t0 }) s with ftb := { s.ftb with cmps := tput none s.ftb.cmps r.cmp (some t0) } } := by
  unfold setStart
  rw [run]

theorem setStart_cmps (run : s.rcp.run = some r) (t0 : Nat) : tget none (setStart t0 s).ftb.cmps r.cmp = some t0 := by
  rw [setStart_of_run run]
  exact tget_tput_listed s.ftb.cmps r.cmp (Option.some_ne_none t0)

/-- The lead tells its peers, and sets the start. -/
theorem giveStart_of_run (at_ : runRecipe s = some (r, q)) :
    ∃ v, PortsOnly s v ∧ giveStart s = setStart (chooseT0 s.now r.startNs q.img.startLeadNs) v := by
  refine ⟨_, ?_, by unfold giveStart; rw [at_]⟩
  exact .foldl (fun _ _ => portsOnly_sendGroup _ _ _ _) _ _

/-! Disarming -/

/-- The state without the credit of the run's recipe. -/
def uncredited (r : Run) (s : State) : State :=
  match recipeAt s r.handle with
  | some q => poolCredits q false s
  | none => s

theorem portsOnly_uncredited (r : Run) : PortsOnly s (uncredited r s) := by
  unfold uncredited
  split
  · exact portsOnly_poolCredits _ _
  · rfl

theorem freeRunComparator_kept (n : Nat) : (freeRunComparator n s).rcp = s.rcp ∧ (freeRunComparator n s).mem = s.mem := by
  unfold freeRunComparator
  split <;> exact ⟨rfl, rfl⟩

theorem disarm_eq (run : s.rcp.run = some r) (armed : r.state = .armed) :
    disarm s = freeRunComparator r.cmp (setRun none (uncredited r s)) := by
  unfold disarm
  rw [run]
  exact if_pos armed

/-- A run that was armed is gone, and its comparator with it. -/
theorem disarm_of_armed (run : s.rcp.run = some r) (armed : r.state = .armed) :
    (disarm s).rcp = { s.rcp with run := none } ∧ (disarm s).mem = s.mem := by
  have left : PortsOnly s (uncredited r s) := portsOnly_uncredited r
  rw [disarm_eq run armed, (freeRunComparator_kept r.cmp).1, (freeRunComparator_kept r.cmp).2]
  refine ⟨?_, left.mem⟩
  show { (uncredited r s).rcp with run := none } = _
  rw [left.rcp]

/-! The end of a run (R313) -/

/-- The run with its stall over, as of the state's time. -/
def resumedRun (s : State) (r : Run) : Run :=
  if r.state = .stalled then { r with state := .running, delta := r.delta + ceilDiv (s.now - r.stallAt) 1024 } else r

/-- The run as it ends. -/
def endedRun (o : Status) (s : State) (r : Run) : Run :=
  { resumedRun s r with state := .ending, outcome := o, computed := false, lowest := min r.lowest r.step }

theorem resumedRun_kept (s : State) (r : Run) : (resumedRun s r).lowest = r.lowest ∧ (resumedRun s r).step = r.step ∧
    (resumedRun s r).waiters = r.waiters := by
  unfold resumedRun
  split <;> exact ⟨rfl, rfl, rfl⟩

theorem endStall_rcp (run : s.rcp.run = some r) : (endStall s).rcp = { s.rcp with run := some (resumedRun s r) } := by
  unfold endStall resumedRun
  rw [run]
  dsimp only
  split
  · rfl
  · rw [← run]

/-- The peers are told of an end other than OK, and no transfer goes to them any more. -/
def endTold (o : Status) (s : State) : State :=
  if o = .ok then s
  else sendTokens 0x22 o.code none (match runRecipe s with | some (_, q) => dropTransfers q s | none => s)

theorem portsOnly_endTold (o : Status) : PortsOnly s (endTold o s) := by
  unfold endTold
  split
  · rfl
  · refine .trans ?_ (portsOnly_sendTokens _ _ _)
    split
    · exact portsOnly_dropTransfers _
    · rfl

theorem endRun_eq (o : Status) (run : s.rcp.run = some r) (on : r.state ≠ .ending) :
    endRun o s = zeroTileStores (modRun (fun r => { r with
      state := .ending, outcome := o, computed := false, lowest := min r.lowest r.step }) (endTold o (endStall s))) := by
  unfold endRun
  rw [run]
  exact if_neg on

/-- What the end of a run leaves of recipes and of the sheet. -/
theorem endRun_of_run (o : Status) (run : s.rcp.run = some r) (on : r.state ≠ .ending) :
    (endRun o s).rcp = { s.rcp with run := some (endedRun o s r) } ∧ (endRun o s).sht.zeroing = true := by
  have told : (endTold o (endStall s)).rcp = { s.rcp with run := some (resumedRun s r) } :=
    (portsOnly_endTold o).rcp.trans (endStall_rcp run)
  obtain ⟨lowest, step, -⟩ := resumedRun_kept s r
  rw [endRun_eq o run on]
  refine ⟨?_, rfl⟩
  unfold zeroTileStores setSht modRun setRun endedRun
  dsimp only
  rw [told, ← lowest, ← step]
  rfl

theorem endRun_mem (o : Status) : (endRun o s).mem = s.mem := (scalesOnly_endRun o).mem

/-! Fabric ports in a state that is not known to be tidy -/

section
variable {port : Nat}

/-- A port with a state other than that of reset keeps what is written to it, and no other port changes. -/
theorem fportAt_setFport_listed {v : FPort} (hv : v ≠ FPort.reset) (p : Nat) :
    fportAt (setFport port v s) p = if p = port then v else fportAt s p := by
  have listed : tput FPort.reset s.fports port v = tins s.fports port v := if_neg hv
  unfold fportAt setFport tget
  dsimp only
  rw [listed]
  split
  next same => rw [same, tfind_tins_same]; rfl
  next other => rw [tfind_tins_ne other]

theorem ne_reset_of_up {v : FPort} (up : v.state = .up) : v ≠ FPort.reset := by
  rintro rfl
  exact absurd up (by decide)

theorem lineCounts_setFport_up {v : FPort} (line : LineCounts (fportAt s port) v) (up : v.state = .up) (p : Nat) :
    LineCounts (fportAt s p) (fportAt (setFport port v s) p) := by
  rw [fportAt_setFport_listed (ne_reset_of_up up)]
  split
  next same => rw [same]; exact line
  next other => rfl

/-- A packet that arrives on a port that is UP changes the counts of lines alone. -/
theorem lineCounts_rxPacket_up (up : (fportAt s port).state = .up) (type vl len p : Nat) :
    LineCounts (fportAt s p) (fportAt (rxPacket port type vl len s) p) := by
  unfold rxPacket
  extract_lets v s1
  have more : LineCounts (fportAt s port) { v with rxPackets := v.rxPackets + (if v.spdmDone then 1 else 0) } := rfl
  have came : ∀ p, LineCounts (fportAt s p) (fportAt s1 p) := lineCounts_setFport_up more up
  have still : (fportAt s1 port).state = .up := (congrArg (·.state) (came port)).trans up
  have counted : LineCounts (fportAt s1 port) { fportAt s1 port with
      txPackets := (fportAt s1 port).txPackets + (if (fportAt s1 port).spdmDone then 1 else 0)
      txSeq := ((fportAt s1 port).txSeq + 1) % 4096 } := rfl
  split
  · exact (came p).trans (lineCounts_setFport_up counted still p)
  · exact came p

end

end
end Sys2Proof.Machine
end

section
/-! PROOFS. A group of devices (O49): its start and its run, packet by packet. -/

set_option Elab.async false

namespace Sys2Proof.Machine

section
variable {s t : State} {r : Run} {q : Recipe} {fport src group : Nat}

/-! What a packet that came leaves of the run -/

/-- A group packet that arrives is taken in the state that its arrival leaves. -/
theorem next_arrive (hw : Awake s) (ha : Arrives s fport src) (type vl len : Nat) (body : State → State) :
    Host.Outcome.next (whenAwake s (arrive fport type src vl len body)) =
      (.next (body (rxPacket fport type vl len s)) : Host.Outcome State Fault Refusal) :=
  (next_whenAwake hw _).trans (congrArg Host.Outcome.next (arrive_of_arrives fport ha _ _ _ body))

theorem leading_portsOnly (h : PortsOnly s t) : leading t group src = leading s group src := by
  unfold leading
  rw [runRecipe_congr h.rcp]

theorem following_portsOnly (h : PortsOnly s t) : following t group src = following s group src := by
  unfold following
  rw [runRecipe_congr h.rcp]

theorem recipeOf_portsOnly (h : PortsOnly s t) (lead : Nat) : recipeOf t group lead = recipeOf s group lead := by
  unfold recipeOf
  rw [h.rcp]

/-- What may be armed is decided by the run, the sheet and the widths of the ports. -/
theorem armRefusal_congr (h : PortsOnly s t) (width : ∀ p, (fportAt t p).width = (fportAt s p).width) (fromStep : Nat) :
    armRefusal t q fromStep = armRefusal s q fromStep := by
  unfold armRefusal shapeFits slotsFit stepFits slotBytes
  simp only [h.rcp, h.sht, width]

theorem freeComparator_portsOnly (h : PortsOnly s t) : freeComparator t = freeComparator s := by
  unfold freeComparator
  simp only [h.claimOf]

theorem leading_some (h : leading s group src = some (r, q)) :
    runRecipe s = some (r, q) ∧ r.state = .armed ∧ r.lead = none ∧ r.t0 = none := by
  unfold leading at h
  split at h
  next x p at_ =>
    split at h
    next ok =>
      cases h
      exact ⟨at_, ok.1, ok.2.1, ok.2.2.1⟩
    next => cases h
  next => cases h

theorem following_some (h : following s group src = some r) : ∃ q, runRecipe s = some (r, q) ∧ r.state = .armed := by
  unfold following at h
  split at h
  next x p at_ =>
    split at h
    next ok =>
      cases h
      exact ⟨p, at_, ok.1⟩
    next => cases h
  next => cases h

theorem runFor_some (h : runFor s fport src group = some (r, q)) : runRecipe s = some (r, q) := by
  unfold runFor at h
  split at h
  next x p at_ =>
    split at h
    · cases h
      exact at_
    · cases h
  next => cases h

theorem runFor_congr (h : PortsOnly s t) (partner : (fportAt t fport).partner = (fportAt s fport).partner) :
    runFor t fport src group = runFor s fport src group := by
  unfold runFor
  rw [runRecipe_congr h.rcp, partner]

theorem runFor_rxPacket (ha : Arrives s fport src) (type vl len : Nat) :
    runFor (rxPacket fport type vl len s) fport src group = runFor s fport src group :=
  runFor_congr (portsOnly_rxPacket _ _ _ _) (congrArg (·.partner) (lineCounts_rxPacket_up ha.2.1 type vl len fport))

/-- The recipes, with another run. -/
def rcpWithRun (x : Option Run) (v : Rcp) : Rcp := { v with run := x }

theorem setRun_rcp (h : PortsOnly s t) (x : Option Run) : (setRun x t).rcp = { s.rcp with run := x } :=
  congrArg (rcpWithRun x) h.rcp

/-! ARM -/

theorem answerArm_of_ready {a : HeldArm} {h n : Nat} (named : recipeOf s a.group a.lead = some (h, q))
    (may : armRefusal s q a.fromStep = none) (free : freeComparator s = some n) :
    PortsOnly (setRun (some (armedRun h none (some a.lead) a.fromStep 0 n s.now)) (setClaim n (runClaim q) s)) (answerArm a s) := by
  obtain ⟨t, armed, left⟩ := armRun_of_free (q := q) (h := h) (cmd := none) (lead := some a.lead) (fromStep := a.fromStep)
    (startNs := 0) free
  unfold answerArm
  rw [named]
  dsimp only
  rw [may]
  dsimp only
  rw [armed]
  exact left.trans (portsOnly_sendGroup _ _ _ _)

/-- ARM of a group whose recipe is loaded and may be armed is answered by arming. -/
theorem exec_arm_of_ready {h n fromStep : Nat} (hw : Awake s) (ha : Arrives s fport src) (named : recipeOf s group src = some (h, q))
    (lists : listsPeer q src = true) (loaded : s.rcp.loads.any (fun l => decide (l.handle = h)) = false)
    (may : armRefusal s q fromStep = none) (free : freeComparator s = some n) :
    ∃ v u, PortsOnly s v ∧ PortsOnly (setRun (some (armedRun h none (some src) fromStep 0 n v.now)) (setClaim n (runClaim q) v)) u ∧
      exec (.arm fport src group src fromStep) s = .next u := by
  have came : PortsOnly s (rxPacket fport 0x23 0 24 s) := portsOnly_rxPacket _ _ _ _
  have widths : ∀ p, (fportAt (rxPacket fport 0x23 0 24 s) p).width = (fportAt s p).width :=
    fun p => congrArg (·.width) (lineCounts_rxPacket_up ha.2.1 _ _ _ p)
  refine ⟨_, _, came, answerArm_of_ready (a := ⟨fport, src, group, src, fromStep⟩) ((recipeOf_portsOnly came src).trans named)
    ((armRefusal_congr came widths fromStep).trans may) ((freeComparator_portsOnly came).trans free), ?_⟩
  refine (next_arrive hw ha _ _ _ _).trans (congrArg Host.Outcome.next ?_)
  rw [recipeOf_portsOnly came, named]
  dsimp only
  rw [if_neg (by simp [lists]), came.rcp, loaded]
  rfl

/-! READY, REFUSE and READY_TIMEOUT -/

theorem readyBy_new (new : r.readyBy.contains src = false) :
    (if r.readyBy.contains src then r.readyBy else r.readyBy ++ [src]) = r.readyBy ++ [src] :=
  if_neg (by rw [new]; exact Bool.false_ne_true)

/-- READY of a peer that is not the last is noted. -/
theorem exec_ready_of_more (hw : Awake s) (ha : Arrives s fport src) (leads : leading s group src = some (r, q))
    (new : r.readyBy.contains src = false) (more : ∃ p ∈ q.img.peers, p.dev ≠ src ∧ r.readyBy.contains p.dev = false) :
    ∃ v, PortsOnly s v ∧ exec (.ready fport src group) s = .next (setRun (some { r with readyBy := r.readyBy ++ [src] }) v) := by
  have came : PortsOnly s (rxPacket fport 0x24 0 16 s) := portsOnly_rxPacket _ _ _ _
  have open_ : q.img.peers.all (fun p => (r.readyBy ++ [src]).contains p.dev) = false := by
    obtain ⟨p, mem, other, silent⟩ := more
    refine List.all_eq_false.2 ⟨p, mem, ?_⟩
    simp only [List.contains_eq_mem, decide_eq_false_iff_not] at silent
    simp [silent, other]
  refine ⟨_, came, (next_arrive hw ha _ _ _ _).trans (congrArg Host.Outcome.next ?_)⟩
  rw [leading_portsOnly came, leads]
  dsimp only
  rw [readyBy_new new, open_]
  rfl

/-- READY of the last peer gives the start. -/
theorem exec_ready_of_last (hw : Awake s) (ha : Arrives s fport src) (leads : leading s group src = some (r, q))
    (new : r.readyBy.contains src = false) (all : ∀ p ∈ q.img.peers, p.dev = src ∨ r.readyBy.contains p.dev = true) :
    ∃ v, PortsOnly (setRun (some { r with readyBy := r.readyBy ++ [src] }) s) v ∧
      exec (.ready fport src group) s = .next (setStart (chooseT0 s.now r.startNs q.img.startLeadNs) v) := by
  have came : PortsOnly s (rxPacket fport 0x24 0 16 s) := portsOnly_rxPacket _ _ _ _
  have full : q.img.peers.all (fun p => (r.readyBy ++ [src]).contains p.dev) = true := by
    refine List.all_eq_true.2 fun p mem => ?_
    rcases all p mem with same | ready
    · simp [same]
    · simp only [List.contains_eq_mem, decide_eq_true_eq] at ready
      simp [ready]
  have at_ : runRecipe (setRun (some { r with readyBy := r.readyBy ++ [src] }) (rxPacket fport 0x24 0 16 s)) =
      some ({ r with readyBy := r.readyBy ++ [src] }, q) :=
    runRecipe_setRun ((runRecipe_congr came.rcp).trans (leading_some leads).1) rfl
  obtain ⟨v, told, started⟩ := giveStart_of_run at_
  refine ⟨v, ?_, (next_arrive hw ha _ _ _ _).trans (congrArg Host.Outcome.next ?_)⟩
  · refine PortsOnly.trans ?_ told
    unfold PortsOnly
    rw [came]
    rfl
  · rw [leading_portsOnly came, leads]
    dsimp only
    rw [readyBy_new new, full]
    refine Eq.trans ?_ (started.trans ?_)
    · rfl
    · exact congrArg (fun n => setStart (chooseT0 n r.startNs q.img.startLeadNs) v) came.now

/-- A start that fails leaves no run, and its RUN ends with RECIPE_PEER. -/
theorem failStart_of_armed {c : RingCmd} (run : s.rcp.run = some r) (armed : r.state = .armed) (cmd : r.cmd = some c) :
    ∃ u, failStart r q s = complete c Opc.run .recipePeer 0 u ∧ u.rcp = { s.rcp with run := none } ∧ u.mem = s.mem := by
  have told : PortsOnly (disarm s) (r.readyBy.foldl (fun s d => sendGroup 0x26 d q.img.group 0 s) (disarm s)) :=
    .foldl (fun _ _ => portsOnly_sendGroup _ _ _ _) _ _
  obtain ⟨gone, mem⟩ := disarm_of_armed run armed
  refine ⟨_, ?_, told.rcp.trans gone, told.mem.trans mem⟩
  unfold failStart
  rw [cmd]

/-! The run -/

/-- A greater offset is taken, and sent on. -/
theorem adopt_rcp {delta : Nat} (run : s.rcp.run = some r) (on : r.state ≠ .ending) :
    (adopt fport delta s).rcp = { s.rcp with run := some { r with delta := max r.delta delta } } ∧
      (adopt fport delta s).mem = s.mem := by
  unfold adopt
  rw [run]
  dsimp only
  split
  next more =>
    have sent : PortsOnly (setRun (some { r with delta := delta }) s)
        (sendTokens 0x21 0 (some fport) (setRun (some { r with delta := delta }) s)) := portsOnly_sendTokens _ _ _
    rw [sent.rcp, sent.mem, Nat.max_eq_right (Nat.le_of_lt more.1)]
    exact ⟨rfl, rfl⟩
  next less =>
    have kept : max r.delta delta = r.delta := Nat.max_eq_left (Nat.le_of_not_lt fun more => less ⟨more, on⟩)
    rw [kept, ← run]
    exact ⟨rfl, rfl⟩

/-- BARRIER of a peer of the run. -/
theorem exec_barrier_of_run (hw : Awake s) (ha : Arrives s fport src) (at_ : runFor s fport src group = some (r, q))
    (on : r.state ≠ .ending) (step delta : Nat) :
    ∃ u, exec (.barrier fport src group step delta) s = .next u ∧ u.mem = s.mem ∧
      u.rcp = { s.rcp with run := some { r with heard := tins r.heard src s.now, adopted := r.adopted || decide (step = r.step),
                                                delta := max r.delta delta } } := by
  have came : PortsOnly s (rxPacket fport 0x21 0 8 s) := portsOnly_rxPacket _ _ _ _
  obtain ⟨rcp, mem⟩ := adopt_rcp (fport := fport) (delta := delta)
    (s := count Pg.rcp 0xE48 (setRun (some { r with
      heard := tins r.heard src s.now, adopted := r.adopted || decide (step = r.step) }) (rxPacket fport 0x21 0 8 s))) rfl on
  refine ⟨_, (next_arrive hw ha _ _ _ _).trans (congrArg Host.Outcome.next ?_), mem.trans came.mem, rcp.trans ?_⟩
  · rw [runFor_rxPacket ha, at_, came.now]
  · exact setRun_rcp came _

/-- An ABORT token ends the run with its outcome, and the lowest step is kept. -/
theorem exec_abortToken_of_run (hw : Awake s) (ha : Arrives s fport src) (at_ : runFor s fport src group = some (r, q))
    (on : r.state ≠ .ending) {step outcome : Nat} {st : Status} (carries : tokenOutcome outcome = some st) :
    ∃ u x, exec (.abortToken fport src group step outcome) s = .next u ∧ u.rcp.run = some x ∧ x.state = .ending ∧ x.outcome = st ∧
      x.lowest = min (min r.lowest step) r.step ∧ u.sht.zeroing = true ∧ u.mem = s.mem := by
  have came : PortsOnly s (rxPacket fport 0x22 0 8 s) := portsOnly_rxPacket _ _ _ _
  obtain ⟨rcp, zeroing⟩ := endRun_of_run st (s := count Pg.rcp 0xE48 (setRun (some { r with
    heard := tins r.heard src s.now, lowest := min r.lowest step }) (rxPacket fport 0x22 0 8 s))) rfl on
  refine ⟨_, _, (next_arrive hw ha _ _ _ _).trans (congrArg Host.Outcome.next ?_), congrArg (·.run) rcp, rfl, rfl, rfl, zeroing,
    (endRun_mem st).trans came.mem⟩
  rw [runFor_rxPacket ha, at_, carries, came.now]

/-- The run with a transfer of a peer in its step buffer. -/
def runWithTransfer (src now : Nat) (x : Transfer) (r : Run) : Run :=
  { r with heard := tins r.heard src now, buffer := r.buffer ++ [x] }

/-- A transfer for the step of the run, or the next, enters the step buffer. -/
theorem exec_rcpData_of_run (hw : Awake s) (ha : Arrives s fport src) (at_ : runFor s fport src group = some (r, q))
    (on : r.state ≠ .ending) {step : Nat} (near : step = r.step ∨ step = r.step + 1) (delta : Nat) (data : List Byte) :
    ∃ u, exec (.rcpData fport src group step delta data) s = .next u ∧ u.mem = s.mem ∧
      u.rcp = { s.rcp with run := some { r with heard := tins r.heard src s.now, delta := max r.delta delta,
                                                buffer := r.buffer ++ [{ fport := fport, step := step, data := data }] } } := by
  obtain ⟨bound, up, -⟩ := ha
  have port : fportUp s fport = true := by simp [fportUp, bound, up]
  have taken : ¬ (r.state = .ending ∨ (step ≠ r.step ∧ step ≠ r.step + 1)) := by
    rintro (h | ⟨h, k⟩)
    · exact on h
    · exact near.elim h k
  have came : PortsOnly (setRun (some (runWithTransfer src s.now ⟨fport, step, data⟩ r)) s)
    (rxPacket fport 0x20 0 data.length (setRun (some (runWithTransfer src s.now ⟨fport, step, data⟩ r)) s)) := portsOnly_rxPacket _ _ _ _
  obtain ⟨rcp, mem⟩ := adopt_rcp (fport := fport) (delta := delta) (r := runWithTransfer src s.now ⟨fport, step, data⟩ r)
    (congrArg (·.run) came.rcp) on
  refine ⟨_, (next_whenAwake hw _).trans (congrArg Host.Outcome.next ?_), mem.trans came.mem, rcp.trans ?_⟩
  · rw [port, at_]
    exact if_neg taken
  · rw [came.rcp]
    rfl

end
end Sys2Proof.Machine

open Sys2Proof Sys2Proof.Machine

/-- Settles O49: what comes leaves the run as it was, and each packet then changes the run alone. -/
theorem groupStartAndRun : Obligations.GroupStartAndRun := by
  unfold Obligations.GroupStartAndRun
  refine ⟨fun s fport src group hw ha => ⟨?arm, ?ready, ?fail, ?follow⟩, fun s fport src group r q hw ha at_ on =>
    ⟨exec_barrier_of_run hw ha at_ on, fun step outcome st carries _ => exec_abortToken_of_run hw ha at_ on carries, ?silent,
      fun step delta data near => exec_rcpData_of_run hw ha at_ on near delta data⟩⟩
  case arm =>
    intro h n fromStep q named lists loaded may free
    obtain ⟨v, u, came, armed, run⟩ := exec_arm_of_ready hw ha named lists loaded may free
    refine ⟨u, _, run, congrArg (·.run) armed.rcp, rfl, rfl, rfl, rfl, rfl, rfl, rfl, ?_, ?_, armed.mem.trans came.mem⟩
    · rw [armed.claimOf]
      exact congrArg (·.user) (claimOf_setClaim_runClaim (s := v) n)
    · exact (congrArg (·.recipes) armed.rcp).trans (congrArg (·.recipes) came.rcp)
  case ready =>
    intro r q leads new
    constructor
    · intro more
      obtain ⟨v, came, run⟩ := exec_ready_of_more hw ha leads new more
      refine ⟨_, run, ?_⟩
      exact setRun_rcp came _
    · intro all
      obtain ⟨v, came, run⟩ := exec_ready_of_last hw ha leads new all
      have now : v.rcp.run = some { r with readyBy := r.readyBy ++ [src] } := congrArg (·.run) came.rcp
      refine ⟨_, run, ?_, setStart_cmps now _⟩
      rw [setStart_of_run now]
      exact setRun_rcp came _
  case fail =>
    intro r q c status leads cmd
    obtain ⟨at_, armed, alone, unset⟩ := leading_some leads
    constructor
    · have came : PortsOnly s (rxPacket fport 0x25 0 16 s) := portsOnly_rxPacket _ _ _ _
      obtain ⟨u, failed, rcp, mem⟩ := failStart_of_armed (q := q) ((congrArg (·.run) came.rcp).trans (runRecipe_some at_).1) armed cmd
      refine ⟨u, (next_arrive hw ha _ _ _ _).trans (congrArg Host.Outcome.next ?_), ?_, mem.trans came.mem⟩
      · rw [leading_portsOnly came, leads]
        exact failed
      · rw [rcp, came.rcp]
    · intro late
      obtain ⟨u, failed, rcp, mem⟩ := failStart_of_armed (q := q) (runRecipe_some at_).1 armed cmd
      refine ⟨u, (next_whenAwake hw _).trans (congrArg Host.Outcome.next ?_), rcp, mem⟩
      rw [at_]
      exact (if_pos ⟨armed, alone, unset, late⟩).trans failed
  case follow =>
    intro r t0 follows
    obtain ⟨q, at_, armed⟩ := following_some follows
    have run := (runRecipe_some at_).1
    refine ⟨?_, fun early => ?_, fun late => ?_⟩
    · have came : PortsOnly s (rxPacket fport 0x26 0 16 s) := portsOnly_rxPacket _ _ _ _
      obtain ⟨rcp, mem⟩ := disarm_of_armed ((congrArg (·.run) came.rcp).trans run) armed
      refine ⟨_, (next_arrive hw ha _ _ _ _).trans (congrArg Host.Outcome.next ?_), rcp.trans (by rw [came.rcp]), mem.trans came.mem⟩
      rw [following_portsOnly came, follows]
    · have came : PortsOnly s (rxPacket fport 0x27 0 16 s) := portsOnly_rxPacket _ _ _ _
      have now := (congrArg (·.run) came.rcp).trans run
      refine ⟨setStart t0 (rxPacket fport 0x27 0 16 s), (next_arrive hw ha _ _ _ _).trans (congrArg Host.Outcome.next ?_), ?_,
        setStart_cmps now t0⟩
      · rw [following_portsOnly came, follows]
        exact if_neg (by rw [came.now]; omega)
      · rw [setStart_of_run now]
        exact setRun_rcp came _
    · have came : PortsOnly s (rxPacket fport 0x27 0 16 s) := portsOnly_rxPacket _ _ _ _
      obtain ⟨rcp, -⟩ := endRun_of_run .runPeerLost ((congrArg (·.run) came.rcp).trans run) (by rw [armed]; decide)
      refine ⟨_, _, (next_arrive hw ha _ _ _ _).trans (congrArg Host.Outcome.next ?_), congrArg (·.run) rcp, rfl, rfl⟩
      rw [following_portsOnly came, follows]
      exact if_pos (by rw [came.now]; exact late)
  case silent =>
    intro dev runs waits lists late
    have here := runFor_some at_
    obtain ⟨rcp, -⟩ := endRun_of_run .runPeerLost (runRecipe_some here).1 on
    refine ⟨_, _, (next_whenAwake hw _).trans (congrArg Host.Outcome.next ?_), congrArg (·.run) rcp, rfl, rfl, endRun_mem _⟩
    rw [here]
    exact if_pos (by simp [runs, waits, lists, late])
end

section
/-! PROOFS. A recipe (O48): loaded or refused, armed and started, aborted and unloaded. -/

set_option Elab.async false

namespace Sys2Proof.Machine

section
variable {s t v w : State} {r : RingCmd} {q : Recipe} {x : Run} {ctx h : Nat}

/-! What a change of demand leaves of the recipes (R239) -/

/-- A recipe apart from its mark of over-admission. -/
def Recipe.unmarked (q : Recipe) : Recipe := { q with refused := false }

/-- Apart from marks of over-admission the loaded recipes are the same. -/
def SameRecipes (s t : State) : Prop := ∀ k, (recipeAt t k).map Recipe.unmarked = (recipeAt s k).map Recipe.unmarked

theorem SameRecipes.trans {u : State} (a : SameRecipes s t) (b : SameRecipes t u) : SameRecipes s u := fun k => (b k).trans (a k)

theorem sameRecipes_of_eq (e : t.rcp.recipes = s.rcp.recipes) : SameRecipes s t := fun k => by
  unfold recipeAt
  rw [e]

theorem SameRecipes.isSome (a : SameRecipes s t) (k : Nat) : (recipeAt t k).isSome = (recipeAt s k).isSome := by
  have e := congrArg Option.isSome (a k)
  rwa [Option.isSome_map, Option.isSome_map] at e

theorem SameRecipes.some (a : SameRecipes s t) {k : Nat} (at_ : recipeAt s k = some q) :
    ∃ p, recipeAt t k = some p ∧ p.unmarked = q.unmarked := by
  have e := a k
  rw [at_] at e
  exact Option.map_eq_some_iff.1 e

theorem SameRecipes.none (a : SameRecipes s t) {k : Nat} (at_ : recipeAt s k = none) : recipeAt t k = none := by
  have e := a k
  rw [at_] at e
  exact Option.map_eq_none_iff.1 e

theorem endRun_recipes (o : Status) : (endRun o s).rcp.recipes = s.rcp.recipes := by
  cases run : s.rcp.run with
  | none =>
    unfold endRun
    rw [run]
  | some x =>
    by_cases on : x.state = .ending
    · unfold endRun
      rw [run]
      exact congrArg (fun t : State => t.rcp.recipes) (if_pos on)
    · rw [(endRun_of_run o run on).1]

theorem stepFaultAt_recipes (cause : Nat) : (stepFaultAt cause s).rcp.recipes = s.rcp.recipes := by
  unfold stepFaultAt stepFault
  split
  · rfl
  · split
    · rfl
    · exact endRun_recipes _

/-- A mark of over-admission changes nothing else of a table of recipes. -/
theorem tget_marked {l : Tbl (Option Recipe)} (wf : twf none l = true) {f : Nat → Option Recipe → Option Recipe}
    (marks : ∀ k p, (f k p).map Recipe.unmarked = p.map Recipe.unmarked) (k : Nat) :
    (tget none (tmap none f l) k).map Recipe.unmarked = (tget none l k).map Recipe.unmarked := by
  rw [tget_tmap _ _ wf]
  unfold tget
  cases tfind l k with
  | none => rfl
  | some p => exact marks k p

theorem sameRecipes_refuseStreams (c : Nat) (hs : Tidy s) : SameRecipes s (refuseStreams c s) := by
  unfold refuseStreams
  extract_lets hit mark src s1
  have marked : SameRecipes s s1 := fun k => by
    refine tget_marked hs.recipes (fun k p => ?_) k
    simp only [mark]
    split
    · cases p <;> rfl
    · rfl
  split
  · split
    · exact marked.trans (sameRecipes_of_eq (stepFaultAt_recipes _))
    · exact marked
  · exact marked

theorem updateScales_rcp : (updateScales s).rcp = s.rcp := by
  unfold updateScales
  refine List.foldlRecOn ctrlIndices _ (motive := fun t : State => t.rcp = s.rcp) rfl fun t e c _ => ?_
  refine Eq.trans ?_ e
  dsimp only
  (repeat' split) <;> rfl

theorem sameRecipes_settleScales (hs : Tidy s) : SameRecipes s (settleScales s) := by
  have start : Tidy (updateScales s) ∧ SameRecipes s (updateScales s) :=
    ⟨(keeps_updateScales s (.refl s)).tidy hs, sameRecipes_of_eq (congrArg (·.recipes) updateScales_rcp)⟩
  refine And.right (List.foldlRecOn ctrlIndices _ (motive := fun t : State => Tidy t ∧ SameRecipes s t) start fun t e c _ => ?_)
  split
  · exact ⟨(keeps_refuseStreams c t (.refl t)).tidy e.1, e.2.trans (sameRecipes_refuseStreams c e.1)⟩
  · exact e

theorem settleScales_streams : (settleScales s).rlg.streams = s.rlg.streams := by
  have updated : (updateScales s).rlg.streams = s.rlg.streams := by
    unfold updateScales
    refine List.foldlRecOn ctrlIndices _ (motive := fun t : State => t.rlg.streams = s.rlg.streams) rfl fun t e c _ => ?_
    refine Eq.trans ?_ e
    dsimp only
    (repeat' split) <;> rfl
  unfold settleScales
  refine List.foldlRecOn ctrlIndices _ (motive := fun t : State => t.rlg.streams = s.rlg.streams) updated fun t e c _ => ?_
  split
  · rw [refuseStreams_rlg, e]
  · exact e

/-! LOAD_RECIPE -/

/-- From `s` to `t` only demand, tables and counters changed. -/
def BooksOnly (s t : State) : Prop := t = { s with rlg := t.rlg, ppu := t.ppu, cnts := t.cnts }

theorem BooksOnly.foldl {α : Type} {f : State → α → State} (hf : ∀ s a, BooksOnly s (f s a)) (l : List α) :
    BooksOnly s (l.foldl f s) :=
  List.foldlRecOn l f (motive := fun t => BooksOnly s t) rfl fun t e a _ => (hf t a).trans (by rw [e])

theorem booksOnly_bookStreams (i : Image) (bind : List Nat) : BooksOnly s (bookStreams h i bind s) := by
  have assigned : ∀ (s : State) (slab : Nat), BooksOnly s (assignHome slab s) := fun s slab => by
    unfold assignHome
    dsimp only
    split <;> rfl
  refine .foldl (fun s a => ?_) _
  refine Eq.trans (BooksOnly.foldl (fun s a => assigned s a) _) ?_
  rfl

theorem booksOnly_installTables (i : Image) : BooksOnly s (installTables i s) := by
  refine .foldl (fun s a => ?_) _
  split <;> rfl

theorem ringsOnly_setHport (port : Nat) (v : HPort) : RingsOnly s (setHport port v s) := by
  unfold setHport
  split <;> rfl

theorem ringsOnly_endTag (op : Nat) (late : Bool) : RingsOnly s (endTag r op late s) := by
  unfold endTag
  split
  · rfl
  · split
    · rfl
    · split <;> exact ringsOnly_setHport _ _

/-- The recipe as it is entered. -/
def enteredRecipe (r : RingCmd) (ctx notify tag : Nat) (i : Image) (bind : List Nat) : Recipe :=
  { img := i, bind := bind, ctx := ctx, fn := r.fn, ring := notify, tag := tag, refused := false }

/-- The state that an admitted recipe leaves, but for its completion. -/
def enteredState (r : RingCmd) (h ctx notify tag : Nat) (i : Image) (bind : List Nat) (s : State) : State :=
  endTag r Opc.loadRecipe false (settleScales (admitted (count Pg.rcp 0xE08 (installTables i
    (setRecipe h (some (enteredRecipe r ctx notify tag i bind)) s)))))

theorem enterRecipe_at_once (notify tag : Nat) (i : Image) (bind : List Nat) : enterRecipe r h ctx notify tag i bind false s =
    complete r Opc.loadRecipe .ok h (enteredState r h ctx notify tag i bind s) := rfl

theorem tidy_installed (q : Recipe) (i : Image) (hs : Tidy s) :
    Tidy (admitted (count Pg.rcp 0xE08 (installTables i (setRecipe h (some q) s)))) :=
  (keeps_admitted _ (keeps_countBy _ _ _ _ (keeps_installTables i _ (keeps_setRecipe h (some q) s (.refl s))))).tidy hs

/-- The recipe is entered under its handle; memory and map are as before. -/
theorem enteredState_holds (notify tag : Nat) (i : Image) (bind : List Nat) (hs : Tidy s) :
    (∃ p, recipeAt (enteredState r h ctx notify tag i bind s) h = some p ∧
      p.unmarked = (enteredRecipe r ctx notify tag i bind).unmarked) ∧
    (enteredState r h ctx notify tag i bind s).mem = s.mem ∧ (enteredState r h ctx notify tag i bind s).ple = s.ple := by
  have installed := booksOnly_installTables (s := setRecipe h (some (enteredRecipe r ctx notify tag i bind)) s) i
  have tidy := tidy_installed (h := h) (enteredRecipe r ctx notify tag i bind) i hs
  have settled := sameRecipes_settleScales tidy
  have scales : ScalesOnly _ _ := scalesOnly_settleScales
    (s := admitted (count Pg.rcp 0xE08 (installTables i (setRecipe h (some (enteredRecipe r ctx notify tag i bind)) s))))
  have listed : recipeAt (installTables i (setRecipe h (some (enteredRecipe r ctx notify tag i bind)) s)) h =
      some (enteredRecipe r ctx notify tag i bind) := by
    rw [installed]
    exact tget_tput_listed s.rcp.recipes h (Option.some_ne_none _)
  have tags : RingsOnly _ (enteredState r h ctx notify tag i bind s) := ringsOnly_endTag _ _
  obtain ⟨p, entered, same⟩ := settled.some listed
  refine ⟨⟨p, ?_, same⟩, ?_, ?_⟩
  · rw [tags]
    exact entered
  · rw [tags]
    exact scales.mem.trans (by rw [admitted, count, countBy, installed]; rfl)
  · rw [tags]
    exact scales.ple.trans (by rw [admitted, count, countBy, installed]; rfl)

/-- A choice is below its bound, meets its test and draws once. -/
theorem chooseFrom_of_some {n : Nat} {p : Nat → Bool} (e : chooseFrom n p v = (some h, w)) (pos : 0 < n) :
    h < n ∧ p h = true ∧ w = (draw v).2 := by
  have chosen : (chooseFrom n p v).1 = some h := congrArg Prod.fst e
  refine ⟨?_, chooseFrom_sound chosen, (congrArg Prod.snd e).symm⟩
  unfold chooseFrom at chosen
  dsimp only at chosen
  have start : Config.choice (draw v).1 % n < n := Nat.mod_lt _ pos
  generalize Config.choice (draw v).1 % n = a at start chosen
  cases first : findFrom p a (n - a) with
  | some k =>
    rw [first] at chosen
    cases chosen
    have := findFrom_lt first
    omega
  | none =>
    rw [first] at chosen
    have := findFrom_lt (chosen : findFrom p 0 a = some h)
    omega

section
variable {notify addr bytes bindAddr tag : Nat} {i : Image} {bind : List Nat}

/-- A LOAD_RECIPE whose words are in range goes through the checks of its image. -/
theorem exec_loadRecipe_checked (begins : Begins r Opc.loadRecipe s v) (own : OwnCtx r ctx v)
    (once : v.rcp.loads.any (fun l => decide (l.r = r)) = false) (ring : notify < 16) (align : addr % 64 = 0)
    (bindAlign : bindAddr % 8 = 0) : exec (.loadRecipe r ctx notify addr bytes bindAddr tag (.image i bind)) s =
      .next (loadImage r ctx notify bytes tag i bind v) := by
  refine congrArg Host.Outcome.next ((ringRun_of_begins begins _).trans ?_)
  dsimp only
  have words : ¬ (16 ≤ notify ∨ addr % 64 ≠ 0 ∨ bindAddr % 8 ≠ 0) := by omega
  rw [once, if_neg words, gateCtx_of_ownCtx own]
  rfl

/-- An image that passes every check is entered under the handle that is chosen. -/
theorem loadImage_of_admitted (fine : staticFail v ctx bytes i bind = none)
    (chosen : chooseFrom 16 (fun h => (recipeAt v h).isNone) v = (some h, w))
    (room : admitFail w (bookStreams h i bind w) = none) (fabric : fabricFail w i = none) (kept : idleDropped w = false) :
    loadImage r ctx notify bytes tag i bind v = complete r Opc.loadRecipe .ok h
      (enteredState r h ctx notify tag i bind (bookStreams h i bind w)) := by
  unfold loadImage
  rw [fine]
  dsimp only
  rw [chosen]
  dsimp only
  rw [room]
  dsimp only
  rw [fabric, kept]
  rfl

theorem loadImage_of_fail {f : LoadFail} (fails : staticFail v ctx bytes i bind = some f) :
    loadImage r ctx notify bytes tag i bind v = refuseLoad r ctx f v := by
  unfold loadImage
  rw [fails]

end

/-! ABORT UNLOAD (R305, R314) -/

theorem namedRecipe_some (named : namedRecipe v ctx h = some q) : recipeAt v h = some q := by
  unfold namedRecipe at named
  split at named
  next p at_ =>
    split at named
    · exact at_.trans named
    · cases named
  next => cases named

/-- The state without the recipe, its stream demand and its waiting load. -/
def withoutRecipe (h : Nat) (s : State) : State :=
  setRecipe h none { s with
    rlg := { s.rlg with streams := s.rlg.streams.filter (fun d => decide (d.handle ≠ h)) }
    rcp := { s.rcp with loads := s.rcp.loads.filter (fun l => decide (l.handle ≠ h)) } }

/-- From `s` to `t` only tables, ports, rings and counters changed. -/
def LetGoOnly (s t : State) : Prop :=
  t = { s with sent := t.sent, cnts := t.cnts, fports := t.fports, ppu := t.ppu, hiu := t.hiu }

theorem LetGoOnly.trans {u : State} (a : LetGoOnly s t) (b : LetGoOnly t u) : LetGoOnly s u := by
  refine Eq.trans b ?_
  rw [a]

theorem TablesOnly.letGoOnly (a : TablesOnly s t) : LetGoOnly s t := by
  rw [LetGoOnly, a]

theorem RingsOnly.letGoOnly (a : RingsOnly s t) : LetGoOnly s t := by
  rw [LetGoOnly, a]

theorem LetGoOnly.foldl {α : Type} {f : State → α → State} (hf : ∀ s a, LetGoOnly s (f s a)) (l : List α) (s : State) :
    LetGoOnly s (l.foldl f s) :=
  List.foldlRecOn l f (motive := fun t => LetGoOnly s t) rfl fun _ e a _ => e.trans (hf _ a)

/-- The state without the recipe, once its tables are let go and its waiting load is completed. -/
def letGoRecipe (h : Nat) (q : Recipe) (s : State) : State :=
  (s.rcp.loads.filter (fun l => decide (l.handle = h))).foldl (fun s l => complete l.r Opc.loadRecipe .accessDenied 0 s)
    (q.img.tables.foldl (fun s t => unpinTable t.1 s) (withoutRecipe h s))

theorem unloadRecipe_eq (at_ : recipeAt s h = some q) : unloadRecipe h s = settleScales (letGoRecipe h q s) := by
  unfold unloadRecipe
  rw [at_]
  rfl

theorem letGoOnly_letGoRecipe : LetGoOnly (withoutRecipe h s) (letGoRecipe h q s) := by
  have unpins : ∀ (s : State) (t : Nat × List Byte), LetGoOnly s (unpinTable t.1 s) :=
    fun _ t => TablesOnly.letGoOnly (tablesOnly_unpinTable t.1)
  have tables : LetGoOnly (withoutRecipe h s) (q.img.tables.foldl (fun s t => unpinTable t.1 s) (withoutRecipe h s)) :=
    .foldl unpins _ _
  have loads : ∀ (s : State) (l : LoadWait), LetGoOnly s (complete l.r Opc.loadRecipe .accessDenied 0 s) :=
    fun _ l => RingsOnly.letGoOnly (ringsOnly_complete l.r _ _ _)
  exact tables.trans (.foldl loads _ _)

theorem tidy_letGoRecipe (hs : Tidy s) : Tidy (letGoRecipe h q s) := by
  have without : Keeps s (withoutRecipe h s) := keeps_setRecipe h none _ (Keeps.upd (.refl s))
  exact (Keeps.foldl (fun _ _ k => keeps_complete _ _ _ _ _ k) (Keeps.foldl (fun _ _ k => keeps_unpinTable _ _ k) without)).tidy hs

/-- What an unload leaves. -/
theorem unloadRecipe_holds (hs : Tidy s) (at_ : recipeAt s h = some q) :
    recipeAt (unloadRecipe h s) h = none ∧ (∀ k, k ≠ h → (recipeAt (unloadRecipe h s) k).isSome = (recipeAt s k).isSome) ∧
      (unloadRecipe h s).rlg.streams = s.rlg.streams.filter (fun d => decide (d.handle ≠ h)) ∧ (unloadRecipe h s).mem = s.mem ∧
      (unloadRecipe h s).ple = s.ple := by
  have went : LetGoOnly (withoutRecipe h s) (letGoRecipe h q s) := letGoOnly_letGoRecipe
  have same := sameRecipes_settleScales (tidy_letGoRecipe (h := h) (q := q) hs)
  have scales : ScalesOnly _ _ := scalesOnly_settleScales (s := letGoRecipe h q s)
  have recipes : (letGoRecipe h q s).rcp.recipes = tput none s.rcp.recipes h none := congrArg (·.rcp.recipes) went
  have at_k : ∀ k, recipeAt (letGoRecipe h q s) k = tget none (tput none s.rcp.recipes h none) k :=
    fun k => congrArg (fun l => tget none l k) recipes
  rw [unloadRecipe_eq at_]
  refine ⟨same.none ?_, fun k other => ?_, settleScales_streams.trans (congrArg (·.rlg.streams) went),
    scales.mem.trans (congrArg (·.mem) went), scales.ple.trans (congrArg (·.ple) went)⟩
  · rw [at_k]
    exact tget_tput_same h none (twf_trising hs.recipes)
  · rw [same.isSome, at_k, tget_tput_ne none (twf_trising hs.recipes) other]
    rfl

/-- ABORT UNLOAD where no run is under way. -/
theorem exec_abortUnload_idle (begins : Begins r Opc.abort s v) (own : OwnCtx r ctx v) (named : namedRecipe v ctx h = some q)
    (idle : v.rcp.run = none) : exec (.abortUnload r ctx h) s = .next (complete r Opc.abort .ok 0 (unloadRecipe h v)) := by
  have free : runWaits v r = false := by
    unfold runWaits
    rw [idle]
  have aborted : abortRun r h true v = complete r Opc.abort .ok 0 (unloadRecipe h v) := by
    unfold abortRun
    rw [idle]
    rfl
  refine congrArg Host.Outcome.next ((ringRun_of_begins begins _).trans ?_)
  rw [free, gateCtx_of_ownCtx own]
  dsimp only
  rw [named]
  exact aborted

/-! ABORT STOP (R313, R314) -/

/-- ABORT STOP of a run that is not ending already. -/
theorem exec_abortStop_of_run (begins : Begins r Opc.abort s v) (own : OwnCtx r ctx v) (named : namedRecipe v ctx h = some q)
    (run : v.rcp.run = some x) (its : x.handle = h) (free : runWaits v r = false) : exec (.abortStop r ctx h 0) s =
      .next (modRun (fun x => { x with waiters := x.waiters ++ [(r, Opc.abort)], afterUnload := x.afterUnload || false })
        (endRun .runAborted v)) := by
  have aborted : abortRun r h false v = modRun (fun x => { x with
      waiters := x.waiters ++ [(r, Opc.abort)], afterUnload := x.afterUnload || false }) (endRun .runAborted v) := by
    unfold abortRun
    rw [run]
    exact if_pos its
  refine congrArg Host.Outcome.next ((ringRun_of_begins begins _).trans ?_)
  rw [free, gateCtx_of_ownCtx own]
  dsimp only
  rw [named]
  exact aborted

/-! RUN and its comparator (R306, R338) -/

theorem armRefusal_none {fromStep : Nat} (may : armRefusal v q fromStep = none) : v.rcp.run = none := by
  unfold armRefusal at may
  cases run : v.rcp.run with
  | none => rfl
  | some x =>
    rw [run] at may
    split at may
    · cases may
    · cases may

/-- A RUN of the lead whose recipe may be armed takes the lowest free comparator. -/
theorem exec_run_of_armed {n fromStep startNs : Nat} (begins : Begins r Opc.run s v) (own : OwnCtx r ctx v)
    (named : namedRecipe v ctx h = some q) (step : fromStepOk q.img fromStep = true) (lead : q.img.lead = true)
    (may : armRefusal v q fromStep = none) (free : freeComparator v = some n) :
    ∃ t, PortsOnly (setRun (some (armedRun h (some r) none fromStep startNs n v.now)) (setClaim n (runClaim q) v)) t ∧
      exec (.run r ctx h fromStep startNs) s = .next (if q.img.peers.isEmpty then giveStart t else q.img.peers.foldl (fun s p =>
        sendTo { ctrlPkt s 0x23 p.dev 0 with length := 24 } (groupBytes q.img.group q.img.leadId ++ leBytes 8 fromStep) s) t) := by
  obtain ⟨t, armed, left⟩ := armRun_of_free (q := q) (h := h) (cmd := some r) (lead := none) (fromStep := fromStep)
    (startNs := startNs) free
  have idle : runWaits v r = false := by
    unfold runWaits
    rw [armRefusal_none may]
  refine ⟨t, left, congrArg Host.Outcome.next ((ringRun_of_begins begins _).trans ?_)⟩
  dsimp only
  rw [idle, gateCtx_of_ownCtx own]
  dsimp only
  rw [named]
  dsimp only
  rw [step]
  unfold runBody
  rw [lead, may]
  dsimp only
  rw [armed]
  rfl

/-- The comparator of an armed run whose start has come starts it. -/
theorem exec_comparatorFire_of_run {n t : Nat} (hw : Awake s) (low : n < 16) (set_ : tget none s.ftb.cmps n = some t) (due : t ≤ s.now)
    (user : (claimOf s n).user = .rcpRun) (at_ : runRecipe s = some (x, q)) (armed : x.state = .armed) (start : x.t0.isSome = true) :
    exec (.comparatorFire n) s = .next (count Pg.rcp 0xE18 (setSht { s.sht with codeCache := q.img.tables }
      (setRun (some { x with state := .running }) { s with ftb := { s.ftb with cmps := tput none s.ftb.cmps n none } }))) := by
  refine (next_whenAwake hw _).trans (congrArg Host.Outcome.next ?_)
  have passes : ¬ (!decide (t ≤ s.now) || decide (16 ≤ n)) = true := by simp [due, low]
  have here : runRecipe { s with ftb := { s.ftb with cmps := tput none s.ftb.cmps n none } } = some (x, q) := at_
  have started : startRun { s with ftb := { s.ftb with cmps := tput none s.ftb.cmps n none } } = count Pg.rcp 0xE18
      (setSht { s.sht with codeCache := q.img.tables }
        (setRun (some { x with state := .running }) { s with ftb := { s.ftb with cmps := tput none s.ftb.cmps n none } })) := by
    unfold startRun
    rw [here]
    exact if_pos ⟨armed, start⟩
  dsimp only
  rw [set_]
  dsimp only
  rw [if_neg passes, user]
  exact started

end
end Sys2Proof.Machine

open Sys2Proof Sys2Proof.Machine

/-- Settles O48: each command runs the one path that its premises leave. -/
theorem recipeLoadRunAbort : Obligations.RecipeLoadRunAbort := by
  unfold Obligations.RecipeLoadRunAbort
  refine ⟨fun r ctx notify addr bytes bindAddr tag i bind s v hv begins own once ring align bindAlign => ⟨?load, ?refuse⟩,
    ?unload, ?run, ?fire, ?stop⟩
  case load =>
    intro h w fine chosen room fabric kept
    obtain ⟨low, free, drawn⟩ := chooseFrom_of_some chosen (by decide)
    have booked := booksOnly_bookStreams (s := w) (h := h) i bind
    have tidy : Tidy (bookStreams h i bind w) := by
      rw [drawn]
      exact (keeps_bookStreams h i bind _ (keeps_draw v (.refl v))).tidy hv
    obtain ⟨⟨p, entered, same⟩, mem, ple⟩ := enteredState_holds (r := r) (h := h) (ctx := ctx) notify tag i bind tidy
    have before : (bookStreams h i bind w).mem = v.mem ∧ (bookStreams h i bind w).ple = v.ple := by
      rw [booked, drawn]
      exact ⟨rfl, rfl⟩
    refine ⟨_, p, (exec_loadRecipe_checked begins own once ring align bindAlign).trans
      (congrArg Host.Outcome.next (loadImage_of_admitted fine chosen room fabric kept)), low, Option.isNone_iff_eq_none.1 free, entered,
      congrArg (·.img) same, congrArg (·.bind) same, congrArg (·.ctx) same, congrArg (·.fn) same, congrArg (·.ring) same,
      congrArg (·.tag) same, mem.trans before.1, ple.trans before.2⟩
  case refuse =>
    intro f fails
    exact ⟨_, (exec_loadRecipe_checked begins own once ring align bindAlign).trans
      (congrArg Host.Outcome.next (loadImage_of_fail fails)), rfl⟩
  case unload =>
    intro r ctx h q s v hv begins own named idle
    exact ⟨_, exec_abortUnload_idle begins own named idle, unloadRecipe_holds hv (namedRecipe_some named)⟩
  case run =>
    intro r ctx h fromStep startNs n q s v begins own named step lead may free
    obtain ⟨t, armed, ran⟩ := exec_run_of_armed (startNs := startNs) begins own named step lead may free
    have held : (claimOf t n) = runClaim q := (armed.claimOf n).trans (claimOf_setClaim_runClaim n)
    have now : t.rcp.run = some (armedRun h (some r) none fromStep startNs n v.now) := congrArg (·.run) armed.rcp
    cases alone : q.img.peers.isEmpty with
    | true =>
      have at_ : runRecipe t = some (armedRun h (some r) none fromStep startNs n v.now, q) :=
        runRecipe_of now ((congrArg (fun y : Rcp => tget none y.recipes h) armed.rcp).trans (namedRecipe_some named))
      obtain ⟨u, told, started⟩ := giveStart_of_run at_
      have later := (congrArg (·.run) told.rcp).trans now
      rw [alone] at ran
      refine ⟨_, _, ran.trans (congrArg Host.Outcome.next (started.trans (setStart_of_run later _))), rfl, rfl, rfl, rfl, rfl, rfl, rfl, rfl,
        ?_, ?_, ?_, fun _ => tget_tput_listed _ _ (Option.some_ne_none _), told.mem.trans armed.mem,
        (congrArg (·.ple) told).trans (congrArg (·.ple) armed)⟩
      · exact congrArg (·.owner) ((told.claimOf n).trans held)
      · exact congrArg (·.user) ((told.claimOf n).trans held)
      · rw [if_pos rfl, armed.now]
        rfl
    | false =>
      rw [alone] at ran
      have told : PortsOnly t (q.img.peers.foldl (fun s p => sendTo { ctrlPkt s 0x23 p.dev 0 with length := 24 }
        (groupBytes q.img.group q.img.leadId ++ leBytes 8 fromStep) s) t) := .foldl (fun _ _ => portsOnly_sendTo _ _) _ _
      refine ⟨_, _, ran, (congrArg (·.run) told.rcp).trans now, rfl, rfl, rfl, rfl, rfl, rfl, rfl, ?_, ?_, rfl, fun none_ => ?_,
        told.mem.trans armed.mem, (congrArg (·.ple) told).trans (congrArg (·.ple) armed)⟩
      · exact congrArg (·.owner) ((told.claimOf n).trans held)
      · exact congrArg (·.user) ((told.claimOf n).trans held)
      · rw [none_] at alone
        cases alone
  case fire =>
    intro s n t x q hw low set_ due user at_ armed start
    exact ⟨_, exec_comparatorFire_of_run hw low set_ due user at_ armed start, rfl, rfl⟩
  case stop =>
    intro r ctx h q x s v begins own named run its on free
    obtain ⟨rcp, zeroing⟩ := endRun_of_run .runAborted run on
    have ended : (endRun .runAborted v).rcp.run = some (endedRun .runAborted v x) := congrArg (·.run) rcp
    refine ⟨_, _, exec_abortStop_of_run begins own named run its free, congrArg (Option.map _) ended, rfl, rfl, ?_, zeroing,
      congrArg (·.recipes) rcp, endRun_mem _⟩
    exact congrArg (· ++ _) (resumedRun_kept v x).2.2
end

section
/-! PROOFS. What the reset of a unit leaves of pages and of the count of hangs (R391, R426). O56 uses it. -/

set_option Elab.async false

namespace Sys2Proof.Machine

section
variable {s t u : State}

/-- From `s` to `t` page headers stay, and no unit is counted as hanging. -/
structure Calm (s t : State) : Prop where
  keeps : Keeps s t
  pages : t.pages = s.pages
  hangs : Tidy s → counter t Pg.ccx 0xE40 = counter s Pg.ccx 0xE40

theorem Calm.refl (s : State) : Calm s s := ⟨.refl s, rfl, fun _ => rfl⟩

theorem Calm.trans (h : Calm s t) (k : Calm t u) : Calm s u :=
  ⟨h.keeps.trans k.keeps, k.pages.trans h.pages, fun x => (k.hangs (h.keeps.tidy x)).trans (h.hangs x)⟩

theorem Calm.foldl {α : Type} {f : State → α → State} (hf : ∀ s a, Calm s (f s a)) (l : List α) (s : State) :
    Calm s (l.foldl f s) :=
  List.foldlRecOn l f (motive := fun t => Calm s t) (.refl s) fun _ h a _ => h.trans (hf _ a)

/-- What writes neither pages nor counters is calm. -/
theorem Calm.of_eq (k : Keeps s t) (pages : t.pages = s.pages) (cnts : t.cnts = s.cnts) : Calm s t :=
  ⟨k, pages, fun _ => congrArg (fun c => tget 0 c (regKey Pg.ccx 0xE40)) cnts⟩

/-- Offsets of the counters that the reset of a unit advances. -/
def resetCounters : List Nat := [0xE08, 0xE10, 0xE18, 0xE20, 0xE28, 0xE38]

theorem calm_countBy (p : Nat) {off : Nat} (n : Nat) (other : off ∈ resetCounters) : Calm s (countBy p off n s) where
  keeps := keeps_countBy p off n s (.refl s)
  pages := rfl
  hangs hs := by
    have apart : ∀ x ∈ resetCounters, x < 4096 ∧ (0xE40 : Nat) ≠ x := by decide
    exact counter_countBy_ne _ _ _ hs (regKey_apart (by decide) (apart off other).1 (apart off other).2)

theorem calm_count (p : Nat) {off : Nat} (other : off ∈ resetCounters) : Calm s (count p off s) := calm_countBy p 1 other

theorem Traffic.calm (h : Traffic s t) (k : Keeps s t) : Calm s t :=
  ⟨k, congrArg (·.pages) h.frame, fun hs => h.counters hs _ _ (by decide) (by decide)⟩

/-! Rings -/

theorem calm_setRing (f n : Nat) (v : Ring) : Calm s (setRing f n v s) := .of_eq (keeps_setRing f n v s (.refl s)) rfl rfl

theorem calm_interrupt (f vector : Nat) : Calm s (interrupt f vector s) := by
  refine .of_eq (keeps_interrupt f vector s (.refl s)) ?_ ?_ <;>
    · unfold interrupt
      dsimp only
      (repeat' split) <;> rfl

theorem calm_signalRing (f n : Nat) : Calm s (signalRing f n s) := .trans (calm_setRing f n _) (calm_interrupt f _)

theorem calm_emit (o : Output) : Calm s (emit o s) := .of_eq (keeps_emit o s (.refl s)) rfl rfl

theorem calm_writeCpl (f n : Nat) (c : Cpl) : Calm s (writeCpl f n c s) := by
  unfold writeCpl
  extract_lets q c' wrap q' t
  have written : Calm s t := .trans (calm_setRing _ _ _) (calm_emit _)
  split
  · exact written.trans (calm_signalRing f n)
  · exact written

theorem calm_settleRing (f n : Nat) : Calm s (settleRing f n s) := by
  unfold settleRing
  dsimp only
  split
  · exact calm_setRing _ _ _
  · exact .refl s

theorem calm_complete (r : RingCmd) (op : Nat) (st : Status) (result : Nat) : Calm s (complete r op st result s) := by
  unfold complete
  extract_lets q s1 c s2
  split
  · exact .refl s
  · have taken : Calm s s1 := calm_setRing _ _ _
    have posted : Calm s s2 := by
      refine taken.trans ?_
      simp only [s2]
      split
      · exact .trans (calm_writeCpl _ _ _) (calm_count _ (by decide))
      · exact calm_setRing _ _ _
      · exact .refl s1
    exact posted.trans (calm_settleRing _ _)

/-! Code tables -/

theorem calm_setTable (id : Nat) (e : TableEnt) : Calm s (setTable id e s) := .of_eq (keeps_setTable id e s (.refl s)) rfl rfl

theorem calm_releaseTables : Calm s (releaseTables s) :=
  .trans (.foldl (fun _ id => calm_setTable id _) _ s) (calm_countBy _ _ (by decide))

theorem calm_sendRetires (id epoch : Nat) (peers : List Nat) : Calm s (sendRetires id epoch peers s) :=
  .foldl (fun s p => .trans (.of_eq (keeps_setFport p _ s (.refl s)) rfl rfl)
    ((traffic_sendPkt p _ _).calm (keeps_sendPkt p _ _ _ (.refl _)))) peers s

theorem calm_settleTable (id : Nat) : Calm s (settleTable id s) := by
  unfold settleTable
  extract_lets e e1 s1 c src s2
  have stored : Calm s s1 := calm_setTable id e1
  split
  · have epoch : Calm s1 s2 := .of_eq (Keeps.upd (.refl s1)) rfl rfl
    exact stored.trans (epoch.trans ((calm_setTable id _).trans ((calm_sendRetires _ _ _).trans calm_releaseTables)))
  · exact stored

theorem calm_unpinTable (id : Nat) : Calm s (unpinTable id s) := .trans (calm_setTable id _) (calm_settleTable id)

theorem calm_unrefTable (id : Nat) : Calm s (unrefTable id s) := .trans (calm_setTable id _) (calm_settleTable id)

/-! Passes -/

theorem calm_passes (passes waiting : List Pass) (cmds : List PassCmd) :
    Calm s (setPpu { s.ppu with passes := passes, waiting := waiting, cmds := cmds } s) := .of_eq (Keeps.upd (.refl s)) rfl rfl

theorem calm_fillQueue : Calm s (fillQueue s) := .of_eq (keeps_fillQueue s (.refl s)) rfl rfl

theorem calm_settleScan : Calm s (settleScan s) :=
  .of_eq (keeps_settleScan s (.refl s)) (congrArg (·.pages) settleScan_frame) (congrArg (·.cnts) settleScan_frame)

theorem calm_dropPassTable (p : Pass) : Calm s (dropPassTable p s) := by
  unfold dropPassTable
  split
  · exact .refl s
  · split
    · exact .trans (calm_setTable _ _) (calm_count _ (by decide))
    · exact calm_unpinTable _

theorem calm_endPassCmd (r : RingCmd) (op : Nat) (st : Status) : Calm s (endPassCmd r op st s) := by
  rcases endPassCmd_eq (s := s) r op st with same | ⟨result, ended⟩
  · rw [same]
    exact .refl s
  · have without : Calm s (withoutCmd r op s) := .trans (calm_passes _ _ _) calm_fillQueue
    rw [ended]
    exact without.trans (calm_settleScan.trans (calm_complete _ _ _ _))

theorem calm_dropAllPasses : Calm s (dropAllPasses s) := by
  unfold dropAllPasses
  extract_lets cmds background src s1 s2
  have tables : ∀ (l : List Pass) (s : State), Calm s (l.foldl (fun s p => dropPassTable p s) s) :=
    .foldl fun _ p => calm_dropPassTable p
  have commands : ∀ (l : List (RingCmd × Nat)) (s : State),
      Calm s (l.foldl (fun s c => endPassCmd c.1 c.2 .deviceNotReady s) s) := .foldl fun _ c => calm_endPassCmd c.1 c.2 _
  have background_gone : Calm s s1 := .trans (calm_passes _ _ s.ppu.cmds) (tables _ _)
  exact background_gone.trans ((tables _ s1).trans ((commands _ _).trans calm_settleScan))

/-! Releases -/

theorem calm_drains (l : List Drain) : Calm s { s with ple := { s.ple with drains := l } } := .of_eq (Keeps.upd (.refl s)) rfl rfl

theorem calm_settleDrains : Calm s (settleDrains s) := by
  refine .trans (calm_drains []) (.foldl (fun s d => ?_) _ _)
  unfold endDrain
  split
  · split
    · exact calm_complete _ _ _ _
    · exact .refl s
  · exact calm_drains _

theorem calm_hints (l : List Hint) : Calm s { s with mge := { s.mge with hints := l } } := .of_eq (Keeps.upd (.refl s)) rfl rfl

theorem calm_swaps (l : List (Nat × Nat)) : Calm s { s with mge := { s.mge with swaps := l } } :=
  .of_eq (Keeps.upd (.refl s)) rfl rfl

theorem calm_held (l : List HeldStore) : Calm s { s with mge := { s.mge with held := l } } := .of_eq (Keeps.upd (.refl s)) rfl rfl

theorem calm_setMoves (l : List Move) : Calm s (setMoves l s) := .of_eq (Keeps.upd (.refl s)) rfl rfl

theorem calm_setMap (slab : Nat) (e : MapEntry) : Calm s (setMap slab e s) := .of_eq (keeps_setMap slab e s (.refl s)) rfl rfl

theorem calm_settleHints : Calm s (settleHints s) := by
  have posted : ∀ (s : State) (h : Hint), Calm s (complete h.r Opc.hint (hintStatus h.outcomes) h.reached s) :=
    fun _ _ => calm_complete _ _ _ _
  exact .trans (calm_hints _) (.foldl posted _ _)

theorem calm_resolveSlab (id slab : Nat) (st : Status) : Calm s (resolveSlab id slab st s) := by
  unfold resolveSlab
  extract_lets there s1
  have counted : Calm s s1 := by
    simp only [s1]
    split
    · exact calm_count _ (by decide)
    · exact .refl s
  exact counted.trans ((calm_hints _).trans calm_settleHints)

theorem calm_removeVote (slab ctx : Nat) (st : Status) : Calm s (removeVote slab ctx st s) := by
  have gone : Calm s (setVote slab ctx none s) := .of_eq (keeps_setVote slab ctx none s (.refl s)) rfl rfl
  unfold removeVote
  split
  · exact .refl s
  · dsimp only
    split
    · exact gone.trans (calm_resolveSlab _ _ _)
    · exact gone

theorem calm_failVotes (slab : Nat) (st : Status) : Calm s (failVotes slab st s) := by
  refine .foldl (fun s v => ?_) _ s
  split
  · exact calm_removeVote _ _ _
  · exact .refl s

theorem calm_resolveTmask (slab : Nat) (st : Status) : Calm s (resolveTmask slab st s) :=
  .foldl (fun _ _ => calm_resolveSlab _ _ _) _ s

theorem calm_freeToZeroing (t : Tier) (frame : Nat) : Calm s (freeToZeroing t frame s) := by
  refine .of_eq (keeps_freeToZeroing t frame s (.refl s)) ?_ ?_ <;>
    · unfold freeToZeroing
      split <;> rfl

theorem calm_abandonMove (slab : Nat) : Calm s (abandonMove slab s) := by
  unfold abandonMove
  split
  · exact .refl s
  next m _ =>
    extract_lets s1 src s2 s3
    have dropped : Calm s s2 := .trans (calm_setMoves _) (calm_swaps _)
    split
    · exact dropped
    · have moved : Calm s2 s3 := calm_setMap _ _
      refine dropped.trans (moved.trans (.trans ?_ (calm_count _ (by decide))))
      split
      · exact calm_freeToZeroing _ _
      · exact .refl _

theorem calm_ackWrite (src : WriteSrc) : Calm s (ackWrite src s) := by
  unfold ackWrite
  split
  · exact calm_emit _
  · exact calm_emit _
  · exact (traffic_answer _ _ _).calm (keeps_answer _ _ _ s (.refl s))

theorem calm_slabFree (slab : Nat) : Calm s (slabFree slab s) := by
  have settled : ∀ (c : Nat) (t : State), Calm t (settleCtx c t) := fun c t => by
    refine .of_eq (keeps_settleCtx c t (.refl t)) ?_ ?_ <;>
      · unfold settleCtx
        dsimp only
        split <;> rfl
  have retired : ∀ t : State, Calm t (retireSlabs t) := fun t =>
    .of_eq (keeps_retireSlabs t (.refl t)) (congrArg (·.pages) placementOnly_retireSlabs) (congrArg (·.cnts) placementOnly_retireSlabs)
  unfold slabFree
  extract_lets e c s1 r s2
  have given : Calm s1 s2 := by
    simp only [s2]
    split
    · exact .of_eq (keeps_setResv c _ s1 (.refl s1)) rfl rfl
    · exact .refl s1
  refine .trans (calm_setMap slab _) (given.trans (.trans ?_ (settled c _)))
  split
  · exact retired s2
  · exact .refl s2

theorem calm_dropTraySlab (slab : Nat) : Calm s (dropTraySlab slab s) := .of_eq (Keeps.upd (.refl s)) rfl rfl

theorem calm_releaseNow (slab : Nat) : Calm s (releaseNow slab s) := by
  have acks : ∀ (l : List HeldStore) (s : State), Calm s (l.foldl (fun s w => ackWrite w.src s) s) :=
    .foldl fun _ w => calm_ackWrite w.src
  have unrefs : ∀ (l : List Nat) (s : State), Calm s (l.foldl (fun s id => unrefTable id s) s) := .foldl fun _ id => calm_unrefTable id
  unfold releaseNow
  extract_lets held s0 src s1 e lo tables s2 s3 fmg mge s4 s5
  have failed : Calm s s0 := .trans (calm_abandonMove _) (.trans (calm_failVotes _ _) (calm_resolveTmask _ _))
  have answered : Calm s0 s1 := .trans (calm_held _) (.trans (acks _ _) calm_settleDrains)
  have cleared : Calm s1 s2 := by
    simp only [s2]
    split
    · exact .of_eq (keeps_dropHome lo s1 (.refl s1)) rfl rfl
    · exact .refl s1
  have votes : Keeps s3 { s3 with
      fmg := { s3.fmg with poisonRec := s3.fmg.poisonRec.filter (fun k => decide (k / 4096 ≠ slab))
                           recoveries := s3.fmg.recoveries.filter (fun r => decide (r.block / 4096 ≠ slab)) }
      mge := { s3.mge with votes := tkeep (fun k => decide (k / 2 ^ 20 ≠ slab)) s3.mge.votes } } :=
    (Keeps.refl s3).step (fun hs => { hs with votes := twf_filter _ hs.votes }) rfl rfl
  have forgotten : Calm s3 s4 := .trans (.of_eq votes rfl rfl) (calm_dropTraySlab _)
  have gone : Calm s s5 :=
    failed.trans (answered.trans (cleared.trans ((unrefs _ s2).trans (forgotten.trans (calm_setMap slab _)))))
  split
  · exact gone.trans (calm_slabFree slab)
  · exact gone.trans ((calm_freeToZeroing _ _).trans (calm_slabFree slab))
  · exact gone

theorem calm_readsEnded : Calm s (readsEnded s) := by
  have left : Calm s { s with ple := { s.ple with leaving := s.ple.leaving.filter (fun k => readsWait s k) } } :=
    .of_eq (Keeps.upd (.refl s)) rfl rfl
  exact left.trans (.trans (.foldl (fun _ k => calm_releaseNow k) _ _) (calm_settleDrains.trans calm_releaseTables))

/-! The reset of a unit -/

theorem calm_restChan (k : Nat) : Calm s (restChan k s) :=
  .trans (.of_eq (keeps_setChan k _ s (.refl s)) rfl rfl) (calm_countBy _ _ (by decide))

theorem calm_answerBad (src : ReadSrc) (st : Status) : Calm s (answerBad src st s) := by
  unfold answerBad
  split
  · exact .trans (calm_count _ (by decide)) (calm_emit _)
  · exact .trans (calm_count _ (by decide)) (calm_emit _)
  · exact (traffic_sendError _ _ _ _).calm (keeps_sendError _ _ _ _ s (.refl s))

theorem calm_dropRecoveries (channel : Nat) : Calm s (dropRecoveries channel s) := by
  unfold dropRecoveries
  extract_lets here gone src s1
  have dropped : Calm s s1 := .of_eq (Keeps.upd (.refl s)) rfl rfl
  have answered : ∀ (s : State) (r : Recovery), Calm s (r.waiters.foldl (fun s w => answerBad w.src .poisoned s) s) :=
    fun s r => .foldl (fun (_ : State) (w : FlashWaiter) => calm_answerBad w.src _) _ s
  exact dropped.trans (.trans (.foldl answered _ _) calm_readsEnded)

theorem calm_dropJob (n : Nat) : Calm s (dropJob n s) := by
  unfold dropJob
  dsimp only
  split
  · refine .trans (.of_eq (keeps_setCvu n _ s (.refl s)) rfl rfl) (.of_eq (keeps_settleCvuScan _ (.refl _)) ?_ ?_)
    · exact congrArg (·.pages) settleCvuScan_frame
    · exact congrArg (·.cnts) settleCvuScan_frame
  · exact .refl s

/-- The reset of a unit that may hang. -/
theorem calm_resetInside {t : PageType} (hang : hangs t = true) (n : Nat) : Calm s (resetInside t n s) := by
  have channels : ∀ l : List Nat, Calm s (l.foldl (fun s k => restChan k s) s) := fun l => .foldl (fun _ k => calm_restChan k) l s
  cases t <;> cases hang
  case sch => exact channels _
  case dmc => exact channels _
  case flc => exact calm_dropRecoveries n
  case cvu => exact calm_dropJob n
  case ppu => exact calm_dropAllPasses
  case cdc => exact .refl s

end
end Sys2Proof.Machine
end

section
/-! PROOFS. Events, cores, the sequencer and firmware slots (O56). -/

set_option Elab.async false

namespace Sys2Proof.Machine

section
variable {s t u : State} {e : Evt} {f : Nat}

/-! The delivery of an event (R369, R387) -/

/-- From `s` to `t` an event went to functions: event rings, interrupts and error records, and no event is counted again. -/
structure Delivered (s t : State) : Prop where
  keeps : Keeps s t
  frame : RingsOnly s t
  events : Tidy s → counter t Pg.ccx 0xE18 = counter s Pg.ccx 0xE18
  outputs : ∀ o ∈ s.sent, o ∈ t.sent

theorem Delivered.refl (s : State) : Delivered s s := ⟨.refl s, rfl, fun _ => rfl, fun _ h => h⟩

theorem Delivered.trans (h : Delivered s t) (k : Delivered t u) : Delivered s u :=
  ⟨h.keeps.trans k.keeps, h.frame.trans k.frame, fun x => (k.events (h.keeps.tidy x)).trans (h.events x),
    fun o x => k.outputs o (h.outputs o x)⟩

theorem Delivered.foldl {α : Type} {g : State → α → State} (hg : ∀ s a, Delivered s (g s a)) (l : List α) (s : State) :
    Delivered s (l.foldl g s) :=
  List.foldlRecOn l g (motive := fun t => Delivered s t) (.refl s) fun _ h a _ => h.trans (hg _ a)

theorem delivered_emit (o : Output) : Delivered s (emit o s) :=
  ⟨keeps_emit o s (.refl s), rfl, fun _ => rfl, fun _ h => List.mem_append_left _ h⟩

theorem delivered_setFunc (f : Nat) (v : Func) : Delivered s (setFunc f v s) :=
  ⟨keeps_setFunc f v s (.refl s), rfl, fun _ => rfl, fun _ h => h⟩

theorem delivered_modHport (port : Nat) (g : HPort → HPort) : Delivered s (modHport port g s) where
  keeps := keeps_modHport port g s (.refl s)
  frame := by
    unfold modHport setHport
    split <;> rfl
  events _ := by
    unfold modHport setHport
    split <;> rfl
  outputs o h := by
    unfold modHport setHport
    split <;> exact h

theorem delivered_overflow (port : Nat) : Delivered s (count (Pg.hiu + port) 0xE48 s) where
  keeps := keeps_count _ _ s (.refl s)
  frame := rfl
  events hs := counter_countBy_ne _ _ _ hs (regKey_apart (by decide) (by decide) (by decide))
  outputs _ h := h

theorem delivered_interrupt (f vector : Nat) : Delivered s (interrupt f vector s) := by
  unfold interrupt
  dsimp only
  split
  · exact .refl s
  · split
    · split
      · exact delivered_setFunc _ _
      · exact delivered_emit _
    · split
      · exact .refl s
      · split
        · exact delivered_emit _
        · exact .trans (delivered_setFunc _ _) (delivered_emit _)

theorem delivered_writeEvent (e : Evt) (f : Nat) : Delivered s (writeEvent e f s) := by
  unfold writeEvent
  dsimp only
  split
  · exact .trans (delivered_setFunc _ _) (.trans (delivered_emit _) (delivered_interrupt _ _))
  · exact .trans (delivered_setFunc _ _) (delivered_overflow _)

theorem delivered_reportEvent (e : Evt) (port : Nat) : Delivered s (reportEvent e port s) := by
  unfold reportEvent
  dsimp only
  split
  · split
    · exact .trans (delivered_setFunc _ _) (.trans (delivered_emit _) (delivered_modHport _ _))
    · exact .refl s
  · split
    · exact delivered_modHport _ _
    · exact .refl s
  · split
    · exact .trans (delivered_setFunc _ _) (.trans (delivered_emit _) (delivered_modHport _ _))
    · exact .trans (delivered_setFunc _ _) (delivered_emit _)
  · exact .refl s

theorem delivered_deliver (e : Evt) : Delivered s (deliver e s) :=
  .trans (.foldl (fun _ f => delivered_writeEvent e f) _ s) (.foldl (fun _ p => delivered_reportEvent e p) _ _)

/-! The index of an event ring -/

/-- Event rings of functions stand where they stood. -/
def SameIndices (s t : State) : Prop := ∀ k, (func t k).evtIdx = (func s k).evtIdx

theorem sameIndices_modFunc (f : Nat) {g : Func → Func} (same : ∀ v, (g v).evtIdx = v.evtIdx) (hs : Tidy s) :
    SameIndices s (modFunc f g s) := fun k => by
  by_cases here : k = f
  · subst here
    rw [modFunc, func_setFunc _ _ hs]
    exact same _
  · rw [modFunc, func_setFunc_ne _ _ hs here]

theorem SameIndices.emit (h : SameIndices s t) (o : Output) : SameIndices s (emit o t) := h

theorem sameIndices_modHport (port : Nat) (g : HPort → HPort) : SameIndices s (modHport port g s) := fun k => by
  unfold modHport setHport
  split <;> rfl

theorem sameIndices_interrupt (f vector : Nat) (hs : Tidy s) : SameIndices s (interrupt f vector s) := by
  unfold interrupt
  dsimp only
  split
  · exact fun _ => rfl
  · split
    · split
      · exact sameIndices_modFunc f (fun _ => rfl) hs
      · exact fun _ => rfl
    · split
      · exact fun _ => rfl
      · split
        · exact fun _ => rfl
        · refine SameIndices.emit ?_ _
          exact sameIndices_modFunc f (fun _ => rfl) hs

theorem sameIndices_reportEvent (e : Evt) (port : Nat) (hs : Tidy s) : SameIndices s (reportEvent e port s) := by
  have aer : ∀ c, SameIndices s (noteAer (pfOf port) c s) := fun _ => sameIndices_modFunc (pfOf port) (fun _ => rfl) hs
  have noted : ∀ c o, SameIndices s (emit o (noteAer (pfOf port) c s)) := fun c o => (aer c).emit o
  unfold reportEvent
  dsimp only
  split
  · split
    · exact fun k => (sameIndices_modHport _ _ k).trans (noted _ _ k)
    · exact fun _ => rfl
  · split
    · exact sameIndices_modHport _ _
    · exact fun _ => rfl
  · split
    · exact fun k => (sameIndices_modHport _ _ k).trans (noted _ _ k)
    · exact noted _ _
  · exact fun _ => rfl

/-- An event for one function whose event ring has room is written there. -/
theorem deliver_one (hs : Tidy s) (dest : e.dests = [f]) (on : (func s f).evtOn = true) (master : (func s f).bme = true)
    (d0 : (func s f).d3hot = false)
    (room : ((func s f).evtIdx + 1) % 2 ^ (func s f).evtLog ≠ (func s f).evtHead % 2 ^ (func s f).evtLog) :
    .eventRecord f (func s f).evtIdx (func s f).evtPhase e ∈ (deliver e s).sent ∧
      (func (deliver e s) f).evtIdx = ((func s f).evtIdx + 1) % 2 ^ (func s f).evtLog := by
  have ports : evtPorts e = [fnPort f] := by
    unfold evtPorts
    rw [dest]
    rfl
  have delivered : deliver e s = reportEvent e (fnPort f) (writeEvent e f s) := by
    unfold deliver
    rw [ports, dest]
    rfl
  generalize hv : ({ func s f with
    evtIdx := ((func s f).evtIdx + 1) % 2 ^ (func s f).evtLog
    evtPhase := if ((func s f).evtIdx + 1) % 2 ^ (func s f).evtLog = 0 then !(func s f).evtPhase else (func s f).evtPhase } : Func) = v
  have written : writeEvent e f s = interrupt f (func s f).evtVector
      (emit (.eventRecord f (func s f).evtIdx (func s f).evtPhase e) (setFunc f v s)) := by
    subst hv
    unfold writeEvent
    exact if_pos (by simp [on, master, d0, room])
  have idx : v.evtIdx = ((func s f).evtIdx + 1) % 2 ^ (func s f).evtLog := by rw [← hv]
  have tidy : Tidy (emit (.eventRecord f (func s f).evtIdx (func s f).evtPhase e) (setFunc f v s)) :=
    (keeps_emit _ _ (keeps_setFunc f v s (.refl s))).tidy hs
  have tidy' := (keeps_interrupt f (func s f).evtVector _ (.refl _)).tidy tidy
  rw [delivered, written]
  constructor
  · refine (delivered_reportEvent e _).outputs _ ((delivered_interrupt f _).outputs _ ?_)
    exact List.mem_append_right _ (List.mem_singleton_self _)
  · rw [sameIndices_reportEvent e _ tidy', sameIndices_interrupt f _ tidy]
    exact (congrArg (·.evtIdx) (func_setFunc f v hs)).trans idx

/-! The oldest event -/

/-- From `s` to `t` only the trace and its counters differ. -/
structure Traced (s t : State) : Prop where
  keeps : Keeps s t
  frame : t = { s with tmx := t.tmx, cnts := t.cnts }
  events : Tidy s → counter t Pg.ccx 0xE18 = counter s Pg.ccx 0xE18

theorem Traced.trans (h : Traced s t) (k : Traced t u) : Traced s u :=
  ⟨h.keeps.trans k.keeps, k.frame.trans (by rw [h.frame]), fun x => (k.events (h.keeps.tidy x)).trans (h.events x)⟩

theorem traced_count {off : Nat} (low : off < 4096) : Traced s (count Pg.tmx off s) :=
  ⟨keeps_count _ _ s (.refl s), rfl, fun hs => counter_countBy_ne _ _ _ hs (by unfold regKey; simp [Pg.ccx, Pg.tmx]; omega)⟩

theorem traced_records (l : List (List Byte)) (wrapped : Bool) (pos : Nat) :
    Traced s (setTmx { s.tmx with records := l, wrapped := wrapped, readPos := pos } s) :=
  ⟨Keeps.upd (.refl s), rfl, fun _ => rfl⟩

theorem traced_endCapture : Traced s (endCapture s) where
  keeps := keeps_endCapture s (.refl s)
  frame := by
    unfold endCapture freeTrigger
    dsimp only
    split <;> rfl
  events _ := by
    unfold endCapture freeTrigger
    dsimp only
    split <;> rfl

theorem traced_traceStore (b : List Byte) : Traced s (traceStore b s) := by
  unfold traceStore
  extract_lets t s1
  have stored : Traced s s1 := .trans (traced_records _ _ _) (traced_count (by decide))
  split
  · exact ⟨.refl s, rfl, fun _ => rfl⟩
  · split
    · split
      · exact stored.trans traced_endCapture
      · exact stored
    · split
      · exact .trans (traced_records _ _ _) (traced_count (by decide))
      · exact traced_count (by decide)

/-- The oldest event has left the router for the trace. -/
def eventTaken (e : Evt) (rest : List Evt) (s : State) : State :=
  traceStore (evtBytes e false) (count Pg.ccx 0xE18 { s with router := rest })

/-- The event is in the error log where the log keeps it. -/
def eventLogged (e : Evt) (s : State) : State := if logged e then logEvent e s else s

theorem exec_eventRoute_of_cons {rest : List Evt} (hw : Awake s) (front : s.router = e :: rest) :
    exec .eventRoute s = .next (deliver e (eventLogged e (eventTaken e rest s))) := by
  refine (next_whenAwake hw _).trans (congrArg Host.Outcome.next ?_)
  dsimp only
  rw [front]
  rfl

/-- What is taken is counted, and nothing but the trace changes. -/
theorem eventTaken_holds (e : Evt) (rest : List Evt) (hs : Tidy s) :
    Tidy (eventTaken e rest s) ∧ counter (eventTaken e rest s) Pg.ccx 0xE18 = (counter s Pg.ccx 0xE18 + 1) % 2 ^ 64 ∧
      eventTaken e rest s = { s with router := rest, tmx := (eventTaken e rest s).tmx, cnts := (eventTaken e rest s).cnts } := by
  have routed : Tidy { s with router := rest } := (Keeps.upd (.refl s) : Keeps s { s with router := rest }).tidy hs
  have traced : Traced _ (eventTaken e rest s) := traced_traceStore (evtBytes e false)
  have counted : Tidy (count Pg.ccx 0xE18 { s with router := rest }) := (keeps_count _ _ _ (.refl _)).tidy routed
  exact ⟨traced.keeps.tidy counted, (traced.events counted).trans (counter_countBy _ _ 1 routed), traced.frame⟩

/-- The log takes the event, and loses its oldest record only when it is full. -/
theorem eventLogged_holds (e : Evt) (hs : Tidy s) :
    Tidy (eventLogged e s) ∧ counter (eventLogged e s) Pg.ccx 0xE18 = counter s Pg.ccx 0xE18 ∧
      (logged e = true → s.ccx.log.length < 220 → (eventLogged e s).ccx.log = s.ccx.log ++ [e]) ∧
      (logged e = false → (eventLogged e s).ccx.log = s.ccx.log) ∧
      eventLogged e s = { s with ccx := (eventLogged e s).ccx, cnts := (eventLogged e s).cnts } := by
  unfold eventLogged
  split
  next kept =>
    refine ⟨(keeps_logEvent e s (.refl s)).tidy hs, ?_, fun _ room => ?_, fun other => ?_, ?_⟩
    · unfold logEvent
      dsimp only
      split
      · rfl
      · have full : Tidy (setCcx { s.ccx with log := s.ccx.log.drop 1 ++ [e], logNext := (s.ccx.logNext + 1) % logSize, wrapped := true } s) :=
          (Keeps.upd (.refl s) : Keeps s _).tidy hs
        exact counter_countBy_ne _ _ _ full (regKey_apart (by decide) (by decide) (by decide))
    · unfold logEvent
      exact congrArg (fun t : State => t.ccx.log) (if_pos room)
    · rw [kept] at other
      cases other
    · unfold logEvent
      dsimp only
      split <;> rfl
  next passed => exact ⟨hs, rfl, fun kept => absurd kept passed, fun _ => rfl, rfl⟩

/-! A unit that hangs (R391) -/

/-- The reset of a unit that may hang begins: its page shows it, and no other count of hangs is made. -/
theorem startReset_holds {page n : Nat} {t : PageType} (hs : Tidy s) (at_ : pageOf page = some (t, n)) (hang : hangs t = true) :
    Tidy (startReset page s) ∧ counter (startReset page s) Pg.ccx 0xE40 = counter s Pg.ccx 0xE40 ∧
      (resettable t = true → (pageHdr (startReset page s) page).resetting = true) := by
  unfold startReset
  rw [at_]
  dsimp only
  split
  next =>
    have marked : Tidy (modPage page (fun h => { h with resetting := true }) s) := tidy_modPage _ hs
    have calm := calm_resetInside (s := modPage page (fun h => { h with resetting := true }) s) hang n
    refine ⟨(calm.trans (calm_emit _)).keeps.tidy marked, calm.hangs marked, fun _ => ?_⟩
    refine (congrArg (·.resetting) (pageHdr_congr calm.pages page)).trans ?_
    exact congrArg (·.resetting) (pageHdr_modPage _ hs)
  next other => exact ⟨hs, rfl, fun reset => absurd reset other⟩

/-- A unit that hangs and recovers. -/
theorem exec_unitHang_recovered {page n : Nat} {t : PageType} (hw : Awake s) (at_ : pageOf page = some (t, n)) (hang : hangs t = true) :
    exec (.unitHang page true) s = .next (raise page (Config.hangCode page) .contained 0 noCtx 0 n pfs false
      (count Pg.ccx 0xE40 (startReset page s))) := by
  refine (next_whenAwake hw _).trans (congrArg Host.Outcome.next ?_)
  dsimp only
  rw [at_]
  dsimp only
  rw [hang]
  rfl

/-! Control cores (R391, R392) -/

theorem coreAt_setCore {m n : Nat} {c : Core} (rise : trising 0 s.ccx.cores = true) :
    coreAt (setCore n c s) m = if m = n then c else coreAt s m := by
  split
  next here => rw [here]; exact tget_tput_same n c rise
  next other => exact tget_tput_ne c rise other

/-- A core as its watchdog leaves it. -/
def coreDown (s : State) (c : Core) (why : Nat) : Core :=
  { c with state := .restarting, recent := c.recent.filter (fun t => decide (s.now < t + dayNs)) ++ [s.now], lastCause := why,
           restarts := c.restarts + 1 }

theorem exec_coreWatchdog_restarts {n why : Nat} (hw : Awake s) (low : n < 16) (on : (coreAt s n).state = .online) (least : 1 ≤ why)
    (most : why ≤ 3)
    (few : ((coreAt s n).recent.filter (fun t => decide (s.now < t + dayNs))).length + 1 < fld s Pg.ccx 0x400 15 12) :
    exec (.coreWatchdog n why) s = .next (count Pg.ccx 0xE08 (setCore n (coreDown s (coreAt s n) why) s)) := by
  have runs : ¬ (16 ≤ n ∨ (coreAt s n).state ≠ .online ∨ why = 0 ∨ 3 < why) := by
    rintro (h | h | h | h)
    · omega
    · exact h on
    · omega
    · omega
  refine (next_whenAwake hw _).trans (congrArg Host.Outcome.next ((if_neg runs).trans (if_neg ?_)))
  rw [List.length_append, List.length_singleton]
  omega

theorem exec_coreRestartDone {n again : Nat} (hw : Awake s) (low : n < 16) (down : (coreAt s n).state = .restarting) :
    exec (.coreRestartDone n again) s = .next (countBy Pg.ccx 0xE38 again (setCore n { coreAt s n with state := .online } s)) :=
  (next_whenAwake hw _).trans (congrArg Host.Outcome.next (if_pos ⟨low, down⟩))

theorem tidy_setCore (n : Nat) (c : Core) (hs : Tidy s) : Tidy (setCore n c s) := (keeps_setCore n c s (.refl s)).tidy hs

/-! The sequencer (R393, R395) -/

theorem awake_watch (hw : Awake s) : s.sss.state = .watch ∧ s.boot.halted = false := by
  unfold Awake awake at hw
  simpa using hw

theorem exec_fatalTrigger_on {cause : Nat} (on : s.boot.halted = false) (least : 1 ≤ cause) (most : cause < 8) :
    exec (.fatalTrigger cause) s = .next (takeover cause s) := by
  refine congrArg Host.Outcome.next (if_neg ?_)
  rintro (h | h | h)
  · rw [on] at h
    cases h
  · omega
  · omega

theorem exec_sssResetReq_reaches {w code : Nat} (pf : isPf w = true) (low : w < 4096) (up : portUp s (fnPort w) = true)
    (on : s.boot.halted = false) : exec (.sssResetReq w code) s = .next (
      if s.sss.state = .safe ∧ code = 0x5AFE then { s with sss := { s.sss with resetAsked := true } } else ignoreWrite Pg.sss s) :=
  congrArg Host.Outcome.next (if_neg (by simp [pf, low, up, on]))

/-- A write of the owner to an expert register of an unlocked page. -/
theorem expertGate_of_owns {w p off : Nat} (body : State → State) (hs : Tidy s) (ho : Owns s w p)
    (open_ : (pageHdr s p).unlocked = true) : expertGate w p off body s = body (dropHalf w p s) := by
  unfold expertGate
  rw [ownedWrite_of_owns _ hs ho]
  refine if_pos ?_
  rw [pageHdr_dropHalf hs]
  exact open_

/-! Firmware slots (R397, R398, R411) -/

section
variable {w : Nat}

theorem exec_fwStage_starts (hs : Tidy s) (ho : Owns s w Pg.ccx) (free : s.ccx.busy = false) (least : 4096 ≤ fld s Pg.ccx 0x70 25 0)
    (most : fld s Pg.ccx 0x70 25 0 ≤ 33554432) (master : (func s w).bme = true) : exec (.fwStage w) s =
      .next (setCcx { s.ccx with busy := true, stager := w, result := 0 } (dropHalf w Pg.ccx s)) := by
  have idle : ¬ s.ccx.busy = true := by rw [free]; exact Bool.false_ne_true
  have size : ¬ (fld s Pg.ccx 0x70 25 0 < 4096 ∨ 33554432 < fld s Pg.ccx 0x70 25 0) := by omega
  have reads : ¬ (!(func s w).bme) = true := by simp [master]
  exact congrArg Host.Outcome.next ((ownedWrite_of_owns _ hs ho).trans ((if_neg idle).trans ((if_neg size).trans (if_neg reads))))

theorem exec_fwSelect_of_owns (hs : Tidy s) (ho : Owns s w Pg.ccx) : exec (.fwSelect w) s =
    .next (setCcx (if (otherSlot s).state = .valid ∧ s.otp.minSvn ≤ (otherSlot s).svn then
      { s.ccx with nextB := !s.ccx.activeB, result := fwOk } else { s.ccx with result := fwRefused }) (dropHalf w Pg.ccx s)) := by
  refine congrArg Host.Outcome.next ((ownedWrite_of_owns _ hs ho).trans ?_)
  by_cases valid : (otherSlot s).state = .valid ∧ s.otp.minSvn ≤ (otherSlot s).svn
  · rw [if_pos valid]
    exact if_pos valid
  · rw [if_neg valid]
    exact if_neg valid

theorem exec_fwCommit_of_owns (hs : Tidy s) (ho : Owns s w Pg.ccx) (active : (activeSlot s).state = .active) : exec (.fwCommit w) s =
    .next (fwResult fwOk { dropHalf w Pg.ccx s with otp := { s.otp with minSvn := max s.otp.minSvn (activeSlot s).svn } }) :=
  congrArg Host.Outcome.next ((ownedWrite_of_owns _ hs ho).trans (if_pos active))

end

section
variable {i : FwImage}

theorem exec_fwStageDone_busy (hw : Awake s) (busy : s.ccx.busy = true) : exec (.fwStageDone (.image i)) s =
    .next (stageImage i (setCcx { s.ccx with busy := false } s)) :=
  (next_whenAwake hw _).trans (congrArg Host.Outcome.next (if_neg (by simp [busy])))

/-- The slot that an image fills. -/
def stagedSlot (i : FwImage) : FwSlot :=
  { state := .staged, version := i.version, svn := i.svn, keyIndex := i.keyIndex, revokes := i.revokes, trials := 0 }

/-- The slots once an image is staged in the one that is not in service. -/
def slotStaged (i : FwImage) (c : Ccx) : Ccx :=
  if c.activeB then { c with slotA := stagedSlot i, nextB := !c.activeB, result := fwOk }
  else { c with slotB := stagedSlot i, nextB := !c.activeB, result := fwOk }

theorem stageImage_fits (authentic : i.authentic = true) (live : s.otp.revoked.contains i.keyIndex = false) (key : i.keyIndex < 4)
    (version : s.otp.minSvn ≤ i.svn) (written : i.written = true) :
    stageImage i s = count Pg.ccx 0xE28 (setCcx (slotStaged i s.ccx) s) := by
  have signed : ¬ (!i.authentic || s.otp.revoked.contains i.keyIndex || decide (4 ≤ i.keyIndex)) = true := by
    rw [live]
    simp [authentic, key]
  have stored : stageImage i s = count Pg.ccx 0xE28 (setCcx { (setOtherSlot (stagedSlot i) s).ccx with
      nextB := !(setOtherSlot (stagedSlot i) s).ccx.activeB, result := fwOk } (setOtherSlot (stagedSlot i) s)) :=
    (if_neg signed).trans ((if_neg (Nat.not_lt.2 version)).trans (if_neg (by simp [written])))
  rw [stored]
  unfold slotStaged setOtherSlot
  split <;> rfl

theorem stageImage_forged (forged : i.authentic = false) : stageImage i s = fwResult fwSignature s :=
  if_pos (by simp [forged])

/-- A staged image fills the slot that is not in service, and is next. -/
theorem slotStaged_holds : otherSlot (setCcx (slotStaged i s.ccx) s) = stagedSlot i ∧
    activeSlot (setCcx (slotStaged i s.ccx) s) = activeSlot s ∧ (slotStaged i s.ccx).busy = s.ccx.busy ∧
      (slotStaged i s.ccx).nextB = !s.ccx.activeB ∧ (slotStaged i s.ccx).result = fwOk := by
  unfold slotStaged otherSlot activeSlot setCcx
  cases s.ccx.activeB <;> simp

theorem exec_fwTrialTimeout_due (hw : Awake s) (trial : s.ccx.trial = true) (late : 10000000000 ≤ s.now) : exec .fwTrialTimeout s =
    .next { setActiveSlot { activeSlot s with trials := (activeSlot s).trials + 1 } s with sss := { s.sss with trialReset := true } } := by
  refine (next_whenAwake hw _).trans (congrArg Host.Outcome.next ((if_pos ⟨trial, late⟩).trans ?_))
  rfl

/-- The slot in service is written; the other is not. -/
theorem slots_setActiveSlot (v : FwSlot) : activeSlot (setActiveSlot v s) = v ∧ otherSlot (setActiveSlot v s) = otherSlot s := by
  unfold activeSlot otherSlot setActiveSlot setCcx
  cases b : s.ccx.activeB <;> simp [b]

end

end
end Sys2Proof.Machine

open Sys2Proof Sys2Proof.Machine

/-- Settles O56: the oldest event goes through trace, log and event rings; the reset of a unit is calm; a takeover is `TakenOver`;
cores and firmware slots follow their commands. -/
theorem eventsCoresFirmware : Obligations.EventsCoresFirmware := by
  unfold Obligations.EventsCoresFirmware
  refine ⟨fun s e rest hs hw front => ?events, fun s page n t hs hw at_ hang => ?hang, fun s n why again hs hw rise low => ⟨?down, ?done⟩,
    fun s cause hs least most => ⟨?fatal, ?second⟩, fun s w code hs pf low up on => ⟨?asked, ?ignored, ?force⟩,
    fun s w hs ho => ⟨?stage, ?select, ?commit⟩, fun s i hs hw => ⟨?staged, ?forged, ?trial⟩⟩
  case events =>
    obtain ⟨tidy, counted, taken⟩ := eventTaken_holds e rest hs
    obtain ⟨tidy', uncounted, kept, passed, logs⟩ := eventLogged_holds e tidy
    have sent := delivered_deliver (s := eventLogged e (eventTaken e rest s)) e
    have run := exec_eventRoute_of_cons hw front
    have ccx : (eventTaken e rest s).ccx = s.ccx := congrArg (·.ccx) taken
    have hiu : (eventLogged e (eventTaken e rest s)).hiu = s.hiu := (congrArg (·.hiu) logs).trans (congrArg (·.hiu) taken)
    rw [ccx] at kept passed
    refine ⟨⟨_, run, ?_, ?_, fun yes room => ?_, fun no => ?_, ?_⟩, fun f dest on master d0 room => ?_⟩
    · exact (congrArg (·.router) sent.frame).trans ((congrArg (·.router) logs).trans (congrArg (·.router) taken))
    · rw [sent.events tidy', uncounted, counted]
    · exact (congrArg (·.ccx.log) sent.frame).trans (kept yes room)
    · exact (congrArg (·.ccx.log) sent.frame).trans (passed no)
    · exact (congrArg (·.mem) sent.frame).trans ((congrArg (·.mem) logs).trans (congrArg (·.mem) taken))
    · have same : func (eventLogged e (eventTaken e rest s)) f = func s f := congrArg (fun h : Hiu => tget Func.reset h.fns f) hiu
      rw [← same] at on master d0 room ⊢
      exact ⟨_, run, deliver_one tidy' dest on master d0 room⟩
  case hang =>
    obtain ⟨tidy, uncounted, resets⟩ := startReset_holds hs at_ hang
    have counted : Tidy (count Pg.ccx 0xE40 (startReset page s)) := (keeps_count _ _ _ (.refl _)).tidy tidy
    refine ⟨_, _, exec_unitHang_recovered hw at_ hang, fun reset => ?_, List.mem_append_right _ (List.mem_singleton_self _), rfl, rfl, rfl, ?_⟩
    · exact (congrArg (·.resetting) (pageHdr_modPage (p := page) (setEvtBit (sevBit .contained)) counted)).trans (resets reset)
    · exact (counter_countBy _ _ 1 tidy).trans (by rw [uncounted])
  case down =>
    intro on least most few
    refine ⟨_, exec_coreWatchdog_restarts hw low on least most few, ?_, ?_, ?_, fun m other => ?_,
      counter_countBy _ _ 1 (tidy_setCore n _ hs)⟩
    · exact congrArg (·.state) ((coreAt_setCore rise).trans (if_pos rfl))
    · exact congrArg (·.lastCause) ((coreAt_setCore rise).trans (if_pos rfl))
    · exact congrArg (·.restarts) ((coreAt_setCore rise).trans (if_pos rfl))
    · exact (coreAt_setCore rise).trans (if_neg other)
  case done =>
    intro down
    exact ⟨_, exec_coreRestartDone hw low down, (coreAt_setCore rise).trans (if_pos rfl),
      fun m other => (coreAt_setCore rise).trans (if_neg other), counter_countBy _ _ _ (tidy_setCore n _ hs)⟩
  case fatal =>
    intro hw
    obtain ⟨watch, on⟩ := awake_watch hw
    have taken := takenOver cause watch
    exact ⟨_, exec_fatalTrigger_on on least most, taken.cause_eq, taken.time_eq, taken.fault, taken.state_eq,
      fun p hp paged => taken.pageHdr_seized hp paged, fun n hn => congrArg (·.owner) (taken.claimOf_seized hs hn),
      fun p hp => taken.fportAt_disabled hp, taken.frozen, congrArg (·.mem) taken.takeoverOnly, congrArg (·.ple) taken.takeoverOnly⟩
  case second =>
    intro on safe none_
    refine (exec_fatalTrigger_on on least most).trans (congrArg Host.Outcome.next ?_)
    rw [takeover_of_not_watch cause (by rw [safe]; decide)]
    exact if_pos none_
  case asked =>
    intro safe magic
    exact (exec_sssResetReq_reaches pf low up on).trans (congrArg Host.Outcome.next (if_pos ⟨safe, magic⟩))
  case ignored =>
    intro other
    have refused : ¬ (s.sss.state = .safe ∧ code = 0x5AFE) := fun ⟨safe, magic⟩ => other.elim (· safe) (· magic)
    refine ⟨_, (exec_sssResetReq_reaches pf low up on).trans (congrArg Host.Outcome.next (if_neg refused)), rfl, ?_⟩
    exact congrArg (·.ignored) (pageHdr_modPage _ hs)
  case force =>
    intro value ho open_ odd
    have run : exec (.sssForce w value) s = .next (if openLife s then takeover 6 (dropHalf w Pg.sss s)
        else noteErr Pg.sss kindRefusedState .accessDenied 0x400 w (dropHalf w Pg.sss s)) := by
      refine congrArg Host.Outcome.next ((expertGate_of_owns _ hs ho open_).trans (if_neg ?_))
      omega
    constructor
    · intro life
      have taken := takenOver (s := dropHalf w Pg.sss s) 6 (awake_watch (awake_of_reaches ho.1)).1
      exact ⟨_, run.trans (congrArg Host.Outcome.next (if_pos life)), taken.cause_eq, taken.not_watch⟩
    · intro life
      refine ⟨_, run.trans (congrArg Host.Outcome.next (if_neg (by rw [life]; exact Bool.false_ne_true))), rfl, ?_⟩
      rw [pageHdr_noteErr _ _ _ (tidy_dropHalf hs), pageHdr_dropHalf hs]
  case stage =>
    intro free least most master
    exact ⟨_, exec_fwStage_starts hs ho free least most master, rfl⟩
  case select => exact ⟨_, exec_fwSelect_of_owns hs ho, rfl, rfl⟩
  case commit =>
    intro active
    exact ⟨_, exec_fwCommit_of_owns hs ho active, rfl, rfl⟩
  case staged =>
    intro busy authentic live key version written
    obtain ⟨other, active, idle, next, result⟩ := slotStaged_holds (s := setCcx { s.ccx with busy := false } s) (i := i)
    exact ⟨_, (exec_fwStageDone_busy hw busy).trans (congrArg Host.Outcome.next (stageImage_fits authentic live key version written)),
      congrArg (·.state) other, congrArg (·.version) other, congrArg (·.svn) other, active, idle, next, result, rfl⟩
  case forged =>
    intro busy forged
    exact ⟨_, (exec_fwStageDone_busy hw busy).trans (congrArg Host.Outcome.next (stageImage_forged forged)), rfl⟩
  case trial =>
    intro trial late
    obtain ⟨active, other⟩ := slots_setActiveSlot (s := s) { activeSlot s with trials := (activeSlot s).trials + 1 }
    exact ⟨_, exec_fwTrialTimeout_due hw trial late, rfl, congrArg (·.trials) active, other⟩
end
